-- ==== Sys2Proof/Word.lean ====
section
/-! DEFINITION. The words of the block and their plainest arithmetic (R4: multi-byte values are little-endian). -/

namespace Sys2Proof

/-- A 32-bit register or descriptor word. -/
abbrev Word := BitVec 32

/-- One byte of memory. -/
abbrev Byte := BitVec 8

/-- A 64-byte descriptor, word 0 in bits 31 to 0 (R63, R114). -/
abbrev Desc := BitVec 512

end Sys2Proof
end

