-- ==== Sys2Proof/Syntax.lean ====
section
/-! DEFINITION. The commands of the block: one constructor for each row of the operation table. -/

namespace Sys2Proof

/-- The origin of a register access (R362, R373). -/
inductive Origin where
  | host (port qp : Nat)
  | cp (quarter core : Nat)
  | lead (id : Nat)
  | sideband
  deriving DecidableEq, Repr

/-- A request that arrives at a Fold sub-bank (R95): its class, requester number and Fold offset, and for a write its
bytes by lane. -/
structure FoldArrival where
  cls : Nat
  num : Nat
  off : Nat
  isWrite : Bool
  bytes : List (Nat × Byte)
  deriving DecidableEq, Repr

/-- A field of a received fabric frame that is not what its body and R237 and R238 make it: the MAC addresses, the EtherType,
the FCS, the version, TYPE, LEN, a reserved header bit, the message code of a control frame, or a control payload that is
shorter than its code requires. -/
inductive RxField where
  | destination (mac : Nat)
  | source (mac : Nat)
  | etherType (n : Nat)
  | fcs
  | version (n : Nat)
  | type (n : Nat)
  | len (n : Nat)
  | reserved
  | code (n : Nat)
  | short
  deriving DecidableEq, Repr

/-- The header of a received fabric frame (R237, R238): the port it arrived at (quarter and direction), the fields that are
not what its body makes them, its other fields, and the FEC codewords of it that the port corrected and could not
(R236, R266). -/
structure RxHdr where
  q : Nat
  d : Nat
  raw : List RxField := []
  fecCorr : Nat := 0
  fecUncorr : Nat := 0
  vl : Nat
  cls : Nat
  lseq : Nat
  lack : Nat
  credit : Option (Nat × Nat × Nat)
  src : Nat
  srcQ : Nat
  dst : Nat
  route : Nat
  deriving DecidableEq, Repr

/-- The 16-byte header of a TREE message, with its ATTEMPT (R244). -/
structure TreeHdr where
  term : Nat
  origin : Nat
  attempt : Nat
  deriving DecidableEq, Repr

/-- An entry of DIGEST_UP (R244, R464). -/
structure LayerEntry where
  layer : Nat
  count : Nat
  holder : Nat
  digest : Nat
  deriving DecidableEq, Repr

/-- An entry of DIGEST_DOWN (R244, R465). -/
structure MajorityEntry where
  layer : Nat
  split : Bool
  holder : Nat
  digest : Nat
  deriving DecidableEq, Repr

/-- An entry of MISMATCH_UP (R203, R244). -/
structure Mismatch where
  tag : Nat
  quarter : Nat
  direction : Nat
  epoch : Nat
  receiver : Nat
  deriving DecidableEq, Repr

/-- An entry of BUCKET_STATE_UP (R244, R453). -/
structure BucketEntry where
  tag : Nat
  quarter : Nat
  state : Nat
  deriving DecidableEq, Repr

/-- The body of a CONFIG message (R245). -/
structure ConfigRec where
  role : Nat
  shape : Nat
  pos : Nat
  neigh : List Nat
  tree : Nat
  attempt : Nat
  committed : Nat
  skipped : Nat
  time : Nat
  aliasClear : Bool
  countsValid : Bool
  deriving DecidableEq, Repr

/-- The header of a collective segment (R195, R239). -/
structure CollHdr where
  tag : Nat
  attempt : Nat
  epoch : Nat
  part : Nat
  direction : Nat
  phase : Nat
  step : Nat
  off : Nat
  deriving DecidableEq, Repr

/-- A record of a MEND frame (R246). -/
structure MendRec where
  rtype : Nat
  flags : Nat
  subject : Nat
  other : Nat
  value : Nat
  deriving DecidableEq, Repr


/-- A send digest that a neighbour sends in a link check (R203): its direction is the sender's. -/
structure LinkDigest where
  tag : Nat
  quarter : Nat
  epoch : Nat
  direction : Nat
  value : Nat
  deriving DecidableEq, Repr


/-- A shard header (R281), with the lane it arrives on. -/
structure ShardHeader where
  round : Nat
  srcT : Nat
  ptpTx : Nat
  site : Nat
  quarter : Nat
  sel : Bool
  catchup : Bool
  nblk : Nat
  nemit : Nat
  crc : Nat
  common : Nat
  deriving DecidableEq, Repr

/-- What a quarter's snapshot finds (R399, R400): its 64 die sensors and eight DRAM junctions in 1/16 °C, the power of the
die and of the stacks in 0.5 W units, and the two rails in mV. -/
structure QuarterSense where
  die : List Int
  dram : List Int
  pCore : Nat
  pMem : Nat
  vCore : Nat
  vStack : Nat
  deriving DecidableEq, Repr

/-- What a phase of a start finds (R429, R431, R433): triads that fail BIST (quarter and triad), banks found corrupt
(2·class + bank), the junction temperature of each stack in 1/16 °C by 8·q + s, and the stacks whose stored record fails
its CRC. -/
structure StartFound where
  triads : List (Nat × Nat)
  corrupt : List Nat
  temps : List Int
  badCrc : List Nat
  deriving DecidableEq, Repr

/-- An RDMA request of another site on a migration queue pair (R270, R273): a WRITE, a READ, the increment of an RSIG, or a
64-bit atomic fetch-add. -/
inductive SiteRequest where
  | write (bytes : List (Byte × Bool))
  | read (len : Nat)
  | sig (counter quarter : Nat)
  | fetchAdd (v : Nat)
  deriving DecidableEq, Repr

/-- The sender of a migration control datagram and what every type carries of it (R272): site, site port, logical chip number,
ROUND, COMMON_ROUND and pod time. -/
structure DgramHdr where
  site : Nat
  q : Nat
  chip : Nat
  round : Nat
  common : Nat
  time : Nat
  deriving DecidableEq, Repr

/-- A range of the outer state of a position, at addresses of the compiled placement (R278, R287): the weights, the anchor, the common
anchor and the residual, each of `bytes` bytes, and the outer momentum with its scales. -/
structure OuterRange where
  weights : Nat
  anchor : Nat
  common : Nat
  residual : Nat
  bytes : Nat
  momentum : Nat
  mbytes : Nat
  deriving DecidableEq, Repr

/-- The commands of the block, one constructor for each row of the operation table. The first operand of each is its
stamp in ACLK (log entry 1). -/
inductive Instr where
  /-- A write to a register that has no row of its own applies each field by its access code; range, RSV and state checks decide whether it is performed (R5). -/
  | registerWrite (t : Nat) (o : Origin) (win slot off : Nat) (v : Word) (narrow : Bool)
  /-- A write of 1 to EVT_STS clears the bit, unless a hardware set in the same CCLK wins (R6). -/
  | evtStsClear (t : Nat) (o : Origin) (win slot : Nat) (v hw : Word)
  /-- A write of 1 to an EVT_FORCE bit sets the matching EVT_STS bit as a hardware set would, marked as forced (R357). -/
  | evtForce (t : Nat) (o : Origin) (win slot : Nat) (v hw : Word)
  /-- Setting an EVT_EN bit whose EVT_STS bit is already 1 raises an alarm (R356). -/
  | evtEnWrite (t : Nat) (o : Origin) (win slot : Nat) (v : Word)
  /-- Setting or clearing PAGE_CTL.QUIESCE stops or restarts fetching and acceptance in the page's block (R354). -/
  | pageQuiesce (t : Nat) (o : Origin) (win slot : Nat) (quiesce : Bool)
  /-- Setting PAGE_CTL.ENABLE to 1 lets the block start new work again (R354). -/
  | pageEnable (t : Nat) (o : Origin) (win slot : Nat)
  /-- Writing PAGE_CTL.ENABLE 0 disables the block; the write is performed only while the page is QUIESCED (R354). -/
  | pageDisable (t : Nat) (o : Origin) (win slot : Nat)
  /-- An array accepts the tile at the head of its queue once its operands, C lines, drain buffers and interval are ready (R47). -/
  | tileAccept (t q slot arr : Nat) (late : List (Nat × Nat × Nat)) (drains : List Nat) (flips : List (Nat × Nat))
  /-- A tile completes at B + 70 ACLK, or later after stalls; its last line is written and its SIG is incremented (R48). -/
  | tileComplete (t q slot arr corrected : Nat) (badRows badCols badLines : List Nat) (badA badB : Nat)
  /-- A write of 1 to ARR_CTL.RESUME discards a refused tile descriptor and resumes the halted array queue (R65). -/
  | arrayResume (t : Nat) (o : Origin) (q p a : Nat)
  /-- The quarter grants the oldest waiting request whose mangles are all free (R77). -/
  | mangleClaimGrant (t q : Nat)
  /-- A mangle delivers the last beat of its stream and is released in the next ACLK (R77). -/
  | mangleStreamDone (t q m : Nat)
  /-- A Fold sub-bank grants one waiting request by class and age and performs the line access (R95). -/
  | foldAccessGrant (t q bank sub : Nat) (arrivals : List FoldArrival) (flips : List (Nat × Nat))
  /-- A Fold request that has waited 32 ACLK is promoted to class 1 and counted in PROMOTED (R95). -/
  | foldRequestPromote (t q off num : Nat)
  /-- A Fold read delivers its line 18 ACLK after the grant, corrected, marked poisoned or clean (R335). -/
  | foldReadComplete (t q off : Nat)
  /-- In the reserved ACLK of each 1,024 the sub-bank serves rinse: poison rewrite, write-back, repair copy or patrol (R96). -/
  | foldScrubCycle (t q bank sub : Nat) (flips : List (Nat × Nat))
  /-- A TAIL write is performed only if the new occupancy is not smaller and fits the ring; otherwise TAIL_ERR or CFG_ERR is raised (R103). -/
  | ringTailWrite (t : Nat) (o : Origin) (q n : Nat) (v : Word)
  /-- A RING_CFG write is performed only with an empty ring and window and a ring that lies in populated Fold (R103). -/
  | ringCfgWrite (t : Nat) (o : Origin) (q n : Nat) (v : Word)
  /-- A queue issues a fetch of the entry at HEAD once it has a credit and a tracker entry and is not halted or quiescing (R105). -/
  | queueFetch (t q n : Nat)
  /-- The fetched line arrives; the entry is checked and enters the window, or is refused, or is executed as queue control (R105). -/
  | queueFetchArrive (t q n : Nat)
  /-- A WAIT_GE entry at HEAD is consumed once its counter reaches VALUE (R107). -/
  | qctlWaitGe (t q n : Nat)
  /-- A TAKE entry waits until its counter reaches VALUE, then subtracts VALUE atomically (R107). -/
  | qctlTake (t q n : Nat)
  /-- An ADD entry waits until every earlier descriptor of the queue has signalled, then adds VALUE to its counter (R107). -/
  | qctlAdd (t q n : Nat)
  /-- A CLEAR entry waits as ADD does, then sets its counter to 0 (R107). -/
  | qctlClear (t q n : Nat)
  /-- A register write to CTR_k replaces the counter value, first among the events of that ACLK; the reserved step counters refuse it (R113). -/
  | signalCounterWrite (t : Nat) (o : Origin) (q k : Nat) (v : Word)
  /-- A descriptor whose writes are visible increments its SIG counter, in queue order (R106). -/
  | descriptorSignal (t q n : Nat)
  /-- A write of ENG_CTL.RESUME discards the refused or failed descriptor and resumes the halted queue; a refused update program skip-completes (R115). -/
  | engineResume (t : Nat) (o : Origin) (q n : Nat)
  /-- A write of ENG_CTL.RETRY reruns a runtime-failed streamer, exporter or collective descriptor from its start (R115). -/
  | engineRetry (t : Nat) (o : Origin) (q n : Nat)
  /-- Vector kernel ADD writes s0 + s1, rounded once to FMT_OUT (R123). -/
  | vecAdd (t q e : Nat) (flips : List (Nat × Nat))
  /-- Vector kernel SUB writes s0 − s1, rounded once (R123). -/
  | vecSub (t q e : Nat) (flips : List (Nat × Nat))
  /-- Vector kernel MUL writes s0 · s1, rounded once (R123). -/
  | vecMul (t q e : Nat) (flips : List (Nat × Nat))
  /-- Vector kernel FMA writes s0 · s1 + v with v from VEC0 (R123). -/
  | vecFma (t q e : Nat) (flips : List (Nat × Nat))
  /-- Vector kernel MAX writes max(s0, s1) (R123). -/
  | vecMax (t q e : Nat) (flips : List (Nat × Nat))
  /-- Vector kernel MIN writes min(s0, s1) (R123). -/
  | vecMin (t q e : Nat) (flips : List (Nat × Nat))
  /-- Vector kernel AXPB writes PARAM0 · s0 + PARAM1 (R123). -/
  | vecAxpb (t q e : Nat) (flips : List (Nat × Nat))
  /-- Activation kernels 0x10 to 0x19 write f(s0) in binary32, rounded once (R123). -/
  | vecActivation (t q e : Nat) (flips : List (Nat × Nat))
  /-- Kernel RECIP writes 1/s0 (R123). -/
  | vecRecip (t q e : Nat) (flips : List (Nat × Nat))
  /-- Kernel RSQRT writes 1/√s0 (R123). -/
  | vecRsqrt (t q e : Nat) (flips : List (Nat × Nat))
  /-- Kernel LOG writes ln s0 (R123). -/
  | vecLog (t q e : Nat) (flips : List (Nat × Nat))
  /-- Backward kernels 0x20 to 0x29 write s1 · f′, with f′ from the saved output or input (R86). -/
  | vecActivationBackward (t q e : Nat) (flips : List (Nat × Nat))
  /-- ROW_SUM writes each row's sum to STAT as a split pair (R124). -/
  | vecRowSum (t q e : Nat) (flips : List (Nat × Nat))
  /-- ROW_MAX writes each row's maximum to STAT (R124). -/
  | vecRowMax (t q e : Nat) (flips : List (Nat × Nat))
  /-- ROW_SUMSQ writes each row's sum of squares to STAT (R123). -/
  | vecRowSumsq (t q e : Nat) (flips : List (Nat × Nat))
  /-- ROW_DOT writes each row's Σ s0 · s1 to STAT (R123). -/
  | vecRowDot (t q e : Nat) (flips : List (Nat × Nat))
  /-- ROW_LSE writes each row's log-sum-exp L to STAT (R88). -/
  | vecRowLse (t q e : Nat) (flips : List (Nat × Nat))
  /-- LN_FWD normalises each row and writes μ and ρ to STAT (R123). -/
  | vecLnFwd (t q e : Nat) (flips : List (Nat × Nat))
  /-- RMS_FWD scales each row by ρ and writes ρ to STAT (R123). -/
  | vecRmsFwd (t q e : Nat) (flips : List (Nat × Nat))
  /-- SOFTMAX_FWD writes e^(s0 − L) and L, honouring the row mask (R123). -/
  | vecSoftmaxFwd (t q e : Nat) (flips : List (Nat × Nat))
  /-- LN_BWD forms dx natively from saved statistics and adds the scale and bias gradients (R89). -/
  | vecLnBwd (t q e : Nat) (flips : List (Nat × Nat))
  /-- RMS_BWD forms dx natively from the saved ρ and adds the scale gradient (R89). -/
  | vecRmsBwd (t q e : Nat) (flips : List (Nat × Nat))
  /-- SOFTMAX_BWD forms dx from y and g in two passes (R90). -/
  | vecSoftmaxBwd (t q e : Nat) (flips : List (Nat × Nat))
  /-- SOFTMAX_BWD_L forms y from the scores and saved L, then dx (R90). -/
  | vecSoftmaxBwdL (t q e : Nat) (flips : List (Nat × Nat))
  /-- LN_BWD_RC forms layer-normalisation backward in recompute mode with four passes (R91). -/
  | vecLnBwdRc (t q e : Nat) (flips : List (Nat × Nat))
  /-- RMS_BWD_RC forms RMS-normalisation backward in recompute mode (R91). -/
  | vecRmsBwdRc (t q e : Nat) (flips : List (Nat × Nat))
  /-- SOFTMAX_BWD_RC forms softmax backward in recompute mode with four passes (R91). -/
  | vecSoftmaxBwdRc (t q e : Nat) (flips : List (Nat × Nat))
  /-- A conversion engine converts a Fold source to the destination format in LOCAL or TENSOR mode, gathering maxima and bins (R127). -/
  | convert (t q e : Nat) (flips : List (Nat × Nat))
  /-- A conversion engine takes one tile's carries from an array handoff and converts them (R128). -/
  | convertHandoff (t q e : Nat) (between : List (Nat × Byte)) (flips : List (Nat × Nat))
  /-- A standalone mangle writes the transpose of a 16-bit matrix, quantised for a block destination (R130). -/
  | transpose (t q m : Nat) (flips : List (Nat × Nat))
  /-- A sorter writes the bins of a range of histogram IDs to the Fold, clearing them if asked (R131). -/
  | sorterDump (t q so : Nat)
  /-- A digest engine adds the digest of a byte range into an accumulator (R133). -/
  | digest (t q g : Nat) (flips : List (Nat × Nat))
  /-- A wring compresses a weight delta with error feedback, optionally selecting KEEP blocks (R134). -/
  | compress (t q g : Nat) (flips : List (Nat × Nat))
  /-- A streamer copies rows between local and global addresses in segments, with optional digest tap and remote signal (R137). -/
  | streamerCopy (t q e : Nat)
  /-- A streamer writes zeros over the destination rows (R137). -/
  | streamerFill (t q e : Nat)
  /-- A streamer segment completes, or fails at runtime and halts the engine with XFER_ERR (R136). -/
  | streamerSegmentComplete (t q e seq idx : Nat) (site : Option (Nat × List (Byte × Bool))) (lost : Bool) (flips : List (Nat × Nat))
  /-- A SHIP_STEP descriptor is checked against the next attempt to ship and waits for that attempt to close (R183). -/
  | shipStep (t q : Nat)
  /-- Once the attempt has closed, EX0 sends STEP_BEGIN, the PAGE_DIFF records and STEP_END (R183). -/
  | shipStepSend (t q : Nat) (site : List (Nat × Nat × List (Byte × Bool))) (flips : List (Nat × Nat))
  /-- STEP_END becomes visible at the destination; Qq_NEXT increments and the image parity is freed (R183). -/
  | shipStepDone (t q : Nat) (site : List (Nat × Nat × List (Byte × Bool)))
  /-- EX0 sends whole D-tier pages as FULL_PAGE records under a lease (R138). -/
  | shipFull (t q : Nat) (site : List (Nat × Nat × List (Byte × Bool))) (flips : List (Nat × Nat))
  /-- EX0 reads CONS again 50 µs after the previous response while a record does not fit in the destination ring (R184). -/
  | exportConsReread (t q : Nat) (site : List (Nat × Nat × List (Byte × Bool)))
  /-- CS0 reduce-scatters a bucket lane round the torus rings and writes the owned ranges to SHARD (R191). -/
  | reduceScatter (t q : Nat) (flips : List (Nat × Nat))
  /-- CS0 gathers every owner's ranges of a lane into STAGE (R193). -/
  | allGather (t q : Nat) (flips : List (Nat × Nat))
  /-- A VERDICT operation forms the local record from the norm table and starts its climb of the tree (R147). -/
  | verdictOp (t q : Nat) (flips : List (Nat × Nat))
  /-- Once R144 holds, the module writes the step record, loads delayed scales, applies seed and slot map, resets and enters RUN (R145). -/
  | stepBoundary (t : Nat)
  /-- A write of ATTEMPT or COMMITTED is performed only in IDLE and journalled otherwise (R142). -/
  | stepCountWrite (t : Nat) (o : Origin) (k : Nat) (v : Word)
  /-- A node combines a child's verdict record and forwards the combination to its parent once complete (R148). -/
  | verdictUp (t : Nat) (h : RxHdr) (th : TreeHdr) (nf force : Bool) (contrib : Nat) (sumsq : Word)
  /-- A module forwards the verdict, writes VERDICT, VNORM and CLIP, increments VERDICTS and enters GO or SKIPPING (R148). -/
  | verdictDown (t : Nat) (h : RxHdr) (th : TreeHdr) (verdict : Nat) (vnorm clip : Word)
  /-- An update engine applies AdamW to an owned shard and stores weights and moments (R174). -/
  | updateAdamw (t q u : Nat) (flips : List (Nat × Nat))
  /-- An update engine applies AdamW with a factored second moment in two passes (R175). -/
  | updateAdamwFact (t q u : Nat) (flips : List (Nat × Nat))
  /-- An update engine applies SGD with momentum (R176). -/
  | updateSgdm (t q u : Nat) (flips : List (Nat × Nat))
  /-- An update engine runs a micro-op block per element, such as the outer program of a round (R179). -/
  | updateCustom (t q u : Nat) (flips : List (Nat × Nat))
  /-- An update program waiting for an unshipped difference image proceeds once that image is shipped (R182). -/
  | updateParityResume (t q u : Nat)
  /-- A program that has waited LEASE_WARN for an image raises EXPORT_LAG and sets LAG (R182). -/
  | exportLag (t q u : Nat)
  /-- Once its updates, reductions and gathers have signalled, the module reports PREPARED with its bitmaps (R154). -/
  | modulePrepared (t : Nat)
  /-- A node ORs a child's PREPARED bitmaps into its own report and forwards it when complete (R154). -/
  | preparedUp (t : Nat) (h : RxHdr) (th : TreeHdr) (count present nz : Nat)
  /-- A module forwards COMMIT, copies staged shards, commits histories, updates still counts, increments COMMITTED and closes (R155). -/
  | commitDown (t : Nat) (h : RxHdr) (th : TreeHdr) (time present nz : Nat)
  /-- A node merges its children's layer-digest lists with its own and forwards them (R464). -/
  | digestUp (t : Nat) (h : RxHdr) (th : TreeHdr) (entries : List LayerEntry)
  /-- A module whose layer digest is in the minority copies the layer from the named holder (R465). -/
  | digestDown (t : Nat) (h : RxHdr) (th : TreeHdr) (entries : List MajorityEntry)
  /-- A minority's copy completes; it digests the layer again and reports REPLICA_MEND or, after two failures, loss (R465). -/
  | replicaMendDone (t index : Nat) (bytes : List Byte) (outer : List OuterRange)
  /-- Setting CLAIM holds a lease from that CCLK and asks for it to be granted (R159). -/
  | leaseClaim (t : Nat) (o : Origin) (n : Nat)
  /-- Clearing CLAIM releases the claim at once; outstanding reads keep the lease held (R159). -/
  | leaseRelease (t : Nat) (o : Origin) (n : Nat)
  /-- Once the writes accepted before the claim complete, the lease is granted and MIXED and CLAIM_STEP recorded (R159). -/
  | leaseGrant (t n : Nat)
  /-- A write of L_BASE or L_COUNT is performed only with CLAIM 0 and HOLDS 0, else LEASE_ERR (R159). -/
  | leaseRangeWrite (t : Nat) (o : Origin) (n : Nat) (count : Bool) (v : Word)
  /-- A D-tier write waiting on a lease is accepted once no held lease covers its pages (R158). -/
  | leaseWriteAccept (t : Nat)
  /-- A write that has waited LEASE_WARN raises LEASE_STALE and records its page (R158). -/
  | leaseStale (t : Nat)
  /-- A sender receives READY for a stream and may send up to 32 unacknowledged segments (R195). -/
  | collReadyReceive (t : Nat) (h : RxHdr) (c : CollHdr)
  /-- CS0 sends a collective segment once READY and the stream's window allow (R195). -/
  | collSegmentSend (t q tag part dir : Nat)
  /-- A received collective segment is added by one vector ADD, stored, or dropped as STRAY (R196). -/
  | collSegmentReceive (t : Nat) (h : RxHdr) (c : CollHdr) (bytes : List Byte) (flips : List (Nat × Nat))
  /-- A stream waiting longer than WAIT_WARN raises COLL_WAIT and records the tag; it keeps waiting (R198). -/
  | collWait (t q tag part dir : Nat)
  /-- A write to SHAPE, POS, NEIGHi or TREE fails every running reduce-scatter and all-gather with code 0x21 (R199). -/
  | collTopologyWrite (t : Nat) (o : Origin) (off : Nat) (v : Word)
  /-- A write of CHECK.START at the lead starts a link check of the attempt in CHECK_ATT (R203). -/
  | linkCheckStart (t : Nat) (o : Origin)
  /-- On CHECK each module sends its send digests to its neighbours for comparison (R203). -/
  | checkLinks (t : Nat) (from_ : Option (RxHdr × TreeHdr)) (arrived : List LinkDigest) (elsewhere : Bool)
  /-- Link mismatches climb the tree; the lead counts them and raises LINK_MISMATCH (R203). -/
  | mismatchUp (t : Nat) (h : RxHdr) (th : TreeHdr) (total : Nat) (entries : List Mismatch)
  /-- A neighbour or the standby records the time of a lead heartbeat (R258). -/
  | heartbeat (t : Nat) (h : RxHdr) (th : TreeHdr) (time : Nat)
  /-- Members of the lost stretch's group run the regeneration or helper section (R454). -/
  | regen (t : Nat) (h : RxHdr) (th : TreeHdr) (lost adopter : Nat)
  /-- Modules report the state of every gradient bucket up the tree (R453). -/
  | bucketQuery (t : Nat) (h : RxHdr) (th : TreeHdr)
  /-- A node merges bucket states, keeping the lowest per tag and quarter (R453). -/
  | bucketStateUp (t : Nat) (h : RxHdr) (th : TreeHdr) (entries : List BucketEntry)
  /-- A module's report climbs to the lead, which acts on the report's KIND (R244). -/
  | reportUp (t : Nat) (h : RxHdr) (th : TreeHdr) (kind subject value : Nat)
  /-- A module receives the lead's named holder or adopter, or a refusal (R244). -/
  | leadAnswer (t : Nat) (h : RxHdr) (th : TreeHdr) (kind : Nat) (refused : Bool) (subject answer : Nat)
  /-- A module applies a site state, LAGGING and round mode sent down the tree (R291). -/
  | siteDown (t : Nat) (h : RxHdr) (th : TreeHdr) (site state : Nat) (lagging : Bool) (mode round : Nat)
  /-- A pseudo-channel scheduler assigns a request a way of a future slot and returns the assignment (R213). -/
  | memRequest (t pq port addr : Nat) (isWrite : Bool) (bytes : List (Nat × Byte))
  /-- The port sends the request one lead before its slot; path time runs from here (R213). -/
  | memAccept (t addr : Nat)
  /-- A memory read delivers its checked line, or a write returns completion, at the fixed path time (R338). -/
  | memAccessComplete (t addr : Nat) (flips : List (Nat × Nat))
  /-- A page mend completes and waiting updates read the line again (R462). -/
  | pageMendDone (t page : Nat) (lines : List (Nat × List Byte))
  /-- A write of REPAIR_CTL.GO requests a soft repair of the unit at REPAIR_ADDR (R224). -/
  | repairGo (t : Nat) (o : Origin) (q slot : Nat)
  /-- The copy of a unit into its spare completes and REPAIRED is raised (R224). -/
  | repairCopyDone (t q slot : Nat)
  /-- Slot 0 of each turn refreshes one bank group of the pseudo-channel (R211). -/
  | refreshSlot (t q slot pc : Nat)
  /-- A rinse slot serves the first pending rewrite, write-back, repair copy or patrol read (R387). -/
  | rinseSlot (t q slot pc : Nat) (flips : List (Nat × Nat))
  /-- A press slot measures one pin group's eyes and moves sampling phases (R391). -/
  | pressSlot (t q slot pc grp moves : Nat) (margins : List Nat)
  /-- A D stack in self-refresh whose supply or junction leaves its limits clears RETAIN_OK (R227). -/
  | retainBreak (t q d : Nat)
  /-- A seam flit with an uncorrectable codeword is dropped and resent (R223). -/
  | seamFlitReceive (t idx : Nat) (bad : Bool)
  /-- Press adds or removes an idle flit to hold the seam's elastic depth (R392). -/
  | seamIdleFlit (t idx : Nat) (depth : Int)
  /-- A port sends a frame once it holds enough credits of its lane and class (R240). -/
  | frameSend (t q d : Nat)
  /-- A received WRITE frame is delivered to its target or forwarded by dimension order (R239). -/
  | frameWrite (t : Nat) (h : RxHdr) (seg : Nat) (rsig : Bool) (bytes : List (Byte × Bool))
  /-- A READ_REQ frame reads the target and returns READ_RESP (R239). -/
  | frameReadReq (t : Nat) (h : RxHdr) (seg len ret : Nat) (flips : List (Nat × Nat))
  /-- A READ_RESP completes the read segment or returns an address error (R239). -/
  | frameReadResp (t : Nat) (h : RxHdr) (seg : Nat) (error : Bool) (bytes : List (Byte × Bool))
  /-- A SIG frame applies a remote counter increment under R109 (R239). -/
  | frameSig (t : Nat) (h : RxHdr) (counter quarter amount : Nat)
  /-- A CTRL frame carries acknowledgements, credits and NAKs that trigger resends (R241). -/
  | frameCtrl (t : Nat) (h : RxHdr) (nak : Option Nat)
  /-- Credits with no reverse frame to carry them are returned in a CTRL frame within 1 µs (R240). -/
  | creditReturnTimer (t q d : Nat)
  /-- Each port sends a CTRL frame at least every 10 µs (R241). -/
  | ctrlKeepaliveSend (t q d : Nat)
  /-- A frame unacknowledged for 8 µs is resent; the 16th resend takes the link down (R241). -/
  | replayTimeout (t q d : Nat)
  /-- No valid frame for 100 µs takes the link down (R241). -/
  | linkIdleTimeout (t q d : Nat)
  /-- Loss of PCS alignment takes the link down (R241). -/
  | pcsAlignLost (t q d : Nat)
  /-- Port training completes at full or narrow width and LINK_UP is raised (R236). -/
  | linkTrained (t q d lanes : Nat)
  /-- Writing PORT_CTL.ENABLE 0 takes the link down at once (R266). -/
  | portDisable (t : Nat) (o : Origin) (q d : Nat)
  /-- Every 2^16 counts a child sends SYNC_REQ to its tree parent (R254). -/
  | podTimeSyncTimer (t : Nat)
  /-- Every 2^16 counts each port that is up sends LINK_REQ (R243). -/
  | linkDelayTimer (t : Nat)
  /-- A parent answers a SYNC_REQ with SYNC_RESP, or JOIN_RESP for a joining child (R254). -/
  | syncReq (t : Nat) (h : RxHdr) (ta seq state : Nat)
  /-- A child computes offset and delay, steers its rate and updates LOCKED (R254). -/
  | syncResp (t : Nat) (h : RxHdr) (ta tb tc seq state : Nat)
  /-- A neighbour answers LINK_REQ with LINK_RESP (R243). -/
  | linkReq (t : Nat) (h : RxHdr) (ta seq state : Nat)
  /-- A port computes LINK_DELAY from the exchange (R243). -/
  | linkResp (t : Nat) (h : RxHdr) (ta tb tc seq state : Nat)
  /-- A joining module steps its count once to the parent's time plus delay (R255). -/
  | joinResp (t : Nat) (h : RxHdr) (ta tb tc seq state : Nat)
  /-- A hello records the neighbour in NEIGH_ID, marks MISWIRED or starts tack (R259). -/
  | hello (t : Nat) (h : RxHdr) (id quarter direction : Nat) (spare inPod : Bool) (term : Nat)
  /-- A better candidate key is recorded and flooded to neighbours (R257). -/
  | candidate (t : Nat) (h : RxHdr) (prio id : Nat)
  /-- After ELECT_QUIET without improvement the best key becomes LEAD and the second STANDBY (R257). -/
  | electionClose (t : Nat)
  /-- The lead collects neighbour tables and checks them against the shape (R259). -/
  | neighTable (t : Nat) (h : RxHdr) (sender : Nat) (spare : Bool) (ids : List Nat) (sig : Nat)
  /-- A module takes its role, collective registers, step counts and pod time from the lead (R245). -/
  | config (t : Nat) (h : RxHdr) (c : ConfigRec)
  /-- The lead accepts or refuses a starting module into an ABSENT or CUT position (R439). -/
  | tack (t : Nat) (h : RxHdr) (id sig : Nat)
  /-- A starting module learns that its tack was accepted or refused (R439). -/
  | tackReply (t : Nat) (h : RxHdr) (refused : Bool)
  /-- Signatures are confirmed so that a warm start may restore its configuration from flash (R260). -/
  | topoConfirm (t : Nat) (h : RxHdr) (sig : Nat) (agree : Bool)
  /-- A lead neighbour answers the standby's probe with the time of its last heartbeat (R258). -/
  | leadProbe (t : Nat) (h : RxHdr) (term : Nat)
  /-- The standby records a neighbour's answer about the lead's heartbeats (R258). -/
  | probeAnswer (t : Nat) (h : RxHdr) (term last : Nat) (none_ : Bool)
  /-- The lead sends a HEARTBEAT every LEAD_TIMEOUT / 4 (R258). -/
  | leadHeartbeatTimer (t : Nat)
  /-- The standby, without a heartbeat for LEAD_TIMEOUT, probes the lead's neighbours (R258). -/
  | standbyLeadTimeout (t : Nat)
  /-- At the end of the probe window the standby takes over or raises LEAD_PATH (R258). -/
  | probeWindowExpire (t : Nat)
  /-- A write of POD_CMD.DISCOVER in IDLE starts discovery (R259). -/
  | discoveryStart (t : Nat) (o : Origin)
  /-- A write of POD_CMD.PT_APPLY in IDLE sets the lead's count at the next discovery (R255). -/
  | ptApply (t : Nat) (o : Origin)
  /-- A write of POD_CMD.CUT at the lead declares the chip in CUT_SEL lost (R261). -/
  | podCmdCut (t : Nat) (o : Origin)
  /-- A lost module stops transmitting except on VL 6 (R262). -/
  | cutSelf (t : Nat) (h : RxHdr) (epoch : Nat) (recs : List MendRec)
  /-- A module sets a cut-table entry of the subject (R246). -/
  | markCut (t : Nat) (h : RxHdr) (epoch : Nat) (recs : List MendRec)
  /-- A module sets or clears an alias entry from a lost chip to its adopter (R264). -/
  | aliasChip (t : Nat) (h : RxHdr) (epoch : Nat) (recs : List MendRec)
  /-- A spare becomes ACTIVE in the lost position and begins take-up (R262). -/
  | assignSpare (t : Nat) (h : RxHdr) (epoch : Nat) (recs : List MendRec)
  /-- The lead counts a neighbour's report that a module is unreachable (R261). -/
  | unreachable (t : Nat) (h : RxHdr) (epoch : Nat) (recs : List MendRec)
  /-- The lead receives a module's own report that it cannot run its stretch (R450). -/
  | lostSelf (t : Nat) (h : RxHdr) (epoch : Nat) (recs : List MendRec)
  /-- A module sets MEND_EPOCH once the records of an epoch are complete (R246). -/
  | epochEnd (t : Nat) (h : RxHdr) (epoch : Nat) (recs : List MendRec)
  /-- A migration shard header arrives, is CRC-checked and held, replaced or discarded (R282). -/
  | shardHeaderArrive (t : Nat) (h : ShardHeader) (ptp : Nat) (flips : List (Nat × Nat))
  /-- At the round's deadline READY holds with the headers then held (R283). -/
  | roundDeadline (t : Nat)
  /-- An acknowledged RDMA WRITE updates SRTT, detects jumps and re-derives pacing (R289). -/
  | rttSample (t site sample : Nat)
  /-- Every 100 ms a keep-alive datagram is sent to each counterpart (R290). -/
  | migKeepaliveTimer (t : Nat)
  /-- No contact from a site for the separation time is reported to the lead (R290). -/
  | siteContactTimeout (t site : Nat)
  /-- RESET, SITE_STATE and JOIN_ANNOUNCE are repeated every 100 ms until answered (R272). -/
  | migDatagramRepeat (t : Nat)
  /-- A keep-alive datagram counts as contact from its site (R272). -/
  | keepalive (t : Nat) (d : DgramHdr)
  /-- A migration queue pair in error, or whose far end changed holder, starts a RESET exchange (R271). -/
  | migQpError (t q site : Nat)
  /-- On a RESET datagram both ends reset the queue pair and resend recent own-site slots (R271). -/
  | resetQp (t : Nat) (d : DgramHdr) (qpn : Nat)
  /-- Leads exchange site sets and rounds and choose the leading side on rejoin (R291). -/
  | siteState (t : Nat) (d : DgramHdr) (sites side : Nat)
  /-- A late-joining site is set LINKED from the next round (R294). -/
  | joinAnnounce (t : Nat) (d : DgramHdr)
  /-- A PTP Sync updates the slave clock's offset to the master (R295). -/
  | ptpSync (t domain : Nat) (offset : Int)
  /-- At each PTP second pod time and seconds are captured into MAP_PT and MAP_SEC (R295). -/
  | ptpSecond (t seconds : Nat)
  /-- No Sync for 4 s raises PTP_UNLOCK (R295). -/
  | ptpSyncTimeout (t : Nat)
  /-- A CM REQ is accepted or rejected by role, ownership and session (R302). -/
  | cmConnectRequest (t port role session mtu psn peer timeout retries rnr : Nat) (zero : Bool)
  /-- A CLAIM inside a mutually authenticated session records the owner digest and sets OWNED (R301). -/
  | claimOwner (t session : Nat)
  /-- An owner's RELEASE waits for earlier requests, tears down host queue pairs and clears OWNED (R301). -/
  | releaseOwner (t session : Nat)
  /-- An RDMA WRITE to MEM is performed in PSN order on its queue pair (R304). -/
  | hostMemWrite (t port idx psn rkey a : Nat) (bytes : List Byte) (ce : Bool)
  /-- An RDMA READ of MEM returns the data in PSN order (R304). -/
  | hostMemRead (t port idx psn rkey a len : Nat) (ce : Bool) (flips : List (Nat × Nat))
  /-- An RDMA WRITE to REG performs one journalled register write per word (R305). -/
  | hostRegWrite (t port idx psn rkey a : Nat) (bytes : List Byte) (ce : Bool)
  /-- An RDMA READ of REG reads each word once and answers duplicates from its store (R305). -/
  | hostRegRead (t port idx psn rkey a len : Nat) (ce : Bool)
  /-- An atomic fetch-add on MEM reads and writes 8 bytes with no access between (R306). -/
  | hostFetchAdd (t port idx psn rkey a v : Nat) (ce : Bool) (flips : List (Nat × Nat))
  /-- An RDMA WRITE with immediate on a CONTROL queue pair writes its payload and then a queue's TAIL (R307). -/
  | hostDoorbell (t port idx psn rkey a : Nat) (bytes : List Byte) (imm : Word) (ce : Bool)
  /-- An RC queue pair entering error is counted in QP_ERR and torn down (R300). -/
  | hostQpError (t port idx : Nat)
  /-- An IDENTIFY datagram from any address is answered with the module's identity (R311). -/
  | identify (t port code nonce : Nat)
  /-- The module answers Neighbor Solicitation and ARP for every address it holds (R298). -/
  | neighborSolicit (t port addr : Nat) (v4 : Bool)
  /-- A received CNP raises α and cuts the sending queue pair's rate (R309). -/
  | cnpReceive (t port idx : Nat) (within ce : Bool)
  /-- Every 55 µs α decays and the rate rises by 5 Gb/s (R309). -/
  | ecnRateTimer (t port idx : Nat)
  /-- Setting ENABLE on an event ring resets PROD to 0 and writes it to the control block (R310). -/
  | eventRingEnable (t : Nat) (o : Origin) (n : Nat) (v : Word)
  /-- A new QPN for a ring whose queue pair is down rereads CONS and resends unacknowledged records (R310). -/
  | eventRingQpnWrite (t : Nat) (o : Origin) (n : Nat) (v : Word)
  /-- Waiting records and then PROD are written into a host event ring on its EVENT queue pair (R310). -/
  | eventRecordSend (t n : Nat)
  /-- An acknowledged PROD write advances HOST_SEQ for a journal ring (R376). -/
  | eventProdAck (t n prod : Nat)
  /-- A record that does not fit rereads CONS, repeating 50 µs after each response (R310). -/
  | eventConsReread (t n : Nat) (answer : Option Nat)
  /-- An event ring's queue pair fails; QP_DOWN is set and records wait under their class rule (R310). -/
  | eventQpDown (t n : Nat)
  /-- A reference without edges for 100 ns or out of ±500 ppm is lost; the quarter switches or enters holdover (R313). -/
  | refLost (t q r : Nat)
  /-- A reference within ±500 ppm for 1 s is qualified; holdover may end (R313). -/
  | refQualified (t q r : Nat)
  /-- After 10 s of requalification the quarter returns to its preferred reference (R314). -/
  | refRevert (t q : Nat)
  /-- A root PLL loses lock; every island of the quarter enters FAILED and the quarter is lost (R315). -/
  | pllFail (t q : Nat)
  /-- A STOP command is performed only for a quiesced, stoppable island, else STOP_REFUSED (R320). -/
  | islandStop (t : Nat) (o : Origin) (q idx : Nat)
  /-- A START command takes a STOPPED island towards RUN (R320). -/
  | islandStart (t : Nat) (o : Origin) (q idx : Nat)
  /-- The island reaches STOPPED 64 CCLK after the command (R320). -/
  | islandStopped (t : Nat)
  /-- The island reaches RUN and held accesses are performed (R320). -/
  | islandRun (t : Nat)
  /-- The mirror programs 128 waiting entries, or a partial block 1 ms after the oldest entered (R377). -/
  | journalFlashProgram (t q : Nat)
  /-- A verified program advances FLASH_SEQ; a failed one raises FLASH_ERR and is rewritten elsewhere (R377). -/
  | journalFlashDone (t q : Nat) (ok : Bool)
  /-- A write held 1 ms for journal space is refused with JOURNAL_FULL (R378). -/
  | journalHoldTimeout (t q : Nat)
  /-- A held write proceeds once ring occupancy falls below the threshold (R378). -/
  | journalHoldRelease (t q : Nat)
  /-- Every 900,000 counts tally snapshots every quarter and emits telemetry records (R399). -/
  | tallySample (t : Nat) (qs : List QuarterSense)
  /-- Every 10 ms press reads lane eye margins and raises MARGIN_LOW (R392). -/
  | pressLinkMonitor (t q : Nat) (margins : List Nat)
  /-- Once per second press calibrates sensor offsets and excludes failed sensors (R393). -/
  | pressThermal (t q : Nat) (raw : List Int) (ref1 ref2 : Int)
  /-- Every 10 minutes press writes each stack's calibration record to flash (R394). -/
  | pressCalRecord (t q : Nat) (temps : List Int)
  /-- Once per second darn measures triad aging and marks failed triads (R396). -/
  | darnAging (t q : Nat) (losses : List Nat) (cpu life spare erases : Nat)
  /-- On +54 V contact the power block qualifies the input, pre-charges and brings up AON (R411). -/
  | powerContact (t straps : Nat)
  /-- With the interlock met the module leaves STANDBY for RAMP and a cold start begins (R413). -/
  | rampStart (t straps flow : Nat) (tInlet : Int) (vin : Nat)
  /-- An interlock condition failing during RAMP turns MAIN and MEMD off and returns to STANDBY (R413). -/
  | rampInterlockFail (t flow : Nat) (tInlet : Int) (vin : Nat) (supply return_ : Bool)
  /-- PWR_EN low for 1 ms begins an orderly shutdown (R414). -/
  | pwrEnLow (t : Nat)
  /-- A write of PWR_CMD.OFF begins an orderly shutdown (R414). -/
  | pwrOff (t : Nat) (o : Origin)
  /-- With the journal flushed, MAIN and MEMD turn off and STATE becomes STANDBY (R414). -/
  | shutdownComplete (t : Nat)
  /-- Every 10 µs the power block compares power with P_LIMIT and moves the throttle level (R416). -/
  | throttleUpdate (t vin iin pavg : Nat)
  /-- An input outside 48 V to 58 V for 1 ms raises V_RANGE (R410). -/
  | vRange (t vin : Nat)
  /-- Every 1 ms flow and temperatures are measured, raising FLOW_LOW or INLET_HIGH after 1 s (R419). -/
  | coolantSample (t flow : Nat) (tInlet tOutlet : Int)
  /-- Every 10 ms P_THERM falls by 84 W under a warning or rises by 42 W (R421). -/
  | thermalLimitUpdate (t : Nat) (die dram : List Int)
  /-- A trip cause turns MAIN and MEMD off within 1 ms, records TRIP_INFO and asserts ALERT_L (R422). -/
  | trip (t cause q unit : Nat)
  /-- PWR_EN low for 1 s takes the module from TRIPPED to STANDBY (R422). -/
  | tripRelease (t : Nat)
  /-- SMBus command 0x01 returns the 16-byte power status and releases ALERT_L (R425). -/
  | smbPstat (t : Nat)
  /-- SMBus command 0x10 sets the PWR register address (R424). -/
  | smbRegAddr (t v : Nat) (pec : Bool)
  /-- SMBus command 0x11 reads the PWR register at REG_ADDR (R424). -/
  | smbRegRead (t : Nat)
  /-- SMBus command 0x12 writes the PWR register at REG_ADDR after STOP, journalled from the sideband (R424). -/
  | smbRegWrite (t : Nat) (v : Word) (pec : Bool)
  /-- A read of the Alert Response Address returns 0x60 and releases ALERT_L (R426). -/
  | smbAlertResponse (t : Nat)
  /-- SMB_CLK held low for 25 ms resets the interface (R423). -/
  | smbClockLowReset (t : Nat)
  /-- An owner's BOOT_CMD.COLD flushes the journal, turns power off and cold-starts 1 s later (R429). -/
  | bootCold (t : Nat) (o : Origin)
  /-- An owner's BOOT_CMD.WARM puts the D stacks in self-refresh and restarts with omissions (R432). -/
  | bootWarm (t : Nat) (o : Origin)
  /-- An owner's BOOT_CMD.UNPICK checks the unpick map and starts unpick (R441). -/
  | bootUnpick (t : Nat) (o : Origin)
  /-- The unpicking module's step closes; export and copy to the adopter begin (R442). -/
  | unpickDrainDone (t : Nat) (flips : List (Nat × Nat))
  /-- With the mapped regions copied, the lead cuts the module and it shuts down (R442). -/
  | unpickTransferDone (t : Nat)
  /-- A start phase completes and the next begins (R429). -/
  | startPhaseComplete (t : Nat) (x : StartFound)
  /-- A phase exceeds its bound or fails a check; the start fails and FAIL_INFO is written (R431). -/
  | startPhaseFail (t cause q unit : Nat)
  /-- 1 s after a failed start the module warm-starts, cold-starts or parks (R437). -/
  | startRetry (t : Nat) (up0 up1 : Bool)
  /-- A tile not completed within TILE_WDOG marks its triad failed (R458). -/
  | tileWatchdog (t q p a : Nat)
  /-- A descriptor not signalled within ENG_WDOG fails its engine and the module reports lost (R458). -/
  | engineWatchdog (t q n paused : Nat)
  /-- The Q0 service core sends a heartbeat every 100 µs (R466). -/
  | serviceHeartbeatTimer (t : Nat)
  /-- Q1 takes over module services after 2 ms without heartbeat or on Q0 failure (R466). -/
  | serviceFailover (t : Nat) (failed : Bool)
  /-- A hart without a CSR 0x7C0 write for CP_WDOG is reset; a second expiry reports loss (R472). -/
  | cpWatchdog (t q idx : Nat)
  /-- A hart's write of CSR 0x7C0 restarts its watchdog (R472). -/
  | cpWatchdogKick (t q idx : Nat)
  /-- Writing CP_CTL.RUN 0 halts the hart at its next instruction (R472). -/
  | cpHalt (t : Nat) (o : Origin) (q idx : Nat)
  /-- Writing CP_CTL.RESET resets the hart (R472). -/
  | cpReset (t : Nat) (o : Origin) (q idx : Nat)
  /-- The responder returns SPDM version 1.3 (R482). -/
  | spdmGetVersion (t port idx : Nat)
  /-- The responder returns its capabilities (R482). -/
  | spdmGetCapabilities (t port idx ver : Nat)
  /-- The responder selects RSA-PSS-3072, SHA-384, secp384r1 and AES-256-GCM (R482). -/
  | spdmNegotiateAlgorithms (t port idx ver : Nat) (offered : Bool)
  /-- The responder returns the certificate slot digests (R482). -/
  | spdmGetDigests (t port idx ver : Nat)
  /-- The responder returns the slot-0 certificate chain (R482). -/
  | spdmGetCertificate (t port idx ver slot offset length : Nat)
  /-- The responder signs a challenge with its DeviceID key (R482). -/
  | spdmChallenge (t port idx ver slot : Nat) (nonce : List Byte)
  /-- The responder returns signed measurement blocks of MR0 to MR6 (R482). -/
  | spdmGetMeasurements (t port idx ver index : Nat) (signed : Bool) (nonce : List Byte)
  /-- The responder begins a session key exchange (R482). -/
  | spdmKeyExchange (t port idx ver slot : Nat) (request : List Byte)
  /-- The session handshake completes with mutual authentication (R482). -/
  | spdmFinish (t session : Nat) (leaf : Option (BitVec 384)) (ok : Bool)
  /-- A session heartbeat keeps the session alive (R482). -/
  | spdmHeartbeat (t session : Nat)
  /-- The session keys are updated (R482). -/
  | spdmKeyUpdate (t session op : Nat)
  /-- The session ends (R482). -/
  | spdmEndSession (t session : Nat)
  /-- A session whose heartbeat is missed ends (R482). -/
  | spdmHeartbeatTimeout (t session : Nat)
  /-- The module returns a dual-signed attestation report over the nonce (R484). -/
  | getReport (t session nonce : Nat)
  /-- The trust block checks an image from MEM and writes it to the second bank as PENDING (R485). -/
  | fwStage (t session a len : Nat) (rsa slh digest written : Bool) (flips : List (Nat × Nat))
  /-- The trust block burns fuse bits to raise a class's security floor (R486). -/
  | fwRaiseFloor (t session cls floor : Nat) (written : Bool)
  /-- A site port's 200 Gb/s link goes down, clearing its HOST_STS port-up bit and moving PTP and keep-alives to the next port that is up (R297). -/
  | sitePortLinkDown (t port : Nat)
  /-- A site port completes training after start or after a loss and its port-up bit sets (R297). -/
  | sitePortLinkUp (t port : Nat)
  /-- A received IPv6 router advertisement gives a site port its autoconfigured prefix and host address, shown in HPFX_Sq (R298). -/
  | routerAdvertisement (t port prefix_ : Nat)
  /-- With IPV4_EN set, a DHCPv4 reply gives a site port its IPv4 host address, shown in IPV4_Sq (R298). -/
  | dhcpv4Reply (t port addr : Nat)
  /-- An RDMA WRITE or READ arriving on a migration queue pair lands slot data, serves a spare's read, or is relayed as a cross-site access onto the fabric (R273). -/
  | migrationQpRequest (t q site seg vl addr : Nat) (req : SiteRequest) (flips : List (Nat × Nat))
  /-- A received IEEE 802.1Qbb PFC frame stops or resumes transmission of a paused priority on a site port (R308). -/
  | pfcPauseFrame (t port mask : Nat)
  /-- A host's CM disconnect tears down a queue pair, ending any SPDM session and event ring that depend on it (R302). -/
  | cmDisconnectRequest (t port idx : Nat)
  /-- When stage 4 of discovery ends at the lead, positions that sent no neighbour table are marked ABSENT and the tables are checked (R259). -/
  | neighTableDeadline (t : Nat)
  /-- Loss of the +54 V input takes the AON domain down, clearing WARM_FAILS and COLD_FAILS and setting BIST_AGE to all ones (R436). -/
  | aonPowerLoss (t : Nat)
  deriving DecidableEq, Repr

/-- The stamp of a command: the ACLK at which it comes. -/
def Instr.stamp : Instr → Nat
  | .registerWrite t _ _ _ _ _ _ => t
  | .evtStsClear t _ _ _ _ _ => t
  | .evtForce t _ _ _ _ _ => t
  | .evtEnWrite t _ _ _ _ => t
  | .pageQuiesce t _ _ _ _ => t
  | .pageEnable t _ _ _ => t
  | .pageDisable t _ _ _ => t
  | .tileAccept t _ _ _ _ _ _ => t
  | .tileComplete t _ _ _ _ _ _ _ _ _ => t
  | .arrayResume t _ _ _ _ => t
  | .mangleClaimGrant t _ => t
  | .mangleStreamDone t _ _ => t
  | .foldAccessGrant t _ _ _ _ _ => t
  | .foldRequestPromote t _ _ _ => t
  | .foldReadComplete t _ _ => t
  | .foldScrubCycle t _ _ _ _ => t
  | .ringTailWrite t _ _ _ _ => t
  | .ringCfgWrite t _ _ _ _ => t
  | .queueFetch t _ _ => t
  | .queueFetchArrive t _ _ => t
  | .qctlWaitGe t _ _ => t
  | .qctlTake t _ _ => t
  | .qctlAdd t _ _ => t
  | .qctlClear t _ _ => t
  | .signalCounterWrite t _ _ _ _ => t
  | .descriptorSignal t _ _ => t
  | .engineResume t _ _ _ => t
  | .engineRetry t _ _ _ => t
  | .vecAdd t _ _ _ => t
  | .vecSub t _ _ _ => t
  | .vecMul t _ _ _ => t
  | .vecFma t _ _ _ => t
  | .vecMax t _ _ _ => t
  | .vecMin t _ _ _ => t
  | .vecAxpb t _ _ _ => t
  | .vecActivation t _ _ _ => t
  | .vecRecip t _ _ _ => t
  | .vecRsqrt t _ _ _ => t
  | .vecLog t _ _ _ => t
  | .vecActivationBackward t _ _ _ => t
  | .vecRowSum t _ _ _ => t
  | .vecRowMax t _ _ _ => t
  | .vecRowSumsq t _ _ _ => t
  | .vecRowDot t _ _ _ => t
  | .vecRowLse t _ _ _ => t
  | .vecLnFwd t _ _ _ => t
  | .vecRmsFwd t _ _ _ => t
  | .vecSoftmaxFwd t _ _ _ => t
  | .vecLnBwd t _ _ _ => t
  | .vecRmsBwd t _ _ _ => t
  | .vecSoftmaxBwd t _ _ _ => t
  | .vecSoftmaxBwdL t _ _ _ => t
  | .vecLnBwdRc t _ _ _ => t
  | .vecRmsBwdRc t _ _ _ => t
  | .vecSoftmaxBwdRc t _ _ _ => t
  | .convert t _ _ _ => t
  | .convertHandoff t _ _ _ _ => t
  | .transpose t _ _ _ => t
  | .sorterDump t _ _ => t
  | .digest t _ _ _ => t
  | .compress t _ _ _ => t
  | .streamerCopy t _ _ => t
  | .streamerFill t _ _ => t
  | .streamerSegmentComplete t _ _ _ _ _ _ _ => t
  | .shipStep t _ => t
  | .shipStepSend t _ _ _ => t
  | .shipStepDone t _ _ => t
  | .shipFull t _ _ _ => t
  | .exportConsReread t _ _ => t
  | .reduceScatter t _ _ => t
  | .allGather t _ _ => t
  | .verdictOp t _ _ => t
  | .stepBoundary t => t
  | .stepCountWrite t _ _ _ => t
  | .verdictUp t _ _ _ _ _ _ => t
  | .verdictDown t _ _ _ _ _ => t
  | .updateAdamw t _ _ _ => t
  | .updateAdamwFact t _ _ _ => t
  | .updateSgdm t _ _ _ => t
  | .updateCustom t _ _ _ => t
  | .updateParityResume t _ _ => t
  | .exportLag t _ _ => t
  | .modulePrepared t => t
  | .preparedUp t _ _ _ _ _ => t
  | .commitDown t _ _ _ _ _ => t
  | .digestUp t _ _ _ => t
  | .digestDown t _ _ _ => t
  | .replicaMendDone t _ _ _ => t
  | .leaseClaim t _ _ => t
  | .leaseRelease t _ _ => t
  | .leaseGrant t _ => t
  | .leaseRangeWrite t _ _ _ _ => t
  | .leaseWriteAccept t => t
  | .leaseStale t => t
  | .collReadyReceive t _ _ => t
  | .collSegmentSend t _ _ _ _ => t
  | .collSegmentReceive t _ _ _ _ => t
  | .collWait t _ _ _ _ => t
  | .collTopologyWrite t _ _ _ => t
  | .linkCheckStart t _ => t
  | .checkLinks t _ _ _ => t
  | .mismatchUp t _ _ _ _ => t
  | .heartbeat t _ _ _ => t
  | .regen t _ _ _ _ => t
  | .bucketQuery t _ _ => t
  | .bucketStateUp t _ _ _ => t
  | .reportUp t _ _ _ _ _ => t
  | .leadAnswer t _ _ _ _ _ _ => t
  | .siteDown t _ _ _ _ _ _ _ => t
  | .memRequest t _ _ _ _ _ => t
  | .memAccept t _ => t
  | .memAccessComplete t _ _ => t
  | .pageMendDone t _ _ => t
  | .repairGo t _ _ _ => t
  | .repairCopyDone t _ _ => t
  | .refreshSlot t _ _ _ => t
  | .rinseSlot t _ _ _ _ => t
  | .pressSlot t _ _ _ _ _ _ => t
  | .retainBreak t _ _ => t
  | .seamFlitReceive t _ _ => t
  | .seamIdleFlit t _ _ => t
  | .frameSend t _ _ => t
  | .frameWrite t _ _ _ _ => t
  | .frameReadReq t _ _ _ _ _ => t
  | .frameReadResp t _ _ _ _ => t
  | .frameSig t _ _ _ _ => t
  | .frameCtrl t _ _ => t
  | .creditReturnTimer t _ _ => t
  | .ctrlKeepaliveSend t _ _ => t
  | .replayTimeout t _ _ => t
  | .linkIdleTimeout t _ _ => t
  | .pcsAlignLost t _ _ => t
  | .linkTrained t _ _ _ => t
  | .portDisable t _ _ _ => t
  | .podTimeSyncTimer t => t
  | .linkDelayTimer t => t
  | .syncReq t _ _ _ _ => t
  | .syncResp t _ _ _ _ _ _ => t
  | .linkReq t _ _ _ _ => t
  | .linkResp t _ _ _ _ _ _ => t
  | .joinResp t _ _ _ _ _ _ => t
  | .hello t _ _ _ _ _ _ _ => t
  | .candidate t _ _ _ => t
  | .electionClose t => t
  | .neighTable t _ _ _ _ _ => t
  | .config t _ _ => t
  | .tack t _ _ _ => t
  | .tackReply t _ _ => t
  | .topoConfirm t _ _ _ => t
  | .leadProbe t _ _ => t
  | .probeAnswer t _ _ _ _ => t
  | .leadHeartbeatTimer t => t
  | .standbyLeadTimeout t => t
  | .probeWindowExpire t => t
  | .discoveryStart t _ => t
  | .ptApply t _ => t
  | .podCmdCut t _ => t
  | .cutSelf t _ _ _ => t
  | .markCut t _ _ _ => t
  | .aliasChip t _ _ _ => t
  | .assignSpare t _ _ _ => t
  | .unreachable t _ _ _ => t
  | .lostSelf t _ _ _ => t
  | .epochEnd t _ _ _ => t
  | .shardHeaderArrive t _ _ _ => t
  | .roundDeadline t => t
  | .rttSample t _ _ => t
  | .migKeepaliveTimer t => t
  | .siteContactTimeout t _ => t
  | .migDatagramRepeat t => t
  | .keepalive t _ => t
  | .migQpError t _ _ => t
  | .resetQp t _ _ => t
  | .siteState t _ _ _ => t
  | .joinAnnounce t _ => t
  | .ptpSync t _ _ => t
  | .ptpSecond t _ => t
  | .ptpSyncTimeout t => t
  | .cmConnectRequest t _ _ _ _ _ _ _ _ _ _ => t
  | .claimOwner t _ => t
  | .releaseOwner t _ => t
  | .hostMemWrite t _ _ _ _ _ _ _ => t
  | .hostMemRead t _ _ _ _ _ _ _ _ => t
  | .hostRegWrite t _ _ _ _ _ _ _ => t
  | .hostRegRead t _ _ _ _ _ _ _ => t
  | .hostFetchAdd t _ _ _ _ _ _ _ _ => t
  | .hostDoorbell t _ _ _ _ _ _ _ _ => t
  | .hostQpError t _ _ => t
  | .identify t _ _ _ => t
  | .neighborSolicit t _ _ _ => t
  | .cnpReceive t _ _ _ _ => t
  | .ecnRateTimer t _ _ => t
  | .eventRingEnable t _ _ _ => t
  | .eventRingQpnWrite t _ _ _ => t
  | .eventRecordSend t _ => t
  | .eventProdAck t _ _ => t
  | .eventConsReread t _ _ => t
  | .eventQpDown t _ => t
  | .refLost t _ _ => t
  | .refQualified t _ _ => t
  | .refRevert t _ => t
  | .pllFail t _ => t
  | .islandStop t _ _ _ => t
  | .islandStart t _ _ _ => t
  | .islandStopped t => t
  | .islandRun t => t
  | .journalFlashProgram t _ => t
  | .journalFlashDone t _ _ => t
  | .journalHoldTimeout t _ => t
  | .journalHoldRelease t _ => t
  | .tallySample t _ => t
  | .pressLinkMonitor t _ _ => t
  | .pressThermal t _ _ _ _ => t
  | .pressCalRecord t _ _ => t
  | .darnAging t _ _ _ _ _ _ => t
  | .powerContact t _ => t
  | .rampStart t _ _ _ _ => t
  | .rampInterlockFail t _ _ _ _ _ => t
  | .pwrEnLow t => t
  | .pwrOff t _ => t
  | .shutdownComplete t => t
  | .throttleUpdate t _ _ _ => t
  | .vRange t _ => t
  | .coolantSample t _ _ _ => t
  | .thermalLimitUpdate t _ _ => t
  | .trip t _ _ _ => t
  | .tripRelease t => t
  | .smbPstat t => t
  | .smbRegAddr t _ _ => t
  | .smbRegRead t => t
  | .smbRegWrite t _ _ => t
  | .smbAlertResponse t => t
  | .smbClockLowReset t => t
  | .bootCold t _ => t
  | .bootWarm t _ => t
  | .bootUnpick t _ => t
  | .unpickDrainDone t _ => t
  | .unpickTransferDone t => t
  | .startPhaseComplete t _ => t
  | .startPhaseFail t _ _ _ => t
  | .startRetry t _ _ => t
  | .tileWatchdog t _ _ _ => t
  | .engineWatchdog t _ _ _ => t
  | .serviceHeartbeatTimer t => t
  | .serviceFailover t _ => t
  | .cpWatchdog t _ _ => t
  | .cpWatchdogKick t _ _ => t
  | .cpHalt t _ _ _ => t
  | .cpReset t _ _ _ => t
  | .spdmGetVersion t _ _ => t
  | .spdmGetCapabilities t _ _ _ => t
  | .spdmNegotiateAlgorithms t _ _ _ _ => t
  | .spdmGetDigests t _ _ _ => t
  | .spdmGetCertificate t _ _ _ _ _ _ => t
  | .spdmChallenge t _ _ _ _ _ => t
  | .spdmGetMeasurements t _ _ _ _ _ _ => t
  | .spdmKeyExchange t _ _ _ _ _ => t
  | .spdmFinish t _ _ _ => t
  | .spdmHeartbeat t _ => t
  | .spdmKeyUpdate t _ _ => t
  | .spdmEndSession t _ => t
  | .spdmHeartbeatTimeout t _ => t
  | .getReport t _ _ => t
  | .fwStage t _ _ _ _ _ _ _ _ => t
  | .fwRaiseFloor t _ _ _ _ => t
  | .sitePortLinkDown t _ => t
  | .sitePortLinkUp t _ => t
  | .routerAdvertisement t _ _ => t
  | .dhcpv4Reply t _ _ => t
  | .migrationQpRequest t _ _ _ _ _ _ _ => t
  | .pfcPauseFrame t _ _ => t
  | .cmDisconnectRequest t _ _ => t
  | .neighTableDeadline t => t
  | .aonPowerLoss t => t

end Sys2Proof
end

