-- ==== Sys2Proof/Config.lean ====
section
/-! DEFINITION. What the spec leaves open: free values, constants without a body. Nothing in Lean can evaluate one, so a statement that uses one holds for every value. Log entry 2 lists them. -/

namespace Sys2Proof.Config

/-- The elementary functions of R124 and R179 that the spec bounds (2 units in the last place) and does not fix. -/
inductive ElemFn where
  | exp | expm1 | log | tanh | sigmoid | softplus | phi | normalDensity | rsqrt
  deriving DecidableEq, Repr

/-- FREE VALUE: the binary32 result of an elementary function on a finite argument (R124, R179), which the model takes where it
lies within the spec's 2 units in the last place. -/
opaque elementary : ElemFn → Word → Word

/-- FREE VALUE: the rate, in parts per billion, that a child steers to for an offset in 1/64 count (R254 gives only the
bound of 50 ppm, which the model applies to this value). -/
opaque steerRate : Int → Int

/-- FREE VALUE: the RSA and SLH-DSA signature bytes of the module over given bytes (R475): the spec gives no key. -/
opaque signature : Nat → List Byte → List Byte

/-- FREE VALUE: SHA-384 and the key agreement of the trust block as the spec uses them by name only (R480, R482). -/
opaque sha384 : List Byte → BitVec 384

/-- FREE VALUE: the DER encoding of an X.509 certificate of given content (R476 names the standard and not the bytes). -/
opaque certDer : List Byte → List Byte

/-- FREE VALUE: the body of an SPDM response that DMTF SPDM 1.3 lays out and this spec does not restate (R482). -/
opaque spdmBody : Nat → List Byte → List Byte

/-- FREE VALUE: a temperature sensor's new offset from its old one, its reading and the two reference diodes, all in 1/16 °C;
R393 says only that it is updated in steps of 1/16 °C. -/
opaque sensorOffset : Int → Int → Int → Int → Int

/-- FREE VALUE: a value that the spec calls undefined, one for each use of the counter of State (R66, R3). -/
opaque freeNat : Nat → Nat

end Sys2Proof.Config
end

