-- ==== Sys2Proof/Machine/Maps.lean ====
section
/-! DEFINITION. Sparse maps from addresses to values: sorted lists that list no default value, so that equal maps are equal data. Registers, memory and indexed units of the block are held in them. -/

namespace Sys2Proof.Machine

/-- The value at `k`; an unlisted key reads as `d k`. -/
def mapGet {α : Type} (d : Nat → α) : List (Nat × α) → Nat → α
  | [], k => d k
  | (k', v) :: m, k => if k' = k then v else mapGet d m k

/-- The entries of `m` under another key than `k`. -/
def mapErase {α : Type} (m : List (Nat × α)) (k : Nat) : List (Nat × α) :=
  m.filter (fun e => e.1 != k)

/-- Put an entry before the first larger key. -/
def mapInsert {α : Type} (k : Nat) (v : α) : List (Nat × α) → List (Nat × α)
  | [] => [(k, v)]
  | e :: m => if k < e.1 then (k, v) :: e :: m else e :: mapInsert k v m

/-- Set the value at `k`; setting the default removes the entry. -/
def mapSet {α : Type} [DecidableEq α] (d : Nat → α) (m : List (Nat × α)) (k : Nat) (v : α) : List (Nat × α) :=
  if v = d k then mapErase m k else mapInsert k v (mapErase m k)

/-- The canonical form: keys strictly rise and no entry holds its default. -/
abbrev mapWf {α : Type} (d : Nat → α) (m : List (Nat × α)) : Prop :=
  m.Pairwise (fun a b => a.1 < b.1) ∧ ∀ e ∈ m, e.2 ≠ d e.1

/-- What a byte of the Fold or of a tier that nothing has written reads as. DESIGN CHOICE, log entry 4: zero, as after
the clear of R228 and R429; unsafe before the first clear. -/
def memDefault (_ : Nat) : Byte := 0

/-- One byte of memory by its local offset. -/
def memGet (m : List Host.Cell) (a : Nat) : Byte := mapGet memDefault m a

/-- Write one byte. -/
def memSet (m : List Host.Cell) (a : Nat) (b : Byte) : List Host.Cell := mapSet memDefault m a b

/-- The `n` bytes from `a` up. -/
def memBytes (m : List Host.Cell) (a n : Nat) : List Byte := (List.range n).map (fun i => memGet m (a + i))

/-- Write bytes from `a` up. -/
def memPut (m : List Host.Cell) (a : Nat) : List Byte → List Host.Cell
  | [] => m
  | b :: bs => memPut (memSet m a b) (a + 1) bs

/-- The canonical form of memory. -/
abbrev Memory.wf (m : List Host.Cell) : Prop := mapWf memDefault m

/-- A little-endian number from bytes (R4). -/
def leNat : List Byte → Nat
  | [] => 0
  | b :: bs => b.toNat + 256 * leNat bs

/-- The `n` little-endian bytes of a number (R4). -/
def leBytes : Nat → Nat → List Byte
  | 0, _ => []
  | n + 1, v => BitVec.ofNat 8 v :: leBytes n (v / 256)

/-- Bits `lo` to `lo + w - 1` of a number. -/
def bitsOf (v lo w : Nat) : Nat := v / 2 ^ lo % 2 ^ w

/-- Bit `i` of a number. -/
def bitAt (v i : Nat) : Bool := v / 2 ^ i % 2 == 1

end Sys2Proof.Machine
end

