-- ==== Sys2Proof/Machine/Num.lean ====
section
/-! DEFINITION. Exact numbers and their rounding: the arithmetic of R12 to R26, R54 to R58, R124 and R172 to R174. Every value is formed exactly and rounded explicitly. -/

namespace Sys2Proof.Machine

/-- A number as an element, a product, a sum or a carry holds it: `fin neg m e` is ±m × 2^e, and m = 0 is a signed zero. -/
inductive Num where
  | nan
  | inf (neg : Bool)
  | fin (neg : Bool) (m : Nat) (e : Int)
  deriving DecidableEq, Repr

/-- How a conversion rounds: to nearest even (R24), or stochastically with the 16-bit draw `r` (R25). -/
inductive Rnd where
  | rne
  | sr (r : Nat)
  deriving DecidableEq, Repr

/-- A zero of positive sign. -/
def Num.zero : Num := .fin false 0 0

/-- Is it NaN? -/
def Num.isNan : Num → Bool
  | .nan => true
  | _ => false

/-- Is it an infinity? -/
def Num.isInf : Num → Bool
  | .inf _ => true
  | _ => false

/-- Is it a zero of either sign? -/
def Num.isZero : Num → Bool
  | .fin _ 0 _ => true
  | _ => false

/-- The sign bit; NaN has none. -/
def Num.sign : Num → Bool
  | .nan => false
  | .inf s => s
  | .fin s _ _ => s

/-- Change of sign. -/
def Num.negate : Num → Num
  | .nan => .nan
  | .inf s => .inf (!s)
  | .fin s m e => .fin (!s) m e

/-- Magnitude. -/
def Num.magnitude : Num → Num
  | .nan => .nan
  | .inf _ => .inf false
  | .fin _ m e => .fin false m e

/-- Exact product; a zero factor gives a zero of the exclusive-or sign, infinity times zero is NaN (R57, R58). -/
def Num.mul : Num → Num → Num
  | .nan, _ => .nan
  | _, .nan => .nan
  | .inf s, .inf t => .inf (s != t)
  | .inf s, .fin t m _ => if m = 0 then .nan else .inf (s != t)
  | .fin s m _, .inf t => if m = 0 then .nan else .inf (s != t)
  | .fin s m e, .fin t n f => .fin (s != t) (m * n) (e + f)

/-- A signed integer times a power of two, as a number; an exact zero is +0. -/
def Num.ofInt (v : Int) (e : Int) : Num := .fin (decide (v < 0)) v.natAbs e

/-- Exact sum of two finite values: a zero sum is +0 unless both are −0 (R57). -/
def finAdd (s : Bool) (m : Nat) (e : Int) (t : Bool) (n : Nat) (f : Int) : Num :=
  let g := min e f
  let a : Int := m * 2 ^ (e - g).toNat
  let b : Int := n * 2 ^ (f - g).toNat
  let v := (if s then -a else a) + (if t then -b else b)
  if v = 0 then .fin (s && t && (m == 0) && (n == 0)) 0 0 else Num.ofInt v g

/-- Exact sum; opposite infinities give NaN (R58). -/
def Num.add : Num → Num → Num
  | .nan, _ => .nan
  | _, .nan => .nan
  | .inf s, .inf t => if s = t then .inf s else .nan
  | .inf s, .fin _ _ _ => .inf s
  | .fin _ _ _, .inf t => .inf t
  | .fin s m e, .fin t n f => finAdd s m e t n f

/-- Exact difference. -/
def Num.sub (a b : Num) : Num := a.add b.negate

/-- Strict order of values; false with a NaN, and −0 equals +0. -/
def Num.lt (a b : Num) : Bool :=
  match a, b with
  | .nan, _ => false
  | _, .nan => false
  | .inf s, .inf t => s && !t
  | .inf s, .fin _ _ _ => s
  | .fin _ _ _, .inf t => !t
  | .fin s m e, .fin t n f =>
    let g := min e f
    let a : Int := m * 2 ^ (e - g).toNat
    let b : Int := n * 2 ^ (f - g).toNat
    decide ((if s then -a else a) < (if t then -b else b))

/-- The exact sum of a list, from its first element; +0 for none. The sum of all −0 is −0 (R57). -/
def Num.sum : List Num → Num
  | [] => .zero
  | a :: l => l.foldl Num.add a

/-- floor(log₂ of a nonzero magnitude m × 2^e). -/
def exponentOf (m : Nat) (e : Int) : Int := (Nat.log2 m : Int) + e

/-- Round the magnitude m × 2^e to a multiple of 2^lsb and give the multiple (R24, R25). -/
def roundMultiple (rnd : Rnd) (m : Nat) (e lsb : Int) : Nat :=
  if lsb ≤ e then m * 2 ^ (e - lsb).toNat
  else
    let k := (lsb - e).toNat
    let n := m / 2 ^ k
    let rem := m % 2 ^ k
    match rnd with
    | .rne =>
      if 2 * rem > 2 ^ k ∨ (2 * rem = 2 ^ k ∧ n % 2 = 1) then n + 1 else n
    | .sr r => if rem * 65536 / 2 ^ k + r ≥ 65536 then n + 1 else n

/-- The exponent of the last place at a magnitude, for a significand of `p` bits and a smallest place `lsbMin`. -/
def lastPlace (p : Nat) (lsbMin : Int) (m : Nat) (e : Int) : Int :=
  max (exponentOf m e - (p - 1 : Nat)) lsbMin

/-- Round to a binary format of `p` significand bits, smallest place 2^lsbMin and largest exponent `emax`, to nearest
even, with IEEE 754 overflow to infinity. -/
def roundBinary (p : Nat) (lsbMin emax : Int) : Num → Num
  | .nan => .nan
  | .inf s => .inf s
  | .fin s m e =>
    if m = 0 then .fin s 0 0
    else
      let l := lastPlace p lsbMin m e
      let n := roundMultiple .rne m e l
      if n = 0 then .fin s 0 0
      else if exponentOf n l > emax then .inf s else .fin s n l

/-- binary32 under RNE (R124). -/
def f32 (x : Num) : Num := roundBinary 24 (-149) 127 x

/-- binary64 under RNE (R172). -/
def f64 (x : Num) : Num := roundBinary 53 (-1074) 1023 x

/-- round₃₄ of R56: a 34-bit significand, ties to even, no limit on the exponent. -/
def round34 : Num → Num
  | .nan => .nan
  | .inf s => .inf s
  | .fin s m e =>
    if m = 0 then .fin s 0 0
    else
      let l := exponentOf m e - 33
      .fin s (roundMultiple .rne m e l) l

/-- A quotient m × 2^e / (n × 2^f) with enough bits and a sticky last bit, so that one later rounding is the rounding
of the exact quotient. -/
def quotient (m : Nat) (e : Int) (n : Nat) (f : Int) : Nat × Int :=
  let k := 80 + Nat.log2 n
  let q := m * 2 ^ k / n
  let r := m * 2 ^ k % n
  (2 * q + (if r = 0 then 0 else 1), e - f - (k : Int) - 1)

/-- Exact-enough division with the special cases of IEEE 754-2019. -/
def Num.div : Num → Num → Num
  | .nan, _ => .nan
  | _, .nan => .nan
  | .inf _, .inf _ => .nan
  | .inf s, .fin t _ _ => .inf (s != t)
  | .fin s _ _, .inf t => .fin (s != t) 0 0
  | .fin s m e, .fin t n f =>
    if n = 0 then (if m = 0 then .nan else .inf (s != t))
    else let q := quotient m e n f; .fin (s != t) q.1 q.2

/-- Bits of the integer square root of `m`, from bit `i` down. -/
def isqrtFrom (m : Nat) : Nat → Nat → Nat
  | 0, r => r
  | i + 1, r => let c := r + 2 ^ i; isqrtFrom m i (if c * c ≤ m then c else r)

/-- floor(√m) for m below 2^400. -/
def isqrt (m : Nat) : Nat := isqrtFrom m 200 0

/-- Square root with a sticky last bit. -/
def Num.sqrt : Num → Num
  | .nan => .nan
  | .inf s => if s then .nan else .inf false
  | .fin s m e =>
    if m = 0 then .fin s 0 0
    else if s then .nan
    else
      let k := 120 + (e % 2).toNat
      let w := m * 2 ^ k
      let r := isqrt w
      .fin false (2 * r + (if r * r = w then 0 else 1)) ((e - (k : Int)) / 2 - 1)

/-- The binary32 operations, each one rounding (R124, R174). -/
def fAdd (a b : Num) : Num := f32 (a.add b)
/-- binary32 difference. -/
def fSub (a b : Num) : Num := f32 (a.sub b)
/-- binary32 product. -/
def fMul (a b : Num) : Num := f32 (a.mul b)
/-- binary32 quotient. -/
def fDiv (a b : Num) : Num := f32 (a.div b)
/-- binary32 fused multiply-add, one rounding. -/
def fFma (a b c : Num) : Num := f32 ((a.mul b).add c)
/-- binary32 square root. -/
def fSqrt (a : Num) : Num := f32 a.sqrt

/-- Maximum; NaN if either is NaN. Of two zeros of different sign the first is taken only if it is +0 (DEDUCED, log
entry 10). -/
def numMax (a b : Num) : Num :=
  if a.isNan || b.isNan then .nan
  else if a.lt b then b else if b.lt a then a else if a.sign then b else a

/-- Minimum, as `numMax`. -/
def numMin (a b : Num) : Num :=
  if a.isNan || b.isNan then .nan
  else if a.lt b then a else if b.lt a then b else if a.sign then a else b

/-- Encode a value already representable with `mb` fraction bits and `eb` exponent bits. -/
def encodeFloat (eb mb : Nat) (bias : Int) (neg : Bool) (m : Nat) (e : Int) : Nat :=
  let s := if neg then 2 ^ (eb + mb) else 0
  if m = 0 then s
  else
    let x := exponentOf m e
    let lsb := max (x - mb) (1 - bias - mb)
    let sig := if lsb ≤ e then m * 2 ^ (e - lsb).toNat else m / 2 ^ (lsb - e).toNat
    if sig < 2 ^ mb then s + sig
    else s + (x + bias).toNat * 2 ^ mb + (sig - 2 ^ mb)

/-- Decode the finite codes of such a format. -/
def decodeFloat (eb mb : Nat) (bias : Int) (code : Nat) : Num :=
  let neg := bitAt code (eb + mb)
  let ex := bitsOf code mb eb
  let fr := bitsOf code 0 mb
  if ex = 0 then .fin neg fr (1 - bias - mb)
  else .fin neg (2 ^ mb + fr) ((ex : Int) - bias - mb)

/-- The value of a binary32 word. -/
def ofF32 (w : Word) : Num :=
  let c := w.toNat
  if bitsOf c 23 8 = 255 then (if bitsOf c 0 23 = 0 then .inf (bitAt c 31) else .nan)
  else decodeFloat 8 23 127 c

/-- The binary32 word of a value already rounded by `f32`; NaN is 0x7FC0_0000 as VNORM in the worked example of R163. -/
def toF32 : Num → Word
  | .nan => 0x7FC00000#32
  | .inf s => if s then 0xFF800000#32 else 0x7F800000#32
  | .fin s m e => BitVec.ofNat 32 (encodeFloat 8 23 127 s m e)

end Sys2Proof.Machine
end

