-- ==== Sys2Proof/Machine/Elementary.lean ====
section
/-! DEFINITION. The elementary functions of R124 and R179: close rational values, and the free binary32 result within 2 units in the last place of them. -/

namespace Sys2Proof.Machine

/-! ## Fixed point of 640 fraction bits -/

/-- 1 in fixed point. -/
def fixOne : Int := 2 ^ 640
/-- A finite number in fixed point. -/
def toFix : Num → Int
  | .fin s m e =>
    let v : Int := if 0 ≤ e + 640 then (m : Int) * 2 ^ (e + 640).toNat else (m : Int) / 2 ^ (-(e + 640)).toNat
    if s then -v else v
  | _ => 0
/-- A fixed-point value times 2^k as a number. -/
def ofFix (v k : Int) : Num := Num.ofInt v (k - 640)
/-- Product in fixed point. -/
def fixMul (a b : Int) : Int := a * b / fixOne
/-- Quotient in fixed point. -/
def fixDiv (a b : Int) : Int := a * fixOne / b

/-- The odd power series Σ c^k · z^(2k+1) / (2k+1) over `n` terms: atanh for c = 1, arctan for c = −1. -/
def fixOdd (c z : Int) (n : Nat) : Int :=
  let z2 := fixMul z z
  ((List.range n).foldl (fun (a : Int × Int) k => (a.1 + a.2 / (2 * k + 1 : Nat), c * fixMul a.2 z2)) (0, z)).1

/-- ln 2. -/
def fixLn2 : Int := 2 * fixOdd 1 (fixOne / 3) 220
/-- π, by Machin's formula. -/
def fixPi : Int := 16 * fixOdd (-1) (fixOne / 5) 160 - 4 * fixOdd (-1) (fixOne / 239) 60

/-- e^x as a fixed-point value and a power of two: x = k·ln 2 + r with |r| at most ln 2 (Taylor series). -/
def fixExp (x : Int) : Int × Int :=
  let k := x / fixLn2
  let r := x - k * fixLn2
  let v := ((List.range 130).foldl (fun (a : Int × Int) n => (a.1 + a.2, fixMul a.2 r / (n + 1 : Nat))) (0, fixOne)).1
  (v, k)

/-- ln of a positive number m × 2^e. -/
def fixLog (m : Nat) (e : Int) : Int :=
  let x := exponentOf m e
  let v := toFix (.fin false m (e - x))
  2 * fixOdd 1 (fixDiv (v - fixOne) (v + fixOne)) 220 + x * fixLn2

/-- Values beyond 256 in magnitude. -/
def isHuge (x : Num) : Bool := (Num.fin false 1 8).lt x.magnitude

/-- e^x; beyond the range of binary32 any value beyond it. -/
def nearExp (x : Num) : Num :=
  if isHuge x then .fin false 1 (if x.sign then -400 else 400)
  else let v := fixExp (toFix x); ofFix v.1 v.2

/-- The density of the standard normal distribution in fixed point. -/
def fixDensity (x : Int) : Int :=
  let v := fixExp (-(fixMul x x) / 2)
  let w := if v.2 < 0 then v.1 / 2 ^ (-v.2).toNat else v.1 * 2 ^ v.2.toNat
  fixDiv w (isqrtFrom (2 * fixPi * fixOne).toNat 700 0)

/-- The standard normal distribution: 1/2 + φ(x) · Σ x^(2n+1) / (1 · 3 · … · (2n+1)). -/
def fixPhi (x : Int) : Int :=
  let x2 := fixMul x x
  let s := ((List.range 900).foldl (fun (a : Int × Int) n => (a.1 + a.2, fixMul a.2 x2 / (2 * n + 3 : Nat))) (0, x)).1
  fixOne / 2 + fixMul (fixDensity x) s

/-- An elementary function of a finite argument, to far more than binary32's precision. -/
def nearElem (f : Config.ElemFn) (x : Num) : Num :=
  let y := toFix x
  let one : Num := .fin false 1 0
  match f with
  | .exp => nearExp x
  | .expm1 => (nearExp x).sub one
  | .log => match x with
    | .fin _ m e => ofFix (fixLog m e) 0
    | _ => .nan
  | .tanh =>
    if isHuge x then .fin x.sign 1 0
    else let e := nearExp (ofFix (2 * y.natAbs) 0); let t := (e.sub one).div (e.add one); if x.sign then t.negate else t
  | .sigmoid => one.div (one.add (nearExp x.negate))
  | .softplus =>
    if isHuge x && !x.sign then x
    else match one.add (nearExp x) with
      | .fin _ m e => ofFix (fixLog m e) 0
      | _ => .nan
  | .phi => if isHuge x || decide (16 * fixOne < y.natAbs) then (if x.sign then .fin false 1 (-400) else one) else ofFix (fixPhi y) 0
  | .normalDensity => if isHuge x || decide (16 * fixOne < y.natAbs) then .fin false 1 (-400) else ofFix (fixDensity y) 0
  | .rsqrt => one.div x.sqrt

/-- Is a binary32 value within 2 units in the last place of an exact one (R124)? An infinity stands where 2^128 would. -/
def within2 (c a : Num) : Bool :=
  match a with
  | .fin _ m e =>
    let c' : Num := match c with
      | .inf s => .fin s 1 128
      | c => c
    let place : Num := .fin false 2 (min (lastPlace 24 (-149) m e) 104)
    let far : Num := if (Num.fin false 1 128).lt a.magnitude then .fin a.sign 1 128 else a
    !c'.isNan && !place.lt (c'.sub far).magnitude
  | _ => false

/-- FREE VALUE with the bound of R124 and R179: the binary32 result of an elementary function on a finite argument. -/
def boundedElem (f : Config.ElemFn) (x : Num) : Num :=
  let a := nearElem f x
  let c := ofF32 (Config.elementary f (toF32 x))
  if within2 c a then c else f32 a

/-- An elementary function in binary32 (R124): IEEE 754 special values, and a free value within the bound on finite
arguments. A zero argument of tanh and expm1 gives that zero. -/
def elem (f : Config.ElemFn) (x : Num) : Num :=
  match f, x with
  | _, .nan => .nan
  | .exp, .inf s => if s then .zero else .inf false
  | .expm1, .inf s => if s then .fin true 1 0 else .inf false
  | .log, .inf s => if s then .nan else .inf false
  | .tanh, .inf s => .fin s 1 0
  | .sigmoid, .inf s => if s then .zero else .fin false 1 0
  | .softplus, .inf s => if s then .zero else .inf false
  | .phi, .inf s => if s then .zero else .fin false 1 0
  | .normalDensity, .inf _ => .zero
  | .rsqrt, .inf s => if s then .nan else .zero
  | .log, .fin s m e =>
    if m = 0 then .inf true else if s then .nan else boundedElem .log (.fin s m e)
  | .rsqrt, .fin s m e =>
    if m = 0 then .inf s else if s then .nan else boundedElem .rsqrt (.fin s m e)
  | .tanh, .fin s m e => if m = 0 then .fin s 0 0 else boundedElem .tanh (.fin s m e)
  | .expm1, .fin s m e => if m = 0 then .fin s 0 0 else boundedElem .expm1 (.fin s m e)
  | f, .fin s m e => boundedElem f (.fin s m e)

end Sys2Proof.Machine
end

