-- ==== Sys2Proof/Machine/Formats.lean ====
section
/-! DEFINITION. The number formats of R10 to R22, their packing, and conversion into them with its flags and bins (R23 to R40). -/

namespace Sys2Proof.Machine

/-- The formats of R10. -/
inductive Fmt where
  | bf16 | fp16 | sq8e4 | sq8e5 | sq6e3 | sq6e2 | sq4e2 | sq8i
  deriving DecidableEq, Repr

/-- The format of a code; codes 0x8 to 0xF are reserved (R10). -/
def fmtOf : Nat → Option Fmt
  | 0 => some .bf16
  | 1 => some .fp16
  | 2 => some .sq8e4
  | 3 => some .sq8e5
  | 4 => some .sq6e3
  | 5 => some .sq6e2
  | 6 => some .sq4e2
  | 7 => some .sq8i
  | _ => none

/-- The 16-bit format that a one-bit field selects: 0 BF16, 1 binary16. -/
def fmt16 (b : Bool) : Fmt := if b then .fp16 else .bf16

/-- A block format shares a scale byte (R10). -/
def Fmt.isBlock : Fmt → Bool
  | .bf16 | .fp16 => false
  | _ => true

/-- Element width in bits (R10). -/
def Fmt.width : Fmt → Nat
  | .bf16 | .fp16 => 16
  | .sq8e4 | .sq8e5 | .sq8i => 8
  | .sq6e3 | .sq6e2 => 6
  | .sq4e2 => 4

/-- Exponent bits (R12, R16). -/
def Fmt.ebits : Fmt → Nat
  | .bf16 => 8 | .fp16 => 5 | .sq8e4 => 4 | .sq8e5 => 5 | .sq6e3 => 3 | .sq6e2 => 2 | .sq4e2 => 2 | .sq8i => 0

/-- Fraction bits (R12, R16). -/
def Fmt.mbits : Fmt → Nat
  | .bf16 => 7 | .fp16 => 10 | .sq8e4 => 3 | .sq8e5 => 2 | .sq6e3 => 2 | .sq6e2 => 3 | .sq4e2 => 1 | .sq8i => 7

/-- Exponent bias (R12, R16). -/
def Fmt.bias : Fmt → Int
  | .bf16 => 127 | .fp16 => 15 | .sq8e4 => 7 | .sq8e5 => 15 | .sq6e3 => 3 | .sq6e2 => 1 | .sq4e2 => 1 | .sq8i => 0

/-- e_max of R16 and R17: the exponent of the largest normal, 0 for SQ8i. -/
def Fmt.emax : Fmt → Int
  | .bf16 => 127 | .fp16 => 15 | .sq8e4 => 8 | .sq8e5 => 15 | .sq6e3 => 4 | .sq6e2 => 2 | .sq4e2 => 2 | .sq8i => 0

/-- The code of the largest finite magnitude (R12, R16, R17). -/
def Fmt.largestCode : Fmt → Nat
  | .bf16 => 0x7F7F | .fp16 => 0x7BFF | .sq8e4 => 0x7E | .sq8e5 => 0x7B | .sq6e3 => 0x1F | .sq6e2 => 0x1F
  | .sq4e2 => 0x7 | .sq8i => 0x7F

/-- The code of +infinity, in the formats that have one (R12, R16). -/
def Fmt.infCode : Fmt → Option Nat
  | .bf16 => some 0x7F80 | .fp16 => some 0x7C00 | .sq8e5 => some 0x7C | _ => none

/-- The canonical NaN of a 16-bit format (R12). -/
def Fmt.nanCode : Fmt → Nat
  | .fp16 => 0x7E00
  | _ => 0x7FC0

/-- Elements in a block by block-size code (R10). -/
def blockLen (bsz : Bool) : Nat := if bsz then 16 else 32

/-- Is the pair of codes one that R11 lets a descriptor name? -/
def fmtOk (code : Nat) (bsz : Bool) : Bool :=
  match fmtOf code with
  | none => false
  | some f => f.isBlock || !bsz

/-- The value of a code with the element's own encoding (R12, R16 to R18), before the block factor. -/
def decodeElem (f : Fmt) (code : Nat) : Num :=
  match f with
  | .sq8i => Num.ofInt (if code < 128 then (code : Int) else (code : Int) - 256) (-6)
  | .sq8e4 => if code % 128 = 127 then .nan else decodeFloat 4 3 7 code
  | .sq6e3 => decodeFloat 3 2 3 code
  | .sq6e2 => decodeFloat 2 3 1 code
  | .sq4e2 => decodeFloat 2 1 1 code
  | f =>
    if bitsOf code f.mbits f.ebits = 2 ^ f.ebits - 1 then
      (if bitsOf code 0 f.mbits = 0 then .inf (bitAt code (f.ebits + f.mbits)) else .nan)
    else decodeFloat f.ebits f.mbits f.bias code

/-- A value times a power of two, exactly (R15). -/
def Num.scaled (k : Int) : Num → Num
  | .fin s m e => .fin s m (e + k)
  | x => x

/-- The elements of a block: a NaN block where the scale is 0xFF or a code is NaN (R15, R18). -/
def decodeBlock (f : Fmt) (scale : Nat) (codes : List Nat) : List Num :=
  let vs := codes.map (decodeElem f)
  if scale = 0xFF || vs.any Num.isNan then codes.map (fun _ => .nan)
  else vs.map (Num.scaled ((scale : Int) - 127))

/-- Largest finite magnitude of a format's elements. -/
def Fmt.largest (f : Fmt) : Num := decodeElem f f.largestCode

/-- What an infinity counts as towards amax, by source (R28). -/
def Fmt.infAmax (f : Fmt) : Num := if f.isBlock then f.largest.scaled 127 else f.largest

/-- The same for the carries of an array handoff: (2³⁴ − 1) × 2⁴⁷⁸ (R28). -/
def carryInfAmax : Num := .fin false (2 ^ 34 - 1) 478

/-- floor(log₂) of a nonzero finite number. -/
def Num.exponent : Num → Int
  | .fin _ m e => exponentOf m e
  | _ => 0

/-- The largest of the magnitudes that count towards amax (R28, R30): finite values, and infinities as `infTop`. -/
def amaxOf (infTop : Num) (vs : List Num) : Num :=
  vs.foldl (fun a v =>
    let m := if v.isInf then infTop else v.magnitude
    if a.lt m then m else a) .zero

/-- The largest finite magnitude (R33). -/
def amaxFinite (vs : List Num) : Num :=
  vs.foldl (fun a v => if v.isInf then a else if a.lt v.magnitude then v.magnitude else a) .zero

/-- clamp(x − e_max + 127 + HEADROOM, 0x00, 0xFE) for an exponent x (R28, R30, R36). -/
def scaleCodeOf (f : Fmt) (headroom : Nat) (x : Int) : Nat := (min 254 (max 0 (x - f.emax + 127 + headroom))).toNat

/-- The scale code of an amax (R28); an amax of zero is decided by the all-zero rule of R31. -/
def scaleCode (f : Fmt) (headroom : Nat) (amax : Num) : Nat :=
  if amax.isZero then 0 else scaleCodeOf f headroom amax.exponent

/-- What converting one element answers: its code, and whether it saturated (R31), counts as overflow, is NaN, or was
flushed. -/
structure Conv where
  code : Nat
  sat : Bool := false
  exceeds : Bool := false
  nan : Bool := false
  flushed : Bool := false
  deriving DecidableEq, Repr

/-- The last place at a magnitude in a format's elements (R24, R25). -/
def Fmt.place (f : Fmt) (m : Nat) (e : Int) : Int :=
  match f with
  | .sq8i => -6
  | f => lastPlace (f.mbits + 1) (1 - f.bias - f.mbits) m e

/-- Attach a sign to a magnitude code; SQ8i is two's complement without a negative zero (R17). -/
def Fmt.withSign (f : Fmt) (neg : Bool) (code : Nat) : Nat :=
  match f with
  | .sq8i => if neg then (256 - code) % 256 else code
  | f => if neg then code + 2 ^ (f.width - 1) else code

/-- The magnitude code of n × 2^l, a representable value. -/
def Fmt.encodeMag (f : Fmt) (n : Nat) (l : Int) : Nat :=
  match f with
  | .sq8i => n
  | f => encodeFloat f.ebits f.mbits f.bias false n l

/-- Convert a finite element value m × 2^e, already divided by the block factor (R24, R25, R31). -/
def convertFinite (f : Fmt) (rnd : Rnd) (neg : Bool) (m : Nat) (e : Int) : Conv :=
  if m = 0 then { code := f.withSign neg 0 }
  else
    let l := f.place m e
    let tooBig (n : Nat) := f.largest.lt (.fin false n l)
    if tooBig (roundMultiple .rne m e l) then { code := f.withSign neg f.largestCode, sat := true, exceeds := true }
    else
      let n := roundMultiple rnd m e l
      if tooBig n then { code := f.withSign neg f.largestCode }
      else { code := f.withSign neg (f.encodeMag n l), flushed := n == 0 }

/-- Convert one element value with the block factor 2^k divided out (R31); a scalar format has k = 0. -/
def convertElem (f : Fmt) (rnd : Rnd) (k : Int) : Num → Conv
  | .nan => { code := if f.isBlock then 0 else f.nanCode, nan := true }
  | .inf s =>
    match f.infCode with
    | some c => { code := f.withSign s c, exceeds := true }
    | none => { code := f.withSign s f.largestCode, sat := true, exceeds := true }
  | .fin s m e => convertFinite f rnd s m (e - k)

/-- Convert one value to a 16-bit format. -/
def convert16 (f : Fmt) (rnd : Rnd) (x : Num) : Conv := convertElem f rnd 0 x

/-- Round a value to BF16 under RNE and give the value, with overflow saturating as R31 says. -/
def toBf16 (x : Num) : Num := decodeElem .bf16 (convert16 .bf16 .rne x).code

/-- A finite magnitude as a BF16 code rounded toward +∞ (R34, R129). -/
def bf16Up : Num → Nat
  | .fin _ m e =>
    if m = 0 then 0
    else
      let l := lastPlace 8 (-133) m e
      let n := if l ≤ e then m * 2 ^ (e - l).toNat else (m + 2 ^ (l - e).toNat - 1) / 2 ^ (l - e).toNat
      if exponentOf n l > 127 then 0x7F80 else encodeFloat 8 7 127 false n l
  | .inf _ => 0x7F80
  | .nan => 0

/-- What converting one block answers: the scale byte, the element codes, whether CONV_SAT and CONV_NAN are raised,
whether the block is eclipsed, and for each element whether R31 counts it as overflow. -/
structure BlockOut where
  scale : Nat
  codes : List Nat
  sat : Bool
  nan : Bool
  eclipsed : Bool
  exceeds : List Bool
  deriving DecidableEq, Repr

/-- Convert the elements of one block under a scale code, with the NaN and all-zero rules of R31. `rnd i` rounds element
`i` of the block. -/
def convertBlock (f : Fmt) (code : Nat) (rnd : Nat → Rnd) (vs : List Num) : BlockOut :=
  if vs.any Num.isNan then
    { scale := 0xFF, codes := vs.map (fun _ => 0), sat := false, nan := true, eclipsed := false,
      exceeds := vs.map Num.isInf }
  else if vs.all Num.isZero then
    { scale := 0, codes := vs.map (fun v => f.withSign v.sign 0), sat := false, nan := false, eclipsed := false,
      exceeds := vs.map (fun _ => false) }
  else
    let cs := vs.zipIdx.map (fun p => convertElem f (rnd p.2) ((code : Int) - 127) p.1)
    let nonzero := (vs.filter (fun v => !v.isZero)).length
    let flushed := (cs.filter (fun c => c.flushed)).length
    { scale := code, codes := cs.map Conv.code, sat := cs.any Conv.sat, nan := false,
      eclipsed := decide (2 * flushed > nonzero), exceeds := cs.map Conv.exceeds }

/-- Convert one block in LOCAL mode (R28). -/
def convertLocal (f : Fmt) (headroom : Nat) (infTop : Num) (rnd : Nat → Rnd) (vs : List Num) : BlockOut :=
  convertBlock f (scaleCode f headroom (amaxOf infTop vs)) rnd vs

/-- The bin of a source value (R38, R39); an infinity counts in the overflow bin. -/
def binOf : Num → Nat
  | .nan => 66
  | .inf _ => 65
  | .fin _ m e => if m = 0 then 64 else (min 15 (max (-48) (exponentOf m e)) + 48).toNat

/-- Every bin that a source value and its overflow mark count in (R39). -/
def binsOf (v : Num) (exceeds : Bool) : List Nat :=
  if exceeds && !v.isInf then [binOf v, 65] else [binOf v]

/-- Elements packed little-endian, element i at bits [w·i + w − 1 : w·i] (R20). -/
def packElems (w : Nat) : List Nat → Nat
  | [] => 0
  | c :: cs => c % 2 ^ w + 2 ^ w * packElems w cs

/-- The element codes of a packed field. -/
def unpackElems (w n v : Nat) : List Nat := (List.range n).map (fun i => bitsOf v (w * i) w)

/-- Bytes of one block field (R20), or of `n` elements of a scalar format. -/
def fieldBytes (f : Fmt) (n : Nat) : Nat := n * f.width / 8

/-- A list cut into pieces of `n`, with fuel. -/
def chunksFuel {α : Type} (n : Nat) : Nat → List α → List (List α)
  | 0, _ => []
  | _ + 1, [] => []
  | k + 1, a :: l => (a :: l).take n :: chunksFuel n k ((a :: l).drop n)

/-- A list cut into pieces of `n`, the last possibly shorter. -/
def chunks {α : Type} (n : Nat) (l : List α) : List (List α) := chunksFuel n l.length l

/-- The list continued to `n` entries with `d`: the padding of R22. -/
def padTo {α : Type} (n : Nat) (d : α) (l : List α) : List α := l ++ List.replicate (n - l.length) d

end Sys2Proof.Machine
end

