-- ==== Sys2Proof/Machine/Codes.lean ====
section
/-! DEFINITION. The Philox generator (R118, R119), the object digest (R132), the symbol code of memory (R216 to R221), and the maps from addresses to banks (R94, R99, R208 to R210). -/

namespace Sys2Proof.Machine

/-- The state of a Philox block: counter c and key k (R118). -/
structure Philox where
  c0 : Word
  c1 : Word
  c2 : Word
  c3 : Word
  k0 : Word
  k1 : Word
  deriving DecidableEq, Repr

/-- High word of a 32 by 32 product. -/
def mulHi (a b : Word) : Word := BitVec.ofNat 32 (a.toNat * b.toNat / 2 ^ 32)

/-- One round of R118. -/
def philoxRound (p : Philox) : Philox :=
  { c0 := mulHi 0xCD9E8D57#32 p.c2 ^^^ p.c1 ^^^ p.k0
    c1 := 0xCD9E8D57#32 * p.c2
    c2 := mulHi 0xD2511F53#32 p.c0 ^^^ p.c3 ^^^ p.k1
    c3 := 0xD2511F53#32 * p.c0
    k0 := p.k0 + 0x9E3779B9#32
    k1 := p.k1 + 0xBB67AE85#32 }

/-- `n` rounds. -/
def philoxRounds : Nat → Philox → Philox
  | 0, p => p
  | n + 1, p => philoxRounds n (philoxRound p)

/-- What a draw is taken under: SEED, step and the third and fourth counter words of R119, and the stream and tag. -/
structure DrawKey where
  seed : Nat
  streamTag : Nat
  step : Nat
  salt : Nat
  deriving DecidableEq, Repr

/-- Draw `d` of a key: a half of word (d mod 8) div 2 of block d div 8 (R119). -/
def draw (k : DrawKey) (d : Nat) : Nat :=
  let p := philoxRounds 10
    { c0 := BitVec.ofNat 32 (d / 8), c1 := BitVec.ofNat 32 k.streamTag, c2 := BitVec.ofNat 32 k.step,
      c3 := BitVec.ofNat 32 k.salt, k0 := BitVec.ofNat 32 k.seed, k1 := BitVec.ofNat 32 (k.seed / 2 ^ 32) }
  let w := match d % 8 / 2 with
    | 0 => p.c0
    | 1 => p.c1
    | 2 => p.c2
    | _ => p.c3
  bitsOf w.toNat (16 * (d % 2)) 16

/-- The draw key of a descriptor: its RNG_STREAM and TAG, the step number, and its quarter and SALT (R119). -/
def drawKey (seed step quarter salt stream tag : Nat) : DrawKey :=
  { seed, streamTag := (stream % 65536) * 65536 + tag % 65536, step := step % 2 ^ 32,
    salt := quarter * 2 ^ 30 + salt % 2 ^ 30 }

/-- One bit of CRC-64 with polynomial 0x42F0_E1EB_A9EA_3693 (R132). -/
def crc64Bit (r : BitVec 64) : BitVec 64 :=
  if r.msb then (r <<< 1) ^^^ 0x42F0E1EBA9EA3693#64 else r <<< 1

/-- One byte of CRC-64, most significant bit first. -/
def crc64Byte (r : BitVec 64) (b : Byte) : BitVec 64 :=
  (List.range 8).foldl (fun r _ => crc64Bit r) (r ^^^ (b.zeroExtend 64 <<< 56))

/-- CRC-64 of bytes from 0. -/
def crc64 (bs : List Byte) : BitVec 64 := bs.foldl crc64Byte 0

/-- The digest of bytes at object offset `off`, a multiple of 4,096, one chunk at a time, with fuel (R132). -/
def digestChunks : Nat → Nat → List Byte → BitVec 64
  | 0, _, _ => 0
  | _ + 1, _, [] => 0
  | n + 1, off, b :: bs =>
    crc64 (leBytes 8 off ++ (b :: bs).take 4096) + digestChunks n (off + 4096) ((b :: bs).drop 4096)

/-- D of R132 for bytes at object offset `off`. -/
def digest (off : Nat) (bs : List Byte) : BitVec 64 := digestChunks (bs.length / 4096 + 1) off bs

/-- Times α in GF(16) with x⁴ + x + 1 (R216). -/
def gfDouble (a : Nat) : Nat := if a ≥ 8 then (2 * a) ^^^ 0x13 else 2 * a

/-- Product in GF(16). -/
def gfMul (a b : Nat) : Nat :=
  (if bitAt b 0 then a else 0) ^^^ (if bitAt b 1 then gfDouble a else 0) ^^^
  (if bitAt b 2 then gfDouble (gfDouble a) else 0) ^^^
  (if bitAt b 3 then gfDouble (gfDouble (gfDouble a)) else 0)

/-- Inverse in GF(16): the fourteenth power. -/
def gfInv (a : Nat) : Nat :=
  let a2 := gfMul a a
  let a4 := gfMul a2 a2
  let a8 := gfMul a4 a4
  gfMul a8 (gfMul a4 a2)

/-- f(x, y) = x² + x·y + 8·y² (R217). -/
def quadric (x y : Nat) : Nat := gfMul x x ^^^ gfMul x y ^^^ gfMul 8 (gfMul y y)

/-- Four symbols: a column or a syndrome. -/
structure Sym4 where
  s0 : Nat
  s1 : Nat
  s2 : Nat
  s3 : Nat
  deriving DecidableEq, Repr

/-- Column hⱼ of R217. -/
def eccColumn (j : Nat) : Sym4 :=
  if j < 32 then
    let y := if j < 16 then 2 else 3
    ⟨1, j % 16, y, quadric (j % 16) y⟩
  else match j with
    | 32 => ⟨1, 0, 0, 0⟩
    | 33 => ⟨0, 0, 0, 1⟩
    | 34 => ⟨1, 1, 0, 1⟩
    | _ => ⟨1, 0, 1, 8⟩

/-- The syndrome of symbols packed four bits each, from symbol `j` up (R219). -/
def syndromeFrom (v : Nat) : Nat → Nat → Sym4
  | 0, _ => ⟨0, 0, 0, 0⟩
  | n + 1, j =>
    let t := syndromeFrom v n (j + 1)
    let h := eccColumn j
    let r := bitsOf v (4 * j) 4
    ⟨gfMul r h.s0 ^^^ t.s0, gfMul r h.s1 ^^^ t.s1, gfMul r h.s2 ^^^ t.s2, gfMul r h.s3 ^^^ t.s3⟩

/-- The syndrome of a 144-bit codeword (R219). -/
def syndrome (v : Nat) : Sym4 := syndromeFrom v 36 0

/-- Encode 128 data bits: the check symbols of R218 above them. -/
def eccEncode (d : Nat) : Nat :=
  let s := syndromeFrom (d % 2 ^ 128) 32 0
  d % 2 ^ 128 + 2 ^ 128 * ((s.s0 ^^^ s.s1 ^^^ s.s2) + 16 * (s.s3 ^^^ s.s1 ^^^ gfMul 8 s.s2) + 256 * s.s1 + 4096 * s.s2)

/-- What the check of a codeword finds (R219). -/
inductive EccCheck where
  | clean
  | poisoned
  | fix (symbol error : Nat)
  | uncorrectable
  deriving DecidableEq, Repr

/-- Decode a syndrome (R219). -/
def eccDecode (s : Sym4) : EccCheck :=
  if s = ⟨0, 0, 0, 0⟩ then .clean
  else if s = ⟨0xF, 0, 0, 0xF⟩ then .poisoned
  else if s.s0 = 0 then (if s.s1 = 0 ∧ s.s2 = 0 then .fix 33 s.s3 else .uncorrectable)
  else
    let i := gfInv s.s0
    let x := gfMul s.s1 i
    let y := gfMul s.s2 i
    let z := gfMul s.s3 i
    if z ≠ quadric x y then .uncorrectable
    else if y = 2 then .fix x s.s0
    else if y = 3 then .fix (16 + x) s.s0
    else if y = 0 ∧ x = 0 then .fix 32 s.s0
    else if y = 0 ∧ x = 1 then .fix 34 s.s0
    else if y = 1 ∧ x = 0 then .fix 35 s.s0
    else .uncorrectable

/-- The marker of a poisoned codeword: check symbols 32 and 33 each XORed with 0xF (R221). -/
def poisonMark : Nat := 0xFF * 2 ^ 128

/-- The syndrome packed as UE_SYND holds it (R232). -/
def Sym4.packed (s : Sym4) : Nat := s.s0 + 16 * s.s1 + 256 * s.s2 + 4096 * s.s3

/-- Where a Fold line lies: bank, sub-bank, index (R94). -/
structure FoldPlace where
  bank : Nat
  sub : Nat
  index : Nat
  deriving DecidableEq, Repr

/-- R94. -/
def foldPlace (o : Nat) : FoldPlace :=
  let l := o / 64
  { bank := bitsOf l 0 6 ^^^ bitsOf l 6 6 ^^^ bitsOf l 12 6 ^^^ bitsOf l 18 4
    sub := bitsOf l 6 2
    index := bitsOf l 8 14 }

/-- Populated bytes of one quarter's Fold (R93, R99). -/
def foldSize : Nat := 0xA000000

/-- First local address of quarter q's Fold (R99). -/
def foldBase (q : Nat) : Nat := 0x20000000000 + 0x10000000 * q

/-- Where a line of a stack lies (R209, R210): quarter, stack in its tier, pseudo-channel, bank, index in the bank. -/
structure StackPlace where
  dTier : Bool
  quarter : Nat
  stack : Nat
  pc : Nat
  bank : Nat
  index : Nat
  deriving DecidableEq, Repr

/-- R209: the place of F-tier quarter-local offset o. -/
def fPlace (q o : Nat) : StackPlace :=
  let l := o / 64
  let u := l % 48
  let m := l / 48
  { dTier := false, quarter := q, stack := u % 6, pc := u / 6
    bank := bitsOf m 0 6 ^^^ bitsOf m 6 6 ^^^ bitsOf m 12 6 ^^^ bitsOf m 18 6, index := bitsOf m 6 20 }

/-- R210: the place of D-tier quarter-local offset o. -/
def dPlace (q o : Nat) : StackPlace :=
  let l := o / 64
  let u := bitsOf l 0 4 ^^^ bitsOf l 4 4 ^^^ bitsOf l 8 4
  let m := l / 16
  { dTier := true, quarter := q, stack := u % 2, pc := u / 2
    bank := bitsOf m 0 5 ^^^ bitsOf m 5 5 ^^^ bitsOf m 10 5 ^^^ bitsOf m 15 5 ^^^ bitsOf m 20 5
    index := bitsOf m 5 23 }

/-- What a local address names (R99, R208). -/
inductive Region where
  | fTier (quarter offset : Nat)
  | dTier (quarter offset : Nat)
  | fold (quarter offset : Nat)
  | window (offset : Nat)
  | none
  deriving DecidableEq, Repr

/-- Bytes of a quarter's F stacks and D stacks (R208). -/
def fSize : Nat := 0x3000000000
/-- Bytes of a quarter's D stacks (R208). -/
def dSize : Nat := 0x4000000000
/-- First local offset of the D tier (R208). -/
def dBase (q : Nat) : Nat := 0x10000000000 + dSize * q
/-- First local offset of the register windows (R347). -/
def windowBase : Nat := 0x30000000000

/-- The region of a local address (R99, R208). -/
def regionOf (a : Nat) : Region :=
  if a < 4 * fSize then .fTier (a / fSize) (a % fSize)
  else if a < 0x10000000000 then .none
  else if a < 0x20000000000 then .dTier ((a - 0x10000000000) / dSize) ((a - 0x10000000000) % dSize)
  else if a < 0x20040000000 then
    (if (a - 0x20000000000) % 0x10000000 < foldSize then
      .fold ((a - 0x20000000000) / 0x10000000) ((a - 0x20000000000) % 0x10000000) else .none)
  else if windowBase ≤ a ∧ a < windowBase + 0x5000000 then .window (a - windowBase)
  else .none

/-- The place of a stack address; an address of no stack has none. -/
def stackPlace (a : Nat) : Option StackPlace :=
  match regionOf a with
  | .fTier q o => some (fPlace q o)
  | .dTier q o => some (dPlace q o)
  | _ => none

/-- The number of a stack in its quarter: 0 to 5 for F0 to F5, 6 and 7 for D0 and D1. -/
def StackPlace.slot (p : StackPlace) : Nat := if p.dTier then 6 + p.stack else p.stack

end Sys2Proof.Machine
end

