-- ==== Sys2Proof/Machine/RegMap.lean ====
section
/-! DEFINITION. The register pages: the page map of R347 to R351, the header of R352 and R353, and each page's registers with their access codes, fields and reset values, as the tables of the chapters give them. -/

namespace Sys2Proof.Machine

/-- The pages of R350. -/
inductive PageKind where
  | array | tslot | fold | qring | signal | ve | ce | mg | so | dg | wg | ex | cs | st | ue | fport | nmem
  | cp | jrnl | hk | tally | bgnd
  | modid | clkdir | step | lease | rng | opt | exp | coll | pod | mig | host | evq | pwr | boot | fault | sec
  deriving DecidableEq, Repr

/-- One register, or `count` of them `stride` bytes apart: which bits a write stores, a read clears, a write acts on, and
which are read-only; every other bit is reserved. -/
structure RegSpec where
  off : Nat
  rw : Nat := 0
  rc : Nat := 0
  wo : Nat := 0
  ro : Nat := 0
  reset : Nat := 0
  stride : Nat := 4
  count : Nat := 1
  deriving DecidableEq, Repr

/-- Offset of SLOTn in the TSLOT page, every 0x4. -/
abbrev Reg.TSLOT_SLOTn : Nat := 0x100
/-- Offset of SPARE_MAP in the TSLOT page. -/
abbrev Reg.TSLOT_SPARE_MAP : Nat := 0x178
/-- Offset of FAILED_MAP in the TSLOT page. -/
abbrev Reg.TSLOT_FAILED_MAP : Nat := 0x17C
/-- Offset of MAP_STS in the TSLOT page. -/
abbrev Reg.TSLOT_MAP_STS : Nat := 0x180
/-- Offset of ARR_CTL in the ARRAY page, every 0x40. -/
abbrev Reg.ARRAY_ARR_CTL : Nat := 0x100
/-- Offset of ARR_STS in the ARRAY page, every 0x40. -/
abbrev Reg.ARRAY_ARR_STS : Nat := 0x104
/-- Offset of ERR_INFO in the ARRAY page, every 0x40. -/
abbrev Reg.ARRAY_ERR_INFO : Nat := 0x108
/-- Offset of TILES_DONE in the ARRAY page, every 0x40. -/
abbrev Reg.ARRAY_TILES_DONE : Nat := 0x10C
/-- Offset of LAST_TAG in the ARRAY page, every 0x40. -/
abbrev Reg.ARRAY_LAST_TAG : Nat := 0x110
/-- Offset of LAST_EXT in the ARRAY page, every 0x40. -/
abbrev Reg.ARRAY_LAST_EXT : Nat := 0x114
/-- Offset of FEED_HOLD in the ARRAY page, every 0x40. -/
abbrev Reg.ARRAY_FEED_HOLD : Nat := 0x118
/-- Offset of DRAIN_HOLD in the ARRAY page, every 0x40. -/
abbrev Reg.ARRAY_DRAIN_HOLD : Nat := 0x11C
/-- Offset of SPILLS in the ARRAY page, every 0x40. -/
abbrev Reg.ARRAY_SPILLS : Nat := 0x120
/-- Offset of BUSY_CYC in the ARRAY page, every 0x40. -/
abbrev Reg.ARRAY_BUSY_CYC : Nat := 0x124
/-- Offset of TRIAD_STS in the ARRAY page. -/
abbrev Reg.ARRAY_TRIAD_STS : Nat := 0x1C0
/-- Offset of ECC_CE in the ARRAY page. -/
abbrev Reg.ARRAY_ECC_CE : Nat := 0x1C4
/-- Offset of ECC_UE in the ARRAY page. -/
abbrev Reg.ARRAY_ECC_UE : Nat := 0x1C8
/-- Offset of ECC_CE in the FOLD page. -/
abbrev Reg.FOLD_ECC_CE : Nat := 0x100
/-- Offset of ECC_UE in the FOLD page. -/
abbrev Reg.FOLD_ECC_UE : Nat := 0x104
/-- Offset of CE_ADDR in the FOLD page. -/
abbrev Reg.FOLD_CE_ADDR : Nat := 0x108
/-- Offset of UE_ADDR in the FOLD page. -/
abbrev Reg.FOLD_UE_ADDR : Nat := 0x10C
/-- Offset of CONFLICT in the FOLD page. -/
abbrev Reg.FOLD_CONFLICT : Nat := 0x110
/-- Offset of PROMOTED in the FOLD page. -/
abbrev Reg.FOLD_PROMOTED : Nat := 0x114
/-- Offset of POISON_RD in the FOLD page. -/
abbrev Reg.FOLD_POISON_RD : Nat := 0x118
/-- Offset of RING_CFG in the QRING page, every 0x10. -/
abbrev Reg.QRING_RING_CFG : Nat := 0x100
/-- Offset of TAIL in the QRING page, every 0x10. -/
abbrev Reg.QRING_TAIL : Nat := 0x104
/-- Offset of HEAD in the QRING page, every 0x10. -/
abbrev Reg.QRING_HEAD : Nat := 0x108
/-- Offset of Q_STS in the QRING page, every 0x10. -/
abbrev Reg.QRING_Q_STS : Nat := 0x10C
/-- Offset of TRACK_FREE in the QRING page. -/
abbrev Reg.QRING_TRACK_FREE : Nat := 0x900
/-- Offset of TRACK_WAIT in the QRING page. -/
abbrev Reg.QRING_TRACK_WAIT : Nat := 0x904
/-- Offset of LAST_QERR in the QRING page. -/
abbrev Reg.QRING_LAST_QERR : Nat := 0x908
/-- Offset of ENG_CTL in the ENG page. -/
abbrev Reg.ENG_ENG_CTL : Nat := 0x100
/-- Offset of ENG_STS in the ENG page. -/
abbrev Reg.ENG_ENG_STS : Nat := 0x104
/-- Offset of ERR_INFO in the ENG page. -/
abbrev Reg.ENG_ERR_INFO : Nat := 0x108
/-- Offset of DONE in the ENG page. -/
abbrev Reg.ENG_DONE : Nat := 0x10C
/-- Offset of LAST_TAG in the ENG page. -/
abbrev Reg.ENG_LAST_TAG : Nat := 0x110
/-- Offset of BUSY_CYC in the ENG page. -/
abbrev Reg.ENG_BUSY_CYC : Nat := 0x114
/-- Offset of SEED_NEXT_LO in the RNG page. -/
abbrev Reg.RNG_SEED_NEXT_LO : Nat := 0x100
/-- Offset of SEED_NEXT_HI in the RNG page. -/
abbrev Reg.RNG_SEED_NEXT_HI : Nat := 0x104
/-- Offset of SEED_LO in the RNG page. -/
abbrev Reg.RNG_SEED_LO : Nat := 0x108
/-- Offset of SEED_HI in the RNG page. -/
abbrev Reg.RNG_SEED_HI : Nat := 0x10C
/-- Offset of SALT_Qq in the RNG page, every 0x4. -/
abbrev Reg.RNG_SALT_Qq : Nat := 0x110
/-- Offset of STEP_CTL in the STEP page. -/
abbrev Reg.STEP_STEP_CTL : Nat := 0x100
/-- Offset of STEP_STS in the STEP page. -/
abbrev Reg.STEP_STEP_STS : Nat := 0x104
/-- Offset of ATTEMPT_LO in the STEP page. -/
abbrev Reg.STEP_ATTEMPT_LO : Nat := 0x108
/-- Offset of ATTEMPT_HI in the STEP page. -/
abbrev Reg.STEP_ATTEMPT_HI : Nat := 0x10C
/-- Offset of COMMITTED_LO in the STEP page. -/
abbrev Reg.STEP_COMMITTED_LO : Nat := 0x110
/-- Offset of COMMITTED_HI in the STEP page. -/
abbrev Reg.STEP_COMMITTED_HI : Nat := 0x114
/-- Offset of SKIPPED in the STEP page. -/
abbrev Reg.STEP_SKIPPED : Nat := 0x118
/-- Offset of VERDICT in the STEP page. -/
abbrev Reg.STEP_VERDICT : Nat := 0x11C
/-- Offset of VNORM in the STEP page. -/
abbrev Reg.STEP_VNORM : Nat := 0x120
/-- Offset of CLIP in the STEP page. -/
abbrev Reg.STEP_CLIP : Nat := 0x124
/-- Offset of SKIP_LIMIT in the STEP page. -/
abbrev Reg.STEP_SKIP_LIMIT : Nat := 0x128
/-- Offset of CLIP_LIMIT in the STEP page. -/
abbrev Reg.STEP_CLIP_LIMIT : Nat := 0x12C
/-- Offset of STILL_THRESH in the STEP page. -/
abbrev Reg.STEP_STILL_THRESH : Nat := 0x130
/-- Offset of DIGEST_EVERY in the STEP page. -/
abbrev Reg.STEP_DIGEST_EVERY : Nat := 0x134
/-- Offset of BND_EXEMPT_LO in the STEP page. -/
abbrev Reg.STEP_BND_EXEMPT_LO : Nat := 0x138
/-- Offset of BND_EXEMPT_HI in the STEP page. -/
abbrev Reg.STEP_BND_EXEMPT_HI : Nat := 0x13C
/-- Offset of HREC_BASE_LO in the STEP page. -/
abbrev Reg.STEP_HREC_BASE_LO : Nat := 0x140
/-- Offset of HREC_BASE_HI in the STEP page. -/
abbrev Reg.STEP_HREC_BASE_HI : Nat := 0x144
/-- Offset of HREC_CFG in the STEP page. -/
abbrev Reg.STEP_HREC_CFG : Nat := 0x148
/-- Offset of HREC_HEAD in the STEP page. -/
abbrev Reg.STEP_HREC_HEAD : Nat := 0x14C
/-- Offset of HREC_TAIL in the STEP page. -/
abbrev Reg.STEP_HREC_TAIL : Nat := 0x150
/-- Offset of HREC_DROPS in the STEP page. -/
abbrev Reg.STEP_HREC_DROPS : Nat := 0x154
/-- Offset of LEASE_WARN in the STEP page. -/
abbrev Reg.STEP_LEASE_WARN : Nat := 0x158
/-- Offset of STILL_SEL in the STEP page. -/
abbrev Reg.STEP_STILL_SEL : Nat := 0x15C
/-- Offset of STILL_VIEW in the STEP page. -/
abbrev Reg.STEP_STILL_VIEW : Nat := 0x160
/-- Offset of STILL_LAST in the STEP page. -/
abbrev Reg.STEP_STILL_LAST : Nat := 0x164
/-- Offset of STALE_PAGE in the STEP page. -/
abbrev Reg.STEP_STALE_PAGE : Nat := 0x168
/-- Offset of PTp_START_LO in the STEP page, every 0x10. -/
abbrev Reg.STEP_PTp_START_LO : Nat := 0x180
/-- Offset of PTp_START_HI in the STEP page, every 0x10. -/
abbrev Reg.STEP_PTp_START_HI : Nat := 0x184
/-- Offset of PTp_END_LO in the STEP page, every 0x10. -/
abbrev Reg.STEP_PTp_END_LO : Nat := 0x188
/-- Offset of PTp_END_HI in the STEP page, every 0x10. -/
abbrev Reg.STEP_PTp_END_HI : Nat := 0x18C
/-- Offset of Ln_BASE in the LEASE page, every 0x10. -/
abbrev Reg.LEASE_Ln_BASE : Nat := 0x100
/-- Offset of Ln_COUNT in the LEASE page, every 0x10. -/
abbrev Reg.LEASE_Ln_COUNT : Nat := 0x104
/-- Offset of Ln_CTL in the LEASE page, every 0x10. -/
abbrev Reg.LEASE_Ln_CTL : Nat := 0x108
/-- Offset of Ln_STS in the LEASE page, every 0x10. -/
abbrev Reg.LEASE_Ln_STS : Nat := 0x10C
/-- Offset of OPT_CTL in the OPT page. -/
abbrev Reg.OPT_OPT_CTL : Nat := 0x100
/-- Offset of HELD in the OPT page. -/
abbrev Reg.OPT_HELD : Nat := 0x104
/-- Offset of SATURATED in the OPT page. -/
abbrev Reg.OPT_SATURATED : Nat := 0x108
/-- Offset of PROGS_DONE in the OPT page. -/
abbrev Reg.OPT_PROGS_DONE : Nat := 0x10C
/-- Offset of LAST_LAYER in the OPT page. -/
abbrev Reg.OPT_LAST_LAYER : Nat := 0x110
/-- Offset of EXP_CTL in the EXP page. -/
abbrev Reg.EXP_EXP_CTL : Nat := 0x100
/-- Offset of EXP_STS in the EXP page. -/
abbrev Reg.EXP_EXP_STS : Nat := 0x104
/-- Offset of Qq_NEXT_LO in the EXP page, every 0x8. -/
abbrev Reg.EXP_Qq_NEXT_LO : Nat := 0x108
/-- Offset of Qq_NEXT_HI in the EXP page, every 0x8. -/
abbrev Reg.EXP_Qq_NEXT_HI : Nat := 0x10C
/-- Offset of LAG_TIME in the EXP page. -/
abbrev Reg.EXP_LAG_TIME : Nat := 0x128
/-- Offset of Qq_CHG in the EXP page, every 0x4. -/
abbrev Reg.EXP_Qq_CHG : Nat := 0x12C
/-- Offset of PLANq_LO in the COLL page, every 0x8. -/
abbrev Reg.COLL_PLANq_LO : Nat := 0x100
/-- Offset of PLANq_HI in the COLL page, every 0x8. -/
abbrev Reg.COLL_PLANq_HI : Nat := 0x104
/-- Offset of PLAN_CFG in the COLL page. -/
abbrev Reg.COLL_PLAN_CFG : Nat := 0x120
/-- Offset of SHAPE in the COLL page. -/
abbrev Reg.COLL_SHAPE : Nat := 0x124
/-- Offset of POS in the COLL page. -/
abbrev Reg.COLL_POS : Nat := 0x128
/-- Offset of NEIGHi in the COLL page, every 0x4. -/
abbrev Reg.COLL_NEIGHi : Nat := 0x12C
/-- Offset of TREE in the COLL page. -/
abbrev Reg.COLL_TREE : Nat := 0x144
/-- Offset of WAIT_WARN in the COLL page. -/
abbrev Reg.COLL_WAIT_WARN : Nat := 0x148
/-- Offset of WAIT_TAG in the COLL page. -/
abbrev Reg.COLL_WAIT_TAG : Nat := 0x14C
/-- Offset of WAIT_INFO in the COLL page. -/
abbrev Reg.COLL_WAIT_INFO : Nat := 0x150
/-- Offset of STRAY in the COLL page. -/
abbrev Reg.COLL_STRAY : Nat := 0x154
/-- Offset of DLOG_BASE_LO in the COLL page. -/
abbrev Reg.COLL_DLOG_BASE_LO : Nat := 0x158
/-- Offset of DLOG_BASE_HI in the COLL page. -/
abbrev Reg.COLL_DLOG_BASE_HI : Nat := 0x15C
/-- Offset of DLOG_CFG in the COLL page. -/
abbrev Reg.COLL_DLOG_CFG : Nat := 0x160
/-- Offset of DLOG_TAIL in the COLL page. -/
abbrev Reg.COLL_DLOG_TAIL : Nat := 0x164
/-- Offset of CHECK in the COLL page. -/
abbrev Reg.COLL_CHECK : Nat := 0x168
/-- Offset of CHECK_ATT in the COLL page. -/
abbrev Reg.COLL_CHECK_ATT : Nat := 0x16C
/-- Offset of CHECK_STS in the COLL page. -/
abbrev Reg.COLL_CHECK_STS : Nat := 0x170
/-- Offset of MISMATCHES in the COLL page. -/
abbrev Reg.COLL_MISMATCHES : Nat := 0x174
/-- Offset of LAST_MISMATCH in the COLL page. -/
abbrev Reg.COLL_LAST_MISMATCH : Nat := 0x178
/-- Offset of MEM_CTL in the NMEM page. -/
abbrev Reg.NMEM_MEM_CTL : Nat := 0x100
/-- Offset of MEM_STS in the NMEM page. -/
abbrev Reg.NMEM_MEM_STS : Nat := 0x104
/-- Offset of ECC_CE in the NMEM page. -/
abbrev Reg.NMEM_ECC_CE : Nat := 0x108
/-- Offset of ECC_UE in the NMEM page. -/
abbrev Reg.NMEM_ECC_UE : Nat := 0x10C
/-- Offset of POISON_RD in the NMEM page. -/
abbrev Reg.NMEM_POISON_RD : Nat := 0x110
/-- Offset of CE_ADDR_LO in the NMEM page. -/
abbrev Reg.NMEM_CE_ADDR_LO : Nat := 0x114
/-- Offset of CE_ADDR_HI in the NMEM page. -/
abbrev Reg.NMEM_CE_ADDR_HI : Nat := 0x118
/-- Offset of CE_INFO in the NMEM page. -/
abbrev Reg.NMEM_CE_INFO : Nat := 0x11C
/-- Offset of UE_ADDR_LO in the NMEM page. -/
abbrev Reg.NMEM_UE_ADDR_LO : Nat := 0x120
/-- Offset of UE_ADDR_HI in the NMEM page. -/
abbrev Reg.NMEM_UE_ADDR_HI : Nat := 0x124
/-- Offset of UE_SYND in the NMEM page. -/
abbrev Reg.NMEM_UE_SYND : Nat := 0x128
/-- Offset of ACCEPTED in the NMEM page. -/
abbrev Reg.NMEM_ACCEPTED : Nat := 0x12C
/-- Offset of SLOT_WAIT in the NMEM page. -/
abbrev Reg.NMEM_SLOT_WAIT : Nat := 0x130
/-- Offset of BANK_WAIT in the NMEM page. -/
abbrev Reg.NMEM_BANK_WAIT : Nat := 0x134
/-- Offset of CE_THRESH in the NMEM page. -/
abbrev Reg.NMEM_CE_THRESH : Nat := 0x138
/-- Offset of REPAIR_ADDR_LO in the NMEM page. -/
abbrev Reg.NMEM_REPAIR_ADDR_LO : Nat := 0x13C
/-- Offset of REPAIR_ADDR_HI in the NMEM page. -/
abbrev Reg.NMEM_REPAIR_ADDR_HI : Nat := 0x140
/-- Offset of REPAIR_CTL in the NMEM page. -/
abbrev Reg.NMEM_REPAIR_CTL : Nat := 0x144
/-- Offset of REPAIR_STS in the NMEM page. -/
abbrev Reg.NMEM_REPAIR_STS : Nat := 0x148
/-- Offset of LANE_STS in the NMEM page. -/
abbrev Reg.NMEM_LANE_STS : Nat := 0x14C
/-- Offset of PORT_CTL in the FPORT page. -/
abbrev Reg.FPORT_PORT_CTL : Nat := 0x100
/-- Offset of PORT_STS in the FPORT page. -/
abbrev Reg.FPORT_PORT_STS : Nat := 0x104
/-- Offset of NEIGH_ID in the FPORT page. -/
abbrev Reg.FPORT_NEIGH_ID : Nat := 0x108
/-- Offset of LINK_DELAY in the FPORT page. -/
abbrev Reg.FPORT_LINK_DELAY : Nat := 0x10C
/-- Offset of FEC_CORR in the FPORT page. -/
abbrev Reg.FPORT_FEC_CORR : Nat := 0x110
/-- Offset of FEC_UNCORR in the FPORT page. -/
abbrev Reg.FPORT_FEC_UNCORR : Nat := 0x114
/-- Offset of RX_BAD in the FPORT page. -/
abbrev Reg.FPORT_RX_BAD : Nat := 0x118
/-- Offset of RETRIES in the FPORT page. -/
abbrev Reg.FPORT_RETRIES : Nat := 0x11C
/-- Offset of CREDIT_STALL in the FPORT page. -/
abbrev Reg.FPORT_CREDIT_STALL : Nat := 0x120
/-- Offset of VL_ARB in the FPORT page. -/
abbrev Reg.FPORT_VL_ARB : Nat := 0x124
/-- Offset of ROLE in the POD page. -/
abbrev Reg.POD_ROLE : Nat := 0x100
/-- Offset of POD_CTL in the POD page. -/
abbrev Reg.POD_POD_CTL : Nat := 0x104
/-- Offset of SELF_ID in the POD page. -/
abbrev Reg.POD_SELF_ID : Nat := 0x108
/-- Offset of LEAD_ID in the POD page. -/
abbrev Reg.POD_LEAD_ID : Nat := 0x10C
/-- Offset of STANDBY_ID in the POD page. -/
abbrev Reg.POD_STANDBY_ID : Nat := 0x110
/-- Offset of LEAD_TERM in the POD page. -/
abbrev Reg.POD_LEAD_TERM : Nat := 0x114
/-- Offset of LSHAPE in the POD page. -/
abbrev Reg.POD_LSHAPE : Nat := 0x118
/-- Offset of TOPO_SIG_LO in the POD page. -/
abbrev Reg.POD_TOPO_SIG_LO : Nat := 0x11C
/-- Offset of TOPO_SIG_HI in the POD page. -/
abbrev Reg.POD_TOPO_SIG_HI : Nat := 0x120
/-- Offset of MEND_EPOCH in the POD page. -/
abbrev Reg.POD_MEND_EPOCH : Nat := 0x124
/-- Offset of CUT_SEL in the POD page. -/
abbrev Reg.POD_CUT_SEL : Nat := 0x128
/-- Offset of CUT_VIEW in the POD page. -/
abbrev Reg.POD_CUT_VIEW : Nat := 0x12C
/-- Offset of LEAD_TIMEOUT in the POD page. -/
abbrev Reg.POD_LEAD_TIMEOUT : Nat := 0x130
/-- Offset of ELECT_QUIET in the POD page. -/
abbrev Reg.POD_ELECT_QUIET : Nat := 0x134
/-- Offset of PT_LO in the POD page. -/
abbrev Reg.POD_PT_LO : Nat := 0x138
/-- Offset of PT_HI in the POD page. -/
abbrev Reg.POD_PT_HI : Nat := 0x13C
/-- Offset of PT_OFFSET in the POD page. -/
abbrev Reg.POD_PT_OFFSET : Nat := 0x140
/-- Offset of PT_DELAY in the POD page. -/
abbrev Reg.POD_PT_DELAY : Nat := 0x144
/-- Offset of PT_STS in the POD page. -/
abbrev Reg.POD_PT_STS : Nat := 0x148
/-- Offset of PT_SET_LO in the POD page. -/
abbrev Reg.POD_PT_SET_LO : Nat := 0x14C
/-- Offset of PT_SET_HI in the POD page. -/
abbrev Reg.POD_PT_SET_HI : Nat := 0x150
/-- Offset of POD_CMD in the POD page. -/
abbrev Reg.POD_POD_CMD : Nat := 0x154
/-- Offset of ALIASn_FROM in the POD page, every 0x8. -/
abbrev Reg.POD_ALIASn_FROM : Nat := 0x200
/-- Offset of ALIASn_TO in the POD page, every 0x8. -/
abbrev Reg.POD_ALIASn_TO : Nat := 0x204
/-- Offset of MIG_CTL in the MIG page. -/
abbrev Reg.MIG_MIG_CTL : Nat := 0x100
/-- Offset of MIG_STS in the MIG page. -/
abbrev Reg.MIG_MIG_STS : Nat := 0x104
/-- Offset of ROUND_H in the MIG page. -/
abbrev Reg.MIG_ROUND_H : Nat := 0x108
/-- Offset of SITES in the MIG page. -/
abbrev Reg.MIG_SITES : Nat := 0x10C
/-- Offset of ROUND in the MIG page. -/
abbrev Reg.MIG_ROUND : Nat := 0x110
/-- Offset of COMMON_ROUND in the MIG page. -/
abbrev Reg.MIG_COMMON_ROUND : Nat := 0x114
/-- Offset of STALE_MAX in the MIG page. -/
abbrev Reg.MIG_STALE_MAX : Nat := 0x118
/-- Offset of DECAY in the MIG page. -/
abbrev Reg.MIG_DECAY : Nat := 0x11C
/-- Offset of WAIT_RTTS in the MIG page. -/
abbrev Reg.MIG_WAIT_RTTS : Nat := 0x120
/-- Offset of WAIT_FIXED in the MIG page. -/
abbrev Reg.MIG_WAIT_FIXED : Nat := 0x124
/-- Offset of SEP_MIN in the MIG page. -/
abbrev Reg.MIG_SEP_MIN : Nat := 0x128
/-- Offset of DIV_ROUNDS in the MIG page. -/
abbrev Reg.MIG_DIV_ROUNDS : Nat := 0x12C
/-- Offset of LAND_OFF_LO in the MIG page. -/
abbrev Reg.MIG_LAND_OFF_LO : Nat := 0x130
/-- Offset of LAND_OFF_HI in the MIG page. -/
abbrev Reg.MIG_LAND_OFF_HI : Nat := 0x134
/-- Offset of SLOT_BYTES in the MIG page. -/
abbrev Reg.MIG_SLOT_BYTES : Nat := 0x138
/-- Offset of IID_HI in the MIG page. -/
abbrev Reg.MIG_IID_HI : Nat := 0x13C
/-- Offset of PREFIXs_LO in the MIG page, every 0x8. -/
abbrev Reg.MIG_PREFIXs_LO : Nat := 0x140
/-- Offset of PREFIXs_HI in the MIG page, every 0x8. -/
abbrev Reg.MIG_PREFIXs_HI : Nat := 0x144
/-- Offset of SITEs_STS in the MIG page, every 0x10. -/
abbrev Reg.MIG_SITEs_STS : Nat := 0x180
/-- Offset of SITEs_ROUND in the MIG page, every 0x10. -/
abbrev Reg.MIG_SITEs_ROUND : Nat := 0x184
/-- Offset of SITEs_SRTT in the MIG page, every 0x10. -/
abbrev Reg.MIG_SITEs_SRTT : Nat := 0x188
/-- Offset of SITEs_OWD in the MIG page, every 0x10. -/
abbrev Reg.MIG_SITEs_OWD : Nat := 0x18C
/-- Offset of PTP_CTL in the MIG page. -/
abbrev Reg.MIG_PTP_CTL : Nat := 0x200
/-- Offset of PTP_STS in the MIG page. -/
abbrev Reg.MIG_PTP_STS : Nat := 0x204
/-- Offset of PTP_OFFSET in the MIG page. -/
abbrev Reg.MIG_PTP_OFFSET : Nat := 0x208
/-- Offset of MAP_PT_LO in the MIG page. -/
abbrev Reg.MIG_MAP_PT_LO : Nat := 0x20C
/-- Offset of MAP_PT_HI in the MIG page. -/
abbrev Reg.MIG_MAP_PT_HI : Nat := 0x210
/-- Offset of MAP_SEC_LO in the MIG page. -/
abbrev Reg.MIG_MAP_SEC_LO : Nat := 0x214
/-- Offset of MAP_SEC_HI in the MIG page. -/
abbrev Reg.MIG_MAP_SEC_HI : Nat := 0x218
/-- Offset of LATE in the MIG page. -/
abbrev Reg.MIG_LATE : Nat := 0x21C
/-- Offset of DROPPED in the MIG page. -/
abbrev Reg.MIG_DROPPED : Nat := 0x220
/-- Offset of BAD in the MIG page. -/
abbrev Reg.MIG_BAD : Nat := 0x224
/-- Offset of SEND_SKIP in the MIG page. -/
abbrev Reg.MIG_SEND_SKIP : Nat := 0x228
/-- Offset of RTT_JUMPS in the MIG page. -/
abbrev Reg.MIG_RTT_JUMPS : Nat := 0x22C
/-- Offset of HOST_CTL in the HOST page. -/
abbrev Reg.HOST_HOST_CTL : Nat := 0x100
/-- Offset of HOST_STS in the HOST page. -/
abbrev Reg.HOST_HOST_STS : Nat := 0x104
/-- Offset of HOST_CMD in the HOST page. -/
abbrev Reg.HOST_HOST_CMD : Nat := 0x108
/-- Offset of QOS_ETS in the HOST page. -/
abbrev Reg.HOST_QOS_ETS : Nat := 0x10C
/-- Offset of QOS_PFC in the HOST page. -/
abbrev Reg.HOST_QOS_PFC : Nat := 0x110
/-- Offset of ECN_CTL in the HOST page. -/
abbrev Reg.HOST_ECN_CTL : Nat := 0x114
/-- Offset of OWNER_DIGi in the HOST page, every 0x4. -/
abbrev Reg.HOST_OWNER_DIGi : Nat := 0x118
/-- Offset of IPV4_Sq in the HOST page, every 0x4. -/
abbrev Reg.HOST_IPV4_Sq : Nat := 0x148
/-- Offset of HPFX_Sq_LO in the HOST page, every 0x8. -/
abbrev Reg.HOST_HPFX_Sq_LO : Nat := 0x158
/-- Offset of HPFX_Sq_HI in the HOST page, every 0x8. -/
abbrev Reg.HOST_HPFX_Sq_HI : Nat := 0x15C
/-- Offset of QP_ERR in the HOST page. -/
abbrev Reg.HOST_QP_ERR : Nat := 0x178
/-- Offset of ACC_ERR in the HOST page. -/
abbrev Reg.HOST_ACC_ERR : Nat := 0x17C
/-- Offset of EVRn_BASE_LO in the HOST page, every 0x20. -/
abbrev Reg.HOST_EVRn_BASE_LO : Nat := 0x200
/-- Offset of EVRn_BASE_HI in the HOST page, every 0x20. -/
abbrev Reg.HOST_EVRn_BASE_HI : Nat := 0x204
/-- Offset of EVRn_RKEY in the HOST page, every 0x20. -/
abbrev Reg.HOST_EVRn_RKEY : Nat := 0x208
/-- Offset of EVRn_CFG in the HOST page, every 0x20. -/
abbrev Reg.HOST_EVRn_CFG : Nat := 0x20C
/-- Offset of EVRn_QPN in the HOST page, every 0x20. -/
abbrev Reg.HOST_EVRn_QPN : Nat := 0x210
/-- Offset of EVRn_PROD_LO in the HOST page, every 0x20. -/
abbrev Reg.HOST_EVRn_PROD_LO : Nat := 0x214
/-- Offset of EVRn_PROD_HI in the HOST page, every 0x20. -/
abbrev Reg.HOST_EVRn_PROD_HI : Nat := 0x218
/-- Offset of EVRn_STS in the HOST page, every 0x20. -/
abbrev Reg.HOST_EVRn_STS : Nat := 0x21C
/-- Offset of QREF_CTLq in the CLKDIR page, every 0x4. -/
abbrev Reg.CLKDIR_QREF_CTLq : Nat := 0x100
/-- Offset of PLLq_STS in the CLKDIR page, every 0x4. -/
abbrev Reg.CLKDIR_PLLq_STS : Nat := 0x110
/-- Offset of CLK_CMD in the CLKDIR page. -/
abbrev Reg.CLKDIR_CLK_CMD : Nat := 0x120
/-- Offset of CMD_STS in the CLKDIR page. -/
abbrev Reg.CLKDIR_CMD_STS : Nat := 0x124
/-- Offset of HELD_LAST in the CLKDIR page. -/
abbrev Reg.CLKDIR_HELD_LAST : Nat := 0x128
/-- Offset of HELD_NOW in the CLKDIR page. -/
abbrev Reg.CLKDIR_HELD_NOW : Nat := 0x12C
/-- Offset of DIRq_w in the CLKDIR page, every 0x4. -/
abbrev Reg.CLKDIR_DIRq_w : Nat := 0x200
/-- Offset of PAGE_ID in the page header page. -/
abbrev Reg.HDR_PAGE_ID : Nat := 0x000
/-- Offset of PAGE_CAPS in the page header page. -/
abbrev Reg.HDR_PAGE_CAPS : Nat := 0x004
/-- Offset of PAGE_CTL in the page header page. -/
abbrev Reg.HDR_PAGE_CTL : Nat := 0x008
/-- Offset of PAGE_STS in the page header page. -/
abbrev Reg.HDR_PAGE_STS : Nat := 0x00C
/-- Offset of EVT_STS in the page header page. -/
abbrev Reg.HDR_EVT_STS : Nat := 0x010
/-- Offset of EVT_EN in the page header page. -/
abbrev Reg.HDR_EVT_EN : Nat := 0x014
/-- Offset of EVT_FORCE in the page header page. -/
abbrev Reg.HDR_EVT_FORCE : Nat := 0x018
/-- Offset of EVT_COUNT in the page header page. -/
abbrev Reg.HDR_EVT_COUNT : Nat := 0x01C
/-- Offset of CLK_STATE in the page header page. -/
abbrev Reg.HDR_CLK_STATE : Nat := 0x020
/-- Offset of JRNL_SEQ in the page header page. -/
abbrev Reg.HDR_JRNL_SEQ : Nat := 0x024
/-- Offset of CREDIT_SEL in the page header page. -/
abbrev Reg.HDR_CREDIT_SEL : Nat := 0x028
/-- Offset of CREDIT_VIEW in the page header page. -/
abbrev Reg.HDR_CREDIT_VIEW : Nat := 0x02C
/-- Offset of PART in the MODID page. -/
abbrev Reg.MODID_PART : Nat := 0x100
/-- Offset of SVC in the MODID page. -/
abbrev Reg.MODID_SVC : Nat := 0x104
/-- Offset of QUARTERS in the MODID page. -/
abbrev Reg.MODID_QUARTERS : Nat := 0x108
/-- Offset of MAP_REV in the MODID page. -/
abbrev Reg.MODID_MAP_REV : Nat := 0x10C
/-- Offset of ROLE_VIEW in the MODID page. -/
abbrev Reg.MODID_ROLE_VIEW : Nat := 0x110
/-- Offset of JSTS in the JRNL page. -/
abbrev Reg.JRNL_JSTS : Nat := 0x100
/-- Offset of SEQ_LO in the JRNL page. -/
abbrev Reg.JRNL_SEQ_LO : Nat := 0x104
/-- Offset of SEQ_HI in the JRNL page. -/
abbrev Reg.JRNL_SEQ_HI : Nat := 0x108
/-- Offset of FLASH_SEQ_LO in the JRNL page. -/
abbrev Reg.JRNL_FLASH_SEQ_LO : Nat := 0x10C
/-- Offset of FLASH_SEQ_HI in the JRNL page. -/
abbrev Reg.JRNL_FLASH_SEQ_HI : Nat := 0x110
/-- Offset of HOST_SEQ_LO in the JRNL page. -/
abbrev Reg.JRNL_HOST_SEQ_LO : Nat := 0x114
/-- Offset of HOST_SEQ_HI in the JRNL page. -/
abbrev Reg.JRNL_HOST_SEQ_HI : Nat := 0x118
/-- Offset of HELD_NOW in the JRNL page. -/
abbrev Reg.JRNL_HELD_NOW : Nat := 0x11C
/-- Offset of HELD_TIME in the JRNL page. -/
abbrev Reg.JRNL_HELD_TIME : Nat := 0x120
/-- Offset of REFUSED in the JRNL page. -/
abbrev Reg.JRNL_REFUSED : Nat := 0x124
/-- Offset of LAST_REFUSED in the JRNL page. -/
abbrev Reg.JRNL_LAST_REFUSED : Nat := 0x128
/-- Offset of EVQ_CTL in the EVQ page. -/
abbrev Reg.EVQ_EVQ_CTL : Nat := 0x100
/-- Offset of ALARM_PEND in the EVQ page. -/
abbrev Reg.EVQ_ALARM_PEND : Nat := 0x104
/-- Offset of ALARM_COALESCED in the EVQ page. -/
abbrev Reg.EVQ_ALARM_COALESCED : Nat := 0x108
/-- Offset of ALARM_PAGE_OVF in the EVQ page. -/
abbrev Reg.EVQ_ALARM_PAGE_OVF : Nat := 0x10C
/-- Offset of TEL_STAGE in the EVQ page. -/
abbrev Reg.EVQ_TEL_STAGE : Nat := 0x110
/-- Offset of TEL_DROPS in the EVQ page. -/
abbrev Reg.EVQ_TEL_DROPS : Nat := 0x114
/-- Offset of TRACE_STAGE in the EVQ page. -/
abbrev Reg.EVQ_TRACE_STAGE : Nat := 0x118
/-- Offset of TRACE_DROPS in the EVQ page. -/
abbrev Reg.EVQ_TRACE_DROPS : Nat := 0x11C
/-- Offset of TRACE_SELq_w in the EVQ page, every 0x4. -/
abbrev Reg.EVQ_TRACE_SELq_w : Nat := 0x120
/-- Offset of RINSE_CTL in the BGND page. -/
abbrev Reg.BGND_RINSE_CTL : Nat := 0x100
/-- Offset of FOLD_PASSES in the BGND page. -/
abbrev Reg.BGND_FOLD_PASSES : Nat := 0x104
/-- Offset of FOLD_POS in the BGND page. -/
abbrev Reg.BGND_FOLD_POS : Nat := 0x108
/-- Offset of MEM_PASSES_s in the BGND page, every 0x4. -/
abbrev Reg.BGND_MEM_PASSES_s : Nat := 0x110
/-- Offset of RINSE_FOUND in the BGND page. -/
abbrev Reg.BGND_RINSE_FOUND : Nat := 0x130
/-- Offset of RINSE_UE in the BGND page. -/
abbrev Reg.BGND_RINSE_UE : Nat := 0x134
/-- Offset of WB_DROPPED in the BGND page. -/
abbrev Reg.BGND_WB_DROPPED : Nat := 0x138
/-- Offset of RINSE_SKIP in the BGND page. -/
abbrev Reg.BGND_RINSE_SKIP : Nat := 0x13C
/-- Offset of PRESS_CTL in the BGND page. -/
abbrev Reg.BGND_PRESS_CTL : Nat := 0x140
/-- Offset of PRESS_STS in the BGND page. -/
abbrev Reg.BGND_PRESS_STS : Nat := 0x144
/-- Offset of PRESS_ADJ in the BGND page. -/
abbrev Reg.BGND_PRESS_ADJ : Nat := 0x148
/-- Offset of MARGIN_LIMIT in the BGND page. -/
abbrev Reg.BGND_MARGIN_LIMIT : Nat := 0x14C
/-- Offset of MARGIN_SEL in the BGND page. -/
abbrev Reg.BGND_MARGIN_SEL : Nat := 0x150
/-- Offset of MARGIN_VIEW in the BGND page. -/
abbrev Reg.BGND_MARGIN_VIEW : Nat := 0x154
/-- Offset of DARN_CTL in the BGND page. -/
abbrev Reg.BGND_DARN_CTL : Nat := 0x158
/-- Offset of AGE_WARN in the BGND page. -/
abbrev Reg.BGND_AGE_WARN : Nat := 0x15C
/-- Offset of AGE_FAIL in the BGND page. -/
abbrev Reg.BGND_AGE_FAIL : Nat := 0x160
/-- Offset of AGE_SEL in the BGND page. -/
abbrev Reg.BGND_AGE_SEL : Nat := 0x164
/-- Offset of AGE_VIEW in the BGND page. -/
abbrev Reg.BGND_AGE_VIEW : Nat := 0x168
/-- Offset of FLASH_LIFE in the BGND page. -/
abbrev Reg.BGND_FLASH_LIFE : Nat := 0x16C
/-- Offset of FLASH_ERASES in the BGND page. -/
abbrev Reg.BGND_FLASH_ERASES : Nat := 0x170
/-- Offset of DARN_CPU in the BGND page. -/
abbrev Reg.BGND_DARN_CPU : Nat := 0x174
/-- Offset of SEQ in the TALLY page. -/
abbrev Reg.TALLY_SEQ : Nat := 0x100
/-- Offset of LAST_TIME_LO in the TALLY page. -/
abbrev Reg.TALLY_LAST_TIME_LO : Nat := 0x104
/-- Offset of LAST_TIME_HI in the TALLY page. -/
abbrev Reg.TALLY_LAST_TIME_HI : Nat := 0x108
/-- Offset of TEMP_SEL in the TALLY page. -/
abbrev Reg.TALLY_TEMP_SEL : Nat := 0x10C
/-- Offset of TEMP_VIEW in the TALLY page. -/
abbrev Reg.TALLY_TEMP_VIEW : Nat := 0x110
/-- Offset of SENSORS_OUT in the TALLY page. -/
abbrev Reg.TALLY_SENSORS_OUT : Nat := 0x114
/-- Offset of PWR_CMD in the PWR page. -/
abbrev Reg.PWR_PWR_CMD : Nat := 0x100
/-- Offset of PWR_STS in the PWR page. -/
abbrev Reg.PWR_PWR_STS : Nat := 0x104
/-- Offset of V_IN in the PWR page. -/
abbrev Reg.PWR_V_IN : Nat := 0x108
/-- Offset of I_IN in the PWR page. -/
abbrev Reg.PWR_I_IN : Nat := 0x10C
/-- Offset of P_IN in the PWR page. -/
abbrev Reg.PWR_P_IN : Nat := 0x110
/-- Offset of P_LIMIT in the PWR page. -/
abbrev Reg.PWR_P_LIMIT : Nat := 0x114
/-- Offset of P_CAP in the PWR page. -/
abbrev Reg.PWR_P_CAP : Nat := 0x118
/-- Offset of P_THERM in the PWR page. -/
abbrev Reg.PWR_P_THERM : Nat := 0x11C
/-- Offset of FLOW in the PWR page. -/
abbrev Reg.PWR_FLOW : Nat := 0x120
/-- Offset of T_INLET in the PWR page. -/
abbrev Reg.PWR_T_INLET : Nat := 0x124
/-- Offset of T_OUTLET in the PWR page. -/
abbrev Reg.PWR_T_OUTLET : Nat := 0x128
/-- Offset of TRIP_INFO in the PWR page. -/
abbrev Reg.PWR_TRIP_INFO : Nat := 0x12C
/-- Offset of THR_TIME in the PWR page. -/
abbrev Reg.PWR_THR_TIME : Nat := 0x130
/-- Offset of HK_STS in the HK page. -/
abbrev Reg.HK_HK_STS : Nat := 0x100
/-- Offset of V_CORE in the HK page. -/
abbrev Reg.HK_V_CORE : Nat := 0x104
/-- Offset of V_STACK in the HK page. -/
abbrev Reg.HK_V_STACK : Nat := 0x108
/-- Offset of P_CORE in the HK page. -/
abbrev Reg.HK_P_CORE : Nat := 0x10C
/-- Offset of P_MEM in the HK page. -/
abbrev Reg.HK_P_MEM : Nat := 0x110
/-- Offset of T_DIE_MAX in the HK page. -/
abbrev Reg.HK_T_DIE_MAX : Nat := 0x114
/-- Offset of T_DRAM_MAX in the HK page. -/
abbrev Reg.HK_T_DRAM_MAX : Nat := 0x118
/-- Offset of T_WARN in the HK page. -/
abbrev Reg.HK_T_WARN : Nat := 0x11C
/-- Offset of T_DRAM_WARN in the HK page. -/
abbrev Reg.HK_T_DRAM_WARN : Nat := 0x120
/-- Offset of THR_TIME in the HK page. -/
abbrev Reg.HK_THR_TIME : Nat := 0x124
/-- Offset of WARN_TIME in the HK page. -/
abbrev Reg.HK_WARN_TIME : Nat := 0x128
/-- Offset of BOOT_CMD in the BOOT page. -/
abbrev Reg.BOOT_BOOT_CMD : Nat := 0x100
/-- Offset of BOOT_STS in the BOOT page. -/
abbrev Reg.BOOT_BOOT_STS : Nat := 0x104
/-- Offset of SKIP_MASK in the BOOT page. -/
abbrev Reg.BOOT_SKIP_MASK : Nat := 0x108
/-- Offset of STACKS_TRAINED in the BOOT page. -/
abbrev Reg.BOOT_STACKS_TRAINED : Nat := 0x10C
/-- Offset of BIST_AGE in the BOOT page. -/
abbrev Reg.BOOT_BIST_AGE : Nat := 0x110
/-- Offset of START_MS in the BOOT page. -/
abbrev Reg.BOOT_START_MS : Nat := 0x114
/-- Offset of PHASE_MSp in the BOOT page, every 0x4. -/
abbrev Reg.BOOT_PHASE_MSp : Nat := 0x118
/-- Offset of FAIL_INFO in the BOOT page. -/
abbrev Reg.BOOT_FAIL_INFO : Nat := 0x13C
/-- Offset of STARTS in the BOOT page. -/
abbrev Reg.BOOT_STARTS : Nat := 0x140
/-- Offset of UMAP_LO in the BOOT page. -/
abbrev Reg.BOOT_UMAP_LO : Nat := 0x144
/-- Offset of UMAP_HI in the BOOT page. -/
abbrev Reg.BOOT_UMAP_HI : Nat := 0x148
/-- Offset of UMAP_COUNT in the BOOT page. -/
abbrev Reg.BOOT_UMAP_COUNT : Nat := 0x14C
/-- Offset of ADOPTER in the BOOT page. -/
abbrev Reg.BOOT_ADOPTER : Nat := 0x150
/-- Offset of FLT_CTL in the FAULT page. -/
abbrev Reg.FAULT_FLT_CTL : Nat := 0x100
/-- Offset of TILE_WDOG in the FAULT page. -/
abbrev Reg.FAULT_TILE_WDOG : Nat := 0x104
/-- Offset of ENG_WDOG in the FAULT page. -/
abbrev Reg.FAULT_ENG_WDOG : Nat := 0x108
/-- Offset of FLAP_MAX in the FAULT page. -/
abbrev Reg.FAULT_FLAP_MAX : Nat := 0x10C
/-- Offset of SVC_STS in the FAULT page. -/
abbrev Reg.FAULT_SVC_STS : Nat := 0x110
/-- Offset of LTAB_LO in the FAULT page. -/
abbrev Reg.FAULT_LTAB_LO : Nat := 0x114
/-- Offset of LTAB_HI in the FAULT page. -/
abbrev Reg.FAULT_LTAB_HI : Nat := 0x118
/-- Offset of LTAB_COUNT in the FAULT page. -/
abbrev Reg.FAULT_LTAB_COUNT : Nat := 0x11C
/-- Offset of SEAM_STS in the FAULT page. -/
abbrev Reg.FAULT_SEAM_STS : Nat := 0x120
/-- Offset of SEAM_RETRIES in the FAULT page. -/
abbrev Reg.FAULT_SEAM_RETRIES : Nat := 0x124
/-- Offset of PAGE_MENDS in the FAULT page. -/
abbrev Reg.FAULT_PAGE_MENDS : Nat := 0x128
/-- Offset of REPLICA_MENDS in the FAULT page. -/
abbrev Reg.FAULT_REPLICA_MENDS : Nat := 0x12C
/-- Offset of MOM_RESETS in the FAULT page. -/
abbrev Reg.FAULT_MOM_RESETS : Nat := 0x130
/-- Offset of RECOVERIES in the FAULT page. -/
abbrev Reg.FAULT_RECOVERIES : Nat := 0x134
/-- Offset of ADVISE in the FAULT page. -/
abbrev Reg.FAULT_ADVISE : Nat := 0x138
/-- Offset of LAST_LOST in the FAULT page. -/
abbrev Reg.FAULT_LAST_LOST : Nat := 0x13C
/-- Offset of FREC_SEQ in the FAULT page. -/
abbrev Reg.FAULT_FREC_SEQ : Nat := 0x140
/-- Offset of FREC_SEL in the FAULT page. -/
abbrev Reg.FAULT_FREC_SEL : Nat := 0x144
/-- Offset of FREC_Ww in the FAULT page, every 0x4. -/
abbrev Reg.FAULT_FREC_Ww : Nat := 0x148
/-- Offset of CP_CTL in the CP page. -/
abbrev Reg.CP_CP_CTL : Nat := 0x100
/-- Offset of CP_STS in the CP page. -/
abbrev Reg.CP_CP_STS : Nat := 0x104
/-- Offset of CP_WDOG in the CP page. -/
abbrev Reg.CP_CP_WDOG : Nat := 0x108
/-- Offset of TRAP_CAUSE in the CP page. -/
abbrev Reg.CP_TRAP_CAUSE : Nat := 0x10C
/-- Offset of TRAP_PC_LO in the CP page. -/
abbrev Reg.CP_TRAP_PC_LO : Nat := 0x110
/-- Offset of TRAP_PC_HI in the CP page. -/
abbrev Reg.CP_TRAP_PC_HI : Nat := 0x114
/-- Offset of TRAPS in the CP page. -/
abbrev Reg.CP_TRAPS : Nat := 0x118
/-- Offset of SEC_STS in the SEC page. -/
abbrev Reg.SEC_SEC_STS : Nat := 0x100
/-- Offset of IMGc_STS in the SEC page, every 0x4. -/
abbrev Reg.SEC_IMGc_STS : Nat := 0x104
/-- Offset of IMGc_VER in the SEC page, every 0x4. -/
abbrev Reg.SEC_IMGc_VER : Nat := 0x118
/-- Offset of MR_SEL in the SEC page. -/
abbrev Reg.SEC_MR_SEL : Nat := 0x12C
/-- Offset of MR_Ww in the SEC page, every 0x4. -/
abbrev Reg.SEC_MR_Ww : Nat := 0x130
/-- Offset of FW_REJECTS in the SEC page. -/
abbrev Reg.SEC_FW_REJECTS : Nat := 0x160
/-- Offset of SPDM_FAILS in the SEC page. -/
abbrev Reg.SEC_SPDM_FAILS : Nat := 0x164
/-- Offset of STAGE_STS in the SEC page. -/
abbrev Reg.SEC_STAGE_STS : Nat := 0x168
/-- Offset of ACCn_LO in a DG page, every 8 (R133). -/
abbrev Reg.DG_ACC_LO : Nat := 0x200
/-- Offset of ACCn_HI in a DG page, every 8 (R133). -/
abbrev Reg.DG_ACC_HI : Nat := 0x204
/-- Offset of CTR_k in a SIGNAL page, every 4 (R113). -/
abbrev Reg.SIGNAL_CTR : Nat := 0x100

/-- Registers of the TSLOT page (R43). -/
def specsTSLOT : List RegSpec :=
  [ { off := Reg.TSLOT_SLOTn, rw := 0x1F00, ro := 0x1F, stride := 4, count := 30 }
  , { off := Reg.TSLOT_SPARE_MAP, ro := 0xFFFFFFFF, reset := 0xC0000000 }
  , { off := Reg.TSLOT_FAILED_MAP, rw := 0xFFFFFFFF }
  , { off := Reg.TSLOT_MAP_STS, ro := 0x3 } ]

/-- Registers of the ARRAY page (R68). -/
def specsARRAY : List RegSpec :=
  [ { off := Reg.ARRAY_ARR_CTL, wo := 0x1, stride := 64, count := 3 }
  , { off := Reg.ARRAY_ARR_STS, ro := 0x7, reset := 0x4, stride := 64, count := 3 }
  , { off := Reg.ARRAY_ERR_INFO, ro := 0xFFFF00FF, stride := 64, count := 3 }
  , { off := Reg.ARRAY_TILES_DONE, ro := 0xFFFFFFFF, stride := 64, count := 3 }
  , { off := Reg.ARRAY_LAST_TAG, ro := 0xFFFF, stride := 64, count := 3 }
  , { off := Reg.ARRAY_LAST_EXT, ro := 0xFFFFFFFF, stride := 64, count := 3 }
  , { off := Reg.ARRAY_FEED_HOLD, rc := 0xFFFFFFFF, stride := 64, count := 3 }
  , { off := Reg.ARRAY_DRAIN_HOLD, rc := 0xFFFFFFFF, stride := 64, count := 3 }
  , { off := Reg.ARRAY_SPILLS, rc := 0xFFFFFFFF, stride := 64, count := 3 }
  , { off := Reg.ARRAY_BUSY_CYC, rc := 0xFFFFFFFF, stride := 64, count := 3 }
  , { off := Reg.ARRAY_TRIAD_STS, ro := 0x7F }
  , { off := Reg.ARRAY_ECC_CE, rc := 0xFFFFFFFF }
  , { off := Reg.ARRAY_ECC_UE, rc := 0xFFFFFFFF } ]

/-- Registers of the FOLD page (R100). -/
def specsFOLD : List RegSpec :=
  [ { off := Reg.FOLD_ECC_CE, rc := 0xFFFFFFFF }
  , { off := Reg.FOLD_ECC_UE, rc := 0xFFFFFFFF }
  , { off := Reg.FOLD_CE_ADDR, ro := 0xFFFFFFF }
  , { off := Reg.FOLD_UE_ADDR, ro := 0xFFFFFFF }
  , { off := Reg.FOLD_CONFLICT, rc := 0xFFFFFFFF }
  , { off := Reg.FOLD_PROMOTED, rc := 0xFFFFFFFF }
  , { off := Reg.FOLD_POISON_RD, rc := 0xFFFFFFFF } ]

/-- Registers of the QRING page (R112). -/
def specsQRING : List RegSpec :=
  [ { off := Reg.QRING_RING_CFG, rw := 0x3FFFFFF, stride := 16, count := 128 }
  , { off := Reg.QRING_TAIL, rw := 0xFFFF, stride := 16, count := 128 }
  , { off := Reg.QRING_HEAD, ro := 0xFFFF, stride := 16, count := 128 }
  , { off := Reg.QRING_Q_STS, ro := 0xFFFFFFFF, stride := 16, count := 128 }
  , { off := Reg.QRING_TRACK_FREE, ro := 0x3FFF, reset := 0x2000 }
  , { off := Reg.QRING_TRACK_WAIT, rc := 0xFFFFFFFF }
  , { off := Reg.QRING_LAST_QERR, ro := 0xFF } ]

/-- Registers of every engine page (R117). -/
def specsENG : List RegSpec :=
  [ { off := Reg.ENG_ENG_CTL, wo := 0x1 }
  , { off := Reg.ENG_ENG_STS, ro := 0xF, reset := 0x8 }
  , { off := Reg.ENG_ERR_INFO, ro := 0xFFFF00FF }
  , { off := Reg.ENG_DONE, ro := 0xFFFFFFFF }
  , { off := Reg.ENG_LAST_TAG, ro := 0xFFFF }
  , { off := Reg.ENG_BUSY_CYC, rc := 0xFFFFFFFF } ]

/-- Registers of the RNG page (R120). -/
def specsRNG : List RegSpec :=
  [ { off := Reg.RNG_SEED_NEXT_LO, rw := 0xFFFFFFFF }
  , { off := Reg.RNG_SEED_NEXT_HI, rw := 0xFFFFFFFF }
  , { off := Reg.RNG_SEED_LO, ro := 0xFFFFFFFF }
  , { off := Reg.RNG_SEED_HI, ro := 0xFFFFFFFF }
  , { off := Reg.RNG_SALT_Qq, rw := 0x3FFFFFFF, stride := 4, count := 4 } ]

/-- Registers of the STEP page (R164). -/
def specsSTEP : List RegSpec :=
  [ { off := Reg.STEP_STEP_CTL, rw := 0xF, reset := 0x8 }
  , { off := Reg.STEP_STEP_STS, ro := 0x1F }
  , { off := Reg.STEP_ATTEMPT_LO, rw := 0xFFFFFFFF }
  , { off := Reg.STEP_ATTEMPT_HI, rw := 0xFFFFFFFF }
  , { off := Reg.STEP_COMMITTED_LO, rw := 0xFFFFFFFF }
  , { off := Reg.STEP_COMMITTED_HI, rw := 0xFFFFFFFF }
  , { off := Reg.STEP_SKIPPED, ro := 0xFFFFFFFF }
  , { off := Reg.STEP_VERDICT, ro := 0xF3 }
  , { off := Reg.STEP_VNORM, ro := 0xFFFFFFFF }
  , { off := Reg.STEP_CLIP, ro := 0xFFFFFFFF, reset := 0x3F800000 }
  , { off := Reg.STEP_SKIP_LIMIT, rw := 0xFFFFFFFF }
  , { off := Reg.STEP_CLIP_LIMIT, rw := 0xFFFFFFFF }
  , { off := Reg.STEP_STILL_THRESH, rw := 0xFFFF, reset := 0x400 }
  , { off := Reg.STEP_DIGEST_EVERY, rw := 0xFFFF, reset := 0x1 }
  , { off := Reg.STEP_BND_EXEMPT_LO, rw := 0xFFFFFFFF }
  , { off := Reg.STEP_BND_EXEMPT_HI, rw := 0xFFFFFFFF }
  , { off := Reg.STEP_HREC_BASE_LO, rw := 0xFFFFFFFF }
  , { off := Reg.STEP_HREC_BASE_HI, rw := 0xFFFFFFFF }
  , { off := Reg.STEP_HREC_CFG, rw := 0x1F }
  , { off := Reg.STEP_HREC_HEAD, rw := 0xFFFFFFFF }
  , { off := Reg.STEP_HREC_TAIL, ro := 0xFFFFFFFF }
  , { off := Reg.STEP_HREC_DROPS, ro := 0xFFFFFFFF }
  , { off := Reg.STEP_LEASE_WARN, rw := 0xFFFFFFFF, reset := 0x55D4A80 }
  , { off := Reg.STEP_STILL_SEL, rw := 0xFFF }
  , { off := Reg.STEP_STILL_VIEW, ro := 0x1FFFF }
  , { off := Reg.STEP_STILL_LAST, ro := 0xFFF }
  , { off := Reg.STEP_STALE_PAGE, ro := 0xFFFFFF }
  , { off := Reg.STEP_PTp_START_LO, ro := 0xFFFFFFFF, stride := 16, count := 8 }
  , { off := Reg.STEP_PTp_START_HI, ro := 0xFFFFFFFF, stride := 16, count := 8 }
  , { off := Reg.STEP_PTp_END_LO, ro := 0xFFFFFFFF, stride := 16, count := 8 }
  , { off := Reg.STEP_PTp_END_HI, ro := 0xFFFFFFFF, stride := 16, count := 8 } ]

/-- Registers of the LEASE page (R165). -/
def specsLEASE : List RegSpec :=
  [ { off := Reg.LEASE_Ln_BASE, rw := 0xFFFFFF, stride := 16, count := 240 }
  , { off := Reg.LEASE_Ln_COUNT, rw := 0x1FFFFFF, stride := 16, count := 240 }
  , { off := Reg.LEASE_Ln_CTL, rw := 0x1, stride := 16, count := 240 }
  , { off := Reg.LEASE_Ln_STS, ro := 0xFFFF0003, stride := 16, count := 240 } ]

/-- Registers of the OPT page (R187). -/
def specsOPT : List RegSpec :=
  [ { off := Reg.OPT_OPT_CTL, rw := 0x1, reset := 0x1 }
  , { off := Reg.OPT_HELD, rc := 0xFFFFFFFF }
  , { off := Reg.OPT_SATURATED, rc := 0xFFFFFFFF }
  , { off := Reg.OPT_PROGS_DONE, ro := 0xFFFFFFFF }
  , { off := Reg.OPT_LAST_LAYER, ro := 0xFFF } ]

/-- Registers of the EXP page (R188). -/
def specsEXP : List RegSpec :=
  [ { off := Reg.EXP_EXP_CTL, rw := 0x1 }
  , { off := Reg.EXP_EXP_STS, ro := 0x3 }
  , { off := Reg.EXP_Qq_NEXT_LO, ro := 0xFFFFFFFF, stride := 8, count := 4 }
  , { off := Reg.EXP_Qq_NEXT_HI, ro := 0xFFFFFFFF, stride := 8, count := 4 }
  , { off := Reg.EXP_LAG_TIME, rc := 0xFFFFFFFF }
  , { off := Reg.EXP_Qq_CHG, ro := 0x1FFF, stride := 4, count := 4 } ]

/-- Registers of the COLL page (R205). -/
def specsCOLL : List RegSpec :=
  [ { off := Reg.COLL_PLANq_LO, rw := 0xFFFFFFFF, stride := 8, count := 4 }
  , { off := Reg.COLL_PLANq_HI, rw := 0xFFFFFFFF, stride := 8, count := 4 }
  , { off := Reg.COLL_PLAN_CFG, rw := 0x1FFF }
  , { off := Reg.COLL_SHAPE, rw := 0x1F1F1F }
  , { off := Reg.COLL_POS, rw := 0x1F1F1F }
  , { off := Reg.COLL_NEIGHi, rw := 0x8003FFFF, stride := 4, count := 6 }
  , { off := Reg.COLL_TREE, rw := 0x3F07, reset := 0x7 }
  , { off := Reg.COLL_WAIT_WARN, rw := 0xFFFFFFFF, reset := 0x55D4A80 }
  , { off := Reg.COLL_WAIT_TAG, ro := 0xFFFFFFFF }
  , { off := Reg.COLL_WAIT_INFO, ro := 0x37 }
  , { off := Reg.COLL_STRAY, rc := 0xFFFFFFFF }
  , { off := Reg.COLL_DLOG_BASE_LO, rw := 0xFFFFFFFF }
  , { off := Reg.COLL_DLOG_BASE_HI, rw := 0xFFFFFFFF }
  , { off := Reg.COLL_DLOG_CFG, rw := 0x1F }
  , { off := Reg.COLL_DLOG_TAIL, ro := 0xFFFFFFFF }
  , { off := Reg.COLL_CHECK, wo := 0x1 }
  , { off := Reg.COLL_CHECK_ATT, rw := 0xFFFFFFFF }
  , { off := Reg.COLL_CHECK_STS, ro := 0x3 }
  , { off := Reg.COLL_MISMATCHES, rc := 0xFFFFFFFF }
  , { off := Reg.COLL_LAST_MISMATCH, ro := 0xDFFFFF } ]

/-- Registers of the NMEM page (R232). -/
def specsNMEM : List RegSpec :=
  [ { off := Reg.NMEM_MEM_CTL, rw := 0x3, reset := 0x3 }
  , { off := Reg.NMEM_MEM_STS, ro := 0x7F }
  , { off := Reg.NMEM_ECC_CE, rc := 0xFFFFFFFF }
  , { off := Reg.NMEM_ECC_UE, rc := 0xFFFFFFFF }
  , { off := Reg.NMEM_POISON_RD, rc := 0xFFFFFFFF }
  , { off := Reg.NMEM_CE_ADDR_LO, ro := 0xFFFFFFFF }
  , { off := Reg.NMEM_CE_ADDR_HI, ro := 0x1FF }
  , { off := Reg.NMEM_CE_INFO, ro := 0x1FFFF }
  , { off := Reg.NMEM_UE_ADDR_LO, ro := 0xFFFFFFFF }
  , { off := Reg.NMEM_UE_ADDR_HI, ro := 0x1FF }
  , { off := Reg.NMEM_UE_SYND, ro := 0x3FFFF }
  , { off := Reg.NMEM_ACCEPTED, rc := 0xFFFFFFFF }
  , { off := Reg.NMEM_SLOT_WAIT, rc := 0xFFFFFFFF }
  , { off := Reg.NMEM_BANK_WAIT, rc := 0xFFFFFFFF }
  , { off := Reg.NMEM_CE_THRESH, rw := 0xFF, reset := 0x4 }
  , { off := Reg.NMEM_REPAIR_ADDR_LO, rw := 0xFFFFFFFF }
  , { off := Reg.NMEM_REPAIR_ADDR_HI, rw := 0x1FF }
  , { off := Reg.NMEM_REPAIR_CTL, wo := 0x1 }
  , { off := Reg.NMEM_REPAIR_STS, ro := 0xFFFFF, reset := 0x20000 }
  , { off := Reg.NMEM_LANE_STS, ro := 0xFFF } ]

/-- Registers of the FPORT page (R266). -/
def specsFPORT : List RegSpec :=
  [ { off := Reg.FPORT_PORT_CTL, rw := 0xF, reset := 0x9 }
  , { off := Reg.FPORT_PORT_STS, ro := 0x1FF }
  , { off := Reg.FPORT_NEIGH_ID, ro := 0x807FFFFF }
  , { off := Reg.FPORT_LINK_DELAY, ro := 0xFFFFFFFF }
  , { off := Reg.FPORT_FEC_CORR, rc := 0xFFFFFFFF }
  , { off := Reg.FPORT_FEC_UNCORR, rc := 0xFFFFFFFF }
  , { off := Reg.FPORT_RX_BAD, rc := 0xFFFFFFFF }
  , { off := Reg.FPORT_RETRIES, rc := 0xFFFFFFFF }
  , { off := Reg.FPORT_CREDIT_STALL, rc := 0xFFFFFFFF }
  , { off := Reg.FPORT_VL_ARB, rw := 0xFFFFFF, reset := 0x111111 } ]

/-- Registers of the POD page (R267). -/
def specsPOD : List RegSpec :=
  [ { off := Reg.POD_ROLE, ro := 0xF, reset := 0xC }
  , { off := Reg.POD_POD_CTL, rw := 0x3FF, reset := 0x80 }
  , { off := Reg.POD_SELF_ID, ro := 0x3FFFF }
  , { off := Reg.POD_LEAD_ID, ro := 0x8003FFFF }
  , { off := Reg.POD_STANDBY_ID, ro := 0x8003FFFF }
  , { off := Reg.POD_LEAD_TERM, ro := 0xFFFFFFFF }
  , { off := Reg.POD_LSHAPE, rw := 0x1F1F1F }
  , { off := Reg.POD_TOPO_SIG_LO, ro := 0xFFFFFFFF }
  , { off := Reg.POD_TOPO_SIG_HI, ro := 0xFFFFFFFF }
  , { off := Reg.POD_MEND_EPOCH, ro := 0xFFFFFFFF }
  , { off := Reg.POD_CUT_SEL, rw := 0x7FFF }
  , { off := Reg.POD_CUT_VIEW, ro := 0xF }
  , { off := Reg.POD_LEAD_TIMEOUT, rw := 0xFFFFFFFF, reset := 0xDBBA0 }
  , { off := Reg.POD_ELECT_QUIET, rw := 0xFFFFFFFF, reset := 0x1B7740 }
  , { off := Reg.POD_PT_LO, ro := 0xFFFFFFFF }
  , { off := Reg.POD_PT_HI, ro := 0xFFFFFFFF }
  , { off := Reg.POD_PT_OFFSET, ro := 0xFFFFFFFF }
  , { off := Reg.POD_PT_DELAY, ro := 0xFFFFFFFF }
  , { off := Reg.POD_PT_STS, ro := 0x7 }
  , { off := Reg.POD_PT_SET_LO, rw := 0xFFFFFFFF }
  , { off := Reg.POD_PT_SET_HI, rw := 0xFFFFFFFF }
  , { off := Reg.POD_POD_CMD, wo := 0x7 }
  , { off := Reg.POD_ALIASn_FROM, ro := 0x8003FFFF, stride := 8, count := 256 }
  , { off := Reg.POD_ALIASn_TO, ro := 0x3FFFF, stride := 8, count := 256 } ]

/-- Registers of the MIG page (R296). -/
def specsMIG : List RegSpec :=
  [ { off := Reg.MIG_MIG_CTL, rw := 0x3 }
  , { off := Reg.MIG_MIG_STS, ro := 0xFF }
  , { off := Reg.MIG_ROUND_H, rw := 0x7FF, reset := 0x40 }
  , { off := Reg.MIG_SITES, rw := 0xFF }
  , { off := Reg.MIG_ROUND, ro := 0xFFFFFFFF }
  , { off := Reg.MIG_COMMON_ROUND, ro := 0xFFFFFFFF }
  , { off := Reg.MIG_STALE_MAX, rw := 0x7, reset := 0x2 }
  , { off := Reg.MIG_DECAY, rw := 0xFFFFFFFF, reset := 0x3F000000 }
  , { off := Reg.MIG_WAIT_RTTS, rw := 0xFF, reset := 0x4 }
  , { off := Reg.MIG_WAIT_FIXED, rw := 0xFFFFFFFF, reset := 0x112A880 }
  , { off := Reg.MIG_SEP_MIN, rw := 0xFFFFFFFF, reset := 0x35A4E900 }
  , { off := Reg.MIG_DIV_ROUNDS, rw := 0x7, reset := 0x4 }
  , { off := Reg.MIG_LAND_OFF_LO, rw := 0xFFFFFFFF }
  , { off := Reg.MIG_LAND_OFF_HI, rw := 0x3F }
  , { off := Reg.MIG_SLOT_BYTES, rw := 0xFFFFFFFF }
  , { off := Reg.MIG_IID_HI, rw := 0xFFFFFFFF }
  , { off := Reg.MIG_PREFIXs_LO, rw := 0xFFFFFFFF, stride := 8, count := 8 }
  , { off := Reg.MIG_PREFIXs_HI, rw := 0xFFFFFFFF, stride := 8, count := 8 }
  , { off := Reg.MIG_SITEs_STS, ro := 0xF, stride := 16, count := 8 }
  , { off := Reg.MIG_SITEs_ROUND, ro := 0xFFFFFFFF, stride := 16, count := 8 }
  , { off := Reg.MIG_SITEs_SRTT, ro := 0xFFFFFFFF, reset := 0x2AEA540, stride := 16, count := 8 }
  , { off := Reg.MIG_SITEs_OWD, ro := 0xFFFFFFFF, stride := 16, count := 8 }
  , { off := Reg.MIG_PTP_CTL, rw := 0xFF0F }
  , { off := Reg.MIG_PTP_STS, ro := 0x7 }
  , { off := Reg.MIG_PTP_OFFSET, ro := 0xFFFFFFFF }
  , { off := Reg.MIG_MAP_PT_LO, ro := 0xFFFFFFFF }
  , { off := Reg.MIG_MAP_PT_HI, ro := 0xFFFFFFFF }
  , { off := Reg.MIG_MAP_SEC_LO, ro := 0xFFFFFFFF }
  , { off := Reg.MIG_MAP_SEC_HI, ro := 0xFFFF }
  , { off := Reg.MIG_LATE, rc := 0xFFFFFFFF }
  , { off := Reg.MIG_DROPPED, rc := 0xFFFFFFFF }
  , { off := Reg.MIG_BAD, rc := 0xFFFFFFFF }
  , { off := Reg.MIG_SEND_SKIP, rc := 0xFFFFFFFF }
  , { off := Reg.MIG_RTT_JUMPS, rc := 0xFFFFFFFF } ]

/-- Registers of the HOST page (R312). -/
def specsHOST : List RegSpec :=
  [ { off := Reg.HOST_HOST_CTL, rw := 0xF, reset := 0x1 }
  , { off := Reg.HOST_HOST_STS, ro := 0xFFF }
  , { off := Reg.HOST_HOST_CMD, wo := 0x1 }
  , { off := Reg.HOST_QOS_ETS, rw := 0xFFFFFF, reset := 0x1144F }
  , { off := Reg.HOST_QOS_PFC, rw := 0x3F, reset := 0x38 }
  , { off := Reg.HOST_ECN_CTL, rw := 0xFF03, reset := 0x3203 }
  , { off := Reg.HOST_OWNER_DIGi, ro := 0xFFFFFFFF, stride := 4, count := 12 }
  , { off := Reg.HOST_IPV4_Sq, ro := 0xFFFFFFFF, stride := 4, count := 4 }
  , { off := Reg.HOST_HPFX_Sq_LO, ro := 0xFFFFFFFF, stride := 8, count := 4 }
  , { off := Reg.HOST_HPFX_Sq_HI, ro := 0xFFFFFFFF, stride := 8, count := 4 }
  , { off := Reg.HOST_QP_ERR, rc := 0xFFFFFFFF }
  , { off := Reg.HOST_ACC_ERR, rc := 0xFFFFFFFF }
  , { off := Reg.HOST_EVRn_BASE_LO, rw := 0xFFFFFFFF, stride := 32, count := 8 }
  , { off := Reg.HOST_EVRn_BASE_HI, rw := 0xFFFFFFFF, stride := 32, count := 8 }
  , { off := Reg.HOST_EVRn_RKEY, rw := 0xFFFFFFFF, stride := 32, count := 8 }
  , { off := Reg.HOST_EVRn_CFG, rw := 0x800003FF, stride := 32, count := 8 }
  , { off := Reg.HOST_EVRn_QPN, rw := 0xFFFFFF, stride := 32, count := 8 }
  , { off := Reg.HOST_EVRn_PROD_LO, ro := 0xFFFFFFFF, stride := 32, count := 8 }
  , { off := Reg.HOST_EVRn_PROD_HI, ro := 0xFFFFFFFF, stride := 32, count := 8 }
  , { off := Reg.HOST_EVRn_STS, ro := 0x1, stride := 32, count := 8 } ]

/-- Registers of the CLKDIR page (R329). -/
def specsCLKDIR : List RegSpec :=
  [ { off := Reg.CLKDIR_QREF_CTLq, rw := 0x3, reset := 0x2, stride := 4, count := 4 }
  , { off := Reg.CLKDIR_PLLq_STS, ro := 0x3F, stride := 4, count := 4 }
  , { off := Reg.CLKDIR_CLK_CMD, wo := 0x337F }
  , { off := Reg.CLKDIR_CMD_STS, ro := 0x7FF }
  , { off := Reg.CLKDIR_HELD_LAST, rc := 0x80000000, ro := 0x1F7F }
  , { off := Reg.CLKDIR_HELD_NOW, ro := 0x1FF }
  , { off := Reg.CLKDIR_DIRq_w, ro := 0xFFFFFFFF, stride := 4, count := 128 } ]

/-- Registers of the page header (R352). -/
def specsHDR : List RegSpec :=
  [ { off := Reg.HDR_PAGE_ID, ro := 0xFFFFFFFF }
  , { off := Reg.HDR_PAGE_CAPS, ro := 0x3F1F }
  , { off := Reg.HDR_PAGE_CTL, rw := 0x3, reset := 0x1 }
  , { off := Reg.HDR_PAGE_STS, ro := 0xF }
  , { off := Reg.HDR_EVT_STS, ro := 0xFFFFFFFF }
  , { off := Reg.HDR_EVT_EN, rw := 0xFFFFFFFF }
  , { off := Reg.HDR_EVT_FORCE, wo := 0xFFFFFFFF }
  , { off := Reg.HDR_EVT_COUNT, ro := 0xFFFFFFFF }
  , { off := Reg.HDR_CLK_STATE, ro := 0x7FFF }
  , { off := Reg.HDR_JRNL_SEQ, ro := 0xFFFFFFFF }
  , { off := Reg.HDR_CREDIT_SEL, rw := 0x1FF }
  , { off := Reg.HDR_CREDIT_VIEW, ro := 0xFFFFFFFF } ]

/-- Registers of the MODID page (R369). -/
def specsMODID : List RegSpec :=
  [ { off := Reg.MODID_PART, ro := 0xFFFFFF, reset := 0x14104 }
  , { off := Reg.MODID_SVC, ro := 0xF, reset := 0x4 }
  , { off := Reg.MODID_QUARTERS, ro := 0xF }
  , { off := Reg.MODID_MAP_REV, ro := 0xFF, reset := 0x1 }
  , { off := Reg.MODID_ROLE_VIEW, ro := 0xF, reset := 0xC } ]

/-- Registers of the JRNL page (R384). -/
def specsJRNL : List RegSpec :=
  [ { off := Reg.JRNL_JSTS, ro := 0x7FFFF }
  , { off := Reg.JRNL_SEQ_LO, ro := 0xFFFFFFFF }
  , { off := Reg.JRNL_SEQ_HI, ro := 0xFF }
  , { off := Reg.JRNL_FLASH_SEQ_LO, ro := 0xFFFFFFFF }
  , { off := Reg.JRNL_FLASH_SEQ_HI, ro := 0xFF }
  , { off := Reg.JRNL_HOST_SEQ_LO, ro := 0xFFFFFFFF }
  , { off := Reg.JRNL_HOST_SEQ_HI, ro := 0xFF }
  , { off := Reg.JRNL_HELD_NOW, ro := 0x7F }
  , { off := Reg.JRNL_HELD_TIME, rc := 0xFFFFFFFF }
  , { off := Reg.JRNL_REFUSED, rc := 0xFFFFFFFF }
  , { off := Reg.JRNL_LAST_REFUSED, ro := 0xFFFFFFFF } ]

/-- Registers of the EVQ page (R385). -/
def specsEVQ : List RegSpec :=
  [ { off := Reg.EVQ_EVQ_CTL, rw := 0x3, reset := 0x1 }
  , { off := Reg.EVQ_ALARM_PEND, ro := 0x1FFF }
  , { off := Reg.EVQ_ALARM_COALESCED, rc := 0xFFFFFFFF }
  , { off := Reg.EVQ_ALARM_PAGE_OVF, rc := 0xFFFFFFFF }
  , { off := Reg.EVQ_TEL_STAGE, ro := 0x1FFFFF }
  , { off := Reg.EVQ_TEL_DROPS, rc := 0xFFFFFFFF }
  , { off := Reg.EVQ_TRACE_STAGE, ro := 0x1FFFFF }
  , { off := Reg.EVQ_TRACE_DROPS, rc := 0xFFFFFFFF }
  , { off := Reg.EVQ_TRACE_SELq_w, rw := 0xFFFFFFFF, stride := 4, count := 32 } ]

/-- Registers of the BGND page (R402). -/
def specsBGND : List RegSpec :=
  [ { off := Reg.BGND_RINSE_CTL, rw := 0x3FF, reset := 0x3 }
  , { off := Reg.BGND_FOLD_PASSES, ro := 0xFFFFFFFF }
  , { off := Reg.BGND_FOLD_POS, ro := 0x3FFF }
  , { off := Reg.BGND_MEM_PASSES_s, ro := 0xFFFFFFFF, stride := 4, count := 8 }
  , { off := Reg.BGND_RINSE_FOUND, rc := 0xFFFFFFFF }
  , { off := Reg.BGND_RINSE_UE, rc := 0xFFFFFFFF }
  , { off := Reg.BGND_WB_DROPPED, rc := 0xFFFFFFFF }
  , { off := Reg.BGND_RINSE_SKIP, rc := 0xFFFFFFFF }
  , { off := Reg.BGND_PRESS_CTL, rw := 0x7, reset := 0x7 }
  , { off := Reg.BGND_PRESS_STS, ro := 0xFFF1 }
  , { off := Reg.BGND_PRESS_ADJ, rc := 0xFFFFFFFF }
  , { off := Reg.BGND_MARGIN_LIMIT, rw := 0xFF, reset := 0x6 }
  , { off := Reg.BGND_MARGIN_SEL, rw := 0x1F }
  , { off := Reg.BGND_MARGIN_VIEW, ro := 0xFF }
  , { off := Reg.BGND_DARN_CTL, rw := 0x3, reset := 0x3 }
  , { off := Reg.BGND_AGE_WARN, rw := 0xFFFFFFFF, reset := 0x1388 }
  , { off := Reg.BGND_AGE_FAIL, rw := 0xFFFFFFFF, reset := 0x3A98 }
  , { off := Reg.BGND_AGE_SEL, rw := 0x1F }
  , { off := Reg.BGND_AGE_VIEW, ro := 0xFFFFFF }
  , { off := Reg.BGND_FLASH_LIFE, ro := 0x7FF03FF }
  , { off := Reg.BGND_FLASH_ERASES, ro := 0xFFFFFFFF }
  , { off := Reg.BGND_DARN_CPU, rc := 0xFFFFFFFF } ]

/-- Registers of the TALLY page (R403). -/
def specsTALLY : List RegSpec :=
  [ { off := Reg.TALLY_SEQ, ro := 0xFFFFFFFF }
  , { off := Reg.TALLY_LAST_TIME_LO, ro := 0xFFFFFFFF }
  , { off := Reg.TALLY_LAST_TIME_HI, ro := 0xFFFFFFFF }
  , { off := Reg.TALLY_TEMP_SEL, rw := 0x3F }
  , { off := Reg.TALLY_TEMP_VIEW, ro := 0xFFFFFFFF }
  , { off := Reg.TALLY_SENSORS_OUT, ro := 0x7F } ]

/-- Registers of the PWR page (R427). -/
def specsPWR : List RegSpec :=
  [ { off := Reg.PWR_PWR_CMD, wo := 0x1 }
  , { off := Reg.PWR_PWR_STS, ro := 0xFFFF, reset := 0x2 }
  , { off := Reg.PWR_V_IN, ro := 0xFFFF }
  , { off := Reg.PWR_I_IN, ro := 0xFFFF }
  , { off := Reg.PWR_P_IN, ro := 0xFFFF }
  , { off := Reg.PWR_P_LIMIT, ro := 0xFFFF, reset := 0x1068 }
  , { off := Reg.PWR_P_CAP, rw := 0xFFFF, reset := 0x1068 }
  , { off := Reg.PWR_P_THERM, ro := 0xFFFF, reset := 0x1068 }
  , { off := Reg.PWR_FLOW, ro := 0xFFFF }
  , { off := Reg.PWR_T_INLET, ro := 0xFFFF }
  , { off := Reg.PWR_T_OUTLET, ro := 0xFFFF }
  , { off := Reg.PWR_TRIP_INFO, ro := 0xFFF }
  , { off := Reg.PWR_THR_TIME, rc := 0xFFFFFFFF } ]

/-- Registers of the HK page (R428). -/
def specsHK : List RegSpec :=
  [ { off := Reg.HK_HK_STS, ro := 0x1FF }
  , { off := Reg.HK_V_CORE, ro := 0xFFFF }
  , { off := Reg.HK_V_STACK, ro := 0xFFFF }
  , { off := Reg.HK_P_CORE, ro := 0xFFFF }
  , { off := Reg.HK_P_MEM, ro := 0xFFFF }
  , { off := Reg.HK_T_DIE_MAX, ro := 0xFFFF }
  , { off := Reg.HK_T_DRAM_MAX, ro := 0xFFFF }
  , { off := Reg.HK_T_WARN, rw := 0xFFFF, reset := 0x640 }
  , { off := Reg.HK_T_DRAM_WARN, rw := 0xFFFF, reset := 0x5A0 }
  , { off := Reg.HK_THR_TIME, rc := 0xFFFFFFFF }
  , { off := Reg.HK_WARN_TIME, rc := 0xFFFFFFFF } ]

/-- Registers of the BOOT page (R445). -/
def specsBOOT : List RegSpec :=
  [ { off := Reg.BOOT_BOOT_CMD, wo := 0x7 }
  , { off := Reg.BOOT_BOOT_STS, ro := 0x1FF }
  , { off := Reg.BOOT_SKIP_MASK, ro := 0x1F }
  , { off := Reg.BOOT_STACKS_TRAINED, ro := 0xFFFFFFFF, reset := 0xFFFFFFFF }
  , { off := Reg.BOOT_BIST_AGE, ro := 0xFFFFFFFF }
  , { off := Reg.BOOT_START_MS, ro := 0xFFFFFFFF }
  , { off := Reg.BOOT_PHASE_MSp, ro := 0xFFFFFFFF, stride := 4, count := 9 }
  , { off := Reg.BOOT_FAIL_INFO, ro := 0xFFFF }
  , { off := Reg.BOOT_STARTS, ro := 0xFFFFFFFF }
  , { off := Reg.BOOT_UMAP_LO, rw := 0xFFFFFFFF }
  , { off := Reg.BOOT_UMAP_HI, rw := 0xFFFFFFFF }
  , { off := Reg.BOOT_UMAP_COUNT, rw := 0xFFFF }
  , { off := Reg.BOOT_ADOPTER, ro := 0x8003FFFF } ]

/-- Registers of the FAULT page (R471). -/
def specsFAULT : List RegSpec :=
  [ { off := Reg.FAULT_FLT_CTL, rw := 0x3, reset := 0x3 }
  , { off := Reg.FAULT_TILE_WDOG, rw := 0xFFFFFFFF, reset := 0xDBBA0 }
  , { off := Reg.FAULT_ENG_WDOG, rw := 0xFFFFFFFF, reset := 0x895440 }
  , { off := Reg.FAULT_FLAP_MAX, rw := 0xFF, reset := 0x4 }
  , { off := Reg.FAULT_SVC_STS, ro := 0x7, reset := 0x3 }
  , { off := Reg.FAULT_LTAB_LO, rw := 0xFFFFFFFF }
  , { off := Reg.FAULT_LTAB_HI, rw := 0xFFFFFFFF }
  , { off := Reg.FAULT_LTAB_COUNT, rw := 0x1FFF }
  , { off := Reg.FAULT_SEAM_STS, ro := 0x3F }
  , { off := Reg.FAULT_SEAM_RETRIES, rc := 0xFFFFFFFF }
  , { off := Reg.FAULT_PAGE_MENDS, rc := 0xFFFFFFFF }
  , { off := Reg.FAULT_REPLICA_MENDS, rc := 0xFFFFFFFF }
  , { off := Reg.FAULT_MOM_RESETS, rc := 0xFFFFFFFF }
  , { off := Reg.FAULT_RECOVERIES, ro := 0xFFFFFFFF }
  , { off := Reg.FAULT_ADVISE, ro := 0x7 }
  , { off := Reg.FAULT_LAST_LOST, ro := 0x8003FFFF }
  , { off := Reg.FAULT_FREC_SEQ, ro := 0xFFFFFFFF }
  , { off := Reg.FAULT_FREC_SEL, rw := 0xF }
  , { off := Reg.FAULT_FREC_Ww, ro := 0xFFFFFFFF, stride := 4, count := 8 } ]

/-- Registers of the CP page (R472). -/
def specsCP : List RegSpec :=
  [ { off := Reg.CP_CP_CTL, rw := 0x1, wo := 0x2, reset := 0x1 }
  , { off := Reg.CP_CP_STS, ro := 0xF }
  , { off := Reg.CP_CP_WDOG, rw := 0xFFFFFFFF, reset := 0x895440 }
  , { off := Reg.CP_TRAP_CAUSE, ro := 0xFFFFFFFF }
  , { off := Reg.CP_TRAP_PC_LO, ro := 0xFFFFFFFF }
  , { off := Reg.CP_TRAP_PC_HI, ro := 0xFFFFFFFF }
  , { off := Reg.CP_TRAPS, rc := 0xFFFFFFFF } ]

/-- Registers of the SEC page (R489). -/
def specsSEC : List RegSpec :=
  [ { off := Reg.SEC_SEC_STS, ro := 0x3FF }
  , { off := Reg.SEC_IMGc_STS, ro := 0xFFFFFFFF, stride := 4, count := 5 }
  , { off := Reg.SEC_IMGc_VER, ro := 0xFFFFFFFF, stride := 4, count := 5 }
  , { off := Reg.SEC_MR_SEL, rw := 0x7 }
  , { off := Reg.SEC_MR_Ww, ro := 0xFFFFFFFF, stride := 4, count := 12 }
  , { off := Reg.SEC_FW_REJECTS, rc := 0xFFFFFFFF }
  , { off := Reg.SEC_SPDM_FAILS, rc := 0xFFFFFFFF }
  , { off := Reg.SEC_STAGE_STS, ro := 0xFF73 } ]

/-- The accumulators of a DG page (R133). -/
def specsAcc : List RegSpec :=
  [ { off := Reg.DG_ACC_LO, rw := 0xFFFFFFFF, stride := 8, count := 64 }
  , { off := Reg.DG_ACC_HI, rw := 0xFFFFFFFF, stride := 8, count := 64 } ]

/-- RETRY acts in the ST, EX and CS pages (R117). -/
def specsRetry : List RegSpec := [ { off := Reg.ENG_ENG_CTL, wo := 3 } ]

/-- The counters of a SIGNAL page (R113); CTR_0 is read-only and is refused where the write is decided. -/
def specsSignal : List RegSpec := [ { off := Reg.SIGNAL_CTR, rw := 0xFFFFFFFF, count := 256 } ]

/-- The block registers of a page. -/
def PageKind.specs : PageKind → List RegSpec
  | .array => specsARRAY | .tslot => specsTSLOT | .fold => specsFOLD | .qring => specsQRING | .signal => specsSignal
  | .ve | .ce | .mg | .so | .wg | .ue => specsENG
  | .dg => specsENG ++ specsAcc
  | .ex | .cs | .st => specsRetry ++ specsENG
  | .fport => specsFPORT | .nmem => specsNMEM | .cp => specsCP | .jrnl => specsJRNL | .hk => specsHK
  | .tally => specsTALLY | .bgnd => specsBGND | .modid => specsMODID | .clkdir => specsCLKDIR | .step => specsSTEP
  | .lease => specsLEASE | .rng => specsRNG | .opt => specsOPT | .exp => specsEXP | .coll => specsCOLL
  | .pod => specsPOD | .mig => specsMIG | .host => specsHOST | .evq => specsEVQ | .pwr => specsPWR
  | .boot => specsBOOT | .fault => specsFAULT | .sec => specsSEC

/-- Does a register entry cover an offset? -/
def RegSpec.covers (r : RegSpec) (off : Nat) : Bool :=
  decide (r.off ≤ off ∧ (off - r.off) % r.stride = 0 ∧ (off - r.off) / r.stride < r.count)

/-- The register at an offset of a page; none where the offset is reserved (R351). -/
def PageKind.regAt (k : PageKind) (off : Nat) : Option RegSpec :=
  if off < 0x100 then specsHDR.find? (fun r => r.covers off)
  else k.specs.find? (fun r => r.covers off)

/-- Block type of R350. -/
def PageKind.blockType : PageKind → Nat
  | .array => 0x0001 | .tslot => 0x0002 | .fold => 0x0003 | .qring => 0x0004 | .signal => 0x0005
  | .ve => 0x0010 | .ce => 0x0011 | .mg => 0x0012 | .so => 0x0013 | .dg => 0x0014 | .wg => 0x0015 | .ex => 0x0016
  | .cs => 0x0017 | .st => 0x0018 | .ue => 0x0019 | .fport => 0x0020 | .nmem => 0x0021
  | .cp => 0x0030 | .jrnl => 0x0031 | .hk => 0x0032 | .tally => 0x0033 | .bgnd => 0x0034
  | .modid => 0x0100 | .clkdir => 0x0101 | .step => 0x0102 | .lease => 0x0103 | .rng => 0x0104 | .opt => 0x0105
  | .exp => 0x0106 | .coll => 0x0107 | .pod => 0x0108 | .mig => 0x0109 | .host => 0x010A
  | .evq => 0x0110 | .pwr => 0x0111 | .boot => 0x0112 | .fault => 0x0113 | .sec => 0x0114

/-- EVT_BITS: the highest defined EVT_STS bit + 1 of each page (R353 and the EVT_STS lists of the chapters). -/
def PageKind.evtBits : PageKind → Nat
  | .array => 9 | .tslot => 3 | .fold => 4 | .qring => 2 | .signal => 1
  | .ve | .ce | .mg | .so | .dg | .wg | .ex | .cs | .st | .ue => 5
  | .fport => 6 | .nmem => 8 | .cp => 3 | .jrnl => 4 | .hk => 3 | .tally => 1 | .bgnd => 7
  | .modid => 0 | .clkdir => 6 | .step => 4 | .lease => 1 | .rng => 0 | .opt => 1 | .exp => 2 | .coll => 4
  | .pod => 7 | .mig => 10 | .host => 6 | .evq => 3 | .pwr => 6 | .boot => 8 | .fault => 14 | .sec => 9

/-- Is it an engine page (R117)? -/
def PageKind.isEngine : PageKind → Bool
  | .ve | .ce | .mg | .so | .dg | .wg | .ex | .cs | .st | .ue => true
  | _ => false

/-- QUIESCE_SUP of R353. -/
def PageKind.quiesces : PageKind → Bool
  | .array | .fport => true
  | k => k.isEngine

/-- ENABLE_SUP of R353. -/
def PageKind.enables : PageKind → Bool
  | .array => true
  | k => k.isEngine

/-- QUEUES of R353. -/
def PageKind.queues : PageKind → Bool
  | .array | .qring | .fport => true
  | k => k.isEngine

/-- STOPPABLE of R353: the islands marked Yes in R317. -/
def PageKind.stoppable : PageKind → Bool
  | .array | .fport => true
  | k => k.isEngine

/-- A page of a quarter window by slot, with its instance in the quarter (R348). -/
def quarterPage (slot : Nat) : Option (PageKind × Nat) :=
  if slot < 0x20 then some (.array, slot)
  else if slot = 0x20 then some (.tslot, 0)
  else if slot = 0x21 then some (.fold, 0)
  else if slot < 0x24 then some (.qring, slot - 0x22)
  else if slot < 0x30 then none
  else if slot < 0x40 then some (.signal, slot - 0x30)
  else if slot < 0x50 then some (.ve, slot - 0x40)
  else if slot < 0x58 then some (.ce, slot - 0x50)
  else if slot < 0x60 then some (.mg, slot - 0x58)
  else if slot < 0x62 then some (.so, slot - 0x60)
  else if slot < 0x64 then some (.dg, slot - 0x62)
  else if slot < 0x66 then some (.wg, slot - 0x64)
  else if slot = 0x66 then some (.ex, 0)
  else if slot = 0x67 then some (.cs, 0)
  else if slot < 0x70 then none
  else if slot < 0x80 then some (.st, slot - 0x70)
  else if slot < 0x86 then some (.fport, slot - 0x80)
  else if slot < 0x88 then none
  else if slot < 0x90 then some (.nmem, slot - 0x88)
  else if slot < 0x94 then some (.ue, slot - 0x90)
  else if slot < 0xA0 then none
  else if slot < 0xA4 then some (.cp, slot - 0xA0)
  else if slot = 0xA4 then some (.jrnl, 0)
  else if slot = 0xA8 then some (.hk, 0)
  else if slot = 0xA9 then some (.tally, 0)
  else if slot = 0xAA then some (.bgnd, 0)
  else none

/-- A page of the module window by slot (R349). -/
def modulePage : Nat → Option PageKind
  | 0x000 => some .modid | 0x001 => some .clkdir | 0x002 => some .step | 0x003 => some .lease | 0x004 => some .rng
  | 0x005 => some .opt | 0x006 => some .exp | 0x007 => some .coll | 0x008 => some .pod | 0x009 => some .mig
  | 0x00A => some .host | 0x010 => some .evq | 0x011 => some .pwr | 0x012 => some .boot | 0x013 => some .fault
  | 0x014 => some .sec | _ => none

/-- The slot of a module page (R349). -/
def PageKind.moduleSlot : PageKind → Nat
  | .modid => 0x000 | .clkdir => 0x001 | .step => 0x002 | .lease => 0x003 | .rng => 0x004
  | .opt => 0x005 | .exp => 0x006 | .coll => 0x007 | .pod => 0x008 | .mig => 0x009
  | .host => 0x00A | .evq => 0x010 | .pwr => 0x011 | .boot => 0x012 | .fault => 0x013 | _ => 0x014

/-- The first slot of a quarter page's kind (R348). -/
def PageKind.slotBase : PageKind → Nat
  | .array => 0 | .tslot => 0x20 | .fold => 0x21 | .qring => 0x22 | .signal => 0x30 | .ve => 0x40 | .ce => 0x50
  | .mg => 0x58 | .so => 0x60 | .dg => 0x62 | .wg => 0x64 | .ex => 0x66 | .cs => 0x67 | .st => 0x70 | .fport => 0x80
  | .nmem => 0x88 | .ue => 0x90 | .cp => 0xA0 | .jrnl => 0xA4 | .hk => 0xA8 | .tally => 0xA9 | .bgnd => 0xAA
  | k => k.moduleSlot

/-- One page: window 0 to 3 for the quarters and 4 for the module, and slot (R347). -/
structure Page where
  win : Nat
  slot : Nat
  deriving DecidableEq, Repr

/-- The page of a quarter's block instance. -/
def qPage (k : PageKind) (q i : Nat) : Page := ⟨q, k.slotBase + i⟩

/-- A module page. -/
def mPage (k : PageKind) : Page := ⟨4, k.moduleSlot⟩

/-- The kind of a page; none for an empty slot (R351). -/
def Page.kind (p : Page) : Option PageKind :=
  if p.win < 4 then (quarterPage p.slot).map Prod.fst else if p.win = 4 then modulePage p.slot else none

/-- The instance of a page in its quarter; 0 in module space. -/
def Page.inst (p : Page) : Nat := if p.win < 4 then ((quarterPage p.slot).map Prod.snd).getD 0 else 0

/-- The instance field of PAGE_ID; for a UE page the module-wide number (R348). -/
def Page.idInst (p : Page) : Nat := if p.kind = some .ue then 4 * p.win + p.inst else p.inst

/-- The number under which a register is stored: window, slot and offset. -/
def Page.reg (p : Page) (off : Nat) : Nat := p.win * 0x1000000 + p.slot * 0x1000 + off

/-- The island of a quarter page (R317, R348). -/
def quarterIsland (k : PageKind) (i : Nat) : Nat :=
  match k with
  | .array => i
  | .tslot | .fold | .qring | .signal => 32
  | .ve => 33 + i | .ce => 49 + i | .mg => 57 + i | .so => 65 + i | .dg => 67 + i | .wg => 69 + i | .ex => 71 | .cs => 72
  | .st => 73 + i | .fport => 89 + i | .nmem => 96 + i | .ue => 104 + i
  | .cp | .jrnl => 108
  | _ => 109

/-- The clock code of an island (R317, R328): 0 ACLK, 1 VCLK, 2 MCLK, 3 CCLK, 4 HCLK. -/
def islandClock (i : Nat) : Nat :=
  if i < 33 then 0 else if i < 73 then 1 else if i < 108 then 2 else if i = 108 then 3 else 4

/-- ACLK in one cycle of a clock code (R316); the always-on logic counts as CCLK. -/
def clockDiv : Nat → Nat
  | 0 => 1 | 1 => 2 | 2 => 3 | 3 => 4 | 4 => 16 | _ => 4

/-- Bits of a register that neither a write, a read nor the hardware uses. -/
def RegSpec.rsv (r : RegSpec) : Nat := 0xFFFFFFFF ^^^ (r.rw ||| r.rc ||| r.wo ||| r.ro)

/-- The reset value of a stored register (R5, R352); SLOTn resets to n in both fields (R43). -/
def regReset (p : Page) (off : Nat) : Word :=
  match p.kind with
  | none => 0
  | some k =>
    match k.regAt off with
    | none => 0
    | some r =>
      if k = .tslot ∧ 0x100 ≤ off ∧ off < 0x178 then BitVec.ofNat 32 (((off - 0x100) / 4) * 257) else BitVec.ofNat 32 r.reset

/-- The reset value of the register stored under a number. -/
def regDefault (a : Nat) : Word := regReset ⟨a / 0x1000000, a / 0x1000 % 0x1000⟩ (a % 0x1000)

end Sys2Proof.Machine
end

