-- ==== Sys2Proof/Machine/TypesCore.lean ====
section
/-! DEFINITION. The data of register accesses, islands, journals and event paths (R318 to R326, R371 to R384). -/

namespace Sys2Proof.Machine

/-- A register access on its way: a read, or a write of `write`. `refuse` marks one that a rule of its sender refuses (R307);
`hw` are EVT_STS bits that hardware sets in the same CCLK; `since` is the pod time at which it was held. -/
structure RegAccess where
  origin : Origin
  page : Page
  off : Nat
  write : Option Word
  narrow : Bool := false
  doorbell : Bool := false
  refuse : Bool := false
  hw : Word := 0
  held : Bool := false
  since : Nat := 0
  deriving DecidableEq, Repr

/-- What hardware has done to a register in the current CCLK (R7, R364): the register's number, the ACLK of the last change,
the value before that CCLK, what was added and the bits that were set. -/
structure RegChange where
  key : Nat
  at_ : Nat
  before : Nat
  add : Nat := 0
  set : Nat := 0
  deriving DecidableEq, Repr

/-- Where the answer of a remote access goes (R239, R250, R273): lane, quarter, global address of the requester, segment
ID, the site of an access that came on a migration queue pair, and the ACLK from which it may leave (R340, R341). -/
structure RespTo where
  vl : Nat
  q : Nat
  dst : Nat
  seg : Nat
  site : Option Nat := none
  due : Nat := 0
  deriving DecidableEq, Repr

/-- How a request that may wait behind held accesses is answered: a host request by its PSN (`words` keeps the answer for
duplicates, R305, and `path` is the ACLK from the request to the response, R343) or by a NAK (R300), a remote access by a READ_RESP, the sideband's by the end of its transaction. -/
inductive Answer where
  | host (psn : Nat) (read keep : Bool) (path : Nat)
  | nak (psn : Nat) (access : Bool)
  | frame (f : RespTo)
  | sideband (read : Bool)
  deriving DecidableEq, Repr

/-- One piece of a request, performed in its origin's order (R304, R305, R362): a register access, a memory write, a memory
read, an atomic addition, the request's answer, or RELEASE. -/
inductive Action where
  | reg (a : RegAccess)
  | memWrite (o : Origin) (a : Nat) (bytes : List (Byte × Bool))
  | memRead (o : Origin) (a len : Nat)
  | fetchAdd (o : Origin) (a v : Nat)
  | answer (o : Origin) (r : Answer)
  | release (o : Origin)
  deriving DecidableEq, Repr

/-- A journal entry (R372 to R374). -/
structure JEntry where
  time : Nat
  seq : Nat
  origin : Origin
  page : Page
  off : Nat
  code : Nat
  setWon : Bool
  doorbell : Bool
  held : Bool
  rsvNz : Bool
  old : Word
  new : Word
  deriving DecidableEq, Repr

/-- A flash program in flight: the entries it writes, and when it started (R377). -/
structure FlashProgram where
  entries : List JEntry
  started : Nat
  deriving DecidableEq, Repr

/-- A quarter's journal (R375 to R378). `ring` holds the entries not yet retired, oldest first; `flash` the mirror. -/
structure Journal where
  seq : Nat := 0
  flashSeq : Option Nat := none
  hostSeq : Option Nat := none
  ring : List JEntry := []
  program : Option FlashProgram := none
  flash : List JEntry := []
  held : List RegAccess := []
  deriving DecidableEq, Repr

/-- A pending alarm record (R381); `bit` is 255 for a page key. -/
structure Alarm where
  page : Page
  bit : Nat
  first : Nat
  last : Nat
  count : Nat
  forced : Bool
  pageOvf : Bool
  sts : Word
  deriving DecidableEq, Repr

/-- A trace record (R383). -/
structure TraceRec where
  time : Nat
  quarter : Nat
  queue : Nat
  event : Nat
  code : Nat
  tag : Nat
  deriving DecidableEq, Repr

/-- Event classes and their staging (R380 to R383). Telemetry records are held as their bytes. -/
structure Events where
  alarms : List Alarm := []
  telemetry : List (List Byte) := []
  trace : List TraceRec := []
  deriving DecidableEq, Repr

/-- A stop or start command in progress (R320, R345). -/
structure ClkCmd where
  quarter : Nat
  island : Nat
  stop : Bool
  since : Nat
  deriving DecidableEq, Repr

/-- Islands and the accesses held at them (R317 to R326). `islands` maps 128·q + i to a state code of R318; `held` are the
accesses at the islands, oldest first, `stalled` the later actions of origins that are blocked, and `got` what the reads
of a request have delivered so far. -/
structure Clk where
  islands : List (Nat × Nat) := []
  held : List RegAccess := []
  stalled : List Action := []
  got : List (Origin × List (Byte × Bool)) := []
  cmds : List ClkCmd := []
  refSince : List (Nat × Nat) := []
  deriving DecidableEq, Repr

/-- The state code of an island that nothing has set: OFF, or NONE where there is no island (R317, R329). -/
def islandDefault (k : Nat) : Nat := if k % 128 < 110 then 5 else 7

end Sys2Proof.Machine
end

