-- ==== Sys2Proof/Machine/TypesCompute.lean ====
section
/-! DEFINITION. The data of queues, windows, the Fold's scheduler, arrays, mangles and engine tables (R41 to R139). -/

namespace Sys2Proof.Machine

/-- How far a descriptor in a window has come (R105, R106, R115). -/
inductive WinStatus where
  | waiting
  | running
  | failed
  | done
  deriving DecidableEq, Repr

/-- A descriptor in a window: fetched and not signalled. `next` counts the transfer segments issued and `open_` are
those issued and not complete; `salt` and `attempt` are what it started with; `waitUntil` is the ACLK at which its path
time ends; `seq` is its ring count; `err` is the runtime code of a failed segment; `waitPod` is the pod time
since which it waits for an image (R182), `got` what its check read for it (R171); `skip` marks a skip-completion (R151). -/
structure WinEntry where
  desc : Desc
  status : WinStatus := .waiting
  skip : Bool := false
  fetchedAt : Nat := 0
  startedAt : Nat := 0
  salt : Nat := 0
  attempt : Nat := 0
  next : Nat := 0
  open_ : List Nat := []
  waitUntil : Nat := 0
  seq : Nat := 0
  err : Nat := 0
  waitPod : Nat := 0
  got : List Byte := []
  deriving DecidableEq, Repr

/-- A fetch of a ring entry: the line once it has arrived, and whether it came poisoned (R105, R115); `ctl` marks a
queue-control entry, which takes no credit and no tracker entry (R107). -/
structure Fetch where
  index : Nat
  ctl : Bool := false
  line : Option Desc := none
  poisoned : Bool := false
  deriving DecidableEq, Repr

/-- Why a queue is halted (R115): a control entry refused, which stays at HEAD; a descriptor refused, which stays in the
window as failed; or a descriptor failed at runtime. -/
inductive Halt where
  | control
  | refused
  | runtime
  deriving DecidableEq, Repr

/-- A descriptor queue (R101 to R107, R112); `trackWait` marks a fetch, `segWait` a segment, that
found no tracker entry (R110); `nextFetch` is the first ACLK at which it may issue another fetch. -/
structure Queue where
  head : Nat := 0
  tail : Nat := 0
  base : Nat := 0
  log2 : Nat := 0
  window : List WinEntry := []
  fetches : List Fetch := []
  halt : Option Halt := none
  trackWait : Bool := false
  segWait : Bool := false
  nextFetch : Nat := 0
  deriving DecidableEq, Repr

/-- A request waiting for a Fold sub-bank (R95): its quarter and offset, class, arrival, requester number, a write's
bytes by lane, and the queue whose fetch it is. -/
structure FoldReq where
  quarter : Nat
  off : Nat
  cls : Nat
  at_ : Nat
  num : Nat
  promoted : Bool := false
  write : List (Nat × Byte) := []
  isWrite : Bool := false
  fetchOf : Option (Nat × Nat) := none
  counted : Bool := false
  deriving DecidableEq, Repr

/-- A read granted and not yet delivered (R335): the line as it was at the grant, and its mark. -/
structure FoldRead where
  quarter : Nat
  off : Nat
  granted : Nat
  fetchOf : Option (Nat × Nat) := none
  line : Nat := 0
  poisoned : Bool := false
  deriving DecidableEq, Repr

/-- The Fold's scheduler: waiting requests, reads in flight, and corrected lines waiting for a reserved slot (R95 to
R98). `lastGrant` and `patrol` are by sub-bank, 256·q + 4·bank + sub: the ACLK after its last access, and the lines
patrolled. -/
structure FoldSched where
  reqs : List FoldReq := []
  reads : List FoldRead := []
  writeBacks : List Nat := []
  lastGrant : List (Nat × Nat) := []
  patrol : List (Nat × Nat) := []
  deriving DecidableEq, Repr

/-- One group of an operand row along the reduction dimension: the scale code and the element codes (R54). -/
structure Group where
  scale : Nat
  codes : List Nat
  deriving DecidableEq, Repr

/-- One row (A) or column (B) of an operand as a feeder holds it: its groups, and whether it is poisoned (R70, R490). -/
structure OpRow where
  groups : List Group
  poisoned : Bool
  deriving DecidableEq, Repr

/-- A retained operand of a feeder side: the keeping tile's matching fields and its rows (R67, R81). -/
structure Keep where
  fmt : Nat
  bsz : Bool
  nkM1 : Nat
  mask : Nat
  rows : List OpRow
  deriving DecidableEq, Repr

/-- What the feeders and links of a tile do (R50, R51), in ACLK from its acceptance: the cycles in which each row and column
feeder holds, those in which an elastic link becomes full, once per link, and those in which some cell takes a beat. -/
structure TileFlow where
  rows : List (List Nat) := []
  cols : List (List Nat) := []
  fills : List Nat := []
  takes : List Nat := []
  deriving DecidableEq, Repr

/-- A tile accepted and not completed (R47, R48): its descriptor and kind, the ACLK of acceptance, the SALT it started with, and what the
buffers of R46 hold of it: the rows of A and columns of B in the element and scale queues, and the C lines with their marks.
`flow` is what its feeders and links do and `drains` the ACLK that each row's line waits for its Fold bank. `reads` are the
operand regions; `undef` marks operands that R66 leaves undefined and `clash` the output lines whose order of writes it
leaves undefined. -/
structure Tile where
  desc : Desc
  kind : Nat
  at_ : Nat
  salt : Nat
  a : List OpRow
  b : List OpRow
  c : List (List Nat)
  cBad : List Bool
  reads : List (Nat × Nat)
  flow : TileFlow := {}
  drains : List Nat := []
  undef : Bool := false
  clash : List (Nat × Nat) := []
  deriving DecidableEq, Repr

/-- A tile's carries in a handoff buffer (R61): the engine they are for, the masks, and 1,024 carries by row; a cell that
was inactive has none. -/
structure Handoff where
  ce : Nat
  carries : List (Option Num)
  deriving DecidableEq, Repr

/-- One array: tiles in flight oldest first, the last acceptance, its interval and its beats, retained operands by kind (the FA uses
kind 0), the handoff buffer, and the ACLK at which that buffer was last emptied. -/
structure ArrayState where
  tiles : List Tile := []
  lastAccept : Option (Nat × Nat × Nat) := none
  kinds : Nat := 0
  keepA : List (Nat × Keep) := []
  keepB : List (Nat × Keep) := []
  handoff : Option Handoff := none
  handFree : Nat := 0
  deriving DecidableEq, Repr

/-- A request for mangles (R77): physical triad and array, or a standalone mangle descriptor (`who` = 96 + mangle), each mangle
with the bytes of source that it will stream. -/
structure MangleClaim where
  who : Nat
  streams : List (Nat × Nat)
  at_ : Nat
  deriving DecidableEq, Repr

/-- A mangle that serves a claimant since its grant at `at_`: no earlier than `until_` does it deliver the last beat of its
stream (R334). -/
structure MangleUse where
  mangle : Nat
  who : Nat
  at_ : Nat
  until_ : Nat
  deriving DecidableEq, Repr

/-- A quarter's mangles: claims waiting, the busy mangles, and the claimants granted that have not yet started, with the
ACLK of the grant. -/
structure Mangles where
  claims : List MangleClaim := []
  busy : List MangleUse := []
  served : List (Nat × Nat) := []
  deriving DecidableEq, Repr

/-- An entry of the delayed-scale table: READY and floor(log₂ amax_d) (R129). -/
structure DelayedScale where
  ready : Bool := false
  exponent : Int := 0
  deriving DecidableEq, Repr

/-- What the quarters compute with. Maps are keyed: queues 256·q + n; counters 4096·q + k; arrays 96·q + 3·p + a;
`incs` keeps each increment of a counter with the clock it fell on, for the order of R109; AMAX (the BF16 code plus one) and
delayed-scale tables 65,536·q + id; bins ((2·q + sorter)·4,096 + id)·68 + bin. -/
structure Compute where
  queues : List (Nat × Queue) := []
  counters : List (Nat × Nat) := []
  incs : List (Nat × Nat × Nat) := []
  arrays : List (Nat × ArrayState) := []
  failing : List (Nat × Bool) := []
  mangles : List (Nat × Mangles) := []
  fold : FoldSched := {}
  amax : List (Nat × Nat) := []
  scales : List (Nat × DelayedScale) := []
  bins : List (Nat × Nat) := []
  deriving DecidableEq, Repr

end Sys2Proof.Machine
end

