-- ==== Sys2Proof/Machine/TypesMem.lean ====
section
/-! DEFINITION. The data of the stacks (R207 to R233, R386 to R389). -/

namespace Sys2Proof.Machine

/-- A request at a pseudo-channel scheduler: the line, the port and lead of its route, the bytes of a write by position
in the line and whether it is a merge write, the assigned slot (absolute MCLK) and way, and when it was sent (R213). `done`
marks an access already performed in memory, `own` one of an engine, which no command completes; `kept` is the pod time
since which a lease holds the write back, `stale` that LEASE_STALE was raised for it (R158). -/
structure MemReq where
  addr : Nat
  port : Nat
  lead : Nat
  isWrite : Bool
  write : List (Nat × Byte)
  merge : Bool := false
  path : Nat
  slot : Nat
  way : Nat
  arrived : Nat
  sent : Option Nat := none
  done_ : Bool := false
  own : Bool := false
  kept : Option Nat := none
  stale : Bool := false
  deriving DecidableEq, Repr

/-- A repair unit in force or being copied (R224): pseudo-channel, bank, unit in the bank, its spare, the lines copied so far,
whether the copy is complete, and whether the repair is hard (R225). -/
structure Repair where
  pc : Nat
  bank : Nat
  unit : Nat
  spare : Nat
  lines : Nat
  copied : Bool
  hard : Bool := false
  deriving DecidableEq, Repr

/-- A pin group whose spare is in use: the pin that moved, and whether a second pin fails (R226). -/
structure Lane where
  pin : Nat
  degraded : Bool := false
  deriving DecidableEq, Repr

/-- One stack (R207 to R232). `busy` maps 64·pc + bank to the MCLK at which the bank is free; `counts` are the most
recently corrected units with their corrections; `pins` maps 6·pc + group to what is known of a group whose spare is in
use; `pinHits` maps (6·pc + group)·36 + pin to the times of its corrections in the last second; `patrol` maps pc to the
next line. `waits` are MCLK counted in BANK_WAIT that have not passed, `waiting` requests that the stack cannot take until
it leaves self-refresh (R228), and `recorded` the soft repairs that darn has recorded in the journal flash (R225). -/
structure Stack where
  trained : Bool := false
  sref : Bool := false
  retainOk : Bool := false
  trainedAt : Nat := 0
  reqs : List MemReq := []
  busy : List (Nat × Nat) := []
  writeBacks : List Nat := []
  rewrites : List Nat := []
  counts : List (Nat × Nat) := []
  repairs : List Repair := []
  hardPending : Bool := false
  pins : List (Nat × Option Lane) := []
  pinHits : List (Nat × List Nat) := []
  patrol : List (Nat × Nat) := []
  passed : List Nat := []
  waits : List Nat := []
  waiting : List MemReq := []
  recorded : List Repair := []
  deriving DecidableEq, Repr

end Sys2Proof.Machine
end

