-- ==== Sys2Proof/Machine/TypesFabric.lean ====
section
/-! DEFINITION. Frames, messages and ports of the fabric (R234 to R247). -/

namespace Sys2Proof.Machine

/-- A TREE message (R244). `siteUp` takes another site's SITE_STATE or JOIN_ANNOUNCE up to the lead (R272): the spec gives it no code
(log entry 154). -/
inductive TreeMsg where
  | verdictUp (nf force : Bool) (contrib : Nat) (sumsq : Word)
  | verdictDown (verdict : Nat) (vnorm clip : Word)
  | preparedUp (count present nz : Nat)
  | commitDown (time present nz : Nat)
  | digestUp (entries : List LayerEntry)
  | digestDown (entries : List MajorityEntry)
  | check
  | mismatchUp (total : Nat) (entries : List Mismatch)
  | heartbeat (time : Nat)
  | regen (lost adopter : Nat)
  | bucketQuery
  | bucketStateUp (entries : List BucketEntry)
  | reportUp (kind subject value : Nat)
  | leadAnswer (kind : Nat) (refused : Bool) (subject answer : Nat)
  | siteDown (site state : Nat) (lagging : Bool) (mode round : Nat)
  | siteUp (kind : Nat) (d : DgramHdr) (sites side : Nat)
  deriving DecidableEq, Repr

/-- A TIME payload (R243): exchange type, the three timestamps in 1/64 count, SEQ and STATE. -/
structure TimeMsg where
  kind : Nat
  ta : Nat
  tb : Nat
  tc : Nat
  seq : Nat
  state : Nat
  deriving DecidableEq, Repr

/-- A DISC message (R245). -/
inductive DiscMsg where
  | hello (id quarter direction : Nat) (spare inPod : Bool) (term : Nat)
  | candidate (prio id : Nat)
  | neighTable (sender : Nat) (spare : Bool) (ids : List Nat) (sig : Nat)
  | config (c : ConfigRec)
  | tack (id sig : Nat)
  | tackReply (refused : Bool)
  | topoConfirm (sig : Nat) (agree : Bool)
  | leadProbe (term : Nat)
  | probeAnswer (term last : Nat) (none_ : Bool)
  deriving DecidableEq, Repr

/-- What a frame carries, by TYPE (R239). READY of R195 has no TYPE of its own in the spec: the model gives it a body. -/
inductive Body where
  | write (seg : Nat) (rsig : Bool) (bytes : List (Byte × Bool))
  | readReq (seg len ret : Nat)
  | readResp (seg : Nat) (error : Bool) (bytes : List (Byte × Bool))
  | sig (counter quarter amount : Nat)
  | coll (c : CollHdr) (bytes : List Byte)
  | ready (c : CollHdr)
  | sendDigest (tag quarter epoch attempt direction value : Nat)
  | tree (h : TreeHdr) (m : TreeMsg)
  | time (m : TimeMsg)
  | ctrl (nak : Option Nat)
  | disc (m : DiscMsg)
  | mend (epoch : Nat) (records : List MendRec)
  deriving DecidableEq, Repr

/-- A frame but for its link header (R238): lane, class, originating module and quarter, global target address, ROUTE, and the
fragment of a TREE message that it carries (R244). -/
structure Frame where
  vl : Nat
  cls : Nat
  src : Nat
  srcQ : Nat
  dst : Nat
  route : Nat
  body : Body
  frag : Nat := 0
  deriving DecidableEq, Repr

/-- A frame that a port has not yet sent: the ACLK from which it may go (R340), and the credits that its leaving returns to
the port by which it came: quarter, direction, lane, class and count (R240). -/
structure Waiting where
  frame : Frame
  ready : Nat := 0
  owe : Option (Nat × Nat × Nat × Nat × Nat) := none
  deriving DecidableEq, Repr

/-- A frame in the replay buffer: its LSEQ, when it was last sent, and how often it was resent (R241). -/
structure Replay where
  lseq : Nat
  frame : Frame
  sentAt : Nat
  resends : Nat
  deriving DecidableEq, Repr

/-- A fabric port (R236 to R241). `credits` maps 3·v + k to the credits held to send, `owed` to those to be returned;
`held` maps them to the credits of received frames
whose buffers are in use, `nakked` that a NAK was sent for the gap at hand;
`waiting` are frames not yet sent, oldest first; `deficit` is the deficit of VLs 0 to 5, `turn` the VL served, and `units` the 64-byte
units sent (R400). -/
structure Port where
  txSeq : Nat := 0
  rxSeq : Nat := 0
  credits : List (Nat × Nat) := []
  owed : List (Nat × Nat) := []
  held : List (Nat × Nat) := []
  nakked : Bool := false
  waiting : List Waiting := []
  replay : List Replay := []
  lastRx : Nat := 0
  lastCtrl : Nat := 0
  owedSince : Nat := 0
  deficit : List Nat := [0, 0, 0, 0, 0, 0]
  turn : Nat := 0
  downs : List Nat := []
  units : Nat := 0
  deriving DecidableEq, Repr

/-- What a requester does with a remote segment: it writes, reads, or reads for a write to another remote address. -/
inductive SegKind where
  | write
  | read
  deriving DecidableEq, Repr

/-- A remote segment (R110, R136): its number, the queue entry that issued it (quarter, queue, ring count) and the segment's
index there, the module it went to (none for another site), and the answer once it has come: an error code (0 for none)
and the bytes of a read, with the ACLK at which the requester has it (R340). -/
structure Seg where
  id : Nat
  q : Nat
  n : Nat
  seq : Nat
  index : Nat
  kind : SegKind
  chip : Option Nat
  answer : Option (Nat × List (Byte × Bool)) := none
  due : Nat := 0
  deriving DecidableEq, Repr

/-- A neighbour table that the lead holds (R245, R259). -/
structure NeighTable where
  sender : Nat
  spare : Bool
  ids : List Nat
  sig : Nat
  deriving DecidableEq, Repr

/-- The standby's probe of the lead's neighbours (R258): when it began, and who answered that it too has heard nothing. -/
structure Probe where
  since : Nat
  asked : List Nat
  silent : List Nat
  deriving DecidableEq, Repr

/-- A stage of discovery (R259, R260): the hellos of a warm start, hello and election, then, at every module, the tables
and the configuration. -/
inductive Stage where
  | idle
  | confirm
  | election
  | tables
  deriving DecidableEq, Repr

/-- The configuration that journal flash holds (R260): signature, registers of the POD and COLL pages by offset, and the
cut table. -/
structure StoredPod where
  sig : Nat
  pod : List (Nat × Nat)
  coll : List (Nat × Nat)
  cut : List (Nat × Nat)
  deriving DecidableEq, Repr

/-- What the module keeps of its pod beside the registers: the cut table (chip to 0 active, 1 spare, 2 cut, 3 absent; R246),
heartbeats (R258), discovery and election (R257, R259, R260), time exchanges (R254), reports at the lead (R261), an unpick's
module and adopter at the lead (R442), LEAD_TERM as it was when LEAD_ID was last set, and the configuration in journal
flash. `following` marks tables that follow a CONFIG (R246), `incoming` the cut table as they give it (R259), `early` are keys
that came before this module's own election began (R257), `deposed` the leads of earlier terms (R258), `watchAt` is when
this module became STANDBY, and `mendOpen` the lost module of a mend whose epoch has not ended (R457). -/
structure Pod where
  cut : List (Nat × Nat) := []
  heartbeat : Option Nat := none
  lastBeat : Nat := 0
  stage : Stage := .idle
  stageAt : Nat := 0
  keys : List (Nat × Nat) := []
  keyAt : Nat := 0
  tables : List NeighTable := []
  probe : Option Probe := none
  probeAt : Nat := 0
  unreachable : List (Nat × Nat) := []
  setArmed : Bool := false
  syncSeq : Nat := 0
  syncAt : Nat := 0
  linkAt : Nat := 0
  good : Nat := 0
  selfCut : Bool := false
  tacking : Bool := false
  confirms : List (Nat × Bool) := []
  confirmed : Bool := false
  following : Bool := false
  incoming : List (Nat × Nat) := []
  early : List (Nat × Nat) := []
  deposed : List Nat := []
  watchAt : Nat := 0
  termAt : Nat := 0
  adopting : Option (Nat × Nat) := none
  mendOpen : Option Nat := none
  stored : Option StoredPod := none
  deriving DecidableEq, Repr

/-- The fabric of the module: ports by 6·q + d, remote segments, the next segment number, and the pod. -/
structure Fabric where
  ports : List (Nat × Port) := []
  segs : List Seg := []
  nextSeg : Nat := 1
  pod : Pod := {}
  deriving DecidableEq, Repr

end Sys2Proof.Machine
end

