-- ==== Sys2Proof/Machine/TypesSite.lean ====
section
/-! DEFINITION. The data of sites and migration rounds (R268 to R296), and of what the block sends out. -/

namespace Sys2Proof.Machine

/-- A migration control datagram (R272): its destination site, the port it leaves by, and its fields. -/
structure Dgram where
  kind : Nat
  dest : Nat
  q : Nat
  site : Nat
  chip : Nat
  round : Nat
  common : Nat
  time : Nat
  qpn : Nat
  sites : Nat
  side : Nat
  deriving DecidableEq, Repr

/-- A shard header that is held (R281, R282); `used` once a round has taken it into its set. -/
structure Shard where
  q : Nat
  site : Nat
  round : Nat
  catchup : Bool
  used : Bool := false
  deriving DecidableEq, Repr

/-- A contribution of a round and its weight, a binary32 (R283, R292). -/
structure Contribution where
  q : Nat
  site : Nat
  round : Nat
  weight : Word
  deriving DecidableEq, Repr

/-- A migration queue pair (R270, R271): its settings, the next PSN that it sends and the next that it expects, both 0 after each
reset. -/
structure MigQp where
  mtu : Nat := 4096
  timeout : Nat := 15
  retries : Nat := 7
  rnr : Nat := 7
  psn : Nat := 0
  expected : Nat := 0
  deriving DecidableEq, Repr

/-- What the module keeps of its migration beside the MIG registers (R271 to R295). `contact` is the pod time of the last
packet of each site, `told` the sites reported, `reports` at the lead the modules that reported a site, `repeats` the
datagrams repeated until answered, `odd` the samples in a row that lie outside, `nextMode` and `leadRound` what the next
round step of a lagging module runs, `readyAt` when READY last held, `joiners` the sites that the lead links at its next boundary, `fresh` the sites that contributed at age 0, `qps` the migration queue pairs by
16·site + quarter, and `commons` the COMMON_ROUND that each site's datagrams gave. -/
structure Mig where
  held : List Shard := []
  openAt : Option Nat := none
  deadline : Nat := 0
  readyRound : Option Nat := none
  readyAt : Option Nat := none
  joiners : List Nat := []
  set_ : List Contribution := []
  fresh : Bool := false
  contact : List (Nat × Nat) := []
  told : List Nat := []
  reports : List (Nat × Nat) := []
  repeats : List Dgram := []
  repeatAt : Nat := 0
  keepAt : Nat := 0
  odd : List (Nat × List Nat) := []
  derived : Nat := 0
  windows : List (Nat × Nat) := []
  nextMode : Nat := 0
  leadRound : Nat := 0
  joinFrom : Option Nat := none
  lastSync : Option Nat := none
  qps : List (Nat × MigQp) := []
  commons : List (Nat × Nat) := []
  deriving DecidableEq, Repr

end Sys2Proof.Machine
end

