-- ==== Sys2Proof/Machine/TypesOut.lean ====
section
/-! DEFINITION. What the block sends out: the model's own record of it, newest last (log entry 6). -/

namespace Sys2Proof.Machine

/-- An answer to a request on a host queue pair (R299, R300). -/
inductive HostReply where
  | ack
  | nakAccess
  | nakInvalid
  | data (bytes : List (Byte × Bool))
  deriving DecidableEq, Repr

/-- Something the block sends. -/
inductive Out where
  /-- A frame on port Qq.d with its link header (R238): LSEQ, LACK, and a credit return (VL, class, count). -/
  | frame (q d lseq lack : Nat) (credit : Option (Nat × Nat × Nat)) (f : Frame)
  /-- A cross-site access handed to the site ports (R249, R273). -/
  | site (f : Frame)
  /-- The answer of a relay or of this module to another site's access (R273): quarter, site, segment, code and bytes. -/
  | siteAnswer (q site seg code : Nat) (bytes : List (Byte × Bool))
  /-- A migration datagram (R272). -/
  | dgram (d : Dgram)
  /-- Own-site landing slots of rounds sent again to a site's counterpart on quarter q's queue pair (R271, R292). -/
  | slots (q site : Nat) (rounds : List Nat) (catchup : Bool)
  /-- The answer to the request of a PSN on a host queue pair (R299, R300). -/
  | hostReply (qp psn : Nat) (r : HostReply)
  /-- An RDMA WRITE into host memory on an EVENT queue pair (R310). -/
  | hostWrite (qp addr rkey : Nat) (bytes : List Byte)
  /-- An RDMA READ of host memory on an EVENT queue pair (R310). -/
  | hostRead (qp addr rkey len : Nat)
  /-- A connection accepted, with the module's queue pair number (R302, R373). -/
  | cmAccept (port qpn : Nat)
  /-- A connection rejected, with its CM reason (R301, R302). -/
  | cmReject (port reason : Nat)
  /-- A queue pair torn down (R300, R301). -/
  | cmGone (qp : Nat)
  /-- The answer to IDENTIFY (R311). -/
  | identify (port : Nat) (bytes : List Byte)
  /-- The answer to a Neighbor Solicitation or ARP, or an unsolicited advertisement: the address held, and the port's MAC (R269,
  R298). -/
  | neighbor (port addr mac : Nat)
  /-- A CNP for a CE-marked packet on a queue pair (R309). -/
  | cnp (qp : Nat)
  /-- An SPDM response: queue pair, request code and body (R482). -/
  | spdm (qp code : Nat) (bytes : List Byte)
  /-- An SPDM ERROR response with its error code (R482, R488). -/
  | spdmError (qp code : Nat)
  /-- The response to a module message: session, code, STATUS and body (R483). -/
  | message (session code status : Nat) (bytes : List Byte)
  /-- A block read's answer on SMBus (R424 to R426). -/
  | smb (bytes : List Byte)
  /-- A NAK on SMBus (R423, R424). -/
  | smbNak
  /-- An acknowledged SMBus write (R424). -/
  | smbAck
  deriving DecidableEq, Repr

/-- ACLK from what the block sends, or for an ACK, a NAK or a CNP from the last bit of what it answers, to the first bit on the
wire (R343); what leaves by no site port has none. -/
def Out.aclk : Out → Nat
  | .hostReply _ _ (.data _) => 540
  | .hostReply .. | .cnp _ => 288
  | .frame .. | .cmGone _ | .smb _ | .smbNak | .smbAck => 0
  | _ => 540

end Sys2Proof.Machine
end

