-- ==== Sys2Proof/Machine/TypesStep.lean ====
section
/-! DEFINITION. The data of leases, fault records, the training step, collectives and page mends (R141 to R206, R450 to R470). -/

namespace Sys2Proof.Machine

/-- What a lease holds beside its registers (R157, R159): the grant, and the reads outstanding under it. -/
structure Lease where
  granted : Bool := false
  mixed : Bool := false
  claimStep : Nat := 0
  holds : Nat := 0
  deriving DecidableEq, Repr

/-- A D-tier write waiting on a lease (R158): its bytes with their poison marks, the queue entry that makes it (quarter,
queue, ring count), the pod time at which it began to wait, whether LEASE_STALE was raised for it, and the origin of
a host's write, whose later requests wait for it, where the answer of a remote write goes, and the lease under which its
bytes were read (0 for none), which holds that lease until the write is performed (R157). -/
structure LeaseWrite where
  addr : Nat
  bytes : List (Byte × Bool)
  owner : Option (Nat × Nat × Nat) := none
  since : Nat := 0
  stale : Bool := false
  reply : Option Origin := none
  respond : Option RespTo := none
  lent : Nat := 0
  deriving DecidableEq, Repr

/-- Leases by number and the writes that wait on them, oldest first. -/
structure Leases where
  held : List (Nat × Lease) := []
  writes : List LeaseWrite := []
  deriving DecidableEq, Repr

/-- A fault record (R470). -/
structure FaultRec where
  time : Nat
  attempt : Nat
  kind : Nat
  quarter : Nat
  unit : Nat
  subject : Nat
  detail : Nat
  seq : Nat
  deriving DecidableEq, Repr

/-- A verdict record (R147, R148). -/
structure VRec where
  nf : Bool
  force : Bool
  contrib : Nat
  sumsq : Word
  deriving DecidableEq, Repr

/-- A PREPARED report of a child, by its site and chip, or of this module (R154). -/
structure PrepRec where
  child : Nat
  count : Nat
  present : Nat
  nz : Nat
  deriving DecidableEq, Repr

/-- A COMMIT being acted on (R155). -/
structure CommitRec where
  time : Nat
  present : Nat
  nz : Nat
  deriving DecidableEq, Repr

/-- A closed attempt as SHIP_STEP ships it (R183): its number, COMMITTED after it, the pod time of its COMMIT (0 when
skipped), whether it was skipped and whether export was active, its image parity, and for each quarter the entries of its
change list and whether the list overflowed. -/
structure Closed where
  attempt : Nat
  committed : Nat
  time : Nat
  skip : Bool
  active : Bool
  parity : Nat
  chg : List Nat
  exceeds : List Bool
  deriving DecidableEq, Repr

/-- A gradient bucket's lane whose operation has signalled in this step: quarter, descriptor and COLL registers it ran under. -/
structure Bucket where
  q : Nat
  desc : Desc
  gather : Bool
  deriving DecidableEq, Repr

/-- A page mend in progress (R462): the weight page, the holder once it is named, and the lines being copied. -/
structure PageMend where
  page : Nat
  holder : Option Nat := none
  lines : Nat := 0
  deriving DecidableEq, Repr

/-- A layer being copied from a holder (R455, R465): the entry's index in the layer table, its layer, the holder once it
is named, the majority digest that the copy must match, and the copies made. -/
structure LayerCopy where
  index : Nat
  layer : Nat
  holder : Option Nat
  digest : Option Nat
  copies : Nat := 0
  deriving DecidableEq, Repr

/-- Where a module stands between COMMIT and CLOSED (R155, R465). -/
inductive CommitStage where
  | none
  | copying
  | digests
  deriving DecidableEq, Repr

/-- What a module takes up when it adopts a lost position (R287, R455): the layers still to come, the ranges of its outer state, the
site that they come from once they are asked for, and the reads still to be answered (number, address, length). -/
structure TakeUp where
  lost : Nat
  since : Nat
  attempt : Nat
  layers : List LayerCopy
  outer : List OuterRange := []
  source : Option Nat := none
  want : List (Nat × Nat × Nat) := []
  deriving DecidableEq, Repr

/-- The training step beside the STEP registers (R141 to R163, R451 to R465). `quarters` and `kids` are verdict records of
this step, `sentUp` that the combination went up; `present` and `nz` the bitmaps of R154; `buckets` the lanes that have
signalled, in order; `images` the unshipped difference images, 2·q + parity; `wrote` and `over` the quarters that wrote an
image, or filled their change list, in this step; `ueLines` are D-tier lines found uncorrectable and not yet
looked at, `minority` the modules that reported another digest than the majority's, at the lead (R462), `asked` the weight pages whose holders the lead has been asked for, `kids` are keyed by site and chip. -/
structure Train where
  quarters : List (Nat × VRec) := []
  kids : List (Nat × VRec) := []
  sentUp : Bool := false
  triadFail : Bool := false
  aborted : Bool := false
  mended : Bool := false
  prepared : Option PrepRec := none
  prepKids : List PrepRec := []
  prepSent : Bool := false
  commit : Option CommitRec := none
  stage : CommitStage := .none
  present : Nat := 0
  nz : Nat := 0
  buckets : List Bucket := []
  layers : List LayerEntry := []
  digestKids : List (Nat × List LayerEntry) := []
  digestSent : Bool := false
  copies : List LayerCopy := []
  outOfDigest : List Nat := []
  minority : List Nat := []
  majority : List MajorityEntry := []
  mends : List PageMend := []
  ueLines : List Nat := []
  takeUp : Option TakeUp := none
  bucketKids : List (Nat × List BucketEntry) := []
  closed : List Closed := []
  images : List Nat := []
  wrote : List Nat := []
  exceeds : List Nat := []
  asked : List Nat := []
  eccRuns : List (Nat × Nat) := []
  eccSeen : List (Nat × Nat) := []
  deriving DecidableEq, Repr

/-- A collective segment waiting to be sent (R191, R195), and the ACLK at which its sum is there (R336). -/
structure CSeg where
  phase : Nat
  step : Nat
  off : Nat
  bytes : List Byte
  at_ : Nat := 0
  deriving DecidableEq, Repr

/-- One part and direction of a running collective (R191 to R195): the phase it is in, the phases for which READY has
come, the segments not yet sent, the bytes received in this phase, and the pod times since which it waits for a segment and
for READY, each with the mark that COLL_WAIT was raised for it (R198). -/
structure Stream where
  part : Nat
  dir : Nat
  phase : Nat
  done_ : Bool := false
  ready : List Nat := []
  out : List CSeg := []
  got : Nat := 0
  since : Nat := 0
  warned : Bool := false
  asked : Nat := 0
  warnedReady : Bool := false
  deriving DecidableEq, Repr

/-- A running REDUCE_SCATTER or ALL_GATHER (R191 to R202): its quarter and ring count, EPOCH and ATTEMPT, streams, additions made,
the digests of the six directions, the segments whose additions wait for a vector engine, and the ACLK at which the last
addition is complete. -/
structure CollOp where
  q : Nat
  seq : Nat
  desc : Desc
  epoch : Nat
  attempt : Nat
  streams : List Stream
  adds : Nat := 0
  sent : List Nat := [0, 0, 0, 0, 0, 0]
  recv : List Nat := [0, 0, 0, 0, 0, 0]
  late : List (CollHdr × List Byte) := []
  until_ : Nat := 0
  deriving DecidableEq, Repr

/-- What EX0 is sending (R183, R184): PROD and CONS as it holds them, the bytes of records not yet placed, when CONS was
last read, the page it has reached, the lease values of its first segment, and whether CONS has been read again for the
record that does not fit. -/
structure Shipping where
  prod : Nat := 0
  cons : Nat := 0
  began : Bool := false
  records : List (List (Byte × Bool)) := []
  readAt : Option Nat := none
  reading : Bool := false
  claimStep : Nat := 0
  mixed : Bool := true
  next : Nat := 0
  again : Bool := false
  deriving DecidableEq, Repr

/-- Collectives, exports and the link check in progress: running operations, READYs that came before their operation (by
quarter), what EX0 sends by quarter, the attempt being checked, and at the lead the modules that have not yet reported (R203). -/
structure Coll where
  ops : List CollOp := []
  readies : List (Nat × CollHdr) := []
  ships : List (Nat × Shipping) := []
  checking : Option Nat := none
  checkLeft : Nat := 0
  deriving DecidableEq, Repr

end Sys2Proof.Machine
end

