-- ==== Sys2Proof/Machine/TypesHost.lean ====
section
/-! DEFINITION. The data of the host attachment, power, start, background work, service cores and the trust block (R297 to R312, R386 to R445, R458 to R489). -/

namespace Sys2Proof.Machine

/-- A number m / 2^e: a rate in Gb/s or the α of R309. -/
structure Dyadic where
  m : Nat
  e : Nat
  deriving DecidableEq, Repr

/-- An established host queue pair (R299 to R309): role, SPDM session, far number, path MTU, acknowledge timeout and
retries of the REQ, the next PSN, α and rate, when it was last cut or raised, the last CNP sent, and the stored answers of
its last 16 READ requests of REG. `recovery` marks one accepted in recovery (R303). -/
structure HostQp where
  role : Nat
  session : Nat
  peer : Nat
  mtu : Nat
  timeout : Nat
  retries : Nat
  rnr : Nat
  psn : Nat
  recovery : Bool := false
  alpha : Dyadic := { m := 1, e := 0 }
  rate : Dyadic := { m := 200, e := 0 }
  cutAt : Nat := 0
  decayAt : Nat := 0
  cnpAt : Option Nat := none
  answers : List (Nat × List (Byte × Bool)) := []
  deriving DecidableEq, Repr

/-- A record of an event ring that is written and not yet acknowledged: its bytes, and a journal entry's SEQ. -/
structure RingRec where
  bytes : List Byte
  seq : Option Nat
  deriving DecidableEq, Repr

/-- An event ring (R310): PROD as last written and as acknowledged, CONS as last read, records since the last
acknowledged PROD with the PROD after each, the next journal SEQ to write, and the re-read of CONS: outstanding, and when the last
one answered. -/
structure EvRing where
  prod : Nat := 0
  acked : Nat := 0
  cons : Nat := 0
  unacked : List (RingRec × Nat) := []
  nextSeq : Option Nat := none
  rereading : Bool := false
  readAt : Option Nat := none
  full : Bool := false
  deriving DecidableEq, Repr

/-- The host attachment (R297 to R312): queue pairs by 16·port + index, event rings by number, priorities paused by port
(R308), the quarter whose journal has the next turn by port (R380), and a RELEASE that waits for earlier requests. -/
structure HostIf where
  qps : List (Nat × HostQp) := []
  rings : List (Nat × EvRing) := []
  paused : List (Nat × Nat) := []
  turns : List (Nat × Nat) := []
  deriving DecidableEq, Repr

/-- The power block and the sideband (R404 to R427): STATE of R412, PWR_EN and the two latch sensors, whether the AON
domain is up, since when flow was low or the inlet warm and whether that was raised, the straps (19 bits), ALERT_L, the
sideband's REG_ADDR and pending write, and the ACLK of the cause in TRIP_INFO. -/
structure Power where
  state : Nat := 1
  enable : Bool := true
  supply : Bool := true
  return_ : Bool := true
  aon : Bool := true
  flowLow : Option Nat := none
  inletHigh : Option Nat := none
  flowTold : Bool := false
  inletTold : Bool := false
  straps : Nat := 0x40000
  alert : Bool := false
  regAddr : Nat := 0
  pending : Bool := false
  causeAt : Nat := 0
  deriving DecidableEq, Repr

/-- A stack's calibration record in flash (R394): the junction temperature in 1/16 °C, whether its CRC passes, when it was written,
and the spare-pin map by pin group. The phases of the pins are no state of the model. -/
structure CalRec where
  temp : Int
  valid : Bool
  at_ : Nat
  pins : List (Nat × Option Lane) := []
  deriving DecidableEq, Repr

/-- An unpick in progress (R442): its regions (D-tier local offset and length), whether the lead was asked for an adopter,
whether the copy has begun, and whether the lead was asked to cut. -/
structure Unpick where
  regions : List (Nat × Nat)
  asked : Bool := false
  drained : Bool := false
  done_ : Bool := false
  deriving DecidableEq, Repr

/-- What follows once a time has passed (R429, R437): a warm start, a cold start, or parking. -/
inductive NextKind where
  | warm
  | cold
  | park
  deriving DecidableEq, Repr

/-- A start that has to come (R429, R437). -/
structure NextStart where
  at_ : Nat
  kind : NextKind
  deriving DecidableEq, Repr

/-- Starts (R429 to R445), beside the BOOT registers: when the start and its phase began, when BIST last passed, the next
start, an unpick, a warm start that waits for its unpick, and what flash keeps: the slot map by 32·q + slot, and
calibration records by 8·q + s. -/
structure Boot where
  startAt : Nat := 0
  phaseAt : Nat := 0
  bistAt : Option Nat := none
  next : Option NextStart := none
  unpick : Option Unpick := none
  warmAfter : Bool := false
  slotMap : List (Nat × Nat) := []
  cal : List (Nat × CalRec) := []
  deriving DecidableEq, Repr

/-- Background work (R386 to R403): sensor offsets by 64·q + i and excluded sensors, temperatures of the last sample,
aging losses by 32·q + p, the limits passed (2·(32·q + p), and one more for AGE_FAIL), eye margins by 32·q + lane, what RC reads have
taken away from each counter, totals at the last sample, samples taken, and the day's aging readings that darn has written into flash: the day of the last by
quarter, and each reading as day, 32·q + p and loss (R396). -/
structure Bgnd where
  offsets : List (Nat × Int) := []
  excluded : List Nat := []
  temps : List (Nat × Int) := []
  aging : List (Nat × Nat) := []
  passed : List Nat := []
  margins : List (Nat × Nat) := []
  cleared : List (Nat × Nat) := []
  sampled : List (Nat × Nat) := []
  sampleAt : Nat := 0
  samples : Nat := 0
  ageDays : List (Nat × Nat) := []
  ageLog : List (Nat × Nat × Nat) := []
  deriving DecidableEq, Repr

/-- A hart (R472): when its watchdog was last restarted, and the attempt in which it last expired. -/
structure Hart where
  kicked : Nat := 0
  expired : Option Nat := none
  deriving DecidableEq, Repr

/-- A seam (R223, R339, R392, R468), by number in SEAM_STS: how often the flit in hand was resent, and the depth of its
elastic buffer. -/
structure Seam where
  resends : Nat := 0
  depth : Int := 0
  deriving DecidableEq, Repr

/-- Service cores, harts by 4·q + i, seams, and quarters lost (R450, R466, R468). -/
structure Cores where
  beatAt : Nat := 0
  failedAt : Option Nat := none
  harts : List (Nat × Hart) := []
  seams : List (Nat × Seam) := []
  lostQuarters : List Nat := []
  lostSelf : Bool := false
  deriving DecidableEq, Repr

/-- A firmware image in a bank (R479): KEY_SLOT, SVN, VERSION, the digest of its header, and whether its signatures and DIGEST
verify. -/
structure FwImage where
  slot : Nat
  svn : Nat
  version : Nat
  digest : BitVec 384
  sound : Bool
  deriving DecidableEq, Repr

/-- The banks of a firmware class (R485, R486): A and B, which is active, whether the other is PENDING, the bank that runs,
and the floor counts burned in Q0 and Q1. -/
structure FwClass where
  a : Option FwImage
  b : Option FwImage
  active : Nat := 0
  pending : Bool := false
  running : Nat := 0
  fallback : Bool := false
  floor0 : Nat := 1
  floor1 : Nat := 1
  deriving DecidableEq, Repr

/-- An SPDM session (R481, R482): its number, the queue pair it runs on, whether FINISH has completed, and the digest of the
host's leaf key once it is mutually authenticated. -/
structure Session where
  id : Nat
  qp : Nat
  open_ : Bool := false
  owner : Option (BitVec 384) := none
  beatAt : Nat := 0
  deriving DecidableEq, Repr

/-- An X.509 certificate of the chain (R476): its place (0 the Llynwisia root, 1 the Skequin intermediate, 2 DeviceID), its
issuer's, the serialNumber attribute, the RSA-3072 and SLH-DSA public keys, and the two signatures over it. -/
structure Cert where
  place : Nat
  issuer : Nat
  serial : Nat := 0
  rsaKey : Nat := 0
  slhKey : Nat := 0
  rsaSig : Nat := 0
  slhSig : Nat := 0
  deriving DecidableEq, Repr

/-- The chain as it is manufactured: root, intermediate, DeviceID, each issued by the one before it (R476, R477). The spec gives no
number, key or signature: zeros stand for them (log entry 157). -/
def chainMade : List Cert := [{ place := 0, issuer := 0 }, { place := 1, issuer := 0 }, { place := 2, issuer := 1 }]

/-- The trust block (R473 to R489): classes of firmware by number, measurement registers, sessions, the next session number,
how far the connection on each queue pair has negotiated, PROD and the revocation mask; the chain in the certificate store, the
chain whose digest was fused, the DeviceID public keys that go with the private keys in OTP, and whether the identity checks of the
last VERIFY passed. -/
structure Sec where
  classes : List FwClass := List.replicate 5
    { a := some { slot := 0, svn := 1, version := 1, digest := 0, sound := true }, b := none }
  mrs : List (BitVec 384) := List.replicate 7 0
  sessions : List Session := []
  nextSession : Nat := 1
  vca : List (Nat × Nat) := []
  prod : Bool := true
  revoked : Nat := 0
  chain : List Cert := chainMade
  fused : List Cert := chainMade
  deviceKeys : Nat × Nat := (0, 0)
  identOk : Bool := false
  fusesAgree : Bool := true
  deriving DecidableEq, Repr

end Sys2Proof.Machine
end

