-- ==== Sys2Proof/Machine/State.lean ====
section
/-! DEFINITION. The state of the block, its faults and refusals, and the state after reset. -/

namespace Sys2Proof.Machine

/-- Why the block stops with a fault. No command of the spec stops it, so nothing raises one (safe). -/
inductive Fault where
  deriving DecidableEq, Repr

/-- Why a command has no meaning. -/
inductive Refusal where
  /-- A row of the operation table without a meaning in this model; raised by its arm of exec (safe). -/
  | notModelled (mnemonic : String)
  deriving DecidableEq, Repr

/-- Pod time (R253 to R255): the count in 1/64 count, the remainder of the steered rate, and the rate in parts per
billion. -/
structure PodTime where
  count64 : Nat := 0
  rem : Nat := 0
  rate : Int := 0
  joining : Bool := false
  deriving DecidableEq, Repr

/-- The block. `pending` is the queue of waiting commands, `now` the ACLK of the last command, `free` counts the free
values used (log entries 1 and 2); `regs` holds the stored registers by number (`Page.reg`) where they differ from
reset, `caps` the captured halves of wide registers (none before the
first capture), `cycle` what hardware did to registers in the current CCLK (R7, R364), `mem` memory by local address, `ecc` the error pattern of each
stored codeword, `pulses` the open pulse windows of R324. -/
structure State where
  pending : List Instr := []
  now : Nat := 0
  free : Nat := 0
  regs : List (Nat × Word) := []
  caps : List (Nat × Option Word) := []
  cycle : List RegChange := []
  mem : List Host.Cell := []
  ecc : List (Nat × Nat) := []
  pulses : List (Nat × Nat) := []
  pod : PodTime := {}
  clk : Clk := {}
  journals : List (Nat × Journal) := []
  events : Events := {}
  compute : Compute := {}
  stackUnits : List (Nat × Stack) := []
  leases : Leases := {}
  frecs : List FaultRec := []
  fabric : Fabric := {}
  train : Train := {}
  coll : Coll := {}
  mig : Mig := {}
  host : HostIf := {}
  power : Power := {}
  boot : Boot := {}
  bgnd : Bgnd := {}
  cores : Cores := {}
  sec : Sec := {}
  out : List Out := []
  outAt : List Nat := []
  deriving DecidableEq, Repr

/-- The block right after reset: the instant at which a cold start begins (R367, R429). -/
def State.reset : State := {}

end Sys2Proof.Machine
end

