-- ==== Sys2Proof/Machine/Ops.lean ====
section
/-! DEFINITION. The named operations over registers, the units of State, time and the journal that every command uses. -/

namespace Sys2Proof.Machine

/-- Replace the first element of a list that a test finds. -/
def replaceFirst {α : Type} (p : α → Bool) (f : α → α) : List α → List α
  | [] => []
  | a :: l => if p a then f a :: l else a :: replaceFirst p f l

/-! ## Stored registers -/

/-- The stored value of a register. -/
def State.reg (s : State) (p : Page) (off : Nat) : Word := mapGet regDefault s.regs (p.reg off)

/-- Store a register. -/
def State.setReg (s : State) (p : Page) (off : Nat) (v : Word) : State :=
  { s with regs := mapSet regDefault s.regs (p.reg off) v }

/-- A register as a number. -/
def State.num (s : State) (p : Page) (off : Nat) : Nat := (s.reg p off).toNat

/-- Store a number in a register. -/
def State.setNum (s : State) (p : Page) (off v : Nat) : State := s.setReg p off (BitVec.ofNat 32 v)

/-- Bits `lo` to `lo + w - 1` of a register. -/
def State.field (s : State) (p : Page) (off lo w : Nat) : Nat := bitsOf (s.num p off) lo w

/-- One bit of a register. -/
def State.bit (s : State) (p : Page) (off i : Nat) : Bool := bitAt (s.num p off) i

/-- Replace bits `lo` to `lo + w - 1` of a number. -/
def putBits (v lo w x : Nat) : Nat := v - bitsOf v lo w * 2 ^ lo + (x % 2 ^ w) * 2 ^ lo

/-- Store a field of a register. -/
def State.setField (s : State) (p : Page) (off lo w x : Nat) : State := s.setNum p off (putBits (s.num p off) lo w x)

/-- Store one bit of a register. -/
def State.setBit (s : State) (p : Page) (off i : Nat) (b : Bool) : State := s.setField p off i 1 (if b then 1 else 0)

/-- What hardware did to a register in the current CCLK (R7, R364). -/
def State.change (s : State) (p : Page) (off : Nat) : Option RegChange :=
  s.cycle.find? (fun c => c.key == p.reg off && c.at_ / 4 == s.now / 4)

/-- Note what hardware does to a register in this CCLK, before it is done (R7, R364). -/
def State.note (s : State) (p : Page) (off add set : Nat) : State :=
  let c := (s.change p off).getD { key := p.reg off, at_ := s.now, before := s.num p off }
  let live := s.cycle.filter (fun c => c.at_ / 4 == s.now / 4 && c.key != p.reg off)
  { s with cycle := live ++ [{ c with at_ := s.now, add := c.add + add, set := c.set ||| set }] }

/-- Add to a saturating counter (R5, RC counters). -/
def State.addSat (s : State) (p : Page) (off n : Nat) : State :=
  (if n = 0 then s else s.note p off n 0).setNum p off (min 0xFFFFFFFF (s.num p off + n))

/-- Add to a counter that wraps at 2³². -/
def State.addWrap (s : State) (p : Page) (off n : Nat) : State := s.setNum p off (s.num p off + n)

/-- A 64-bit register pair, low half at `lo`. -/
def State.num64 (s : State) (p : Page) (lo hi : Nat) : Nat := s.num p lo + 2 ^ 32 * s.num p hi

/-- Store a 64-bit register pair. -/
def State.setNum64 (s : State) (p : Page) (lo hi v : Nat) : State := (s.setNum p lo v).setNum p hi (v / 2 ^ 32)

/-- The free-running total of an RC counter: what it reads and what reads have cleared (R399). -/
def State.total (s : State) (p : Page) (off : Nat) : Nat :=
  s.num p off + mapGet (fun _ => 0) s.bgnd.cleared (p.reg off)

/-! ## Units held in maps -/

/-- Queue n of quarter q. -/
def State.queue (s : State) (q n : Nat) : Queue := mapGet (fun _ => {}) s.compute.queues (256 * q + n)
/-- Replace queue n of quarter q. -/
def State.setQueue (s : State) (q n : Nat) (x : Queue) : State :=
  { s with compute := { s.compute with queues := mapSet (fun _ => {}) s.compute.queues (256 * q + n) x } }

/-- Array a of physical triad p of quarter q. -/
def State.array (s : State) (q p a : Nat) : ArrayState := mapGet (fun _ => {}) s.compute.arrays (96 * q + 3 * p + a)
/-- Replace an array. -/
def State.setArray (s : State) (q p a : Nat) (x : ArrayState) : State :=
  { s with compute := { s.compute with arrays := mapSet (fun _ => {}) s.compute.arrays (96 * q + 3 * p + a) x } }

/-- A quarter's mangles. -/
def State.mangles (s : State) (q : Nat) : Mangles := mapGet (fun _ => {}) s.compute.mangles q
/-- Replace a quarter's mangles. -/
def State.setMangles (s : State) (q : Nat) (x : Mangles) : State :=
  { s with compute := { s.compute with mangles := mapSet (fun _ => {}) s.compute.mangles q x } }

/-- Replace the Fold's scheduler. -/
def State.setFold (s : State) (x : FoldSched) : State := { s with compute := { s.compute with fold := x } }

/-- A quarter's journal. -/
def State.journal (s : State) (q : Nat) : Journal := mapGet (fun _ => {}) s.journals q
/-- Replace a quarter's journal. -/
def State.setJournal (s : State) (q : Nat) (x : Journal) : State :=
  { s with journals := mapSet (fun _ => {}) s.journals q x }

/-- Stack `slot` of quarter q: 0 to 5 for F0 to F5, 6 and 7 for D0 and D1. -/
def State.stack (s : State) (q slot : Nat) : Stack := mapGet (fun _ => {}) s.stackUnits (8 * q + slot)
/-- Replace a stack. -/
def State.setStack (s : State) (q slot : Nat) (x : Stack) : State :=
  { s with stackUnits := mapSet (fun _ => {}) s.stackUnits (8 * q + slot) x }

/-- The state code of an island (R318). -/
def State.island (s : State) (q i : Nat) : Nat := mapGet islandDefault s.clk.islands (128 * q + i)
/-- Set the state code of an island. -/
def State.setIsland (s : State) (q i c : Nat) : State :=
  { s with clk := { s.clk with islands := mapSet islandDefault s.clk.islands (128 * q + i) c } }

/-! ## Places and time -/

/-- Do the straps read wrong: are the 19 bits even in parity (R407)? -/
def State.strapErr (s : State) : Bool := ((List.range 19).filter (fun i => bitAt s.power.straps i)).length % 2 == 0

/-- The quarter that runs module services (R349, R369). -/
def State.service (s : State) : Nat := s.field (mPage .modid) Reg.MODID_SVC 0 2

/-- The quarter whose journal takes a page's writes (R371). -/
def State.journalOf (s : State) (p : Page) : Nat := if p.win < 4 then p.win else s.service

/-- Pod time in counts (R253). -/
def State.podCount (s : State) : Nat := s.pod.count64 / 64

/-- Pod time after `d` ACLK: a count is one CCLK, steered by the rate (R253, R254). -/
def PodTime.after (p : PodTime) (d : Nat) : PodTime :=
  let v := ((d * 16 : Nat) : Int) * (1000000000 + p.rate) + p.rem
  { p with count64 := p.count64 + (v / 1000000000).toNat, rem := (v % 1000000000).toNat }

/-- The next free value's number; each use takes a new one (log entry 2). -/
def State.freshFree (s : State) : Nat × State := (Config.freeNat s.free, { s with free := s.free + 1 })

/-! ## The journal (R371 to R376) -/

/-- Is a journal event ring enabled for quarter q (R376, R312)? -/
def State.journalRingOn (s : State) (q : Nat) : Bool :=
  (List.range 8).any (fun n =>
    let c := s.num (mPage .host) (Reg.HOST_EVRn_CFG + 0x20 * n)
    bitAt c 31 && bitsOf c 5 3 == 1 && bitsOf c 8 2 == q)

/-- Is a sequence number at or below a mark? -/
def seqDone (mark : Option Nat) (seq : Nat) : Bool :=
  match mark with
  | none => false
  | some m => decide (seq ≤ m)

/-- Retire the entries that R376 lets leave the ring. -/
def State.retire (s : State) (q : Nat) : State :=
  let j := s.journal q
  let hostOn := s.journalRingOn q
  s.setJournal q { j with ring := j.ring.dropWhile (fun e =>
    seqDone j.flashSeq e.seq && (!hostOn || seqDone j.hostSeq e.seq)) }

/-- Append an entry: it takes the next SEQ and sets the page's JRNL_SEQ (R359, R375). -/
def State.journalAdd (s : State) (e : JEntry) : State :=
  let q := s.journalOf e.page
  let j := s.journal q
  let s := s.setJournal q { j with seq := (j.seq + 1) % 2 ^ 40, ring := j.ring ++ [{ e with seq := j.seq }] }
  if e.page.kind.isSome then s.setNum e.page Reg.HDR_JRNL_SEQ j.seq else s

/-- The entry of a write with an outcome. -/
def State.entry (s : State) (o : Origin) (p : Page) (off code : Nat) (old new : Word) : JEntry :=
  { time := s.podCount, seq := 0, origin := o, page := p, off := off, code := code, setWon := false, doorbell := false,
    held := false, rsvNz := false, old := old, new := new }

/-- A register change that the module makes from a message or by its own control processor, journalled as a write that
is performed (R321, R370, R371). -/
def State.journalled (s : State) (o : Origin) (p : Page) (off : Nat) (v : Word) : State :=
  (s.setReg p off v).journalAdd (s.entry o p off 0 (s.reg p off) v)

/-! ## What goes out -/

/-- Send something whose first bit leaves at ACLK `at_` (log entry 6, R340, R343). -/
def State.emitAt (s : State) (o : Out) (at_ : Nat) : State := { s with out := s.out ++ [o], outAt := s.outAt ++ [at_] }

/-- Send something: what a site port carries is accepted now, and its first bit leaves by R343. -/
def State.emit (s : State) (o : Out) : State := s.emitAt o (s.now + o.aclk)

end Sys2Proof.Machine
end

