-- ==== Sys2Proof/Machine/Flags.lean ====
section
/-! DEFINITION. Flags: event bits, their counts, alarms and pulses (R324, R356 to R358, R381), and trace records (R382, R383). -/

namespace Sys2Proof.Machine

/-- Bit i of a number that holds a flag there. -/
def flag (b : Bool) (i : Nat) : Nat := if b then 2 ^ i else 0

/-! ## Alarms and events (R356 to R358, R381, R324) -/

/-- Add an alarm to the record of its key, if that record is pending. -/
def coalesce (p : Page) (bit now : Nat) (forced : Bool) (sts : Word) : List Alarm → Option (List Alarm)
  | [] => none
  | a :: l =>
    if a.page = p ∧ a.bit = bit then
      some ({ a with last := now, count := min 0xFFFFFFFF (a.count + 1), forced := a.forced || forced, sts := sts } :: l)
    else (coalesce p bit now forced sts l).map (a :: ·)

/-- Place an alarm in its bit key, or in its page key when no bit key is free (R381). The answer tells whether a page key
took it. -/
def State.placeAlarm (s : State) (p : Page) (bit : Nat) (forced : Bool) : State × Bool :=
  let now := s.podCount
  let sts := s.reg p Reg.HDR_EVT_STS
  let evq := mPage .evq
  let put (l : List Alarm) : State := { s with events := { s.events with alarms := l } }
  match coalesce p bit now forced sts s.events.alarms with
  | some l => ((put l).addSat evq Reg.EVQ_ALARM_COALESCED 1, false)
  | none =>
    let fresh (b : Nat) (ovf : Bool) : Alarm :=
      { page := p, bit := b, first := now, last := now, count := 1, forced := forced, pageOvf := ovf, sts := sts }
    if (s.events.alarms.filter (fun a => a.bit ≠ 255)).length < 4096 then
      (put (s.events.alarms ++ [fresh bit false]), false)
    else
      match coalesce p 255 now forced sts s.events.alarms with
      | some l => (((put l).addSat evq Reg.EVQ_ALARM_COALESCED 1).addSat evq Reg.EVQ_ALARM_PAGE_OVF 1, true)
      | none => ((put (s.events.alarms ++ [fresh 255 true])).addSat evq Reg.EVQ_ALARM_PAGE_OVF 1, true)

/-- Set an EVT_STS bit in the page's own domain: count it, and raise an alarm if the bit is new and enabled (R356,
R358). The answer tells whether a page key took the alarm. -/
def State.setEvent (s : State) (p : Page) (bit : Nat) (forced : Bool) : State × Bool :=
  let old := s.bit p Reg.HDR_EVT_STS bit
  let s := ((s.note p Reg.HDR_EVT_STS 0 (2 ^ bit)).setBit p Reg.HDR_EVT_STS bit true).addSat p Reg.HDR_EVT_COUNT 1
  if !old && s.bit p Reg.HDR_EVT_EN bit then s.placeAlarm p bit forced else (s, false)

/-- Set an event, with the event of a page key taken (EVQ bit 0, R381, R385). -/
def State.setEvents (s : State) (p : Page) (bit : Nat) (forced : Bool) : State :=
  let r := s.setEvent p bit forced
  if r.2 then (r.1.setEvent (mPage .evq) 0 false).1 else r.1

/-- The ACLK length of a pulse's window into the register bus (R324, R356): three cycles of the slower of the block's clock
and CCLK. -/
def pulseWindow (p : Page) : Nat :=
  match p.kind with
  | none => 0
  | some k => 3 * max (if p.win < 4 then clockDiv (islandClock (quarterIsland k p.inst)) else 4) 4

/-- Hardware sets an EVT_STS bit by a pulse; a pulse launched in an open window merges (R324, R356). -/
def State.raise (s : State) (p : Page) (bit : Nat) : State :=
  let k := (p.win * 0x1000 + p.slot) * 32 + bit
  let live := s.pulses.filter (fun e => s.now < e.2)
  if live.any (fun e => e.1 == k) then { s with pulses := live }
  else
    let w := pulseWindow p
    ({ s with pulses := if w = 0 then live else live ++ [(k, s.now + w)] }).setEvents p bit false

/-- Raise each of a list of bits. -/
def State.raiseAll (s : State) (p : Page) (bits : List Nat) : State := bits.foldl (fun s b => s.raise p b) s

/-- Raise a bit if a condition holds. -/
def State.raiseIf (s : State) (c : Bool) (p : Page) (bit : Nat) : State := if c then s.raise p bit else s

/-! ## Trace (R382, R383) -/

/-- Emit a trace record if the queue is traced; a full staging discards it (R382, R383). A record is 32 bytes. -/
def State.traceEvent (s : State) (q n event code tag : Nat) : State :=
  let evq := mPage .evq
  if s.bit evq Reg.EVQ_EVQ_CTL 1 && s.bit evq (Reg.EVQ_TRACE_SELq_w + 0x20 * q + 4 * (n / 32)) (n % 32) then
    if 32 * (s.events.trace.length + 1) ≤ 0x100000 then
      { s with events := { s.events with trace := s.events.trace ++
        [{ time := s.podCount, quarter := q, queue := n, event := event, code := code, tag := tag }] } }
    else (s.addSat evq Reg.EVQ_TRACE_DROPS 1).raise evq 2
  else s

end Sys2Proof.Machine
end

