-- ==== Sys2Proof/Machine/Leases.lean ====
section
/-! DEFINITION. Leases, and the weight pages that they cover (R157, R158, R165). -/

namespace Sys2Proof.Machine

/-- Lease n. -/
def State.lease (s : State) (n : Nat) : Lease := mapGet (fun _ => {}) s.leases.held n
/-- Replace lease n. -/
def State.setLease (s : State) (n : Nat) (l : Lease) : State :=
  { s with leases := { s.leases with held := mapSet (fun _ => {}) s.leases.held n l } }

/-- Offset of a register of lease n (R165). -/
def leaseReg (base n : Nat) : Nat := base + 0x10 * (n - 1)

/-- The reads outstanding under lease n: HOLDS of R165. A segment whose write waits on a lease is not complete (R157). -/
def State.holds (s : State) (n : Nat) : Nat :=
  (s.lease n).holds + (s.leases.writes.filter (fun w => w.lent == n)).length

/-- Is lease n held: claimed, or read under (R157)? -/
def State.leaseHeld (s : State) (n : Nat) : Bool :=
  s.bit (mPage .lease) (leaseReg Reg.LEASE_Ln_CTL n) 0 || s.holds n != 0

/-- First weight page of lease n and the page after its last (R165). -/
def State.leaseRange (s : State) (n : Nat) : Nat × Nat :=
  let b := s.field (mPage .lease) (leaseReg Reg.LEASE_Ln_BASE n) 0 24
  (b, b + s.field (mPage .lease) (leaseReg Reg.LEASE_Ln_COUNT n) 0 25)

/-- The weight pages of `n` bytes at a local address: the first, and the one after the last; none outside the D tier. -/
def weightPages (a n : Nat) : Option (Nat × Nat) :=
  if n = 0 ∨ a < 0x10000000000 ∨ 0x20000000000 ≤ a then none
  else some ((a - 0x10000000000) / 0x10000, (a + n - 1 - 0x10000000000) / 0x10000 + 1)

/-- Does a held lease cover a page of the range (R158)? -/
def State.leaseCovers (s : State) (a n : Nat) : Bool :=
  match weightPages a n with
  | none => false
  | some (p, e) => (List.range 240).any (fun i =>
      s.leaseHeld (i + 1) && (let r := s.leaseRange (i + 1); decide (r.1 < e ∧ p < r.2)))

/-- Do two ranges share a weight page? -/
def sharePage (a n b m : Nat) : Bool :=
  match weightPages a n, weightPages b m with
  | some (p, e), some (r, f) => decide (p < f ∧ r < e)
  | _, _ => false

end Sys2Proof.Machine
end

