-- ==== Sys2Proof/Machine/Sched.lean ====
section
/-! DEFINITION. The scheduler of a pseudo-channel: routes, banks and slots (R211 to R214, R337, R338). -/

namespace Sys2Proof.Machine

/-- Ways of a slot (R207). -/
def stackWays (slot : Nat) : Nat := if slot < 6 then 3 else 1
/-- Banks of a pseudo-channel (R207). -/
def stackBanks (slot : Nat) : Nat := if slot < 6 then 64 else 32
/-- The memory port of a queue: an update engine's own, or the quarter's (R213). -/
def portOf (q n : Nat) : Nat × Nat := (q, if 160 ≤ n then n - 159 else 0)

/-- MCLK of the present (R316). -/
def State.mclk (s : State) : Nat := s.now / 3

/-- Lead, trip to the scheduler, and trip back of a route (R337), then read, write and merge path (R338). Port 0 is the
quarter's, port 1 + u is update engine u of the quarter; `pq` is the port's quarter. -/
structure Route where
  lead : Nat
  back : Nat
  read : Nat
  write : Nat
  merge : Nat
  deriving DecidableEq, Repr

/-- The route from a port to a stack (R337, R338). -/
def routeOf (pq port : Nat) (p : StackPlace) : Route :=
  if port = 0 then
    if p.quarter = pq then (if p.dTier then ⟨12, 8, 84, 48, 92⟩ else ⟨12, 8, 48, 36, 56⟩)
    else (if p.dTier then ⟨24, 20, 108, 72, 116⟩ else ⟨24, 20, 72, 60, 80⟩)
  else if p.quarter = pq then
    (if p.dTier then (if p.stack = (port - 1) / 2 then ⟨2, 1, 64, 28, 72⟩ else ⟨24, 20, 108, 72, 116⟩)
     else ⟨24, 20, 72, 60, 80⟩)
  else (if p.dTier then ⟨36, 32, 132, 96, 140⟩ else ⟨36, 32, 96, 84, 104⟩)

/-- Does a write of these bytes cover some codeword in part (R215)? -/
def isMerge (ws : List (Nat × Byte)) : Bool :=
  (List.range 4).any (fun c =>
    let n := ((List.range 16).filter (fun i => ws.any (fun w => w.1 == 16 * c + i))).length
    n != 0 && n != 16)

/-- Does a write of `n` bytes from `a` cover some codeword of a line in part (R215)? -/
def mergesLine (a n line : Nat) : Bool :=
  (decide (line < a) && a % 16 != 0) || (decide (a + n < line + 64) && (a + n) % 16 != 0)

/-- MCLK for which an access keeps its bank busy (R212). -/
def MemReq.hold (r : MemReq) : Nat := if r.isWrite && r.merge then 40 else 20

/-- Does a request access this bank? -/
def MemReq.inBank (r : MemReq) (pc bank : Nat) : Bool :=
  match stackPlace r.addr with
  | some p => p.pc == pc && p.bank == bank
  | none => false

/-- Does an access that takes a bank at `slot` for `h` MCLK meet one already assigned (R212)? -/
def Stack.bankTaken (x : Stack) (pc bank slot h : Nat) : Bool :=
  decide (slot < mapGet (fun _ => 0) x.busy (64 * pc + bank)) ||
  x.reqs.any (fun r => r.inBank pc bank && decide (slot < r.slot + r.hold ∧ r.slot < slot + h))

/-- Can an access with hold `h` take a slot, as far as its bank goes: no assigned access or refresh keeps it busy, and
it would not run into one already assigned (R212)? -/
def Stack.bankFree (x : Stack) (pc bank slot h : Nat) (banks : Nat) : Bool :=
  !x.bankTaken pc bank slot h &&
  (let n := slot - x.trainedAt
   !(decide (n % 64 < 20) && decide (n / 64 % 8 = bank / (banks / 8))))

/-- Ways of a slot that are assigned. -/
def Stack.waysUsed (x : Stack) (pc slot : Nat) : Nat :=
  (x.reqs.filter (fun r => r.slot == slot && (stackPlace r.addr).map (·.pc) == some pc)).length

/-- The first slot from `slot` that a request can take, with fuel, and the slots passed over for a busy bank alone
(R213). -/
def Stack.findSlot (x : Stack) (pc bank h ways banks : Nat) : Nat → Nat → List Nat → Nat × List Nat
  | 0, slot, skipped => (slot, skipped)
  | k + 1, slot, skipped =>
    let w := (slot - x.trainedAt) % 64
    if w = 0 ∨ w = 32 ∨ x.waysUsed pc slot ≥ ways then x.findSlot pc bank h ways banks k (slot + 1) skipped
    else if x.bankFree pc bank slot h banks then (slot, skipped)
    else x.findSlot pc bank h ways banks k (slot + 1) (skipped ++ [slot])

/-- Engines' accesses that have ended are forgotten. -/
def Stack.forget (x : Stack) (now : Nat) : Stack :=
  { x with reqs := x.reqs.filter (fun r => !r.own || decide (now < r.slot + r.hold) ||
             r.sent.any (fun a => decide (now < a + r.path)))
           waits := x.waits.filter (fun m => decide (now ≤ m)) }

/-- Assign a request a way of the earliest slot from `first` on that it can take, after every one of its line (R213, R214):
the request, the stack, and the MCLK that BANK_WAIT gains. -/
def Stack.assign (x : Stack) (p : StackPlace) (now first : Nat) (r : MemReq) : MemReq × Stack × Nat :=
  let x := x.forget now
  let first := x.reqs.foldl (fun m o => if o.addr = r.addr then max m (o.slot + 1) else m) first
  let f := x.findSlot p.pc p.bank r.hold (stackWays p.slot) (stackBanks p.slot) 65536 first []
  let r := { r with slot := f.1, way := x.waysUsed p.pc f.1 }
  let new := f.2.filter (fun m => !x.waits.contains m)
  (r, { x with reqs := x.reqs ++ [r], waits := x.waits ++ new }, new.length)

end Sys2Proof.Machine
end

