-- ==== Sys2Proof/Machine/MemOps.lean ====
section
/-! DEFINITION. Memory as the engines see it: reads with the check of R219, writes by codeword, and what the Fold and the stacks do when a codeword is in error (R98, R215 to R226). -/

namespace Sys2Proof.Machine

/-- The error pattern stored at codeword `c` (16-byte units of the local address). -/
def State.eccAt (s : State) (c : Nat) : Nat := mapGet (fun _ => 0) s.ecc c
/-- Store an error pattern; 0 is a clean codeword. -/
def State.setEcc (s : State) (c v : Nat) : State := { s with ecc := mapSet (fun _ => 0) s.ecc c v }

/-- Upsets found in stored codewords: each pattern is XORed in. -/
def State.upset (s : State) (flips : List (Nat × Nat)) : State :=
  flips.foldl (fun s f => s.setEcc f.1 (s.eccAt f.1 ^^^ (f.2 % 2 ^ 144))) s

/-- What the check of a stored codeword finds (R219). -/
def State.check (s : State) (c : Nat) : EccCheck :=
  if s.eccAt c = 0 then .clean else eccDecode (syndrome (s.eccAt c))

/-- Is the codeword delivered marked poisoned (R98, R223)? -/
def State.poisonedAt (s : State) (c : Nat) : Bool :=
  match s.check c with
  | .poisoned | .uncorrectable => true
  | _ => false

/-- The 16 bytes delivered from a codeword, corrected where R219 corrects. -/
def State.codeword (s : State) (c : Nat) : List Byte :=
  let base := memBytes s.mem (16 * c) 16
  if s.eccAt c = 0 then base
  else
    let r := match s.check c with
      | .fix j e => s.eccAt c ^^^ (e * 2 ^ (4 * j))
      | _ => s.eccAt c
    (base.zip (leBytes 16 (r % 2 ^ 128))).map (fun p => p.1 ^^^ p.2)

/-- Store a codeword as it is delivered, with valid check symbols: corrected, or as a miscorrection left it (R219, R222). -/
def State.absorb (s : State) (c : Nat) : State :=
  if s.eccAt c = 0 then s else { s with mem := memPut s.mem (16 * c) (s.codeword c) }.setEcc c 0

/-! ## Repair (R224, R225) -/

/-- Lines of a bank (R207). -/
def stackLines (slot : Nat) : Nat := if slot < 6 then 2 ^ 20 else 2 ^ 23

/-- The local address of a place: the inverse of R209 and R210. -/
def placeAddr (q slot pc bank index : Nat) : Nat :=
  if slot < 6 then
    let m := index * 64 + (bank ^^^ bitsOf index 0 6 ^^^ bitsOf index 6 6 ^^^ bitsOf index 12 6)
    fSize * q + 64 * (48 * m + (pc * 6 + slot))
  else
    let m := index * 32 + (bank ^^^ bitsOf index 0 5 ^^^ bitsOf index 5 5 ^^^ bitsOf index 10 5 ^^^ bitsOf index 15 5)
    let u := pc * 2 + (slot - 6)
    dBase q + 64 * (16 * m + (u ^^^ bitsOf m 0 4 ^^^ bitsOf m 4 4))

/-- Spare units used in a bank. -/
def Stack.usedIn (x : Stack) (pc bank : Nat) : Nat :=
  (x.repairs.filter (fun r => r.pc = pc ∧ r.bank = bank)).length

/-- The fewest free spare units in any bank (R232). -/
def Stack.minFree (x : Stack) : Nat := x.repairs.foldl (fun m r => min m (32 - x.usedIn r.pc r.bank)) 32

/-- Is a repair copy in progress? -/
def Stack.copying (x : Stack) : Bool := x.repairs.any (fun r => !r.copied)

/-- Soft repair of the unit that holds a line (R224): REPAIR_FAIL without a free spare, SPARES_LOW and its advice as spares
run out (R469). -/
def State.softRepair (s : State) (a : Nat) : State :=
  match stackPlace a with
  | none => s
  | some p =>
    let page := qPage .nmem p.quarter p.slot
    let x := s.stack p.quarter p.slot
    let used := x.usedIn p.pc p.bank
    if used ≥ 32 then s.raise page 5
    else
      let r : Repair := { pc := p.pc, bank := p.bank, unit := p.index / 16, spare := used, lines := 0, copied := false }
      let low := decide (32 - (used + 1) < 4)
      let s := (s.setStack p.quarter p.slot { x with repairs := x.repairs ++ [r], recorded := x.recorded ++ [r]
                                                     hardPending := true }).raiseIf low page 4
      if low then s.setBit (mPage .fault) Reg.FAULT_ADVISE 1 true else s

/-- Is the unit of a place among the repairs that a test selects? -/
def Stack.repaired (x : Stack) (p : StackPlace) (t : Repair → Bool) : Bool :=
  x.repairs.any (fun r => r.pc == p.pc && r.bank == p.bank && r.unit == p.index / 16 && t r)

/-- Count a correction against a repair unit, among the 256 most recent (R224); the answer is the unit's count. -/
def Stack.countUnit (x : Stack) (k : Nat) : Nat × Stack :=
  let n := ((x.counts.find? (fun e => e.1 == k)).map Prod.snd).getD 0 + 1
  (n, { x with counts := ((k, n) :: x.counts.filter (fun e => e.1 != k)).take 256 })

/-- The unit key of a place. -/
def StackPlace.unitKey (p : StackPlace) : Nat := (p.pc * 64 + p.bank) * 2 ^ 20 + p.index / 16

/-! ## Errors found by a read -/

/-- A correctable codeword of a stack (R222, R224, R226); `queue` is false for the read of a merge (R215). -/
def State.stackCe (s : State) (p : StackPlace) (line c way j e : Nat) (queue : Bool) : State :=
  let page := qPage .nmem p.quarter p.slot
  let x := s.stack p.quarter p.slot
  let mine := (x.writeBacks.filter (fun l => (stackPlace l).map (·.pc) = some p.pc)).length
  let x := if queue && decide (mine < 16) && !x.writeBacks.contains line then
    { x with writeBacks := x.writeBacks ++ [line] } else x
  let k := (6 * p.pc + 2 * way + c % 2) * 36 + j
  let live := ((mapGet (fun _ => []) x.pinHits k).filter (fun t => s.now < t + 3600000000)) ++ [s.now]
  let x := { x with pinHits := mapSet (fun _ => []) x.pinHits k live }
  let cnt := x.countUnit p.unitKey
  let thr := s.field page Reg.NMEM_CE_THRESH 0 8
  let s := ((((s.setStack p.quarter p.slot cnt.2).addSat page Reg.NMEM_ECC_CE 1).setNum page Reg.NMEM_CE_ADDR_LO line).setNum
    page Reg.NMEM_CE_ADDR_HI (line / 2 ^ 32)).setNum page Reg.NMEM_CE_INFO
    (j + 64 * c + 256 * e + 4096 * p.pc + 32768 * way)
  let s := s.raise page 0
  if thr ≠ 0 ∧ thr ≤ cnt.1 ∧ s.bit page Reg.NMEM_MEM_CTL 0 ∧ !x.repaired p (fun _ => true) then s.softRepair line else s

/-- An uncorrectable codeword of a stack (R223, R224): a unit whose copy is not complete is not repaired again. `rewrite`
queues the poison rewrite. -/
def State.stackUe (s : State) (p : StackPlace) (line c cw : Nat) (rewrite : Bool) : State :=
  let page := qPage .nmem p.quarter p.slot
  let x := s.stack p.quarter p.slot
  let x := if rewrite && !x.rewrites.contains cw then { x with rewrites := x.rewrites ++ [cw] } else x
  let s := ((((s.setStack p.quarter p.slot x).addSat page Reg.NMEM_ECC_UE 1).setNum page Reg.NMEM_UE_ADDR_LO line).setNum
    page Reg.NMEM_UE_ADDR_HI (line / 2 ^ 32)).setNum page Reg.NMEM_UE_SYND
    ((syndrome (s.eccAt cw)).packed + 65536 * c)
  let s := s.raise page 1
  let s := if p.dTier then { s with train := { s.train with ueLines := s.train.ueLines ++ [line] } } else s
  if s.bit page Reg.NMEM_MEM_CTL 0 ∧ !x.repaired p (fun r => !r.copied) then s.softRepair line else s

/-- The way by which a codeword was read, where no slot of the model carried it: a free value on an F stack. -/
def State.freeWay (s : State) (p : StackPlace) : Nat := if p.dTier then 0 else Config.freeNat s.free % 3

/-- What a read of a codeword counts and records (R98, R222, R223), by `way` of the slot. -/
def State.noteCodewordBy (s : State) (cw : Nat) (way : Option Nat) (queue : Bool) : State :=
  if s.eccAt cw = 0 then s
  else
    let line := 16 * cw / 64 * 64
    match regionOf line with
    | .fold q o =>
      let page := qPage .fold q 0
      match s.check cw with
      | .clean => s
      | .fix _ _ =>
        let s := ((s.addSat page Reg.FOLD_ECC_CE 1).setNum page Reg.FOLD_CE_ADDR o).raise page 0
        let f := s.compute.fold
        if f.writeBacks.contains line then s else s.setFold { f with writeBacks := f.writeBacks ++ [line] }
      | .poisoned => (s.addSat page Reg.FOLD_POISON_RD 1).raise page 3
      | .uncorrectable => ((s.addSat page Reg.FOLD_ECC_UE 1).setNum page Reg.FOLD_UE_ADDR o).raise page 1
    | _ =>
      match stackPlace line with
      | none => s
      | some p =>
        let page := qPage .nmem p.quarter p.slot
        match s.check cw with
        | .clean => s
        | .fix j e => s.stackCe p line (cw % 4) (way.getD (s.freeWay p)) j e queue
        | .poisoned => (s.addSat page Reg.NMEM_POISON_RD 1).raise page 2
        | .uncorrectable => s.stackUe p line (cw % 4) cw queue

/-- The codewords that `n` bytes from `a` touch. -/
def codewordsOf (a n : Nat) : List Nat :=
  if n = 0 then [] else (List.range ((a + n - 1) / 16 + 1 - a / 16)).map (fun i => a / 16 + i)

/-- The lines that `n` bytes from `a` touch. -/
def linesOf (a n : Nat) : List Nat :=
  if n = 0 then [] else (List.range ((a + n - 1) / 64 + 1 - a / 64)).map (fun i => 64 * (a / 64 + i))

/-! ## Writes -/

/-- What a write of `cover` bytes of a codeword does to its check symbols: a codeword written whole is clean; the other
errors of the Fold stay (R98). A merge write of a stack reads and checks the line as any read does, and what it could
not correct it stores poisoned (R215). -/
def State.settleCodeword (s : State) (way : Option Nat) (c cover : Nat) (merge : Bool) : State :=
  if s.eccAt c = 0 then s
  else
    match regionOf (16 * c) with
    | .fold _ _ => if cover = 16 then s.setEcc c 0 else s
    | .none | .window _ => s
    | _ =>
      let bad := s.poisonedAt c
      if merge then
        let s := s.noteCodewordBy c way false
        if cover = 16 then s.setEcc c 0 else if bad then s.setEcc c poisonMark else s.absorb c
      else if cover = 16 then s.setEcc c 0 else s

/-- What a write by `way` does to the check symbols of a line; `cover i` is the bytes that it writes of codeword i. -/
def State.settleLine (s : State) (way : Option Nat) (line : Nat) (cover : Nat → Nat) : State :=
  let merge := (List.range 4).any (fun i => decide (0 < cover i ∧ cover i < 16))
  (List.range 4).foldl (fun s i => s.settleCodeword way (line / 16 + i) (cover i) merge) s

/-- A write to a line drops the corrections of it that wait for a slot (R389), and a plain write of a whole codeword the
poison that waits for it (R215, R223). -/
def State.dropWriteBacks (s : State) (a n : Nat) : State :=
  if n = 0 then s
  else
    let hit (l : Nat) : Bool := decide (l < a + n ∧ a < l + 64)
    match regionOf a with
    | .fold q _ =>
      let f := s.compute.fold
      let gone := (f.writeBacks.filter hit).length
      if gone = 0 then s
      else (s.setFold { f with writeBacks := f.writeBacks.filter (fun l => !hit l) }).addSat
        (qPage .bgnd q 0) Reg.BGND_WB_DROPPED gone
    | _ =>
      (List.range 8).foldl (fun s i =>
        match stackPlace (a / 64 * 64) with
        | none => s
        | some p =>
          let x := s.stack p.quarter i
          let gone := (x.writeBacks.filter hit).length
          let whole (c : Nat) : Bool := decide (a ≤ 16 * c ∧ 16 * c + 16 ≤ a + n)
          let s := if x.rewrites.any whole then
            s.setStack p.quarter i { x with rewrites := x.rewrites.filter (fun c => !whole c) } else s
          let x := s.stack p.quarter i
          if gone = 0 then s
          else (s.setStack p.quarter i { x with writeBacks := x.writeBacks.filter (fun l => !hit l) }).addSat
            (qPage .bgnd p.quarter 0) Reg.BGND_WB_DROPPED gone) s

/-- Write some bytes of a line, by lane (R97, R215). -/
def State.writeLanes (s : State) (way : Option Nat) (line : Nat) (ws : List (Nat × Byte)) : State :=
  let cover (c : Nat) : Nat := ((List.range 16).filter (fun i => ws.any (fun w => w.1 % 64 == 16 * c + i))).length
  let s := (List.range 4).foldl (fun s c => if cover c = 0 then s else
    s.dropWriteBacks (line + 16 * c) (if cover c = 16 then 16 else 1)) s
  let s := s.settleLine way line cover
  { s with mem := ws.foldl (fun m w => memSet m (line + w.1 % 64) w.2) s.mem }

/-! ## Accesses of the schedulers (R213 to R215) -/

/-- The check that a read of a line makes, by `way` of its slot (R219, R222, R223). -/
def State.noteLine (s : State) (line : Nat) (way : Option Nat) : State :=
  (List.range 4).foldl (fun s c => s.noteCodewordBy (line / 16 + c) way true) s

/-- What an access does in its slot: a read checks its line, a write is stored. -/
def State.performReq (s : State) (r : MemReq) : State :=
  if r.isWrite then s.writeLanes (some r.way) r.addr r.write else s.noteLine r.addr (some r.way)

/-- May an assigned access be performed: nothing has performed it, and no lease keeps it back (R158, R214)? -/
def State.mayPerform (s : State) (r : MemReq) : Bool :=
  !r.done_ && !(r.isWrite && r.sent.isNone && s.leaseCovers r.addr 64)

/-- The accesses assigned to a line are performed before a later one (R214). -/
def State.flushLine (s : State) (line : Nat) : State :=
  match stackPlace line with
  | none => s
  | some p =>
    let x := s.stack p.quarter p.slot
    let mine (r : MemReq) : Bool := r.addr == line && s.mayPerform r
    if x.reqs.any mine then
      let marked := x.reqs.map (fun r => if mine r then { r with done_ := true } else r)
      (x.reqs.filter mine).foldl State.performReq (s.setStack p.quarter p.slot { x with reqs := marked })
    else s

/-- The accesses assigned to the lines of `n` bytes from `a` are performed. -/
def State.flush (s : State) (a n : Nat) : State :=
  if s.stackUnits.all (fun e => e.2.reqs.isEmpty) then s else (linesOf a n).foldl State.flushLine s

/-- An engine's access to a line, through the port `via` (quarter and port; the stack's own quarter port where none is
named): the scheduler assigns its slot, which ACCEPTED, SLOT_WAIT and BANK_WAIT count (R213, R215, log entry 52). The
answer is the way. -/
def State.lineAccess (s : State) (via : Option (Nat × Nat)) (write merge : Bool) (line : Nat) : State × Option Nat :=
  match stackPlace line with
  | none => (s, none)
  | some p =>
    let x := s.stack p.quarter p.slot
    if !x.trained || x.sref then (s, none)
    else
      let v := via.getD (p.quarter, 0)
      let ro := routeOf v.1 v.2 p
      let r : MemReq := { addr := line, port := v.2, lead := ro.lead, isWrite := write, write := [], merge := merge,
                          path := if write then (if merge then ro.merge else ro.write) else ro.read,
                          slot := 0, way := 0, arrived := s.mclk + ro.back, done_ := true, own := true }
      let f := x.assign p s.mclk (r.arrived + ro.back + ro.lead) r
      let at_ := f.1.slot - ro.lead
      let page := qPage .nmem p.quarter p.slot
      let reqs := f.2.1.reqs.map (fun o => if o == f.1 then { o with sent := some at_ } else o)
      ((((s.setStack p.quarter p.slot { f.2.1 with reqs := reqs }).addSat page Reg.NMEM_ACCEPTED 1).addSat
        page Reg.NMEM_SLOT_WAIT (at_ - r.arrived)).addSat page Reg.NMEM_BANK_WAIT f.2.2, some f.1.way)

/-! ## Reads -/

/-- Read `n` bytes at a local address: the bytes delivered, with a mark on the bytes of poisoned codewords. -/
def State.readMarked (s : State) (a n : Nat) : List (Byte × Bool) :=
  let s := s.flush a n
  (((codewordsOf a n).flatMap (fun c =>
    let bad := s.poisonedAt c
    (s.codeword c).map (fun b => (b, bad)))).drop (a % 16)).take n

/-- The bytes delivered by a read. -/
def State.readBytes (s : State) (a n : Nat) : List Byte := (s.readMarked a n).map Prod.fst

/-- Is any byte of a read poisoned? -/
def State.readPoisoned (s : State) (a n : Nat) : Bool := let s := s.flush a n; (codewordsOf a n).any s.poisonedAt

/-- A little-endian number of `n` bytes as a read delivers it. -/
def State.readNat (s : State) (a n : Nat) : Nat := leNat (s.readBytes a n)

/-- What a read of `n` bytes through the port `via` counts and records: every codeword of the lines read is checked (R98,
R215, R222). -/
def State.noteReadBy (s : State) (via : Option (Nat × Nat)) (a n : Nat) : State :=
  (linesOf a n).foldl (fun s l => let r := s.lineAccess via false false l; r.1.noteLine l r.2) (s.flush a n)

/-- What a read of `n` bytes through the quarter port counts and records. -/
def State.noteRead (s : State) (a n : Nat) : State := s.noteReadBy none a n

/-! ## Whole writes -/

/-- Write bytes at a local address; `ways` gives the ways of the lines whose accesses had one. -/
def State.writeBytesBy (s : State) (ways : List (Nat × Option Nat)) (a : Nat) (bs : List Byte) : State :=
  let e := a + bs.length
  let s := (linesOf a bs.length).foldl (fun s l =>
    s.settleLine (mapGet (fun _ => none) ways l) l (fun i => min e (l + 16 * i + 16) - max a (l + 16 * i)))
      (s.flush a bs.length)
  { s.dropWriteBacks a bs.length with mem := memPut s.mem a bs }

/-- Write bytes at a local address. -/
def State.writeBytes (s : State) (a : Nat) (bs : List Byte) : State := s.writeBytesBy [] a bs

/-- Write a little-endian number of `n` bytes. -/
def State.writeNat (s : State) (a n v : Nat) : State := s.writeBytes a (leBytes n v)

/-- Mark poisoned every codeword that takes a marked byte (R116). -/
def State.markPoison (s : State) (a : Nat) (bs : List (Byte × Bool)) : State :=
  (bs.zipIdx).foldl (fun s p => if p.1.2 then s.setEcc ((a + p.2) / 16) poisonMark else s) s

/-- Store bytes with their poison marks (R116). -/
def State.storeMarked (s : State) (a : Nat) (bs : List (Byte × Bool)) : State :=
  (s.writeBytes a (bs.map Prod.fst)).markPoison a bs

/-- The accesses that a unit makes through the port `via` to write `n` bytes, one a line, with their ways (R213, R215). -/
def State.countWrites (s : State) (via : Option (Nat × Nat)) (a n : Nat) : State × List (Nat × Option Nat) :=
  (linesOf a n).foldl (fun r l =>
    let f := r.1.lineAccess via true (mergesLine a n l) l
    (f.1, r.2 ++ [(l, f.2)])) (s.flush a n, [])

/-- Write bytes with their poison marks through the port `via`, one access a line (R116, R215). -/
def State.writeMarkedBy (s : State) (via : Option (Nat × Nat)) (a : Nat) (bs : List (Byte × Bool)) : State :=
  let r := s.countWrites via a bs.length
  (r.1.writeBytesBy r.2 a (bs.map Prod.fst)).markPoison a bs

/-- Write bytes with their poison marks through the quarter port. -/
def State.writeMarked (s : State) (a : Nat) (bs : List (Byte × Bool)) : State := s.writeMarkedBy none a bs

/-- Are `n` bytes at a local address populated, in one region (R99, R208)? -/
def populated (a n : Nat) : Bool :=
  n == 0 ||
  match regionOf a, regionOf (a + n - 1) with
  | .fTier _ _, .fTier _ _ => true
  | .dTier _ _, .dTier _ _ => true
  | .fold q _, .fold r _ => q == r
  | _, _ => false

/-- The Fold page records an access to an unpopulated offset of its window (R99). -/
def State.noteAddrError (s : State) (a : Nat) : State :=
  if 0x20000000000 ≤ a ∧ a < 0x20040000000 then s.raise (qPage .fold ((a - 0x20000000000) / 0x10000000) 0) 2 else s

end Sys2Proof.Machine
end

