-- ==== Sys2Proof/Machine/Payload.lean ====
section
/-! DEFINITION. Payload lengths, credits, and whether a port stalls for them (R239, R240, R243 to R246). -/

namespace Sys2Proof.Machine

/-- Bytes of a TREE message's body (R244). -/
def TreeMsg.len : TreeMsg → Nat
  | .verdictUp .. | .verdictDown .. | .reportUp .. | .leadAnswer .. => 12
  | .preparedUp .. | .commitDown .. => 1032
  | .digestUp l => 4 + 24 * l.length
  | .digestDown l => 4 + 16 * l.length
  | .check | .bucketQuery => 0
  | .mismatchUp _ l => 4 + 16 * l.length
  | .heartbeat _ | .regen .. | .siteDown .. => 8
  | .bucketStateUp l => 4 + 8 * l.length
  | .siteUp .. => 64

/-- TYPE of a body (R239). READY and the send digests of a link check have no TYPE of their own in the spec: the model gives
them that of COLL (log entry 155). -/
def Body.type : Body → Nat
  | .write .. => 1
  | .readReq .. => 2
  | .readResp .. => 3
  | .sig .. => 4
  | .coll .. | .ready _ | .sendDigest .. => 5
  | .tree .. => 6
  | .time _ => 7
  | .ctrl _ => 8
  | .disc _ => 9
  | .mend .. => 10

/-- The largest message code of a control body's TYPE, and the smallest (R243 to R245); none of a body without codes. -/
def Body.codes : Body → Option (Nat × Nat)
  | .tree .. => some (1, 15)
  | .time _ => some (0, 4)
  | .disc _ => some (1, 9)
  | _ => none

/-- Frames that a body takes: the fragments of a TREE message (R244), one frame of any other body. -/
def Body.frames : Body → Nat
  | .tree _ m => max 1 ((m.len + 4079) / 4080)
  | _ => 1

/-- Payload bytes of a body, over all its frames (R239, R243 to R246). -/
def Body.len : Body → Nat
  | .write _ _ bs | .readResp _ _ bs => bs.length
  | .coll _ bs => bs.length
  | .tree h m => 16 * (Body.tree h m).frames + m.len
  | .time _ => 32
  | .disc m =>
    match m with
    | .hello .. | .probeAnswer .. => 16
    | .candidate .. | .tackReply .. => 8
    | .neighTable .. => 208
    | .config _ => 80
    | .tack .. => 16
    | .topoConfirm .. => 9
    | .leadProbe _ => 4
  | .mend _ rs => 16 * rs.length
  | .sendDigest .. => 8
  | _ => 0

/-- Payload bytes of a frame: of one fragment, where its body has several (R244). -/
def Frame.len (f : Frame) : Nat :=
  match f.body with
  | .tree _ m => 16 + min 4080 (m.len - 4080 * f.frag)
  | b => b.len

/-- Does a field break the framing of R237 and R238? The MAC addresses are no reason to drop a frame. -/
def rxBreaks (b : Body) : RxField → Bool
  | .destination _ | .source _ | .code _ | .short => false
  | .etherType n => n != 0x88B5
  | .fcs | .reserved => true
  | .version n => n != 1
  | .type n => n != b.type
  | .len n => n != b.len

/-- Does a field make a control frame one that its receiver drops: a reserved code, or too short a payload (R243 to R246)? -/
def rxRefused (b : Body) : RxField → Bool
  | .code n => b.codes.any (fun c => decide (n < c.1 ∨ c.2 < n))
  | .short => b.codes.isSome || b.type == 10
  | _ => false

/-- Payload bytes of the largest frame that carries a body. -/
def Body.frameLen (b : Body) : Nat := min 4096 b.len

/-- Is a received frame dropped under R237: a field that breaks it, a class or a lane of none, a payload that its body may
not have (R238, R239)? -/
def rxBad (h : RxHdr) (b : Body) : Bool :=
  h.raw.any (rxBreaks b) || decide (2 < h.cls ∨ 7 < h.vl) ||
  (match b with
    | .write _ _ bs => decide (4096 < bs.length ∨ bs.length % 16 ≠ 0)
    | .readResp _ _ bs => decide (4096 < bs.length)
    | .coll _ bs => decide (4096 < bs.length)
    | .mend _ rs => decide (4096 < 16 * rs.length)
    | _ => false)

/-- The frames that carry a frame's body: a TREE message's fragments, in order (R244). -/
def Frame.fragments (f : Frame) : List Frame := (List.range f.body.frames).map (fun i => { f with frag := i })

/-- Credits that a frame occupies (R240). -/
def Frame.credits (f : Frame) : Nat := (64 + f.len + 63) / 64

/-- Credits that a body occupies over all its frames (R240). -/
def Body.credits (b : Body) : Nat :=
  match b with
  | .tree _ m => (List.range b.frames).foldl (fun n i => n + (64 + (16 + min 4080 (m.len - 4080 * i)) + 63) / 64) 0
  | _ => (64 + b.len + 63) / 64

/-- Buffer credits of a lane and class, in 64-byte units (R240). -/
def fullCredits (vl cls : Nat) : Nat := if vl < 6 ∧ cls < 2 then 768 else 256

/-- Does a port hold the credits of a frame (R240)? -/
def Port.affords (x : Port) (f : Frame) : Bool :=
  decide (f.credits ≤ mapGet (fun _ => 0) x.credits (3 * f.vl + f.cls))

/-- Does a frame that could go wait for credits (CREDIT_STALL of R240)? -/
def Port.stalled (x : Port) (now : Nat) : Bool := x.waiting.any (fun w => decide (w.ready ≤ now) && !x.affords w.frame)

/-- MCLK that the payload of a frame above 64 bytes adds at a stage that stores and forwards it (R340). -/
def serialMclk (len : Nat) : Nat := (3 * (len - 64) + 124) / 125

end Sys2Proof.Machine
end

