-- ==== Sys2Proof/Machine/PathTime.lean ====
section
/-! DEFINITION. Path times of memory, registers and packets, in ACLK (R335, R338 to R344). -/

namespace Sys2Proof.Machine

/-- ACLK from a frame's acceptance at its source, or at a forwarding module, to its first bit on the wire (R340). -/
def sourceAclk : Nat := 396

/-- ACLK of a seam between two quarters: 12 MCLK, none within one (R339, R340). -/
def seamAclk (q p : Nat) : Nat := if q = p then 0 else 36

/-- The quarter whose memory or Fold a local address names; `q` for any other address. -/
def quarterOf (q a : Nat) : Nat :=
  match regionOf a with
  | .fTier x _ | .dTier x _ | .fold x _ => x
  | _ => q

/-- ACLK of a read at an address from the port of its own quarter (R335, R338). -/
def readAclk (a : Nat) : Nat :=
  match stackPlace a with
  | some p => 3 * (routeOf p.quarter 0 p).read
  | none => 18

/-- ACLK by which a delivered write of n bytes at an address becomes visible and its answer may leave (R340, R341): 24 MCLK for a
Fold write, 12 MCLK and the write path for a memory tier. -/
def writeAclk (a n : Nat) : Nat :=
  match stackPlace a with
  | some p =>
    let r := routeOf p.quarter 0 p
    3 * (12 + if a % 16 = 0 ∧ n % 16 = 0 then r.write else r.merge)
  | none => 72

/-- ACLK after its release at which the answer of a write of n bytes, or of a read, may leave the port of quarter q (R340,
R341). -/
def targetAclk (q a n : Nat) (isWrite : Bool) : Nat :=
  2 * seamAclk q (quarterOf q a) + (if isWrite then writeAclk a n else 72 + readAclk a)

/-- ACLK from the bus grant to the data of a register read by an origin of quarter q (R344). -/
def State.regAclk (s : State) (q : Nat) (p : Page) : Nat :=
  let far := if p.win < 4 then p.win else s.service
  let island := match p.kind with
    | some k => if p.win < 4 then quarterIsland k p.inst else 108
    | none => 108
  4 * ((if p = mPage .clkdir then 31 else if island = 108 then 27 else if 109 ≤ island then 41 else 33) +
    (if far = q then 0 else 18))

/-- ACLK from a host request's last bit to the first bit of its READ response (R343): registers one after another, or a read of
memory and a packet. -/
def State.hostReadAclk (s : State) (q : Nat) : List Action → Nat
  | [] => 0
  | .reg r :: l => s.regAclk q r.page + s.hostReadAclk q l
  | .memRead _ a _ :: _ | .fetchAdd _ a _ :: _ => 2 * seamAclk q (quarterOf q a) + readAclk a
  | _ :: l => s.hostReadAclk q l

/-- MCLK that F wire bytes take on a site port at 200 Gb/s (R343). -/
def siteSerialMclk (f : Nat) : Nat := (6 * f + 124) / 125

end Sys2Proof.Machine
end

