-- ==== Sys2Proof/Machine/Fields.lean ====
section
/-! DEFINITION. The fields of a descriptor (R63, R114), and those of a tile with the beats they come to (R44, R59, R72). -/

namespace Sys2Proof.Machine

/-- Word i of a descriptor. -/
def dw (d : Desc) (i : Nat) : Nat := (d.extractLsb' (32 * i) 32).toNat

/-- Bits `lo` to `lo + w - 1` of word i of a descriptor. -/
def df (d : Desc) (i lo w : Nat) : Nat := bitsOf (dw d i) lo w

/-- One bit of word i of a descriptor. -/
def db (d : Desc) (i b : Nat) : Bool := bitAt (dw d i) b

/-- A 64-bit field in words i and i + 1. -/
def dq (d : Desc) (i : Nat) : Nat := dw d i + 2 ^ 32 * dw d (i + 1)

/-- OP of a descriptor (R114). -/
def dOp (d : Desc) : Nat := df d 0 0 4
/-- TAG of a descriptor (R63, R114). -/
def dTag (d : Desc) : Nat := df d 1 16 16
/-- SIG of a descriptor (R63, R114). -/
def dSig (d : Desc) : Nat := df d 15 16 12
/-- RNG_STREAM of a descriptor (R63, R114). -/
def dStream (d : Desc) : Nat := df d 15 0 16

/-- A descriptor from the bytes of its line. -/
def descOf (bs : List Byte) : Desc := BitVec.ofNat 512 (leNat bs)

/-- Dot width D of R44. -/
def Fmt.dot : Fmt → Nat
  | .bf16 | .fp16 => 2
  | .sq4e2 => 8
  | _ => 4

/-- Reduction elements of a tile (R59). -/
def tileK (d : Desc) (f : Fmt) : Nat := (df d 1 0 16 + 1) * (if f.isBlock then blockLen (db d 0 12) else 32)

/-- Beats of a tile (R44). -/
def tileBeats (d : Desc) (f : Fmt) : Nat := tileK d f / f.dot

/-- One operand's fields in a tile descriptor: mode, keep, reuse, and the four address words. -/
structure TileSide where
  mode : Nat
  keep : Bool
  reuse : Bool
  elem : Nat
  elemStride : Nat
  scale : Nat
  scaleStride : Nat
  mask : Nat
  deriving DecidableEq, Repr

/-- The A side of a tile descriptor (R63). -/
def sideA (d : Desc) : TileSide :=
  { mode := df d 0 19 2, keep := db d 0 23, reuse := db d 0 24, elem := dw d 2, elemStride := dw d 3, scale := dw d 4,
    scaleStride := dw d 5, mask := dw d 13 }

/-- The B side of a tile descriptor (R63). -/
def sideB (d : Desc) : TileSide :=
  { mode := df d 0 21 2, keep := db d 0 25, reuse := db d 0 26, elem := dw d 6, elemStride := dw d 7, scale := dw d 8,
    scaleStride := dw d 9, mask := dw d 14 }

/-- B of a tile descriptor (R44). -/
def descBeats (d : Desc) : Nat := tileBeats d ((fmtOf (df d 0 4 4)).getD .bf16)

end Sys2Proof.Machine
end

