-- ==== Sys2Proof/Machine/TileTime.lean ====
section
/-! DEFINITION. The times of a tile: the supply of its feeders, holds and elastic links, drains and completion (R45 to R51, R61, R78, R334). -/

namespace Sys2Proof.Machine

/-! ## Supply, holds and elastic links (R46, R50, R51, R78, R334) -/

/-- The rows or columns of a mask. -/
def maskList (m : Nat) : List Nat := (List.range 32).filter (fun i => bitAt m i)

/-- The 64-byte lines of elements and scales that the first `n` beats of a directly read row need, and those of a mode-2 row
(R44, R334). -/
def feedLines (f : Fmt) (bsz : Bool) (mode n : Nat) : Nat :=
  let d := f.dot
  if mode = 0 then
    (n * d * f.width / 8 + 63) / 64 + (if f.isBlock then ((n * d + blockLen bsz - 1) / blockLen bsz + 63) / 64 else 0)
  else (2 * d * n + 63) / 64

/-- The ACLK at which a feeder holds beat `k` of its operand, when its reads or its mangle's stream begin at `start` (R78,
R334): `late` gives, by feeder and beat, the ACLK that the Fold keeps that beat and all later ones waiting. -/
def supplyAt (x : TileSide) (f : Fmt) (bsz : Bool) (start feeder k : Nat) (late : List (Nat × Nat × Nat)) : Nat :=
  let wait := ((late.filter (fun e => e.1 == feeder && decide (e.2.1 ≤ k))).map (·.2.2)).sum
  if x.reuse then 0
  else if x.mode = 1 then start + 2 * (24 + (64 * (k + 1) * f.dot + 511) / 512) + wait
  else start + 18 + feedLines f bsz x.mode (k + 1) - 1 + (if x.mode = 2 then 3 else 0) + wait

/-- The beats that each feeder has presented, with what has been held, filled and taken. -/
structure Links where
  a : List Nat
  b : List Nat
  flow : TileFlow
  deriving DecidableEq, Repr

/-- One cycle of the skewed array (R45, R50): in cycle 4 + r + `tau` row feeder r, and in cycle 4 + c + `tau` column feeder c,
presents its next beat or holds. It holds when its queue lacks the beat, or when a link of its row or column holds 8 unused
beats: those that have arrived at a cell beyond what the other operand has let it use. -/
def Links.step (beats : Nat) (rows cols : List Nat) (supA supB : Nat → Nat → Nat) (tau : Nat) (l : Links) : Links :=
  let a (r : Nat) : Nat := l.a.getD r 0
  let b (c : Nat) : Nat := l.b.getD c 0
  let goA (r : Nat) : Bool := decide (a r < beats ∧ supA r (a r) ≤ 4 + r + tau) && cols.all (fun c => decide (a r < b c + 8))
  let goB (c : Nat) : Bool := decide (b c < beats ∧ supB c (b c) ≤ 4 + c + tau) && rows.all (fun r => decide (b c < a r + 8))
  let a' := (List.range 32).map (fun r => a r + (if rows.contains r && goA r then 1 else 0))
  let b' := (List.range 32).map (fun c => b c + (if cols.contains c && goB c then 1 else 0))
  let cells := rows.flatMap (fun r => cols.map (fun c => (r, c)))
  let full (x y x' y' : Nat) : Bool := decide (x < y + 8 ∧ y' + 8 ≤ x')
  let fillA := cells.filter (fun p => full (a p.1) (b p.2) (a'.getD p.1 0) (b'.getD p.2 0))
  let fillB := cells.filter (fun p => full (b p.2) (a p.1) (b'.getD p.2 0) (a'.getD p.1 0))
  let taken := cells.filter (fun p => decide (min (a p.1) (b p.2) < min (a'.getD p.1 0) (b'.getD p.2 0)))
  let at_ (p : Nat × Nat) : Nat := 4 + p.1 + p.2 + tau
  let held (mine : List Nat) (n : Nat → Nat) (go : Nat → Bool) (h : List (List Nat)) : List (List Nat) :=
    (List.range 32).map (fun i =>
      h.getD i [] ++ (if mine.contains i && decide (n i < beats) && !go i then [4 + i + tau] else []))
  { a := a', b := b'
    flow := { rows := held rows a goA l.flow.rows
              cols := held cols b goB l.flow.cols
              fills := l.flow.fills ++ (fillA ++ fillB).map at_
              takes := (l.flow.takes ++ taken.map at_).eraseDups } }

/-- The cycles of R48 in which some cell of a tile without holds takes a beat. -/
def steadyTakes (beats : Nat) (rows cols : List Nat) : List Nat :=
  let skews := (rows.flatMap (fun r => cols.map (fun c => r + c))).eraseDups
  ((List.range (beats + 66)).filter (fun o => skews.any (fun k => decide (4 + k ≤ o ∧ o < 4 + k + beats))))

/-- What a tile's feeders and links do, given when each beat is in its feeder, in ACLK from acceptance (R50, R51). Without a
late beat nothing holds. -/
def tileFlow (beats : Nat) (rows cols : List Nat) (supA supB : Nat → Nat → Nat) : TileFlow :=
  let late (mine : List Nat) (sup : Nat → Nat → Nat) : Bool :=
    mine.any (fun i => (List.range beats).any (fun k => decide (4 + i + k < sup i k)))
  if late rows supA || late cols supB then
    let last (mine : List Nat) (sup : Nat → Nat → Nat) : Nat := mine.foldl (fun m i => max m (sup i (beats - 1))) 0
    let fuel := max (last rows supA) (last cols supB) + beats
    ((List.range fuel).foldl (fun (l : Links) tau => l.step beats rows cols supA supB tau)
      { a := List.replicate 32 0, b := List.replicate 32 0, flow := {} }).flow
  else { takes := steadyTakes beats rows cols }

/-- L_r of R51: the larger of the holds of row feeder r and the most holds of an unmasked column. -/
def Tile.lag (x : Tile) (r : Nat) : Nat :=
  max ((x.flow.rows.getD r []).length)
    ((maskList (dw x.desc 14)).foldl (fun m c => max m ((x.flow.cols.getD c []).length)) 0)

/-- The rows of a tile that produce a line or hand over carries: unmasked rows of a tile with an unmasked column (R52). -/
def Tile.liveRows (x : Tile) : List Nat := if dw x.desc 14 = 0 then [] else maskList (dw x.desc 13)

/-- The ACLK in which row drain r holds (R51, R61): its line waits for a Fold bank, whose reserved ACLK it may meet (R96), or its carries for a handoff buffer that
`free` says is empty from that ACLK on (none: it is still full). -/
def Tile.drainSpan (x : Tile) (free : Option Nat) (r : Nat) : Nat × Nat :=
  let b := descBeats x.desc
  if df x.desc 0 15 2 = 2 then
    let start := x.at_ + b + 6 + r + x.lag r
    (start, match free with
      | none => start + 2 ^ 64
      | some f => max start f)
  else
    let start := x.at_ + b + 38 + r + x.lag r
    let end_ := start + x.drains.getD r 0
    (start, if end_ % 1024 = 0 then end_ + 1 else end_)

/-- The ACLK in which the Fold accepts row r's line, or the row's last carry is in the handoff buffer (R48, R51). -/
def Tile.lineAt (x : Tile) (free : Option Nat) (r : Nat) : Nat :=
  let h := x.drainSpan free r
  x.at_ + descBeats x.desc + 38 + r + x.lag r + (h.2 - h.1)

/-- The cycle after acceptance in which a tile completes: B + 70, or one after the last unmasked row's line (R48, R51). -/
def Tile.stop (x : Tile) (free : Option Nat) : Nat :=
  x.liveRows.foldl (fun m r => max m (x.lineAt free r + 1 - x.at_)) (descBeats x.desc + 70)

/-- When the handoff buffer is free for the tile at place `i` of an array: not while it is full or an earlier tile in flight
will fill it (R61). -/
def ArrayState.handFor (x : ArrayState) (i : Nat) : Option Nat :=
  if x.handoff.isSome || (x.tiles.take i).any (fun t => df t.desc 0 15 2 == 2) then none else some x.handFree

/-- The ACLK from `a` to before `b` in which something of a tile happens. -/
def Tile.within (x : Tile) (a b : Nat) (l : List Nat) : Nat :=
  (l.filter (fun o => decide (a ≤ x.at_ + o ∧ x.at_ + o < b))).length

/-- What the arrays' counters gain from ACLK `a` to before `b`: feeder holds, drain holds, links filled, and the ACLK in which
some cell takes a beat (R50, R51, R68). -/
def ArrayState.counts (x : ArrayState) (a b : Nat) : Nat × Nat × Nat × Nat :=
  ((x.tiles.map (fun t => t.within a b (t.flow.rows.flatten ++ t.flow.cols.flatten))).sum,
   (x.tiles.zipIdx.map (fun t => (t.1.liveRows.map (fun r =>
      let h := t.1.drainSpan (x.handFor t.2) r
      min h.2 b - max h.1 a)).sum)).sum,
   (x.tiles.map (fun t => t.within a b t.flow.fills)).sum,
   ((x.tiles.flatMap (fun t => t.flow.takes.map (fun o => t.at_ + o))).eraseDups.filter
      (fun c => decide (a ≤ c ∧ c < b))).length)

/-- The line buffers of row drain r that are in use in ACLK `t`, of its two (R46, R47): lines of tiles in flight that the Fold has
not accepted. -/
def ArrayState.linesHeld (x : ArrayState) (t r : Nat) : Nat :=
  (x.tiles.filter (fun l => df l.desc 0 15 2 != 2 && l.liveRows.contains r && decide (t < l.lineAt none r))).length

/-- The ACLK from which the feeders can fetch a tile that arrived at `arrived`: when the last tile accepted runs, and what it still
needs fits their queues of 512 beats (R46, R47). -/
def ArrayState.feedFrom (x : ArrayState) (arrived : Nat) : Nat :=
  match x.lastAccept with
  | none => arrived
  | some (at_, _, beats) => max arrived (at_ + (beats - 512))

end Sys2Proof.Machine
end

