-- ==== Sys2Proof/Machine/Time.lean ====
section
/-! DEFINITION. Time: what passes between one command and the next (log entry 1), the counters that count it, and the tracker entries whose waits one of them counts. -/

namespace Sys2Proof.Machine

/-- The engine of a queue number of 96 or above (R101). -/
def engineOf (n : Nat) : Option (PageKind × Nat) :=
  if n < 96 then none
  else if n < 112 then some (.ve, n - 96)
  else if n < 120 then some (.ce, n - 112)
  else if n < 128 then some (.mg, n - 120)
  else if n < 130 then some (.so, n - 128)
  else if n < 132 then some (.dg, n - 130)
  else if n < 134 then some (.wg, n - 132)
  else if n < 136 then none
  else if n < 152 then some (.st, n - 136)
  else if n = 152 then some (.ex, 0)
  else if n = 153 then some (.cs, 0)
  else if n < 160 then none
  else if n < 164 then some (.ue, n - 160)
  else none

/-- Is a queue number assigned (R101)? -/
def queueExists (n : Nat) : Bool := decide (n < 90) || (engineOf n).isSome

/-! ## Tracker entries (R110) -/

/-- Fetches of a queue that take a credit and a tracker entry: those of descriptors (R105, R107). -/
def Queue.descFetches (x : Queue) : Nat := (x.fetches.filter (fun f => !f.ctl)).length

/-- Operations of a queue that hold a tracker entry (R110). -/
def Queue.ops (x : Queue) : Nat :=
  x.window.length + x.descFetches + x.window.foldl (fun a w => a + w.open_.length) 0

/-- SELF_ID: site and chip number, 18 bits (R248, R267). -/
def State.selfId (s : State) : Nat := s.field (mPage .pod) Reg.POD_SELF_ID 0 18

/-- Is a frame a collective segment of this module's quarter q? -/
def State.ownColl (s : State) (q : Nat) (f : Frame) : Bool :=
  f.src == s.selfId && f.srcQ == q && (match f.body with | .coll _ _ => true | _ => false)

/-- Frames of this module that are not acknowledged: waiting at a port, or in its replay buffer (R195, R241). -/
def State.unacked (s : State) : List Frame :=
  s.fabric.ports.flatMap (fun e => e.2.waiting.map (·.frame) ++ e.2.replay.map (·.frame))

/-- Operations of queue n of quarter q that hold a tracker entry, segments of EX0 and CS0 included (R110). -/
def State.opsOf (s : State) (q n : Nat) : Nat :=
  (s.queue q n).ops +
  (if n = 152 then (s.fabric.segs.filter (fun g => g.q == q && g.n == 152)).length
   else if n = 153 then (s.unacked.filter (s.ownColl q)).length else 0)

/-- Shared tracker entries in use in quarter q (R110). -/
def State.trackShared (s : State) (q : Nat) : Nat :=
  s.compute.queues.foldl (fun a e => if e.1 / 256 = q then a + (s.opsOf q (e.1 % 256) - 4) else a) 0

/-- Free tracker entries of quarter q (R110, R112). -/
def State.trackFree (s : State) (q : Nat) : Nat :=
  8192 - s.compute.queues.foldl (fun a e => if e.1 / 256 = q then a + s.opsOf q (e.1 % 256) else a) 0

/-- Can queue n of quarter q take `k` more tracker entries (R110)? -/
def State.canTakeTracks (s : State) (q n k : Nat) : Bool :=
  let mine := s.opsOf q n
  decide (mine + k ≤ 4) || decide (s.trackShared q + (mine + k - 4) - (mine - 4) ≤ 7592)

/-- Can queue n of quarter q take one more tracker entry (R110)? -/
def State.canTrack (s : State) (q n : Nat) : Bool := s.canTakeTracks q n 1

/-- Does a fetch of queue n wait for a tracker entry (R111)? -/
def State.fetchWaits (s : State) (q n : Nat) : Bool := (s.queue q n).trackWait && !s.canTrack q n

/-- Does a fetch or a segment of some queue of quarter q wait for a tracker entry (R110, R112)? -/
def State.trackWaits (s : State) (q : Nat) : Bool :=
  s.compute.queues.any (fun e => e.1 / 256 == q && (e.2.trackWait || e.2.segWait) && !s.canTrack q (e.1 % 256))


/-! ## Counters of time -/

/-- Has a descriptor of the queue started and not finished (BUSY_CYC of R117)? -/
def Queue.busy (x : Queue) : Bool := x.window.any (fun w => w.status == .running)

/-- The ACLK up to which the path time of a finished descriptor still runs (R48, R330). -/
def Queue.pathEnd (x : Queue) : Nat :=
  x.window.foldl (fun m w => if w.status == .done && !w.skip then max m w.waitUntil else m) 0

/-- Counters of engines' busy cycles that run now: page, offset, the ACLK of one count, and the ACLK at which the count
stops, none while a descriptor runs (R117, R330). -/
def State.busyCounters (s : State) : List (Page × Nat × Nat × Option Nat) :=
  s.compute.queues.filterMap (fun e =>
    match engineOf (e.1 % 256) with
    | some (k, i) =>
      let until_ := if e.2.busy then none else some e.2.pathEnd
      if until_.all (fun u => decide (s.now < u)) then
        some (qPage k (e.1 / 256) i, Reg.ENG_BUSY_CYC, clockDiv (islandClock (quarterIsland k i)), until_) else none
    | none => none)

/-- Other counters of time that run now: page, offset and the ACLK of one count. -/
def State.runningCounters (s : State) : List (Page × Nat × Nat) :=
  (s.journals.filter (fun e => !e.2.held.isEmpty)).map (fun e => (qPage .jrnl e.1 0, Reg.JRNL_HELD_TIME, 4)) ++
  ((List.range 4).filter s.trackWaits).map
    (fun q => (qPage .qring q 0, Reg.QRING_TRACK_WAIT, 1)) ++
  ((s.fabric.ports.filter (fun e => e.2.stalled s.now && s.bit (qPage .fport (e.1 / 6) (e.1 % 6)) Reg.FPORT_PORT_STS 0)).map
    (fun e => (qPage .fport (e.1 / 6) (e.1 % 6), Reg.FPORT_CREDIT_STALL, 3))) ++
  (if s.field (mPage .pwr) Reg.PWR_PWR_STS 10 6 = 0 then []
    else (mPage .pwr, Reg.PWR_THR_TIME, 4) :: (List.range 4).map (fun q => (qPage .hk q 0, Reg.HK_THR_TIME, 16))) ++
  ((List.range 4).filter (fun q => s.bit (qPage .hk q 0) Reg.HK_HK_STS 7 || s.bit (qPage .hk q 0) Reg.HK_HK_STS 8)).map
    (fun q => (qPage .hk q 0, Reg.HK_WARN_TIME, 16))

/-- LAG_TIME counts `n` counts of pod time in which some update program waits for its image (R182, R188). -/
def State.countLag (s : State) (n : Nat) : State :=
  if s.compute.queues.any (fun e => decide (160 ≤ e.1 % 256) && e.2.window.any (fun w => w.status == .running && w.next == 1))
  then s.addSat (mPage .exp) Reg.EXP_LAG_TIME n else s

/-- The arrays' counters run to ACLK `n`: FEED_HOLD, DRAIN_HOLD, SPILLS and BUSY_CYC (R50, R51, R68). -/
def State.countArrays (s : State) (n : Nat) : State :=
  (s.compute.arrays.filter (fun e => !e.2.tiles.isEmpty)).foldl (fun s' e =>
    let p := qPage .array (e.1 / 96) (e.1 % 96 / 3)
    let off := 0x40 * (e.1 % 3)
    let c := e.2.counts s.now n
    (((s'.addSat p (Reg.ARRAY_FEED_HOLD + off) c.1).addSat p (Reg.ARRAY_DRAIN_HOLD + off) c.2.1).addSat
      p (Reg.ARRAY_SPILLS + off) c.2.2.1).addSat p (Reg.ARRAY_BUSY_CYC + off) c.2.2.2) s

/-- SPILL of every array whose links filled since ACLK `a` (R50, R69). -/
def State.raiseSpills (s : State) (a : Nat) : State :=
  (s.compute.arrays.filter (fun e => (e.2.counts a s.now).2.2.1 != 0)).foldl (fun s' e =>
    s'.raise (qPage .array (e.1 / 96) (e.1 % 96 / 3)) 5) s

/-- The value of a register that hardware sets, counts or adds to beside writes: EVT_STS, ACC and completion counters (R6, R109, R113,
R133, R364). -/
def State.liveValue (s : State) (p : Page) (off : Nat) : Option Word :=
  if off = Reg.HDR_EVT_STS then some (s.reg p off)
  else match p.kind with
    | some .dg => if 0x200 ≤ off ∧ off < 0x400 then some (s.reg p off) else none
    | some .signal =>
      if 0x100 ≤ off ∧ off < 0x500 then
        some (BitVec.ofNat 32 (mapGet (fun _ => 0) s.compute.counters (4096 * p.win + 256 * p.inst + (off - 0x100) / 4)))
      else none
    | _ => none

/-- An entry at the end of the CCLK of its write (R372, R374): NEW shows what hardware changed after the write, and SET_WON a bit that
the write cleared and hardware set again. -/
def State.closeEntry (s : State) (e : JEntry) : JEntry :=
  if e.time ≠ s.podCount ∨ e.code ≠ 0 then e
  else match s.liveValue e.page e.off with
    | none => e
    | some v => { e with new := v, setWon := e.setWon || (e.off == Reg.HDR_EVT_STS && (e.old &&& ~~~e.new &&& v) != 0) }

/-- The CCLK ends before ACLK `n`: its entries are complete (R372). -/
def State.closeEntries (s : State) (n : Nat) : State :=
  if n / 4 = s.now / 4 then s
  else { s with journals := s.journals.map (fun e => (e.1, { e.2 with ring := e.2.ring.map s.closeEntry })) }

/-- The state at stamp `t`: the running counters and pod time advance, and the arrays run on. A stamp in the past is the present. -/
def State.advance (s : State) (t : Nat) : State :=
  let n := max s.now t
  let s := s.closeEntries n
  let counted := s.busyCounters.foldl (fun s c =>
    s.addSat c.1 c.2.1 (min n (c.2.2.2.getD n) / c.2.2.1 - s.now / c.2.2.1)) (s.countArrays n)
  let s' := s.runningCounters.foldl (fun s c => s.addSat c.1 c.2.1 (n / c.2.2 - s.now / c.2.2)) counted
  let pod := s.pod.after (n - s.now)
  ({ s'.countLag (pod.count64 / 64 - s.podCount) with now := n, pod := pod } : State).raiseSpills s.now

/-- The outcome of every command of the block: a next state. -/
def done (s : State) : Host.Outcome State Fault Refusal := .next s

end Sys2Proof.Machine
end

