-- ==== Sys2Proof/Machine/Operands.lean ====
section
/-! DEFINITION. The operand forms: packed rows in memory (R20 to R22), and split pairs (R88). -/

namespace Sys2Proof.Machine

/-- The first code of a list in increasing order whose test holds; 0 when none does (R65, R115). -/
def firstCode (l : List (Nat × Bool)) : Nat := ((l.find? (fun e => e.2)).map Prod.fst).getD 0

/-- Is a line marked poisoned to an engine that reads it: does it hold a poisoned codeword (R98, R116)? -/
def State.linePoisoned (s : State) (a : Nat) : Bool :=
  (List.range 4).any (fun i => s.poisonedAt (a / 64 * 4 + i))

/-- Element codes of a scalar row of `n` elements at a local address, none where the line is poisoned (R116). -/
def State.row16 (s : State) (a n : Nat) : List (Option Nat) :=
  (List.range n).map (fun i =>
    if s.linePoisoned (a + 2 * i) then none else some (s.readNat (a + 2 * i) 2))

/-- The values of a scalar row; a poisoned element is NaN (R116). -/
def State.rowValues (s : State) (f : Fmt) (a n : Nat) : List Num :=
  (s.row16 a n).map (fun c => match c with | none => .nan | some c => decodeElem f c)

/-- The codes of a block as a consumer reads them: positions from `valid` on are padding and read as zero (R22). -/
def unpadded (valid : Nat) (codes : List Nat) : List Nat :=
  codes.zipIdx.map (fun c => if c.2 < valid then c.1 else 0)

/-- The values of block b of a packed row of `n` elements (R20 to R22): NaN where the scale's line is poisoned, and for each
element whose line is poisoned (R116). -/
def State.blockValues (s : State) (f : Fmt) (len elemBase scaleBase n b : Nat) : List Num :=
  let bytes := fieldBytes f len
  let a := elemBase + b * bytes
  let vs := decodeBlock f (s.readNat (scaleBase + b) 1) (unpadded (n - b * len) (unpackElems f.width len (s.readNat a bytes)))
  let bad (i : Nat) : Bool := s.linePoisoned (a + f.width * i / 8) || s.linePoisoned (a + (f.width * i + f.width - 1) / 8)
  if s.linePoisoned (scaleBase + b) then vs.map (fun _ => .nan)
  else vs.zipIdx.map (fun p => if bad p.2 then .nan else p.1)

/-- The values of a row of `n` elements packed in blocks (R20 to R22). -/
def State.blockRowValues (s : State) (f : Fmt) (bsz : Bool) (elemBase scaleBase n : Nat) : List Num :=
  let len := blockLen bsz
  ((List.range ((n + len - 1) / len)).flatMap (s.blockValues f len elemBase scaleBase n)).take n

/-- The values of a row in any format. -/
def State.formatRow (s : State) (f : Fmt) (bsz : Bool) (elemBase scaleBase n : Nat) : List Num :=
  if f.isBlock then s.blockRowValues f bsz elemBase scaleBase n else s.rowValues f elemBase n

/-- Does a row of `n` elements read a poisoned line? -/
def State.rowPoisoned (s : State) (f : Fmt) (bsz : Bool) (elemBase scaleBase n : Nat) : Bool :=
  let len := blockLen bsz
  let blocks := (n + len - 1) / len
  let lines (a k : Nat) : Bool := (List.range k).any (fun i => s.linePoisoned (a + i))
  if f.isBlock then lines elemBase (blocks * fieldBytes f len) || lines scaleBase blocks else lines elemBase (2 * n)

/-- Write a scalar row of codes; `none` leaves its element as it is (byte enables). -/
def State.putRow16 (s : State) (a : Nat) (codes : List (Option Nat)) : State :=
  if codes.all Option.isSome then s.writeBytes a (codes.flatMap (fun c => leBytes 2 (c.getD 0)))
  else (codes.zipIdx).foldl (fun s p =>
    match p.1 with
    | none => s
    | some c => s.writeNat (a + 2 * p.2) 2 c) s

/-- Write one block: its element field and its scale byte (R20, R21). -/
def State.putBlock (s : State) (f : Fmt) (len elemBase scaleBase b : Nat) (o : BlockOut) : State :=
  let bytes := fieldBytes f len
  (s.writeNat (elemBase + b * bytes) bytes (packElems f.width (padTo len 0 o.codes))).writeNat (scaleBase + b) 1 o.scale

/-- A split pair's value: hi + lo of two BF16 codes (R88). -/
def splitValue (hi lo : Nat) : Num := fAdd (decodeElem .bf16 hi) (decodeElem .bf16 lo)

/-- A statistic as a split pair of BF16 codes (R88). -/
def splitPair (v : Num) : Nat × Nat :=
  let hi := (convert16 .bf16 .rne v).code
  match v with
  | .fin _ _ _ => (hi, (convert16 .bf16 .rne (v.sub (decodeElem .bf16 hi))).code)
  | _ => (hi, 0)

end Sys2Proof.Machine
end

