-- ==== Sys2Proof/Machine/Checks.lean ====
section
/-! DEFINITION. The rules that a descriptor must meet when it is fetched, engine by engine, with the code of each breach (R64, R65, R76, R115, R121 to R137). -/

namespace Sys2Proof.Machine

/-- SIG or RSIG names a counter that the step reserves (R143). -/
def reservedCounter (k : Nat) : Bool := decide (4093 ≤ k ∧ k ≤ 4095)

/-- The rule of R143 and R114 on word 15 of an engine descriptor. -/
def sigBad (d : Desc) : Bool := reservedCounter (dSig d) || df d 15 28 4 != 0

/-- Does a region of a quarter's Fold end beyond it? -/
def beyondFold (ends : List Nat) : Bool := ends.any (fun e => decide (foldSize < e))

/-- Is some number not a multiple of 64? -/
def unaligned64 (l : List Nat) : Bool := l.any (fun x => x % 64 != 0)

/-- Are some of these nonzero? -/
def anyNonzero (l : List Nat) : Bool := l.any (fun x => x != 0)

/-! ## Tiles -/

/-- Where the regions of one operand end (R64, R74). -/
def TileSide.ends (x : TileSide) (f : Fmt) (bsz : Bool) (k : Nat) : List Nat :=
  if x.reuse then []
  else
    match x.mode with
    | 0 =>
      let rowBytes := if f.isBlock then k / blockLen bsz * fieldBytes f (blockLen bsz) else 2 * k
      let e := [x.elem + 31 * x.elemStride + rowBytes]
      if f.isBlock then e ++ [x.scale + 31 * x.scaleStride + k / blockLen bsz] else e
    | 1 => [x.elem + (k - 1) * x.elemStride + 64]
    | _ => ((List.range 32).filter (fun i => bitAt x.mask i)).map (fun i => x.elem + i * x.elemStride + 2 * k)

/-- Bases and strides of one operand that R64 aligns. -/
def TileSide.aligned (x : TileSide) : List Nat :=
  [x.elem, x.elemStride] ++ (if x.mode = 0 then [x.scale, x.scaleStride] else [])

/-- Fields of one operand that must be 0: of a reused operand (R64), a scalar's scale fields, of which R73 keeps word 5 or 9
under modes 1 and 2, and the reserved bits of R73. -/
def TileSide.mustBeZero (x : TileSide) (f : Fmt) : List Nat :=
  (if x.reuse then [x.elem, x.elemStride, x.scale, x.scaleStride] else []) ++
  (if f.isBlock then [] else if x.mode = 0 then [x.scale, x.scaleStride] else [x.scaleStride]) ++
  (if x.mode ≠ 0 then [x.scale / 16] else [])

/-- R76, code 0x0A, on one operand. -/
def TileSide.breaksMode (x : TileSide) (fmtCode : Nat) (f : Fmt) : Bool :=
  (x.mode == 2 && !f.isBlock) || (x.mode == 1 && !f.isBlock && x.scale % 2 != fmtCode) ||
  (x.mode == 2 && bitsOf x.scale 1 3 != 0) || (x.mode != 0 && x.scaleStride != 0)

/-- The matching fields of a retained operand (R67). -/
def keepKey (d : Desc) (x : TileSide) : Nat × Bool × Nat × Nat := (df d 0 4 4, db d 0 12, df d 1 0 16, x.mask)

/-- A null tile (R82). -/
def nullTile (d : Desc) : Bool := dw d 13 == 0 && dw d 14 == 0

/-- What retention will hold when the tiles waiting ahead have been accepted: the next kind's number and the keys by kind
for A and B (R67, R80 to R82). -/
structure Retained where
  kinds : Nat
  a : List (Nat × (Nat × Bool × Nat × Nat))
  b : List (Nat × (Nat × Bool × Nat × Nat))
  deriving DecidableEq, Repr

/-- The kind of the next tile of array `arr`. -/
def Retained.kind (r : Retained) (arr : Nat) : Nat := if arr = 0 then 0 else r.kinds % 2

/-- The key retained for a kind. -/
def keyOf (l : List (Nat × (Nat × Bool × Nat × Nat))) (kind : Nat) : Option (Nat × Bool × Nat × Nat) :=
  (l.find? (fun e => e.1 == kind)).map Prod.snd

/-- What accepting a tile does to one side's keys. -/
def keepStep (d : Desc) (x : TileSide) (arr kind : Nat) (l : List (Nat × (Nat × Bool × Nat × Nat))) :
    List (Nat × (Nat × Bool × Nat × Nat)) :=
  if x.keep then (kind, keepKey d x) :: l.filter (fun e => e.1 != kind)
  else if arr ≠ 0 ∧ nullTile d then l
  else l.filter (fun e => e.1 != kind)

/-- Accept one tile ahead; a skip-completed one only takes a kind. -/
def Retained.step (arr : Nat) (r : Retained) (w : WinEntry) : Retained :=
  if w.skip then { r with kinds := r.kinds + 1 }
  else
    let k := r.kind arr
    { kinds := r.kinds + 1, a := keepStep w.desc (sideA w.desc) arr k r.a, b := keepStep w.desc (sideB w.desc) arr k r.b }

/-- The retention that a tile fetched now will meet. -/
def ArrayState.retained (x : ArrayState) (arr : Nat) (window : List WinEntry) : Retained :=
  (window.filter (fun w => w.status == .waiting || w.skip)).foldl (Retained.step arr)
    { kinds := x.kinds, a := x.keepA.map (fun e => (e.1, (e.2.fmt, e.2.bsz, e.2.nkM1, e.2.mask)))
      b := x.keepB.map (fun e => (e.1, (e.2.fmt, e.2.bsz, e.2.nkM1, e.2.mask))) }

/-- A reuse without a matching retained operand (R67, R81). -/
def reuseUnmatched (d : Desc) (arr : Nat) (r : Retained) : Bool :=
  let k := r.kind arr
  ((sideA d).reuse && keyOf r.a k != some (keepKey d (sideA d))) ||
  ((sideB d).reuse && keyOf r.b k != some (keepKey d (sideB d)))

/-- The code under which array `arr` refuses a tile descriptor, 0 for none (R64, R65, R76). -/
def checkTile (d : Desc) (arr : Nat) (r : Retained) : Nat :=
  let fa := (fmtOf (df d 0 4 4)).getD .bf16
  let fb := (fmtOf (df d 0 8 4)).getD .bf16
  let a := sideA d
  let b := sideB d
  let wb := df d 0 15 2
  let ci := df d 0 17 2
  let k := tileK d fa
  firstCode
    [ (0x01, dOp d != 1)
    , (0x02, !fmtOk (df d 0 4 4) (db d 0 12) || !fmtOk (df d 0 8 4) (db d 0 13))
    , (0x03, df d 0 4 4 != df d 0 8 4 || db d 0 12 != db d 0 13)
    , (0x04, wb == 3 || ci == 3 || a.mode == 3 || b.mode == 3 || (arr == 0 && (a.mode != 0 || b.mode != 0)))
    , (0x05, unaligned64 (a.aligned ++ b.aligned ++ [dw d 10, dw d 11]))
    , (0x06, beyondFold (a.ends fa (db d 0 12) k ++ b.ends fb (db d 0 13) k ++
        (if ci = 0 then [] else [dw d 10 + 31 * 64 * df d 12 0 16 + 64]) ++
        (if wb = 2 then [] else [dw d 11 + 31 * 64 * df d 12 16 16 + 64])))
    , (0x07, ((a.keep || b.keep) && decide (512 < tileBeats d fa)) || reuseUnmatched d arr r)
    , (0x08, anyNonzero (a.mustBeZero fa ++ b.mustBeZero fb ++ [df d 0 27 5, df d 15 31 1] ++
        (if wb = 2 then [dw d 11, df d 12 16 16] else []) ++ (if ci = 0 then [dw d 10, df d 12 0 16] else [])) ||
        reservedCounter (dSig d))
    , (0x09, a.mode == 1 && b.mode == 1 && bitsOf a.scale 1 3 == bitsOf b.scale 1 3)
    , (0x0A, a.breaksMode (df d 0 4 4) fa || b.breaksMode (df d 0 8 4) fb)
    , (0x0B, (a.reuse && a.mode != 0) || (b.reuse && b.mode != 0)) ]

/-! ## Vector kernels -/

/-- The kernels of R123. -/
def kernelExists (k : Nat) : Bool :=
  decide ((1 ≤ k ∧ k ≤ 7) ∨ (0x10 ≤ k ∧ k ≤ 0x1C) ∨ (0x20 ≤ k ∧ k ≤ 0x29) ∨ (0x30 ≤ k ∧ k ≤ 0x34) ∨
    (0x40 ≤ k ∧ k ≤ 0x42) ∨ (0x48 ≤ k ∧ k ≤ 0x4E))

/-- Does a kernel read the second row source? -/
def kernelSrc1 (k : Nat) : Bool :=
  decide ((1 ≤ k ∧ k ≤ 6) ∨ (0x20 ≤ k ∧ k ≤ 0x29) ∨ k = 0x33 ∨ (0x48 ≤ k ∧ k ≤ 0x4E))
/-- Does a kernel read VEC0? -/
def kernelVec0 (k : Nat) : Bool := decide (k = 4 ∨ k = 0x40 ∨ k = 0x41 ∨ k = 0x48 ∨ k = 0x49 ∨ k = 0x4C ∨ k = 0x4D)
/-- Does a kernel write rows? -/
def kernelDst (k : Nat) : Bool := !decide (0x30 ≤ k ∧ k ≤ 0x34)
/-- Does a kernel use STAT? -/
def kernelStat (k : Nat) : Bool :=
  decide ((0x30 ≤ k ∧ k ≤ 0x34) ∨ (0x40 ≤ k ∧ k ≤ 0x42) ∨ k = 0x48 ∨ k = 0x49 ∨ k = 0x4B)
/-- Bytes of a row's statistics record (R88). -/
def statBytes (k : Nat) : Nat := if k = 0x40 ∨ k = 0x48 then 8 else 4
/-- Does a kernel read PARAM0? -/
def kernelParam0 (k : Nat) : Bool :=
  decide (k = 7 ∨ k = 0x15 ∨ k = 0x25 ∨ k = 0x40 ∨ k = 0x41 ∨ k = 0x4C ∨ k = 0x4D)
/-- Does a kernel read PARAM1? -/
def kernelParam1 (k : Nat) : Bool := decide (k = 7 ∨ k = 0x15 ∨ k = 0x25)
/-- The softmax kernels, which may take a row mask (R122, R123). -/
def kernelSoftmax (k : Nat) : Bool := decide (k = 0x42 ∨ k = 0x4A ∨ k = 0x4B ∨ k = 0x4E)
/-- Kernels whose AUX0 is a buffer of N elements: β or the scale gradient. -/
def kernelAux0 (k : Nat) : Bool := decide (k = 0x40 ∨ k = 0x48 ∨ k = 0x49 ∨ k = 0x4C ∨ k = 0x4D)
/-- Kernels whose AUX1 is the bias-gradient buffer. -/
def kernelAux1 (k : Nat) : Bool := decide (k = 0x48 ∨ k = 0x4C)

/-- The code under which a vector engine refuses a descriptor (R114, R115, R121 to R123). -/
def checkVec (d : Desc) : Nat :=
  let k := df d 0 4 8
  let n := df d 1 0 16 + 1
  let rows := df d 2 0 24
  let mask := kernelSoftmax k && db d 0 15
  let src1 := kernelSrc1 k
  let pick (c : Bool) (l : List Nat) : List Nat := if c then l else []
  firstCode
    [ (0x01, dOp d != 1 || !kernelExists k)
    , (0x05, unaligned64 ([dw d 3, dw d 4] ++ pick src1 [dw d 5, dw d 6] ++ pick (kernelVec0 k) [dw d 7] ++
        pick (kernelDst k) [dw d 8, dw d 9] ++ pick (kernelStat k) [dw d 10] ++
        pick (kernelAux0 k || mask) [dw d 13] ++ pick (kernelAux1 k || mask) [dw d 14]))
    , (0x06, beyondFold ([dw d 3 + rows * dw d 4 + 2 * n] ++ pick src1 [dw d 5 + rows * dw d 6 + 2 * n] ++
        pick (kernelVec0 k) [dw d 7 + 2 * n] ++ pick (kernelDst k) [dw d 8 + rows * dw d 9 + 2 * n] ++
        pick (kernelStat k) [dw d 10 + (rows + 1) * statBytes k] ++ pick (kernelAux0 k) [dw d 13 + 2 * n] ++
        pick (kernelAux1 k) [dw d 14 + 2 * n] ++ pick mask [dw d 13 + rows * dw d 14 + (n + 7) / 8]))
    , (0x08, anyNonzero ([df d 0 16 16, df d 2 24 8] ++ pick (!kernelSoftmax k) [df d 0 15 1] ++
        pick (!src1) [dw d 5, dw d 6] ++ pick (!kernelVec0 k) [dw d 7] ++
        pick (!kernelDst k) [dw d 8, dw d 9, df d 0 13 2, dStream d] ++ pick (!kernelStat k) [dw d 10] ++
        pick (!kernelParam0 k) [dw d 11] ++ pick (!kernelParam1 k) [dw d 12] ++
        pick (!(kernelAux0 k || mask)) [dw d 13] ++ pick (!(kernelAux1 k || mask)) [dw d 14]) || sigBad d) ]

/-! ## Conversion engines, mangles, sorters, digest engines, wrings -/

/-- Where one plane pair of `rows` rows of `n` elements ends. -/
def planeEnds (f : Fmt) (bsz : Bool) (rows n elem elemStride scale scaleStride : Nat) : List Nat :=
  let len := blockLen bsz
  if f.isBlock then
    [elem + (rows - 1) * elemStride + (n + len - 1) / len * fieldBytes f len,
     scale + (rows - 1) * scaleStride + (n + len - 1) / len]
  else [elem + (rows - 1) * elemStride + 2 * n]

/-- Must a handoff conversion spill (R128): a block destination in TENSOR mode without a READY history? -/
def convSpills (d : Desc) (ready : Bool) : Bool :=
  ((fmtOf (df d 0 9 4)).getD .bf16).isBlock && db d 0 15 && !(db d 0 21 && ready)

/-- The code under which a conversion engine refuses a descriptor at its fetch (R114, R115, R127 to R129). With a reserved FMT_D
the other fields are checked as for BF16 (log entry 142). -/
def checkConvert (d : Desc) : Nat :=
  let hand := db d 0 18
  let fs := (fmtOf (df d 0 4 4)).getD .bf16
  let fd := (fmtOf (df d 0 9 4)).getD .bf16
  let n := df d 1 0 16 + 1
  let rows := df d 2 0 24 + 1
  let pick (c : Bool) (l : List Nat) : List Nat := if c then l else []
  firstCode
    [ (0x01, dOp d != 1)
    , (0x05, unaligned64 ([dw d 7, dw d 8] ++ pick fd.isBlock [dw d 9, dw d 10] ++ pick (!hand) [dw d 3, dw d 4] ++
        pick (!hand && fs.isBlock) [dw d 5, dw d 6] ++ pick hand [dw d 12]))
    , (0x06, beyondFold (planeEnds fd (db d 0 13) rows n (dw d 7) (dw d 8) (dw d 9) (dw d 10) ++
        pick (!hand) (planeEnds fs (db d 0 8) rows n (dw d 3) (dw d 4) (dw d 5) (dw d 6)) ++
        pick hand [dw d 12 + (if dw d 12 = 0 then 0 else 8192)]))
    , (0x08, anyNonzero ([df d 0 22 10, df d 2 24 8, df d 11 12 4, dw d 13, dw d 14] ++
        pick (!fd.isBlock) [dw d 9, dw d 10, df d 0 16 2] ++
        pick (hand && (!fd.isBlock || !db d 0 15)) [dw d 12] ++ pick (!hand) ([df d 0 19 1, dw d 12] ++ pick (!fs.isBlock) [dw d 5, dw d 6]) ++
        pick hand [dw d 3 / 128, dw d 4, dw d 5, dw d 6] ++
        pick (!db d 0 20) [df d 11 0 12] ++ pick (!db d 0 21) [df d 11 16 16]) ||
        (hand && (decide (29 < df d 3 0 5) || df d 3 5 2 == 3 || rows != 32 || n != 32)) || sigBad d)
    , (0x10, !fmtOk (df d 0 9 4) (db d 0 13) || (!hand && !fmtOk (df d 0 4 4) (db d 0 8)))
    , (0x11, hand && db d 0 19 && !db d 0 15) ]

/-- The code under which a mangle refuses a descriptor (R130). -/
def checkTranspose (d : Desc) : Nat :=
  let f := (fmtOf (df d 0 5 4)).getD .bf16
  let r := 32 * (df d 1 0 16 + 1)
  let c := 32 * (df d 2 0 16 + 1)
  let pick (b : Bool) (l : List Nat) : List Nat := if b then l else []
  firstCode
    [ (0x01, dOp d != 1)
    , (0x05, unaligned64 ([dw d 3, dw d 4, dw d 5, dw d 6] ++ pick f.isBlock [dw d 7, dw d 8]))
    , (0x06, beyondFold ([dw d 3 + (r - 1) * dw d 4 + 2 * c] ++
        planeEnds f (db d 0 9) c r (dw d 5) (dw d 6) (dw d 7) (dw d 8)))
    , (0x08, anyNonzero ([df d 0 10 22, df d 2 16 16, dw d 9, dw d 10, dw d 11, dw d 12, dw d 13, dw d 14, dStream d] ++
        pick (!f.isBlock) [dw d 7, dw d 8]) || sigBad d)
    , (0x10, !fmtOk (df d 0 5 4) (db d 0 9) || (!f.isBlock && df d 0 5 4 != df d 0 4 1)) ]

/-- The code under which a sorter refuses a descriptor (R131). -/
def checkDump (d : Desc) : Nat :=
  let first := df d 2 0 12
  let last := df d 2 16 12
  firstCode
    [ (0x01, dOp d != 1)
    , (0x06, beyondFold [dw d 3 + 544 * (last + 1 - first)])
    , (0x08, anyNonzero [df d 0 5 27, df d 1 0 16, df d 2 12 4, df d 2 28 4, dw d 4, dw d 5, dw d 6, dw d 7, dw d 8, dw d 9,
        dw d 10, dw d 11, dw d 12, dw d 13, dw d 14, dStream d] || decide (last < first) || sigBad d) ]

/-- The code under which a digest engine refuses a descriptor (R133). -/
def checkDigest (d : Desc) : Nat :=
  firstCode
    [ (0x01, dOp d != 1)
    , (0x05, dq d 5 % 4096 != 0)
    , (0x06, !populated (dq d 2) (dw d 4))
    , (0x08, anyNonzero [df d 0 5 27, df d 1 0 16, df d 7 6 26, dw d 8, dw d 9, dw d 10, dw d 11, dw d 12, dw d 13, dw d 14,
        dStream d] || sigBad d) ]

/-- The code under which a wring refuses a descriptor (R21, R115, R135). -/
def checkCompress (d : Desc) : Nat :=
  let f := (fmtOf (df d 0 4 4)).getD .sq8e4
  let len := blockLen (db d 0 8)
  let n := dw d 2
  let sel := db d 0 10
  let emit := if sel then min n (dw d 10) else n
  let pick (b : Bool) (l : List Nat) : List Nat := if b then l else []
  firstCode
    [ (0x01, dOp d != 1)
    , (0x05, unaligned64 [dw d 7, dw d 8])
    , (0x06, beyondFold ([dw d 7 + emit * fieldBytes f len, dw d 8 + emit, dw d 11 + 4] ++
        pick sel [dw d 9 + 4 * emit]) || !populated (dq d 3) (2 * len * n) || !populated (dq d 5) (2 * len * n))
    , (0x08, anyNonzero ([df d 0 11 21, df d 1 0 16, dw d 12, dw d 13, dw d 14] ++ pick (!sel) [dw d 9, dw d 10]) || sigBad d)
    , (0x10, !fmtOk (df d 0 4 4) (db d 0 8) || !f.isBlock) ]

/-! ## Streamers -/

/-- The code under which a streamer refuses a descriptor (R114, R115, R137, R143, R157, R240). -/
def checkStream (d : Desc) : Nat :=
  let fill := dOp d == 2
  firstCode
    [ (0x01, dOp d != 1 && dOp d != 2)
    , (0x05, [dq d 2, dq d 4, dw d 6, dw d 8, dw d 9].any (fun x => x % 16 != 0) ||
        (db d 0 7 && (dq d 12 % 4096 != 0 || (df d 7 0 24 != 0 && dw d 6 % 4096 != 0))))
    , (0x08, anyNonzero ([df d 0 9 23, df d 1 0 16 / 241, df d 7 24 8, df d 10 14 18, df d 11 7 25, dw d 14, dStream d] ++
        (if fill then [dq d 2, dw d 8, df d 1 0 16] else []) ++ (if db d 0 7 then [] else [dw d 11, dq d 12]) ++
        (if db d 0 8 then [] else [dw d 10])) || decide (6 ≤ df d 0 4 3) || sigBad d ||
        (db d 0 8 && reservedCounter (df d 10 0 12))) ]

end Sys2Proof.Machine
end

