-- ==== Sys2Proof/Machine/Checks2.lean ====
section
/-! DEFINITION. The rules that descriptors of the update engines, the exporter and the collective sequencer must meet when they are fetched, with the code of each breach (R138, R139, R150, R157, R167 to R171, R178 to R184, R190, R204, R230, R240). -/

namespace Sys2Proof.Machine

/-- The step state (R141). -/
def State.stepState (s : State) : Nat := s.field (mPage .step) Reg.STEP_STEP_STS 0 4

/-- COMMITTED (R142). -/
def State.committed (s : State) : Nat := s.num64 (mPage .step) Reg.STEP_COMMITTED_LO Reg.STEP_COMMITTED_HI

/-- ATTEMPT (R142). -/
def State.attempt (s : State) : Nat := s.num64 (mPage .step) Reg.STEP_ATTEMPT_LO Reg.STEP_ATTEMPT_HI

/-- Is export active (R181)? -/
def State.exportActive (s : State) : Bool := s.bit (mPage .exp) Reg.EXP_EXP_STS 0

/-- First local offset of the module-reserved area (R167). -/
def reservedBase : Nat := 0x1FFFC000000

/-- Do `n` bytes at a local address touch the module-reserved area (R167)? -/
def touchesReserved (a n : Nat) : Bool := decide (a < 0x20000000000 ∧ reservedBase < a + n)

/-- Do `n` bytes lie in the D tier of quarter q, outside the module-reserved area (R168, R230)? -/
def inOwnD (q a n : Nat) : Bool :=
  decide (dBase q ≤ a ∧ a + n ≤ dBase q + dSize) && !touchesReserved a n

/-! ## Update programs -/

/-- The parameter record of R169. -/
structure ParamRec where
  rows : Nat
  cols : Nat
  wstride : Nat
  gstride : Nat
  beta1 : Word
  beta2 : Word
  eps : Word
  lambda : Word
  gscale : Word
  lrLen : Nat
  lrTable : Nat
  wobj : Nat
  ucode : Nat
  deriving DecidableEq, Repr

/-- The little-endian number of `n` bytes at an offset of a structure that has been read. -/
def numAt (bs : List Byte) (o n : Nat) : Nat := leNat ((bs.drop o).take n)

/-- The parameter record in the 64 bytes read for it (R169). -/
def paramOf (bs : List Byte) : ParamRec :=
  let w (o : Nat) : Word := BitVec.ofNat 32 (numAt bs o 4)
  { rows := numAt bs 0 4, cols := numAt bs 4 4, wstride := numAt bs 8 4, gstride := numAt bs 12 4
    beta1 := w 16, beta2 := w 20, eps := w 24, lambda := w 28, gscale := w 32, lrLen := numAt bs 36 4
    lrTable := numAt bs 40 8, wobj := numAt bs 48 8, ucode := numAt bs 56 8 }

/-- The parameter record at a local address. -/
def State.paramRec (s : State) (a : Nat) : ParamRec := paramOf (s.readBytes a 64)

/-- Element row stride Se of the state layout (R170). -/
def layoutElemStride (cols : Nat) : Nat := 64 * ((16 * ((cols + 15) / 16) + 63) / 64)
/-- Scale row stride Ss of the state layout (R170). -/
def layoutScaleStride (cols : Nat) : Nat := 64 * (((cols + 15) / 16 + 63) / 64)
/-- S(R, C) of the state layout (R170). -/
def layoutSize (rows cols : Nat) : Nat := rows * (layoutElemStride cols + layoutScaleStride cols)

/-- One micro-op (R178). -/
structure MicroOp where
  opc : Nat
  d : Nat
  a : Nat
  b : Nat
  c : Nat
  n : Nat
  rsv : Nat
  deriving DecidableEq, Repr

/-- The fields of a micro-op's word (R178). -/
def microOp (w : Nat) : MicroOp :=
  { opc := bitsOf w 0 6, d := bitsOf w 6 4, a := bitsOf w 10 4, b := bitsOf w 14 4, c := bitsOf w 18 4, n := bitsOf w 22 4,
    rsv := bitsOf w 26 6 }

/-- The code of a micro-op block in the bytes read for it: its ops up to the first END (R178, R180). -/
def microCode (bs : List Byte) : List MicroOp :=
  ((List.range 32).map (fun i => microOp (numAt bs (4 * i) 4))).takeWhile (fun o => o.opc != 0)

/-- Is an op code of R179 defined? -/
def microDefined (o : Nat) : Bool := decide (o ≤ 4 ∨ (8 ≤ o ∧ o ≤ 0x15))

/-- Does one micro-op break R179 or R180 on its own? -/
def MicroOp.bad (o : MicroOp) : Bool :=
  !microDefined o.opc || o.rsv != 0 || (o.opc == 1 && decide (3 < o.n)) || (o.opc == 2 && (o.n == 0 || decide (3 < o.n))) ||
  (o.opc == 4 && decide (6 < o.n))

/-- Does the code break R179 or R180: a bad op, a stream stored twice, or an END with reserved bits set? -/
def microBad (bs : List Byte) : Bool :=
  let code := microCode bs
  let stores := (code.filter (fun o => o.opc == 2)).map (·.n)
  code.any MicroOp.bad || [1, 2, 3].any (fun n => decide (1 < (stores.filter (· == n)).length)) ||
  (decide (code.length < 32) && (microOp (numAt bs (4 * code.length) 4)).rsv != 0)

/-- The parameter record breaks a range of R169 (code 0x30). -/
def ParamRec.bad (p : ParamRec) (prog : Nat) (d : Desc) : Bool :=
  decide (p.rows = 0 ∨ 2 ^ 20 < p.rows ∨ p.cols = 0 ∨ 2 ^ 20 < p.cols ∨ 2 ^ 30 < p.rows * p.cols) ||
  decide (p.wstride < 2 * p.cols ∨ p.gstride < 2 * p.cols ∨ p.wstride % 2 = 1 ∨ p.gstride % 2 = 1) ||
  decide (p.lrLen = 0 ∨ 2 ^ 20 < p.lrLen) ||
  (prog == 2 && decide (16384 < p.cols ∨ p.rows < 2 ∨ p.cols < 2)) ||
  (prog == 3 && (db d 0 11 || dq d 10 != 0)) || (prog != 15 && p.ucode != 0)

/-- The D-tier regions that a program names (R168, R170, R181): address and length. -/
def updateRegions (d : Desc) (p : ParamRec) (prog : Nat) (active : Bool) : List (Nat × Nat) :=
  let keep (a : Nat) : Bool := !(prog == 15 && a == 0)
  let m2 := if prog = 2 then layoutSize 1 p.rows + layoutSize 1 p.cols else layoutSize p.rows p.cols
  ([(dq d 4, (p.rows - 1) * p.wstride + 2 * p.cols), (dq d 8, layoutSize p.rows p.cols)] ++
   (if prog = 3 then [] else [(dq d 10, m2)])).filter (fun r => keep r.1) ++
  (if active && dq d 12 != 0 then [(dq d 12, (2 * p.rows - 1) * p.wstride + 2 * p.cols)] else [])

/-- What an update engine reads of a program at its fetch and keeps: the parameter record, and for CUSTOM the micro-op block
(R171). -/
def State.programBytes (s : State) (d : Desc) : List Byte :=
  let bs := s.readBytes (dq d 2) 64
  bs ++ (if df d 0 4 4 = 15 then s.readBytes (paramOf bs).ucode 192 else [])

/-- What those reads count, through the port of queue n of quarter q (R215, R221 to R223). -/
def State.noteProgram (s : State) (q n : Nat) (d : Desc) : State :=
  if n < 160 ∨ !populated (dq d 2) 64 then s
  else
    let via := some (portOf q n)
    let u := (s.paramRec (dq d 2)).ucode
    let t := s.noteReadBy via (dq d 2) 64
    if df d 0 4 4 = 15 ∧ !s.readPoisoned (dq d 2) 64 ∧ populated u 192 then t.noteReadBy via u 192 else t

/-- The code under which an update engine of quarter q refuses a program at its fetch, and whether it read poison (R168
to R171, R178 to R181, R230). -/
def State.checkUpdate (s : State) (q : Nat) (d : Desc) : Nat × Bool :=
  let prog := df d 0 4 4
  let active := s.exportActive
  let pa := dq d 2
  let have_ := populated pa 64
  let bad := have_ && s.readPoisoned pa 64
  let p := s.paramRec pa
  let ok := have_ && !bad
  let custom := prog == 15
  let uHave := ok && custom && populated p.ucode 192
  let uBad := uHave && s.readPoisoned p.ucode 192
  let code := firstCode
    [ (0x01, dOp d != 1 || !(prog == 1 || prog == 2 || prog == 3 || prog == 15))
    , (0x05, unaligned64 [pa, dq d 4, dq d 6, dq d 8, dq d 10, dq d 12] || (ok && unaligned64 ([p.lrTable] ++
        (if custom then [p.ucode] else []))))
    , (0x06, !have_ || (ok && ((updateRegions d p prog active).any (fun r => !inOwnD q r.1 r.2) ||
        (!(custom && dq d 6 == 0) && !populated (dq d 6) ((p.rows - 1) * p.gstride + 2 * p.cols)) ||
        !populated p.lrTable (4 * p.lrLen))) || (ok && custom && !uHave))
    , (0x08, anyNonzero [df d 0 12 20, df d 1 12 4, dw d 14] || sigBad d || (active && dq d 12 == 0) ||
        (!active && dq d 12 != 0) || (ok && prog == 3 && p.beta2 != 0))
    , (0x0C, bad || uBad)
    , (0x30, ok && p.bad prog d)
    , (0x31, uHave && !uBad && microBad (s.readBytes p.ucode 192)) ]
  (code, bad || uBad)

/-! ## The exporter -/

/-- Qq_NEXT (R183). -/
def State.nextShip (s : State) (q : Nat) : Nat :=
  s.num64 (mPage .exp) (Reg.EXP_Qq_NEXT_LO + 8 * q) (Reg.EXP_Qq_NEXT_HI + 8 * q)

/-- Is a ring size 2^k + 64 with k at least 16 (R184)? -/
def ringSizeOk (n : Nat) : Bool := (List.range 17).any (fun i => n == 2 ^ (i + 16) + 64)

/-- A global address with this module's own site and chip number is local (R136, R248, R249). -/
def State.localOf (s : State) (a : Nat) : Option Nat :=
  if a / 2 ^ 45 = s.field (mPage .pod) Reg.POD_SELF_ID 0 18 then some (a % 2 ^ 45) else none

/-- The code under which EX0 refuses a descriptor; `ahead` counts the SHIP_STEPs of its window (R138, R157, R167, R183,
R184). -/
def State.checkExport (s : State) (q ahead : Nat) (d : Desc) : Nat :=
  let ship := dOp d == 1
  firstCode
    [ (0x01, dOp d != 1 && dOp d != 2)
    , (0x05, unaligned64 [dq d 4] || !ringSizeOk (dw d 6))
    , (0x06, (match s.localOf (dq d 4) with
        | some a => touchesReserved a (dw d 6)
        | none => false) ||
        (!ship && decide (dq d 7 < 0x10000000000 ∨ 0x20000000000 < dq d 7 + dw d 9)))
    , (0x08, anyNonzero [df d 0 4 28, dw d 3, dw d 10, dw d 11, dw d 12, dw d 13, dw d 14, dStream d] || sigBad d ||
        (ship && (anyNonzero [df d 1 0 16, dw d 7, dw d 8, dw d 9] || dw d 2 != (s.nextShip q + ahead) % 2 ^ 32)) ||
        (!ship && (dw d 2 != 0 || decide (240 < df d 1 0 16)))) ]

/-! ## The collective sequencer -/

/-- A plan record (R204). -/
structure Plan where
  shard : Nat
  stage : Nat
  scratch : Nat
  work : Nat
  rnd : Bool
  ldig : Bool
  vl : Nat
  dims : Nat
  recov : Nat
  deriving DecidableEq, Repr

/-- Plan p of quarter q (R204). -/
def State.plan (s : State) (q p : Nat) : Plan :=
  let a := s.num64 (mPage .coll) (Reg.COLL_PLANq_LO + 8 * q) (Reg.COLL_PLANq_HI + 8 * q) + 64 * p
  let f := s.readNat (a + 28) 1
  { shard := s.readNat a 8, stage := s.readNat (a + 8) 8, scratch := s.readNat (a + 16) 8, work := s.readNat (a + 24) 4
    rnd := bitAt f 0, ldig := bitAt f 1, vl := bitsOf f 2 3, dims := bitsOf f 5 3, recov := s.readNat (a + 32) 8 }

/-- The class of a bucket tag (R150, R194). -/
def tagClass (tag : Nat) : Nat := bitsOf tag 30 2

/-- The number of vector engines that a set names. -/
def setSize (v : Nat) : Nat := ((List.range 16).filter (fun i => bitAt v i)).length

/-- The code under which CS0 of quarter q refuses a descriptor; `running` are the tags that run on it (R139, R146, R150,
R190, R204, R240). -/
def State.checkColl (s : State) (q : Nat) (running : List Nat) (d : Desc) : Nat :=
  let op := dOp d
  let tag := dw d 2
  let cls := tagClass tag
  let len := dw d 5
  let planOk := decide (dw d 6 < s.field (mPage .coll) Reg.COLL_PLAN_CFG 0 13)
  let p := s.plan q (dw d 6)
  let st := s.stepState
  firstCode
    [ (0x01, op == 0 || decide (3 < op))
    , (0x05, if op = 3 then len % 4 != 0 else
        len == 0 || len % 64 != 0 || decide (2 ^ 26 < len) ||
        (planOk && unaligned64 (if op = 1 then [p.shard, p.scratch, p.work, p.recov] else [p.stage])))
    , (0x08, anyNonzero [df d 0 5 27, df d 1 0 16, df d 7 16 16, dw d 8, dw d 9, dw d 10, dw d 11, dw d 12, dw d 13,
        dw d 14] || sigBad d || ((op == 3) != (cls == 1)) ||
        (op == 3 && (anyNonzero [df d 0 4 1, dw d 6, df d 7 0 16, dStream d] || decide (2 < st))) ||
        (op != 3 && (!planOk || running.contains tag || decide (6 ≤ p.vl) || (cls == 2 && p.dims != 7))) ||
        (op == 1 && (decide (setSize (df d 7 0 16) < 2) || (cls == 2 && p.recov == 0))) ||
        (op == 2 && anyNonzero [df d 7 0 16, dStream d])) ]

end Sys2Proof.Machine
end

