-- ==== Sys2Proof/Machine/FaultOps.lean ====
section
/-! DEFINITION. Fault records (R470) and writes under leases (R158). -/

namespace Sys2Proof.Machine

/-- Write a fault record; the file keeps the 16 newest (R470). -/
def State.faultRecord (s : State) (kind quarter unit subject detail : Nat) : State :=
  let f := mPage .fault
  let s := s.addWrap f Reg.FAULT_FREC_SEQ 1
  let r : FaultRec := { time := s.podCount, attempt := s.attempt, kind := kind, quarter := quarter, unit := unit,
                        subject := subject, detail := detail, seq := s.num f Reg.FAULT_FREC_SEQ }
  { s with frecs := (r :: s.frecs).take 16 }

/-- A fault record with its event of the FAULT page (R470, R471). -/
def State.fault (s : State) (kind quarter unit subject detail bit : Nat) : State :=
  (s.faultRecord kind quarter unit subject detail).raise (mPage .fault) bit

/-! ## Writes under leases -/

/-- Does a write of the schedulers, kept back since before `since` if that is given, share a weight page with `n` bytes from
`a` (R158)? -/
def State.keptShares (s : State) (a n : Nat) (since : Option Nat) : Bool :=
  s.stackUnits.any (fun e => e.2.reqs.any (fun r => r.sent.isNone &&
    r.kept.any (fun k => since.all (fun t => decide (k < t))) && sharePage a n r.addr 64))

/-- Must a write wait: a held lease covers it, or an earlier waiting write shares a page with it (R158)? -/
def State.writeWaits (s : State) (a n : Nat) : Bool :=
  s.leaseCovers a n || s.leases.writes.any (fun w => sharePage a n w.addr w.bytes.length) || s.keptShares a n none

/-- Is a write a piece of an update program's, which counts its accesses as a whole (log entry 52)? -/
def byProgram (owner : Option (Nat × Nat × Nat)) : Bool := owner.any (fun o => decide (160 ≤ o.2.1))

/-- Perform a write that waits for nothing: a piece of an update program, or accesses of its own through its port. -/
def State.putWrite (s : State) (owner : Option (Nat × Nat × Nat)) (a : Nat) (bs : List (Byte × Bool)) : State :=
  if byProgram owner then s.storeMarked a bs
  else s.writeMarkedBy (owner.bind (fun o => if o.1 < 4 then some (portOf o.1 o.2.1) else none)) a bs

/-- A write to any local address, with its poison marks: a D-tier write waits on the leases (R158). -/
def State.memWrite (s : State) (owner : Option (Nat × Nat × Nat)) (a : Nat) (bs : List (Byte × Bool)) : State :=
  if s.writeWaits a bs.length then
    { s with leases := { s.leases with writes := s.leases.writes ++
      [{ addr := a, bytes := bs, owner := owner, since := s.podCount }] } }
  else s.putWrite owner a bs

/-- Clean bytes written to any local address. -/
def State.memPutBytes (s : State) (owner : Option (Nat × Nat × Nat)) (a : Nat) (bs : List Byte) : State :=
  s.memWrite owner a (bs.map (fun b => (b, false)))

/-- The owner marks of the module's own writes (R155, R455, R462): the commit's copy, the copy of an entry of the layer table,
the mend of a page. -/
def commitOwner : Nat × Nat × Nat := (4, 0, 0)
@[inherit_doc commitOwner] def copyOwner (index : Nat) : Nat × Nat × Nat := (4, 1, index)
@[inherit_doc commitOwner] def mendOwner (page : Nat) : Nat × Nat × Nat := (4, 2, page)

/-- Does an owner wait for a write? -/
def State.ownerWaits (s : State) (o : Nat × Nat × Nat) : Bool := s.leases.writes.any (fun w => w.owner == some o)

/-- A write of the module's own state to the D tier (R158, R167). -/
def State.ownWrite (s : State) (a n v : Nat) : State := s.memPutBytes none a (leBytes n v)

/-- Does a descriptor still wait for a write (R106)? -/
def State.writesOpen (s : State) (q n seq : Nat) : Bool := s.leases.writes.any (fun w => w.owner == some (q, n, seq))

end Sys2Proof.Machine
end

