-- ==== Sys2Proof/Machine/FabricOps.lean ====
section
/-! DEFINITION. The fabric: addresses, routes, ports, sending and the common part of receiving (R234 to R252). -/

namespace Sys2Proof.Machine

/-! ## Identities and ports -/

/-- Is this module the lead (R267)? -/
def State.isLead (s : State) : Bool := s.field (mPage .pod) Reg.POD_ROLE 0 2 == 2
/-- Is this module the standby? -/
def State.isStandby (s : State) : Bool := s.field (mPage .pod) Reg.POD_ROLE 0 2 == 1

/-- The lead's site and chip, if known. -/
def State.leadId (s : State) : Option Nat :=
  if s.bit (mPage .pod) Reg.POD_LEAD_ID 31 then some (s.field (mPage .pod) Reg.POD_LEAD_ID 0 18) else none
/-- The standby's site and chip, if known. -/
def State.standbyId (s : State) : Option Nat :=
  if s.bit (mPage .pod) Reg.POD_STANDBY_ID 31 then some (s.field (mPage .pod) Reg.POD_STANDBY_ID 0 18) else none

/-- Port Qq.d. -/
def State.port (s : State) (q d : Nat) : Port := mapGet (fun _ => {}) s.fabric.ports (6 * q + d)
/-- Replace a port. -/
def State.setPort (s : State) (q d : Nat) (x : Port) : State :=
  { s with fabric := { s.fabric with ports := mapSet (fun _ => {}) s.fabric.ports (6 * q + d) x } }
/-- Replace what the module keeps of its pod. -/
def State.setPod (s : State) (x : Pod) : State := { s with fabric := { s.fabric with pod := x } }

/-- Is a port up (R266)? -/
def State.portUp (s : State) (q d : Nat) : Bool := s.bit (qPage .fport q d) Reg.FPORT_PORT_STS 0
/-- Does a port carry traffic: up and not MISWIRED (R234)? -/
def State.portUsable (s : State) (q d : Nat) : Bool :=
  s.portUp q d && !s.bit (qPage .fport q d) Reg.FPORT_PORT_STS 2

/-- The direction opposite to d. -/
def opposite (d : Nat) : Nat := if d % 2 = 0 then d + 1 else d - 1

/-! ## Positions and addresses -/

/-- Coordinate k of a chip number (R235). -/
def coord (chip k : Nat) : Nat := bitsOf chip (5 * k) 5
/-- A chip number with coordinate k replaced. -/
def putCoord (chip k v : Nat) : Nat := putBits chip (5 * k) 5 v

/-- The cut table's entry of a chip: 0 active, 1 spare, 2 cut, 3 absent (R246, R252). -/
def State.cutOf (s : State) (chip : Nat) : Nat := mapGet (fun _ => 3) s.fabric.pod.cut chip

/-- Physical size of dimension k: what the positions that are not absent span, and what LSHAPE and the lead's position
show before the cut table is known (R234, R235, R259). -/
def State.physSize (s : State) (k : Nat) : Nat :=
  let pod := mPage .pod
  let known := max (coord s.selfId k + 1) (s.field pod Reg.POD_LSHAPE (8 * k) 5 + 1)
  let known := match s.leadId with
    | some l => max known (coord l k + 1)
    | none => known
  s.fabric.pod.cut.foldl (fun m e => max m (coord e.1 k + 1)) known

/-- Hops between two chips, each dimension the shorter way round (R251, R262). -/
def State.hops (s : State) (a b : Nat) : Nat :=
  (List.range 3).foldl (fun n k =>
    let z := s.physSize k
    let f := (coord b k + z - coord a k) % z
    n + min f ((z - f) % z)) 0

/-- The nearest of a list of chips to a chip; the lower chip number where two are equally near (R262). -/
def State.nearest (s : State) (a : Nat) (l : List Nat) : Option Nat :=
  l.foldl (fun b c =>
    match b with
    | none => some c
    | some d => if s.hops a c < s.hops a d ∨ (s.hops a c = s.hops a d ∧ c < d) then some c else b) none

/-- The alias of a site and chip, if an entry is valid (R264, R267). -/
def State.aliasOf (s : State) (id : Nat) : Option Nat :=
  let p := mPage .pod
  ((List.range 256).find? (fun n => s.bit p (Reg.POD_ALIASn_FROM + 8 * n) 31 &&
    s.field p (Reg.POD_ALIASn_FROM + 8 * n) 0 18 == id)).map (fun n => s.field p (Reg.POD_ALIASn_TO + 8 * n) 0 18)

/-- What a global address resolves to (R249). -/
inductive Target where
  | fail (code : Nat)
  | here (a : Nat)
  | site (a : Nat)
  | chip (a : Nat)
  deriving DecidableEq, Repr

/-- Resolve a global address (R249). -/
def State.resolve (s : State) (a : Nat) : Target :=
  if 2 ^ 63 ≤ a then .fail 0x20
  else
    let id := a / 2 ^ 45
    if id / 2 ^ 15 ≠ s.selfId / 2 ^ 15 then .site a
    else
      let id := (s.aliasOf id).getD id
      if id = s.selfId then .here (a % 2 ^ 45)
      else
        match s.cutOf (id % 2 ^ 15) with
        | 0 | 1 => .chip (id * 2 ^ 45 + a % 2 ^ 45)
        | 2 => .fail 0x21
        | _ => .fail 0x20

/-! ## Routing (R251, R252) -/

/-- The next position from a chip in direction d. -/
def State.stepChip (s : State) (chip d : Nat) : Nat :=
  let k := d / 2
  let n := s.physSize k
  putCoord chip k (if d % 2 = 0 then (coord chip k + 1) % n else (coord chip k + n - 1) % n)

/-- Does a step in direction d from a chip cross the dateline of its dimension (R251)? -/
def State.crosses (s : State) (chip d : Nat) : Bool :=
  if d % 2 = 0 then coord chip (d / 2) + 1 == s.physSize (d / 2) else coord chip (d / 2) == 0

/-- The shorter way round from coordinate c to e in dimension k of size n, + when the ways are equal. -/
def shorterWay (k c e n : Nat) : Nat := if (e + n - c) % n ≤ (c + n - e) % n then 2 * k else 2 * k + 1

/-- The detour dimension of k: the next in the cycle, or the one after where that has size 1 (R252). -/
def State.detourDim (s : State) (k : Nat) : Option Nat :=
  if 1 < s.physSize ((k + 1) % 3) then some ((k + 1) % 3)
  else if 1 < s.physSize ((k + 2) % 3) then some ((k + 2) % 3)
  else none

/-- Is a position open to a frame: neither cut nor absent? -/
def State.openAt (s : State) (chip : Nat) : Bool := decide (s.cutOf chip < 2) || chip == s.selfId % 2 ^ 15

/-- A hop: direction, buffer class and ROUTE as it is forwarded. -/
structure Hop where
  dir : Nat
  cls : Nat
  route : Nat
  deriving DecidableEq, Repr

/-- The direction from coordinate a to its neighbour b in dimension k of size n. -/
def stepDir (k a b n : Nat) : Nat := if (a + 1) % n = b then 2 * k else 2 * k + 1

/-- The hop of a detour in progress (R252): two hops along, and back to the line that the frame left. That line's coordinate in
the detour dimension is the destination's where dimension order has passed it, and the source's where it has not. -/
def State.detourHop (s : State) (me src dst route travel : Nat) : Hop :=
  let crossed (d : Nat) : Nat := if bitAt route 3 || s.crosses me d then 8 else 0
  match bitsOf route 1 2 with
  | 1 =>
    let e := travel / 2
    let k := if 1 < s.physSize ((e + 2) % 3) then (e + 2) % 3 else (e + 1) % 3
    let d := shorterWay k (coord me k) (coord dst k) (s.physSize k)
    { dir := d, cls := 2, route := 1 + 4 + crossed d }
  | 2 => { dir := travel, cls := 2, route := 1 + 6 + crossed travel }
  | _ =>
    let k := travel / 2
    let e := (s.detourDim k).getD 0
    let line := coord (if e < k then dst else src) e
    { dir := stepDir e (coord me e) line (s.physSize e), cls := 2
      route := if bitAt route 3 && coord me k != coord dst k then 8 else 0 }

/-- Does the way from a chip in direction d meet a cut position before coordinate k is that of the destination (R252)? -/
def State.wayCut (s : State) (dst d : Nat) : Nat → Nat → Bool
  | 0, _ => false
  | n + 1, c =>
    if coord c (d / 2) = coord dst (d / 2) then false
    else s.cutOf (s.stepChip c d) == 2 || s.wayCut dst d n (s.stepChip c d)

/-- The next hop of a frame of chip `src` for chip `dst` with a ROUTE, and the direction it travelled last, if it was
forwarded; none where it is discarded (R251, R252). A frame that goes the other way round goes on so, and makes no detour. -/
def State.nextHop (s : State) (src dst route : Nat) (travel : Option Nat) : Option Hop :=
  let me := s.selfId % 2 ^ 15
  if bitAt route 0 then some (s.detourHop me src dst route (travel.getD 0))
  else
    match (List.range 3).find? (fun k => coord me k != coord dst k) with
    | none => none
    | some k =>
      let n := s.physSize k
      let way := shorterWay k (coord me k) (coord dst k) n
      let d := match travel with
        | some v => if v / 2 = k then v else way
        | none => way
      let plain (d : Nat) : Hop :=
        let x := bitAt route 3 || s.crosses me d
        let last := coord (s.stepChip me d) k == coord dst k
        { dir := d, cls := if x then 1 else 0, route := if x && !last then 8 else 0 }
      let nxt := s.stepChip me d
      if s.cutOf nxt ≠ 2 then some (plain d)
      else if nxt = dst ∨ d ≠ way then none
      else
        let free (e : Nat) : Bool :=
          let p := s.stepChip me e
          let p2 := s.stepChip p d
          let p3 := s.stepChip p2 d
          s.openAt p && s.openAt p2 && s.openAt p3
        let out (e : Nat) : Hop := { dir := e, cls := 2, route := 1 + 2 + (if bitAt route 3 then 8 else 0) }
        match (s.detourDim k).bind (fun e => [2 * e, 2 * e + 1].find? free) with
        | some e => some (out e)
        | none =>
          let o := opposite d
          if s.wayCut dst o n me then none else some (plain o)

/-! ## Sending -/

/-- The port that carries quarter q's frames in direction d: its own, or the lowest sibling that is up (R247). Where none
carries traffic the frames wait at their own. -/
def State.exitQuarter (s : State) (q d : Nat) : Nat :=
  if s.portUsable q d then q else ((List.range 4).find? (fun p => s.portUsable p d)).getD q

/-- Are two frames of one lane, from one module and quarter to one module (R242)? -/
def Frame.sameFlow (f g : Frame) : Bool :=
  f.vl == g.vl && f.src == g.src && f.srcQ == g.srcQ && f.dst / 2 ^ 45 == g.dst / 2 ^ 45

/-- The port by which a frame leaves in direction d (R242, R247): a sibling that still holds earlier frames of its flow, so that it does not
overtake them, or the one that carries its quarter's frames. -/
def State.exitFor (s : State) (f : Frame) (d : Nat) : Nat :=
  let holds (p : Nat) : Bool := p != f.srcQ && s.portUsable p d && (s.port p d).waiting.any (fun w => w.frame.sameFlow f)
  ((List.range 4).find? holds).getD (s.exitQuarter f.srcQ d)

/-- Put a frame on a port's waiting frames, by fragments: `at_` is the ACLK at which the port may accept it, and `owe` the port, lane and
class by which it came, for the credits that its leaving returns (R240, R244, R340). -/
def State.putFrame (s : State) (q d : Nat) (f : Frame) (at_ : Nat) (owe : Option (Nat × Nat × Nat × Nat)) : State :=
  let x := s.port q d
  let l := f.fragments.map (fun g =>
    ({ frame := g, ready := at_ + sourceAclk
       owe := owe.map (fun o => (o.1, o.2.1, o.2.2.1, o.2.2.2, g.credits)) } : Waiting))
  s.setPort q d { x with waiting := x.waiting ++ l }

/-- Send a frame towards its target by R251, from ACLK `at_` on; the answer is false where R252 discards it. `travel` and
`owe` are the direction it travelled and the port by which it came, if it is forwarded. -/
def State.routeAt (s : State) (f : Frame) (travel : Option Nat) (at_ : Nat) (owe : Option (Nat × Nat × Nat × Nat)) : State × Bool :=
  match s.nextHop (f.src % 2 ^ 15) (f.dst / 2 ^ 45 % 2 ^ 15) f.route travel with
  | none => (s.raiseIf s.isLead (mPage .pod) 4, false)
  | some h =>
    let p := s.exitFor f h.dir
    let from_ := (owe.map Prod.fst).getD f.srcQ
    (s.putFrame p h.dir { f with cls := h.cls, route := h.route } (at_ + seamAclk from_ p) owe, true)

/-- Send a frame of this module now. -/
def State.route (s : State) (f : Frame) (travel : Option Nat) : State × Bool := s.routeAt f travel s.now none

/-- A frame of this module's quarter `q`. -/
def State.ownFrame (s : State) (vl q dst : Nat) (b : Body) : Frame :=
  { vl := vl, cls := 0, src := s.selfId, srcQ := q, dst := dst, route := 0, body := b }

/-- Send a message of this module to a global address of another module, from ACLK `at_` on. -/
def State.sendAt (s : State) (vl q dst : Nat) (b : Body) (at_ : Nat) : State :=
  (s.routeAt (s.ownFrame vl q dst b) none at_ none).1

/-- Send a message of this module to a global address of another module. -/
def State.sendTo (s : State) (vl q dst : Nat) (b : Body) : State := s.sendAt vl q dst b s.now

/-- Send a message to a module by site and chip, from the quarter that runs module services. -/
def State.sendId (s : State) (vl id : Nat) (b : Body) : State := s.sendTo vl s.service (id * 2 ^ 45) b

/-- Send a message to the neighbour of a port, on that port. -/
def State.sendOn (s : State) (q d vl : Nat) (b : Body) : State :=
  s.putFrame q d (s.ownFrame vl q (s.field (qPage .fport q d) Reg.FPORT_NEIGH_ID 0 18 * 2 ^ 45) b) s.now none

/-- The ports that are up, by quarter and direction. -/
def State.upPorts (s : State) : List (Nat × Nat) :=
  ((List.range 24).map (fun i => (i / 6, i % 6))).filter (fun p => s.portUp p.1 p.2)

/-- The modules of the pod that the cut table knows, but for this one: site and chip. -/
def State.otherModules (s : State) : List Nat :=
  (s.fabric.pod.cut.filter (fun e => decide (e.2 < 2) && e.1 != s.selfId % 2 ^ 15)).map
    (fun e => s.selfId / 2 ^ 15 * 2 ^ 15 + e.1)

/-- Packets of a request on a migration queue pair of path MTU 4,096 (R270). -/
def sitePackets : Body → Nat
  | .write _ _ bs => max 1 ((bs.length + 4095) / 4096)
  | .readReq _ len _ => max 1 ((len + 4095) / 4096)
  | _ => 1

/-- The migration queue pair of quarter q for a site (R270). -/
def State.migQp (s : State) (q site : Nat) : MigQp := mapGet (fun _ => {}) s.mig.qps (16 * site + q)

/-- Replace a migration queue pair. -/
def State.setMigQp (s : State) (q site : Nat) (x : MigQp) : State :=
  { s with mig := { s.mig with qps := mapSet (fun _ => {}) s.mig.qps (16 * site + q) x } }

/-- Hand an access for another site to the issuing quarter's site port, on the queue pair for that site: it takes its PSNs (R270,
R273). -/
def State.toSite (s : State) (vl q dst : Nat) (b : Body) : State :=
  let site := dst / 2 ^ 60 % 8
  let x := s.migQp q site
  (s.setMigQp q site { x with psn := (x.psn + sitePackets b) % 2 ^ 24 }).emit (.site (s.ownFrame vl q dst b))

/-- A remote counter increment: applied here where the address is local, else sent as a SIG frame (R109, R136). The
model keeps a SIG for another site as a cross-site access. -/
def State.sendSig (s : State) (vl q a : Nat) (counter quarter : Nat) (apply : State → State) : State :=
  match s.resolve a with
  | .here _ => apply s
  | .chip dst => s.sendTo vl q dst (.sig counter quarter 1)
  | .site dst => s.toSite vl q dst (.sig counter quarter 1)
  | .fail _ => s

/-! ## The tree (R200, R201, R244) -/

/-- The parent's direction in the tree; 7 at the root (R205). -/
def State.treeParent (s : State) : Nat := s.field (mPage .coll) Reg.COLL_TREE 0 3
/-- Does the module hold no logical position (R235)? -/
def State.isSpare (s : State) : Bool := s.field (mPage .pod) Reg.POD_ROLE 2 2 == 1

/-- The children's directions in the tree. A lead that is a spare has one child, the module at the tree's root position,
which the model numbers 6 (log entry 24). -/
def State.treeChildren (s : State) : List Nat :=
  if s.isLead && s.isSpare then [6] else (List.range 6).filter (fun i => s.bit (mPage .coll) Reg.COLL_TREE (8 + i))

/-- The logical position at which the tree is rooted: the lead's, taken into the logical shape. -/
def State.rootChip (s : State) (lead : Nat) : Nat :=
  let n (k : Nat) : Nat := s.field (mPage .pod) Reg.POD_LSHAPE (8 * k) 5 + 1
  (coord lead 0 % n 0) + 32 * (coord lead 1 % n 1) + 1024 * (coord lead 2 % n 2)

/-- The site and chip of logical neighbour i; 6 is the module at the root position. -/
def State.neigh (s : State) (i : Nat) : Nat :=
  if i = 6 then
    let r := s.selfId / 2 ^ 15 * 2 ^ 15 + s.rootChip (s.selfId % 2 ^ 15)
    (s.aliasOf r).getD r
  else s.field (mPage .coll) (Reg.COLL_NEIGHi + 4 * i) 0 18

/-- The header of this module's own TREE messages. -/
def State.treeHdr (s : State) : TreeHdr :=
  { term := s.num (mPage .pod) Reg.POD_LEAD_TERM, origin := s.selfId, attempt := s.attempt }

/-- Send a TREE message towards logical neighbour i, on VL 7. -/
def State.treeSend (s : State) (i : Nat) (h : TreeHdr) (m : TreeMsg) : State := s.sendId 7 (s.neigh i) (.tree h m)

/-- Send a TREE message to the parent; the root of a tree whose lead is a spare sends it to the lead. -/
def State.treeUp (s : State) (h : TreeHdr) (m : TreeMsg) : State :=
  if s.treeParent < 6 then s.treeSend s.treeParent h m
  else if s.isLead then s
  else
    match s.leadId with
    | some l => s.sendId 7 l (.tree h m)
    | none => s

/-- Send a TREE message to every child. -/
def State.treeDown (s : State) (h : TreeHdr) (m : TreeMsg) : State :=
  s.treeChildren.foldl (fun s i => s.treeSend i h m) s

/-! ## Remote segments -/

/-- Issue a remote segment to a resolved target, with the body that its number makes; the answer is the state. -/
def State.newSeg (s : State) (q n seq index : Nat) (kind : SegKind) (vl : Nat) (t : Target) (b : Nat → Body) : State :=
  let id := s.fabric.nextSeg
  let add (chip : Option Nat) (ans : Option (Nat × List (Byte × Bool))) : State :=
    { s with fabric := { s.fabric with nextSeg := id + 1, segs := s.fabric.segs ++
      [{ id := id, q := q, n := n, seq := seq, index := index, kind := kind, chip := chip, answer := ans }] } }
  match t with
  | .fail c => add none (some (c, []))
  | .here _ => s
  | .site dst => (add none none).toSite vl q dst (b id)
  | .chip dst =>
    let s' := add (some (dst / 2 ^ 45 % 2 ^ 15)) none
    let r := s'.route (s.ownFrame vl q dst (b id)) none
    if r.2 then r.1
    else { r.1 with fabric := { r.1.fabric with
      segs := replaceFirst (fun g => g.id == id) (fun g => { g with answer := some (0x21, []) }) r.1.fabric.segs } }

/-- The answer of a remote segment, once its requester has it (R340). -/
def Seg.answered (g : Seg) (now : Nat) : Option (Nat × List (Byte × Bool)) := if g.due ≤ now then g.answer else none

/-- The remote segment of a queue entry's segment index. -/
def State.segOf (s : State) (q n seq index : Nat) : Option Seg :=
  s.fabric.segs.find? (fun g => g.q == q && g.n == n && g.seq == seq && g.index == index)

/-- Forget a remote segment. -/
def State.dropSeg (s : State) (id : Nat) : State :=
  { s with fabric := { s.fabric with segs := s.fabric.segs.filter (fun g => g.id != id) } }

/-- The queue number under which a relayed access of another site waits for its answer (R273): its site and segment ID
stand in `seq` and `index`. -/
def relayQueue : Nat := 255

/-- Relayed accesses that have their answer are answered to their site (R273). -/
def State.answerRelays (s : State) : State :=
  let due (g : Seg) : Bool := g.n == relayQueue && g.answer.isSome
  let s' : State := { s with fabric := { s.fabric with segs := s.fabric.segs.filter (fun g => !due g) } }
  (s.fabric.segs.filter due).foldl (fun s g =>
    s.emit (.siteAnswer g.q g.seq g.index ((g.answer.map Prod.fst).getD 0) ((g.answer.map Prod.snd).getD []))) s'

/-- The answer of a remote segment has come; its requester has it at ACLK `due` (R340). -/
def State.answerSeg (s : State) (id code : Nat) (bs : List (Byte × Bool)) (due : Nat) : State :=
  ({ s with fabric := { s.fabric with segs := s.fabric.segs.map (fun g =>
    if g.id = id ∧ g.answer = none then { g with answer := some (code, bs), due := due } else g) } } : State).answerRelays

/-- Segments in flight to a chip that is cut fail with 0x21 (R262). -/
def State.failSegsTo (s : State) (chip : Nat) : State :=
  ({ s with fabric := { s.fabric with segs := s.fabric.segs.map (fun g =>
    if g.chip = some chip ∧ g.answer = none then { g with answer := some (0x21, []) } else g) } } : State).answerRelays

/-! ## The link layer (R240, R241) -/

/-- A frame as it leaves: a TIME frame of this module's own takes its PHY stamp, at every sending (R243). -/
def State.stamped (s : State) (f : Frame) : Frame :=
  let now := s.pod.count64 % 2 ^ 64
  match f.body with
  | .time m =>
    if f.src = s.selfId then
      { f with body := .time (if m.kind = 0 ∨ m.kind = 2 then { m with ta := now } else { m with tc := now }) }
    else f
  | _ => f

/-- The LACK of a port: the last LSEQ received in order. -/
def Port.lack (x : Port) : Nat := (x.rxSeq + 2 ^ 32 - 1) % 2 ^ 32

/-- The credit return that the next frame carries, and what is left owed. -/
def Port.takeOwed (x : Port) : Option (Nat × Nat × Nat) × Port :=
  match x.owed with
  | [] => (none, x)
  | e :: l => (some (e.1 / 3, e.1 % 3, e.2), { x with owed := l })

/-- Send a CTRL frame: acknowledgement, one credit return, and a NAK (R239 to R241). It takes no LSEQ and no credit. -/
def State.sendCtrl (s : State) (q d : Nat) (nak : Option Nat) : State :=
  let r := (s.port q d).takeOwed
  let f := s.ownFrame 6 q (s.field (qPage .fport q d) Reg.FPORT_NEIGH_ID 0 18 * 2 ^ 45) (.ctrl nak)
  (s.setPort q d { r.2 with lastCtrl := s.now }).emitAt (.frame q d (s.port q d).txSeq r.2.lack r.1 f)
    (s.now + sourceAclk + if nak.isSome then 504 else 0)

/-- Put a frame on the wire: LSEQ, acknowledgement and a credit return (R238, R241). -/
def State.wire (s : State) (q d lseq : Nat) (f : Frame) : State :=
  let r := (s.port q d).takeOwed
  (s.setPort q d r.2).emitAt (.frame q d lseq r.2.lack r.1 f) s.now

/-- A neighbour that no port of direction d reaches is unreachable: the module reports it to the lead, and the lead counts
its own finding (R246, R247, R261). A lost parent leaves the rate as it is (HOLDOVER, R254). -/
def State.directionLost (s : State) (q d : Nat) : State :=
  if (List.range 4).any (fun p => s.portUsable p d) then s
  else
    let pod := mPage .pod
    let s := if s.field (mPage .coll) Reg.COLL_TREE 0 3 = d ∧ !s.isLead then s.setBit pod Reg.POD_PT_STS 1 true else s
    let id := s.num (qPage .fport q d) Reg.FPORT_NEIGH_ID
    if !bitAt id 31 then s
    else
      let n := id % 2 ^ 18
      if s.isLead then
        s.setPod { s.fabric.pod with unreachable := (s.fabric.pod.unreachable ++ [(n, s.selfId)]).eraseDups }
      else
        match s.leadId with
        | none => s
        | some l => s.sendId 6 l (.mend (s.num pod Reg.POD_MEND_EPOCH) [{ rtype := 5, flags := 0, subject := n, other := 0, value := d }])

/-- Park a port that has gone down more than FLAP_MAX times within 10 minutes (R467). -/
def State.parkIfFlapping (s : State) (q d : Nat) : State :=
  let f := mPage .fault
  let page := qPage .fport q d
  let x := s.port q d
  let recent := x.downs.filter (fun a => decide (s.now ≤ a + 2160000000000))
  let s := s.setPort q d { x with downs := recent }
  let limit := s.field f Reg.FAULT_FLAP_MAX 0 8
  if s.bit f Reg.FAULT_FLT_CTL 1 && limit != 0 && decide (limit < recent.length) then
    (s.journalled (.cp q 3) page Reg.FPORT_PORT_CTL (s.reg page Reg.FPORT_PORT_CTL &&& ~~~1#32)).fault 0x03 q d
      (s.field page Reg.FPORT_NEIGH_ID 0 18) 0 3
  else s

/-- Take a link down (R241, R242, R247): LINK_DOWN is raised and credits are gone; the frames that were not acknowledged, in
the order of their LSEQ, and then those that wait cross a seam to a sibling. -/
def State.linkDown (s : State) (q d : Nat) : State :=
  let page := qPage .fport q d
  if s.portUp q d then
    let x := s.port q d
    let s := s.setNum page Reg.FPORT_PORT_STS (s.num page Reg.FPORT_PORT_STS / 0x200 * 0x200 + s.field page Reg.FPORT_PORT_STS 4 1 * 16)
    let s := s.setPort q d { x with credits := [], owed := [], waiting := [], replay := [], nakked := false, downs := x.downs ++ [s.now] }
    let o := s.exitQuarter q d
    let y := s.port o d
    let late := seamAclk q o
    let again := x.replay.map (fun r => ({ frame := r.frame, ready := s.now + sourceAclk + late } : Waiting))
    let rest := x.waiting.map (fun w => { w with ready := max w.ready (s.now + sourceAclk) + late })
    let s := (s.setPort o d { y with waiting := y.waiting ++ (again ++ rest) }).raise page 0
    (s.parkIfFlapping q d).directionLost q d
  else s

/-- Resend every unacknowledged frame from an LSEQ on; each counts in RETRIES, and a frame's sixteenth resend takes the
link down (R241). A module that has been cut resends on lane 6 only (R262). -/
def State.resendFrom (s : State) (q d from_ : Nat) : State :=
  let x := s.port q d
  let hit (r : Replay) : Bool := decide ((r.lseq + 2 ^ 32 - from_) % 2 ^ 32 < 2 ^ 31) && (!s.fabric.pod.selfCut || r.frame.vl == 6)
  let again := x.replay.filter hit
  let page := qPage .fport q d
  let s := s.setPort q d { x with replay := x.replay.map (fun r =>
    if hit r then { r with frame := s.stamped r.frame, sentAt := s.now, resends := r.resends + 1 } else r) }
  let s := again.foldl (fun s r => s.wire q d r.lseq (s.stamped r.frame)) s
  let s := s.addSat page Reg.FPORT_RETRIES again.length
  if again.any (fun r => decide (16 ≤ r.resends + 1)) then (s.raise page 4).linkDown q d else s

/-- What every valid frame carries: a sign of life, an acknowledgement and a credit return (R238, R240, R241). -/
def State.rxHeader (s : State) (h : RxHdr) : State :=
  let x := s.port h.q h.d
  let kept := x.replay.filter (fun r => decide (2 ^ 31 ≤ (h.lack + 2 ^ 32 - r.lseq) % 2 ^ 32))
  let credits := match h.credit with
    | none => x.credits
    | some (v, k, n) =>
      let c := mapGet (fun _ => 0) x.credits (3 * v + k)
      mapSet (fun _ => 0) x.credits (3 * v + k) (min (fullCredits v k) (c + n))
  s.setPort h.q h.d { x with lastRx := s.now, replay := kept, credits := credits }

/-- The buffer of a frame that was delivered, forwarded or discarded is free: its credits are owed (R240). -/
def State.oweCredits (s : State) (q d vl cls n : Nat) : State :=
  let x := s.port q d
  let c := mapGet (fun _ => 0) x.owed (3 * vl + cls)
  s.setPort q d { x with owed := mapSet (fun _ => 0) x.owed (3 * vl + cls) (c + n)
                         owedSince := if x.owed.isEmpty then s.now else x.owedSince
                         held := mapSet (fun _ => 0) x.held (3 * vl + cls) (mapGet (fun _ => 0) x.held (3 * vl + cls) - n) }

/-- A frame that is to be forwarded takes its receive buffer (R240, R266). -/
def State.holdBuffer (s : State) (q d vl cls n : Nat) : State :=
  let x := s.port q d
  s.setPort q d { x with held := mapSet (fun _ => 0) x.held (3 * vl + cls) (mapGet (fun _ => 0) x.held (3 * vl + cls) + n) }

/-- FEC codewords of a received frame that the port corrected, and those that it could not (R236, R266). -/
def State.noteFec (s : State) (h : RxHdr) : State :=
  let page := qPage .fport h.q h.d
  ((s.addSat page Reg.FPORT_FEC_CORR h.fecCorr).addSat page Reg.FPORT_FEC_UNCORR h.fecUncorr).raiseIf (h.fecUncorr != 0) page 5

/-- ACLK at which a frame whose first bit came now has been checked and released (R340). -/
def State.released (s : State) (b : Body) : Nat := s.now + 3 * (168 + serialMclk b.frameLen)

/-- NAK the LSEQ that a port expects, once for a gap (R241). -/
def State.nakGap (s : State) (q d : Nat) : State :=
  let x := s.port q d
  if x.nakked then s else (s.setPort q d { x with nakked := true }).sendCtrl q d (some x.rxSeq)

/-- A frame that arrived in order for another module is forwarded once it is released and its hop is decided; it holds its
receive buffer until it leaves (R240, R251, R340). -/
def State.forward (s : State) (h : RxHdr) (b : Body) : State :=
  let f : Frame := { vl := h.vl, cls := h.cls, src := h.src, srcQ := h.srcQ, dst := h.dst, route := h.route, body := b }
  let r := (s.holdBuffer h.q h.d h.vl h.cls b.credits).routeAt f (some (opposite h.d)) (s.released b + 36)
    (some (h.q, h.d, h.vl, h.cls))
  if r.2 then r.1 else r.1.oweCredits h.q h.d h.vl h.cls b.credits

/-- The common part of receiving a frame (R237 to R241, R243 to R246, R251, R262): the answer tells whether its body is to be acted
on here. A frame for another module is forwarded; `hop` marks a body meant for the port's own neighbour. -/
def State.receive (s : State) (h : RxHdr) (b : Body) (hop : Bool) : State × Bool :=
  let page := qPage .fport h.q h.d
  let want := (s.port h.q h.d).rxSeq
  if !s.portUp h.q h.d then (s, false)
  else
    let s := s.noteFec h
    if rxBad h b then ((s.addSat page Reg.FPORT_RX_BAD 1).nakGap h.q h.d, false)
    else
      let s := s.rxHeader h
      if h.lseq ≠ want then
        (if (want + 2 ^ 32 - h.lseq) % 2 ^ 32 < 2 ^ 31 then s else s.nakGap h.q h.d, false)
      else
        let x := s.port h.q h.d
        let s := s.setPort h.q h.d { x with rxSeq := (want + b.frames) % 2 ^ 32, nakked := false }
        if s.bit page Reg.FPORT_PORT_STS 4 && h.vl != 6 then (s.oweCredits h.q h.d h.vl h.cls b.credits, false)
        else if hop || decide (h.dst / 2 ^ 45 % 2 ^ 18 = s.selfId) then
          let s := s.oweCredits h.q h.d h.vl h.cls b.credits
          if h.raw.any (rxRefused b) then (s.addSat page Reg.FPORT_RX_BAD 1, false) else (s, true)
        else (s.forward h b, false)

/-- A higher lead term is seen: records of an older term are discarded, and a module that led becomes a WORKER (R258,
R457). -/
def State.newTerm (s : State) (term : Nat) : State :=
  let p := mPage .pod
  let s := s.setNum p Reg.POD_LEAD_TERM term
  let s := if s.isLead then ((s.setField p Reg.POD_ROLE 0 2 0).setBit p Reg.POD_PT_STS 2 false).raise p 0 else s
  { s with train := { s.train with kids := [], prepKids := [], digestKids := [], bucketKids := [] } }

/-- Receive a TREE message: one of a lower LEAD_TERM than the highest seen is dropped (R244, R258). -/
def State.receiveTree (s : State) (h : RxHdr) (t : TreeHdr) (m : TreeMsg) : State × Bool :=
  let r := s.receive h (.tree t m) false
  let pod := mPage .pod
  if !r.2 then r
  else if t.term < r.1.num pod Reg.POD_LEAD_TERM then (r.1, false)
  else if t.term = r.1.num pod Reg.POD_LEAD_TERM then (r.1, true)
  else (r.1.newTerm t.term, true)

end Sys2Proof.Machine
end

