-- ==== Sys2Proof/Machine/Mends.lean ====
section
/-! DEFINITION. Reports to the lead, the layer table, and page mends (R244, R455, R461, R462). -/

namespace Sys2Proof.Machine

/-- Ask the lead for something, or answer at once where this module is the lead (R244). -/
def State.report (s : State) (kind subject value : Nat) (atLead : State → State) : State :=
  if s.isLead then atLead s else s.treeUp s.treeHdr (.reportUp kind subject value)

/-! ## The layer table (R461) -/

/-- Entry i of the layer table: offset, pages and layer (R461). -/
def State.layerEntry (s : State) (i : Nat) : Nat × Nat × Nat :=
  let a := s.num64 (mPage .fault) Reg.FAULT_LTAB_LO Reg.FAULT_LTAB_HI + 16 * i
  (s.readNat a 8, s.readNat (a + 8) 4, s.readNat (a + 12) 2)

/-- Entries of the layer table. -/
def State.layerCount (s : State) : Nat := s.field (mPage .fault) Reg.FAULT_LTAB_COUNT 0 13

/-- The entry of the layer table whose region holds a local address. -/
def State.layerAt (s : State) (a : Nat) : Option Nat :=
  (List.range s.layerCount).find? (fun i => let e := s.layerEntry i; decide (e.1 ≤ a ∧ a < e.1 + 65536 * e.2.1))

/-! ## Page mends (R462) -/

/-- The holder that the lead names for a module: the nearest other active module that did not report another digest than the
majority's at the last comparison (R455, R462, log entry 84). -/
def State.holderFor (s : State) (id : Nat) : Option Nat :=
  let l := (s.fabric.pod.cut.filter (fun e => e.2 == 0 && e.1 != id % 2 ^ 15 && !s.train.minority.contains (s.selfId / 2 ^ 15 * 2 ^ 15 + e.1))).map
    Prod.fst
  (s.nearest (id % 2 ^ 15) l).map (fun c => s.selfId / 2 ^ 15 * 2 ^ 15 + c)

/-- A holder named for the page asked for first (R244, R455, R462): the page's mend, or the layer that begins with it. -/
def State.nameHolder (s : State) (holder : Nat) : State :=
  match s.train.asked with
  | [] => s
  | page :: rest =>
    let named (c : LayerCopy) : LayerCopy :=
      if (s.layerEntry c.index).1 = 0x10000000000 + 0x10000 * page ∧ c.holder.isNone then { c with holder := some holder } else c
    let mends := s.train.mends.map (fun m : PageMend => if m.page = page ∧ m.holder.isNone then ({ m with holder := some holder } : PageMend) else m)
    let up := s.train.takeUp.map (fun u => ({ u with layers := u.layers.map named } : TakeUp))
    { s with train := { s.train with asked := rest, mends := mends, takeUp := up } }

/-- Ask the lead for the holder of a weight page (R462). -/
def State.askHolder (s : State) (page : Nat) : State :=
  let s := { s with train := { s.train with asked := s.train.asked ++ [page] } }
  s.report 4 s.selfId page (fun s => match s.holderFor s.selfId with
    | some h => s.nameHolder h
    | none => s)

/-- Codewords found uncorrectable in a region of the layer table start a page mend each: the module asks the lead for a
holder (R462). The lead names the holder of the majority at its last comparison. -/
def State.startMends (s : State) : State :=
  let lines := s.train.ueLines
  let s := { s with train := { s.train with ueLines := [] } }
  lines.foldl (fun (s : State) a =>
    match s.layerAt a with
    | none => s
    | some _ =>
      let page := (a - 0x10000000000) / 0x10000
      if s.train.mends.any (fun m => m.page == page) then s
      else
        let m : PageMend := { page := page }
        ({ s with train := { s.train with mends := s.train.mends ++ [m] } } : State).askHolder page) s

/-- The outcome of a command that may have read a D-tier line: what it found starts its page mends (R462). -/
def settled (s : State) : Host.Outcome State Fault Refusal :=
  done (if s.train.ueLines.isEmpty then s else s.startMends)

end Sys2Proof.Machine
end

