-- ==== Sys2Proof/Machine/QueueOps.lean ====
section
/-! DEFINITION. Queues: counters, windows, tracker entries, the check at fetch, control entries, refusals and signals (R101 to R117, R143, R150, R151, R460). -/

namespace Sys2Proof.Machine

/-! ## Pages and counters -/

/-- The physical triad of a slot (R42). -/
def State.physOf (s : State) (q slot : Nat) : Nat := s.field (qPage .tslot q 0) (Reg.TSLOT_SLOTn + 4 * slot) 0 5

/-- The page of a queue (R101): an ARRAY page for an array queue. -/
def State.queuePage (s : State) (q n : Nat) : Page :=
  match engineOf n with
  | some (k, i) => qPage k q i
  | none => qPage .array q (s.physOf q (n / 3))

/-- Offset of a register of the queue's block in its page: array block a, or the engine block (R68, R117). -/
def queueReg (n arrayReg engineReg : Nat) : Nat := if n < 96 then arrayReg + 0x40 * (n % 3) else engineReg

/-- Does the module take new work: neither shutting down nor entering a warm start (R414, R432)? -/
def State.accepting (s : State) : Bool :=
  s.power.state != 4 && s.field (mPage .boot) Reg.BOOT_BOOT_STS 0 4 != 11

/-- May a block start new work: enabled, not quiescing, and its island clocked (R111, R318, R354, R414)? -/
def State.working (s : State) (p : Page) : Bool :=
  s.accepting && s.bit p Reg.HDR_PAGE_CTL 0 && !s.bit p Reg.HDR_PAGE_CTL 1 &&
  (match p.kind with
   | none => false
   | some k => decide (s.island p.win (quarterIsland k p.inst) ≤ 1))

/-- Completion counter k of quarter q (R108). -/
def State.counter (s : State) (q k : Nat) : Nat := mapGet (fun _ => 0) s.compute.counters (4096 * q + k)
/-- Store a completion counter. Counter 0 always reads 0. -/
def State.setCounter (s : State) (q k v : Nat) : State :=
  if k = 0 then s
  else { s with compute := { s.compute with counters := mapSet (fun _ => 0) s.compute.counters (4096 * q + k) v } }

/-- What increments have added to a counter in the present ACLK (R109). -/
def State.added (s : State) (q k : Nat) : Nat :=
  (s.compute.incs.filter (fun e => e.1 == 4096 * q + k && e.2.1 == s.now)).foldl (fun n e => n + e.2.2) 0

/-- The value of a counter against which waits are evaluated: the increments of the present ACLK come after them (R109). -/
def State.counterThen (s : State) (q k : Nat) : Nat := s.counter q k - s.added q k

/-- A register write or a CLEAR replaces the value of a counter; the increments of the same ACLK are applied after it (R109). -/
def State.replaceCounter (s : State) (q k v : Nat) : State := s.setCounter q k (min 0xFFFFFFFF (v + s.added q k))

/-- Start of phase p of the step, if it has none yet (R162). -/
def State.phaseStart (s : State) (p : Nat) : State :=
  let m := mPage .step
  let lo := Reg.STEP_PTp_START_LO + 16 * p
  let hi := Reg.STEP_PTp_START_HI + 16 * p
  if s.num64 m lo hi = 0 then s.setNum64 m lo hi s.podCount else s
/-- End of phase p; the last end of the step stands (R162). -/
def State.phaseEnd (s : State) (p : Nat) : State :=
  s.setNum64 (mPage .step) (Reg.STEP_PTp_END_LO + 16 * p) (Reg.STEP_PTp_END_HI + 16 * p) s.podCount
/-- Has phase p ended in this step? -/
def State.phaseEnded (s : State) (p : Nat) : Bool :=
  s.num64 (mPage .step) (Reg.STEP_PTp_END_LO + 16 * p) (Reg.STEP_PTp_END_HI + 16 * p) != 0

/-- FWD ends, and BWD begins, when all four quarters have marked counter 4,092 (R140, R143). -/
def State.markPhase (s : State) : State :=
  if s.stepState = 1 && !s.phaseEnded 0 && (List.range 4).all (fun q => decide (0 < s.counter q 4092)) then
    (s.phaseEnd 0).phaseStart 1
  else s

/-- Add to a completion counter (R108). -/
def State.incCounter (s : State) (q k n : Nat) : State :=
  let v := s.counter q k + n
  let incs := s.compute.incs.filter (fun e => e.2.1 == s.now) ++ [(4096 * q + k, s.now, n)]
  let s : State := { s with compute := { s.compute with incs := incs } }
  let s := (s.setCounter q k (min v 0xFFFFFFFF)).raiseIf (decide (0xFFFFFFFF < v ∧ k ≠ 0)) (qPage .signal q (k / 256)) 0
  if k = 4092 then s.markPhase else s

/-! ## Windows and tracker entries -/

/-- Window entries of a queue (R105). -/
def windowSize (n : Nat) : Nat :=
  if n < 96 then 4
  else
    match engineOf n with
    | some (.ve, _) | some (.ce, _) | some (.dg, _) => 8
    | some (.st, _) | some (.cs, _) => 32
    | some (.ex, _) => 16
    | _ => 4

/-- The ring entries that TAIL covers and HEAD has not passed (R102). -/
def Queue.occupancy (x : Queue) : Nat := (x.tail + 65536 - x.head) % 65536

/-- Does the queue have a ring (R103)? -/
def Queue.hasRing (x : Queue) : Bool := decide (4 ≤ x.log2 ∧ x.log2 ≤ 12)

/-- The control entry at HEAD, if its line has arrived clean and holds one (R107). -/
def Queue.control (x : Queue) : Option Desc :=
  match x.fetches with
  | f :: _ => if f.poisoned then none else f.line.bind (fun d => if dOp d = 15 then some d else none)
  | [] => none

/-- Does an aborted step consume a wait on counter k without waiting (R452)? -/
def State.abortedWait (s : State) (k : Nat) : Bool :=
  s.train.aborted && s.stepState == 4 && !decide (4091 ≤ k ∧ k ≤ 4095)

/-- Is HEAD a control entry whose wait is unmet (R111, R452)? -/
def State.waitUnmet (s : State) (q n : Nat) : Bool :=
  let x := s.queue q n
  match x.control with
  | none => false
  | some d =>
    if df d 0 4 4 < 2 then !s.abortedWait (df d 1 0 12) && decide (s.counterThen q (df d 1 0 12) < dw d 2) else !x.window.isEmpty

/-- Is queue n of quarter q exempt from the boundary and from skipping: EX0, and the streamers that STEP names (R144)? -/
def State.exempt (s : State) (q n : Nat) : Bool :=
  n == 152 || (decide (136 ≤ n ∧ n < 152) &&
    s.bit (mPage .step) (if q < 2 then Reg.STEP_BND_EXEMPT_LO else Reg.STEP_BND_EXEMPT_HI) (16 * (q % 2) + (n - 136)))

/-- Is the physical triad of an array queue in the drain of R459? -/
def State.draining (s : State) (q n : Nat) : Bool :=
  decide (n < 90) && mapGet (fun _ => false) s.compute.failing (32 * q + s.physOf q (n / 3))

/-- Do descriptors fetched now skip-complete (R151, R459)? -/
def State.skipping (s : State) (q n : Nat) : Bool := (s.stepState == 4 && !s.exempt q n) || s.draining q n

/-- The boundary's condition on one queue (R144): empty window, and an empty ring or an unmet WAIT_GE on counter 4,095. -/
def State.queueAtBoundary (s : State) (q n : Nat) : Bool :=
  let x := s.queue q n
  s.exempt q n || (x.window.isEmpty &&
    (x.occupancy == 0 || (match x.control with
      | some d => df d 0 4 4 == 0 && df d 1 0 12 == 4095 && s.waitUnmet q n
      | none => false)))

/-! ## Refusal, halt and resume -/

/-- Refuse or fail the descriptor of a queue: ERR_INFO, DESC_ERR, POISON_IN, trace, and the halt (R65, R115, R383). An
update program refused is also reported (R460). -/
def State.refuse (s : State) (q n code tag : Nat) (poison : Bool) (h : Halt) : State :=
  let x := s.queue q n
  let page := s.queuePage q n
  let s := s.setQueue q n { x with halt := some h }
  let s := s.setNum page (queueReg n Reg.ARRAY_ERR_INFO Reg.ENG_ERR_INFO) (code + 65536 * tag)
  let s := s.raise page (if n < 96 then n % 3 else 0)
  let s := s.raiseIf poison page (if n < 96 then 8 else 3)
  let s := s.traceEvent q n 2 code tag
  if 160 ≤ n then s.fault 0x10 q n 0 code 13 else s

/-- Drop the entry at HEAD. -/
def Queue.consume (x : Queue) : Queue := { x with head := (x.head + 1) % 65536, fetches := x.fetches.drop 1 }

/-- Refuse the entry at HEAD (R65, R115): a descriptor takes its place in the window and waits there, not executed, until
RESUME; a control entry stays at HEAD. -/
def State.refuseFetched (s : State) (q n code : Nat) (d : Desc) (poison : Bool) : State :=
  if dOp d = 15 then s.refuse q n code (dTag d) poison .control
  else
    let x := s.queue q n
    let w : WinEntry := { desc := d, status := .failed, fetchedAt := s.now, seq := x.head }
    (s.setQueue q n { x.consume with window := x.window ++ [w] }).refuse q n code (dTag d) poison .refused

/-- Refuse a window entry at its start (R115). -/
def State.refuseStart (s : State) (q n i code : Nat) (w : WinEntry) (poison : Bool) : State :=
  let x := s.queue q n
  (s.setQueue q n { x with window := x.window.set i { w with status := .failed } }).refuse q n code (dTag w.desc) poison
    .refused

/-- Fail a started descriptor, by its ring count, at runtime (R115): the queue halts with it unsignalled, and XFER_ERR is
raised. In an aborted step it is discarded instead (R452). -/
def State.failRuntime (s : State) (q n seq code : Nat) : State :=
  let x := s.queue q n
  let page := s.queuePage q n
  let mine (w : WinEntry) : Bool := w.status == .running && w.seq == seq
  match x.window.find? mine with
  | none => s
  | some w =>
    if s.train.aborted && s.stepState == 4 then
      s.setQueue q n { x with window := x.window.filter (fun w => !mine w) }
    else
    let s := s.setQueue q n { x with halt := some .runtime
                                     window := replaceFirst mine (fun w => { w with status := .failed }) x.window }
    (s.setNum page Reg.ENG_ERR_INFO (code + 65536 * dTag w.desc)).raise page 4

/-! ## The check at fetch -/

/-- The code under which queue n of quarter q refuses a descriptor, and whether the check read poison (R115). -/
def State.checkDesc (s : State) (q n : Nat) (d : Desc) : Nat × Bool :=
  let x := s.queue q n
  if n < 96 then
    let a := n % 3
    let st := s.array q (s.physOf q (n / 3)) a
    (checkTile d a (st.retained a x.window), false)
  else
    match engineOf n with
    | some (.ve, _) => (checkVec d, false)
    | some (.ce, _) => (checkConvert d, false)
    | some (.mg, _) => (checkTranspose d, false)
    | some (.so, _) => (checkDump d, false)
    | some (.dg, _) => (checkDigest d, false)
    | some (.wg, _) => (checkCompress d, false)
    | some (.st, _) => (checkStream d, false)
    | some (.ex, _) =>
      (s.checkExport q (x.window.filter (fun w => dOp w.desc == 1)).length d, false)
    | some (.cs, _) =>
      (s.checkColl q ((x.window.filter (fun w => w.status == .running)).map (fun w => dw w.desc 2)) d, false)
    | some (.ue, _) => s.checkUpdate q d
    | _ => (0, false)

/-- The code under which a control entry is refused, 0 for none (R107, R108, R143). -/
def checkControl (d : Desc) : Nat :=
  let ctl := df d 0 4 4
  let k := df d 1 0 12
  firstCode
    [ (0x01, decide (4 ≤ ctl))
    , (0x08, anyNonzero ([df d 0 8 24, df d 1 12 20] ++ (List.range 13).map (fun i => dw d (i + 3))) ||
        (decide (ctl < 2) && k == 0 && dw d 2 != 0) || (ctl != 0 && reservedCounter k)) ]

/-- May an operation of CS0 be skipped: a VERDICT is refused in SKIPPING instead (R150). -/
def skipsInWindow (n : Nat) (d : Desc) : Bool := !(n == 153 && dOp d == 3)

/-- Is migration enabled (R274)? -/
def State.migOn (s : State) : Bool := s.bit (mPage .mig) Reg.MIG_MIG_CTL 0

/-- Is a descriptor of queue n a round descriptor (R275)? -/
def State.roundDesc (s : State) (n : Nat) (d : Desc) : Bool := s.migOn && decide (96 ≤ n) && bitAt (dTag d) 15

/-- Does a round descriptor skip-complete: in a step that is no round step, or whose MODE is another (R275)? -/
def State.roundSkips (s : State) (n : Nat) (d : Desc) : Bool :=
  let m := mPage .mig
  s.roundDesc n d && (!s.bit m Reg.MIG_MIG_STS 0 ||
    (bitsOf (dTag d) 13 2 != 3 && bitsOf (dTag d) 13 2 != s.field m Reg.MIG_MIG_STS 1 2))

/-- Does a descriptor signal ROUND_READY while migration is enabled: SIG, or RSIG of a streamer, names 4,091 (R276)? -/
def State.signalsReady (s : State) (n : Nat) (d : Desc) : Bool :=
  s.migOn && (dSig d == 4091 || (decide (136 ≤ n ∧ n < 152) && db d 0 8 && df d 10 0 12 == 4091))

/-- The check of a control entry, with the rule of R276 for ROUND_READY. -/
def State.checkEntry (s : State) (d : Desc) : Nat :=
  let c := checkControl d
  if c = 0 ∧ s.migOn ∧ df d 0 4 4 ≠ 0 ∧ df d 1 0 12 = 4091 then 0x08 else c

/-- The check of a descriptor, with ROUND_READY (R276) and the destination that a round wring descriptor must name
(R279). -/
def State.checkFetched (s : State) (q n : Nat) (d : Desc) : Nat × Bool :=
  let c := s.checkDesc q n d
  if s.signalsReady n d && (c.1 == 0 || decide (8 < c.1)) then (0x08, c.2)
  else if c.1 = 0 ∧ 132 ≤ n ∧ n < 134 ∧ s.roundDesc n d ∧ (fmtOf (df d 0 4 4) ≠ some .sq4e2 ∨ db d 0 8) then (0x10, c.2) else c

/-- Process the fetched entries at HEAD, with fuel: a descriptor enters the window or is refused, and a control entry
stays for its own command (R105, R107, R115). DESIGN CHOICE (log entry 13): a poisoned entry is refused with 0x0C in SKIPPING
and in a drain too. -/
def State.drainFuel : Nat → Nat → Nat → State → State
  | 0, _, _, s => s
  | k + 1, q, n, s =>
    let x := s.queue q n
    match x.fetches with
    | [] => s
    | f :: _ =>
      match f.line with
      | none => s
      | some d =>
        if x.halt.isSome then s
        else if f.poisoned then s.refuseFetched q n 0x0C d true
        else if dOp d = 15 then
          let c := s.checkEntry d
          if c = 0 then s else s.refuseFetched q n c d false
        else if windowSize n ≤ x.window.length then s
        else if (s.skipping q n && skipsInWindow n d) || s.roundSkips n d then
          let w : WinEntry := { desc := d, status := .done, skip := true, fetchedAt := s.now, seq := x.head }
          let s := s.setQueue q n { x.consume with window := x.window ++ [w] }
          State.drainFuel k q n (s.traceEvent q n 0 0 (dTag d))
        else
          let c := s.checkFetched q n d
          let t := s.noteProgram q n d
          if c.1 ≠ 0 then t.refuseFetched q n c.1 d c.2
          else
            let w : WinEntry := { desc := d, fetchedAt := s.now, seq := x.head
                                  got := if n < 160 then [] else s.programBytes d }
            State.drainFuel k q n (t.setQueue q n { x.consume with window := x.window ++ [w] })

/-- The number of a claimant: physical triad and array, or 96 + mangle for a mangle descriptor (R77). -/
def State.claimant (s : State) (q n : Nat) : Nat := if n < 96 then 3 * s.physOf q (n / 3) + n % 3 else n - 24

/-- The mangles that a descriptor names, each with the bytes of 16-bit source that it streams (R73, R74, R77, R130); a mode-1
operand whose mask is zero reads nothing. -/
def streamsOf (n : Nat) (d : Desc) : List (Nat × Nat) :=
  let k := 64 * tileK d ((fmtOf (df d 0 4 4)).getD .bf16)
  if n < 90 then
    (if df d 0 19 2 = 1 then [(df d 4 1 3, if dw d 13 = 0 then 0 else k)] else []) ++
    (if df d 0 21 2 = 1 then [(df d 8 1 3, if dw d 14 = 0 then 0 else k)] else [])
  else if 120 ≤ n ∧ n < 128 then [(n - 120, 2048 * (df d 1 0 16 + 1) * (df d 2 0 16 + 1))]
  else []

/-- The descriptor that starts next on a queue requests its mangles, once (R77). -/
def State.claimNext (s : State) (q n : Nat) : State :=
  match (s.queue q n).window.find? (fun w => w.status == .waiting) with
  | none => s
  | some w =>
    let ms := streamsOf n w.desc
    let who := s.claimant q n
    let x := s.mangles q
    if ms.isEmpty || x.served.any (fun e => e.1 == who) || x.claims.any (fun c => c.who == who) then s
    else s.setMangles q { x with claims := x.claims ++ [{ who := who, streams := ms, at_ := s.now }] }

/-- The descriptor that would have started next is gone: its request is withdrawn, and mangles granted to it are free
again (R77, log entry 147). -/
def State.dropClaim (s : State) (q n : Nat) : State :=
  let who := s.claimant q n
  let x := s.mangles q
  s.setMangles q
    { claims := x.claims.filter (fun c => c.who != who)
      busy := x.busy.filter (fun u => !(u.who == who && x.served.contains (who, u.at_)))
      served := x.served.filter (fun e => e.1 != who) }

/-- Process every fetched entry that can be processed now. -/
def State.drain (s : State) (q n : Nat) : State :=
  (State.drainFuel ((s.queue q n).fetches.length + 1) q n s).claimNext q n

/-- The entries of a window that a test selects skip-complete; each that had not started reports a start (R151, R383). -/
def State.skipEntries (s : State) (q n : Nat) (p : WinEntry → Bool) : State :=
  let x := s.queue q n
  let s := s.setQueue q n { x with window := x.window.map (fun w =>
    if p w then { w with status := .done, skip := true, waitUntil := 0 } else w) }
  let s := if x.window.any (fun w => p w && w.status == .waiting) && (decide (n < 90) || (120 ≤ n && decide (n < 128))) then
      s.dropClaim q n else s
  (x.window.filter (fun w => p w && w.status != .running)).foldl (fun s w => s.traceEvent q n 0 0 (dTag w.desc)) s

/-- RESUME of a halted queue (R65, R115, R460): the refused or failed descriptor is discarded; a refused update program
skip-completes. A queue that is not halted is left as it is. -/
def State.resume (s : State) (q n : Nat) : State :=
  let x := s.queue q n
  match x.halt with
  | none => s
  | some .control => (s.setQueue q n { x.consume with halt := none }).drain q n
  | some _ =>
    let s := s.setQueue q n { x with halt := none }
    let failed (w : WinEntry) : Bool := w.status == .failed
    (if 160 ≤ n then s.skipEntries q n failed
     else s.setQueue q n { x with halt := none, window := x.window.filter (fun w => !failed w) }).drain q n

/-- RETRY of a runtime failure (R115): the descriptor waits to run again from its start. A collective takes its next EPOCH
(R195), which `next` of its window entry holds. DESIGN CHOICE (log entry 141): RETRY has no effect on a queue that a refusal
halted. -/
def State.retry (s : State) (q n : Nat) : State :=
  let x := s.queue q n
  if x.halt = some .runtime then
    s.setQueue q n { x with halt := none, window := x.window.map (fun w =>
      if w.status == .failed then
        { w with status := .waiting, next := if n = 153 then w.next + 1 else 0, open_ := [], err := 0 } else w) }
  else s

/-- Every descriptor of a queue that has not started skip-completes (R151, R459). -/
def State.skipWaiting (s : State) (q n : Nat) : State :=
  s.skipEntries q n (fun w => w.status == .waiting && skipsInWindow n w.desc)

/-! ## Starting and signalling -/

/-- The first waiting entry of a queue that may start: everything fetched before it has started, and the queue is not
halted (R105, R111, R115). -/
def State.startable (s : State) (q n : Nat) : Option (Nat × WinEntry) :=
  let x := s.queue q n
  if x.halt.isSome || !s.working (s.queuePage q n) then none
  else
    let i := x.window.findIdx (fun w => w.status == .waiting)
    (x.window[i]?).map (fun w => (i, w))

/-- Replace the window entry at an index. -/
def State.setEntry (s : State) (q n i : Nat) (w : WinEntry) : State :=
  let x := s.queue q n
  s.setQueue q n { x with window := x.window.set i w }

/-- The SALT of a quarter (R120). -/
def State.salt (s : State) (q : Nat) : Nat :=
  match s.change (mPage .rng) (Reg.RNG_SALT_Qq + 4 * q) with
  | some c => c.before % 2 ^ 30
  | none => s.field (mPage .rng) (Reg.RNG_SALT_Qq + 4 * q) 0 30

/-- The largest SRTT over LINKED sites (R283). -/
def State.srttMax (s : State) : Nat :=
  let m := mPage .mig
  (List.range 8).foldl (fun x i =>
    if s.field m (Reg.MIG_SITEs_STS + 16 * i) 0 3 = 2 then max x (s.num m (Reg.MIG_SITEs_SRTT + 16 * i)) else x) 0

/-- The deadline of a round that opens at a pod time (R283). -/
def State.deadlineFrom (s : State) (open_ : Nat) : Nat :=
  let m := mPage .mig
  open_ + s.field m Reg.MIG_WAIT_RTTS 0 8 * s.srttMax + s.num m Reg.MIG_WAIT_FIXED

/-- The first round descriptor that starts opens the round, and MIGRATE starts (R277). -/
def State.openRound (s : State) (n : Nat) (d : Desc) : State :=
  if s.roundDesc n d && s.mig.openAt.isNone then
    let s := { s with mig := { s.mig with openAt := some s.podCount, deadline := s.deadlineFrom s.podCount } }
    (s.setBit (mPage .mig) Reg.MIG_MIG_STS 3 true).phaseStart 7
  else s

/-- Mark an entry started, with the SALT and ATTEMPT it starts under (R120), and trace it (R383). -/
def State.startEntry (s : State) (q n i : Nat) (w : WinEntry) : State :=
  ((s.setEntry q n i { w with status := .running, startedAt := s.now, salt := s.salt q, attempt := s.attempt }).openRound
    n w.desc).traceEvent q n 0 0 (dTag w.desc)

/-- Mark an entry done; its signal can be applied from ACLK `at_` on (R330, R336). -/
def State.finishEntry (s : State) (q n i at_ : Nat) : State :=
  match (s.queue q n).window[i]? with
  | none => s
  | some w => s.setEntry q n i { w with status := .done, waitUntil := at_ }

/-- The draw key of a started descriptor (R119). -/
def State.keyOfEntry (s : State) (q : Nat) (w : WinEntry) : DrawKey :=
  drawKey (s.num64 (mPage .rng) Reg.RNG_SEED_LO Reg.RNG_SEED_HI) w.attempt q w.salt (dStream w.desc) (dTag w.desc)

end Sys2Proof.Machine
end

