-- ==== Sys2Proof/Machine/Queues.lean ====
section
/-! DEFINITION. The commands of the Fold's scheduler and of the queues: grants, fetches, control entries and signals (R95 to R110, R387 to R389). -/

namespace Sys2Proof.Machine

/-! ## The Fold -/

/-- The sub-bank of a Fold offset: 4·bank + sub (R94). -/
def subBank (off : Nat) : Nat := let p := foldPlace off; 4 * p.bank + p.sub

/-- The class a request has now (R95). -/
def FoldReq.classNow (r : FoldReq) : Nat := if r.promoted then 1 else r.cls

/-- Does request a go before request b: class, then age, then requester number (R95)? -/
def FoldReq.before (a b : FoldReq) : Bool :=
  decide (a.classNow < b.classNow ∨ (a.classNow = b.classNow ∧ (a.at_ < b.at_ ∨ (a.at_ = b.at_ ∧ a.num < b.num))))

/-- The request that a sub-bank grants. -/
def bestReq : List FoldReq → Option FoldReq
  | [] => none
  | r :: l => match bestReq l with
    | none => some r
    | some b => if b.before r then some b else some r

/-- One arrival joins the waiting requests; an offset beyond the populated Fold is an address error (R99). -/
def State.foldArrive (s : State) (q : Nat) (a : FoldArrival) : State :=
  if foldSize ≤ a.off then s.raise (qPage .fold q 0) 2
  else
    let f := s.compute.fold
    s.setFold { f with reqs := f.reqs ++ [{ quarter := q, off := a.off / 64 * 64, cls := a.cls, at_ := s.now, num := a.num,
                                            write := a.bytes, isWrite := a.isWrite }] }

/-- Grant a request: a write is performed, a read captures its line as delivered (R97, R98). -/
def State.foldPerform (s : State) (r : FoldReq) : State :=
  let line := foldBase r.quarter + r.off
  if r.isWrite then s.writeLanes none line r.write
  else
    let d := leNat (s.readBytes line 64)
    let bad := s.linePoisoned line
    let s := s.noteRead line 64
    let f := s.compute.fold
    s.setFold { f with reads := f.reads ++
      [{ quarter := r.quarter, off := r.off, granted := s.now, fetchOf := r.fetchOf, line := d, poisoned := bad }] }

/-- FOLD_ACCESS_GRANT (R93, R95 to R98): the sub-bank takes what arrives, grants one request and performs it; every
request that was not granted in the ACLK it arrived counts once in CONFLICT. One ACLK of 1,024 is rinse's; DESIGN CHOICE (log
entry 18): that at which the time is a multiple of 1,024, the same for every sub-bank. -/
def execFoldAccessGrant (t q bank sub : Nat) (arrivals : List FoldArrival) (flips : List (Nat × Nat)) (s : State) :
    Host.Outcome State Fault Refusal :=
  let s := arrivals.foldl (fun s a => s.foldArrive q a) ((s.advance t).upset flips)
  let k := 256 * q + 4 * bank + sub
  let f := s.compute.fold
  let here (r : FoldReq) : Bool := r.quarter == q && subBank r.off == 4 * bank + sub
  if s.now % 1024 = 0 ∨ s.now < mapGet (fun _ => 0) f.lastGrant k then done s
  else
    match bestReq (f.reqs.filter here) with
    | none => done s
    | some r =>
      let late (o : FoldReq) : Bool := here o && !o.counted && (o != r || decide (r.at_ < s.now))
      let n := (f.reqs.filter late).length
      let rest := (f.reqs.erase r).map (fun o => if late o then { o with counted := true } else o)
      let s := (s.setFold { f with reqs := rest, lastGrant := mapSet (fun _ => 0) f.lastGrant k (s.now + 1) }).addSat
        (qPage .fold q 0) Reg.FOLD_CONFLICT n
      done (s.foldPerform r)

/-- FOLD_REQUEST_PROMOTE (R95): a request that has waited 32 ACLK moves to class 1. -/
def execFoldRequestPromote (t q off num : Nat) (s : State) : Host.Outcome State Fault Refusal :=
  let s := s.advance t
  let f := s.compute.fold
  let old (r : FoldReq) : Bool :=
    r.quarter == q && r.off == off / 64 * 64 && r.num == num && !r.promoted && decide (r.at_ + 32 ≤ s.now)
  if f.reqs.any old then
    done ((s.setFold { f with reqs := replaceFirst old (fun r => { r with promoted := true }) f.reqs }).addSat
      (qPage .fold q 0) Reg.FOLD_PROMOTED 1)
  else done s

/-- FOLD_READ_COMPLETE (R98, R335): the oldest granted read of a line delivers it, 18 ACLK or more after the grant; a ring
fetch takes the line. -/
def execFoldReadComplete (t q off : Nat) (s : State) : Host.Outcome State Fault Refusal :=
  let s := s.advance t
  let f := s.compute.fold
  let mine (r : FoldRead) : Bool := r.quarter == q && r.off == off / 64 * 64
  match f.reads.find? mine with
  | none => done s
  | some r =>
    if s.now < r.granted + 18 then done s
    else
      let s := s.setFold { f with reads := f.reads.eraseIdx (f.reads.findIdx mine) }
      match r.fetchOf with
      | none => done s
      | some (n, i) =>
        let x := s.queue q n
        let want (g : Fetch) : Bool := g.index == i && g.line.isNone
        let fill (g : Fetch) : Fetch := { g with line := some (BitVec.ofNat 512 r.line), poisoned := r.poisoned }
        done (s.setQueue q n { x with fetches := replaceFirst want fill x.fetches })

/-- FOLD_SCRUB_CYCLE (R96, R98, R387, R388): rinse's ACLK of a sub-bank takes a correction write-back, else a patrol
read. -/
def execFoldScrubCycle (t q bank sub : Nat) (flips : List (Nat × Nat)) (s : State) : Host.Outcome State Fault Refusal :=
  let s := s.advance t
  let f := s.compute.fold
  let sb := 4 * bank + sub
  let bg := qPage .bgnd q 0
  if s.now % 1024 ≠ 0 then done s
  else
    let here (l : Nat) : Bool := decide (foldBase q ≤ l ∧ l < foldBase q + foldSize) && subBank (l - foldBase q) == sb
    match f.writeBacks.find? here with
    | some l =>
      let s := s.setFold { f with writeBacks := f.writeBacks.filter (· != l) }
      done ((List.range 4).foldl (fun s i =>
        match s.check (l / 16 + i) with
        | .fix _ _ => s.setEcc (l / 16 + i) 0
        | _ => s) s)
    | none =>
      if !s.bit bg Reg.BGND_RINSE_CTL 0 || decide (s.now / 1024 % 2 ^ s.field bg Reg.BGND_RINSE_CTL 2 4 ≠ 0) then done s
      else
        let k := 256 * q + sb
        let c := mapGet (fun _ => 0) f.patrol k
        let l := foldBase q + foldLine bank sub (c % 10240)
        let s := s.upset flips
        let found (e : Bool) : Nat := ((List.range 4).filter (fun i =>
          match s.check (l / 16 + i) with
          | .fix _ _ => e
          | .uncorrectable => !e
          | _ => false)).length
        let ce := found true
        let ue := found false
        let s := s.noteRead l 64
        let s := ((s.addSat bg Reg.BGND_RINSE_FOUND ce).addSat bg Reg.BGND_RINSE_UE ue).raiseIf (decide (ue ≠ 0)) bg 0
        let f := s.compute.fold
        let passes (p : List (Nat × Nat)) : Nat :=
          let mine := p.filter (fun e => e.1 / 256 == q)
          if mine.length < 256 then 0 else mine.foldl (fun m e => min m (e.2 / 10240)) (2 ^ 64)
        let p := mapSet (fun _ => 0) f.patrol k (c + 1)
        done (((s.setFold { f with patrol := p }).setNum bg Reg.BGND_FOLD_POS ((c + 1) % 10240)).addWrap
          bg Reg.BGND_FOLD_PASSES (passes p - passes f.patrol))
where
  /-- The Fold offset of a place: the inverse of R94. -/
  foldLine (bank sub index : Nat) : Nat :=
    let hi := index * 4 + sub
    64 * (hi * 64 + (bank ^^^ bitsOf hi 0 6 ^^^ bitsOf hi 6 6 ^^^ bitsOf hi 12 4))

/-! ## Rings -/

/-- QUEUE_FETCH (R105, R107, R110, R111): a queue issues the fetch of its next entry as a class-2 read of the Fold. A
queue-control entry needs no credit and no tracker entry, and nothing behind it is fetched (log entry 50). -/
def execQueueFetch (t q n : Nat) (s : State) : Host.Outcome State Fault Refusal :=
  let s := s.advance t
  let x := s.queue q n
  let k := x.fetches.length
  let i := (x.head + k) % 65536
  let off := 64 * (x.base + i % 2 ^ x.log2)
  let ctl := s.readNat (foldBase q + off) 1 % 16 == 15
  if !queueExists n || !x.hasRing || x.halt.isSome || x.fetches.any (·.ctl) || !s.working (s.queuePage q n) ||
      decide (x.occupancy ≤ k) || (!ctl && decide (windowSize n ≤ x.window.length + x.descFetches)) ||
      decide (s.now < x.nextFetch) then done s
  else if !ctl && !s.canTrack q n then done (s.setQueue q n { x with trackWait := true })
  else
    let f := s.compute.fold
    let r : FoldReq := { quarter := q, off := off, cls := 2, at_ := s.now, num := n, fetchOf := some (n, i) }
    done ((s.setQueue q n { x with fetches := x.fetches ++ [{ index := i, ctl := ctl }], trackWait := false
                                   nextFetch := s.now + 1 }).setFold
      { f with reqs := f.reqs ++ [r] })

/-- QUEUE_FETCH_ARRIVE (R105, R107, R115): the entries whose lines have arrived enter the window in ring order, or are
refused, or stay at HEAD as control entries. -/
def execQueueFetchArrive (t q n : Nat) (s : State) : Host.Outcome State Fault Refusal := done ((s.advance t).drain q n)

/-- The checked control entry with code `ctl` that stands at HEAD of a queue that may act, if there is one (R107, R111). -/
def State.controlNow (s : State) (q n ctl : Nat) : Option Desc :=
  let x := s.queue q n
  if x.halt.isSome || !s.working (s.queuePage q n) then none
  else x.control.bind (fun d => if df d 0 4 4 = ctl ∧ s.checkEntry d = 0 then some d else none)

/-- Consume the control entry at HEAD; what is fetched behind it follows. -/
def State.consumeControl (s : State) (q n : Nat) : State := (s.setQueue q n (s.queue q n).consume).drain q n

/-- Must a wait of queue n on counter k let a TAKE of another queue of the quarter go first (R109): in one ACLK the TAKEs are evaluated by
queue number, and then the WAIT_GEs? -/
def State.takesFirst (s : State) (q n k : Nat) (take : Bool) : Bool :=
  (List.range (if take then n else 256)).any (fun m => m != n &&
    (s.controlNow q m 1).any (fun d => df d 1 0 12 == k && !s.waitUnmet q m))

/-- QCTL_WAIT_GE (R107, R109). -/
def execQctlWaitGe (t q n : Nat) (s : State) : Host.Outcome State Fault Refusal :=
  let s := s.advance t
  match s.controlNow q n 0 with
  | none => done s
  | some d =>
    if s.waitUnmet q n || s.takesFirst q n (df d 1 0 12) false then done s else done (s.consumeControl q n)

/-- QCTL_TAKE (R107, R109, R452): the subtraction is part of the same step. -/
def execQctlTake (t q n : Nat) (s : State) : Host.Outcome State Fault Refusal :=
  let s := s.advance t
  match s.controlNow q n 1 with
  | none => done s
  | some d =>
    let k := df d 1 0 12
    if s.waitUnmet q n || s.takesFirst q n k true then done s
    else
      let v := if s.abortedWait k then s.counter q k else s.counter q k - dw d 2
      done ((s.setCounter q k v).consumeControl q n)

/-- QCTL_ADD (R107, R108): waits until every earlier descriptor of the queue has signalled. -/
def execQctlAdd (t q n : Nat) (s : State) : Host.Outcome State Fault Refusal :=
  let s := s.advance t
  match s.controlNow q n 2 with
  | none => done s
  | some d => if s.waitUnmet q n then done s else done ((s.incCounter q (df d 1 0 12) (dw d 2)).consumeControl q n)

/-- QCTL_CLEAR (R107, R109): waits as ADD does. -/
def execQctlClear (t q n : Nat) (s : State) : Host.Outcome State Fault Refusal :=
  let s := s.advance t
  match s.controlNow q n 3 with
  | none => done s
  | some d => if s.waitUnmet q n then done s else done ((s.replaceCounter q (df d 1 0 12) 0).consumeControl q n)

/-! ## Signals -/

/-- What the signal of a descriptor does beside its counter: DONE, LAST_TAG, TILES_DONE of a skipped tile, the OPT page,
RSIG and trace (R68, R80, R117, R136, R151, R187, R383). DESIGN CHOICE (log entry 136): a tile that is skip-completed or
abandoned sets LAST_TAG too. -/
def State.countSignal (s : State) (q n : Nat) (w : WinEntry) : State :=
  let d := w.desc
  let page := s.queuePage q n
  let s := s.traceEvent q n 1 0 (dTag d)
  if n < 96 then
    let p := s.physOf q (n / 3)
    let a := n % 3
    let s := (s.addWrap page (Reg.ARRAY_TILES_DONE + 0x40 * a) 1).setNum page (Reg.ARRAY_LAST_TAG + 0x40 * a) (dTag d)
    let x := s.array q p a
    if w.skip && a != 0 then s.setArray q p a { x with kinds := x.kinds + 1 } else s
  else
    let s := (s.addWrap page Reg.ENG_DONE 1).setNum page Reg.ENG_LAST_TAG (dTag d)
    let s := if 136 ≤ n && decide (n < 152) && db d 0 8 && !w.skip then
        s.sendSig (df d 0 4 3) q (dq d 4) (df d 10 0 12) (df d 10 12 2) (fun s => s.incCounter (df d 10 12 2) (df d 10 0 12) 1)
      else s
    if 160 ≤ n then
      let o := mPage .opt
      let s := (s.addWrap o Reg.OPT_PROGS_DONE 1).setNum o Reg.OPT_LAST_LAYER (df d 1 0 12)
      if w.skip then s else if s.roundDesc n d then s.phaseEnd 7 else s.phaseEnd 4
    else if n = 153 && tagClass (dw d 2) == 2 && !w.skip then
      let s := { s with train := { s.train with buckets := s.train.buckets ++ [{ q := q, desc := d, gather := dOp d == 2 : Bucket }] } }
      s.phaseEnd (if dOp d = 1 then 3 else 5)
    else s

/-- DESCRIPTOR_SIGNAL (R106, R110, R136, R151): the oldest descriptor of a queue, done and with every write visible,
increments its counter and leaves the window. -/
def execDescriptorSignal (t q n : Nat) (s : State) : Host.Outcome State Fault Refusal :=
  let s := s.advance t
  let x := s.queue q n
  match x.window with
  | [] => done s
  | w :: rest =>
    if w.status ≠ .done ∨ s.now < w.waitUntil ∨ s.writesOpen q n w.seq then done s
    else
      let s := s.setQueue q n { x with window := rest }
      done (((s.incCounter q (dSig w.desc) 1).countSignal q n w).drain q n)

end Sys2Proof.Machine
end

