-- ==== Sys2Proof/Machine/TileOps.lean ====
section
/-! DEFINITION. A tile: its operands as the feeders take them, the arithmetic of the cells, and the writeback (R44 to R62, R70, R72 to R75, R490). -/

namespace Sys2Proof.Machine

/-- The operands of one side with what the quantiser raises and what the feeders read: regions of the Fold. -/
structure SideData where
  rows : List OpRow
  sat : Bool
  nan : Bool
  poison : Bool
  regions : List (Nat × Nat)
  deriving DecidableEq, Repr

/-- Elements of a group (R54). -/
def groupLen (f : Fmt) (bsz : Bool) : Nat := if f.isBlock then blockLen bsz else 4

/-- Is a region of the Fold poisoned to a feeder: is any of its lines (R490)? -/
def State.regionPoisoned (s : State) (a n : Nat) : Bool :=
  (List.range ((a + n + 63) / 64 - a / 64)).any (fun i => s.linePoisoned ((a / 64 + i) * 64))

/-- A row read directly: groups of stored codes (R20, R63). -/
def State.directRow (s : State) (f : Fmt) (bsz : Bool) (k elem scale : Nat) : OpRow :=
  let g := groupLen f bsz
  let bytes := fieldBytes f g
  let groups := (List.range (k / g)).map (fun b =>
    ({ scale := if f.isBlock then s.readNat (scale + b) 1 else 127
       codes := unpackElems f.width g (s.readNat (elem + b * bytes) bytes) } : Group))
  { groups := groups
    poisoned := s.regionPoisoned elem (k / g * bytes) || (f.isBlock && s.regionPoisoned scale (k / g)) }

/-- A row quantised in line from 16-bit codes (R75): the row, and whether CONV_SAT and CONV_NAN are raised. `bad` marks the
elements of poisoned lines; a block that holds one raises neither (log entry 148). -/
def quantRow (f : Fmt) (bsz : Bool) (src : Fmt) (codes : List Nat) (bad : List Bool) : OpRow × Bool × Bool :=
  let g := groupLen f bsz
  let poisoned := bad.any id
  if f.isBlock then
    let bs := (chunks g codes).map (fun l => convertLocal f 0 src.infAmax (fun _ => .rne) (l.map (decodeElem src)))
    let clean := ((bs.zip (chunks g bad)).filter (fun b => !b.2.any id)).map Prod.fst
    ({ groups := bs.map (fun b => { scale := b.scale, codes := b.codes }), poisoned := poisoned },
      clean.any BlockOut.sat, clean.any BlockOut.nan)
  else ({ groups := (chunks g codes).map (fun l => { scale := 127, codes := l }), poisoned := poisoned }, false, false)

/-- What one side's feeders take for a tile of quarter q (R63, R72 to R75). A masked row is empty; a reused side takes the
retained rows. -/
def State.sideData (s : State) (q : Nat) (d : Desc) (x : TileSide) (keep : Option Keep) : SideData :=
  let f := (fmtOf (df d 0 4 4)).getD .bf16
  let bsz := db d 0 12
  let k := tileK d f
  let base := foldBase q
  let src := fmt16 (bitAt x.scale 0)
  let off : OpRow := { groups := [], poisoned := false }
  let active := (List.range 32).filter (fun i => bitAt x.mask i)
  if x.reuse then
    { rows := (keep.map (·.rows)).getD [], sat := false, nan := false, poison := false, regions := [] }
  else
    match x.mode with
    | 0 =>
      let row (i : Nat) : OpRow :=
        s.directRow f bsz k (base + x.elem + i * x.elemStride) (base + x.scale + i * x.scaleStride)
      let rows := (List.range 32).map (fun i => if bitAt x.mask i then row i else off)
      { rows := rows, sat := false, nan := false, poison := rows.any (·.poisoned)
        regions := active.flatMap (fun i =>
          [(base + x.elem + i * x.elemStride, k * f.width / 8)] ++
          (if f.isBlock then [(base + x.scale + i * x.scaleStride, k / blockLen bsz)] else [])) }
    | 1 =>
      let bad := (List.range k).map (fun r => s.linePoisoned (base + x.elem + r * x.elemStride))
      let one (i : Nat) : OpRow × Bool × Bool :=
        if bitAt x.mask i then
          quantRow f bsz src ((List.range k).map (fun r => s.readNat (base + x.elem + r * x.elemStride + 2 * i) 2)) bad
        else (off, false, false)
      let rows := (List.range 32).map one
      { rows := rows.map Prod.fst, sat := rows.any (·.2.1), nan := rows.any (·.2.2)
        poison := rows.any (·.1.poisoned)
        regions := if active.isEmpty then [] else (List.range k).map (fun r => (base + x.elem + r * x.elemStride, 64)) }
    | _ =>
      let one (i : Nat) : OpRow × Bool × Bool :=
        if bitAt x.mask i then
          let a := base + x.elem + i * x.elemStride
          quantRow f bsz src ((List.range k).map (fun r => s.readNat (a + 2 * r) 2))
            ((List.range k).map (fun r => s.linePoisoned (a + 2 * r)))
        else (off, false, false)
      let rows := (List.range 32).map one
      { rows := rows.map Prod.fst, sat := rows.any (·.2.1), nan := rows.any (·.2.2)
        poison := rows.any (·.1.poisoned)
        regions := active.map (fun i => (base + x.elem + i * x.elemStride, 2 * k)) }

/-- The values of a row, group by group (R54, R55). -/
def OpRow.values (r : OpRow) (f : Fmt) : List (List Num) :=
  r.groups.map (fun g => if f.isBlock then decodeBlock f g.scale g.codes else g.codes.map (decodeElem f))

/-- A free carry, of any class (R56, R66): the values read are not defined. -/
def freeCarry (n : Nat) : Num :=
  let v := Config.freeNat n
  match v % 4 with
  | 0 => .nan
  | 1 => .inf (bitAt v 2)
  | _ => round34 (.fin (bitAt v 2) (v / 2048) ((bitsOf v 3 8 : Nat) - 200))

/-- Rows whose values are free (R66). -/
def freeRows (n : Nat) (rows : List OpRow) : List OpRow :=
  rows.zipIdx.map (fun r => { r.1 with groups := r.1.groups.zipIdx.map (fun g =>
    { scale := Config.freeNat (n + 1024 * r.2 + g.2) % 256
      codes := g.1.codes.zipIdx.map (fun c => Config.freeNat (n + 1024 * (r.2 + 32 * (g.2 + 1)) + c.2) % 65536) }) })

/-- The carry of a cell after its groups: each group's sum is exact and is added with one rounding (R55 to R58). -/
def cellCarry (a b : List (List Num)) (c : Num) : Num :=
  (a.zip b).foldl (fun carry g =>
    if carry.isNan then .nan else round34 (carry.add (Num.sum ((g.1.zip g.2).map (fun p => p.1.mul p.2))))) c

/-- Is cell (i, j) of a tile active (R52)? -/
def cellActive (d : Desc) (i j : Nat) : Bool := bitAt (dw d 13) i && bitAt (dw d 14) j

/-- The carries of a tile by row; none for a cell that is not active. `badRow` and `badCol` force NaN (R70, R490). -/
def Tile.carries (x : Tile) (badRow badCol : Nat → Bool) : List (List (Option Num)) :=
  let d := x.desc
  let f := (fmtOf (df d 0 4 4)).getD .bf16
  let cf := fmt16 (df d 0 17 2 == 2)
  let av := x.a.map (fun r => r.values f)
  let bv := x.b.map (fun r => r.values f)
  (List.range 32).map (fun i => (List.range 32).map (fun j =>
    if cellActive d i j then
      let bad := badRow i || badCol j || ((x.a[i]?).map (·.poisoned)).getD false ||
        ((x.b[j]?).map (·.poisoned)).getD false || (x.cBad[i]?).getD false
      if bad then some .nan
      else
        let c := if df d 0 17 2 = 0 then .zero else decodeElem cf (((x.c[i]?).getD []).getD j 0)
        some (cellCarry (av.getD i []) (bv.getD j []) c)
    else none))

/-- Round the carries of a tile to 16 bits, element (i, j) under draw 32·i + j for SR (R60). -/
def roundCarries (d : Desc) (key : DrawKey) (cs : List (List (Option Num))) : List (List (Option Conv)) :=
  let f := fmt16 (df d 0 15 2 == 1)
  cs.zipIdx.map (fun r => r.1.zipIdx.map (fun c =>
    c.1.map (convert16 f (if db d 0 14 then .sr (draw key (32 * r.2 + c.2)) else .rne))))

/-- Write the output lines of a tile with byte enables (R52, R63). -/
def State.putTile (s : State) (q : Nat) (d : Desc) (out : List (List (Option Conv))) : State :=
  out.zipIdx.foldl (fun s r =>
    if r.1.any Option.isSome then
      s.putRow16 (foldBase q + dw d 11 + 64 * df d 12 16 16 * r.2) (r.1.map (fun c => c.map Conv.code))
    else s) s

end Sys2Proof.Machine
end

