-- ==== Sys2Proof/Machine/Arrays.lean ====
section
/-! DEFINITION. The commands of the arrays and the mangles' claims (R41 to R82, R490). -/

namespace Sys2Proof.Machine

/-- The output lines of a tile (R63); none under WB = 2 (R64). -/
def outRegions (q : Nat) (d : Desc) : List (Nat × Nat) :=
  if df d 0 15 2 = 2 then []
  else ((List.range 32).filter (fun i => bitAt (dw d 13) i && dw d 14 != 0)).map
    (fun r => (foldBase q + dw d 11 + 64 * df d 12 16 16 * r, 64))

/-- Do two lists of regions overlap? -/
def overlap (a b : List (Nat × Nat)) : Bool :=
  a.any (fun x => b.any (fun y => decide (x.1 < y.1 + y.2 ∧ y.1 < x.1 + x.2)))

/-- Does a tile take an operand of its kind that an undefined tile before it retains (R66, R67)? -/
def Tile.inherits (x : Tile) (bad : List Tile) : Bool :=
  bad.any (fun t => t.kind == x.kind && (((sideA x.desc).reuse && (sideA t.desc).keep) ||
    ((sideB x.desc).reuse && (sideB t.desc).keep)))

/-- The tiles in flight of one array when output lines `out` are added beside them (R66): `other` says that they belong to another
array. A tile whose operands they meet, or that reuses such an operand, has undefined operands; output lines of two
arrays that meet have no order. -/
def markTiles (other : Bool) (out : List (Nat × Nat)) (q : Nat) (l : List Tile) : List Tile :=
  l.foldl (fun done t =>
    let bad := t.undef || overlap out t.reads || t.inherits (done.filter (·.undef))
    let clash := if other then out.filter (fun r => overlap [r] (outRegions q t.desc)) else []
    done ++ [{ t with undef := bad, clash := t.clash ++ clash }]) []

/-- The retained operands of an array whose last tile of their kind has undefined operands are free (R66, R67). -/
def freeKept (n : Nat) (tiles : List Tile) (side : Desc → TileSide) (l : List (Nat × Keep)) : List (Nat × Keep) :=
  l.map (fun e => match tiles.reverse.find? (fun t => t.kind == e.1) with
    | some t => if t.undef && (side t.desc).keep then (e.1, { e.2 with rows := freeRows n e.2.rows }) else e
    | none => e)

/-- Mark what R66 leaves undefined in the tiles in flight of quarter q when array `k` accepts a tile with output lines `out`. -/
def State.markOverlaps (s : State) (q k : Nat) (out : List (Nat × Nat)) : State :=
  let arrays := s.compute.arrays.map (fun e =>
    if e.1 / 96 = q then
      let tiles := markTiles (e.1 != k) out q e.2.tiles
      (e.1, { e.2 with tiles := tiles, keepA := freeKept s.free tiles sideA e.2.keepA
                       keepB := freeKept (s.free + 2 ^ 32) tiles sideB e.2.keepB })
    else e)
  { s with compute := { s.compute with arrays := arrays }, free := s.free + 2 ^ 33 }

/-- A tile that array `k` of quarter q accepts, with what R66 leaves undefined of it: its operands, where it or a tile in flight
writes them; its output lines, where another array writes them too. -/
def State.markTile (s : State) (q k : Nat) (t : Tile) : Tile :=
  let out := outRegions q t.desc
  let mine := s.compute.arrays.filter (fun e => e.1 / 96 == q)
  let read := mine.any (fun e => e.2.tiles.any (fun o => overlap t.reads (outRegions q o.desc)))
  let older := (s.compute.arrays.filter (fun e => e.1 == k)).flatMap (fun e => e.2.tiles)
  let lines := (mine.filter (fun e => e.1 != k)).flatMap (fun e => e.2.tiles.flatMap (fun o => outRegions q o.desc))
  { t with undef := overlap out t.reads || read || t.inherits (older.filter (·.undef))
           clash := out.filter (fun r => overlap [r] lines) }

/-- What a side retains after a tile is accepted (R67, R80 to R82). DESIGN CHOICE (log entry 137): a null tile with KEEP
replaces its kind's bank. -/
def keepAfter (d : Desc) (x : TileSide) (arr kind : Nat) (rows : List OpRow) (l : List (Nat × Keep)) : List (Nat × Keep) :=
  if x.keep then
    (kind, { fmt := df d 0 4 4, bsz := db d 0 12, nkM1 := df d 1 0 16, mask := x.mask, rows := rows }) ::
      l.filter (fun e => e.1 != kind)
  else if arr ≠ 0 ∧ nullTile d then l
  else l.filter (fun e => e.1 != kind)

/-- Is this ACLK in a window that the throttle blocks (R417)? -/
def State.blockedWindow (s : State) : Bool :=
  let n := s.field (mPage .pwr) Reg.PWR_PWR_STS 10 6
  let w := s.now / 1024 % 64
  decide (w * n / 64 < (w + 1) * n / 64)

/-- The ACLK at which one side's reads or its mangle's stream begin for the next tile (R334). -/
def feedStart (x : ArrayState) (side : TileSide) (arrived granted : Nat) : Nat :=
  if side.mode = 1 then granted else x.feedFrom arrived

/-- Are the first min(B, 32) beats of every unmasked feeder, every C line and a line buffer of every unmasked drain ready in ACLK
`now` (R46, R47, R334)? `late` gives the waits for Fold grants by feeder: rows 0 to 31, columns 32 to 63, C buffers 64 to 95. -/
def ArrayState.ready (x : ArrayState) (now arrived granted : Nat) (d : Desc) (late : List (Nat × Nat × Nat)) : Bool :=
  let f := (fmtOf (df d 0 4 4)).getD .bf16
  let bsz := db d 0 12
  let first := min (descBeats d) 32 - 1
  let rows := maskList (dw d 13)
  let side (x' : TileSide) (i : Nat) : Bool :=
    decide (supplyAt x' f bsz (feedStart x x' arrived granted) i first late ≤ now)
  let cWait (r : Nat) : Nat := ((late.filter (fun e => e.1 == 64 + r)).map (·.2.2)).sum
  rows.all (side (sideA d)) && (maskList (dw d 14)).all (fun c => side (sideB d) (32 + c)) &&
  (df d 0 17 2 == 0 || rows.all (fun r => decide (x.feedFrom arrived + 18 + cWait r ≤ now))) &&
  (df d 0 15 2 == 2 || rows.all (fun r => decide (x.linesHeld now r < 2)))

/-- What the feeders and links of a tile accepted in ACLK `now` do (R50, R78). -/
def ArrayState.flowOf (x : ArrayState) (now arrived granted : Nat) (d : Desc) (late : List (Nat × Nat × Nat)) : TileFlow :=
  let f := (fmtOf (df d 0 4 4)).getD .bf16
  let sup (side : TileSide) (off i k : Nat) : Nat :=
    supplyAt side f (db d 0 12) (feedStart x side arrived granted) (off + i) k late - now
  tileFlow (descBeats d) (maskList (dw d 13)) (maskList (dw d 14)) (sup (sideA d) 0) (sup (sideB d) 32)

/-- TILE_ACCEPT (R47, R49, R62, R67, R72 to R75, R77, R81, R334, R417, R490): the array of a slot accepts its next tile in an ACLK in
which its feeders, C buffers and line buffers are ready. `late` and `drains` say how long the Fold's other requesters keep
its feeders and the lines of its rows waiting (log entry 149). -/
def execTileAccept (t q slot arr : Nat) (late : List (Nat × Nat × Nat)) (drains : List Nat) (flips : List (Nat × Nat))
    (s : State) : Host.Outcome State Fault Refusal :=
  let s := s.advance t
  let n := 3 * slot + arr
  let p := s.physOf q slot
  let x := s.array q p arr
  let paced := match x.lastAccept with
    | none => true
    | some (at_, i, _) => decide (at_ + i ≤ s.now)
  match s.startable q n with
  | none => done s
  | some (i, w) =>
    let d := w.desc
    let ms := s.mangles q
    let who := s.claimant q n
    let granted := ms.served.find? (fun e => e.1 == who)
    let from_ := (granted.map Prod.snd).getD 0
    if decide (30 ≤ slot ∨ 3 ≤ arr) || !paced || s.blockedWindow || (!(streamsOf n d).isEmpty && granted.isNone) ||
        !x.ready s.now w.fetchedAt from_ d late then done s
    else
      let s := s.upset flips
      let page := s.queuePage q n
      let kind := if arr = 0 then 0 else x.kinds % 2
      let keptOf (l : List (Nat × Keep)) : Option Keep := (l.find? (fun e => e.1 == kind)).map Prod.snd
      let a := s.sideData q d (sideA d) (keptOf x.keepA)
      let b := s.sideData q d (sideB d) (keptOf x.keepB)
      let cOn := df d 0 17 2 != 0
      let cAddr (r : Nat) : Nat := foldBase q + dw d 10 + 64 * df d 12 0 16 * r
      let cRows := (List.range 32).filter (fun r => cOn && bitAt (dw d 13) r)
      let cBad := (List.range 32).map (fun r => cRows.contains r && s.linePoisoned (cAddr r))
      let c := (List.range 32).map (fun r =>
        if cRows.contains r then (List.range 32).map (fun j => s.readNat (cAddr r + 2 * j) 2) else [])
      let reads : List (Nat × Nat) := a.regions ++ b.regions ++ cRows.map (fun r => (cAddr r, 64))
      let s := reads.foldl (fun s r => s.noteReadBy (some (q, 0)) r.1 r.2) s
      let k := 96 * q + 3 * p + arr
      let flow := x.flowOf s.now w.fetchedAt from_ d late
      let tile : Tile := s.markTile q k { desc := d, kind := kind, at_ := s.now, salt := s.salt q, a := a.rows, b := b.rows,
                                          c := c, cBad := cBad, reads := a.regions ++ b.regions, flow := flow,
                                          drains := drains }
      let s := s.markOverlaps q k (outRegions q d)
      let x := s.array q p arr
      let tiles := x.tiles ++ [tile]
      let x := { x with tiles := tiles, lastAccept := some (s.now, max (descBeats d + 2) 32, descBeats d)
                        kinds := x.kinds + 1
                        keepA := freeKept (s.free + 2 ^ 33) tiles sideA (keepAfter d (sideA d) arr kind a.rows x.keepA)
                        keepB := freeKept (s.free + 2 ^ 34) tiles sideB (keepAfter d (sideB d) arr kind b.rows x.keepB) }
      let s := ({ s with free := s.free + 2 ^ 35 } : State).setArray q p arr x
      let s := s.setMangles q { ms with served := ms.served.filter (fun e => e.1 != who) }
      let s := s.startEntry q n i w
      let s := ((s.raiseIf (a.sat || b.sat) page 3).raiseIf (a.nan || b.nan) page 4).raiseIf
        (a.poison || b.poison || cBad.any id) page 8
      done (s.claimNext q n)

/-- The rounded results of a tile, with one free value for each that R66 leaves undefined: every element where the operands are,
those of the lines that another array writes too. -/
def Tile.results (x : Tile) (q n : Nat) (l : List (List (Option Conv))) : List (List (Option Conv)) :=
  let d := x.desc
  l.zipIdx.map (fun r =>
    let line := foldBase q + dw d 11 + 64 * df d 12 16 16 * r.2
    r.1.zipIdx.map (fun c => c.1.map (fun v =>
      let k := n + 3 * (32 * r.2 + c.2)
      if x.undef then { code := Config.freeNat k % 65536, sat := bitAt (Config.freeNat (k + 1)) 0
                        nan := bitAt (Config.freeNat (k + 2)) 0 }
      else if x.clash.contains (line, 64) then { v with code := Config.freeNat k % 65536 } else v)))

/-- TILE_COMPLETE (R48, R50 to R53, R60, R61, R66, R68, R70, R79): the oldest tile of an array completes in its last cycle: it writes
its lines, or fills the handoff buffer, and signals. The operands give the errors met in feeders and drains: corrected ones,
uncorrectable ones by row, column and line, and those in mode-1 lines of A and of B. -/
def execTileComplete (t q slot arr : Nat) (corrected : Nat) (badRows badCols badLines : List Nat) (badA badB : Nat)
    (s : State) : Host.Outcome State Fault Refusal :=
  let s := s.advance t
  let n := 3 * slot + arr
  let p := s.physOf q slot
  let x := s.array q p arr
  let queue := s.queue q n
  match x.tiles, queue.window with
  | tile :: tiles, w :: rest =>
    let d := tile.desc
    let hand := df d 0 15 2 == 2
    let stop := tile.stop (x.handFor 0)
    if w.status ≠ .running ∨ s.now < tile.at_ + stop ∨ (hand && x.handoff.isSome) then done s
    else
      let page := s.queuePage q n
      let off := 0x40 * arr
      let key := s.keyOfEntry q { w with salt := tile.salt }
      let bad (i : Nat) : Bool := badRows.contains i || badLines.contains i || badA != 0
      let carries0 := tile.carries bad (fun j => badCols.contains j || badB != 0)
      let carries := if tile.undef then
          carries0.zipIdx.map (fun r => r.1.zipIdx.map (fun c => c.1.map (fun _ => freeCarry (s.free + 32 * r.2 + c.2))))
        else carries0
      let conv := tile.results q s.free (roundCarries d key carries)
      let s := if tile.undef || !tile.clash.isEmpty then { s with free := s.free + 4096 } else s
      let any (p : Conv → Bool) : Bool := !hand && conv.any (fun r => r.any (fun c => (c.map p).getD false))
      let s := s.setArray q p arr { x with tiles := tiles
                                           handoff := if hand then some { ce := df d 15 28 3, carries := carries.flatten }
                                             else x.handoff }
      let s := if hand then s else s.putTile q d conv
      let s := (s.raiseIf (any Conv.sat) page 3).raiseIf (any Conv.nan) page 4
      let ue := badRows.length + badCols.length + badLines.length + badA + badB
      let s := ((s.addSat page Reg.ARRAY_ECC_CE corrected).raiseIf (corrected != 0) page 6).addSat page Reg.ARRAY_ECC_UE ue
      let s := s.raiseIf (ue != 0) page 7
      let s := (s.setNum page (Reg.ARRAY_LAST_EXT + off) (min 0xFFFFFFFF (stop - (descBeats d + 70)))).setNum
        page (Reg.ARRAY_LAST_TAG + off) (dTag d)
      let s := s.addWrap page (Reg.ARRAY_TILES_DONE + off) 1
      let s := (s.setQueue q n { (s.queue q n) with window := rest }).incCounter q (dSig d) 1
      done ((s.traceEvent q n 1 0 (dTag d)).drain q n)
  | _, _ => done s

/-- MANGLE_CLAIM_GRANT (R77): the oldest waiting request whose mangles are all free, and are named by no older one, is
granted. -/
def execMangleClaimGrant (t q : Nat) (s : State) : Host.Outcome State Fault Refusal :=
  let s := s.advance t
  let x := s.mangles q
  match pick x.claims x.busy with
  | none => done s
  | some c =>
    let use (m : Nat × Nat) : MangleUse :=
      { mangle := m.1, who := c.who, at_ := s.now, until_ := if m.2 = 0 then s.now else s.now + 2 * (24 + (m.2 + 511) / 512) }
    done (s.setMangles q { claims := x.claims.erase c, busy := x.busy ++ c.streams.map use
                           served := x.served ++ [(c.who, s.now)] })
where
  /-- Is claim a older than claim b? -/
  older (a b : MangleClaim) : Bool := decide (a.at_ < b.at_ ∨ (a.at_ = b.at_ ∧ a.who < b.who))
  /-- The claim that is granted. -/
  pick (l : List MangleClaim) (busy : List MangleUse) : Option MangleClaim :=
    let ok (c : MangleClaim) : Bool :=
      c.streams.all (fun m => busy.all (fun b => b.mangle != m.1) &&
        l.all (fun o => !(older o c && o.streams.any (fun e => e.1 == m.1))))
    (l.filter ok).foldl (fun b c => match b with
      | none => some c
      | some d => if older c d then some c else some d) none

/-- MANGLE_STREAM_DONE (R77, R334): a mangle has delivered the last beat of its stream, no earlier than its rate allows, and is
free again. -/
def execMangleStreamDone (t q m : Nat) (s : State) : Host.Outcome State Fault Refusal :=
  let s := s.advance t
  let x := s.mangles q
  done (s.setMangles q { x with busy := x.busy.filter (fun u => !(u.mangle == m && decide (u.until_ ≤ s.now))) })

end Sys2Proof.Machine
end

