-- ==== Sys2Proof/Machine/VecOps.lean ====
section
/-! DEFINITION. What a vector engine computes on one row, kernel by kernel (R86 to R92, R121 to R125). -/

namespace Sys2Proof.Machine

/-- A binary32 constant. -/
def c32 (w : Word) : Num := ofF32 w
/-- 1. -/
def one : Num := .fin false 1 0
/-- A count as a number. -/
def natNum (n : Nat) : Num := .fin false n 0

/-- The forms of GELU with tanh: v and v′ (R87); x³ is (x·x)·x (log entry 138). -/
def geluV (x : Num) : Num :=
  fMul (c32 0x3F4C422A) (fAdd x (fMul (c32 0x3D372713) (fMul (fMul x x) x)))
/-- v′ of R87. -/
def geluDv (x : Num) : Num := fMul (c32 0x3F4C422A) (fAdd one (fMul (c32 0x3E095D4F) (fMul x x)))

/-- 0.5. -/
def half : Num := .fin false 1 (-1)

/-- Activation n of R123; `lo` and `hi` are PARAM0 and PARAM1. -/
def activation (n : Nat) (lo hi x : Num) : Num :=
  match n with
  | 0 => elem .sigmoid x
  | 1 => elem .tanh x
  | 2 => elem .exp x
  | 3 => numMax x .zero
  | 4 => elem .softplus x
  | 5 => numMin (numMax x lo) hi
  | 6 => fMul x (elem .sigmoid x)
  | 7 => fMul x (elem .phi x)
  | 8 => fMul (fMul half x) (fAdd one (elem .tanh (geluV x)))
  | _ => fMul x (elem .tanh (elem .softplus x))

/-- f′ of activation n, from y for n = 0 to 5 and from x for n = 6 to 9 (R86, R87). A NaN gives NaN.
Products are taken from the left (log entry 138). -/
def derivative (n : Nat) (lo hi v : Num) : Num :=
  if v.isNan then .nan
  else
    match n with
    | 0 => fMul v (fSub one v)
    | 1 => fSub one (fMul v v)
    | 2 => v
    | 3 => if Num.zero.lt v then one else .zero
    | 4 => (elem .expm1 v.negate).negate
    | 5 => if lo.lt v && v.lt hi then one else .zero
    | 6 => let g := elem .sigmoid v; fMul g (fAdd one (fMul v (fSub one g)))
    | 7 => fAdd (elem .phi v) (fMul v (elem .normalDensity v))
    | 8 =>
      let t := elem .tanh (geluV v)
      fAdd (fMul half (fAdd one t)) (fMul (fMul (fMul half v) (fSub one (fMul t t))) (geluDv v))
    | _ =>
      let t := elem .tanh (elem .softplus v)
      fAdd t (fMul (fMul v (elem .sigmoid v)) (fSub one (fMul t t)))

/-- Combine 64 lanes pairwise: l with l + 32, then l + 16, down to lane 0 (R124). -/
def combineLanes (f : Num → Num → Num) (lanes : List Num) : Num :=
  let halve (l : List Num) (k : Nat) : List Num := (l.take k).zipWith f (l.drop k)
  (halve (halve (halve (halve (halve (halve lanes 32) 16) 8) 4) 2) 1).headD .nan

/-- Reduce elements with their positions into 64 lanes from `start`, position k into lane k mod 64, then across the lanes
(R124). -/
def laneReduce (f : Num → Num → Num) (start : Num) (vs : List (Num × Nat)) : Num :=
  combineLanes f ((List.range 64).map (fun l => ((vs.filter (fun p => p.2 % 64 = l)).map Prod.fst).foldl f start))

/-- A row's sum in binary32 (R124). -/
def rowSum (vs : List Num) : Num := laneReduce fAdd .zero vs.zipIdx
/-- A row's maximum (R124). -/
def rowMax (vs : List Num) : Num := laneReduce numMax (.inf true) vs.zipIdx

/-- Mean and reciprocal deviation of a row (R88, R91), the latter one elementary function (log entry 139). -/
def rowNorm (eps : Num) (vs : List Num) : Num × Num :=
  let n := natNum vs.length
  let mu := fDiv (rowSum vs) n
  let var := fDiv (rowSum (vs.map (fun x => let c := fSub x mu; fMul c c))) n
  (mu, elem .rsqrt (fAdd var eps))

/-- ρ of RMS normalisation (R88), one elementary function (log entry 139). -/
def rowRms (eps : Num) (vs : List Num) : Num :=
  elem .rsqrt (fAdd (fDiv (rowSum (vs.map (fun x => fMul x x))) (natNum vs.length)) eps)

/-- The included elements of a row, with their positions. -/
def included (mask : List Bool) (vs : List Num) : List (Num × Nat) := ((vs.zipIdx.zip mask).filter Prod.snd).map Prod.fst

/-- Exponentials of a row against m; an excluded position takes no part (R90). -/
def rowLse (mask : List Bool) (vs : List Num) : Num × Num :=
  let m := laneReduce numMax (.inf true) (included mask vs)
  let e := laneReduce fAdd .zero (included mask (vs.map (fun s => elem .exp (fSub s m))))
  (m, e)

/-- L of R88. -/
def lse (me : Num × Num) : Num := fAdd me.1 (elem .log me.2)

/-- What a kernel takes for one row: the two sources, VEC0, AUX0 as a vector, the parameters, the row's saved statistics
and its mask. -/
structure VecIn where
  s0 : List Num
  s1 : List Num
  v0 : List Num
  x0 : List Num
  p0 : Num
  p1 : Num
  st0 : Num
  st1 : Num
  mask : List Bool
  deriving DecidableEq, Repr

/-- What a kernel gives for one row: the values to be rounded into DST, the statistics, and the terms of the scale and
bias gradients. -/
structure VecRow where
  d : List Num := []
  stats : List Num := []
  gScale : List Num := []
  gBias : List Num := []
  deriving DecidableEq, Repr

/-- Normalisation backward from x̂ and g (R89); RMS omits S₁ and the bias. -/
def normBwd (rms : Bool) (rho : Num) (xh g gamma : List Num) : VecRow :=
  let n := natNum xh.length
  let g1 := g.zipWith fMul gamma
  let s1 := rowSum g1
  let s2 := rowSum (g1.zipWith fMul xh)
  let dx (p : Num × Num) : Num :=
    let xs := fMul p.2 s2
    fMul rho (fSub p.1 (fDiv (if rms then xs else fAdd s1 xs) n))
  { d := (g1.zip xh).map dx, gScale := g.zipWith fMul xh, gBias := if rms then [] else g }

/-- Softmax backward from y and g (R90). -/
def softmaxBwd (mask : List Bool) (y g : List Num) : VecRow :=
  let d := laneReduce fAdd .zero (included mask (g.zipWith fMul y))
  { d := ((y.zip g).zip mask).map (fun p => if p.2 then fMul p.1.1 (fSub p.1.2 d) else .zero) }

/-- One row of a kernel (R123). Kernels 0x01 to 0x07 are exact. -/
def vecRow (k : Nat) (i : VecIn) : VecRow :=
  if k = 1 then { d := i.s0.zipWith Num.add i.s1 }
  else if k = 2 then { d := i.s0.zipWith Num.sub i.s1 }
  else if k = 3 then { d := i.s0.zipWith Num.mul i.s1 }
  else if k = 4 then { d := (i.s0.zipWith Num.mul i.s1).zipWith Num.add i.v0 }
  else if k = 5 then { d := i.s0.zipWith numMax i.s1 }
  else if k = 6 then { d := i.s0.zipWith numMin i.s1 }
  else if k = 7 then { d := i.s0.map (fun x => (i.p0.mul x).add i.p1) }
  else if k < 0x1A then { d := i.s0.map (activation (k - 0x10) i.p0 i.p1) }
  else if k = 0x1A then { d := i.s0.map (fDiv one) }
  else if k = 0x1B then { d := i.s0.map (elem .rsqrt) }
  else if k = 0x1C then { d := i.s0.map (elem .log) }
  else if k < 0x30 then { d := i.s1.zipWith (fun g v => fMul g (derivative (k - 0x20) i.p0 i.p1 v)) i.s0 }
  else if k = 0x30 then { stats := [rowSum i.s0] }
  else if k = 0x31 then { stats := [rowMax i.s0] }
  else if k = 0x32 then { stats := [rowSum (i.s0.map (fun x => fMul x x))] }
  else if k = 0x33 then { stats := [rowSum (i.s0.zipWith fMul i.s1)] }
  else if k = 0x34 then { stats := [lse (rowLse i.mask i.s0)] }
  else if k = 0x40 then
    let m := rowNorm i.p0 i.s0
    { d := ((i.s0.zip i.v0).zip i.x0).map (fun p => fAdd (fMul (fMul (fSub p.1.1 m.1) m.2) p.1.2) p.2), stats := [m.1, m.2] }
  else if k = 0x41 then
    let r := rowRms i.p0 i.s0
    { d := i.s0.zipWith (fun x g => fMul (fMul x r) g) i.v0, stats := [r] }
  else if k = 0x42 then
    let l := lse (rowLse i.mask i.s0)
    { d := (i.s0.zip i.mask).map (fun p => if p.2 then elem .exp (fSub p.1 l) else .zero), stats := [l] }
  else if k = 0x48 then normBwd false i.st1 (i.s0.map (fun x => fMul (fSub x i.st0) i.st1)) i.s1 i.v0
  else if k = 0x49 then normBwd true i.st0 (i.s0.map (fun x => fMul x i.st0)) i.s1 i.v0
  else if k = 0x4A then softmaxBwd i.mask i.s0 i.s1
  else if k = 0x4B then softmaxBwd i.mask (i.s0.map (fun s => elem .exp (fSub s i.st0))) i.s1
  else if k = 0x4C then
    let m := rowNorm i.p0 i.s0
    normBwd false m.2 (i.s0.map (fun x => fMul (fSub x m.1) m.2)) i.s1 i.v0
  else if k = 0x4D then
    let r := rowRms i.p0 i.s0
    normBwd true r (i.s0.map (fun x => fMul x r)) i.s1 i.v0
  else
    let me := rowLse i.mask i.s0
    softmaxBwd i.mask (i.s0.map (fun s => fDiv (elem .exp (fSub s me.1)) me.2)) i.s1

/-- Path time of a kernel in VCLK for G groups of 64 elements (R336). -/
def vecPath (k g : Nat) : Nat :=
  if k = 4 then 25 + g
  else if k < 8 then 24 + g
  else if k < 0x20 then 32 + g
  else if k < 0x30 then 36 + g
  else if k < 0x34 then 30 + g
  else
    let p := if k = 0x42 ∨ k = 0x4D then 3 else if k = 0x4C ∨ k = 0x4E then 4 else 2
    20 + p * 22 + p * g

end Sys2Proof.Machine
end

