-- ==== Sys2Proof/Machine/Vector.lean ====
section
/-! DEFINITION. The vector engines' commands, one for each kernel (R86 to R92, R121 to R125). -/

namespace Sys2Proof.Machine

/-- A word of a descriptor as a binary32 number. -/
def dF32 (d : Desc) (i : Nat) : Num := ofF32 (BitVec.ofNat 32 (dw d i))

/-- A split pair in memory; a poisoned line reads as NaN (R88, R116). -/
def State.splitAt (s : State) (a : Nat) : Num :=
  if s.linePoisoned a || s.linePoisoned (a + 2) then .nan else splitValue (s.readNat a 2) (s.readNat (a + 2) 2)

/-- The row mask of row r of a softmax kernel; every position is included without one (R123).
A poisoned line's bits are taken as delivered (log entry 143). -/
def State.vecMask (s : State) (base : Nat) (d : Desc) (r n : Nat) : List Bool :=
  if kernelSoftmax (df d 0 4 8) && db d 0 15 then
    (List.range n).map (fun k => bitAt (s.readNat (base + dw d 13 + r * dw d 14 + k / 8) 1) (k % 8))
  else List.replicate n true

/-- What row r of a vector descriptor of quarter q takes (R122, R123). -/
def State.vecIn (s : State) (q : Nat) (d : Desc) (r : Nat) : VecIn :=
  let k := df d 0 4 8
  let n := df d 1 0 16 + 1
  let base := foldBase q
  let fi := fmt16 (db d 0 12)
  let st := base + dw d 10 + r * statBytes k
  { s0 := s.rowValues fi (base + dw d 3 + r * dw d 4) n
    s1 := if kernelSrc1 k then s.rowValues fi (base + dw d 5 + r * dw d 6) n else []
    v0 := if kernelVec0 k then s.rowValues fi (base + dw d 7) n else []
    x0 := if k = 0x40 then s.rowValues fi (base + dw d 13) n else []
    p0 := dF32 d 11, p1 := dF32 d 12
    st0 := if k = 0x48 ∨ k = 0x49 ∨ k = 0x4B then s.splitAt st else .nan
    st1 := if k = 0x48 then s.splitAt (st + 4) else .nan
    mask := s.vecMask base d r n }

/-- The regions that a vector descriptor reads: address and bytes. -/
def vecReads (q : Nat) (d : Desc) : List (Nat × Nat) :=
  let k := df d 0 4 8
  let n := df d 1 0 16 + 1
  let base := foldBase q
  let rows := List.range (df d 2 0 24 + 1)
  let pick (c : Bool) (l : List (Nat × Nat)) : List (Nat × Nat) := if c then l else []
  rows.map (fun r => (base + dw d 3 + r * dw d 4, 2 * n)) ++
  pick (kernelSrc1 k) (rows.map (fun r => (base + dw d 5 + r * dw d 6, 2 * n))) ++
  pick (kernelVec0 k) [(base + dw d 7, 2 * n)] ++ pick (kernelAux0 k) [(base + dw d 13, 2 * n)] ++
  pick (kernelAux1 k) [(base + dw d 14, 2 * n)] ++
  pick (k = 0x48 || k = 0x49 || k = 0x4B) [(base + dw d 10, (df d 2 0 24 + 1) * statBytes k)] ++
  pick (kernelSoftmax k && db d 0 15) (rows.map (fun r => (base + dw d 13 + r * dw d 14, (n + 7) / 8)))

/-- Raise CONV_SAT and CONV_NAN of an engine page for a list of conversions (R31, R117, R124). -/
def State.noteConvs (s : State) (p : Page) (cs : List Conv) : State :=
  (s.raiseIf (cs.any Conv.sat) p 1).raiseIf (cs.any Conv.nan) p 2

/-- Note every region that an engine reads, and raise POISON_IN if a line of one was poisoned (R98, R116). -/
def State.engineReads (s : State) (p : Page) (l : List (Nat × Nat)) : State :=
  let bad := l.any (fun r => s.regionPoisoned r.1 r.2)
  (l.foldl (fun s r => s.noteReadBy (some (p.win, 0)) r.1 r.2) s).raiseIf bad p 3

/-- Row r of a vector descriptor: the row is written and its statistics stored; the answer carries the gradient terms. -/
def State.vecDoRow (s : State) (q : Nat) (d : Desc) (key : DrawKey) (page : Page) (r : Nat) : State × VecRow :=
  let k := df d 0 4 8
  let n := df d 1 0 16 + 1
  let fo := fmt16 (db d 0 13)
  let o := vecRow k (s.vecIn q d r)
  let conv := o.d.zipIdx.map (fun p =>
    convert16 fo (if db d 0 14 then .sr (draw key (r * n + p.2)) else .rne) p.1)
  let s := if kernelDst k then s.putRow16 (foldBase q + dw d 8 + r * dw d 9) (conv.map (fun (c : Conv) => some c.code)) else s
  let st := o.stats.flatMap (fun v => let p := splitPair v; [some p.1, some p.2])
  let s := if st.isEmpty then s else s.putRow16 (foldBase q + dw d 10 + r * statBytes k) st
  (s.noteConvs page (conv ++ o.stats.map (convert16 .bf16 .rne)), o)

/-- Add the gradient sums of a descriptor into one buffer, each with one rounding under RND (R125). The spec gives these
elements no draw index: under SR each takes a free value. -/
def State.addGrads (s : State) (q off : Nat) (d : Desc) (page : Page) (sums : List Num) : State :=
  let fo := fmt16 (db d 0 13)
  let a := foldBase q + off
  let cs := (sums.zip (s.rowValues fo a sums.length)).zipIdx.map (fun p =>
    convert16 fo (if db d 0 14 then .sr (Config.freeNat (s.free + p.2) % 65536) else .rne) (p.1.2.add p.1.1))
  ({ (s.putRow16 a (cs.map (fun (c : Conv) => some c.code))) with free := s.free + sums.length }).noteConvs page cs

/-- The columns' sums of gradient terms over the rows, in binary32 from +0 (R125). -/
def gradSums (n : Nat) (rows : List (List Num)) : List Num :=
  rows.foldl (fun acc r => acc.zipWith fAdd r) (List.replicate n .zero)

/-- Run the vector descriptor that VE e of quarter q starts next, if its kernel is one of `kernels` (R105, R123). -/
def State.runVec (s : State) (q e : Nat) (kernels : List Nat) (flips : List (Nat × Nat)) : State :=
  let n := 96 + e
  match (if e < 16 then s.startable q n else none) with
  | none => s
  | some (i, w) =>
    let d := w.desc
    let k := df d 0 4 8
    if !kernels.contains k then s
    else
      let page := qPage .ve q e
      let cols := df d 1 0 16 + 1
      let s := (s.upset flips).startEntry q n i w
      let key := s.keyOfEntry q { w with salt := s.salt q, attempt := s.attempt }
      let s := s.engineReads page (vecReads q d)
      let r := (List.range (df d 2 0 24 + 1)).foldl (fun a r =>
        let o := a.1.vecDoRow q d key page r
        (o.1, a.2 ++ [o.2])) (s, [])
      let s := if kernelAux0 k && k != 0x40 then
          r.1.addGrads q (dw d 13) d page (gradSums cols (r.2.map (·.gScale))) else r.1
      let s := if kernelAux1 k then s.addGrads q (dw d 14) d page (gradSums cols (r.2.map (·.gBias))) else s
      s.finishEntry q n i (s.now + 2 * vecPath k ((df d 2 0 24 + 1) * ((cols + 63) / 64)))

/-- VEC_ADD (R123): s0 + s1. -/
def execVecAdd (t q e : Nat) (flips : List (Nat × Nat)) (s : State) : Host.Outcome State Fault Refusal :=
  done ((s.advance t).runVec q e [1] flips)

/-- VEC_SUB (R123): s0 - s1. -/
def execVecSub (t q e : Nat) (flips : List (Nat × Nat)) (s : State) : Host.Outcome State Fault Refusal :=
  done ((s.advance t).runVec q e [2] flips)

/-- VEC_MUL (R123): s0 * s1. -/
def execVecMul (t q e : Nat) (flips : List (Nat × Nat)) (s : State) : Host.Outcome State Fault Refusal :=
  done ((s.advance t).runVec q e [3] flips)

/-- VEC_FMA (R123): s0 * s1 + v. -/
def execVecFma (t q e : Nat) (flips : List (Nat × Nat)) (s : State) : Host.Outcome State Fault Refusal :=
  done ((s.advance t).runVec q e [4] flips)

/-- VEC_MAX (R123): max(s0, s1). -/
def execVecMax (t q e : Nat) (flips : List (Nat × Nat)) (s : State) : Host.Outcome State Fault Refusal :=
  done ((s.advance t).runVec q e [5] flips)

/-- VEC_MIN (R123): min(s0, s1). -/
def execVecMin (t q e : Nat) (flips : List (Nat × Nat)) (s : State) : Host.Outcome State Fault Refusal :=
  done ((s.advance t).runVec q e [6] flips)

/-- VEC_AXPB (R123): PARAM0 * s0 + PARAM1. -/
def execVecAxpb (t q e : Nat) (flips : List (Nat × Nat)) (s : State) : Host.Outcome State Fault Refusal :=
  done ((s.advance t).runVec q e [7] flips)

/-- VEC_ACTIVATION (R123): f(s0). -/
def execVecActivation (t q e : Nat) (flips : List (Nat × Nat)) (s : State) : Host.Outcome State Fault Refusal :=
  done ((s.advance t).runVec q e [0x10, 0x11, 0x12, 0x13, 0x14, 0x15, 0x16, 0x17, 0x18, 0x19] flips)

/-- VEC_RECIP (R123): 1/s0. -/
def execVecRecip (t q e : Nat) (flips : List (Nat × Nat)) (s : State) : Host.Outcome State Fault Refusal :=
  done ((s.advance t).runVec q e [0x1A] flips)

/-- VEC_RSQRT (R123): 1/sqrt(s0). -/
def execVecRsqrt (t q e : Nat) (flips : List (Nat × Nat)) (s : State) : Host.Outcome State Fault Refusal :=
  done ((s.advance t).runVec q e [0x1B] flips)

/-- VEC_LOG (R123): ln s0. -/
def execVecLog (t q e : Nat) (flips : List (Nat × Nat)) (s : State) : Host.Outcome State Fault Refusal :=
  done ((s.advance t).runVec q e [0x1C] flips)

/-- VEC_ACTIVATION_BACKWARD (R86): s1 * f'. -/
def execVecActivationBackward (t q e : Nat) (flips : List (Nat × Nat)) (s : State) : Host.Outcome State Fault Refusal :=
  done ((s.advance t).runVec q e [0x20, 0x21, 0x22, 0x23, 0x24, 0x25, 0x26, 0x27, 0x28, 0x29] flips)

/-- VEC_ROW_SUM (R124): row sums. -/
def execVecRowSum (t q e : Nat) (flips : List (Nat × Nat)) (s : State) : Host.Outcome State Fault Refusal :=
  done ((s.advance t).runVec q e [0x30] flips)

/-- VEC_ROW_MAX (R124): row maxima. -/
def execVecRowMax (t q e : Nat) (flips : List (Nat × Nat)) (s : State) : Host.Outcome State Fault Refusal :=
  done ((s.advance t).runVec q e [0x31] flips)

/-- VEC_ROW_SUMSQ (R123): row sums of squares. -/
def execVecRowSumsq (t q e : Nat) (flips : List (Nat × Nat)) (s : State) : Host.Outcome State Fault Refusal :=
  done ((s.advance t).runVec q e [0x32] flips)

/-- VEC_ROW_DOT (R123): row dot products. -/
def execVecRowDot (t q e : Nat) (flips : List (Nat × Nat)) (s : State) : Host.Outcome State Fault Refusal :=
  done ((s.advance t).runVec q e [0x33] flips)

/-- VEC_ROW_LSE (R88): row log-sum-exps. -/
def execVecRowLse (t q e : Nat) (flips : List (Nat × Nat)) (s : State) : Host.Outcome State Fault Refusal :=
  done ((s.advance t).runVec q e [0x34] flips)

/-- VEC_LN_FWD (R123): layer normalisation. -/
def execVecLnFwd (t q e : Nat) (flips : List (Nat × Nat)) (s : State) : Host.Outcome State Fault Refusal :=
  done ((s.advance t).runVec q e [0x40] flips)

/-- VEC_RMS_FWD (R123): RMS normalisation. -/
def execVecRmsFwd (t q e : Nat) (flips : List (Nat × Nat)) (s : State) : Host.Outcome State Fault Refusal :=
  done ((s.advance t).runVec q e [0x41] flips)

/-- VEC_SOFTMAX_FWD (R123): softmax. -/
def execVecSoftmaxFwd (t q e : Nat) (flips : List (Nat × Nat)) (s : State) : Host.Outcome State Fault Refusal :=
  done ((s.advance t).runVec q e [0x42] flips)

/-- VEC_LN_BWD (R89): layer normalisation backward. -/
def execVecLnBwd (t q e : Nat) (flips : List (Nat × Nat)) (s : State) : Host.Outcome State Fault Refusal :=
  done ((s.advance t).runVec q e [0x48] flips)

/-- VEC_RMS_BWD (R89): RMS normalisation backward. -/
def execVecRmsBwd (t q e : Nat) (flips : List (Nat × Nat)) (s : State) : Host.Outcome State Fault Refusal :=
  done ((s.advance t).runVec q e [0x49] flips)

/-- VEC_SOFTMAX_BWD (R90): softmax backward from y. -/
def execVecSoftmaxBwd (t q e : Nat) (flips : List (Nat × Nat)) (s : State) : Host.Outcome State Fault Refusal :=
  done ((s.advance t).runVec q e [0x4A] flips)

/-- VEC_SOFTMAX_BWD_L (R90): softmax backward from the scores and L. -/
def execVecSoftmaxBwdL (t q e : Nat) (flips : List (Nat × Nat)) (s : State) : Host.Outcome State Fault Refusal :=
  done ((s.advance t).runVec q e [0x4B] flips)

/-- VEC_LN_BWD_RC (R91): layer normalisation backward, recomputed. -/
def execVecLnBwdRc (t q e : Nat) (flips : List (Nat × Nat)) (s : State) : Host.Outcome State Fault Refusal :=
  done ((s.advance t).runVec q e [0x4C] flips)

/-- VEC_RMS_BWD_RC (R91): RMS normalisation backward, recomputed. -/
def execVecRmsBwdRc (t q e : Nat) (flips : List (Nat × Nat)) (s : State) : Host.Outcome State Fault Refusal :=
  done ((s.advance t).runVec q e [0x4D] flips)

/-- VEC_SOFTMAX_BWD_RC (R91): softmax backward, recomputed. -/
def execVecSoftmaxBwdRc (t q e : Nat) (flips : List (Nat × Nat)) (s : State) : Host.Outcome State Fault Refusal :=
  done ((s.advance t).runVec q e [0x4E] flips)

end Sys2Proof.Machine
end

