-- ==== Sys2Proof/Machine/ConvOps.lean ====
section
/-! DEFINITION. Conversion of rows of values, with bins and running maxima (R22 to R40, R53, R126 to R131). -/

namespace Sys2Proof.Machine

/-- How a descriptor converts: format, block size, rounding and the source's infinity; `code` is the scale of TENSOR mode,
none in LOCAL mode. -/
structure ConvMode where
  f : Fmt
  bsz : Bool
  sr : Bool
  headroom : Nat
  infTop : Num
  code : Option Nat
  deriving DecidableEq, Repr

/-- One destination row: its blocks, none where a block has no active element (R53), or its scalar elements. -/
structure ConvRow where
  blocks : List (Option BlockOut) := []
  elems : List (Option Conv) := []
  bins : List Nat := []
  deriving DecidableEq, Repr

/-- The rounding of the element at a position in destination order (R119). -/
def roundAt (sr : Bool) (key : DrawKey) (pos : Nat) : Rnd := if sr then .sr (draw key pos) else .rne

/-- Convert one row; `none` is an inactive position. Row r of the destination starts at position r × (padded length). -/
def convRow (m : ConvMode) (key : DrawKey) (r : Nat) (vs : List (Option Num)) : ConvRow :=
  if m.f.isBlock then
    let len := blockLen m.bsz
    let per := (vs.length + len - 1) / len
    let one (p : List (Option Num) × Nat) : Option BlockOut × List Nat :=
      if p.1.all Option.isNone then (none, [])
      else
        let vals := padTo len .zero (p.1.map (fun v => v.getD .zero))
        let rnd (i : Nat) : Rnd := roundAt m.sr key (len * (r * per + p.2) + i)
        let b := match m.code with
          | none => convertLocal m.f m.headroom m.infTop rnd vals
          | some c => convertBlock m.f c rnd vals
        (some b, (p.1.zip b.exceeds).flatMap (fun e => match e.1 with
          | none => []
          | some v => binsOf v e.2) ++ (if b.eclipsed then [67] else []))
    let bs := ((chunks len vs).zipIdx).map one
    { blocks := bs.map Prod.fst, bins := bs.flatMap Prod.snd }
  else
    let cs := vs.zipIdx.map (fun p => p.1.map (fun v => convert16 m.f (roundAt m.sr key (vs.length * r + p.2)) v))
    { elems := cs
      bins := (vs.zip cs).flatMap (fun e => match e.1, e.2 with
        | some v, some c => binsOf v c.exceeds
        | _, _ => []) }

/-- Does a row raise CONV_SAT? -/
def ConvRow.sat (r : ConvRow) : Bool :=
  r.blocks.any (fun b => (b.map BlockOut.sat).getD false) || r.elems.any (fun c => (c.map Conv.sat).getD false)
/-- Does a row raise CONV_NAN? -/
def ConvRow.nan (r : ConvRow) : Bool :=
  r.blocks.any (fun b => (b.map BlockOut.nan).getD false) || r.elems.any (fun c => (c.map Conv.nan).getD false)

/-- Write one destination row (R20, R21, R53). -/
def State.putConvRow (s : State) (m : ConvMode) (elemBase scaleBase : Nat) (r : ConvRow) : State :=
  if m.f.isBlock then
    r.blocks.zipIdx.foldl (fun s p => match p.1 with
      | none => s
      | some b => s.putBlock m.f (blockLen m.bsz) elemBase scaleBase p.2 b) s
  else s.putRow16 elemBase (r.elems.map (fun c => c.map Conv.code))

/-- Add 1 to bins of a histogram in a sorter; a bin saturates at 2⁴⁸ − 1 (R39). -/
def State.countBins (s : State) (q sorter id : Nat) (bins : List Nat) : State :=
  let key (b : Nat) : Nat := ((2 * q + sorter) * 4096 + id) * 68 + b
  let l := bins.foldl (fun l b => mapSet (fun _ => 0) l (key b) (min (2 ^ 48 - 1) (mapGet (fun _ => 0) l (key b) + 1)))
    s.compute.bins
  { s with compute := { s.compute with bins := l } }

/-- A bin of a histogram. -/
def State.bin (s : State) (q sorter id b : Nat) : Nat :=
  mapGet (fun _ => 0) s.compute.bins (((2 * q + sorter) * 4096 + id) * 68 + b)

/-- Merge the running maximum of a descriptor's source values into the quarter's AMAX table (R33, R129), which holds codes
plus one, so that a maximum of zero is an entry too. Values without a finite one leave the ID as it is (log entry 135). -/
def State.mergeAmax (s : State) (q id : Nat) (vs : List Num) : State :=
  let k := 65536 * q + id
  if vs.any (fun v => !v.isNan && !v.isInf) then
    { s with compute := { s.compute with
      amax := mapSet (fun _ => 0) s.compute.amax k
        (max (mapGet (fun _ => 0) s.compute.amax k) (bf16Up (amaxFinite (vs.filter (fun v => !v.isNan))) + 1)) } }
  else s

/-- An entry of the quarter's delayed-scale table (R129). -/
def State.delayed (s : State) (q id : Nat) : DelayedScale := mapGet (fun _ => {}) s.compute.scales (65536 * q + id)

end Sys2Proof.Machine
end

