-- ==== Sys2Proof/Machine/Convert.lean ====
section
/-! DEFINITION. The commands of the conversion engines, mangles, sorters, digest engines and wrings (R126 to R135). -/

namespace Sys2Proof.Machine

/-- How a conversion descriptor converts (R28, R30, R36, R127, R129): LOCAL, the delayed scale, or a two-pass scale formed
from `all` the values. The answer tells whether it was two-pass. -/
def State.convMode (s : State) (q : Nat) (d : Desc) (infTop : Num) (all : List Num) : ConvMode × Bool :=
  let fd := (fmtOf (df d 0 9 4)).getD .bf16
  let h := df d 0 16 2
  let e := s.delayed q (df d 11 16 16)
  let use := db d 0 21 && e.ready
  let two := fd.isBlock && db d 0 15 && !use
  let code : Option Nat :=
    if !db d 0 15 then none
    else if use then some (scaleCodeOf fd h e.exponent)
    else some (scaleCode fd h (amaxOf infTop all))
  ({ f := fd, bsz := db d 0 13, sr := db d 0 14, headroom := h, infTop := infTop, code := code }, two)

/-- What a conversion counts when it completes: events, bins and the running maximum (R31 to R33, R38, R129). -/
def State.countConv (s : State) (q e : Nat) (d : Desc) (rows : List ConvRow) (vals : List Num) : State :=
  let page := qPage .ce q e
  let s := (s.raiseIf (rows.any ConvRow.sat) page 1).raiseIf (rows.any ConvRow.nan) page 2
  let s := if db d 0 20 then s.countBins q (e / 4) (df d 11 0 12) (rows.flatMap (·.bins)) else s
  if db d 0 21 then s.mergeAmax q (df d 11 16 16) vals else s

/-- CONVERT (R30, R127, R129): a conversion engine converts a Fold source, row by row; a two-pass conversion reads it twice. -/
def execConvert (t q e : Nat) (flips : List (Nat × Nat)) (s : State) : Host.Outcome State Fault Refusal :=
  let s := s.advance t
  let n := 112 + e
  match (if e < 8 then s.startable q n else none) with
  | none => done s
  | some (i, w) =>
    let d := w.desc
    if db d 0 18 then done s
    else
      let fs := (fmtOf (df d 0 4 4)).getD .bf16
      let cols := df d 1 0 16 + 1
      let rows := List.range (df d 2 0 24 + 1)
      let base := foldBase q
      let el (r : Nat) : Nat := base + dw d 3 + r * dw d 4
      let sc (r : Nat) : Nat := base + dw d 5 + r * dw d 6
      let s := (s.upset flips).startEntry q n i w
      let len := blockLen (db d 0 8)
      let blocks := (cols + len - 1) / len
      let reads : List (Nat × Nat) := rows.flatMap (fun r =>
        if fs.isBlock then [(el r, blocks * fieldBytes fs len), (sc r, blocks)] else [(el r, 2 * cols)])
      let key := s.keyOfEntry q { w with salt := s.salt q, attempt := s.attempt }
      let vals := rows.map (fun r => s.formatRow fs (db d 0 8) (el r) (sc r) cols)
      let m := s.convMode q d fs.infAmax vals.flatten
      let s := s.engineReads (qPage .ce q e) reads
      let s := if m.2 then s.engineReads (qPage .ce q e) reads else s
      let out := rows.foldl (fun a r =>
        let vs := a.1.formatRow fs (db d 0 8) (el r) (sc r) cols
        let c := convRow m.1 key r (vs.map some)
        (a.1.putConvRow m.1 (base + dw d 7 + r * dw d 8) (base + dw d 9 + r * dw d 10) c, a.2 ++ [c])) (s, [])
      let g := rows.length * ((cols + 63) / 64)
      done ((out.1.countConv q e d out.2 vals.flatten).finishEntry q n i
        (s.now + 2 * (if m.2 then 36 + 2 * g else 24 + g)))

/-- A carry in the spill format (R128); an inactive position is a +0 word. -/
def spillWord (v : Option Num) : Nat :=
  match v with
  | none => 0
  | some .nan => 3 * 2 ^ 61
  | some (.inf s) => 2 * 2 ^ 61 + (if s then 2 ^ 63 else 0)
  | some (.fin s m e) =>
    let sign := if s then 2 ^ 63 else 0
    if m = 0 then sign
    else
      let x := exponentOf m e
      let sig := if e ≤ x - 33 then m / 2 ^ (x - 33 - e).toNat else m * 2 ^ (e - (x - 33)).toNat
      sig + (x % 1024).toNat * 2 ^ 34 + 2 ^ 61 + sign

/-- A word of the spill area as it is read back (R128): one that breaks the format is a NaN carry. -/
def spillValue (w : Nat) : Num :=
  let m := w % 2 ^ 34
  let e := bitsOf w 34 10
  let x : Int := if e < 512 then e else (e : Int) - 1024
  if bitsOf w 44 17 ≠ 0 then .nan
  else match bitsOf w 61 2 with
    | 0 => if m = 0 ∧ e = 0 then .fin (bitAt w 63) 0 0 else .nan
    | 1 => if 2 ^ 33 ≤ m ∧ -510 ≤ x then .fin (bitAt w 63) m (x - 33) else .nan
    | 2 => if m = 0 ∧ e = 0 then .inf (bitAt w 63) else .nan
    | _ => .nan

/-- The carries of a tile as a second read of its spill area at `a` delivers them (R116, R128); a position that held none is
padding. -/
def State.spilled (s : State) (a : Nat) (carries : List (Option Num)) : List (Option Num) :=
  carries.zipIdx.map (fun c => c.1.map (fun _ =>
    if s.linePoisoned (a + 8 * c.2) then .nan else spillValue (s.readNat (a + 8 * c.2) 8)))

/-- CONVERT_HANDOFF (R61, R116, R128): a conversion engine takes a tile's carries from the handoff buffer of the array that its
descriptor names. Where R128 requires it, it spills them first and converts what a second read of the spill area delivers, after
the writes `between` of other requesters and with the errors `flips`. The buffer is free again when the conversion is done
(log entry 150). -/
def execConvertHandoff (t q e : Nat) (between : List (Nat × Byte)) (flips : List (Nat × Nat)) (s : State) :
    Host.Outcome State Fault Refusal :=
  let s := s.advance t
  let n := 112 + e
  match (if e < 8 then s.startable q n else none) with
  | none => done s
  | some (i, w) =>
    let d := w.desc
    let p := s.physOf q (df d 3 0 5)
    let arr := df d 3 5 2
    let x := s.array q p arr
    if !db d 0 18 then done s
    else if convSpills d (s.delayed q (df d 11 16 16)).ready && dw d 12 == 0 then
      done (s.refuseStart q n i 0x12 w false)
    else
      match x.handoff with
      | none => done s
      | some h =>
        if h.ce ≠ e then done s
        else
          let spills := convSpills d (s.delayed q (df d 11 16 16)).ready
          let base := foldBase q
          let area := base + dw d 12
          let stop := s.now + 2 * (if spills then 68 else 40)
          let s := (s.setArray q p arr { x with handoff := none, handFree := stop }).startEntry q n i w
          let key := s.keyOfEntry q { w with salt := s.salt q, attempt := s.attempt }
          let s := if spills then
              let s := s.writeBytes area (h.carries.flatMap (fun c => leBytes 8 (spillWord c)))
              let s := (between.foldl (fun s b => s.writeBytes b.1 [b.2]) s).upset flips
              s.engineReads (qPage .ce q e) [(area, 8192)]
            else s
          let carries := if spills then s.spilled area h.carries else h.carries
          let rowsOf : List (List (Option Num)) := chunks 32 carries
          let rows := if db d 0 19 then (List.range 32).map (fun j => rowsOf.map (fun r => (r[j]?).getD none)) else rowsOf
          let vals := carries.filterMap id
          let m := s.convMode q d carryInfAmax vals
          let cs := rows.zipIdx.map (fun r => convRow m.1 key r.2 r.1)
          let s := cs.zipIdx.foldl (fun s c =>
            s.putConvRow m.1 (base + dw d 7 + c.2 * dw d 8) (base + dw d 9 + c.2 * dw d 10) c.1) s
          done ((s.countConv q e d cs vals).finishEntry q n i stop)

/-- TRANSPOSE (R77, R130): a mangle that holds its claim writes the transpose of a 16-bit matrix, quantised along the new
rows for a block destination. -/
def execTranspose (t q m : Nat) (flips : List (Nat × Nat)) (s : State) : Host.Outcome State Fault Refusal :=
  let s := s.advance t
  let n := 120 + m
  match (if m < 8 then s.startable q n else none) with
  | none => done s
  | some (i, w) =>
    let ms := s.mangles q
    if !ms.served.any (fun e => e.1 == 96 + m) then done s
    else
      let d := w.desc
      let page := qPage .mg q m
      let src := fmt16 (db d 0 4)
      let fd := (fmtOf (df d 0 5 4)).getD .bf16
      let r := 32 * (df d 1 0 16 + 1)
      let c := 32 * (df d 2 0 16 + 1)
      let base := foldBase q
      let stop := s.now + 2 * (36 + r * c / 256)
      let s := ((s.upset flips).setMangles q
        { ms with served := ms.served.filter (fun e => e.1 != 96 + m)
                  busy := ms.busy.map (fun u => if u.who = 96 + m then { u with until_ := stop } else u) }).startEntry q n i w
      let cells := (List.range r).map (fun k => s.row16 (base + dw d 3 + k * dw d 4) c)
      let column (j : Nat) : List (Option Nat) := cells.map (fun row => (row[j]?).getD none)
      let s := s.engineReads page ((List.range r).map (fun k => (base + dw d 3 + k * dw d 4, 2 * c)))
      let mode : ConvMode := { f := fd, bsz := db d 0 9, sr := false, headroom := 0, infTop := src.infAmax, code := none }
      let key : DrawKey := { seed := 0, streamTag := 0, step := 0, salt := 0 }
      let rowOf (j : Nat) : ConvRow :=
        if fd.isBlock then
          convRow mode key j ((column j).map (fun v => some ((v.map (decodeElem src)).getD .nan)))
        else { elems := (column j).map (fun v => some (match v with
          | some code => { code := code }
          | none => { code := src.nanCode, nan := true })) }
      let rows := (List.range c).map rowOf
      let s := rows.zipIdx.foldl (fun s o =>
        s.putConvRow mode (base + dw d 5 + o.2 * dw d 6) (base + dw d 7 + o.2 * dw d 8) o.1) s
      let s := (s.raiseIf (rows.any ConvRow.sat) page 1).raiseIf (rows.any ConvRow.nan) page 2
      done ((s.finishEntry q n i (s.now + 2 * (36 + r * c / 256))).claimNext q n)

/-- SORTER_DUMP (R131): a sorter writes 68 bins for each histogram of a range, clearing them if asked. -/
def execSorterDump (t q so : Nat) (s : State) : Host.Outcome State Fault Refusal :=
  let s := s.advance t
  let n := 128 + so
  match (if so < 2 then s.startable q n else none) with
  | none => done s
  | some (i, w) =>
    let d := w.desc
    let first := df d 2 0 12
    let count := df d 2 16 12 + 1 - first
    let s := s.startEntry q n i w
    let bytes := (List.range count).flatMap (fun k => (List.range 68).flatMap (fun b => leBytes 8 (s.bin q so (first + k) b)))
    let lo := ((2 * q + so) * 4096 + first) * 68
    let s := s.writeBytes (foldBase q + dw d 3) bytes
    let keep (e : Nat × Nat) : Bool := decide (e.1 < lo ∨ lo + 68 * count ≤ e.1)
    let s := if db d 0 4 then { s with compute := { s.compute with bins := s.compute.bins.filter keep } } else s
    done (s.finishEntry q n i (s.now + 2 * (16 + 9 * count)))

/-- Add to a digest accumulator (R133). -/
def State.addDigest (s : State) (q g acc : Nat) (v : Nat) : State :=
  let p := qPage .dg q g
  let lo := Reg.DG_ACC_LO + 8 * acc
  let hi := Reg.DG_ACC_HI + 8 * acc
  let s := if s.cycle.any (fun c => c.key == p.reg lo && c.at_ / 2 == s.now / 2) then s
    else { s with cycle := s.cycle.filter (fun c => c.key != p.reg lo) }
  (s.note p lo v 0).setNum64 p lo hi ((s.num64 p lo hi + v) % 2 ^ 64)

/-- Zero a digest accumulator before an addition (R133). -/
def State.clearDigest (s : State) (q g acc : Nat) : State :=
  let p := qPage .dg q g
  let lo := Reg.DG_ACC_LO + 8 * acc
  ({ s with cycle := s.cycle.filter (fun c => c.key != p.reg lo) } : State).setNum64 p lo (Reg.DG_ACC_HI + 8 * acc) 0

/-- DIGEST (R132, R133): the digest of a byte range is added into an accumulator; poisoned bytes are digested as
delivered (R116). -/
def execDigest (t q g : Nat) (flips : List (Nat × Nat)) (s : State) : Host.Outcome State Fault Refusal :=
  let s := s.advance t
  let n := 130 + g
  match (if g < 2 then s.startable q n else none) with
  | none => settled s
  | some (i, w) =>
    let d := w.desc
    let acc := df d 7 0 6
    let s := (s.upset flips).startEntry q n i w
    let bs := s.readBytes (dq d 2) (dw d 4)
    let s := s.engineReads (qPage .dg q g) [(dq d 2, dw d 4)]
    let s := if db d 0 4 then s.clearDigest q g acc else s
    settled ((s.addDigest q g acc (digest (dq d 5) bs).toNat).finishEntry q n i (s.now + 2 * (40 + (dw d 4 + 255) / 256)))

/-- The blocks that a wring emits, in block order: all, or those that SEL keeps (R134). -/
def emittedBlocks (sel : Bool) (keep : Nat) (codes : List Nat) : List Nat :=
  let all := List.range codes.length
  if !sel || decide (codes.length ≤ keep) then all
  else
    let atLeast (c : Nat) : Nat := (codes.filter (fun x => decide (c ≤ x))).length
    let star := ((List.range 256).filter (fun c => decide (keep ≤ atLeast c))).getLast?.getD 0
    let above := (codes.filter (fun x => decide (star < x))).length
    let ties := (all.filter (fun b => codes.getD b 0 == star)).take (keep - above)
    all.filter (fun b => decide (star < codes.getD b 0) || ties.contains b)

/-- COMPRESS (R134, R135, R463): a wring compresses a weight delta with error feedback. What RESID names of the module-reserved area is
not written (R167). -/
def execCompress (t q g : Nat) (flips : List (Nat × Nat)) (s : State) : Host.Outcome State Fault Refusal :=
  let s := s.advance t
  let n := 132 + g
  match (if g < 2 then s.startable q n else none) with
  | none => settled s
  | some (i, w) =>
    let d := w.desc
    let page := qPage .wg q g
    let f := (fmtOf (df d 0 4 4)).getD .sq8e4
    let len := blockLen (db d 0 8)
    let nb := dw d 2
    let sel := db d 0 10
    let da := dq d 3
    let ra := dq d 5
    let s := (s.upset flips).startEntry q n i w
    let key := s.keyOfEntry q { w with salt := s.salt q, attempt := s.attempt }
    let delta := s.rowValues .bf16 da (len * nb)
    let resid := (s.row16 ra (len * nb)).map (fun c => match c with
      | none => Num.zero
      | some c => decodeElem .bf16 c)
    let e := chunks len (delta.zipWith Num.add resid)
    let reads : List (Nat × Nat) := [(da, 2 * len * nb), (ra, 2 * len * nb)]
    let s := s.engineReads page reads
    let s := if sel then s.engineReads page reads else s
    let codes := e.map (fun b => if b.any Num.isNan then 0xFF else if b.all Num.isZero then 0
      else scaleCode f 0 (amaxOf Fmt.bf16.infAmax b))
    let idx := emittedBlocks sel (dw d 10) codes
    let outs := idx.zipIdx.map (fun p =>
      (p.1, convertLocal f 0 Fmt.bf16.infAmax (fun k => roundAt (db d 0 9) key (len * p.2 + k)) (e.getD p.1 [])))
    let base := foldBase q
    let s := outs.zipIdx.foldl (fun s o => s.putBlock f len (base + dw d 7) (base + dw d 8) o.2 o.1.2) s
    let newResid (b : Nat) (vs : List Num) : List Num :=
      if vs.any Num.isNan then vs.map (fun _ => .zero)
      else match outs.find? (fun o => o.1 == b) with
        | none => vs
        | some o => vs.zipWith Num.sub (decodeBlock f o.2.scale o.2.codes)
    let rbytes := e.zipIdx.flatMap (fun p => (newResid p.2 p.1).flatMap (fun v => leBytes 2 (convert16 .bf16 .rne v).code))
    let s := s.memPutBytes (some (q, n, w.seq)) ra (if touchesReserved ra rbytes.length then rbytes.take (reservedBase - ra) else rbytes)
    let s := if sel then s.writeBytes (base + dw d 9) (idx.flatMap (leBytes 4)) else s
    let s := s.writeNat (base + dw d 11) 4 idx.length
    let s := (s.raiseIf (outs.any (fun o => o.2.sat)) page 1).raiseIf (outs.any (fun o => o.2.nan)) page 2
    let g64 := (len * nb + 63) / 64
    settled (s.finishEntry q n i (s.now + 2 * (if sel then 56 + 2 * g64 else 32 + g64)))

end Sys2Proof.Machine
end

