-- ==== Sys2Proof/Machine/Memory.lean ====
section
/-! DEFINITION. The commands of the stacks: the slot wheel, acceptance, completion, repair, rinse and press (R211 to R228, R387 to R391). -/

namespace Sys2Proof.Machine

/-- The MCLK from a port to the scheduler of a route, by its lead (R337). -/
def tripOf (lead : Nat) : Nat := if lead = 2 then 1 else lead - 4

/-- A request at the scheduler takes its way and slot; a write drops the corrections of its line that wait (R213, R389). -/
def State.takeRequest (s : State) (p : StackPlace) (r : MemReq) : State :=
  let x := s.stack p.quarter p.slot
  let f := x.assign p s.mclk (s.mclk + tripOf r.lead + r.lead) r
  (s.setStack p.quarter p.slot f.2.1).addSat (qPage .nmem p.quarter p.slot) Reg.NMEM_BANK_WAIT f.2.2

/-- MEM_REQUEST (R213, R214, R228, R337): the request reaches the scheduler, which assigns a way of the earliest slot that
it can reach. A stack that is not trained or in self-refresh leaves it waiting, unaccepted. -/
def execMemRequest (t pq port addr : Nat) (isWrite : Bool) (bytes : List (Nat × Byte)) (s : State) :
    Host.Outcome State Fault Refusal :=
  let s := s.advance t
  match stackPlace addr with
  | none => done (s.noteAddrError addr)
  | some p =>
    let x := s.stack p.quarter p.slot
    let ro := routeOf pq port p
    let r : MemReq := { addr := addr / 64 * 64, port := port, lead := ro.lead, isWrite := isWrite, write := bytes,
                        merge := isMerge bytes,
                        path := if isWrite then (if isMerge bytes then ro.merge else ro.write) else ro.read,
                        slot := 0, way := 0, arrived := s.mclk }
    if !x.trained || x.sref then done (s.setStack p.quarter p.slot { x with waiting := x.waiting ++ [r] })
    else done (s.takeRequest p r)

/-- Does a write of the schedulers wait unaccepted: under a lease, or behind an earlier waiting write that shares its page
(R158)? -/
def State.keptBack (s : State) (r : MemReq) : Bool :=
  r.isWrite && !r.done_ && (s.leaseCovers r.addr 64 ||
    s.leases.writes.any (fun w => r.kept.all (fun k => decide (w.since ≤ k)) && sharePage r.addr 64 w.addr w.bytes.length) ||
    s.keptShares r.addr 64 r.kept)

/-- MEM_ACCEPT (R158, R213): the port sends the request one lead before its slot; ACCEPTED and SLOT_WAIT count it. A write
under a lease waits unaccepted past its slot, and the scheduler gives it the next one that it can reach once no lease
covers its page. -/
def execMemAccept (t addr : Nat) (s : State) : Host.Outcome State Fault Refusal :=
  let s := s.advance t
  match stackPlace addr with
  | none => done s
  | some p =>
    let x := s.stack p.quarter p.slot
    let page := qPage .nmem p.quarter p.slot
    let due (r : MemReq) : Bool := !r.own && r.addr == addr / 64 * 64 && r.sent.isNone && decide (r.slot ≤ s.mclk + r.lead)
    let accept (s : State) (x : Stack) (r : MemReq) : Host.Outcome State Fault Refusal :=
      let at_ := r.slot - r.lead
      done (((s.setStack p.quarter p.slot
        { x with reqs := x.reqs.map (fun o => if o == r then { o with sent := some at_ } else o) }).addSat
          page Reg.NMEM_ACCEPTED 1).addSat page Reg.NMEM_SLOT_WAIT (at_ - r.arrived))
    match x.reqs.find? due with
    | none => done s
    | some r =>
      if s.keptBack r then
        let keep (r : MemReq) : MemReq := { r with kept := some (r.kept.getD s.podCount) }
        done (s.setStack p.quarter p.slot { x with reqs := replaceFirst due keep x.reqs })
      else if r.kept.isNone || decide (s.mclk ≤ r.slot - r.lead) then accept s x r
      else
        let f := ({ x with reqs := x.reqs.erase r } : Stack).assign p s.mclk (s.mclk + r.lead) r
        accept (s.addSat page Reg.NMEM_BANK_WAIT f.2.2) f.2.1 f.1

/-- MEM_ACCESS_COMPLETE (R215, R222, R223, R338): the oldest access sent for a line ends at its path time; its read is
checked, its write stored, unless a later access of an engine found it performed (R214). `flips` are upsets that the
read finds. -/
def execMemAccessComplete (t addr : Nat) (flips : List (Nat × Nat)) (s : State) : Host.Outcome State Fault Refusal :=
  let s := s.advance t
  match stackPlace addr with
  | none => settled s
  | some p =>
    let x := s.stack p.quarter p.slot
    let line := addr / 64 * 64
    let mine (r : MemReq) : Bool := !r.own && r.addr == line
    match x.reqs.find? mine with
    | none => settled s
    | some r =>
      match r.sent with
      | none => settled s
      | some a =>
        if s.mclk < a + r.path then settled s
        else
          let k := 64 * p.pc + p.bank
          let free := max (mapGet (fun _ => 0) x.busy k) (r.slot + r.hold)
          let x := { x with reqs := x.reqs.eraseIdx (x.reqs.findIdx mine)
                            busy := mapSet (fun _ => 0) x.busy k free }
          let s := (s.setStack p.quarter p.slot x).upset flips
          settled (if r.done_ then s else s.performReq r)

/-- REFRESH_SLOT (R211, R212): slot 0 of turn t refreshes bank group t mod 8 of a pseudo-channel. -/
def execRefreshSlot (t q slot pc : Nat) (s : State) : Host.Outcome State Fault Refusal :=
  let s := s.advance t
  let x := s.stack q slot
  let n := s.mclk - x.trainedAt
  if !x.trained || x.sref || n % 64 ≠ 0 then done s
  else
    let per := stackBanks slot / 8
    let g := n / 64 % 8
    done (s.setStack q slot { x with busy := (List.range per).foldl (fun b i =>
      let k := 64 * pc + per * g + i
      mapSet (fun _ => 0) b k (max (mapGet (fun _ => 0) b k) (s.mclk + 20))) x.busy })

/-- What rinse does in one way of a slot (R387). -/
inductive RinseItem where
  | rewrite (cw : Nat)
  | writeBack (line : Nat)
  | repair (r : Repair)
  | patrol (line : Nat)
  | none
  deriving DecidableEq, Repr

/-- The first pending item of a pseudo-channel (R387, R388). -/
def State.rinseItem (s : State) (q slot pc : Nat) (turn : Nat) : RinseItem :=
  let x := s.stack q slot
  let here (a : Nat) : Bool := (stackPlace a).map (·.pc) == some pc
  match x.rewrites.find? (fun c => here (16 * c)) with
  | some c => .rewrite c
  | .none =>
    match x.writeBacks.find? here with
    | some l => .writeBack l
    | .none =>
      match x.repairs.find? (fun r => r.pc == pc && decide (r.lines < 16)) with
      | some r => .repair r
      | .none =>
        let bg := qPage .bgnd q 0
        let n := s.field bg Reg.BGND_RINSE_CTL 6 4
        if s.bit bg Reg.BGND_RINSE_CTL 1 && decide (turn % 2 ^ n = 0) then
          let k := mapGet (fun _ => 0) x.patrol pc
          .patrol (placeAddr q slot pc (k % stackBanks slot) (k / stackBanks slot))
        else .none

/-- The line that an item accesses. -/
def RinseItem.line (q slot : Nat) : RinseItem → Nat
  | .rewrite c => c / 4 * 64
  | .writeBack l => l
  | .repair r => placeAddr q slot r.pc r.bank (16 * r.unit + r.lines)
  | .patrol l => l
  | .none => 0

/-- Copy one line of a repair unit: correctable codewords are corrected, uncorrectable ones poisoned (R224). -/
def State.copyLine (s : State) (line : Nat) : State :=
  (List.range 4).foldl (fun s i =>
    let c := line / 16 + i
    if s.poisonedAt c then s.setEcc c poisonMark else s.absorb c) s

/-- Do one item (R387 to R389). -/
def State.rinseDo (s : State) (q slot pc way : Nat) (flips : List (Nat × Nat)) : RinseItem → State
  | .rewrite c =>
    let x := s.stack q slot
    let s := s.setStack q slot { x with rewrites := x.rewrites.filter (· != c) }
    if s.check c = .uncorrectable then s.setEcc c poisonMark else s
  | .writeBack l =>
    let x := s.stack q slot
    let s := s.setStack q slot { x with writeBacks := x.writeBacks.filter (· != l) }
    (List.range 4).foldl (fun s i =>
      match s.check (l / 16 + i) with
      | .fix _ _ => s.absorb (l / 16 + i)
      | _ => s) s
  | .repair r =>
    let x := s.stack q slot
    let s := s.copyLine (placeAddr q slot r.pc r.bank (16 * r.unit + r.lines))
    s.setStack q slot { x with repairs := replaceFirst (· == r) (fun r => { r with lines := r.lines + 1 }) x.repairs }
  | .patrol l =>
    let s := s.upset flips
    let bad (e : Bool) : Nat := ((List.range 4).filter (fun i =>
      match s.check (l / 16 + i) with
      | .fix _ _ => e
      | .uncorrectable => !e
      | _ => false)).length
    let ce := bad true
    let ue := bad false
    let bg := qPage .bgnd q 0
    let s := (List.range 4).foldl (fun s i => s.noteCodewordBy (l / 16 + i) (some way) true) s
    let s := (s.addSat bg Reg.BGND_RINSE_FOUND ce).addSat bg Reg.BGND_RINSE_UE ue
    let s := s.raiseIf (decide (ue ≠ 0)) bg 0
    let x := s.stack q slot
    let k := mapGet (fun _ => 0) x.patrol pc + 1
    if k < stackBanks slot * stackLines slot then
      s.setStack q slot { x with patrol := mapSet (fun _ => 0) x.patrol pc k }
    else
      let passed := if x.passed.contains pc then x.passed else x.passed ++ [pc]
      let x := { x with patrol := mapSet (fun _ => 0) x.patrol pc 0 }
      if passed.length = 8 then
        (s.setStack q slot { x with passed := [] }).addWrap bg (Reg.BGND_MEM_PASSES_s + 4 * slot) 1
      else s.setStack q slot { x with passed := passed }
  | .none => s

/-- One way of a rinse slot: a bank that an access keeps busy, or has been given for the next 20 MCLK, leaves it idle (R212,
R387). -/
def State.rinseWay (s : State) (q slot pc turn way : Nat) (flips : List (Nat × Nat)) : State :=
  let it := s.rinseItem q slot pc turn
  if it = .none then s
  else
    let bank := ((stackPlace (it.line q slot)).map (·.bank)).getD 0
    let x := s.stack q slot
    let k := 64 * pc + bank
    if x.bankTaken pc bank s.mclk 20 then s.addSat (qPage .bgnd q 0) Reg.BGND_RINSE_SKIP 1
    else
      (s.setStack q slot { x with busy := mapSet (fun _ => 0) x.busy k (s.mclk + 20) }).rinseDo q slot pc way flips it

/-- RINSE_SLOT (R211, R387 to R389): slot 32 of every turn with t mod 16 ≠ 15 of a pseudo-channel. -/
def execRinseSlot (t q slot pc : Nat) (flips : List (Nat × Nat)) (s : State) : Host.Outcome State Fault Refusal :=
  let s := s.advance t
  let x := s.stack q slot
  let n := s.mclk - x.trainedAt
  if !x.trained || x.sref || n % 64 ≠ 32 || n / 64 % 16 = 15 then settled s
  else settled ((List.range (stackWays slot)).foldl (fun s w => s.rinseWay q slot pc (n / 64) w flips) s)

/-- What is known of a pin group (R226). -/
def Stack.lane (x : Stack) (pc grp : Nat) : Option Lane := mapGet (fun _ => none) x.pins (6 * pc + grp)

/-- Pin j of a group fails: its traffic moves to the group's spare, or the group is degraded, which advises retirement
(R226, R469). -/
def State.sparePin (s : State) (q slot pc grp j : Nat) : State :=
  let x := s.stack q slot
  let put (l : Lane) : State := s.setStack q slot { x with pins := mapSet (fun _ => none) x.pins (6 * pc + grp) (some l) }
  match x.lane pc grp with
  | none => (put { pin := j }).raise (qPage .nmem q slot) 6
  | some l =>
    if l.degraded then s
    else ((put { l with degraded := true }).raise (mPage .fault) 11).setBit (mPage .fault) Reg.FAULT_ADVISE 0 true

/-- PRESS_SLOT (R211, R226, R391): slot 32 of every turn with t mod 16 = 15 serves one pin group. `margins` are the eye
margins measured, by pin, in 1/64 UI, and `moves` the phase moves that press makes. A pin whose traffic has moved is not
looked at again; a symbol position corrected 64 times in a second is. -/
def execPressSlot (t q slot pc grp moves : Nat) (margins : List Nat) (s : State) : Host.Outcome State Fault Refusal :=
  let s := s.advance t
  let x := s.stack q slot
  let n := s.mclk - x.trainedAt
  if !x.trained || x.sref || n % 64 ≠ 32 || n / 64 % 16 ≠ 15 then done s
  else
    let bg := qPage .bgnd q 0
    let limit := s.field bg Reg.BGND_MARGIN_LIMIT 0 8
    let on := s.bit bg Reg.BGND_PRESS_CTL 0
    let live (j : Nat) : Bool := (x.lane pc grp).all (fun l => l.pin != j)
    let weak (j : Nat) : Bool := live j && (margins[j]?).any (fun m => decide (m < limit))
    let hot (j : Nat) : Bool :=
      decide (((mapGet (fun _ => []) x.pinHits ((6 * pc + grp) * 36 + j)).filter (fun h => s.now < h + 3600000000)).length ≥ 64)
    let s := if on then s.addSat bg Reg.BGND_PRESS_ADJ moves
      else s.raiseIf ((List.range margins.length).any weak) bg 1
    match (List.range (max 36 margins.length)).find? (fun j => weak j || hot j) with
    | some j =>
      if s.bit (qPage .nmem q slot) Reg.NMEM_MEM_CTL 1 then
        let y := s.stack q slot
        let y := { y with pinHits := y.pinHits.filter (fun e => e.1 != (6 * pc + grp) * 36 + j) }
        done ((s.setStack q slot y).sparePin q slot pc grp j)
      else done s
    | none => done s

/-- REPAIR_COPY_DONE (R224): the copy of a unit ends and REPAIRED is raised. -/
def execRepairCopyDone (t q slot : Nat) (s : State) : Host.Outcome State Fault Refusal :=
  let s := s.advance t
  let x := s.stack q slot
  let fin (r : Repair) : Bool := !r.copied && decide (r.lines = 16)
  if x.repairs.any fin then
    done ((s.setStack q slot { x with repairs := replaceFirst fin (fun r => { r with copied := true }) x.repairs }).raise
      (qPage .nmem q slot) 3)
  else done s

/-- RETAIN_BREAK (R227): a D stack in self-refresh leaves its limits, and RETAIN_OK clears. -/
def execRetainBreak (t q d : Nat) (s : State) : Host.Outcome State Fault Refusal :=
  let s := s.advance t
  let x := s.stack q (6 + d)
  if x.sref then done (s.setStack q (6 + d) { x with retainOk := false }) else done s

end Sys2Proof.Machine
end

