-- ==== Sys2Proof/Machine/Stream.lean ====
section
/-! DEFINITION. The streamers: rows, segments, leases on reads, digest taps and remote signals (R110, R116, R136, R137). -/

namespace Sys2Proof.Machine

/-- A streamer descriptor as the engine works it: segment size and segments per row (R136). -/
structure Moves where
  rows : Nat
  rowBytes : Nat
  size : Nat
  perRow : Nat
  deriving DecidableEq, Repr

/-- Is an address of another site? -/
def State.offSite (s : State) (a : Nat) : Bool :=
  match s.resolve a with
  | .site _ => true
  | _ => false

/-- The segments of a streamer descriptor (R136): up to 4 KiB, or 1 MiB when an end lies at another site. -/
def State.moves (s : State) (d : Desc) : Moves :=
  let size := if s.offSite (dq d 4) || (dOp d == 1 && s.offSite (dq d 2)) then 0x100000 else 4096
  { rows := df d 7 0 24 + 1, rowBytes := dw d 6, size := size, perRow := (dw d 6 + size - 1) / size }

/-- Number of segments. -/
def Moves.count (m : Moves) : Nat := m.rows * m.perRow

/-- Row, offset in the row, and bytes of segment i. -/
def Moves.part (m : Moves) (i : Nat) : Nat × Nat × Nat :=
  let off := i % m.perRow * m.size
  (i / m.perRow, off, min m.size (m.rowBytes - off))

/-- Source address, destination address, and bytes of segment i. -/
def Moves.ends (m : Moves) (d : Desc) (i : Nat) : Nat × Nat × Nat :=
  let p := m.part i
  ((dq d 2 + p.1 * dw d 8 + p.2.1) % 2 ^ 64, (dq d 4 + p.1 * dw d 9 + p.2.1) % 2 ^ 64, p.2.2)

/-- Is `n` bytes from a local address in the D tier, read under the lease of word 1 (R136, R157)? -/
def leasedRead (d : Desc) (a : Nat) : Bool := df d 1 0 16 != 0 && (match regionOf a with | .dTier _ _ => true | _ => false)

/-- Count a read under a lease in HOLDS, or end it (R157). -/
def State.hold (s : State) (d : Desc) (a : Nat) (begin_ : Bool) : State :=
  if leasedRead d a then
    let l := s.lease (df d 1 0 16)
    s.setLease (df d 1 0 16) { l with holds := if begin_ then l.holds + 1 else l.holds - 1 }
  else s

/-- Digest the bytes that a segment moves, a FILL's zeros included (R132, R137). -/
def State.tap (s : State) (q : Nat) (d : Desc) (m : Moves) (i : Nat) (bs : List Byte) : State :=
  if db d 0 7 then
    let p := m.part i
    s.addDigest q (df d 11 0 1) (df d 11 1 6) (digest (dq d 12 + p.1 * m.rowBytes + p.2.1) bs).toNat
  else s

/-- Read a segment's source at a local address: what the read counts, POISON_IN, and the digest tap (R98, R116, R137). -/
def State.readSource (s : State) (q e : Nat) (d : Desc) (m : Moves) (i a n : Nat) : State × List (Byte × Bool) :=
  let bs := s.readMarked a n
  let s := (s.noteReadBy (some (q, 0)) a n).raiseIf (bs.any Prod.snd) (qPage .st q e) 3
  (s.tap q d m i (bs.map Prod.fst), bs)

/-- The round that a module works towards: k of R274. -/
def State.roundNumber (s : State) : Nat := (s.committed + 1) / max 1 (s.field (mPage .mig) Reg.MIG_ROUND_H 0 11)

/-- Is a round descriptor's segment to another site suppressed: that site is SEPARATED, or too far behind (R282, R290)? -/
def State.sendSkips (s : State) (n : Nat) (d : Desc) (dst : Nat) : Bool :=
  let m := mPage .mig
  let site := bitsOf dst 60 3
  s.roundDesc n d && (match s.resolve dst with
    | .site _ => s.field m (Reg.MIG_SITEs_STS + 16 * site) 0 3 == 3 ||
        decide (s.num m (Reg.MIG_SITEs_ROUND + 16 * site) + 3 < s.roundNumber)
    | _ => false)

/-- Put the bytes of a segment at its destination, if that is another module or site: the segment then waits for its
answer (R136). A suppressed send completes without sending (R282). -/
def State.sendSegment (s : State) (q n : Nat) (w : WinEntry) (i dst : Nat) (bs : List (Byte × Bool)) : State :=
  if s.sendSkips n w.desc dst then
    ((s.newSeg q n w.seq i .write 0 (.fail 0) (fun _ => .ctrl none)).addSat (mPage .mig) Reg.MIG_SEND_SKIP 1).raise
      (mPage .mig) 9
  else s.newSeg q n w.seq i .write (df w.desc 0 4 3) (s.resolve dst) (fun id => .write id (db w.desc 0 8) bs)

/-- Issue segment i of a descriptor (R136). -/
def State.issueSegment (s : State) (q e : Nat) (w : WinEntry) (i : Nat) : State :=
  let d := w.desc
  let n := 136 + e
  let m := s.moves d
  let p := m.ends d i
  let zeros : List (Byte × Bool) := List.replicate p.2.2 (0, false)
  if dOp d = 2 then
    match s.resolve p.2.1 with
    | .here _ => s
    | _ => (s.tap q d m i (zeros.map Prod.fst)).sendSegment q n w i p.2.1 zeros
  else
    match s.resolve p.1 with
    | .here a =>
      let s := s.hold d a true
      (match s.resolve p.2.1 with
      | .here _ => s
      | t =>
        if populated a p.2.2 then
          let r := s.readSource q e d m i a p.2.2
          r.1.sendSegment q n w i p.2.1 r.2
        else (s.noteAddrError a).newSeg q n w.seq i .write 0 (match t with | .fail c => .fail c | _ => .fail 0x20)
          (fun _ => .ctrl none))
    | t => s.newSeg q n w.seq i .read (df d 0 4 3) t (fun id => .readReq id p.2.2 (dq d 4))

/-- Segments outstanding on a queue. -/
def Queue.outstanding (x : Queue) : Nat := x.window.foldl (fun a w => a + w.open_.length) 0

/-- Issue what a running descriptor may issue, with fuel: at most 512 segments outstanding, each with a tracker entry
(R110). -/
def State.issueFuel : Nat → Nat → Nat → Nat → State → State
  | 0, _, _, _, s => s
  | k + 1, q, e, seq, s =>
    let n := 136 + e
    let x := s.queue q n
    let i := x.window.findIdx (fun w => w.status == .running && w.seq == seq)
    match x.window[i]? with
    | none => s
    | some w =>
      if w.err ≠ 0 || decide (512 ≤ x.outstanding) || decide ((s.moves w.desc).count ≤ w.next) then s
      else if !s.canTrack q n then s.setQueue q n { x with segWait := true }
      else
        let s := (s.setQueue q n { x with segWait := false }).setEntry q n i
          { w with next := w.next + 1, open_ := w.open_ ++ [w.next] }
        State.issueFuel k q e seq (s.issueSegment q e w w.next)

/-- The path time in MCLK from quarter q's engines to a local address: to read a line, or to write one (R335, R338). -/
def portPath (q a : Nat) (write : Bool) : Nat :=
  match stackPlace a with
  | some p => if write then (routeOf q 0 p).write else (routeOf q 0 p).read
  | none => (if write then 2 else 6) + (if foldBase q ≤ a ∧ a < foldBase q + 0x10000000 then 0 else 24)

/-- The path time in ACLK of a descriptor whose ends are both local (R336); none otherwise. -/
def State.streamTime (s : State) (q : Nat) (d : Desc) : Nat :=
  let bytes := dw d 6 * (df d 7 0 24 + 1)
  match s.resolve (dq d 4), s.resolve (dq d 2) with
  | .here b, .here a =>
    3 * (8 + (if dOp d = 2 then 0 else portPath q a false) + portPath q b true + ((bytes + 511) / 512 - 1))
  | .here b, _ => if dOp d = 2 then 3 * (8 + portPath q b true + ((bytes + 511) / 512 - 1)) else 0
  | _, _ => 0

/-- Finish a descriptor whose segments have all completed, or halt its queue after a failed one (R115, R136). -/
def State.settleStream (s : State) (q e seq : Nat) : State :=
  let n := 136 + e
  let x := s.queue q n
  let i := x.window.findIdx (fun w => w.status == .running && w.seq == seq)
  match x.window[i]? with
  | none => s
  | some w =>
    if !w.open_.isEmpty then s
    else if w.err ≠ 0 then s.failRuntime q n seq w.err
    else if (s.moves w.desc).count ≤ w.next then s.finishEntry q n i (w.startedAt + s.streamTime q w.desc)
    else s

/-- Start the next streamer descriptor of OP `op` and issue its segments, or go on issuing those of a descriptor that
runs. -/
def State.runStream (s : State) (q e op : Nat) : State :=
  let n := 136 + e
  match (if e < 16 then s.startable q n else none) with
  | some (i, w) =>
    if dOp w.desc ≠ op then s
    else ((State.issueFuel 512 q e w.seq (s.startEntry q n i w))).settleStream q e w.seq
  | none =>
    match (s.queue q n).window.find? (fun w => w.status == .running && dOp w.desc == op &&
        decide (w.next < (s.moves w.desc).count)) with
    | none => s
    | some w => (State.issueFuel 512 q e w.seq s).settleStream q e w.seq

/-- STREAMER_COPY (R110, R136, R137): a streamer starts a COPY and issues its segments; given again, it issues those that
waited for tracker entries. -/
def execStreamerCopy (t q e : Nat) (s : State) : Host.Outcome State Fault Refusal := settled ((s.advance t).runStream q e 1)

/-- STREAMER_FILL (R136, R137). -/
def execStreamerFill (t q e : Nat) (s : State) : Host.Outcome State Fault Refusal := done ((s.advance t).runStream q e 2)

/-- What waits on a lease beyond the first `k` writes was read under lease n (R157). -/
def State.readUnder (s : State) (k n : Nat) : State :=
  let l := s.leases.writes
  { s with leases := { s.leases with writes := l.take k ++ (l.drop k).map (fun w => { w with lent := n }) } }

/-- A write of a streamer or exporter to a local address, of bytes read under lease `lent`: the code of its failure, or the
state (R99, R137, R157, R167). -/
def State.streamWrite (s : State) (q n seq lent a : Nat) (bs : List (Byte × Bool)) : State × Nat :=
  if !populated a bs.length then (s.noteAddrError a, 0x20)
  else if touchesReserved a bs.length then (s, 0x20)
  else ((s.memWrite (some (q, n, seq)) a bs).readUnder s.leases.writes.length lent, 0)

/-- A segment ends with a code: 0 for success. The rest of the descriptor goes on, finishes or fails. -/
def State.endSegment (s : State) (q e seq i code : Nat) : State :=
  let n := 136 + e
  let x := s.queue q n
  let mine (w : WinEntry) : Bool := w.status == .running && w.seq == seq
  match x.window.find? mine with
  | none => s
  | some w0 =>
    let m := s.moves w0.desc
    let s := match s.resolve (m.ends w0.desc i).1 with
      | .here a => if dOp w0.desc = 1 then s.hold w0.desc a false else s
      | _ => s
    let s := s.setQueue q n { s.queue q n with window := replaceFirst mine (fun w =>
      { w with open_ := w.open_.filter (· != i), err := if w.err = 0 then code else w.err }) (s.queue q n).window }
    (State.issueFuel 512 q e seq s).settleStream q e seq

/-- STREAMER_SEGMENT_COMPLETE (R115, R116, R136, R137): a segment of the descriptor with a ring count ends. A local copy is
performed here; a remote one takes the answer that has come. `site` is the answer of another site, where the segment
went to one: an error code and the bytes read. `lost` marks a frame that R252 or R262 discarded on its way. -/
def execStreamerSegmentComplete (t q e seq i : Nat) (site : Option (Nat × List (Byte × Bool))) (lost : Bool)
    (flips : List (Nat × Nat)) (s : State) : Host.Outcome State Fault Refusal :=
  let s := (s.advance t).upset flips
  let n := 136 + e
  match (s.queue q n).window.find? (fun w => w.status == .running && w.seq == seq && w.open_.contains i) with
  | none => settled s
  | some w =>
    let d := w.desc
    let m := s.moves d
    let p := m.ends d i
    match s.segOf q n seq i with
    | some g =>
      let ans := if lost then some (0x21, []) else (g.answered s.now).orElse (fun _ => if g.chip = none then site else none)
      (match ans with
      | none => settled s
      | some (c, bs) =>
        let s := s.dropSeg g.id
        if c ≠ 0 then settled (s.endSegment q e seq i c)
        else
          match g.kind with
          | .write => settled (s.endSegment q e seq i 0)
          | .read =>
            let s := s.tap q d m i (bs.map Prod.fst)
            match s.resolve p.2.1 with
            | .here b =>
              let r := s.streamWrite q n seq 0 b bs
              settled (r.1.endSegment q e seq i r.2)
            | _ => settled (s.sendSegment q n w i p.2.1 bs))
    | none =>
      match s.resolve p.2.1 with
      | .here b =>
        if dOp d = 2 then
          let zeros : List (Byte × Bool) := List.replicate p.2.2 (0, false)
          let r := (s.tap q d m i (zeros.map Prod.fst)).streamWrite q n seq 0 b zeros
          settled (r.1.endSegment q e seq i r.2)
        else
          (match s.resolve p.1 with
          | .here a =>
            if populated a p.2.2 then
              let r := s.readSource q e d m i a p.2.2
              let r2 := r.1.streamWrite q n seq (if leasedRead d a then df d 1 0 16 else 0) b r.2
              settled (r2.1.endSegment q e seq i r2.2)
            else settled ((s.noteAddrError a).endSegment q e seq i 0x20)
          | _ => settled s)
      | _ => settled s

end Sys2Proof.Machine
end

