-- ==== Sys2Proof/Machine/Rounds.lean ====
section
/-! DEFINITION. Migration rounds: DUE, READY, the contribution set, and the states of sites (R274 to R294). -/

namespace Sys2Proof.Machine

/-- This module's site. -/
def State.ownSite (s : State) : Nat := s.selfId / 2 ^ 15 % 8

/-- STATE of a site: 0 OFF, 1 SELF, 2 LINKED, 3 SEPARATED, 4 REJOINING (R296). -/
def State.siteState (s : State) (i : Nat) : Nat := s.field (mPage .mig) (Reg.MIG_SITEs_STS + 16 * i) 0 3

/-- Store STATE and LAGGING of a site. -/
def State.setSite (s : State) (i state : Nat) (lagging : Bool) : State :=
  s.setNum (mPage .mig) (Reg.MIG_SITEs_STS + 16 * i) (state % 8 + (if lagging then 8 else 0))

/-- The other sites that are LINKED. -/
def State.linkedSites (s : State) : List Nat := (List.range 8).filter (fun i => i != s.ownSite && s.siteState i == 2)

/-- The configured sites but for this one. -/
def State.otherSites (s : State) : List Nat :=
  (List.range 8).filter (fun i => i != s.ownSite && s.bit (mPage .mig) Reg.MIG_SITES i)

/-- The time without contact from a site is counted from when the site is configured or linked (R290; log entry 158). -/
def State.watchSite (s : State) (i : Nat) : State :=
  { s with mig := { s.mig with contact := mapSet (fun _ => 0) s.mig.contact i s.podCount } }

/-- The states of sites follow from SITES (R296): this site SELF, the other configured ones LINKED, the rest OFF. -/
def State.resetSites (s : State) : State :=
  (List.range 8).foldl (fun s i =>
    (s.setSite i (if i = s.ownSite then 1 else if s.bit (mPage .mig) Reg.MIG_SITES i then 2 else 0) false).watchSite i) s

/-- Add 1 to a counter of the step in every quarter (R143). -/
def State.tickAll (s : State) (k : Nat) : State := (List.range 4).foldl (fun s q => s.incCounter q k 1) s

/-- Has every lane a header of round k from a site? -/
def State.heldFrom (s : State) (k site : Nat) : Bool :=
  (List.range 4).all (fun q => s.mig.held.any (fun h => h.q == q && h.site == site && h.round == k))

/-- DECAY to a power, in binary32 (R283). -/
def State.decay (s : State) : Nat → Num
  | 0 => .fin false 1 0
  | n + 1 => fMul (s.decay n) (ofF32 (s.reg (mPage .mig) Reg.MIG_DECAY))

/-- Form the contribution set (R283, R292) from the headers held and not used by an earlier round; nothing of a SEPARATED site is
weighted (R290). Formed again in the same CCLK it takes in the header that has come since. -/
def State.formSet (s : State) : State :=
  let m := mPage .mig
  let k := s.roundNumber
  let catchup := s.field m Reg.MIG_MIG_STS 1 2 == 1
  let old := s.mig.held.filter (fun h => !h.used && decide (h.round + s.field m Reg.MIG_STALE_MAX 0 3 < k) && !(catchup && h.catchup))
  let held := s.mig.held.filter (fun h => !old.contains h)
  let mine (h : Shard) : Bool := !h.used || s.mig.set_.any (fun c => c.q == h.q && c.site == h.site && c.round == h.round)
  let taken := held.filter (fun h => mine h && s.siteState h.site != 3 && (if catchup then h.catchup else decide (h.round ≤ k)))
  let one : Num := .fin false 1 0
  let weight (h : Shard) : Num :=
    if catchup then
      fDiv one (.fin false (taken.filter (fun x => x.round == h.round && x.q == h.q)).length 0)
    else s.decay (k - h.round)
  let others : List Contribution := taken.map (fun h => { q := h.q, site := h.site, round := h.round, weight := toF32 (weight h) })
  let own : List Contribution := if catchup then [] else
    (List.range 4).map (fun q => { q := q, site := s.ownSite, round := k, weight := toF32 one })
  let fresh := s.otherSites.all (s.heldFrom k)
  let mark (h : Shard) : Shard := if taken.contains h then { h with used := true } else h
  let s := { s with mig := { s.mig with held := held.map mark, set_ := own ++ others, fresh := fresh } }
  (s.addSat m Reg.MIG_DROPPED old.length).raiseIf (!old.isEmpty) m 6

/-- READY holds: the contribution set is taken in this CCLK (R276, R283, R292). -/
def State.takeReady (s : State) : State :=
  let m := mPage .mig
  let catchup := s.field m Reg.MIG_MIG_STS 1 2 == 1
  let s := s.formSet
  let s := { s with mig := { s.mig with readyRound := some s.roundNumber, readyAt := some s.now } }
  ((s.setBit m Reg.MIG_MIG_STS 4 true).raiseIf catchup m 3).tickAll 4091

/-- Did READY of the running round come in this CCLK (R283)? -/
def State.readyNow (s : State) : Bool :=
  s.bit (mPage .mig) Reg.MIG_MIG_STS 4 && s.mig.readyAt.any (fun a => a / 4 == s.now / 4)

/-- READY holds in a round step once every LINKED site's headers of the round are held in every lane (R283). -/
def State.checkReady (s : State) : State :=
  let m := mPage .mig
  let st := s.stepState
  if s.bit m Reg.MIG_MIG_STS 0 && !s.bit m Reg.MIG_MIG_STS 4 && st != 4 && st != 0 &&
      s.linkedSites.all (s.heldFrom s.roundNumber) then s.takeReady
  else s

/-- A datagram of this module to a site (R272). -/
def State.dgramTo (s : State) (kind site q qpn : Nat) : Dgram :=
  let m := mPage .mig
  let side := s.ownSite :: s.linkedSites
  { kind := kind, dest := site, q := q, site := s.ownSite, round := s.num m Reg.MIG_ROUND, common := s.num m Reg.MIG_COMMON_ROUND
    chip := coord (s.num (mPage .coll) Reg.COLL_POS) 0 + 32 * s.field (mPage .coll) Reg.COLL_POS 8 5 +
      1024 * s.field (mPage .coll) Reg.COLL_POS 16 5
    time := s.podCount, qpn := qpn
    sites := if kind = 3 then side.foldl (fun n i => n + 2 ^ i) 0 else 0, side := if kind = 3 then side.length else 0 }

/-- The site port that sends control datagrams: S0, or the lowest-numbered that is up (R290). -/
def State.dgramPort (s : State) : Nat :=
  ((List.range 4).find? (fun q => s.bit (mPage .host) Reg.HOST_HOST_STS (1 + q))).getD 0

/-- The site port of PTP: `PTP_CTL.PORT`, or the next site port that is up. -/
def State.ptpPort (s : State) : Nat :=
  let p := s.field (mPage .mig) Reg.MIG_PTP_CTL 1 2
  ((List.range 4).map (fun i => (p + i) % 4)).find? (fun q => s.bit (mPage .host) Reg.HOST_HOST_STS (1 + q)) |>.getD p

/-- While PTP is enabled, PTP_STS shows the port in use (R295, R297). -/
def State.movePtp (s : State) : State :=
  if s.bit (mPage .mig) Reg.MIG_PTP_CTL 0 then s.setField (mPage .mig) Reg.MIG_PTP_STS 1 2 s.ptpPort else s

/-- The MAC address of port Sq: 02:01:SS:CC:CC:0q (R298). -/
def State.mac (s : State) (q : Nat) : Nat :=
  0x020100000000 + s.selfId / 2 ^ 15 * 2 ^ 24 + s.selfId % 2 ^ 15 * 2 ^ 8 + q

/-- The migration address of port Sq, which an active module holds: it follows the logical position (R269). -/
def State.migrationAddr (s : State) (q : Nat) : Option Nat :=
  let m := mPage .mig
  let k := 8 * s.ownSite
  let pos := s.num (mPage .coll) Reg.COLL_POS
  let chip := bitsOf pos 0 5 + 32 * bitsOf pos 8 5 + 1024 * bitsOf pos 16 5
  if s.field (mPage .pod) Reg.POD_ROLE 2 2 = 0 then
    some (s.num64 m (Reg.MIG_PREFIXs_LO + k) (Reg.MIG_PREFIXs_HI + k) * 2 ^ 64 + s.num m Reg.MIG_IID_HI * 2 ^ 32 + chip * 2 ^ 8 + q)
  else none

/-- An adopter announces the migration addresses of the position that it takes, by unsolicited Neighbor Advertisement on each
site port that is up (R269). -/
def State.announce (s : State) : State :=
  ((List.range 4).filter (fun q => s.bit (mPage .host) Reg.HOST_HOST_STS (1 + q))).foldl (fun s q =>
    match s.migrationAddr q with
    | some a => s.emit (.neighbor q a (s.mac q))
    | none => s) s

/-- Send a datagram. -/
def State.sendDgram (s : State) (d : Dgram) : State := s.emit (.dgram d)

/-- Send a datagram and keep it to be repeated every 100 ms (R272). -/
def State.sendRepeated (s : State) (d : Dgram) : State :=
  { s.sendDgram d with mig := { s.mig with
    repeats := s.mig.repeats.filter (fun x => !(x.kind == d.kind && x.dest == d.dest && x.qpn == d.qpn)) ++ [d] } }

/-- The first boundary of a late-joining site (R294). -/
def State.joinSite (s : State) : State :=
  let m := mPage .mig
  if !s.bit m Reg.MIG_MIG_CTL 1 ∨ s.mig.joinFrom.isSome then s
  else
    let k := s.committed / max 1 (s.field m Reg.MIG_ROUND_H 0 11)
    let s := { s.setNum m Reg.MIG_COMMON_ROUND k with mig := { s.mig with joinFrom := some (k + 1) } }
    if s.isLead then s.otherSites.foldl (fun s i => s.sendRepeated (s.dgramTo 4 i s.dgramPort 0)) s else s

/-- Entry to SKIPPING in a round step counts ROUND_READY, if READY has not (R276). -/
def State.skipRound (s : State) : State :=
  let m := mPage .mig
  if s.migOn && s.bit m Reg.MIG_MIG_STS 0 && !s.bit m Reg.MIG_MIG_STS 4 then s.tickAll 4091 else s

/-- The round is applied (R286, R293, R294): ROUND, COMMON_ROUND, and the end of lagging and of joining. -/
def State.finishRound (s : State) : State :=
  let m := mPage .mig
  if !s.bit m Reg.MIG_MIG_STS 0 then s
  else
    let k := s.roundNumber
    let mode := s.field m Reg.MIG_MIG_STS 1 2
    let s := s.setNum m Reg.MIG_ROUND k
    let s := if mode ≠ 0 then
        { (s.setNum m Reg.MIG_COMMON_ROUND s.mig.leadRound).setSite s.ownSite 2 false with mig := { s.mig with nextMode := 0 } }
      else if s.mig.fresh then s.setNum m Reg.MIG_COMMON_ROUND k
      else s
    { s.setBit m Reg.MIG_MIG_CTL 1 false with mig := { s.mig with joinFrom := none } }

/-- On every change of SRTT_max by more than an eighth, and on every jump, windows and the deadline are derived again; an
open round's deadline is never shortened (R289). -/
def State.derive (s : State) (jump : Bool) : State :=
  let x := s.srttMax
  let d := s.mig.derived
  let diff := max x d - min x d
  if !jump ∧ 8 * diff ≤ d then s
  else
    let n := max 1 s.linkedSites.length
    let window (i : Nat) : Nat :=
      -- 1.25 · 25 GB/s · SRTT, with SRTT in counts of 1/0.9 ns
      max 0x400000 (s.num (mPage .mig) (Reg.MIG_SITEs_SRTT + 16 * i) * 3125 / 90 / n)
    let deadline := match s.mig.openAt with
      | some o => max s.mig.deadline (s.deadlineFrom o)
      | none => s.mig.deadline
    { s with mig := { s.mig with derived := x, deadline := deadline, windows := s.linkedSites.map (fun i => (i, window i)) } }

/-- Separation time in counts (R289). -/
def State.separation (s : State) : Nat := max (s.num (mPage .mig) Reg.MIG_SEP_MIN) (20 * s.srttMax)

/-- Act on a site state from the lead (R290 to R293). -/
def State.applySite (s : State) (site state : Nat) (lagging : Bool) (mode round : Nat) : State :=
  let m := mPage .mig
  let was := s.siteState site
  let s := s.setSite site state lagging
  let s := if state = 3 ∧ was ≠ 3 then s.raise m 1 else s
  let s := if state = 2 ∨ state = 4 then
      { s with mig := { s.mig with told := s.mig.told.filter (· != site) } }.watchSite site
    else s
  let s := if state = 4 ∧ lagging then
      (if site = s.ownSite then
        ({ s with mig := { s.mig with nextMode := mode, leadRound := round } } : State).raise m 2
      else if mode = 1 ∧ s.siteState s.ownSite ≠ 4 then
        let c := max (mapGet (fun _ => 0) s.mig.commons site) (round - 7)
        let rounds := (List.range (round - c)).map (fun i => c + 1 + i)
        (List.range 4).foldl (fun s q => s.emit (.slots q site rounds true)) s
      else s)
    else s
  (s.derive false).checkReady

/-- Send a site state down the tree and act on it (R290, R291). -/
def State.siteDown (s : State) (site state : Nat) (lagging : Bool) (mode round : Nat) : State :=
  (s.treeDown s.treeHdr (.siteDown site state lagging mode round)).applySite site state lagging mode round

/-- What the boundary does for a round (R274, R276, R293, R294): at the lead, sites that have announced themselves become LINKED
first. -/
def State.beginRound (s : State) : State :=
  let m := mPage .mig
  let s : State := s.mig.joiners.foldl (fun (s : State) i => s.siteDown i 2 false 0 (s.num m Reg.MIG_ROUND)) s
  let s := { s with mig := { s.mig with openAt := none, set_ := [], fresh := false, joiners := [] } }
  if !s.migOn then s.setField m Reg.MIG_MIG_STS 0 5 0
  else
    let s := s.joinSite
    let due := decide ((s.committed + 1) % max 1 (s.field m Reg.MIG_ROUND_H 0 11) = 0)
    let mode := if due then s.mig.nextMode else 0
    let s := s.setField m Reg.MIG_MIG_STS 0 5 ((if due then 1 else 0) + 2 * mode)
    if !due then s.tickAll 4091
    else
      let s := if mode = 2 then
          ({ s with train := { s.train with exceeds := [0, 1, 2, 3] } } : State).raise m 4 else s
      s.checkReady

/-- At the lead: a module reports a site; more than half of the ACTIVE modules make it SEPARATED (R290). -/
def State.siteReport (s : State) (site id : Nat) : State :=
  let l : List (Nat × Nat) := (s.mig.reports ++ [(site, id)]).eraseDups
  let s : State := { s with mig := { s.mig with reports := l } }
  let active : Nat := (s.fabric.pod.cut.filter (fun e => e.2 == 0)).length
  let said : List (Nat × Nat) := l.filter (fun e => e.1 == site)
  if s.siteState site == 2 && decide (active < 2 * said.length) then
    ({ s with mig := { s.mig with reports := l.filter (fun e => e.1 != site) } } : State).siteDown site 3 false 0 0
  else s

/-- A datagram shows its sender's COMMON_ROUND (R272, R287). -/
def State.noteDgram (s : State) (d : DgramHdr) : State :=
  { s with mig := { s.mig with commons := mapSet (fun _ => 0) s.mig.commons (d.site % 8) d.common } }

/-- A packet from a counterpart counts as contact; at the lead, contact with a SEPARATED site starts the exchange (R290,
R291). -/
def State.siteContact (s : State) (site : Nat) : State :=
  let s := { s with mig := { s.mig with contact := mapSet (fun _ => 0) s.mig.contact site s.podCount
                                        told := s.mig.told.filter (· != site) } }
  if s.isLead && s.siteState site == 3 && !s.mig.repeats.any (fun d => d.kind == 3 && d.dest == site) then
    s.sendRepeated (s.dgramTo 3 site s.dgramPort 0)
  else s

end Sys2Proof.Machine
end

