-- ==== Sys2Proof/Machine/LinkCheck.lean ====
section
/-! DEFINITION. The digest log and the link check (R202, R203, R467). -/

namespace Sys2Proof.Machine

/-- Members of the ring along dimension d, of COLL.SHAPE (R205). -/
def State.ringSize (s : State) (d : Nat) : Nat := s.field (mPage .coll) Reg.COLL_SHAPE (8 * d) 5 + 1
/-- This module's position along dimension d, of COLL.POS (R205). -/
def State.ringPos (s : State) (d : Nat) : Nat := s.field (mPage .coll) Reg.COLL_POS (8 * d) 5
/-- Modules of the pod: the product of COLL.SHAPE (R148, R205). -/
def State.podModules (s : State) : Nat := s.ringSize 0 * s.ringSize 1 * s.ringSize 2

/-- Write bytes into a ring of `size` bytes from `base`, at a running count (R163, R202). -/
def State.ringWrite (s : State) (base size at_ : Nat) (bs : List Byte) : State :=
  let o := at_ % size
  let first := bs.take (size - o)
  (s.memPutBytes none (base + o) first).memPutBytes none base (bs.drop (size - o))

/-- Base and size of the digest log; size 0 where nothing is logged (R205). -/
def State.digestLog (s : State) : Nat × Nat :=
  let m := mPage .coll
  let log := s.field m Reg.COLL_DLOG_CFG 0 5
  (s.num64 m Reg.COLL_DLOG_BASE_LO Reg.COLL_DLOG_BASE_HI, if log = 0 then 0 else 2 ^ log)

/-- Append a record of 128 bytes to the digest log (R202). -/
def State.logDigests (s : State) (rec_ : List Byte) : State :=
  let m := mPage .coll
  let l := s.digestLog
  if l.2 = 0 then s
  else
    let at_ := s.num m Reg.COLL_DLOG_TAIL
    let a := l.1 + at_ % l.2
    let s := if populated a 128 && !touchesReserved a 128 then s.ringWrite l.1 l.2 at_ rec_ else s.raise m 3
    s.addWrap m Reg.COLL_DLOG_TAIL 128

/-- The log's records of an attempt, by the low 32 bits of its number: their addresses. -/
def State.logRecords (s : State) (attempt : Nat) : List Nat :=
  let l := s.digestLog
  ((List.range (l.2 / 128)).map (fun i => l.1 + 128 * i)).filter (fun a =>
    let op := s.readNat (a + 4) 1
    (op == 1 || op == 2) && s.readNat (a + 8) 4 == attempt % 2 ^ 32)

/-- A module's part of a check: it sends the send digest of each direction of its records to the neighbour in that
direction (R203). -/
def State.sendDigests (s : State) (attempt : Nat) : State :=
  let s := { s with coll := { s.coll with checking := some attempt } }
  (s.logRecords attempt).foldl (fun s a =>
    let q := s.readNat (a + 5) 1
    (List.range 6).foldl (fun s d => s.sendTo 6 q (s.neigh d * 2 ^ 45)
      (.sendDigest (s.readNat a 4) q (s.readNat (a + 6) 1) attempt d (s.readNat (a + 32 + 8 * d) 8))) s) s

/-- A link check of an attempt starts at the lead (R203). -/
def State.startCheck (s : State) (attempt : Nat) : State :=
  if !s.isLead then s
  else
    let s := s.treeDown { s.treeHdr with attempt := attempt } .check
    let s := { s with coll := { s.coll with checkLeft := s.podModules } }
    (s.setBit (mPage .coll) Reg.COLL_CHECK_STS 0 true).sendDigests attempt

/-- A register of another module, written as the lead: a WRITE on VL 6 to its window (R250, R265). -/
def State.leadWrite (s : State) (id : Nat) (p : Page) (off v : Nat) : State :=
  s.sendTo 6 s.service (id * 2 ^ 45 + windowBase + 0x1000000 * p.win + 0x1000 * p.slot + off)
    (.write 0 false ((leBytes 4 v ++ List.replicate 12 0).map (fun b => (b, false))))

/-- What the lead does with reported mismatches: it counts and records them, and parks both ends of each link (R203,
R467). A module's report counts once towards the end of the check. -/
def State.countMismatches (s : State) (total : Nat) (entries : List Mismatch) : State :=
  let m := mPage .coll
  let left := s.coll.checkLeft - 1
  let s := { s with coll := { s.coll with checkLeft := left } }
  let s := if left = 0 then s.setBit m Reg.COLL_CHECK_STS 0 false else s
  if total = 0 then s
  else
    let s := s.addSat m Reg.COLL_MISMATCHES total
    let s := match entries.getLast? with
      | none => s
      | some e => s.setNum m Reg.COLL_LAST_MISMATCH (e.receiver + 2 ^ 18 * e.direction + 2 ^ 22 * e.quarter)
    let s := s.raise m 2
    entries.foldl (fun s e =>
      let s := s.faultRecord 0x0E e.quarter e.direction e.receiver e.tag
      let port (id d : Nat) (s : State) : State :=
        let p := qPage .fport e.quarter d
        if id = s.selfId then
          (s.journalled (.lead s.selfId) p Reg.FPORT_PORT_CTL (s.reg p Reg.FPORT_PORT_CTL &&& ~~~1#32)).linkDown e.quarter d
        else s.leadWrite id p Reg.FPORT_PORT_CTL 8
      let far := e.receiver / 2 ^ 15 * 2 ^ 15 + s.stepChip (e.receiver % 2 ^ 15) e.direction
      port far (opposite e.direction) (port e.receiver e.direction s)) s

/-- The mismatches among send digests that have come from neighbours (R203). -/
def State.compareLinks (s : State) (attempt : Nat) (arrived : List LinkDigest) : State × List Mismatch :=
  arrived.foldl (fun a d =>
    let s := a.1
    match (s.logRecords attempt).find? (fun r => s.readNat r 4 == d.tag && s.readNat (r + 5) 1 == d.quarter &&
        s.readNat (r + 6) 1 == d.epoch) with
    | none => (s.setBit (mPage .coll) Reg.COLL_CHECK_STS 1 true, a.2)
    | some r =>
      let i := opposite d.direction
      if s.readNat (r + 80 + 8 * i) 8 = d.value then a
      else (s, a.2 ++ [{ tag := d.tag, quarter := d.quarter, direction := i, epoch := d.epoch, receiver := s.selfId }])) (s, [])

/-- CHECK (R203): from the tree, the module forwards it and sends its send digests; with no message, the send digests of
its neighbours have arrived, and it compares them and reports. With `elsewhere`, a COLL_WAIT, a CS0 failure or an
uncorrectable port error of another module has come to the lead, which starts a check (log entry 152). -/
def execCheckLinks (t : Nat) (from_ : Option (RxHdr × TreeHdr)) (arrived : List LinkDigest) (elsewhere : Bool) (s : State) :
    Host.Outcome State Fault Refusal :=
  let s := s.advance t
  match from_ with
  | some (h, th) =>
    let r := s.receiveTree h th .check
    if !r.2 then done r.1 else done ((r.1.treeDown th .check).sendDigests th.attempt)
  | none =>
    if elsewhere then done (s.startCheck s.attempt)
    else
    match s.coll.checking with
    | none => done s
    | some a =>
      let r := s.compareLinks a arrived
      let s := { r.1 with coll := { r.1.coll with checking := none } }
      if s.isLead then done (s.countMismatches r.2.length (r.2.take 16))
      else done (s.treeUp { s.treeHdr with attempt := a } (.mismatchUp r.2.length (r.2.take 16)))

/-- MISMATCH_UP (R203): forwarded towards the lead, which counts it. -/
def execMismatchUp (t : Nat) (h : RxHdr) (th : TreeHdr) (total : Nat) (entries : List Mismatch) (s : State) :
    Host.Outcome State Fault Refusal :=
  let r := (s.advance t).receiveTree h th (.mismatchUp total entries)
  if !r.2 then done r.1
  else if r.1.isLead then done (r.1.countMismatches total entries)
  else done (r.1.treeUp th (.mismatchUp total entries))

end Sys2Proof.Machine
end

