-- ==== Sys2Proof/Machine/Triads.lean ====
section
/-! DEFINITION. Failed triads, the slot map that darn prepares, and the islands that it stops (R42, R43, R321, R396, R397, R459). -/

namespace Sys2Proof.Machine

/-- Is a quarter SHORT: fewer than 30 physical triads clear in FAILED_MAP (R43)? -/
def State.short (s : State) (q : Nat) : Bool :=
  decide (((List.range 32).filter (fun p => !s.bit (qPage .tslot q 0) Reg.TSLOT_FAILED_MAP p)).length < 30)

/-- Is a triad failed (R43)? -/
def State.failedTriad (s : State) (q p : Nat) : Bool := s.bit (qPage .tslot q 0) Reg.TSLOT_FAILED_MAP p

/-- Does a physical triad serve a slot (R42)? -/
def State.mapped (s : State) (q p : Nat) : Bool := (List.range 30).any (fun n => s.physOf q n == p)

/-- The triad that slot n serves from the next boundary on (R42). -/
def State.nextOf (s : State) (q n : Nat) : Nat := s.field (qPage .tslot q 0) (Reg.TSLOT_SLOTn + 4 * n) 8 5

/-- Free triads that no NEXT names: they serve no slot and are not failed (R397). -/
def State.freeTriads (s : State) (q : Nat) : List Nat :=
  (List.range 32).filter (fun p => !s.mapped q p && !s.failedTriad q p && (List.range 30).all (fun n => s.nextOf q n != p))

/-- Write NEXT of a slot as darn, which is CP3 of the quarter (R373, R395). -/
def State.darnNext (s : State) (q n p : Nat) : State :=
  let off := Reg.TSLOT_SLOTn + 4 * n
  s.journalled (.cp q 3) (qPage .tslot q 0) off (BitVec.ofNat 32 (putBits (s.num (qPage .tslot q 0) off) 8 5 p))

/-- Every slot whose NEXT is failed gets a free triad (R397). -/
def State.prepareMap (s : State) (q : Nat) : State :=
  (List.range 30).foldl (fun s n =>
    if s.failedTriad q (s.nextOf q n) then
      match s.freeTriads q with
      | [] => s
      | p :: _ => s.darnNext q n p
    else s) s

/-- Darn sets a triad's FAILED_MAP bit (R396): SHORT is raised as the third triad fails (R43), and the map is prepared. -/
def State.markFailed (s : State) (q p : Nat) : State :=
  if s.failedTriad q p then s
  else
    let page := qPage .tslot q 0
    let was := s.short q
    let s := s.journalled (.cp q 3) page Reg.TSLOT_FAILED_MAP
      (BitVec.ofNat 32 (putBits (s.num page Reg.TSLOT_FAILED_MAP) p 1 1))
    ((s.raiseIf (!was && s.short q) page 2)).prepareMap q

/-- Abandon the tiles in flight on an array of a failed triad: they write no further line and are signalled as
skip-completed descriptors are (R459). -/
def State.abandonTiles (s : State) (q slot a : Nat) : State :=
  let p := s.physOf q slot
  let n := 3 * slot + a
  let x := s.array q p a
  let kinds := if a = 0 then x.kinds else x.kinds - x.tiles.length
  let s := s.setArray q p a { x with tiles := [], kinds := kinds }
  ((s.skipEntries q n (fun w => w.status == .running)).skipWaiting q n).drain q n

/-- A failed triad (R459): its FAILED_MAP bit, TRIAD_FAIL, the drain of its three queues, and FORCE in the local record
if the verdict is not yet known. -/
def State.failTriad (s : State) (q p : Nat) : State :=
  if s.failedTriad q p then s
  else
    let s := (s.markFailed q p).fault 0x01 q p s.selfId 0 1
    let st := s.stepState
    let force := st == 1 || st == 2
    let s := { s with train := { s.train with triadFail := s.train.triadFail || force }
                      compute := { s.compute with failing := mapSet (fun _ => false) s.compute.failing (32 * q + p) true } }
    match (List.range 30).find? (fun n => s.physOf q n == p) with
    | none => s
    | some slot => [0, 1, 2].foldl (fun s a => s.abandonTiles q slot a) s

/-- Darn stops the islands of failed triads that serve no slot (R321): it quiesces the page and stops the island, each a
journalled write. -/
def State.darnStops (s : State) (q : Nat) : State :=
  ((List.range 32).filter (fun p => s.failedTriad q p && !s.mapped q p && decide (s.island q p ≤ 1))).foldl (fun s p =>
    let page := qPage .array q p
    let ctl := mPage .clkdir
    let s := if s.bit page Reg.HDR_PAGE_CTL 1 then s
      else s.journalled (.cp q 3) page Reg.HDR_PAGE_CTL (BitVec.ofNat 32 (putBits (s.num page Reg.HDR_PAGE_CTL) 1 1 1))
    let s := s.journalAdd (s.entry (.cp q 3) ctl Reg.CLKDIR_CLK_CMD 0 0 0)
    let s := s.setNum ctl Reg.CLKDIR_CMD_STS (1 + 4 * p + 512 * q)
    let c : ClkCmd := { quarter := q, island := p, stop := true, since := s.now }
    ({ s with clk := { s.clk with cmds := s.clk.cmds ++ [c] } } : State).setIsland q p 2) s

/-- The watchdog's count of attempts in which a triad's ECC_UE rose: the third in a row fails the triad (R458). -/
def State.watchEcc (s : State) : State :=
  if !s.bit (mPage .fault) Reg.FAULT_FLT_CTL 0 then s
  else (List.range 128).foldl (fun s k =>
    let n := s.total (qPage .array (k / 32) (k % 32)) Reg.ARRAY_ECC_UE
    let zero : Nat → Nat := fun _ => 0
    let up := mapGet zero s.train.eccSeen k < n
    let runs := if up then mapGet zero s.train.eccRuns k + 1 else 0
    let train := { s.train with eccSeen := mapSet zero s.train.eccSeen k n
                                eccRuns := mapSet zero s.train.eccRuns k (if 3 ≤ runs then 0 else runs) }
    let s : State := { s with train := train }
    if 3 ≤ runs then s.failTriad (k / 32) (k % 32) else s) s

end Sys2Proof.Machine
end

