-- ==== Sys2Proof/Machine/StepOps.lean ====
section
/-! DEFINITION. The training step: geometry of a lane, scale histories, the boundary, the verdict and the commit (R33 to R36, R42, R140 to R163, R189 to R192, R450, R459 to R465). -/

namespace Sys2Proof.Machine

/-! ## Geometry of a lane (R189 to R193) -/

/-- Piece i of m of the lines from `r.1` up to `r.2` (R190). -/
def piece (r : Nat × Nat) (m i : Nat) : Nat × Nat :=
  (r.1 + i * (r.2 - r.1) / m, r.1 + (i + 1) * (r.2 - r.1) / m)

/-- The dimensions that a plan names, in the order X, Y, Z (R191). -/
def planDims (p : Plan) : List Nat := (List.range 3).filter (fun k => bitAt p.dims k)

/-- The dimension of phase k of part r (R191). -/
def phaseDim (dims : List Nat) (r k : Nat) : Nat := dims.getD ((r + k) % dims.length) 0

/-- The lines of part r and direction h before phase k, at a position (R191). -/
def State.rangeAt (s : State) (dims : List Nat) (pos : Nat → Nat) (lines r h : Nat) : Nat → Nat × Nat
  | 0 => piece (piece (0, lines) dims.length r) 2 h
  | k + 1 => piece (s.rangeAt dims pos lines r h k) (s.ringSize (phaseDim dims r k)) (pos (phaseDim dims r k))

/-- The line ranges that a position owns after the last phase, in increasing lane offset (R192); the whole lane where no
dimension takes part. -/
def State.ownedAt (s : State) (dims : List Nat) (pos : Nat → Nat) (lines : Nat) : List (Nat × Nat) :=
  if dims.isEmpty then [(0, lines)]
  else (List.range dims.length).flatMap (fun r => [0, 1].map (fun h => s.rangeAt dims pos lines r h dims.length))

/-- The lines between ranges in increasing order, up to an end: those that a position does not own. -/
def gaps (from_ end_ : Nat) : List (Nat × Nat) → List (Nat × Nat)
  | [] => if from_ < end_ then [(from_, end_)] else []
  | r :: l => (if from_ < r.1 then [(from_, r.1)] else []) ++ gaps (max from_ r.2) end_ l

/-! ## Scale histories (R33 to R36, R463) -/

/-- Address of the record of history ID h (R167). -/
def histAddr (h : Nat) : Nat := reservedBase + 64 * h

/-- The history IDs whose record is not all zero. -/
def State.histIds (s : State) : List Nat :=
  ((s.mem.filter (fun e => decide (reservedBase ≤ e.1 ∧ e.1 < reservedBase + 0x400000))).map
    (fun e => (e.1 - reservedBase) / 64)).eraseDups

/-- A poisoned record is written as zero (R463). -/
def State.mendHist (s : State) (h : Nat) : State :=
  if s.readPoisoned (histAddr h) 64 then (s.noteRead (histAddr h) 64).memPutBytes none (histAddr h) (List.replicate 64 0)
  else s

/-- Merge a maximum into a record's pending slot (R33, R34). -/
def State.mergePending (s : State) (h v : Nat) : State :=
  let s := s.mendHist h
  let a := histAddr h
  let old := if bitAt (s.readNat (a + 36) 1) 0 then s.readNat (a + 32) 2 else 0
  (s.ownWrite (a + 32) 2 (max old v)).ownWrite (a + 36) 1 1

/-- At the end of the backward pass the four AMAX tables merge into PENDING and clear (R33, R129). -/
def State.mergeAmaxTables (s : State) : State :=
  let l := s.compute.amax
  l.foldl (fun s e => s.mergePending (e.1 % 65536) (e.2 - 1)) { s with compute := { s.compute with amax := [] } }

/-- A commit or a skip reaches one record (R35). -/
def State.settleHist (s : State) (commit : Bool) (h : Nat) : State :=
  let s := s.mendHist h
  let a := histAddr h
  if !bitAt (s.readNat (a + 36) 1) 0 then s
  else
    let count := s.readNat (a + 34) 1
    let i := if count = 0 then 0 else (s.readNat (a + 35) 1 + 1) % 16
    let v := s.readNat (a + 32) 2
    let s := s.ownWrite (a + 36) 1 0
    if commit then ((s.ownWrite (a + 2 * i) 2 v).ownWrite (a + 35) 1 i).ownWrite (a + 34) 1 (min 16 (count + 1)) else s

/-- The delayed scale of a record (R36, R129): READY, and the exponent of the largest valid entry. -/
def State.delayedOf (s : State) (h : Nat) : DelayedScale :=
  let a := histAddr h
  let count := s.readNat (a + 34) 1
  let newest := s.readNat (a + 35) 1
  let m := (List.range count).foldl (fun m i => max m (s.readNat (a + 2 * ((newest + 16 - i) % 16)) 2)) 0
  if count < 4 ∨ m = 0 ∨ 0x7F80 ≤ m then {} else { ready := true, exponent := (decodeElem .bf16 m).exponent }

/-- Load the delayed-scale table of every quarter (R36, R145). -/
def State.loadScales (s : State) : State :=
  let ids := s.histIds
  let s := ids.foldl State.mendHist s
  let rows := ids.map (fun h => (h, s.delayedOf h))
  { s with compute := { s.compute with scales := (List.range 4).foldl (fun m q =>
    rows.foldl (fun m r => mapSet (fun _ => {}) m (65536 * q + r.1) r.2) m) [] } }

/-! ## Step state -/

/-- Enter a step state (R141). -/
def State.enter (s : State) (code : Nat) : State := s.setField (mPage .step) Reg.STEP_STEP_STS 0 4 code

/-- Keep the D-tier copy of ATTEMPT, COMMITTED and SKIPPED (R142, R167), which is one line: written whole, it holds no poison
(R463, log entry 74). -/
def State.mirrorCounts (s : State) : State :=
  s.memPutBytes none (reservedBase + 0x402000) (leBytes 8 s.attempt ++ leBytes 8 s.committed ++
    leBytes 8 (s.num (mPage .step) Reg.STEP_SKIPPED) ++ List.replicate 40 0)

/-- A module that cannot run its stretch reports so on VL 6 through every port that is up, and then sends on no other
lane (R246, R450). -/
def State.reportLost (s : State) (cause : Nat) : State :=
  let epoch := s.num (mPage .pod) Reg.POD_MEND_EPOCH
  let lead := ((if s.isLead then s.standbyId else s.leadId).getD 0) * 2 ^ 45
  let f := s.ownFrame 6 s.service lead
    (.mend epoch [{ rtype := 6, flags := 0, subject := s.selfId, other := 0, value := cause }])
  let s := s.upPorts.foldl (fun s p => s.putFrame p.1 p.2 { f with srcQ := p.1 } s.now none) s
  let s := s.setPod { s.fabric.pod with selfCut := true }
  s.fault 0x0F 0 0 s.selfId cause 12

/-! ## The boundary (R144, R145) -/

/-- Queues that the boundary waits for: every queue of a quarter. -/
def State.quarterAtBoundary (s : State) (q : Nat) : Bool :=
  s.compute.queues.all (fun e => e.1 / 256 != q || s.queueAtBoundary q (e.1 % 256))

/-- May the boundary be taken (R144, R451, R462)? -/
def State.boundaryReady (s : State) : Bool :=
  let st := s.stepState
  s.bit (mPage .step) Reg.STEP_STEP_CTL 0 && s.field (mPage .boot) Reg.BOOT_BOOT_STS 0 4 == 9 &&
  (st == 0 || st == 7 || st == 4) && (List.range 4).all s.quarterAtBoundary && s.train.mends.isEmpty &&
  s.train.takeUp.all (fun t => t.layers.isEmpty && t.want.isEmpty)

/-- The eight bins of one histogram ID over the module's sorters, saturating at 48 bits (R163). -/
def State.binTotal (s : State) (id b : Nat) : Nat :=
  min (2 ^ 48 - 1) ((List.range 8).foldl (fun t k => t + s.bin (k / 2) (k % 2) id b) 0)

/-- The step record of the closing step (R163). -/
def State.stepRecord (s : State) : List Byte :=
  let m := mPage .step
  let ids := (List.range 4096).filter (fun i => (s.compute.bins.map (fun e => e.1 / 68 % 4096)).contains i)
  leBytes 8 s.attempt ++ leBytes 8 s.committed ++ leBytes 8 s.podCount ++ leBytes 4 (s.num m Reg.STEP_VERDICT) ++
  leBytes 4 (s.num m Reg.STEP_VNORM) ++ leBytes 4 (s.num m Reg.STEP_CLIP) ++ leBytes 4 ids.length ++
  leBytes 4 (192 + 552 * ids.length) ++ List.replicate 20 0 ++
  (List.range 8).flatMap (fun p =>
    leBytes 8 (s.num64 m (Reg.STEP_PTp_START_LO + 16 * p) (Reg.STEP_PTp_START_HI + 16 * p)) ++
    leBytes 8 (s.num64 m (Reg.STEP_PTp_END_LO + 16 * p) (Reg.STEP_PTp_END_HI + 16 * p))) ++
  ids.flatMap (fun i => leBytes 4 i ++ leBytes 4 0 ++ (List.range 68).flatMap (fun b => leBytes 8 (s.binTotal i b)))

/-- Write the step record into its ring, or drop it (R163). -/
def State.writeStepRecord (s : State) : State :=
  let m := mPage .step
  let log := s.field m Reg.STEP_HREC_CFG 0 5
  if log = 0 then s
  else
    let r := s.stepRecord
    let base := s.num64 m Reg.STEP_HREC_BASE_LO Reg.STEP_HREC_BASE_HI
    let head := s.num m Reg.STEP_HREC_HEAD
    let tail := s.num m Reg.STEP_HREC_TAIL
    let used := (tail + 2 ^ 32 - head) % 2 ^ 32
    if 2 ^ log < used + r.length ∨ !populated base (2 ^ log) then (s.addSat m Reg.STEP_HREC_DROPS 1).raise m 2
    else (s.ringWrite base (2 ^ log) tail r).addWrap m Reg.STEP_HREC_TAIL r.length

/-- A physical triad that begins to serve a slot, or another slot, restarts: its gradient arrays count tiles from 0, with kind 0,
and retain nothing (R80). -/
def State.restartTriad (s : State) (q p : Nat) : State :=
  [1, 2].foldl (fun s a =>
    (s.setArray q p a { s.array q p a with kinds := 0, keepA := [], keepB := [] }).setNum (qPage .array q p)
      (Reg.ARRAY_TILES_DONE + 0x40 * a) 0) s

/-- Apply the slot map of a quarter, which darn stores (R42, R398). -/
def State.applySlotMap (s : State) (q : Nat) : State :=
  let p := qPage .tslot q 0
  let slots := List.range 30
  let nexts := slots.map (fun n => s.field p (Reg.TSLOT_SLOTn + 4 * n) 8 5)
  let changed := slots.any (fun n => s.field p (Reg.TSLOT_SLOTn + 4 * n) 0 5 != s.field p (Reg.TSLOT_SLOTn + 4 * n) 8 5)
  if nexts.eraseDups.length = 30 ∧ nexts.all (fun t => !s.bit p Reg.TSLOT_FAILED_MAP t) then
    let s := slots.foldl (fun s n =>
      if s.physOf q n = nexts.getD n 0 then s
      else (s.restartTriad q (nexts.getD n 0)).setField p (Reg.TSLOT_SLOTn + 4 * n) 0 5 (nexts.getD n 0)) s
    let spare := (List.range 32).foldl (fun m t => if nexts.contains t then m else m + 2 ^ t) 0
    let map := slots.foldl (fun m n => mapSet (fun _ => 0) m (32 * q + n) (nexts.getD n 0)) s.boot.slotMap
    (({ s with boot := { s.boot with slotMap := map } } : State).setNum p Reg.TSLOT_SPARE_MAP spare).raiseIf changed p 1
  else s.raise p 0

/-- What the boundary resets (R145 step 4, R181, R187, R188, R459). -/
def State.boundaryReset (s : State) : State :=
  let m := mPage .step
  let s := (List.range 4).foldl (fun s q => s.setCounter q 4092 0) s
  let s := (List.range 8).foldl (fun s p => (s.setNum64 m (Reg.STEP_PTp_START_LO + 16 * p) (Reg.STEP_PTp_START_HI + 16 * p)
    0).setNum64 m (Reg.STEP_PTp_END_LO + 16 * p) (Reg.STEP_PTp_END_HI + 16 * p) 0) s
  let s := ((s.setNum m Reg.STEP_VERDICT 0).setNum m Reg.STEP_VNORM 0).setNum m Reg.STEP_CLIP 0x3F800000
  let s := (s.setBit m Reg.STEP_STEP_STS 4 false).setBit m Reg.STEP_STEP_CTL 1 false
  let s := (s.setNum (mPage .opt) Reg.OPT_PROGS_DONE 0)
  let s := (List.range 4).foldl (fun s q => s.setNum (mPage .exp) (Reg.EXP_Qq_CHG + 4 * q) 0) s
  let t := s.train
  { s with
    compute := { s.compute with failing := [], bins := [] }
    train := { t with quarters := [], kids := [], sentUp := false, triadFail := false, aborted := false, mended := false,
                      prepared := none, prepKids := [], prepSent := false, commit := none, stage := .none, present := 0,
                      nz := 0, buckets := [], layers := [], digestKids := [], digestSent := false, copies := [],
                      outOfDigest := [], bucketKids := [], wrote := [], exceeds := [] } }

/-- EXP_CTL.ENABLE takes effect at the boundary of attempt a (R181, R183). -/
def State.applyExport (s : State) (a : Nat) : State :=
  let e := mPage .exp
  let on := s.bit e Reg.EXP_EXP_CTL 0
  let s' := s.setBit e Reg.EXP_EXP_STS 0 on
  if on && !s.exportActive then
    (List.range 4).foldl (fun s q => s.setNum64 e (Reg.EXP_Qq_NEXT_LO + 8 * q) (Reg.EXP_Qq_NEXT_HI + 8 * q) a) s'
  else s'

/-- CCLK from the acceptance of a step boundary to the start of its FWD timer (R330, R345). -/
def boundaryCclk : Nat := 28800

/-- The FWD timer starts at the end of the boundary's path time (R145, R345). -/
def State.startForward (s : State) : State :=
  s.setNum64 (mPage .step) Reg.STEP_PTp_START_LO Reg.STEP_PTp_START_HI (s.podCount + boundaryCclk)

/-- No descriptor of the new step is fetched before the boundary is over (R145, R345); exempt queues run on (R144). -/
def State.holdFetches (s : State) : State :=
  { s with compute := { s.compute with queues := s.compute.queues.map (fun e =>
      if s.exempt (e.1 / 256) (e.1 % 256) then e
      else (e.1, { e.2 with nextFetch := max e.2.nextFetch (s.now + 4 * boundaryCclk) })) } }

/-- The boundary's actions in order (R145, R321, R458); a quarter that is SHORT makes the module report first (R43). -/
def State.boundary (s : State) : State :=
  let s := if s.stepState = 0 then s else s.watchEcc
  let s := if (List.range 4).any s.short then s.reportLost 2 else s
  let s := if s.stepState = 0 then s else s.writeStepRecord
  let s := s.loadScales
  let r := mPage .rng
  let s := (s.setReg r Reg.RNG_SEED_LO (s.reg r Reg.RNG_SEED_NEXT_LO)).setReg r Reg.RNG_SEED_HI (s.reg r Reg.RNG_SEED_NEXT_HI)
  let s := (List.range 4).foldl State.applySlotMap s
  let s := s.boundaryReset
  let a := (s.attempt + 1) % 2 ^ 64
  let s := (s.setNum64 (mPage .step) Reg.STEP_ATTEMPT_LO Reg.STEP_ATTEMPT_HI a).mirrorCounts
  let s := (s.applyExport a).tickAll 4095
  let s := { s with coll := { s.coll with readies := s.coll.readies.filter (fun e => e.2.attempt == a % 65536) } }
  let s := (List.range 4).foldl State.darnStops s
  (((s.enter 1).startForward).holdFetches).beginRound

/-! ## The verdict (R147 to R149, R201) -/

/-- Combine two verdict records (R148). -/
def VRec.add (a b : VRec) : VRec :=
  { nf := a.nf || b.nf, force := a.force || b.force, contrib := a.contrib + b.contrib
    sumsq := toF32 (fAdd (ofF32 a.sumsq) (ofF32 b.sumsq)) }

/-- The module's local record once every quarter has formed its own (R201). -/
def Train.localRec (t : Train) : Option VRec :=
  let r := (List.range 4).filterMap (fun q => (t.quarters.find? (fun e => e.1 == q)).map Prod.snd)
  match r with
  | a :: b :: c :: d :: _ => some { (((a.add b).add c).add d) with contrib := 1 }
  | _ => none

/-- The first VERDICT operation ends the backward pass (R33, R140, R141). -/
def State.enterVerdict (s : State) : State :=
  if s.stepState ≠ 1 then s
  else
    let s := s.mergeAmaxTables
    let s := if s.phaseEnded 0 then s.phaseEnd 1 else s.phaseEnd 0
    (s.phaseStart 2).enter 2

/-- Is a number finite? -/
def Num.isFinite (x : Num) : Bool := !x.isNan && !x.isInf

/-- The lead's decision: VERDICT, VNORM and CLIP (R148). -/
def decideVerdict (vmode : Nat) (skipLimit clipLimit : Word) (r : VRec) : Nat × Word × Word :=
  let v := fSqrt (ofF32 r.sumsq)
  let sl := ofF32 skipLimit
  let cl := ofF32 clipLimit
  let pos (x : Num) : Bool := Num.lt .zero x
  let nonfinite := vmode != 1 && r.nf
  let normNan := vmode != 0 && !v.isFinite
  let exceeds := vmode != 0 && v.isFinite && pos sl && sl.lt v
  let skip := r.force || nonfinite || normNan || exceeds
  let clip := if !skip && vmode != 0 && pos cl && cl.lt v then toF32 (fDiv cl v) else 0x3F800000
  let b (x : Bool) (i : Nat) : Nat := if x then 2 ^ i else 0
  ((if skip then 2 else 1) + b r.force 4 + b nonfinite 5 + b normNan 6 + b exceeds 7, toF32 v, clip)

/-- Every running collective fails with 0x21 (R199). -/
def State.failCollectives (s : State) : State :=
  let s := s.coll.ops.foldl (fun s o => s.failRuntime o.q 153 o.seq 0x21) s
  if s.coll.ops.isEmpty then s else { s with coll := { s.coll with ops := [] } }.startCheck s.attempt

/-- Record the closing of the step for SHIP_STEP (R155, R183); the images written become unshipped (R182). -/
def State.addClosed (s : State) (skip : Bool) (time : Nat) : State :=
  let t := s.train
  let parity := s.committed % 2
  let c : Closed :=
    { attempt := s.attempt, committed := s.committed, time := time, skip := skip, active := s.exportActive,
      parity := parity
      chg := (List.range 4).map (fun q => s.num (mPage .exp) (Reg.EXP_Qq_CHG + 4 * q))
      exceeds := (List.range 4).map (fun q => t.exceeds.contains q) }
  { s with train := { t with closed := t.closed ++ [c]
                             images := if skip then t.images else (t.images ++ t.wrote.map (fun q => 2 * q + parity)).eraseDups } }

/-- A VERDICT that CS0 of quarter q would start next is refused from GO on (R150, log entry 26). -/
def State.refuseVerdict (s : State) (q : Nat) : State :=
  let x := s.queue q 153
  let i := x.window.findIdx (fun w => w.status == .waiting && dOp w.desc == 3)
  match x.window[i]?, x.halt with
  | some w, none => s.refuseStart q 153 i 0x08 w false
  | _, _ => s

/-- The VERDICTs that wait when GO or SKIPPING begins are refused (R150). -/
def State.refuseVerdicts (s : State) : State := (List.range 4).foldl State.refuseVerdict s

/-- Enter SKIPPING: the step closes as skipped (R151, R160). -/
def State.skipStep (s : State) : State :=
  let m := mPage .step
  let s := (s.histIds.foldl (fun s h => s.settleHist false h) s).enter 4
  let s := ((s.addSat m Reg.STEP_SKIPPED 1).mirrorCounts).addClosed true 0
  let s := ((s.tickAll 4093).raise m 0).skipRound
  (s.compute.queues.foldl (fun s e =>
    if s.exempt (e.1 / 256) (e.1 % 256) then s else s.skipWaiting (e.1 / 256) (e.1 % 256)) s).refuseVerdicts

/-- What an aborted step does beside an ordinary skip (R452): running collectives fail and are discarded, and so are the
descriptors that failed at runtime. -/
def State.abortStep (s : State) : State :=
  let s := { s with train := { s.train with aborted := true } }
  let s := s.failCollectives
  s.compute.queues.foldl (fun s e => if e.2.halt == some .runtime || (s.queue (e.1 / 256) (e.1 % 256)).halt == some .runtime then
    s.resume (e.1 / 256) (e.1 % 256) else s) s

/-- Act on a verdict for an ATTEMPT (R148, R149, R452). -/
def State.applyVerdict (s : State) (attempt verdict : Nat) (vnorm clip : Word) : State :=
  let m := mPage .step
  if attempt ≠ s.attempt then (s.setBit m Reg.STEP_STEP_STS 4 true).reportLost 6
  else if s.stepState ≠ 1 ∧ s.stepState ≠ 2 then s
  else
    let inRun := s.stepState == 1
    let s := s.enterVerdict
    let s := ((s.setNum m Reg.STEP_VERDICT verdict).setReg m Reg.STEP_VNORM vnorm).setReg m Reg.STEP_CLIP clip
    let s := (s.tickAll 4094).phaseEnd 2
    if verdict % 4 = 1 then (s.enter 3).refuseVerdicts
    else
      let abort := bitAt verdict 4 && (inRun || s.train.mended)
      let s := s.skipStep
      if abort then s.abortStep else s

/-- Send the verdict down the tree and act on it (R201). -/
def State.sendVerdict (s : State) (v : Nat × Word × Word) : State :=
  (s.treeDown s.treeHdr (.verdictDown v.1 v.2.1 v.2.2)).applyVerdict s.attempt v.1 v.2.1 v.2.2

/-- Is a site and chip a child of this module in the tree? -/
def State.isChild (s : State) (id : Nat) : Bool := s.treeChildren.any (fun i => s.neigh i == id)

/-- Has every child been heard from? -/
def State.heard (s : State) (from_ : List Nat) : Bool := s.treeChildren.all (fun i => from_.contains (s.neigh i))

/-- Move the verdict up the tree once this module and its children have their records; the lead decides when every module
of the pod has contributed (R148, R201). -/
def State.climbVerdict (s : State) : State :=
  let t := s.train
  match (if s.isSpare && s.isLead then some { nf := false, force := false, contrib := 0, sumsq := 0 } else t.localRec) with
  | none => s
  | some own =>
    if !s.heard (t.kids.map Prod.fst) || t.sentUp then s
    else
      let r := (t.kids.filter (fun e => s.isChild e.1)).foldl (fun a e => a.add e.2) own
      let m := mPage .step
      if s.isLead then
        if r.contrib = s.podModules then
          let v := decideVerdict (min 2 (s.field m Reg.STEP_STEP_CTL 2 2)) (s.reg m Reg.STEP_SKIP_LIMIT)
            (s.reg m Reg.STEP_CLIP_LIMIT) r
          let s := s.sendVerdict v
          if bitAt v.1 5 then s.startCheck s.attempt else s
        else s
      else
        { s with train := { t with sentUp := true } }.treeUp s.treeHdr (.verdictUp r.nf r.force r.contrib r.sumsq)

/-- The running sum of a norm table and its NF bit (R146, R147): `len` bytes of split pairs. -/
def State.normTable (s : State) (a len : Nat) : Num × Bool :=
  (List.range (len / 4)).foldl (fun r i =>
    let e := splitValue (s.readNat (a + 4 * i) 2) (s.readNat (a + 4 * i + 2) 2)
    let bad := s.linePoisoned (a + 4 * i)
    let e := if bad then .nan else e
    let sum := fAdd r.1 e
    (sum, r.2 || !e.isFinite || !sum.isFinite)) (.fin false 0 0, false)

/-! ## Commit (R154 to R161, R464, R465) -/

/-- Has a UE queue or CS0 finished its part of the step: no gradient work in its window, and its ring at the section's
end (R154)? -/
def State.partDone (s : State) (q n : Nat) : Bool :=
  let x := s.queue q n
  !x.window.any (fun w => n != 153 || tagClass (dw w.desc 2) == 2) && x.halt.isNone &&
  (x.occupancy == 0 || (match x.control with
    | some d => df d 0 4 4 == 0 && df d 1 0 12 == 4095 && s.waitUnmet q n
    | none => false))

/-- Copy one gathered lane out of staging into its weight pages: every line that this module does not own (R155, R193). -/
def State.copyStaged (s : State) (b : Bucket) : State :=
  let p := s.plan b.q (dw b.desc 6)
  let lines := dw b.desc 5 / 64
  (gaps 0 lines (s.ownedAt (planDims p) s.ringPos lines)).foldl (fun s g =>
    s.memWrite (some commitOwner) (dq b.desc 3 + 64 * g.1) (s.readMarked (p.stage + 64 * g.1) (64 * (g.2 - g.1)))) s

/-- A poisoned line of still counts is written with the lead's counts, which are this module's own, since every module counts
the same bitmaps (R155, R463, log entry 74). -/
def State.mendStill (s : State) (l : Nat) : State :=
  let a := reservedBase + 0x400000 + 64 * (l / 32)
  if s.readPoisoned a 64 then (s.noteRead a 64).memPutBytes none a (s.readBytes a 64) else s

/-- Still-layer counters after a commit (R161). -/
def State.stillLayers (s : State) (present nz : Nat) : State :=
  let m := mPage .step
  let th := s.field m Reg.STEP_STILL_THRESH 0 16
  if th = 0 then s
  else
    ((List.range 4096).filter (fun l => bitAt present l)).foldl (fun s l =>
      let a := reservedBase + 0x400000 + 2 * l
      let s := s.mendStill l
      if bitAt nz l then s.ownWrite a 2 0
      else
        let old := s.readNat a 2
        let c := min 65535 (old + 1)
        let s := s.ownWrite a 2 c
        if c = th ∧ old ≠ th then (s.setNum m Reg.STEP_STILL_LAST l).raise m 1 else s) s

/-- The digest of an entry's region (R132, R155). -/
def State.layerDigest (s : State) (i : Nat) : Nat :=
  let e := s.layerEntry i
  (digest 0 (s.readBytes e.1 (65536 * e.2.1))).toNat

/-- Enter CLOSED (R155). -/
def State.closeStep (s : State) : State :=
  ({ s with train := { s.train with stage := .none } }.phaseEnd 6).enter 7

/-- Merge digest lists (R464): counts of equal pairs add, the lower holder stays, and the four largest counts of a layer. -/
def mergeDigests (a b : List LayerEntry) : List LayerEntry :=
  let all := b.foldl (fun l e =>
    if l.any (fun x => x.layer == e.layer && x.digest == e.digest) then
      l.map (fun x => if x.layer = e.layer ∧ x.digest = e.digest then
        { x with count := x.count + e.count, holder := min x.holder e.holder } else x)
    else l ++ [e]) a
  let ix := all.zipIdx
  (ix.filter (fun e => decide ((ix.filter (fun x => x.1.layer == e.1.layer &&
    decide (e.1.count < x.1.count ∨ (e.1.count = x.1.count ∧ x.2 < e.2)))).length < 4))).map Prod.fst

/-- The lead's comparison (R464). -/
def compareDigests (l : List LayerEntry) : List MajorityEntry :=
  ((l.map (fun e : LayerEntry => e.layer)).eraseDups).map (fun k =>
    let mine := l.filter (fun e => e.layer == k)
    let total := mine.foldl (fun n e => n + e.count) 0
    match mine.find? (fun e => decide (total < 2 * e.count)) with
    | some e => { layer := k, split := false, holder := e.holder, digest := e.digest }
    | none => { layer := k, split := true, holder := 0, digest := 0 })

/-- Act on the lead's comparison (R465): a module in the minority copies the layer; any other closes, but the lead, which
waits for the minorities. -/
def State.applyDigests (s : State) (l : List MajorityEntry) : State :=
  if s.train.stage ≠ .digests then s
  else
    let wrong := s.train.layers.zipIdx.filterMap (fun e =>
      match l.find? (fun m => m.layer == e.1.layer && !m.split) with
      | some m => if m.digest = e.1.digest then none
        else some { index := e.2, layer := e.1.layer, holder := some m.holder, digest := some m.digest : LayerCopy }
      | none => none)
    let s := { s with train := { s.train with copies := wrong } }
    if wrong.isEmpty && (!s.isLead || s.train.outOfDigest.isEmpty) then s.closeStep else s

/-- Move layer digests up the tree; the lead compares and sends the majority down (R464). -/
def State.climbDigests (s : State) : State :=
  let t := s.train
  if t.stage ≠ .digests ∨ t.digestSent ∨ !s.heard (t.digestKids.map Prod.fst) then s
  else
    let l := (t.digestKids.filter (fun e => s.isChild e.1)).foldl (fun a e => mergeDigests a e.2) t.layers
    if s.isLead then
      let m := compareDigests l
      let odd := l.flatMap (fun e => match m.find? (fun x => x.layer == e.layer && !x.split) with
        | some x => if x.digest = e.digest then [] else List.replicate e.count e.layer
        | none => [])
      let s := { s with train := { t with digestSent := true, majority := m, outOfDigest := odd, minority := [] } }
      let s := (m.filter (·.split)).foldl (fun s e => s.fault 0x08 0 e.layer 0 0 7) s
      let s := if odd.isEmpty && !m.any (·.split) then s else s.startCheck s.attempt
      (s.treeDown s.treeHdr (.digestDown m)).applyDigests m
    else { s with train := { t with digestSent := true } }.treeUp s.treeHdr (.digestUp l)

/-- After the copy out of staging: histories, still counters, counts, and the digests or CLOSED (R155). -/
def State.finishCommit (s : State) : State :=
  match s.train.commit with
  | none => s
  | some c =>
    if s.train.stage ≠ .copying ∨ s.ownerWaits commitOwner then s
    else
      let m := mPage .step
      let s := s.histIds.foldl (fun s h => s.settleHist true h) s
      let s := s.stillLayers c.present c.nz
      let s := (s.setNum64 m Reg.STEP_COMMITTED_LO Reg.STEP_COMMITTED_HI ((s.committed + 1) % 2 ^ 64)).mirrorCounts
      let s := (s.tickAll 4093).addClosed false c.time
      let every := s.field m Reg.STEP_DIGEST_EVERY 0 16
      if every ≠ 0 ∧ s.committed % every = 0 then
        let own := (List.range s.layerCount).map (fun i =>
          { layer := (s.layerEntry i).2.2, count := 1, holder := s.selfId, digest := s.layerDigest i : LayerEntry })
        { s with train := { s.train with stage := .digests, layers := own } }.climbDigests
      else s.closeStep

/-- Act on COMMIT (R155, R156): once for an attempt. -/
def State.applyCommit (s : State) (attempt time present nz : Nat) : State :=
  if attempt ≠ s.attempt ∨ s.stepState ≠ 5 then s
  else
    let s := { (s.enter 6) with train := { s.train with
      commit := some { time := time, present := present, nz := nz }, stage := .copying } }
    ((s.train.buckets.filter (·.gather)).foldl State.copyStaged s).finishCommit

/-- Move PREPARED up the tree; the lead sends COMMIT when every module of the pod is PREPARED (R154, R155, R201). -/
def State.climbPrepared (s : State) : State :=
  let t := s.train
  match t.prepared with
  | none => s
  | some own =>
    if t.prepSent ∨ !s.heard (t.prepKids.map (·.child)) then s
    else
      let r := (t.prepKids.filter (fun e => s.isChild e.child)).foldl (fun a e =>
        { a with count := a.count + e.count, present := a.present ||| e.present, nz := a.nz ||| e.nz }) own
      if s.isLead then
        if r.count = s.podModules then
          ({ s with train := { t with prepSent := true } }.treeDown s.treeHdr (.commitDown s.podCount r.present r.nz)).applyCommit
            s.attempt s.podCount r.present r.nz
        else s
      else { s with train := { t with prepSent := true } }.treeUp s.treeHdr (.preparedUp r.count r.present r.nz)

end Sys2Proof.Machine
end

