-- ==== Sys2Proof/Machine/Steps.lean ====
section
/-! DEFINITION. The commands of the step: boundary, verdict, PREPARED, COMMIT, digests and leases (R141 to R160, R201, R464, R465). -/

namespace Sys2Proof.Machine

/-- STEP_BOUNDARY (R144, R145). -/
def execStepBoundary (t : Nat) (s : State) : Host.Outcome State Fault Refusal :=
  let s := s.advance t
  if s.boundaryReady then settled s.boundary else settled s

/-- VERDICT_OP (R146, R147, R150, R194, R201): CS0 of quarter q forms its quarter record from the norm table; once every
quarter has one, the local record starts its climb. A table that CS0 cannot reach fails at runtime. It waits while four
operations run, and from GO on it is refused. -/
def execVerdictOp (t q : Nat) (flips : List (Nat × Nat)) (s : State) : Host.Outcome State Fault Refusal :=
  let s := (s.advance t).upset flips
  match s.startable q 153 with
  | none => done s
  | some (i, w) =>
    let d := w.desc
    if dOp d ≠ 3 ∨ s.stepState = 0 ∨ 4 ≤ (s.coll.ops.filter (fun o => o.q == q)).length then done s
    else if 2 < s.stepState then done (s.refuseVerdict q)
    else
      let s := (s.startEntry q 153 i w).enterVerdict
      if !populated (dq d 3) (dw d 5) then done (((s.noteAddrError (dq d 3)).failRuntime q 153 w.seq 0x20).startCheck s.attempt)
      else
        let r := s.normTable (dq d 3) (dw d 5)
        let poison := s.readPoisoned (dq d 3) (dw d 5)
        let s := (s.noteReadBy (some (q, 0)) (dq d 3) (dw d 5)).raiseIf poison (qPage .cs q 0) 3
        let rec_ : VRec := { nf := r.2, force := s.bit (mPage .step) Reg.STEP_STEP_CTL 1 || s.train.triadFail, contrib := 1,
                             sumsq := toF32 r.1 }
        let qs : List (Nat × VRec) := s.train.quarters.filter (fun e => e.1 != q) ++ [(q, rec_)]
        let s := { s with train := { s.train with quarters := qs } }
        done ((s.finishEntry q 153 i s.now).climbVerdict)

/-- VERDICT_UP (R148, R201): a child's record is kept, and the combination goes up once it is complete. A record for
another attempt is not used. -/
def execVerdictUp (t : Nat) (h : RxHdr) (th : TreeHdr) (nf force : Bool) (contrib : Nat) (sumsq : Word) (s : State) :
    Host.Outcome State Fault Refusal :=
  let r := (s.advance t).receiveTree h th (.verdictUp nf force contrib sumsq)
  let s := r.1
  if !r.2 ∨ th.attempt ≠ s.attempt then done s
  else
    let i := th.origin
    let k : List (Nat × VRec) :=
      s.train.kids.filter (fun e => e.1 != i) ++ [(i, { nf := nf, force := force, contrib := contrib, sumsq := sumsq })]
    done { s with train := { s.train with kids := k } }.climbVerdict

/-- VERDICT_DOWN (R148, R149, R201, R452): forwarded to the children, then acted on. -/
def execVerdictDown (t : Nat) (h : RxHdr) (th : TreeHdr) (verdict : Nat) (vnorm clip : Word) (s : State) :
    Host.Outcome State Fault Refusal :=
  let r := (s.advance t).receiveTree h th (.verdictDown verdict vnorm clip)
  if !r.2 then done r.1
  else done ((r.1.treeDown th (.verdictDown verdict vnorm clip)).applyVerdict th.attempt verdict vnorm clip)

/-- MODULE_PREPARED (R154): in GO, once its updates, reductions and gathers have signalled, the module enters PREPARED and
reports. -/
def execModulePrepared (t : Nat) (s : State) : Host.Outcome State Fault Refusal :=
  let s := s.advance t
  let ready := s.stepState == 3 && (List.range 4).all (fun q =>
    s.partDone q 153 && (List.range 4).all (fun u => s.partDone q (160 + u)))
  if ready then
    let s := ((s.finishRound).enter 5).phaseStart 6
    let p : PrepRec := { child := s.selfId, count := if s.isSpare then 0 else 1, present := s.train.present, nz := s.train.nz }
    settled { s with train := { s.train with prepared := some p } }.climbPrepared
  else settled s

/-- PREPARED_UP (R154, R201). -/
def execPreparedUp (t : Nat) (h : RxHdr) (th : TreeHdr) (count present nz : Nat) (s : State) :
    Host.Outcome State Fault Refusal :=
  let r := (s.advance t).receiveTree h th (.preparedUp count present nz)
  let s := r.1
  if !r.2 ∨ th.attempt ≠ s.attempt then done s
  else
    let i := th.origin
    let k : List PrepRec := s.train.prepKids.filter (fun e => e.child != i) ++ [{ child := i, count := count, present := present, nz := nz }]
    done { s with train := { s.train with prepKids := k } }.climbPrepared

/-- COMMIT_DOWN (R155, R156, R201): forwarded to the children, then acted on. -/
def execCommitDown (t : Nat) (h : RxHdr) (th : TreeHdr) (time present nz : Nat) (s : State) :
    Host.Outcome State Fault Refusal :=
  let r := (s.advance t).receiveTree h th (.commitDown time present nz)
  if !r.2 then settled r.1
  else settled ((r.1.treeDown th (.commitDown time present nz)).applyCommit th.attempt time present nz)

/-- DIGEST_UP (R464). -/
def execDigestUp (t : Nat) (h : RxHdr) (th : TreeHdr) (entries : List LayerEntry) (s : State) :
    Host.Outcome State Fault Refusal :=
  let r := (s.advance t).receiveTree h th (.digestUp entries)
  let s := r.1
  if !r.2 ∨ th.attempt ≠ s.attempt then done s
  else
    let i := th.origin
    let k : List (Nat × List LayerEntry) := s.train.digestKids.filter (fun e => e.1 != i) ++ [(i, entries)]
    done { s with train := { s.train with digestKids := k } }.climbDigests

/-- DIGEST_DOWN (R464, R465): forwarded to the children, then acted on. -/
def execDigestDown (t : Nat) (h : RxHdr) (th : TreeHdr) (entries : List MajorityEntry) (s : State) :
    Host.Outcome State Fault Refusal :=
  let r := (s.advance t).receiveTree h th (.digestDown entries)
  if !r.2 ∨ th.attempt ≠ r.1.attempt then done r.1
  else done ((r.1.treeDown th (.digestDown entries)).applyDigests entries)

/-- A minority's matching copy, at the lead (R462, R465): it held another digest at the comparison; the lead closes when none is
left. -/
def State.minorityMended (s : State) (id layer : Nat) : State :=
  let s := { s with train := { s.train with outOfDigest := s.train.outOfDigest.erase layer
                                            minority := (s.train.minority ++ [id]).eraseDups } }
  if s.train.stage = .digests ∧ s.train.digestSent ∧ s.train.outOfDigest.isEmpty ∧ s.train.copies.isEmpty then s.closeStep
  else s

/-- A copied layer of a minority is digested again (R465). -/
def State.checkCopy (s : State) (c : LayerCopy) : State :=
  let rest := s.train.copies.filter (fun x => x.index != c.index)
  if some (s.layerDigest c.index) = c.digest then
    let s := { s with train := { s.train with copies := rest } }
    let s := (s.addSat (mPage .fault) Reg.FAULT_REPLICA_MENDS 1).fault 0x07 0 c.layer s.selfId 0 6
    let s := s.report 3 s.selfId c.layer (fun s => s.minorityMended s.selfId c.layer)
    if rest.isEmpty && s.train.stage == .digests && !s.isLead then s.closeStep else s
  else if 2 ≤ c.copies + 1 then { s with train := { s.train with copies := rest } }.reportLost 6
  else { s with train := { s.train with copies := rest ++ [{ c with copies := c.copies + 1 }] } }

/-- The queue number of reads of outer state from a counterpart (R287). -/
def outerQueue : Nat := 252

/-- Copy n bytes of memory, under leases. -/
def State.copyBytes (s : State) (src dst n : Nat) : State := s.memPutBytes none dst (memBytes s.mem src n)

/-- Set n bytes of memory to zero, under leases. -/
def State.zeroBytes (s : State) (a n : Nat) : State := s.memPutBytes none a (List.replicate n 0)

/-- The global address of a local address at this module's counterpart in a site (R268, R273). -/
def State.counterpart (s : State) (site a : Nat) : Nat :=
  let pos := s.num (mPage .coll) Reg.COLL_POS
  (site * 2 ^ 15 + (bitsOf pos 0 5 + 32 * bitsOf pos 8 5 + 1024 * bitsOf pos 16 5)) * 2 ^ 45 + a

/-- Take-up begins to take the outer state (R287): from the counterpart at the lowest-numbered LINKED site, or, with none, the
anchors from the weights, and zeros. -/
def State.takeOuter (s : State) (t : TakeUp) : State :=
  match s.linkedSites.head? with
  | none =>
    t.outer.foldl (fun s r =>
      (((s.copyBytes r.weights r.anchor r.bytes).copyBytes r.weights r.common r.bytes).zeroBytes r.momentum r.mbytes).zeroBytes
        r.residual r.bytes) s
  | some i =>
    let want := t.outer.zipIdx.flatMap (fun e =>
      [(3 * e.2, e.1.anchor, e.1.bytes), (3 * e.2 + 1, e.1.common, e.1.bytes), (3 * e.2 + 2, e.1.momentum, e.1.mbytes)])
    let s := { s with train := { s.train with takeUp := some { t with source := some i, want := want } } }
    want.foldl (fun s w => s.newSeg s.service outerQueue 0 w.1 .read 0 (.site (s.counterpart i w.2.1))
      (fun id => .readReq id w.2.2 (s.selfId * 2 ^ 45))) s

/-- Take-up is complete (R455): ADOPTED is raised. -/
def State.adopted (s : State) (t : TakeUp) : State := s.fault 0x0C 0 0 t.lost 0 10

/-- What take-up does once every layer has come (R287, R455): it takes the outer state, and ADOPTED is raised once it has that. -/
def State.takenUp (s : State) (t : TakeUp) : State :=
  if !t.layers.isEmpty then s
  else if t.outer.isEmpty then s.adopted t
  else if s.linkedSites.isEmpty then (s.takeOuter t).adopted t
  else s.takeOuter t

/-- Read k of the outer state has its answer (R287): it is written to the same local address; after the last one the residual is +0, and
COMMON_ROUND is the counterpart's. -/
def State.outerCame (s : State) (k : Nat) (bytes : List Byte) : State :=
  match s.train.takeUp with
  | none => s
  | some t =>
    match t.want.find? (fun w => w.1 == k) with
    | none => s
    | some w =>
      let s := s.memPutBytes none w.2.1 ((bytes ++ List.replicate (w.2.2 - bytes.length) 0).take w.2.2)
      let u := { t with want := t.want.filter (fun w => w.1 != k) }
      let s := { s with train := { s.train with takeUp := some u }
                        fabric := { s.fabric with segs := s.fabric.segs.filter (fun g => !(g.n == outerQueue && g.index == k)) } }
      if !u.want.isEmpty then s
      else
        let s := u.outer.foldl (fun s r => s.zeroBytes r.residual r.bytes) s
        (s.setNum (mPage .mig) Reg.MIG_COMMON_ROUND (mapGet (fun _ => 0) s.mig.commons (u.source.getD 0))).adopted u

/-- The copy of entry `index` of the layer table is in its place (R455, R465): a minority digests the layer again; an
adopter counts the layer as fetched. -/
def State.copied (s : State) (index : Nat) : State :=
  match s.train.copies.find? (fun c => c.index == index && c.holder.isSome) with
  | some c => s.checkCopy c
  | none =>
    match s.train.takeUp with
    | none => s
    | some u =>
      let u := { u with layers := u.layers.filter (fun c => c.index != index) }
      ({ s with train := { s.train with takeUp := some u } } : State).takenUp u

/-- Does the module copy entry `index` of the layer table from a holder? -/
def State.copies (s : State) (index : Nat) : Bool :=
  let mine (c : LayerCopy) : Bool := c.index == index && c.holder.isSome
  s.train.copies.any mine || s.train.takeUp.any (fun u => u.layers.any mine)

/-- The first number of a read of the outer state, above those of the layer table (R287, R461). -/
def outerIndex : Nat := 65536

/-- The copy of entry `index` of the layer table is written, unless the leases make it wait (R158, R455, R465). -/
def State.layerCame (s : State) (index : Nat) (bytes : List Byte) : State :=
  let e := s.layerEntry index
  let n := 65536 * e.2.1
  let bs := (bytes ++ List.replicate (n - bytes.length) 0).take n
  if !populated e.1 n ∨ !s.copies index ∨ s.ownerWaits (copyOwner index) then s
  else
    let s := s.memPutBytes (some (copyOwner index)) e.1 bs
    if s.ownerWaits (copyOwner index) then s else s.copied index

/-- REPLICA_MEND_DONE (R158, R287, R455, R465): the copy of entry `index` of the layer table from its holder arrives and is
written; the write waits on the leases. From `outerIndex` on, the answer of a read of the outer state arrives. `outer` gives an
adopter the placement of that state. -/
def execReplicaMendDone (t index : Nat) (bytes : List Byte) (outer : List OuterRange) (s : State) : Host.Outcome State Fault Refusal :=
  let s := s.advance t
  if outerIndex ≤ index then settled (s.outerCame (index - outerIndex) bytes)
  else
    let tr := { s.train with takeUp := s.train.takeUp.map (fun u => { u with outer := outer }) }
    settled (({ s with train := tr } : State).layerCame index bytes)

/-! ## Leases (R157 to R159) -/

/-- Is a write to the lease's range accepted by its stack and not yet complete (R159)? -/
def State.writesUnder (s : State) (n : Nat) : Bool :=
  let r := s.leaseRange n
  s.stackUnits.any (fun e => e.2.reqs.any (fun m => m.isWrite &&
    m.sent.any (fun a => !m.own || decide (s.mclk < a + m.path)) &&
    (match weightPages m.addr 64 with
     | some (p, f) => decide (p < r.2 ∧ r.1 < f)
     | none => false)))

/-- LEASE_GRANT (R159). -/
def execLeaseGrant (t n : Nat) (s : State) : Host.Outcome State Fault Refusal :=
  let s := s.advance t
  let l := s.lease n
  if n = 0 ∨ 240 < n ∨ !s.bit (mPage .lease) (leaseReg Reg.LEASE_Ln_CTL n) 0 ∨ l.granted ∨ s.writesUnder n then done s
  else
    let st := s.stepState
    done (s.setLease n { l with granted := true, mixed := st == 3 || st == 5 || st == 6, claimStep := s.committed % 65536 })

/-- The waiting writes that may be accepted: no held lease covers a page, and no earlier waiting write shares one (R158). -/
def acceptable (s : State) : List LeaseWrite → List LeaseWrite → Option (List LeaseWrite × LeaseWrite × List LeaseWrite)
  | _, [] => none
  | before, w :: after =>
    if s.leaseCovers w.addr w.bytes.length || before.any (fun b => sharePage b.addr b.bytes.length w.addr w.bytes.length) ||
        s.keptShares w.addr w.bytes.length (some w.since) then
      acceptable s (before ++ [w]) after
    else some (before, w, after)

/-- The first write of the schedulers that has been kept back as long as LEASE_WARN: its stack and itself. -/
def State.keptOld (s : State) (warn : Nat) : Option (Nat × MemReq) :=
  (s.stackUnits.filterMap (fun e => (e.2.reqs.find? (fun r => !r.stale && r.sent.isNone &&
    r.kept.any (fun k => decide (k + warn ≤ s.podCount)))).map (fun r => (e.1, r)))).head?

/-- LEASE_STALE (R158): a write that has waited LEASE_WARN counts raises LEASE_STALE once, and keeps waiting. What one
descriptor writes to one page at one time is one write. -/
def execLeaseStale (t : Nat) (s : State) : Host.Outcome State Fault Refusal :=
  let s := s.advance t
  let m := mPage .step
  let warn := s.num m Reg.STEP_LEASE_WARN
  let old (w : LeaseWrite) : Bool := !w.stale && decide (w.since + warn ≤ s.podCount)
  match s.leases.writes.find? old with
  | some w =>
    let page (o : LeaseWrite) : Option Nat := (weightPages o.addr o.bytes.length).map Prod.fst
    let one (o : LeaseWrite) : Bool :=
      o == w || (o.owner.isSome && o.owner == w.owner && o.since == w.since && page o == page w)
    let s := { s with leases := { s.leases with writes := s.leases.writes.map (fun o =>
      if one o then { o with stale := true } else o) } }
    done ((s.setNum m Reg.STEP_STALE_PAGE ((page w).getD 0)).raise m 3)
  | none =>
    match s.keptOld warn with
    | none => done s
    | some (k, r) =>
      let x := s.stack (k / 8) (k % 8)
      let s := s.setStack (k / 8) (k % 8) { x with reqs := replaceFirst (· == r) (fun r => { r with stale := true }) x.reqs }
      done ((s.setNum m Reg.STEP_STALE_PAGE (((weightPages r.addr 64).map Prod.fst).getD 0)).raise m 3)

end Sys2Proof.Machine
end

