-- ==== Sys2Proof/Machine/Update.lean ====
section
/-! DEFINITION. The update engines: program scalars, the optimizers, micro-ops, state stores, difference images and change lists (R166 to R182, R230, R462, R463). -/

namespace Sys2Proof.Machine

/-! ## Scalars (R172) -/

/-- β^t by square-and-multiply from the most significant set bit, in binary64 (R172). -/
def powBits (beta : Num) (t : Nat) : Nat → Num → Num
  | 0, p => p
  | k + 1, p =>
    let q := f64 (p.mul p)
    powBits beta t k (if bitAt t k then f64 (q.mul beta) else q)

/-- BC(β, t): binary64, then rounded to binary32 (R172). -/
def biasCorrection (beta : Num) (t : Nat) : Num :=
  let one : Num := .fin false 1 0
  let p := powBits beta t (Nat.log2 t) beta
  f32 (f64 (one.div (f64 (one.sub p))))

/-- Program scalars (R172) with the record's constants. -/
structure Scalars where
  c : Num
  lr : Num
  b1 : Num
  b2 : Num
  t : Num
  omb1 : Num
  omb2 : Num
  beta1 : Num
  beta2 : Num
  eps : Num
  lambda : Num
  deriving DecidableEq, Repr

/-- Address of the learning-rate entry that a program reads (R172). -/
def State.lrAddr (s : State) (p : ParamRec) : Nat := p.lrTable + 4 * (min (s.committed + 1) p.lrLen - 1)

/-- The scalars of a program whose learning-rate entry reads `lr` (R172). -/
def State.scalars (s : State) (p : ParamRec) (lr : Nat) (biasc : Bool) : Scalars :=
  let one : Num := .fin false 1 0
  let t := s.committed + 1
  let be1 := ofF32 p.beta1
  let be2 := ofF32 p.beta2
  { c := fMul (ofF32 (s.reg (mPage .step) Reg.STEP_CLIP)) (ofF32 p.gscale)
    lr := ofF32 (BitVec.ofNat 32 lr)
    b1 := if biasc then biasCorrection be1 t else one
    b2 := if biasc then biasCorrection be2 t else one
    t := f32 (.fin false t 0), omb1 := fSub one be1, omb2 := fSub one be2, beta1 := be1, beta2 := be2
    eps := ofF32 p.eps, lambda := ofF32 p.lambda }

/-! ## One element (R174 to R176) -/

/-- u and w1 of ADAMW from the moments (R174). -/
def adamWeight (k : Scalars) (w m1 vh : Num) : Num :=
  let u := fDiv (fMul m1 k.b1) (fAdd (fSqrt vh) k.eps)
  fSub w (fMul k.lr (fAdd u (fMul k.lambda w)))

/-- ADAMW on one element: w1, m1, v1 (R174). -/
def adamw (k : Scalars) (g w m v : Num) : Num × Num × Num :=
  let gh := fMul g k.c
  let m1 := fAdd (fMul k.beta1 m) (fMul k.omb1 gh)
  let v1 := fAdd (fMul k.beta2 v) (fMul k.omb2 (fMul gh gh))
  (adamWeight k w m1 (fMul v1 k.b2), m1, v1)

/-- SGDM on one element: w1 and m1 (R176). -/
def sgdm (k : Scalars) (g w m : Num) : Num × Num :=
  let m1 := fAdd (fMul k.beta1 m) (fMul g k.c)
  (fSub w (fMul k.lr (fAdd m1 (fMul k.lambda w))), m1)

/-! ## Micro-ops (R178 to R180) -/

/-- What one element's code has stored so far, by stream. -/
structure MicroState where
  f : List Num
  w : Option Num := none
  m : Option Num := none
  v : Option Num := none
  deriving DecidableEq, Repr

/-- Run one micro-op (R179). `ld` gives the streams' elements, `ks` the constants and `ls` the scalars by number. -/
def microStep (ld : Nat → Num) (ks ls : Nat → Num) (x : MicroState) (o : MicroOp) : MicroState :=
  let r (i : Nat) : Num := x.f.getD i .nan
  let put (v : Num) : MicroState := { x with f := x.f.set o.d v }
  let a := r o.a
  let b := r o.b
  match o.opc with
  | 0x01 => put (ld o.n)
  | 0x02 => if o.n = 1 then { x with w := some a } else if o.n = 2 then { x with m := some a } else { x with v := some a }
  | 0x03 => put (ks o.n)
  | 0x04 => put (ls o.n)
  | 0x08 => put (fAdd a b)
  | 0x09 => put (fSub a b)
  | 0x0A => put (fMul a b)
  | 0x0B => put (fDiv a b)
  | 0x0C => put (fFma a b (r o.c))
  | 0x0D => put (fSqrt a)
  | 0x0E => put (numMax a b)
  | 0x0F => put (numMin a b)
  | 0x10 => put a.magnitude
  | 0x11 => put a.negate
  | 0x12 => put (if a.isNan then .nan else if a.isZero then .zero else .fin a.sign 1 0)
  | 0x13 => put (if Num.lt .zero a then b else r o.c)
  | 0x14 => put (elem .exp a)
  | 0x15 => put (elem .log a)
  | _ => x

/-! ## State in SQ8e4 (R170, R463) -/

/-- What infinity counts as in the maximum of a block of binary32 values: the largest finite value. -/
def f32InfAmax : Num := .fin false (2 ^ 24 - 1) 104

/-- Row r of a state layout: its values, and the blocks that poison or a take-up resets to +0 (R170, R455, R463). -/
def State.stateRow (s : State) (fresh : Bool) (x rows cols r : Nat) : List Num × Nat :=
  let se := layoutElemStride cols
  let blocks := (List.range ((cols + 15) / 16)).map (fun b =>
    let ea := x + r * se + 16 * b
    let sa := x + rows * se + r * layoutScaleStride cols + b
    if fresh || s.readPoisoned ea 16 || s.readPoisoned sa 1 then (List.replicate 16 Num.zero, 1)
    else (decodeBlock .sq8e4 (s.readNat sa 1) (unpadded (cols - 16 * b) (unpackElems 8 16 (s.readNat ea 16))), 0))
  ((blocks.flatMap Prod.fst).take cols, blocks.foldl (fun n b => n + b.2) 0)

/-- What a program's stores have counted: saturated stores, NaN and saturation events, and held elements. -/
structure Tally where
  sat : Nat := 0
  satEvent : Bool := false
  nanEvent : Bool := false
  held : Nat := 0
  deriving DecidableEq, Repr

/-- Store row r of a state layout (R170): each block in LOCAL mode with HEADROOM 0. The scales of a row are written in
whole codewords, the bytes after the last of them as 0 (log entry 151). -/
def State.putStateRow (s : State) (owner : Nat × Nat × Nat) (x rows cols r : Nat) (vs : List Num) (rnd : Nat → Rnd)
    (y : Tally) : State × Tally :=
  let os := ((chunks 16 vs).zipIdx).map (fun p =>
    convertLocal .sq8e4 0 f32InfAmax (fun i => rnd (16 * p.2 + i)) (padTo 16 .zero p.1))
  let scales := os.flatMap (fun o => leBytes 1 o.scale)
  let s := s.memPutBytes (some owner) (x + r * layoutElemStride cols) (os.flatMap (fun o => leBytes 16 (packElems 8 o.codes)))
  let s := s.memPutBytes (some owner) (x + rows * layoutElemStride cols + r * layoutScaleStride cols)
    (padTo (16 * ((scales.length + 15) / 16)) 0 scales)
  (s, os.foldl (fun y o => { y with sat := y.sat + (o.exceeds.filter id).length, satEvent := y.satEvent || o.sat,
                                    nanEvent := y.nanEvent || o.nan }) y)

/-! ## Programs -/

/-- A program that runs: its descriptor's fields, its record, scalars and draw key. -/
structure Program where
  d : Desc
  prog : Nat
  p : ParamRec
  k : Scalars
  key : DrawKey
  fresh : Bool
  code : List MicroOp
  consts : List Byte
  deriving DecidableEq, Repr

/-- The gradient row n: values, and whether some element is nonzero (R154). -/
def State.gradRow (s : State) (g : Program) (n : Nat) : List Num × Bool :=
  let a := dq g.d 6
  if g.prog = 15 ∧ a = 0 then (List.replicate g.p.cols .zero, false)
  else
    let cs := s.row16 (a + n * g.p.gstride) g.p.cols
    (cs.map (fun c => match c with | none => .nan | some c => decodeElem (fmt16 (db g.d 0 9)) c),
     cs.any (fun c => match c with | none => true | some c => decide (c % 0x8000 ≠ 0)))

/-- The weight codes of row n, none where the line is poisoned. -/
def State.weightRow (s : State) (g : Program) (n : Nat) : List (Option Nat) :=
  if g.prog = 15 ∧ dq g.d 4 = 0 then List.replicate g.p.cols (some 0)
  else s.row16 (dq g.d 4 + n * g.p.wstride) g.p.cols

/-- What one element becomes: the weight (none: its stream is not stored), and the moments to store. -/
structure Elem where
  w : Option Num
  m : Option Num
  v : Option Num
  deriving DecidableEq, Repr

/-- CUSTOM code on one element (R178 to R180). -/
def customElem (g : Program) (x w m v : Num) : Elem :=
  let has (i : Nat) : Bool := dq g.d i != 0
  let ld (n : Nat) : Num := match n with
    | 0 => x
    | 1 => if has 4 then w else .zero
    | 2 => if has 8 then m else .zero
    | _ => if has 10 then v else .zero
  let ks (n : Nat) : Num := ofF32 (BitVec.ofNat 32 (numAt g.consts (4 * n) 4))
  let ls (n : Nat) : Num := [g.k.c, g.k.lr, g.k.b1, g.k.b2, g.k.t, g.k.omb1, g.k.omb2].getD n .nan
  let r := g.code.foldl (microStep ld ks ls) { f := List.replicate 16 .zero }
  let keep (b : Bool) (o : Option Num) : Option Num := if b then o else none
  { w := keep (has 4) r.w, m := keep (has 8) r.m, v := keep (has 10) r.v }

/-- The rounding of a moment store (R168, R173). -/
def momentRnd (g : Program) (i : Nat) : Rnd := if db g.d 0 10 then .sr (draw g.key i) else .rne

/-- Does a program write difference images (R181)? -/
def State.writesDiff (s : State) (g : Program) : Bool := s.exportActive && dq g.d 12 != 0

/-- Address of row n of the program's difference image (R181). -/
def State.diffRow (s : State) (g : Program) (n : Nat) : Nat :=
  dq g.d 12 + (s.committed + 1) % 2 * g.p.rows * g.p.wstride + n * g.p.wstride

/-- Write the difference words of row n (R181). -/
def State.putDiff (s : State) (owner : Nat × Nat × Nat) (g : Program) (n : Nat) (ws : List Nat) : State :=
  if s.writesDiff g then s.memPutBytes (some owner) (s.diffRow g n) (ws.flatMap (leBytes 2)) else s

/-- Store the weights of row n with their difference words (R173, R174, R177, R181); the answer marks the held
elements. -/
def State.putWeights (s : State) (owner : Nat × Nat × Nat) (g : Program) (n : Nat) (old : List (Option Nat))
    (ws : List Num) (y : Tally) : State × Tally × List Bool :=
  let hold := s.bit (mPage .opt) Reg.OPT_OPT_CTL 0
  let f := fmt16 (db g.d 0 8)
  let held := ws.map (fun w => hold && w.isNan)
  let cs := ws.zipIdx.map (fun p => convert16 f (.sr (draw g.key (4 * (n * g.p.cols + p.2)))) p.1)
  let row := dq g.d 4 + n * g.p.wstride
  let s := if held.any id then
      ((cs.zip held).zipIdx).foldl (fun s p =>
        if p.1.2 then s else s.memPutBytes (some owner) (row + 2 * p.2) (leBytes 2 p.1.1.code)) s
    else s.memPutBytes (some owner) row (cs.flatMap (fun c => leBytes 2 c.code))
  let s := s.putDiff owner g n (((cs.zip old).zip held).map (fun e => if e.2 then 0 else e.1.1.code ^^^ (e.1.2.getD 0)))
  let live := (cs.zip held).filter (fun e => !e.2)
  (s, { y with sat := y.sat + (live.filter (fun e => e.1.exceeds)).length, satEvent := y.satEvent || live.any (fun e => e.1.sat),
               nanEvent := y.nanEvent || live.any (fun e => e.1.nan),
               held := y.held + (held.filter id).length }, held)

/-- The old value where an element is held (R177). -/
def unlessHeld (held : List Bool) (new old : List Num) : List Num :=
  ((new.zip old).zip (held ++ List.replicate (new.length - held.length) false)).map (fun e => if e.2 then e.1.2 else e.1.1)

/-- One row of ADAMW, SGDM or CUSTOM. -/
def State.updateRow (s : State) (owner : Nat × Nat × Nat) (g : Program) (n : Nat) (y : Tally) : State × Tally × Nat × Bool :=
  let cols := g.p.cols
  let rows := g.p.rows
  let gr := s.gradRow g n
  let old := s.weightRow g n
  let ws := old.map (fun c => match c with | none => Num.nan | some c => decodeElem (fmt16 (db g.d 0 8)) c)
  let none_ : List Num × Nat := (List.replicate cols .zero, 0)
  let ms := if g.prog = 15 ∧ dq g.d 8 = 0 then none_ else s.stateRow g.fresh (dq g.d 8) rows cols n
  let vs := if g.prog = 3 ∨ (g.prog = 15 ∧ dq g.d 10 = 0) then none_ else s.stateRow g.fresh (dq g.d 10) rows cols n
  let out := ((gr.1.zip ws).zip (ms.1.zip vs.1)).map (fun e =>
    let x := e.1.1
    let w := e.1.2
    let m := e.2.1
    let v := e.2.2
    if g.prog = 15 then customElem g x w m v
    else if g.prog = 3 then let r := sgdm g.k x w m; { w := some r.1, m := some r.2, v := none : Elem }
    else let r := adamw g.k x w m v; { w := some r.1, m := some r.2.1, v := some r.2.2 : Elem })
  let storesW := out.any (fun e => e.w.isSome)
  let r := if storesW then s.putWeights owner g n old (out.map (fun e => e.w.getD .zero)) y
    else (s.putDiff owner g n (old.map (fun _ => 0)), y, out.map (fun _ => false))
  let el := n * cols
  let a := if out.any (fun e => e.m.isSome) then
      r.1.putStateRow owner (dq g.d 8) rows cols n (unlessHeld r.2.2 (out.map (fun e => e.m.getD .zero)) ms.1)
        (fun i => momentRnd g (4 * (el + i) + 1)) r.2.1
    else (r.1, r.2.1)
  let b := if out.any (fun e => e.v.isSome) then
      a.1.putStateRow owner (dq g.d 10) rows cols n (unlessHeld r.2.2 (out.map (fun e => e.v.getD .zero)) vs.1)
        (fun i => momentRnd g (4 * (el + i) + 2)) a.2
    else a
  (b.1, b.2, ms.2 + vs.2, gr.2)

/-- ADAMW_FACT (R175): two passes over the gradient. -/
def State.updateFact (s : State) (owner : Nat × Nat × Nat) (g : Program) : State × Tally × Nat × Bool :=
  let cols := g.p.cols
  let rows := g.p.rows
  let x := dq g.d 10
  let ns := List.range rows
  let grads := ns.map (fun n => s.gradRow g n)
  let sq := grads.map (fun r => r.1.map (fun e => let h := fMul e g.k.c; fMul h h))
  let rs := sq.map (fun r => r.foldl fAdd .zero)
  let cs := sq.foldl (fun a r => (a.zip r).map (fun e => fAdd e.1 e.2)) (List.replicate cols Num.zero)
  let rf := s.stateRow g.fresh x 1 rows 0
  let cf := s.stateRow g.fresh (x + layoutSize 1 rows) 1 cols 0
  let num (n : Nat) : Num := .fin false n 0
  let r1 := (rf.1.zip rs).map (fun e => fAdd (fMul g.k.beta2 e.1) (fMul g.k.omb2 (fDiv e.2 (num cols))))
  let c1 := (cf.1.zip cs).map (fun e => fAdd (fMul g.k.beta2 e.1) (fMul g.k.omb2 (fDiv e.2 (num rows))))
  let rbar := fDiv (r1.foldl fAdd .zero) (num rows)
  let pass := ns.foldl (fun (a : State × Tally × Nat × List (List Bool)) n =>
    let st := a.1
    let old := st.weightRow g n
    let ws := old.map (fun c => match c with | none => Num.nan | some c => decodeElem (fmt16 (db g.d 0 8)) c)
    let ms := st.stateRow g.fresh (dq g.d 8) rows cols n
    let out := (((grads.getD n ([], false)).1.zip ws).zip (ms.1.zip c1)).map (fun e =>
      let gh := fMul e.1.1 g.k.c
      let m1 := fAdd (fMul g.k.beta1 e.2.1) (fMul g.k.omb1 gh)
      let vh := if rbar.isZero then .zero else fMul (fDiv (fMul (r1.getD n .nan) e.2.2) rbar) g.k.b2
      (adamWeight g.k e.1.2 m1 vh, m1))
    let r := st.putWeights owner g n old (out.map Prod.fst) a.2.1
    let b := r.1.putStateRow owner (dq g.d 8) rows cols n (unlessHeld r.2.2 (out.map Prod.snd) ms.1)
      (fun i => momentRnd g (4 * (n * cols + i) + 1)) r.2.1
    (b.1, b.2, a.2.2.1 + ms.2, a.2.2.2 ++ [r.2.2])) (s, {}, 0, [])
  let held := pass.2.2.2
  let rowHeld := held.map (fun l => l.any id)
  let colHeld := (List.range cols).map (fun c => held.any (fun l => l.getD c false))
  let a := pass.1.putStateRow owner x 1 rows 0 (unlessHeld rowHeld r1 rf.1) (fun i => momentRnd g (4 * i + 2)) pass.2.1
  let b := a.1.putStateRow owner (x + layoutSize 1 rows) 1 cols 0 (unlessHeld colHeld c1 cf.1) (fun i => momentRnd g (4 * i + 3)) a.2
  (b.1, b.2, pass.2.2.1 + rf.2 + cf.2, grads.any Prod.snd)

/-- The weights and moments of a program: address and length (R168, R170). -/
def updateRanges (g : Program) : List (Nat × Nat) :=
  let p := g.p
  let on (a : Nat) (l : List (Nat × Nat)) : List (Nat × Nat) := if g.prog = 15 ∧ a = 0 then [] else l
  (List.range p.rows).flatMap (fun n => on (dq g.d 4) [(dq g.d 4 + n * p.wstride, 2 * p.cols)]) ++
  on (dq g.d 8) [(dq g.d 8, layoutSize p.rows p.cols)] ++
  (if g.prog = 3 then [] else on (dq g.d 10) [(dq g.d 10,
    if g.prog = 2 then layoutSize 1 p.rows + layoutSize 1 p.cols else layoutSize p.rows p.cols)])

/-- The ranges that a program reads: the gradient, once in each pass, and its weights and moments (R168, R170, R231). -/
def updateReads (g : Program) : List (Nat × Nat) :=
  let grad := (List.range g.p.rows).map (fun n => (dq g.d 6 + n * g.p.gstride, 2 * g.p.cols))
  (if g.prog = 15 ∧ dq g.d 6 = 0 then [] else if g.prog = 2 then grad ++ grad else grad) ++ updateRanges g

/-- The ranges that a program writes: its weights and moments, and its difference image (R181, R231). -/
def State.updateWrites (s : State) (g : Program) : List (Nat × Nat) :=
  updateRanges g ++ (if s.writesDiff g then (List.range g.p.rows).map (fun n => (s.diffRow g n, 2 * g.p.cols)) else [])

/-- Append the entry of a program to the change list of its quarter and parity (R181). -/
def State.listChange (s : State) (q : Nat) (g : Program) : State :=
  let e := mPage .exp
  if !s.exportActive || dq g.d 12 == 0 then s
  else
    let s := { s with train := { s.train with wrote := if s.train.wrote.contains q then s.train.wrote else s.train.wrote ++ [q] } }
    let n := s.num e (Reg.EXP_Qq_CHG + 4 * q)
    if 4096 ≤ n then
      ({ s with train := { s.train with exceeds := if s.train.exceeds.contains q then s.train.exceeds else s.train.exceeds ++ [q] } }).raise e 1
    else
      let par := (s.committed + 1) % 2
      let a := reservedBase + 0x500000 + 0x20000 * (2 * q + par) + 32 * n
      let bs := leBytes 2 (df g.d 1 0 12) ++ leBytes 2 0 ++ leBytes 4 g.p.rows ++ leBytes 4 g.p.cols ++ leBytes 4 g.p.wstride ++
        leBytes 8 g.p.wobj ++ leBytes 8 (dq g.d 12 + par * g.p.rows * g.p.wstride)
      (s.memPutBytes none a bs).addWrap e (Reg.EXP_Qq_CHG + 4 * q) 1

/-- MCLK of a program (R336). -/
def updateTime (g : Program) : Nat :=
  let e := g.p.rows * g.p.cols
  if g.prog = 15 then 96 + (e * max g.code.length 4 + 31) / 32
  else if g.prog = 2 then 96 + 2 * ((e + 7) / 8) + (g.p.rows + g.p.cols + 7) / 8 + 48
  else 96 + (e + 7) / 8

/-- The program of a descriptor of quarter q, from what was read at its fetch and, in bytes 256 to 259, at its start
(R171). -/
def State.programOf (s : State) (q : Nat) (w : WinEntry) : Program :=
  let d := w.desc
  let p := paramOf w.got
  { d := d, prog := df d 0 4 4, p := p, k := s.scalars p (numAt w.got 256 4) (db d 0 11), key := s.keyOfEntry q w
    fresh := s.train.takeUp.any (fun t => t.attempt == s.attempt), code := microCode (w.got.drop 64)
    consts := w.got.drop 192 }

/-- Would a program write an unshipped image (R182)? -/
def State.imageBlocked (s : State) (q : Nat) (d : Desc) : Bool :=
  s.exportActive && dq d 12 != 0 && s.train.images.contains (2 * q + (s.committed + 1) % 2)

/-- Does a program read a poisoned weight of a layer (R462)? -/
def State.weightsPoisoned (s : State) (g : Program) : Bool :=
  (List.range g.p.rows).any (fun n =>
    let a := dq g.d 4 + n * g.p.wstride
    s.readPoisoned a (2 * g.p.cols) && (s.layerAt a).isSome)

/-- Run a started program of UE u of quarter q: it waits for its image (`next` 1) or for a page mend (`next` 2), or does
all its work (R172 to R182, R462, R463). -/
def State.performUpdate (s : State) (q u i : Nat) (w : WinEntry) : State :=
  let n := 160 + u
  let page := qPage .ue q u
  let via := some (portOf q n)
  if s.imageBlocked q w.desc then s.setEntry q n i { w with next := 1, waitPod := s.podCount }
  else
    let g := s.programOf q w
    if s.weightsPoisoned g then
      (((updateReads g).foldl (fun s r => s.noteReadBy via r.1 r.2) s).startMends).setEntry q n i { w with next := 2 }
    else
      let reads := updateReads g
      let poison := reads.any (fun r => s.readPoisoned r.1 r.2)
      let s := ((reads.foldl (fun s r => s.noteReadBy via r.1 r.2) s).startMends).raiseIf poison page 3
      let owner := (q, n, w.seq)
      let r := if g.prog = 2 then s.updateFact owner g
        else (List.range g.p.rows).foldl (fun (a : State × Tally × Nat × Bool) k =>
          let b := a.1.updateRow owner g k a.2.1
          (b.1, b.2.1, a.2.2.1 + b.2.2.1, a.2.2.2 || b.2.2.2)) (s, {}, 0, false)
      let y := r.2.1
      let o := mPage .opt
      let s := ((r.1.addSat o Reg.OPT_HELD y.held).raiseIf (y.held != 0) o 0).addSat o Reg.OPT_SATURATED y.sat
      let s := (s.raiseIf y.satEvent page 1).raiseIf y.nanEvent page 2
      let s := if r.2.2.1 = 0 then s
        else (s.addSat (mPage .fault) Reg.FAULT_MOM_RESETS r.2.2.1).fault 0x09 q n s.selfId r.2.2.1 8
      let layer := df w.desc 1 0 12
      let s := { s with train := { s.train with present := s.train.present ||| 2 ^ layer
                                                nz := if r.2.2.2 then s.train.nz ||| 2 ^ layer else s.train.nz } }
      let s := (s.updateWrites g).foldl (fun s r => (s.countWrites via r.1 r.2).1) (s.listChange q g)
      s.finishEntry q n i (s.now + 3 * updateTime g)

/-- Start the next program of UE u of quarter q, if it is of PROG `prog`, or go on with one that waited for a mend (R150,
R171, R230, R231, R462). A UE runs one program at a time, and a write that waits on a lease holds it. -/
def State.runUpdate (s : State) (q u prog : Nat) : State :=
  let n := 160 + u
  let st := s.stepState
  let x := s.queue q n
  let j := x.window.findIdx (fun w => w.status == .running && w.next == 2)
  match x.window[j]? with
  | some w => if df w.desc 0 4 4 = prog then s.performUpdate q u j w else s
  | none =>
    if u < 4 ∧ (st = 3 ∨ st = 5 ∨ st = 6 ∨ st = 7) ∧ !x.window.any (fun w => w.status == .running) ∧ x.pathEnd ≤ s.now ∧
        !s.leases.writes.any (fun w => w.owner.any (fun o => o.1 == q && o.2.1 == n)) then
      match s.startable q n with
      | none => s
      | some (i, w) =>
        if df w.desc 0 4 4 ≠ prog then s
        else
          let a := s.lrAddr (paramOf w.got)
          let bad := s.readPoisoned a 4
          let s := s.noteReadBy (some (portOf q n)) a 4
          if bad then s.refuseStart q n i 0x0C w true
          else
            let s := (s.startEntry q n i w).phaseStart 4
            match (s.queue q n).window[i]? with
            | none => s
            | some w => s.performUpdate q u i { w with next := 0, got := padTo 256 0 w.got ++ s.readBytes a 4 }
    else s

/-- UPDATE_ADAMW (R172 to R174). -/
def execUpdateAdamw (t q u : Nat) (flips : List (Nat × Nat)) (s : State) : Host.Outcome State Fault Refusal :=
  done (((s.advance t).upset flips).runUpdate q u 1)
/-- UPDATE_ADAMW_FACT (R175). -/
def execUpdateAdamwFact (t q u : Nat) (flips : List (Nat × Nat)) (s : State) : Host.Outcome State Fault Refusal :=
  done (((s.advance t).upset flips).runUpdate q u 2)
/-- UPDATE_SGDM (R176). -/
def execUpdateSgdm (t q u : Nat) (flips : List (Nat × Nat)) (s : State) : Host.Outcome State Fault Refusal :=
  done (((s.advance t).upset flips).runUpdate q u 3)
/-- UPDATE_CUSTOM (R178 to R180). -/
def execUpdateCustom (t q u : Nat) (flips : List (Nat × Nat)) (s : State) : Host.Outcome State Fault Refusal :=
  done (((s.advance t).upset flips).runUpdate q u 15)

/-- The program of a UE that waits for an unshipped image. -/
def State.waitsImage (s : State) (q u : Nat) : Option (Nat × WinEntry) :=
  let x := s.queue q (160 + u)
  let i := x.window.findIdx (fun w => w.status == .running && w.next == 1)
  (x.window[i]?).map (fun w => (i, w))

/-- Does any program of the module wait under R182? -/
def State.lagging (s : State) : Bool :=
  (List.range 16).any (fun k => (s.waitsImage (k / 4) (k % 4)).isSome)

/-- UPDATE_PARITY_RESUME (R182): the image has been shipped and the program proceeds; LAG clears when none waits. -/
def execUpdateParityResume (t q u : Nat) (s : State) : Host.Outcome State Fault Refusal :=
  let s := s.advance t
  match s.waitsImage q u with
  | none => done s
  | some (i, w) =>
    if s.imageBlocked q w.desc then done s
    else
      let s := s.performUpdate q u i { w with next := 0 }
      done (if s.lagging then s else s.setBit (mPage .exp) Reg.EXP_EXP_STS 1 false)

/-- EXPORT_LAG (R182): a program that has waited LEASE_WARN counts raises EXPORT_LAG and sets LAG, once. -/
def execExportLag (t q u : Nat) (s : State) : Host.Outcome State Fault Refusal :=
  let s := s.advance t
  match s.waitsImage q u with
  | none => done s
  | some (i, w) =>
    if w.waitUntil ≠ 0 ∨ s.podCount < w.waitPod + s.num (mPage .step) Reg.STEP_LEASE_WARN then done s
    else
      done (((s.setEntry q (160 + u) i { w with waitUntil := 1 }).setBit (mPage .exp) Reg.EXP_EXP_STS 1 true).raise (mPage .exp) 0)

/-- The mend of a page is complete (R462): PAGE_MEND is raised, and the waiting updates read again. -/
def State.pageMended (s : State) (page : Nat) : State :=
  let lines := ((s.train.mends.find? (fun m => m.page == page)).map (·.lines)).getD 0
  let s := { s with train := { s.train with mends := s.train.mends.filter (fun m => m.page != page) } }
  let s := (s.addSat (mPage .fault) Reg.FAULT_PAGE_MENDS lines).fault 0x06 0 0 s.selfId page 5
  (List.range 16).foldl (fun s k =>
    let x := s.queue (k / 4) (160 + k % 4)
    let i := x.window.findIdx (fun w => w.status == .running && w.next == 2)
    match x.window[i]? with
    | none => s
    | some w => s.performUpdate (k / 4) (k % 4) i { w with next := 0 }) s

/-- The lines of a weight page that hold a poisoned codeword. -/
def State.badLines (s : State) (base : Nat) : List Nat :=
  (((s.ecc.map (fun e => e.1 * 16)).filter (fun a => decide (base ≤ a ∧ a < base + 0x10000) && s.poisonedAt (a / 16))).map
    (fun a => (a - base) / 64)).eraseDups

/-- PAGE_MEND_DONE (R158, R462): the lines of a page come from the holder: each line with a poisoned codeword is written;
the writes wait on the leases. `lines` gives the holder's bytes by line of the page. -/
def execPageMendDone (t page : Nat) (lines : List (Nat × List Byte)) (s : State) : Host.Outcome State Fault Refusal :=
  let s := s.advance t
  let base := 0x10000000000 + 0x10000 * page
  let bad := s.badLines base
  if !s.train.mends.any (fun m => m.page == page && m.holder.isSome) || s.ownerWaits (mendOwner page) ||
      !bad.all (fun l => lines.any (fun e => e.1 == l)) then done s
  else
    let counted (m : PageMend) : PageMend := if m.page = page then { m with lines := bad.length } else m
    let s := { s with train := { s.train with mends := s.train.mends.map counted } }
    let s := bad.foldl (fun s l =>
      let bs := ((lines.find? (fun e => e.1 == l)).map Prod.snd).getD []
      s.memPutBytes (some (mendOwner page)) (base + 64 * l) ((bs ++ List.replicate 64 0).take 64)) s
    done (if s.ownerWaits (mendOwner page) then s else s.pageMended page)

end Sys2Proof.Machine
end

