-- ==== Sys2Proof/Machine/Export.lean ====
section
/-! DEFINITION. The exporter: records, destination rings, SHIP_STEP and SHIP_FULL (R138, R157, R181 to R188). -/

namespace Sys2Proof.Machine

/-! ## Records (R185) -/

/-- Pad bytes with zeros to a multiple of 8. -/
def pad8 (l : List Byte) : List Byte := l ++ List.replicate ((8 - l.length % 8) % 8) 0

/-- The common header of a record: TYPE, FLAGS, the two bytes after them, and LEN. -/
def recHead (type flags two len : Nat) : List Byte := leBytes 1 type ++ leBytes 1 flags ++ leBytes 2 two ++ leBytes 4 len

/-- A change-list entry (R181). -/
structure Change where
  layer : Nat
  rows : Nat
  cols : Nat
  wstride : Nat
  wobj : Nat
  image : Nat
  deriving DecidableEq, Repr

/-- Entry i of the change list of a quarter and parity; none where its line is poisoned (R183). -/
def State.changeAt (s : State) (q par i : Nat) : Option Change :=
  let a := reservedBase + 0x500000 + 0x20000 * (2 * q + par) + 32 * i
  if s.readPoisoned a 32 then none
  else some { layer := s.readNat a 2, rows := s.readNat (a + 4) 4, cols := s.readNat (a + 8) 4, wstride := s.readNat (a + 12) 4
              wobj := s.readNat (a + 16) 8, image := s.readNat (a + 24) 8 }

/-- Is a 16-bit word of the object, by its byte offset from WOBJ, an element of the shard? -/
def Change.covers (c : Change) (o : Nat) : Bool :=
  c.wstride != 0 && decide (o / c.wstride < c.rows ∧ o % c.wstride < 2 * c.cols)

/-- The words of a change that lie in object page `p` (a multiple of 64 KiB): byte offsets from WOBJ. -/
def Change.words (c : Change) (p : Nat) : List Nat :=
  ((List.range 32768).map (fun i => p + 2 * i)).filterMap (fun o =>
    if c.wobj ≤ o ∧ c.covers (o - c.wobj) then some (o - c.wobj) else none)

/-- The PAGE_DIFF record of one page of a change, if some word changed; the second part tells whether poison stopped it
(R183, R185). -/
def State.pageDiff (s : State) (c : Change) (p : Nat) : Option (List Byte) × Bool :=
  let ws := c.words p
  match ws.head?, ws.getLast? with
  | some lo, some hi =>
    if ws.any (fun o => s.readPoisoned (c.image + o) 2) then (none, true)
    else
      let n := (hi - lo) / 2 + 1
      let vals := (List.range n).map (fun i => let o := lo + 2 * i
        if c.covers o then s.readNat (c.image + o) 2 else 0)
      let changed := vals.filter (· != 0)
      if changed.isEmpty then (none, false)
      else
        let bitmap := vals.zipIdx.foldl (fun m e => if e.1 = 0 then m else m + 2 ^ e.2) 0
        let len := 32 + 8 * ((n + 63) / 64) + 8 * ((changed.length + 3) / 4)
        (some (recHead 2 0 c.layer len ++ leBytes 8 p ++ leBytes 2 ((c.wobj + lo - p) / 2) ++ leBytes 2 n ++
          leBytes 4 changed.length ++ leBytes 8 0 ++ leBytes (8 * ((n + 63) / 64)) bitmap ++
          pad8 (changed.flatMap (leBytes 2))), false)
  | _, _ => (none, false)

/-- The object pages that a change can touch, in increasing order. -/
def Change.pages (c : Change) : List Nat :=
  let last := c.wobj + (c.rows - 1) * c.wstride + 2 * c.cols - 1
  (List.range (last / 65536 + 1 - c.wobj / 65536)).map (fun i => 65536 * (c.wobj / 65536 + i))

/-- The PAGE_DIFF records of a closed attempt in quarter q, and whether poison kept some back (R181, R183). -/
def State.pageDiffs (s : State) (q : Nat) (c : Closed) : List (List Byte) × Bool :=
  if c.skip || !c.active then ([], false)
  else
    (List.range (c.chg.getD q 0)).foldl (fun a i =>
      match s.changeAt q c.parity i with
      | none => (a.1, true)
      | some e =>
        let r := e.pages.map (s.pageDiff e)
        (a.1 ++ r.filterMap Prod.fst, a.2 || r.any Prod.snd)) ([], false)

/-- What the reads of a closed attempt's change list and images count (R98, R222). -/
def State.noteShip (s : State) (q : Nat) (c : Closed) : State :=
  if c.skip || !c.active then s
  else
    let n := c.chg.getD q 0
    let via := some (q, 0)
    let s := s.noteReadBy via (reservedBase + 0x500000 + 0x20000 * (2 * q + c.parity)) (32 * n)
    (List.range n).foldl (fun s i =>
      match s.changeAt q c.parity i with
      | none => s
      | some e => (List.range e.rows).foldl (fun s r => s.noteReadBy via (e.image + r * e.wstride) (2 * e.cols)) s) s

/-- All records of a closed attempt in quarter q (R183, R185). -/
def State.stepRecords (s : State) (q : Nat) (c : Closed) : List (List Byte) :=
  let b (x : Bool) (i : Nat) : Nat := if x then 2 ^ i else 0
  let d := s.pageDiffs q c
  let inc := d.2 || c.exceeds.getD q false
  let begin_ := recHead 1 (b c.skip 0 + b inc 1 + b (!c.skip && !c.active) 2) 0 64 ++ leBytes 8 c.attempt ++ leBytes 8 c.committed ++
    leBytes 8 c.time ++ leBytes 3 s.selfId ++ leBytes 1 q ++ List.replicate 28 0
  let body := begin_ :: d.1
  let crc := (crc64 body.flatten).toNat
  body ++ [recHead 3 (b inc 1) 0 32 ++ leBytes 8 c.attempt ++ leBytes 4 d.1.length ++ leBytes 4 0 ++ leBytes 8 crc]

/-! ## The destination ring (R184) -/

/-- What EX0 of quarter q is sending. -/
def State.shipping (s : State) (q : Nat) : Option Shipping := (s.coll.ships.find? (fun e => e.1 == q)).map Prod.snd
/-- Replace what EX0 of quarter q is sending. -/
def State.setShipping (s : State) (q : Nat) (x : Option Shipping) : State :=
  let rest := s.coll.ships.filter (fun e => e.1 != q)
  { s with coll := { s.coll with ships := match x with | none => rest | some y => rest ++ [(q, y)] } }

/-- The running descriptor of EX0 in quarter q: index and entry. -/
def State.exRunning (s : State) (q : Nat) : Option (Nat × WinEntry) :=
  let x := s.queue q 152
  let i := x.window.findIdx (fun w => w.status == .running)
  (x.window[i]?).map (fun w => (i, w))

/-- Remote segments of EX0 of quarter q that are outstanding (R110). -/
def State.exSegs (s : State) (q : Nat) : List Seg := s.fabric.segs.filter (fun g => g.q == q && g.n == 152)

/-- The running descriptor of EX0 fails at runtime (R115). Its segments on their way complete, under a ring count that no
descriptor has. -/
def State.shipFail (s : State) (q : Nat) (w : WinEntry) (code : Nat) : State :=
  let segs := s.fabric.segs.map (fun g =>
    if g.q = q ∧ g.n = 152 ∧ g.seq < 65536 then { g with seq := g.seq + 65536 } else g)
  ({ s with fabric := { s.fabric with segs := segs } }.setShipping q none).failRuntime q 152 w.seq code

/-- A remote segment of EX0 has its answer: it no longer counts in the lease under which its bytes were read, `index` − 2
(R157). -/
def State.endSeg (s : State) (g : Seg) : State :=
  let s := s.dropSeg g.id
  if g.index < 3 then s else s.setLease (g.index - 2) { s.lease (g.index - 2) with holds := (s.lease (g.index - 2)).holds - 1 }

/-- The answer of a segment: what has come, or, of another site, what `site` gives by segment. -/
def Seg.answerBy (g : Seg) (now : Nat) (site : List (Nat × Nat × List (Byte × Bool))) : Option (Nat × List (Byte × Bool)) :=
  (g.answered now).orElse (fun _ => if g.chip = none then (site.find? (fun e => e.1 == g.id)).map Prod.snd else none)

/-- The segments of failed descriptors of EX0 whose answers have come are complete (R115, R157). -/
def State.reapSegs (s : State) (q : Nat) (site : List (Nat × Nat × List (Byte × Bool))) : State :=
  ((s.exSegs q).filter (fun g => decide (65536 ≤ g.seq) && (g.answerBy s.now site).isSome)).foldl State.endSeg s

/-- EX0 of quarter q waits for a tracker entry, or no longer does (R110). -/
def State.setSegWait (s : State) (q : Nat) (b : Bool) : State := s.setQueue q 152 { s.queue q 152 with segWait := b }

/-- Has EX0 of quarter q room for `k` more segments to an address that is not local: at most 256 outstanding, each with a
tracker entry (R110)? -/
def State.segRoom (s : State) (q k a : Nat) : Bool :=
  match s.resolve a with
  | .here _ => true
  | _ => decide ((s.exSegs q).length + k ≤ 256) && s.canTakeTracks q 152 k

/-- Read the control block: PROD and CONS at the start, CONS later (R184). The answer of a remote read comes later. -/
def State.readControl (s : State) (q : Nat) (w : WinEntry) (x : Shipping) : State :=
  let a := dq w.desc 4
  match s.resolve a with
  | .here l =>
    if !populated l 64 then (s.noteAddrError l).shipFail q w 0x20
    else
      let cons := s.readNat (l + 8) 8
      let prod := if x.began then x.prod else s.readNat l 8
      (s.noteReadBy (some (q, 0)) l 16).setShipping q
        (some { x with began := true, prod := prod, cons := cons, readAt := some s.now })
  | t =>
    if s.segRoom q 1 a then
      ((s.setSegWait q false).setShipping q (some { x with reading := true })).newSeg q 152 w.seq 0 .read 0 t
        (fun id => .readReq id 16 a)
    else (s.setSegWait q true).setShipping q (some x)

/-- Write bytes at a ring's address, in segments of at most 4 KiB. Bytes read under a lease count each remote segment in its
HOLDS, and a local write that waits (R157). The second part is an error code. -/
def State.shipWrite (s : State) (q : Nat) (w : WinEntry) (leased : Bool) (a : Nat) (bs : List (Byte × Bool)) : State × Nat :=
  let n := if leased then df w.desc 1 0 16 else 0
  if bs.isEmpty then (s, 0)
  else
    match s.resolve a with
    | .fail c => (s, c)
    | .here l => s.streamWrite q 152 w.seq n l bs
    | t =>
      let at_ (o : Nat) : Target := match t with | .chip b => .chip (b + o) | .site b => .site (b + o) | t => t
      ((chunks 4096 bs).zipIdx.foldl (fun s c =>
        let s := if n = 0 then s else s.setLease n { s.lease n with holds := (s.lease n).holds + 1 }
        s.newSeg q 152 w.seq (2 + n) .write 0 (at_ (4096 * c.2)) (fun id => .write id false c.1)) s, 0)

/-- Place one record in the ring from PROD on, wrapping in the record area. -/
def State.placeRecord (s : State) (q : Nat) (w : WinEntry) (leased : Bool) (prod : Nat) (r : List (Byte × Bool)) : State × Nat :=
  let area := dw w.desc 6 - 64
  let o := prod % area
  let base := dq w.desc 4 + 64
  let one := s.shipWrite q w leased (base + o) (r.take (area - o))
  if one.2 ≠ 0 then one else one.1.shipWrite q w leased base (r.drop (area - o))

/-- Record i of a SHIP_FULL (R138, R185): a page, or the part of one that the range covers. -/
def State.fullRecord (s : State) (w : WinEntry) (x : Shipping) (i : Nat) : List (Byte × Bool) :=
  let lo := dq w.desc 7
  let hi := lo + dw w.desc 9
  let p := lo / 65536 + i
  let a := max lo (65536 * p)
  let n := min hi (65536 * (p + 1)) - a
  let padded := (n + 7) / 8 * 8
  let head := recHead 4 (if x.mixed then 8 else 0) x.claimStep (32 + padded) ++ leBytes 8 a ++ leBytes 4 n ++ List.replicate 12 0
  head.map (fun b => (b, false)) ++ s.readMarked a n ++ List.replicate (padded - n) (0, false)

/-- Records of a SHIP_FULL. -/
def fullCount (w : WinEntry) : Nat :=
  if dw w.desc 9 = 0 then 0 else (dq w.desc 7 + dw w.desc 9 - 1) / 65536 + 1 - dq w.desc 7 / 65536

/-- The record that EX0 sends next: its bytes, and what remains. -/
def State.nextRecord (s : State) (w : WinEntry) (x : Shipping) : Option (List (Byte × Bool) × Shipping) :=
  if dOp w.desc = 1 then
    match x.records with
    | [] => none
    | r :: l => some (r, { x with records := l })
  else if x.next < fullCount w then some (s.fullRecord w x x.next, { x with next := x.next + 1 })
  else none

/-- Bytes of the record area in use: PROD − CONS, free-running (R184). -/
def ringUsed (x : Shipping) : Nat := (x.prod + 2 ^ 64 - x.cons) % 2 ^ 64

/-- What reading page record i of a SHIP_FULL counts (R222). -/
def State.noteFull (s : State) (q : Nat) (w : WinEntry) (i : Nat) : State :=
  let lo := dq w.desc 7
  let p := lo / 65536 + i
  let a := max lo (65536 * p)
  s.noteReadBy (some (q, 0)) a (min (lo + dw w.desc 9) (65536 * (p + 1)) - a)

/-- Send the records that fit, with fuel, then PROD (R184). -/
def State.sendRecords : Nat → Nat → WinEntry → Bool → State → State
  | 0, _, _, _, s => s
  | k + 1, q, w, sent, s =>
    match s.shipping q with
    | none => s
    | some x =>
      let prodWrite (s : State) (x : Shipping) : State :=
        if sent then
          let r := s.shipWrite q w false (dq w.desc 4) ((leBytes 8 x.prod).map (fun b => (b, false)))
          if r.2 = 0 then r.1 else r.1.shipFail q w r.2
        else s
      match s.nextRecord w x with
      | none => prodWrite s x
      | some (r, y) =>
        if dw w.desc 6 - 64 < ringUsed x + r.length then prodWrite s x
        else if !s.segRoom q ((r.length + 4095) / 4096 + 2) (dq w.desc 4) then (prodWrite s x).setSegWait q true
        else
          let s := s.setSegWait q false
          let s := if dOp w.desc = 2 then s.noteFull q w x.next else s
          let s := s.raiseIf (dOp w.desc == 2 && r.any Prod.snd) (qPage .ex q 0) 3
          let p := s.placeRecord q w (dOp w.desc == 2) x.prod r
          if p.2 ≠ 0 then p.1.shipFail q w p.2
          else State.sendRecords k q w true (p.1.setShipping q (some { y with prod := (x.prod + r.length) % 2 ^ 64, again := false }))

/-- Would the next record not fit in the ring as CONS was last read? -/
def State.shipBlocked (s : State) (q : Nat) (w : WinEntry) : Bool :=
  match s.shipping q with
  | none => false
  | some x =>
    x.began && (match s.nextRecord w x with
      | none => false
      | some (r, _) => decide (dw w.desc 6 - 64 < ringUsed x + r.length))

/-- Take the answers that have come: control reads, writes, and failures (R115, R184). `site` gives the answers of another
site by segment: code and bytes. -/
def State.takeAnswers (s : State) (q : Nat) (w : WinEntry) (site : List (Nat × Nat × List (Byte × Bool))) : State :=
  ((s.exSegs q).filter (fun g => g.seq == w.seq)).foldl (fun s g =>
    match g.answerBy s.now site, s.shipping q with
    | some (c, bs), some x =>
      let s := s.endSeg g
      if c ≠ 0 then s.shipFail q w c
      else if g.kind = .read then
        let v := leNat (bs.map Prod.fst)
        s.setShipping q (some { x with began := true, reading := false, readAt := some s.now
                                       prod := if x.began then x.prod else v % 2 ^ 64, cons := v / 2 ^ 64 })
      else s
    | _, _ => s) s

/-- Is everything that the running descriptor has sent visible (R106)? -/
def State.shipVisible (s : State) (q : Nat) (w : WinEntry) : Bool :=
  !s.writesOpen q 152 w.seq && !(s.exSegs q).any (fun g => g.seq == w.seq)

/-- Send what fits of the running descriptor (R184). -/
def State.shipFitting (s : State) (q : Nat) (w : WinEntry) : State :=
  match s.shipping q with
  | none => s
  | some x => State.sendRecords (if dOp w.desc = 1 then x.records.length + 2 else fullCount w + 2) q w false s

/-- The attempt that a SHIP_STEP names, if it has closed (R183). -/
def State.shipClosed (s : State) (q : Nat) : Option Closed := s.train.closed.find? (fun c => c.attempt == s.nextShip q)

/-- Go on with the running descriptor: answers, the first read of the control block, records, and one more read of CONS for
a record that does not fit (R183, R184). -/
def State.shipOn (s : State) (q : Nat) (site : List (Nat × Nat × List (Byte × Bool))) : State :=
  match s.exRunning q with
  | none => s
  | some (_, w) =>
    let s := s.takeAnswers q w site
    let s := match s.shipping q with
      | some x => if x.began || x.reading then s else s.readControl q w x
      | none => s
    match s.shipping q with
    | none => s
    | some x =>
      if !x.began then s
      else
        let s := s.shipFitting q w
        match s.shipping q with
        | none => s
        | some y => if s.shipBlocked q w && !y.reading && !y.again then
            (s.readControl q w { y with again := true }).shipFitting q w else s

/-- Start the next descriptor of EX0 in quarter q, if it has OP `op`. -/
def State.shipStart (s : State) (q op : Nat) : State :=
  match s.exRunning q, s.startable q 152 with
  | none, some (i, w) =>
    if dOp w.desc ≠ op then s
    else
      let s := s.startEntry q 152 i w
      let l := s.lease (df w.desc 1 0 16)
      let granted := op == 2 && df w.desc 1 0 16 != 0 && l.granted
      let x : Shipping := { claimStep := if granted then l.claimStep else s.committed % 65536,
                            mixed := if granted then l.mixed else true }
      (s.setSegWait q false).readControl q w x
  | _, _ => s

/-- SHIP_STEP (R138, R183, R184): EX0 starts a SHIP_STEP, which R183 checked when it was fetched, and reads PROD and CONS; it
then waits for its attempt to close. -/
def execShipStep (t q : Nat) (s : State) : Host.Outcome State Fault Refusal := settled (((s.advance t).reapSegs q []).shipStart q 1)

/-- SHIP_STEP_SEND (R183 to R185): once the attempt has closed, its records are formed and sent as they fit. -/
def execShipStepSend (t q : Nat) (site : List (Nat × Nat × List (Byte × Bool))) (flips : List (Nat × Nat)) (s : State) :
    Host.Outcome State Fault Refusal :=
  let s := ((s.advance t).upset flips).reapSegs q site
  match s.exRunning q with
  | none => settled s
  | some (_, w) =>
    if dOp w.desc ≠ 1 then settled s
    else
      let s := s.takeAnswers q w site
      match s.shipping q, s.shipClosed q with
      | some x, some c =>
        if x.began && x.next == 0 then
          let s := (s.noteShip q c).raiseIf (s.pageDiffs q c).2 (qPage .ex q 0) 3
          let rs := (s.stepRecords q c).map (fun r => r.map (fun b => (b, false)))
          settled ((s.setShipping q (some { x with records := rs, next := 1 })).shipOn q [])
        else settled (s.shipOn q [])
      | _, _ => settled s

/-- SHIP_STEP_DONE (R182, R183): STEP_END is visible at the destination; the next attempt is due, and the quarter's image of
that parity is free. -/
def execShipStepDone (t q : Nat) (site : List (Nat × Nat × List (Byte × Bool))) (s : State) :
    Host.Outcome State Fault Refusal :=
  let s := (s.advance t).reapSegs q site
  match s.exRunning q with
  | none => settled s
  | some (i, w) =>
    if dOp w.desc ≠ 1 then settled s
    else
      let s := s.takeAnswers q w site
      match s.shipping q, s.shipClosed q with
      | some x, some c =>
        if x.next ≠ 1 ∨ !x.records.isEmpty ∨ !s.shipVisible q w then settled s
        else
          let e := mPage .exp
          let s := s.setNum64 e (Reg.EXP_Qq_NEXT_LO + 8 * q) (Reg.EXP_Qq_NEXT_HI + 8 * q) ((s.nextShip q + 1) % 2 ^ 64)
          let images := if c.skip then s.train.images else s.train.images.filter (· != 2 * q + c.parity)
          let s := { s with train := { s.train with images := images } }
          let closed := s.train.closed.filter (fun c => (List.range 4).any (fun q => decide (s.nextShip q ≤ c.attempt)))
          let s := { s with train := { s.train with closed := closed } }
          settled ((s.setShipping q none).finishEntry q 152 i s.now)
      | _, _ => settled s

/-- SHIP_FULL (R138, R157, R184, R185): EX0 starts a SHIP_FULL and sends its pages as they fit; given again, it goes on, and
it finishes once everything is visible at the destination. -/
def execShipFull (t q : Nat) (site : List (Nat × Nat × List (Byte × Bool))) (flips : List (Nat × Nat)) (s : State) :
    Host.Outcome State Fault Refusal :=
  let s := ((((s.advance t).upset flips).reapSegs q site).shipStart q 2).shipOn q site
  match s.exRunning q with
  | none => settled s
  | some (i, w) =>
    match s.shipping q with
    | none => settled s
    | some x =>
      if dOp w.desc ≠ 2 ∨ !x.began ∨ x.next < fullCount w ∨ !s.shipVisible q w then settled s
      else settled ((s.setShipping q none).finishEntry q 152 i s.now)

/-- EXPORT_CONS_REREAD (R184): 50 µs after the previous response, EX0 reads CONS again while a record does not fit. -/
def execExportConsReread (t q : Nat) (site : List (Nat × Nat × List (Byte × Bool))) (s : State) :
    Host.Outcome State Fault Refusal :=
  let s := (s.advance t).reapSegs q site
  match s.exRunning q with
  | none => settled s
  | some (_, w) =>
    let s := s.takeAnswers q w site
    match s.shipping q with
    | none => settled s
    | some x =>
      if s.shipBlocked q w && !x.reading && x.readAt.all (fun r => decide (r + 180000 ≤ s.now)) then
        settled ((s.readControl q w { x with again := true }).shipOn q [])
      else settled s

end Sys2Proof.Machine
end

