-- ==== Sys2Proof/Machine/Coll.lean ====
section
/-! DEFINITION. Collectives: streams, READY, segments, additions and completion on CS0 (R139, R189 to R202). -/

namespace Sys2Proof.Machine

/-! ## Running operations and their streams -/

/-- The running operation of a tag on the CS0 of quarter q. -/
def State.collOp (s : State) (q tag : Nat) : Option CollOp := s.coll.ops.find? (fun o => o.q == q && dw o.desc 2 == tag)

/-- Replace a running operation. -/
def State.setCollOp (s : State) (o : CollOp) : State :=
  let l := replaceFirst (fun x => x.q == o.q && dw x.desc 2 == dw o.desc 2) (fun _ => o) s.coll.ops
  { s with coll := { s.coll with ops := l } }

/-- The stream of a part and direction. -/
def CollOp.stream (o : CollOp) (r h : Nat) : Option Stream := o.streams.find? (fun x => x.part == r && x.dir == h)
/-- Replace a stream. -/
def CollOp.setStream (o : CollOp) (x : Stream) : CollOp :=
  { o with streams := replaceFirst (fun y => y.part == x.part && y.dir == x.dir) (fun _ => x) o.streams }

/-- Is an operation a REDUCE_SCATTER? -/
def CollOp.reduces (o : CollOp) : Bool := dOp o.desc == 1
/-- The plan of an operation (R204). -/
def State.planOf (s : State) (o : CollOp) : Plan := s.plan o.q (dw o.desc 6)
/-- Lines of the lane (R191). -/
def CollOp.lines (o : CollOp) : Nat := dw o.desc 5 / 64

/-- Dimension, ring size and position of a phase of part r (R191). -/
def State.phaseRing (s : State) (o : CollOp) (r k : Nat) : Nat × Nat × Nat :=
  let d := phaseDim (planDims (s.planOf o)) r k
  (d, s.ringSize d, s.ringPos d)

/-- The range of a phase before it is cut into pieces (R191). -/
def State.phaseRange (s : State) (o : CollOp) (r h k : Nat) : Nat × Nat :=
  s.rangeAt (planDims (s.planOf o)) s.ringPos o.lines r h k

/-- The piece that ring step `st` sends in direction h (R191, R193). -/
def sentPiece (reduces : Bool) (h c st nn : Nat) : Nat :=
  let back := if reduces then st + 1 else st
  if h = 0 then (c + 2 * nn - back) % nn else (c + back) % nn

/-- The bytes that a stream receives in a phase: every piece but the one it sends first (R191, R193). -/
def State.phaseBytes (s : State) (o : CollOp) (r h k : Nat) : Nat :=
  let g := s.phaseRing o r k
  let rng := s.phaseRange o r h k
  let first := piece rng g.2.1 (sentPiece o.reduces h g.2.2 0 g.2.1)
  if g.2.1 ≤ 1 then 0 else 64 * ((rng.2 - rng.1) - (first.2 - first.1))

/-- Has a stream's operation exchanged nothing before phase k: every earlier ring has one member? -/
def State.firstExchange (s : State) (o : CollOp) (r k : Nat) : Bool :=
  (List.range k).all (fun j => decide ((s.phaseRing o r j).2.1 ≤ 1))

/-- Where this module's own contribution to a line lies in phase k: in DATA until an exchange has left a result in
SCRATCH; for an ALL_GATHER in DATA where the module owns the line, else in STAGE (R191, R193). -/
def State.lineAt (s : State) (o : CollOp) (r k line : Nat) : Nat :=
  let p := s.planOf o
  let data := dq o.desc 3
  if o.reduces then (if s.firstExchange o r k then data else p.scratch) + 64 * line
  else if (s.ownedAt (planDims p) s.ringPos o.lines).any (fun g => decide (g.1 ≤ line ∧ line < g.2)) then data + 64 * line
  else p.stage + 64 * line

/-- The lines of a range cut into segments of at most 4 KiB (R195), with fuel. -/
def segmentsOf : Nat → Nat → Nat → List (Nat × Nat)
  | 0, _, _ => []
  | n + 1, a, e => if e ≤ a then [] else (a, min e (a + 64)) :: segmentsOf n (a + 64) e

/-- Read lines of this module's contribution: what the reads count, and the bytes as read; a poisoned line raises
POISON_IN of CS0 (R116). -/
def State.readLines (s : State) (o : CollOp) (r k a e : Nat) : State × List Byte :=
  (List.range (e - a)).foldl (fun acc i =>
    let at_ := acc.1.lineAt o r k (a + i)
    let bad := acc.1.readPoisoned at_ 64
    let bs := acc.1.readBytes at_ 64
    ((acc.1.noteReadBy (some (o.q, 0)) at_ 64).raiseIf bad (qPage .cs o.q 0) 3, acc.2 ++ bs)) (s, [])

/-- The header of this module's messages for a stream (R195). -/
def CollOp.hdr (o : CollOp) (r h k st off : Nat) : CollHdr :=
  { tag := dw o.desc 2, attempt := o.attempt % 65536, epoch := o.epoch, part := r, direction := h, phase := k, step := st
    off := off }

/-- Send a message of a lane to logical neighbour i, out in its direction, on the plan's lane (R189, R191, R195). -/
def State.collSend (s : State) (o : CollOp) (i : Nat) (b : Body) : State :=
  (s.route (s.ownFrame (s.planOf o).vl o.q (s.neigh i * 2 ^ 45 + foldBase o.q) b) (some i)).1

/-! ## Completion -/

/-- Copy what the module owns into SHARD, packed in increasing lane offset (R192). -/
def State.storeShard (s : State) (o : CollOp) : State :=
  let p := s.planOf o
  let dims := planDims p
  let own : State × Nat := (s.ownedAt dims s.ringPos o.lines).foldl (fun acc g =>
    let from_ := if dims.all (fun d => decide (s.ringSize d ≤ 1)) then dq o.desc 3 else p.scratch
    let a := from_ + 64 * g.1
    let n := 64 * (g.2 - g.1)
    let s := acc.1
    ((s.noteReadBy (some (o.q, 0)) a n).memWrite (some (o.q, 153, o.seq)) (p.shard + acc.2) (s.readMarked a n), acc.2 + n)) (s, 0)
  own.1

/-- Complete an operation whose streams have all ended: SHARD, the digest record, and the signal's turn (R192, R193,
R198, R202). -/
def State.collComplete (s : State) (o : CollOp) : State :=
  let p := s.planOf o
  let s := if o.reduces then s.storeShard o else s
  let s := if p.ldig then
      s.logDigests (leBytes 4 (dw o.desc 2) ++ leBytes 1 (dOp o.desc) ++ leBytes 1 o.q ++ leBytes 1 o.epoch ++ [0] ++
        leBytes 8 o.attempt ++ leBytes 8 s.podCount ++ List.replicate 8 0 ++ o.sent.flatMap (leBytes 8) ++
        o.recv.flatMap (leBytes 8))
    else s
  let s := { s with coll := { s.coll with ops := s.coll.ops.filter (fun x => !(x.q == o.q && x.seq == o.seq)) } }
  let i := (s.queue o.q 153).window.findIdx (fun w => w.status == .running && w.seq == o.seq)
  s.finishEntry o.q 153 i (max s.now o.until_)

/-- Complete the operation of a tag if every stream has ended and sent everything. -/
def State.collSettle (s : State) (q tag : Nat) : State :=
  match s.collOp q tag with
  | none => s
  | some o => if o.streams.all (fun x => x.done_ && x.out.isEmpty) && o.late.isEmpty then s.collComplete o else s

/-! ## Phases -/

/-- Enter phase k of a stream: READY goes to the module that sends it, and this module's own piece waits to be sent
(R191, R193, R195). A ring of one member sends nothing. -/
def State.enterPhase (s : State) (o : CollOp) (x : Stream) (k : Nat) : State :=
  let g := s.phaseRing o x.part k
  let x := { x with phase := k, got := 0, since := s.podCount, warned := false, asked := s.podCount, warnedReady := false }
  if g.2.1 ≤ 1 then s.setCollOp (o.setStream x)
  else
    let p := piece (s.phaseRange o x.part x.dir k) g.2.1 (sentPiece o.reduces x.dir g.2.2 0 g.2.1)
    let r := (segmentsOf (p.2 - p.1) p.1 p.2).foldl (fun acc e =>
      let b := acc.1.readLines o x.part k e.1 e.2
      (b.1, acc.2 ++ [{ phase := k, step := 0, off := 64 * e.1, bytes := b.2 : CSeg }])) (s, [])
    (r.1.setCollOp (o.setStream { x with out := x.out ++ r.2 })).collSend o (2 * g.1 + (1 - x.dir))
      (.ready (o.hdr x.part x.dir k 0 0))

/-- Move a stream on while its phase has received everything and sent everything, with fuel; the last phase ends it. -/
def State.collGo : Nat → Nat → Nat → Nat → Nat → State → State
  | 0, _, _, _, _, s => s
  | n + 1, q, tag, r, h, s =>
    match s.collOp q tag with
    | none => s
    | some o =>
      match o.stream r h with
      | none => s
      | some x =>
        let m := (planDims (s.planOf o)).length
        if x.done_ || !x.out.isEmpty || x.got != s.phaseBytes o r h x.phase then s
        else if (if o.reduces then x.phase + 1 == m else x.phase == 0) then s.setCollOp (o.setStream { x with done_ := true })
        else State.collGo n q tag r h (s.enterPhase o x (if o.reduces then x.phase + 1 else x.phase - 1))

/-- Move a stream on, and complete the operation when that was the last. -/
def State.collStep (s : State) (q tag r h : Nat) : State := (State.collGo 4 q tag r h s).collSettle q tag

/-! ## Starting -/

/-- The regions of an operation: address and bytes (R192, R204). -/
def State.collRanges (s : State) (o : CollOp) : List (Nat × Nat) :=
  let p := s.planOf o
  let len := dw o.desc 5
  let own := (s.ownedAt (planDims p) s.ringPos o.lines).foldl (fun n g => n + 64 * (g.2 - g.1)) 0
  if o.reduces then [(dq o.desc 3, len), (p.shard, own), (p.scratch, len), (foldBase o.q + p.work, 0x180000)]
  else [(dq o.desc 3, len), (p.stage, len)]

/-- Do the regions of an operation lie in populated addresses outside the module-reserved area (R99, R167, R204)? -/
def State.collRegions (s : State) (o : CollOp) : Bool :=
  (s.collRanges o).all (fun r => r.2 == 0 || populated r.1 r.2 && !touchesReserved r.1 r.2)

/-- A region that leaves the populated addresses of a Fold window raises ADDR_ERR there (R99). -/
def State.noteRanges (s : State) (l : List (Nat × Nat)) : State :=
  (l.filter (fun r => r.2 != 0 && !populated r.1 r.2)).foldl (fun s r => s.noteAddrError r.1) s

/-- Start the operation of an OP that CS0 of quarter q starts next: at most 4 run, and gradient buckets wait for the
verdict (R105, R150, R194). -/
def State.runColl (s : State) (q op : Nat) (flips : List (Nat × Nat)) : State :=
  match s.startable q 153 with
  | none => s
  | some (i, w) =>
    let tag := dw w.desc 2
    let st := s.stepState
    if dOp w.desc ≠ op ∨ 4 ≤ (s.coll.ops.filter (fun o => o.q == q)).length ∨
        (tagClass tag = 2 ∧ st ≠ 3 ∧ st ≠ 5 ∧ st ≠ 6 ∧ st ≠ 7) then s
    else
      let s := (s.upset flips).startEntry q 153 i w
      let o : CollOp := { q := q, seq := w.seq, desc := w.desc, epoch := w.next, attempt := s.attempt, streams := [] }
      if !s.collRegions o then ((s.noteRanges (s.collRanges o)).failRuntime q 153 w.seq 0x20).startCheck s.attempt
      else
        let s := if tagClass tag = 2 then s.phaseStart (if op = 1 then 3 else 5) else s
        let m := (planDims (s.planOf o)).length
        let lanes := (List.range m).flatMap (fun r => [(r, 0), (r, 1)])
        let early (e : Nat × CollHdr) : Bool := e.1 == q && e.2.tag == tag && e.2.attempt == o.attempt % 65536 && e.2.epoch == o.epoch
        let first := if op = 1 then 0 else m - 1
        let granted (l : Nat × Nat) : List Nat := ((s.coll.readies.filter early).filter (fun e =>
          e.2.part == l.1 && e.2.direction == l.2)).map (fun e => e.2.phase)
        let fresh (l : Nat × Nat) : Stream := { part := l.1, dir := l.2, phase := first, ready := granted l }
        let o := { o with streams := lanes.map fresh }
        let s := { s with coll := { s.coll with ops := s.coll.ops ++ [o], readies := s.coll.readies.filter (fun e => !early e) } }
        let s := lanes.foldl (fun s l =>
          match s.collOp q tag with
          | none => s
          | some o => match o.stream l.1 l.2 with
            | none => s
            | some x => State.collGo 4 q tag l.1 l.2 (s.enterPhase o x first)) s
        s.collSettle q tag

/-- REDUCE_SCATTER (R139, R191, R192, R195): CS0 starts the operation, announces its landing slots and makes its own
pieces ready to send. -/
def execReduceScatter (t q : Nat) (flips : List (Nat × Nat)) (s : State) : Host.Outcome State Fault Refusal :=
  done ((s.advance t).runColl q 1 flips)

/-- ALL_GATHER (R139, R193, R195). -/
def execAllGather (t q : Nat) (flips : List (Nat × Nat)) (s : State) : Host.Outcome State Fault Refusal :=
  done ((s.advance t).runColl q 2 flips)

/-! ## READY and segments -/

/-- COLL_READY_RECEIVE (R195): the sender of a stream may send on it. A READY that comes before its operation starts here
is kept for it. -/
def execCollReadyReceive (t : Nat) (h : RxHdr) (c : CollHdr) (s : State) : Host.Outcome State Fault Refusal :=
  let r := (s.advance t).receive h (.ready c) false
  if !r.2 then done r.1
  else
    let s := r.1
    match s.collOp h.srcQ c.tag with
    | none => done { s with coll := { s.coll with readies := s.coll.readies ++ [(h.srcQ, c)] } }
    | some o =>
      if o.attempt % 65536 ≠ c.attempt ∨ o.epoch ≠ c.epoch then
        done { s with coll := { s.coll with readies := s.coll.readies ++ [(h.srcQ, c)] } }
      else
        match o.stream c.part c.direction with
        | none => done s
        | some x => done (s.setCollOp (o.setStream { x with
            ready := (x.ready ++ [c.phase]).eraseDups }))

/-- The CRC-64 of a segment, its lane offset first (R202). -/
def segmentDigest (off : Nat) (bs : List Byte) : Nat := (crc64 (leBytes 8 off ++ bs)).toNat

/-- Add to entry i of six digests, modulo 2⁶⁴. -/
def addAt (l : List Nat) (i v : Nat) : List Nat := l.set i ((l.getD i 0 + v) % 2 ^ 64)

/-- Segments of a stream and phase that are not acknowledged (R195). -/
def State.streamUnacked (s : State) (q : Nat) (c : CollHdr) : Nat :=
  (s.unacked.filter (fun f => s.ownColl q f && (match f.body with
    | .coll x _ => x.tag == c.tag && x.part == c.part && x.direction == c.direction && x.phase == c.phase
    | _ => false))).length

/-- The vector engine that takes the next addition of an operation: the lowest of VE_SET that starts work, has started
everything in its window, and has a window place and a tracker entry (R105, R110, R111, R139, R196, log entry 153). -/
def State.addEngine (s : State) (o : CollOp) : Option Nat :=
  (List.range 16).find? (fun e =>
    let n := 96 + e
    let x := s.queue o.q n
    db o.desc 7 e && x.halt.isNone && s.working (s.queuePage o.q n) && x.window.all (fun w => w.status != .waiting) &&
    decide (x.window.length < windowSize n) && s.canTrack o.q n)

/-- The descriptor of an addition: a vector ADD of one row of n elements in format code `fmt`, with its stream and TAG
(R123, R196); its operands are CS0's own. -/
def addDesc (fmt stream tag n : Nat) (rnd : Bool) : Desc :=
  BitVec.ofNat 512 (1 + 16 + 2 ^ 12 * fmt + 2 ^ 13 * fmt + (if rnd then 2 ^ 14 else 0) + 2 ^ 32 * (n - 1) + 2 ^ 48 * tag +
    2 ^ 480 * stream)

/-- One vector ADD of a received partial and the module's own contribution, on engine `e`, whose window its descriptor
enters started (R196, R197): the state, the sums, and the ACLK at which they are there (R336). -/
def State.collAdd (s : State) (o : CollOp) (e r k off : Nat) (bs : List Byte) : State × List Byte × Nat :=
  let d := o.desc
  let n := 96 + e
  let page := qPage .ve o.q e
  let fo := fmt16 (db d 0 4)
  let p := s.planOf o
  let tag := o.adds % 65536
  let key := drawKey (s.num64 (mPage .rng) Reg.RNG_SEED_LO Reg.RNG_SEED_HI) o.attempt o.q (s.salt o.q) (dStream d) tag
  let at_ := s.lineAt o r k (off / 64)
  let own := s.rowValues fo at_ (bs.length / 2)
  let got := (List.range (bs.length / 2)).map (fun i => decodeElem fo (leNat ((bs.drop (2 * i)).take 2)))
  let cs := (got.zipWith Num.add own).zipIdx.map (fun e =>
    convert16 fo (if p.rnd then .sr (draw key e.2) else .rne) e.1)
  let until_ := s.now + 2 * vecPath 1 ((bs.length / 2 + 63) / 64)
  let w : WinEntry := { desc := addDesc (if db d 0 4 then 1 else 0) (dStream d) tag (bs.length / 2) p.rnd, status := .done,
                        fetchedAt := s.now, startedAt := s.now, salt := s.salt o.q, attempt := o.attempt,
                        waitUntil := until_, seq := 65536 + o.adds }
  let s := s.engineReads page [(at_, bs.length)]
  let s := (s.noteConvs page cs).setQueue o.q n { s.queue o.q n with window := (s.queue o.q n).window ++ [w] }
  let s := s.traceEvent o.q n 0 0 tag
  (s.setCollOp { o with adds := o.adds + 1, until_ := max o.until_ until_ }, cs.flatMap (fun (c : Conv) => leBytes 2 c.code), until_)

/-- A stray segment (R195). -/
def State.stray (s : State) : State := (s.addSat (mPage .coll) Reg.COLL_STRAY 1).raise (mPage .coll) 1

/-- What a stream's received segment leaves here and passes on round the ring (R191, R193): the bytes `bs`, there at ACLK
`at_`. -/
def State.collPass (s : State) (o : CollOp) (c : CollHdr) (bs : List Byte) (at_ : Nat) : State :=
  let p := s.planOf o
  let last := c.step + 2 == (s.phaseRing o c.part c.phase).2.1
  let put (base : Nat) : State := s.memPutBytes (some (o.q, 153, o.seq)) (base + c.off) bs
  let s := if o.reduces then (if last then put p.scratch else s) else put p.stage
  match (if last then none else s.collOp o.q c.tag) with
  | none => s
  | some o =>
    match o.stream c.part c.direction with
    | none => s
    | some x => s.setCollOp (o.setStream { x with out := x.out ++
        [{ phase := c.phase, step := c.step + 1, off := c.off, bytes := bs, at_ := at_ }] })

/-- Act on a segment of a running stream in its phase: add or store it, and pass it on (R191, R193, R196). The addition
waits for a vector engine where none can take it. -/
def State.collTake (s : State) (o : CollOp) (c : CollHdr) (bs : List Byte) : State :=
  match o.stream c.part c.direction with
  | none => s
  | some x =>
    let o := o.setStream { x with got := x.got + bs.length }
    let s := s.setCollOp o
    let s := if o.reduces then
        match s.addEngine o with
        | some e =>
          let r := s.collAdd o e c.part c.phase c.off bs
          r.1.collPass o c r.2.1 r.2.2
        | none => s.setCollOp { (o.setStream x) with late := o.late ++ [(c, bs)] }
      else s.collPass o c bs 0
    s.collStep o.q c.tag c.part c.direction

/-- Additions that waited for a vector engine are made, oldest first, with fuel (R139, R196). -/
def State.addLate : Nat → Nat → Nat → State → State
  | 0, _, _, s => s
  | k + 1, q, tag, s =>
    match s.collOp q tag with
    | none => s
    | some o =>
      match o.late, s.addEngine o with
      | l :: rest, some _ =>
        let o := { o with late := rest }
        State.addLate k q tag ((s.setCollOp o).collTake o l.1 l.2)
      | _, _ => s

/-- COLL_SEGMENT_SEND (R110, R193, R195, R202): additions that waited for an engine are made; then the oldest segment of a
stream leaves, once READY has come for its phase, its sum is there and fewer than 32 of the stream's segments are
unacknowledged. A relayed segment of an ALL_GATHER is read from STAGE. -/
def execCollSegmentSend (t q tag part dir : Nat) (s : State) : Host.Outcome State Fault Refusal :=
  let s := s.advance t
  let s := State.addLate (((s.collOp q tag).map (fun o => o.late.length)).getD 0) q tag s
  match s.collOp q tag with
  | none => done s
  | some o =>
    match o.stream part dir with
    | none => done s
    | some x =>
      match x.out with
      | [] => done s
      | g :: rest =>
        let hd := o.hdr part dir g.phase g.step g.off
        let relayed := !o.reduces && decide (0 < g.step)
        if !x.ready.contains g.phase || decide (s.now < g.at_) || decide (32 ≤ s.streamUnacked q hd) ||
            (relayed && s.writesOpen q 153 o.seq) then done s
        else if !s.canTrack q 153 then done (s.setQueue q 153 { s.queue q 153 with segWait := true })
        else
          let s := s.setQueue q 153 { s.queue q 153 with segWait := false }
          let i := 2 * (s.phaseRing o part g.phase).1 + dir
          let b := if relayed then s.readLines o part g.phase (g.off / 64) ((g.off + g.bytes.length) / 64) else (s, g.bytes)
          let o := o.setStream { x with out := rest }
          let o := if (s.planOf o).ldig then { o with sent := addAt o.sent i (segmentDigest g.off b.2) } else o
          done (((b.1.setCollOp o).collSend o i (.coll hd b.2)).collStep q tag part dir)

/-- COLL_SEGMENT_RECEIVE (R191, R193, R195 to R197, R202). -/
def execCollSegmentReceive (t : Nat) (h : RxHdr) (c : CollHdr) (bytes : List Byte) (flips : List (Nat × Nat)) (s : State) :
    Host.Outcome State Fault Refusal :=
  let r := (s.advance t).receive h (.coll c bytes) false
  if !r.2 then done r.1
  else
    let s := r.1.upset flips
    match s.collOp h.srcQ c.tag with
    | none => done s.stray
    | some o =>
      if o.attempt % 65536 ≠ c.attempt ∨ o.epoch ≠ c.epoch then done s.stray
      else
        match o.stream c.part c.direction with
        | none => done s.stray
        | some x =>
          if x.phase ≠ c.phase ∨ x.done_ then done s.stray
          else
            let i := 2 * (s.phaseRing o c.part c.phase).1 + (1 - c.direction)
            let o := o.setStream { x with since := s.podCount, warned := false }
            let o := if (s.planOf o).ldig then { o with recv := addAt o.recv i (segmentDigest c.off bytes) } else o
            done ((s.setCollOp o).collTake o c bytes)

/-- COLL_WAIT (R198, R203): a stream has waited WAIT_WARN for READY, or for a segment; the tag and the direction waited for
are recorded and the stream keeps waiting. At the lead a link check starts. -/
def execCollWait (t q tag part dir : Nat) (s : State) : Host.Outcome State Fault Refusal :=
  let s := s.advance t
  let m := mPage .coll
  match s.collOp q tag with
  | none => done s
  | some o =>
    match o.stream part dir with
    | none => done s
    | some x =>
      let late (since : Nat) : Bool := decide (since + s.num m Reg.COLL_WAIT_WARN < s.podCount)
      let warn (x : Stream) (phase h : Nat) : Host.Outcome State Fault Refusal :=
        let i := 2 * (s.phaseRing o part phase).1 + h
        let u := ((s.setCollOp (o.setStream x)).setNum m Reg.COLL_WAIT_TAG tag).setNum m Reg.COLL_WAIT_INFO (i + 16 * q)
        done ((u.raise m 0).startCheck s.attempt)
      let unsent := x.out.find? (fun g => !x.ready.contains g.phase)
      match (if x.warnedReady || !late x.asked then none else unsent) with
      | some g => warn { x with warnedReady := true } g.phase dir
      | none =>
        if !x.done_ && !x.warned && decide (x.got < s.phaseBytes o part dir x.phase) && late x.since then
          warn { x with warned := true } x.phase (1 - dir)
        else done s

end Sys2Proof.Machine
end

