-- ==== Sys2Proof/Machine/Frames.lean ====
section
/-! DEFINITION. Ports: sending, acknowledgement, credits, training, and the TIME exchanges (R236 to R243, R247, R253 to R255, R266). -/

namespace Sys2Proof.Machine

/-! ## FRAME_SEND (R240 to R242) -/

/-- Bytes of a frame with its header, for deficits and the replay buffer. -/
def Frame.size (f : Frame) : Nat := 64 + f.len

/-- May the frame at index i of a port's waiting frames go before the others: it may leave by now, no earlier frame of its lane has
the same source and destination (R242), and the port holds its credits (R240)? -/
def Port.ready (x : Port) (now i : Nat) (w : Waiting) : Bool :=
  let f := w.frame
  decide (w.ready ≤ now) && x.affords f &&
  (x.waiting.take i).all (fun g => !(g.frame.vl == f.vl && g.frame.src == f.src && g.frame.dst / 2 ^ 45 == f.dst / 2 ^ 45))

/-- The first frame of a lane that may go. -/
def Port.head (x : Port) (now v : Nat) : Option (Nat × Waiting) :=
  (x.waiting.zipIdx.find? (fun e => e.1.frame.vl == v && x.ready now e.2 e.1)).map (fun e => (e.2, e.1))

/-- Deficit round robin over lanes 0 to 5, with fuel: the frame chosen, and the port with its deficits and turn (R240). -/
def Port.robin (quantum : Nat → Nat) (now : Nat) : Nat → Port → Option (Nat × Waiting) × Port
  | 0, x => (none, x)
  | n + 1, x =>
    let v := x.turn
    let next (d : List Nat) : Port :=
      let w := (v + 1) % 6
      { x with turn := w, deficit := d.set w (d.getD w 0 + quantum w) }
    match x.head now v with
    | none => Port.robin quantum now n (next (if x.waiting.any (fun w => w.frame.vl == v) then x.deficit else x.deficit.set v 0))
    | some (i, w) =>
      let size := w.frame.size
      if size ≤ x.deficit.getD v 0 then (some (i, w), { x with deficit := x.deficit.set v (x.deficit.getD v 0 - size) })
      else Port.robin quantum now n (next x.deficit)

/-- The frame that a port sends next: lane 7, then lane 6, then the others in turn (R240). A module that has been cut, or
has reported itself lost, sends on lane 6 only (R262, R450). -/
def State.choose (s : State) (q d : Nat) : Option (Nat × Waiting) × Port :=
  let x := s.port q d
  let quantum (v : Nat) : Nat := 4160 * max 1 (s.field (qPage .fport q d) Reg.FPORT_VL_ARB (4 * v) 4)
  if s.fabric.pod.selfCut then (x.head s.now 6, x)
  else
    match x.head s.now 7 with
    | some e => (some e, x)
    | none =>
      match x.head s.now 6 with
      | some e => (some e, x)
      | none => Port.robin quantum s.now 12 x

/-- The buffer of a forwarded frame is free once it leaves (R240). -/
def State.freeBuffer (s : State) (w : Waiting) : State :=
  match w.owe with
  | some (q, d, vl, cls, n) => s.oweCredits q d vl cls n
  | none => s

/-- FRAME_SEND (R240 to R242, R340): the first bit of the next frame leaves: it has its LSEQ, takes its credits, and stays in the
replay buffer of 256 KiB until it is acknowledged. A MISWIRED port carries none (R234); a port that quiesces grants no
credits to new frames (R354). -/
def execFrameSend (t q d : Nat) (s : State) : Host.Outcome State Fault Refusal :=
  let s := s.advance t
  if !s.portUsable q d ∨ s.bit (qPage .fport q d) Reg.HDR_PAGE_CTL 1 then done s
  else
    match s.choose q d with
    | (none, _) => done s
    | (some (i, w), x) =>
      let used := x.replay.foldl (fun n r => n + r.frame.size) 0
      if 0x40000 < used + w.frame.size then done s
      else
        let f := s.stamped w.frame
        let k := 3 * f.vl + f.cls
        let c := mapGet (fun _ => 0) x.credits k
        let x := { x with waiting := x.waiting.eraseIdx i, units := x.units + (f.size + 63) / 64, txSeq := (x.txSeq + 1) % 2 ^ 32
                          credits := mapSet (fun _ => 0) x.credits k (c - f.credits)
                          replay := x.replay ++ [{ lseq := x.txSeq, frame := f, sentAt := s.now, resends := 0 }] }
        done (((s.setPort q d x).wire q d (s.port q d).txSeq f).freeBuffer w)

/-! ## Answers, signals and link control -/

/-- FRAME_READ_RESP (R239): the segment that it names has its answer. -/
def execFrameReadResp (t : Nat) (h : RxHdr) (seg : Nat) (error : Bool) (bytes : List (Byte × Bool)) (s : State) :
    Host.Outcome State Fault Refusal :=
  let r := (s.advance t).receive h (.readResp seg error bytes) false
  if !r.2 then done r.1 else done (r.1.answerSeg seg (if error then 0x20 else 0) bytes (r.1.released (.readResp seg error bytes) + 72))

/-- FRAME_SIG (R109, R239): a remote increment of a completion counter. -/
def execFrameSig (t : Nat) (h : RxHdr) (counter quarter amount : Nat) (s : State) : Host.Outcome State Fault Refusal :=
  let r := (s.advance t).receive h (.sig counter quarter amount) false
  if !r.2 then done r.1 else done (r.1.incCounter (quarter % 4) (counter % 4096) amount)

/-- CREDIT_RETURN_TIMER (R240): owed credits go back in a CTRL frame when no other frame carries them. -/
def execCreditReturnTimer (t q d : Nat) (s : State) : Host.Outcome State Fault Refusal :=
  let s := s.advance t
  if s.portUp q d && !(s.port q d).owed.isEmpty then done (s.sendCtrl q d none) else done s

/-- CTRL_KEEPALIVE_SEND (R241). -/
def execCtrlKeepaliveSend (t q d : Nat) (s : State) : Host.Outcome State Fault Refusal :=
  let s := s.advance t
  if s.portUp q d then done (s.sendCtrl q d none) else done s

/-! ## Pod time (R243, R253 to R255) -/

/-- STATE of a TIME payload (R243). -/
def State.timeState (s : State) : Nat :=
  s.field (mPage .pod) Reg.POD_PT_STS 0 3 + (if s.pod.joining then 8 else 0)

/-- A signed difference of two timestamps. -/
def stampDiff (a b : Nat) : Int := (BitVec.ofNat 64 a - BitVec.ofNat 64 b).toInt

/-- POD_TIME_SYNC_TIMER (R243, R254): every 2¹⁶ counts a child sends SYNC_REQ to its tree parent. -/
def execPodTimeSyncTimer (t : Nat) (s : State) : Host.Outcome State Fault Refusal :=
  let s := s.advance t
  let p := s.fabric.pod
  if s.isLead ∨ 6 ≤ s.treeParent ∨ s.bit (mPage .pod) Reg.POD_PT_STS 1 ∨ s.podCount < p.syncAt + 65536 then done s
  else
    let n := (p.syncSeq + 1) % 2 ^ 32
    let s := s.setPod { p with syncSeq := n, syncAt := s.podCount }
    done (s.sendId 6 (s.neigh s.treeParent) (.time { kind := 0, ta := 0, tb := 0, tc := 0, seq := n, state := s.timeState }))

/-- LINK_DELAY_TIMER (R243): every 2¹⁶ counts each port that is up sends LINK_REQ. -/
def execLinkDelayTimer (t : Nat) (s : State) : Host.Outcome State Fault Refusal :=
  let s := s.advance t
  let p := s.fabric.pod
  if s.podCount < p.linkAt + 65536 then done s
  else
    let s := s.setPod { p with linkAt := s.podCount }
    done (s.upPorts.foldl (fun s x => s.sendOn x.1 x.2 6
      (.time { kind := 2, ta := 0, tb := 0, tc := 0, seq := 0, state := s.timeState })) s)

/-- Answer a TIME request: its stamp, that of its reception, and one taken as the answer leaves (R243). -/
def State.timeAnswer (s : State) (kind : Nat) (m : TimeMsg) : TimeMsg :=
  { kind := kind, ta := m.ta, tb := s.pod.count64 % 2 ^ 64, tc := 0, seq := m.seq, state := s.timeState }

/-- SYNC_REQ (R254, R255): answered with SYNC_RESP, or with JOIN_RESP for a child that has not joined. -/
def execSyncReq (t : Nat) (h : RxHdr) (ta seq state : Nat) (s : State) : Host.Outcome State Fault Refusal :=
  let m : TimeMsg := { kind := 0, ta := ta, tb := 0, tc := 0, seq := seq, state := state }
  let r := (s.advance t).receive h (.time m) false
  if !r.2 then done r.1
  else done (r.1.sendId 6 h.src (.time (r.1.timeAnswer (if bitAt state 3 then 4 else 1) m)))

/-- LINK_REQ (R243). -/
def execLinkReq (t : Nat) (h : RxHdr) (ta seq state : Nat) (s : State) : Host.Outcome State Fault Refusal :=
  let m : TimeMsg := { kind := 2, ta := ta, tb := 0, tc := 0, seq := seq, state := state }
  let r := (s.advance t).receive h (.time m) true
  if !r.2 then done r.1 else done (r.1.sendOn h.q h.d 6 (.time (r.1.timeAnswer 3 m)))

/-- LINK_RESP (R243, R266): LINK_DELAY of the port. -/
def execLinkResp (t : Nat) (h : RxHdr) (ta tb tc seq state : Nat) (s : State) : Host.Outcome State Fault Refusal :=
  let r := (s.advance t).receive h (.time { kind := 3, ta := ta, tb := tb, tc := tc, seq := seq, state := state }) true
  if !r.2 then done r.1
  else
    let v := (stampDiff r.1.pod.count64 ta - stampDiff tc tb) / 2
    done (r.1.setReg (qPage .fport h.q h.d) Reg.FPORT_LINK_DELAY (BitVec.ofInt 32 v))

/-- Offset and delay of an exchange (R254). -/
def State.exchange (s : State) (ta tb tc : Nat) : Int × Int :=
  let t4 := s.pod.count64
  ((stampDiff tb ta - stampDiff t4 tc) / 2, (stampDiff t4 ta - stampDiff tc tb) / 2)

/-- Steer to a measured offset (R254): the rate is a free value within ±50 ppm; LOCKED after 8 exchanges in a row within a
quarter count; beyond 2 counts LOCKED clears and TIME_UNLOCK is raised. -/
def State.steer (s : State) (offset delay : Int) : State :=
  let pod := mPage .pod
  let p := s.fabric.pod
  let near := decide (-16 ≤ offset ∧ offset ≤ 16)
  let far := decide (offset < -128 ∨ 128 < offset)
  let good := if near then p.good + 1 else 0
  let s := (s.setReg pod Reg.POD_PT_OFFSET (BitVec.ofInt 32 offset)).setReg pod Reg.POD_PT_DELAY (BitVec.ofInt 32 delay)
  let rate := max (-50000) (min 50000 (Config.steerRate offset))
  let s := { s.setPod { p with good := good } with pod := { s.pod with rate := rate } }
  if far then (s.setBit pod Reg.POD_PT_STS 0 false).raise pod 5
  else if 8 ≤ good then s.setBit pod Reg.POD_PT_STS 0 true
  else s

/-- SYNC_RESP (R254). -/
def execSyncResp (t : Nat) (h : RxHdr) (ta tb tc seq state : Nat) (s : State) : Host.Outcome State Fault Refusal :=
  let r := (s.advance t).receive h (.time { kind := 1, ta := ta, tb := tb, tc := tc, seq := seq, state := state }) false
  let s := r.1
  if !r.2 ∨ seq ≠ s.fabric.pod.syncSeq ∨ s.isLead then done s
  else
    let e := s.exchange ta tb tc
    done (s.steer e.1 e.2)

/-- A timestamp with its high count bits restored to the value nearest this module's own pod time (R243). -/
def State.restore (s : State) (stamp : Nat) : Nat := ((s.pod.count64 : Int) + stampDiff stamp s.pod.count64).toNat

/-- JOIN_RESP (R243, R253, R255): a joining module steps its count once to the parent's time plus the delay; one that is LOCKED never
steps back. -/
def execJoinResp (t : Nat) (h : RxHdr) (ta tb tc seq state : Nat) (s : State) : Host.Outcome State Fault Refusal :=
  let r := (s.advance t).receive h (.time { kind := 4, ta := ta, tb := tb, tc := tc, seq := seq, state := state }) false
  let s := r.1
  if !r.2 ∨ seq ≠ s.fabric.pod.syncSeq ∨ !s.pod.joining then done s
  else
    let e := s.exchange ta tb tc
    let s := s.setReg (mPage .pod) Reg.POD_PT_DELAY (BitVec.ofInt 32 e.2)
    let c := ((s.restore tc : Int) + e.2).toNat
    if s.bit (mPage .pod) Reg.POD_PT_STS 0 && decide (c < s.pod.count64) then done { s with pod := { s.pod with joining := false } }
    else done { s with pod := { s.pod with count64 := c, rem := 0, joining := false } }

end Sys2Proof.Machine
end

