-- ==== Sys2Proof/Machine/Pod.lean ====
section
/-! DEFINITION. The pod: configuration, the lead and its standby, discovery, tack and mend (R200, R235, R246, R255 to R265, R439, R450 to R457). -/

namespace Sys2Proof.Machine

/-! ## What the lead writes into a module (R200, R235, R245) -/

/-- A site and chip number of this pod. -/
def State.podId (s : State) (chip : Nat) : Nat := s.selfId / 2 ^ 15 * 2 ^ 15 + chip

/-- The logical position that a module holds: that of the chip whose alias it is, else its own (R263, R264). -/
def State.positionOf (s : State) (id : Nat) : Nat :=
  let p := mPage .pod
  match (List.range 256).find? (fun n => s.bit p (Reg.POD_ALIASn_FROM + 8 * n) 31 &&
      s.field p (Reg.POD_ALIASn_TO + 8 * n) 0 18 == id) with
  | some n => s.field p (Reg.POD_ALIASn_FROM + 8 * n) 0 15
  | none => id % 2 ^ 15

/-- Logical size of dimension k (R235). -/
def State.logSize (s : State) (k : Nat) : Nat := s.field (mPage .pod) Reg.POD_LSHAPE (8 * k) 5 + 1

/-- The next position from `pos` in direction d of a torus of the given sizes. -/
def stepIn (size : Nat → Nat) (pos d : Nat) : Nat :=
  let k := d / 2
  let n := size k
  putCoord pos k (if d % 2 = 0 then (coord pos k + 1) % n else (coord pos k + n - 1) % n)

/-- The direction of the parent of a position in the tree rooted at another: along Z, then Y, then X, each the shorter
way (R200); 7 at the root. -/
def parentDir (size : Nat → Nat) (root pos : Nat) : Nat :=
  match [2, 1, 0].find? (fun k => coord pos k != coord root k) with
  | some k => shorterWay k (coord pos k) (coord root k) (size k)
  | none => 7

/-- ROLE of a module as the lead writes it: its role and its assignment (R267). -/
def State.roleFor (s : State) (id assign : Nat) : Nat :=
  (if some id = s.leadId then 2 else if some id = s.standbyId then 1 else 0) + 4 * assign

/-- The CONFIG of an active module: its logical position, neighbours and tree (R200, R235, R262, R263). -/
def State.configActive (s : State) (id : Nat) (hand : Bool) : ConfigRec :=
  let pos := s.positionOf id
  let lead := s.leadId.getD s.selfId
  let root := if s.cutOf (lead % 2 ^ 15) = 1 then s.rootChip (lead % 2 ^ 15) else s.positionOf lead
  let near (i : Nat) : Nat := stepIn s.logSize pos i
  let holder (i : Nat) : Nat := (s.aliasOf (s.podId (near i))).getD (s.podId (near i))
  let kids := (List.range 6).foldl (fun m i =>
    if near i ≠ pos ∧ parentDir s.logSize root (near i) = opposite i then m + 2 ^ (8 + i) else m) 0
  { role := s.roleFor id 0, shape := s.num (mPage .pod) Reg.POD_LSHAPE % 2 ^ 21
    pos := coord pos 0 + 2 ^ 8 * coord pos 1 + 2 ^ 16 * coord pos 2
    neigh := (List.range 6).map (fun i => holder i + 2 ^ 31)
    tree := parentDir s.logSize root pos + kids
    attempt := s.attempt, committed := s.committed, skipped := s.num (mPage .step) Reg.STEP_SKIPPED
    time := s.pod.count64 % 2 ^ 64, aliasClear := false, countsValid := hand }

/-- The CONFIG of a spare: no logical position; its parent is its physical neighbour towards the lead, for pod time. -/
def State.configSpare (s : State) (id : Nat) (hand : Bool) : ConfigRec :=
  let d := parentDir s.physSize (s.leadId.getD s.selfId % 2 ^ 15) (id % 2 ^ 15)
  { role := s.roleFor id 1, shape := s.num (mPage .pod) Reg.POD_LSHAPE % 2 ^ 21, pos := 0
    neigh := (List.range 6).map (fun i => if i = d then s.podId (stepIn s.physSize (id % 2 ^ 15) i) + 2 ^ 31 else 0)
    tree := d, attempt := s.attempt, committed := s.committed, skipped := s.num (mPage .step) Reg.STEP_SKIPPED
    time := s.pod.count64 % 2 ^ 64, aliasClear := false, countsValid := hand }

/-- The CONFIG of a module by the cut table. -/
def State.configFor (s : State) (id : Nat) (hand : Bool) : ConfigRec :=
  if s.cutOf (id % 2 ^ 15) = 1 then s.configSpare id hand else s.configActive id hand

/-! ## Applying what the lead writes -/

/-- Write a register as the lead, if its value changes; the answer tells whether it did (R262, R265). -/
def State.leadSet (s : State) (src : Nat) (p : Page) (off v : Nat) : State × Bool :=
  if s.num p off = v then (s, false) else (s.journalled (.lead src) p off (BitVec.ofNat 32 v), true)

/-- After a change of the rings or the tree: running collectives fail, and the module sends again what its new parent must
have (R199, R457). -/
def State.newTopology (s : State) : State :=
  let s := s.failCollectives
  let s := { s with train := { s.train with sentUp := false, prepSent := false, digestSent := false } }
  let st := s.stepState
  if st = 1 ∨ st = 2 then s.climbVerdict
  else if st = 5 then s.climbPrepared
  else if s.train.stage = .digests then s.climbDigests
  else s

/-- Write the collective registers (R205, R262): the answer tells whether any changed. -/
def State.setCollRegs (s : State) (src : Nat) (c : ConfigRec) : State × Bool :=
  let m := mPage .coll
  let l := [(Reg.COLL_SHAPE, c.shape), (Reg.COLL_POS, c.pos), (Reg.COLL_TREE, c.tree)] ++
    (List.range 6).map (fun i => (Reg.COLL_NEIGHi + 4 * i, c.neigh.getD i 0))
  l.foldl (fun a e => let r := a.1.leadSet src m e.1 e.2; (r.1, a.2 || r.2)) (s, false)

/-- Take the step counts from the lead (R142, R255, R265). -/
def State.takeCounts (s : State) (src : Nat) (c : ConfigRec) : State :=
  let m := mPage .step
  let l := [(Reg.STEP_ATTEMPT_LO, c.attempt % 2 ^ 32), (Reg.STEP_ATTEMPT_HI, c.attempt / 2 ^ 32 % 2 ^ 32),
    (Reg.STEP_COMMITTED_LO, c.committed % 2 ^ 32), (Reg.STEP_COMMITTED_HI, c.committed / 2 ^ 32 % 2 ^ 32),
    (Reg.STEP_SKIPPED, c.skipped % 2 ^ 32)]
  (l.foldl (fun s e => (s.leadSet src m e.1 e.2).1) s).mirrorCounts

/-- Clear the alias table (R259, R264). -/
def State.clearAliases (s : State) (src : Nat) : State :=
  let p := mPage .pod
  (List.range 256).foldl (fun s n =>
    ((s.leadSet src p (Reg.POD_ALIASn_FROM + 8 * n) 0).1.leadSet src p (Reg.POD_ALIASn_TO + 8 * n) 0).1) s

/-- Does this module obey a module's lead messages: it is no lead of an earlier term (R258)? -/
def State.obeys (s : State) (src : Nat) : Bool := !s.fabric.pod.deposed.contains src

/-- A new lead is seen without its term: it is one above the last (R258; CONFIG carries no LEAD_TERM), and the lead before it is
no longer obeyed. -/
def State.seeLead (s : State) (src : Nat) : State :=
  let p := mPage .pod
  if s.leadId = some src ∨ s.leadId.isNone then s
  else
    let s := s.setPod { s.fabric.pod with deposed := s.fabric.pod.deposed ++ s.leadId.toList }
    let s := if s.num p Reg.POD_LEAD_TERM ≤ s.fabric.pod.termAt then s.newTerm (s.fabric.pod.termAt + 1) else s
    if s.standbyId = some src then s.setNum p Reg.POD_STANDBY_ID 0 else s

/-- The parent that the module synchronises to: its direction, and the module there (R254). -/
def State.parent (s : State) : Nat × Nat := (s.treeParent, s.neigh s.treeParent)

/-- A new lead hears of the neighbours that this module cannot reach (R247, R261). -/
def State.reportAgain (s : State) : State := (List.range 6).foldl (fun s d => s.directionLost 0 d) s

/-- Apply a CONFIG (R245, R255, R259, R262, R439): role, collective registers, and step counts. A module that enters the pod
joins its pod time, and its cut table is built anew from what follows; HOLDOVER ends where the parent is another (R254). -/
def State.applyConfig (s : State) (src : Nat) (c : ConfigRec) : State :=
  let p := mPage .pod
  let entering := c.countsValid && (s.fabric.pod.stage != .idle || s.fabric.pod.tacking)
  let parent := s.parent
  let watch := if c.role % 4 = 1 ∧ !s.isStandby then s.podCount else s.fabric.pod.watchAt
  let s := s.seeLead src
  let r := s.leadSet src p Reg.POD_ROLE c.role
  let s := r.1.raiseIf r.2 p 0
  let was := s.leadId
  let s := (s.leadSet src p Reg.POD_LEAD_ID (src + 2 ^ 31)).1
  let s := if was = some src then s else s.reportAgain
  let s := if c.role % 4 = 1 then s.setNum p Reg.POD_STANDBY_ID (s.selfId + 2 ^ 31) else s
  let s := if c.aliasClear then (s.clearAliases src).setBit p Reg.POD_POD_CTL 9 false else s
  let s := if c.countsValid then s.takeCounts src c else s
  let s := s.setBit p Reg.POD_PT_STS 2 (c.role % 4 == 2)
  let s := { s with pod := { s.pod with joining := s.pod.joining || (entering && c.role % 4 != 2) } }
  let tack := s.fabric.pod.tacking
  let s := s.setPod { s.fabric.pod with stage := .idle, following := s.fabric.pod.following || c.countsValid, tacking := false
                                        incoming := if entering then [] else s.fabric.pod.cut, early := [], watchAt := watch
                                        termAt := s.num p Reg.POD_LEAD_TERM }
  let s := s.raiseIf tack (mPage .boot) 3
  let g := s.setCollRegs src c
  let s := if g.1.parent = parent then g.1 else g.1.setBit p Reg.POD_PT_STS 1 false
  let s := if g.2 && s.train.takeUp.isSome then s.announce else s
  if g.2 then s.newTopology else s

/-- A position is cut (R262, R457): segments to its chip fail, and its mend is open until the epoch ends. -/
def State.markedCut (s : State) (subject : Nat) : State :=
  let s := { s.failSegsTo (subject % 2 ^ 15) with train := { s.train with mended := true } }
  if s.fabric.pod.following then s else s.setPod { s.fabric.pod with mendOpen := some (subject % 2 ^ 18) }

/-- Set a cut-table entry (R246, R262): the change is journalled, segments in flight to a chip that is cut fail, and its
neighbours' ports show it. -/
def State.applyMark (s : State) (src subject v : Nat) : State :=
  let chip := subject % 2 ^ 15
  let p := mPage .pod
  let s := s.journalAdd (s.entry (.lead src) p Reg.POD_CUT_VIEW 0 (BitVec.ofNat 32 (s.cutOf chip)) (BitVec.ofNat 32 v))
  let s := if s.fabric.pod.following then
      s.setPod { s.fabric.pod with incoming := mapSet (fun _ => 3) s.fabric.pod.incoming chip (v % 4) }
    else s.setPod { s.fabric.pod with cut := mapSet (fun _ => 3) s.fabric.pod.cut chip (v % 4) }
  let s := if v = 2 then s.markedCut subject else s
  ((List.range 24).filter (fun i => s.field (qPage .fport (i / 6) (i % 6)) Reg.FPORT_NEIGH_ID 0 18 == subject % 2 ^ 18 &&
    s.bit (qPage .fport (i / 6) (i % 6)) Reg.FPORT_NEIGH_ID 31)).foldl (fun s i =>
    s.setBit (qPage .fport (i / 6) (i % 6)) Reg.FPORT_PORT_STS 4 (v == 2)) s

/-- Set or clear an alias entry (R246, R264, R267). -/
def State.applyAlias (s : State) (src n from_ dest : Nat) (clear : Bool) : State :=
  let p := mPage .pod
  let n := n % 256
  ((s.leadSet src p (Reg.POD_ALIASn_FROM + 8 * n) (if clear then 0 else from_ % 2 ^ 18 + 2 ^ 31)).1.leadSet src p
    (Reg.POD_ALIASn_TO + 8 * n) (if clear then 0 else dest % 2 ^ 18)).1

/-- Become ACTIVE in a lost position, and begin take-up: every layer of the layer table is to be fetched from a holder that
the lead names (R262, R455). -/
def State.applyAssign (s : State) (src lost adopter : Nat) : State :=
  if adopter ≠ s.selfId then s
  else
    let p := mPage .pod
    let r := s.leadSet src p Reg.POD_ROLE (s.field p Reg.POD_ROLE 0 2)
    let s := r.1.raiseIf r.2 p 0
    let layers := (List.range s.layerCount).map (fun i =>
      { index := i, layer := (s.layerEntry i).2.2, holder := none, digest := none : LayerCopy })
    let u : TakeUp := { lost := lost, since := s.podCount, attempt := s.attempt, layers := layers }
    let s := ({ s with train := { s.train with takeUp := some u } } : State).takenUp u
    layers.foldl (fun s c => s.askHolder (((s.layerEntry c.index).1 - 0x10000000000) / 0x10000)) s

/-- This module is cut (R262): it stops transmitting but on lane 6. -/
def State.applyCut (s : State) (src subject : Nat) : State :=
  if subject % 2 ^ 18 ≠ s.selfId then s
  else
    let p := mPage .pod
    let r := s.leadSet src p Reg.POD_ROLE (s.field p Reg.POD_ROLE 0 2 + 8)
    (r.1.raiseIf r.2 p 0).setPod { r.1.fabric.pod with selfCut := true }

/-- The configuration that the module keeps in journal flash (R260). -/
def State.storePod (s : State) : State :=
  let p := mPage .pod
  let c := mPage .coll
  let grab (pg : Page) (l : List Nat) : List (Nat × Nat) := l.map (fun o => (o, s.num pg o))
  let x : StoredPod :=
    { sig := s.num64 p Reg.POD_TOPO_SIG_LO Reg.POD_TOPO_SIG_HI
      pod := grab p ([Reg.POD_ROLE, Reg.POD_LEAD_ID, Reg.POD_STANDBY_ID] ++
        (List.range 256).flatMap (fun n => [Reg.POD_ALIASn_FROM + 8 * n, Reg.POD_ALIASn_TO + 8 * n]))
      coll := grab c ([Reg.COLL_SHAPE, Reg.COLL_POS, Reg.COLL_TREE] ++ (List.range 6).map (fun i => Reg.COLL_NEIGHi + 4 * i))
      cut := s.fabric.pod.cut }
  s.setPod { s.fabric.pod with stored := some x }

/-- Is the way to the position in direction d from a coordinate c to a coordinate n one hop in a dimension of a given
size (R234)? -/
def nextTo (size d c n : Nat) : Bool := if d % 2 = 0 then n == (c + 1) % size else c == (n + 1) % size

/-- Once the physical shape is known (R234): the ports of a dimension of size 1 are disabled, and a port that is cabled to another
position than the next one is MISWIRED. -/
def State.checkPorts (s : State) : State :=
  (List.range 24).foldl (fun s i =>
    let q := i / 6
    let d := i % 6
    let k := d / 2
    let p := qPage .fport q d
    let id := s.num p Reg.FPORT_NEIGH_ID
    if s.physSize k = 1 then s.linkDown q d
    else if bitAt id 31 && !s.bit p Reg.FPORT_PORT_STS 2 && !nextTo (s.physSize k) d (coord s.selfId k) (coord id k) then
      (s.setBit p Reg.FPORT_PORT_STS 2 true).raise p 3
    else s) s

/-- An epoch's records are complete (R246, R262): MEND_EPOCH, journalled as the lead's change (R265); a cut table that was handed
over takes effect; collectives that failed run again on the new rings once the verdict is GO (R199, R453). -/
def State.applyEpochEnd (s : State) (src epoch : Nat) : State :=
  let s := (s.leadSet src (mPage .pod) Reg.POD_MEND_EPOCH epoch).1
  let s := s.setPod { s.fabric.pod with mendOpen := none }
  let s := if s.fabric.pod.following then
      (s.setPod { s.fabric.pod with following := false, cut := s.fabric.pod.incoming, incoming := [] }).checkPorts
    else s
  let st := s.stepState
  let s := if st = 3 ∨ st = 5 ∨ st = 6 then (List.range 4).foldl (fun s q => s.retry q 153) s else s
  s.storePod

/-- Apply one record that the lead sends (R246): no other module's records of these types are obeyed. -/
def State.applyRecord (s : State) (src epoch : Nat) (r : MendRec) : State :=
  let own := s.num (mPage .pod) Reg.POD_MEND_EPOCH
  if (!s.fabric.pod.following && epoch != own + 1) || !(src == s.selfId && s.isLead || s.leadId == some src) then s
  else
    match r.rtype with
    | 1 => s.applyCut src r.subject
    | 2 => s.applyMark src r.subject r.value
    | 3 => s.applyAlias src r.value r.subject r.other (bitAt r.flags 0)
    | 4 => s.applyAssign src r.subject r.other
    | 7 => s.applyEpochEnd src epoch
    | _ => s

/-! ## The lead's mend (R261 to R264) -/

/-- Send a record to every other module of the pod. -/
def State.broadcast (s : State) (epoch : Nat) (r : MendRec) : State :=
  s.otherModules.foldl (fun s id => s.sendId 6 id (.mend epoch [r])) s

/-- Send a record to every module, this one included; it applies here at once. -/
def State.mendAll (s : State) (epoch : Nat) (r : MendRec) : State :=
  (s.broadcast epoch r).applyRecord s.selfId epoch r

/-- Modules of the pod, this one included. -/
def State.everyModule (s : State) : List Nat := s.selfId :: s.otherModules

/-- Send the CONFIG of every module whose configuration differs from the one it had. -/
def State.reconfigure (s : State) (before : List (Nat × ConfigRec)) (hand : Nat → Bool) : State :=
  s.everyModule.foldl (fun s id =>
    let c := s.configFor id (hand id)
    let same := before.any (fun e => e.1 == id && e.2.role == c.role && e.2.shape == c.shape && e.2.pos == c.pos &&
      e.2.neigh == c.neigh && e.2.tree == c.tree)
    if same then s
    else if id = s.selfId then s.applyConfig id c
    else s.sendId 6 id (.disc (.config c))) s

/-- Count a recovery of the step (R470, R471): DETAIL 0 abort, 1 regeneration, 2 take-up only. -/
def State.noteRecovery (s : State) (lost detail : Nat) : State :=
  (s.addSat (mPage .fault) Reg.FAULT_RECOVERIES 1).fault 0x0B 0 0 lost detail 9

/-- The lead's choice of recovery at the end of a mend (R451 to R453). -/
def State.recover (s : State) (lost : Nat) : State :=
  let st := s.stepState
  if st = 1 ∨ st = 2 then (s.noteRecovery lost 0).sendVerdict (0x12, 0, 0x3F800000)
  else if st = 3 ∨ st = 5 ∨ st = 6 then
    ({ s with train := { s.train with bucketKids := [] } } : State).treeDown s.treeHdr .bucketQuery
  else s.noteRecovery lost 2

/-- The spare nearest to a position, that no unpick has taken (R262). -/
def State.nearestSpare (s : State) (id : Nat) : Option Nat :=
  let taken := (s.fabric.pod.adopting.map Prod.snd).getD (2 ^ 18)
  (s.nearest (id % 2 ^ 15) ((s.fabric.pod.cut.filter (fun e => e.2 == 1 && s.podId e.1 != taken)).map Prod.fst)).map s.podId

/-- The alias entry of a mend: the one that leads to the lost module, else the first free one (R264). -/
def State.aliasSlot (s : State) (lost : Nat) : Option Nat :=
  let p := mPage .pod
  ((List.range 256).find? (fun n => s.bit p (Reg.POD_ALIASn_FROM + 8 * n) 31 &&
    s.field p (Reg.POD_ALIASn_TO + 8 * n) 0 18 == lost)).orElse (fun _ =>
    (List.range 256).find? (fun n => !s.bit p (Reg.POD_ALIASn_FROM + 8 * n) 31))

/-- Choose a new standby: the best candidate that is neither this lead nor excluded (R257, R258). -/
def State.chooseStandby (s : State) (not_ : Nat) : State :=
  let better (a b : Nat × Nat) : Bool := decide (b.1 < a.1 ∨ (a.1 = b.1 ∧ a.2 < b.2))
  let l := s.fabric.pod.keys.filter (fun k => k.2 != s.selfId && k.2 != not_ && decide (s.cutOf (k.2 % 2 ^ 15) < 2))
  match l.foldl (fun (b : Option (Nat × Nat)) k => match b with
      | none => some k
      | some x => if better k x then some k else some x) none with
  | some k => s.setNum (mPage .pod) Reg.POD_STANDBY_ID (k.2 + 2 ^ 31)
  | none => s.setNum (mPage .pod) Reg.POD_STANDBY_ID 0

/-- The lead answers a module's request (R244). -/
def State.leadAnswer (s : State) (dest kind : Nat) (subject : Nat) (a : Option Nat) : State :=
  s.sendId 7 dest (.tree s.treeHdr (.leadAnswer kind a.isNone subject (a.getD 0)))

/-- The lead chooses an unpick's adopter, unless no spare is free or the alias table is full (R442). -/
def State.adopterFor (s : State) (id : Nat) : Option Nat := if (s.aliasSlot id).isNone then none else s.nearestSpare id

/-- The adopter of an unpick is lost before its cut: the lead chooses another (R443). -/
def State.reAdopt (s : State) (gone : Nat) : State :=
  match s.fabric.pod.adopting with
  | none => s
  | some (id, a) =>
    if a ≠ gone then s
    else
      let c := s.adopterFor id
      (s.setPod { s.fabric.pod with adopting := c.map (fun x => (id, x)) }).leadAnswer id 5 id c

/-- The adopter already chosen for a module that is being unpicked (R443). -/
def State.adopterOf (s : State) (lost : Nat) : Option Nat :=
  match s.fabric.pod.adopting with
  | some (id, a) => if id = lost then some a else none
  | none => none

/-- A mend record without flags (R261). -/
def mendRec (k subject other value : Nat) : MendRec := { rtype := k, flags := 0, subject := subject, other := other, value := value }

/-- The lead's first records of a loss: the cut to the lost module, its mark, the fault record and its end as standby
(R260, R261, R463). -/
def State.markLost (s : State) (lost mark e : Nat) : State :=
  let s := s.sendId 6 lost (.mend e [mendRec 1 lost 0 0])
  let s := s.mendAll e (mendRec 2 lost 0 mark)
  let s := (s.setNum (mPage .fault) Reg.FAULT_LAST_LOST (lost + 2 ^ 31)).faultRecord 0x0A 0 0 lost e
  let s := if s.standbyId = some lost then s.chooseStandby lost else s
  s.setPod { s.fabric.pod with unreachable := s.fabric.pod.unreachable.filter (fun u => u.1 != lost) }

/-- The spare `sp` takes the identity in slot `n` of the alias table, in place of the lost module (R261). -/
def State.replaceLost (s : State) (lost e sp n : Nat) (before : List (Nat × ConfigRec)) : State :=
  let p := mPage .pod
  let home := if s.bit p (Reg.POD_ALIASn_FROM + 8 * n) 31 then s.field p (Reg.POD_ALIASn_FROM + 8 * n) 0 18 else lost
  let s := s.mendAll e (mendRec 2 sp 0 0)
  let s := s.mendAll e (mendRec 3 home sp n)
  let s := if sp = s.selfId then s.applyAssign sp home sp else s.sendId 6 sp (.mend e [mendRec 4 home sp 0])
  let s := s.reconfigure before (fun id => id == sp && id != s.selfId)
  let s := s.mendAll e (mendRec 7 0 0 4)
  (s.setPod { s.fabric.pod with adopting := s.fabric.pod.adopting.filter (fun a => a.1 != lost) }).raise p 3

/-- A lost active module's place goes to the chosen spare, to its adopter or to the nearest spare; with none, the pod stays
short (R261, R264, R442). -/
def State.fillPlace (s : State) (lost e : Nat) (chosen : Option Nat) (unpick : Bool) (before : List (Nat × ConfigRec)) : State :=
  match (chosen.orElse (fun _ => s.adopterOf lost)).orElse (fun _ => s.nearestSpare lost), s.aliasSlot lost with
  | some sp, some n =>
    let s := s.replaceLost lost e sp n before
    if unpick then s else s.recover lost
  | _, _ => s.raise (mPage .pod) 4

/-- Declare a module lost and mend (R261, R262, R264): `chosen` is the adopter of an unpick, and an unpick's mend needs no
recovery of the step (R442). -/
def State.declareLost (s : State) (lost : Nat) (chosen : Option Nat) (unpick : Bool) : State :=
  let p := mPage .pod
  let old := s.cutOf (lost % 2 ^ 15)
  if !s.isLead ∨ lost = s.selfId ∨ 2 ≤ old then s
  else if old = 0 ∧ s.aliasSlot lost = none then s.raise p 4
  else
    let before := s.everyModule.map (fun id => (id, s.configFor id false))
    let e := s.num p Reg.POD_MEND_EPOCH + 1
    let s := s.markLost lost (if unpick && old == 1 then 3 else 2) e
    if old = 1 then
      (((s.mendAll e (mendRec 7 0 0 1)).reconfigure before (fun _ => false)).raise p 3).reAdopt lost
    else s.fillPlace lost e chosen unpick before

/-- The lead declares lost each module that more than half of its distinct physical neighbours report (R261). -/
def State.mendCheck (s : State) : State :=
  if !s.isLead then s
  else
    let l := (s.fabric.pod.unreachable.map Prod.fst).eraseDups
    l.foldl (fun s id =>
      let near := ((List.range 6).map (fun d => stepIn s.physSize (id % 2 ^ 15) d)).eraseDups.filter (fun c =>
        c != id % 2 ^ 15 && decide (s.cutOf c < 2))
      let seen := near.filter (fun c => s.fabric.pod.unreachable.contains (id, s.podId c))
      if near.length < 2 * seen.length then s.declareLost id none false else s) s

/-! ## Heartbeats and takeover (R258, R457) -/

/-- The distinct physical neighbours of a chip that are in the pod, but for this module. -/
def State.physNeighbours (s : State) (chip : Nat) : List Nat :=
  (((List.range 6).map (fun d => stepIn s.physSize chip d)).eraseDups.filter (fun c =>
    c != chip && c != s.selfId % 2 ^ 15 && decide (s.cutOf c < 2))).map s.podId

/-- LEAD_HEARTBEAT_TIMER (R258). A lead that is being unpicked sends none, so that its standby takes over (R442). -/
def execLeadHeartbeatTimer (t : Nat) (s : State) : Host.Outcome State Fault Refusal :=
  let s := s.advance t
  let p := s.fabric.pod
  if !s.isLead ∨ s.boot.unpick.isSome ∨ s.podCount < p.lastBeat + s.num (mPage .pod) Reg.POD_LEAD_TIMEOUT / 4 then done s
  else
    let s := s.setPod { p with lastBeat := s.podCount }
    let dest := (s.standbyId.toList ++ s.physNeighbours (s.selfId % 2 ^ 15)).eraseDups
    done (dest.foldl (fun s id => s.sendId 7 id (.tree s.treeHdr (.heartbeat s.podCount))) s)

/-- HEARTBEAT (R258): the standby and the lead's neighbours record when they received it. -/
def execHeartbeat (t : Nat) (h : RxHdr) (th : TreeHdr) (time : Nat) (s : State) : Host.Outcome State Fault Refusal :=
  let r := (s.advance t).receiveTree h th (.heartbeat time)
  if !r.2 then done r.1
  else
    let old := if r.1.leadId = some th.origin then [] else r.1.leadId.toList
    let s := r.1.setPod { r.1.fabric.pod with heartbeat := some r.1.podCount, probe := none
                                              deposed := (r.1.fabric.pod.deposed ++ old).filter (fun x => x != th.origin) }
    done (s.setNum (mPage .pod) Reg.POD_LEAD_ID (th.origin + 2 ^ 31))

/-- Has no HEARTBEAT come for LEAD_TIMEOUT counts (R258), counted for a standby that has heard none from when it became one? -/
def State.leadSilent (s : State) : Bool :=
  decide (s.fabric.pod.heartbeat.getD s.fabric.pod.watchAt + s.num (mPage .pod) Reg.POD_LEAD_TIMEOUT ≤ s.podCount)

/-- STANDBY_LEAD_TIMEOUT (R258): the standby probes the lead's distinct physical neighbours. -/
def execStandbyLeadTimeout (t : Nat) (s : State) : Host.Outcome State Fault Refusal :=
  let s := s.advance t
  let p := s.fabric.pod
  match s.leadId with
  | none => done s
  | some l =>
    if !s.isStandby ∨ !s.leadSilent ∨ p.probe.isSome ∨ s.podCount < p.probeAt then done s
    else
      let asked := s.physNeighbours (l % 2 ^ 15)
      let s := s.setPod { p with probe := some { since := s.podCount, asked := asked, silent := [] } }
      done (asked.foldl (fun s id => s.sendId 6 id (.disc (.leadProbe (s.num (mPage .pod) Reg.POD_LEAD_TERM)))) s)

/-- LEAD_PROBE (R258): a neighbour of the lead answers when it last heard it. -/
def execLeadProbe (t : Nat) (h : RxHdr) (term : Nat) (s : State) : Host.Outcome State Fault Refusal :=
  let r := (s.advance t).receive h (.disc (.leadProbe term)) false
  let s := r.1
  let own := s.num (mPage .pod) Reg.POD_LEAD_TERM
  if !r.2 ∨ term < own then done s
  else done (s.sendId 6 h.src (.disc (.probeAnswer own (s.fabric.pod.heartbeat.getD 0) s.leadSilent)))

/-- PROBE_ANSWER (R258). -/
def execProbeAnswer (t : Nat) (h : RxHdr) (term last : Nat) (none_ : Bool) (s : State) : Host.Outcome State Fault Refusal :=
  let r := (s.advance t).receive h (.disc (.probeAnswer term last none_)) false
  let s := r.1
  match s.fabric.pod.probe with
  | none => done s
  | some p =>
    if !r.2 ∨ !none_ ∨ !p.asked.contains h.src then done s
    else done (s.setPod { s.fabric.pod with probe := some { p with silent := (p.silent ++ [h.src]).eraseDups } })

/-- A new lead writes every module's configuration, and first completes the mend that its predecessor left open, under the
next MEND_EPOCH (R457): with the adopter already named by the alias table, or by a choice of its own. -/
def State.finishMend (s : State) : State :=
  match s.fabric.pod.mendOpen with
  | none => s.reconfigure [] (fun _ => false)
  | some lost =>
    let p := mPage .pod
    let e := s.num p Reg.POD_MEND_EPOCH + 1
    let s := s.mendAll e (mendRec 2 lost 0 2)
    match (List.range 256).find? (fun n => s.bit p (Reg.POD_ALIASn_FROM + 8 * n) 31 &&
      s.field p (Reg.POD_ALIASn_FROM + 8 * n) 0 18 == lost) with
    | some n => (s.replaceLost lost e (s.field p (Reg.POD_ALIASn_TO + 8 * n) 0 18) n []).recover lost
    | none =>
      let s := s.fillPlace lost e none false []
      if s.fabric.pod.mendOpen.isNone then s else s.reconfigure [] (fun _ => false)

/-- The standby takes over (R258, R457, R470): a higher term, its role, a new standby, every module's tree, an open mend, and
the step's verdict, PREPARED or COMMIT again. -/
def State.takeOver (s : State) : State :=
  let p := mPage .pod
  let old := s.leadId.getD 0
  let s := s.newTerm (s.num p Reg.POD_LEAD_TERM + 1)
  let s := s.setNum p Reg.POD_LEAD_ID (s.selfId + 2 ^ 31)
  let s := s.setPod { s.fabric.pod with deposed := s.fabric.pod.deposed ++ [old] }
  let s := s.chooseStandby old
  let s := (s.setPod { s.fabric.pod with probe := none, termAt := s.num p Reg.POD_LEAD_TERM }).raise p 1
  let s := s.faultRecord 0x0D 0 0 old 0
  let s := s.journalled (.cp s.service 0) p Reg.POD_ROLE (BitVec.ofNat 32 (2 + 4 * s.field p Reg.POD_ROLE 2 2))
  let s := ((s.raise p 0).finishMend).reportAgain.mendCheck
  match s.train.commit with
  | some c => s.treeDown s.treeHdr (.commitDown c.time c.present c.nz)
  | none => s

/-- PROBE_WINDOW_EXPIRE (R258): LEAD_TIMEOUT after its probe, the standby takes over if more than half of those asked
heard nothing; otherwise it raises LEAD_PATH and waits before it probes again. -/
def execProbeWindowExpire (t : Nat) (s : State) : Host.Outcome State Fault Refusal :=
  let s := s.advance t
  let wait := s.num (mPage .pod) Reg.POD_LEAD_TIMEOUT
  match s.fabric.pod.probe with
  | none => done s
  | some p =>
    if s.podCount < p.since + wait then done s
    else if p.asked.length < 2 * p.silent.length then done s.takeOver
    else
      let s := s.setPod { s.fabric.pod with probe := none, probeAt := s.podCount + wait }
      done (s.raise (mPage .pod) 2)

/-! ## Discovery (R234, R245, R257, R259, R260) -/

/-- The topology signature over the 24 NEIGH_ID values and SELF_ID (R260). -/
def State.topoSig (s : State) : Nat :=
  (crc64 ((List.range 24).flatMap (fun i => leBytes 8 (s.num (qPage .fport (i / 6) (i % 6)) Reg.FPORT_NEIGH_ID)) ++
    leBytes 8 s.selfId)).toNat

/-- Is the sender in a pod whose lead is alive (R439)? -/
def State.inPod (s : State) : Bool :=
  decide (s.field (mPage .pod) Reg.POD_ROLE 2 2 < 2) && s.fabric.pod.stage == .idle

/-- This module's HELLO on a port (R245). -/
def State.sendHello (s : State) (q d : Nat) : State :=
  s.sendOn q d 6 (.disc (.hello s.selfId q d (s.bit (mPage .pod) Reg.POD_POD_CTL 8) s.inPod
    (s.num (mPage .pod) Reg.POD_LEAD_TERM)))

/-- Flood a candidate on every port that is up. -/
def State.flood (s : State) (prio id : Nat) (not_ : Option (Nat × Nat)) : State :=
  (s.upPorts.filter (fun p => some p != not_)).foldl (fun s p => s.sendOn p.1 p.2 6 (.disc (.candidate prio id))) s

/-- Begin the election with this module's own key, if it may lead, and the keys that came before (R257). -/
def State.beginElection (s : State) : State :=
  let prio := s.field (mPage .pod) Reg.POD_POD_CTL 0 8
  let own : List (Nat × Nat) := if prio = 0 then [] else [(prio, s.selfId)]
  let keys := (own ++ s.fabric.pod.early).eraseDups
  let s := s.setPod { s.fabric.pod with stage := .election, keyAt := s.podCount, keys := keys, early := [] }
  keys.foldl (fun s k => s.flood k.1 k.2 none) s

/-- A port trains anew: it is down until LINK_TRAINED (R236, R259). -/
def State.retrain (s : State) (q d : Nat) : State :=
  let page := qPage .fport q d
  let s := (s.setBit page Reg.FPORT_NEIGH_ID 31 false).setBit page Reg.FPORT_PORT_STS 2 false
  if s.portUp q d then s.setNum page Reg.FPORT_PORT_STS (s.num page Reg.FPORT_PORT_STS / 0x200 * 0x200) else s

/-- Has stage 1 of discovery ended: every enabled port has trained and had its hello, or 1.5 s have passed (R259)? -/
def State.stageOver (s : State) : Bool :=
  (List.range 24).all (fun i =>
    let p := qPage .fport (i / 6) (i % 6)
    !s.bit p Reg.FPORT_PORT_CTL 0 || (s.portUp (i / 6) (i % 6) && s.bit p Reg.FPORT_NEIGH_ID 31)) ||
  decide (s.fabric.pod.stageAt + 1350000000 ≤ s.podCount)

/-- Begin discovery (R259, R260): every port trains, and says hello as it comes up; a warm start with a stored configuration
first confirms its signature. A module whose straps read wrong takes no part (R407). -/
def State.startDiscovery (s : State) (warm : Bool) : State :=
  let p := mPage .pod
  let s := (List.range 24).foldl (fun s i => s.retrain (i / 6) (i % 6)) s
  let s := s.setField p Reg.POD_ROLE 2 2 3
  let s := s.setPod { s.fabric.pod with tables := [], confirms := [], confirmed := false, tacking := false, deposed := [],
                                        stageAt := s.podCount }
  if s.strapErr then s.setPod { s.fabric.pod with stage := .idle }
  else if warm && s.fabric.pod.stored.isSome then s.setPod { s.fabric.pod with stage := .confirm }
  else s.beginElection

/-- Does a neighbour's hello match the wiring of R234, as far as a module can tell from its own position and the least that it
knows of the physical size of the port's dimension? -/
def wired (size self q d id nq nd : Nat) : Bool :=
  let k := d / 2
  let c := coord self k
  let n := coord id k
  nq == q && nd == opposite d && id / 2 ^ 15 == self / 2 ^ 15 &&
  (List.range 3).all (fun j => j == k || coord self j == coord id j) &&
  (if d % 2 = 0 then n == c + 1 || (n == 0 && decide (size ≤ c + 1)) else n + 1 == c || (c == 0 && decide (size ≤ n + 1)))

/-- Restore the configuration that flash holds (R260, R433). -/
def State.restorePod (s : State) (x : StoredPod) : State :=
  let s := x.pod.foldl (fun s e => s.setNum (mPage .pod) e.1 e.2) s
  let s := x.coll.foldl (fun s e => s.setNum (mPage .coll) e.1 e.2) s
  let s := { s with pod := { s.pod with joining := !s.isLead } }
  (s.setBit (mPage .boot) Reg.BOOT_SKIP_MASK 3 true).setPod { s.fabric.pod with cut := x.cut, stage := .idle, watchAt := s.podCount }

/-- The lead of a warm start acts once every module has confirmed: all restore, or full discovery runs (R260). -/
def State.settleConfirm (s : State) : State :=
  match s.fabric.pod.stored with
  | none => s
  | some x =>
    let lead := mapGet (fun _ => 0) x.pod Reg.POD_LEAD_ID % 2 ^ 18
    if lead ≠ s.selfId ∨ s.fabric.pod.stage ≠ .confirm then s
    else
      let all := (x.cut.filter (fun e => decide (e.2 < 2))).map (fun e => s.podId e.1)
      let l := s.fabric.pod.confirms
      let others := all.filter (fun id => id != s.selfId)
      let tell (agree : Bool) (s : State) : State :=
        others.foldl (fun s id => s.sendId 6 id (.disc (.topoConfirm (s.num64 (mPage .pod) Reg.POD_TOPO_SIG_LO Reg.POD_TOPO_SIG_HI) agree))) s
      if l.any (fun e => !e.2) then (tell false s).beginElection
      else if all.all (fun id => l.any (fun e => e.1 == id)) then (tell true s).restorePod x
      else s

/-- In a warm start, once stages 1 and 2 are over, the module confirms its signature to the lead (R260). -/
def State.confirmSelf (s : State) : State :=
  let p := mPage .pod
  match s.fabric.pod.stored with
  | none => s
  | some x =>
    if s.fabric.pod.stage ≠ .confirm ∨ s.fabric.pod.confirmed ∨ !s.stageOver then s
    else
      let sig := s.topoSig
      let s := (s.setNum64 p Reg.POD_TOPO_SIG_LO Reg.POD_TOPO_SIG_HI sig).setPod { s.fabric.pod with confirmed := true }
      let lead := mapGet (fun _ => 0) x.pod Reg.POD_LEAD_ID % 2 ^ 18
      if lead = s.selfId then
        (s.setPod { s.fabric.pod with confirms := s.fabric.pod.confirms ++ [(s.selfId, sig == x.sig)] }).settleConfirm
      else s.sendId 6 lead (.disc (.topoConfirm sig (sig == x.sig)))

/-- HELLO (R234, R259, R439): the neighbour is recorded, wrong cabling is MISWIRED, a starting module that meets a pod
tacks, and a module in a pod answers a starting one. -/
def execHello (t : Nat) (h : RxHdr) (id quarter direction : Nat) (spare inPod : Bool) (term : Nat) (s : State) :
    Host.Outcome State Fault Refusal :=
  let r := (s.advance t).receive h (.disc (.hello id quarter direction spare inPod term)) true
  if !r.2 then done r.1
  else
    let s := r.1
    let page := qPage .fport h.q h.d
    let pod := mPage .pod
    let s := s.setNum page Reg.FPORT_NEIGH_ID (id % 2 ^ 18 + 2 ^ 18 * (quarter % 4) + 2 ^ 20 * (direction % 8) + 2 ^ 31)
    let ok := wired (s.physSize (h.d / 2)) s.selfId h.q h.d id quarter direction
    let s := (s.setBit page Reg.FPORT_PORT_STS 2 (!ok)).raiseIf (!ok) page 3
    let s := if s.num pod Reg.POD_LEAD_TERM < term then s.newTerm term else s
    let starting := s.field (mPage .boot) Reg.BOOT_BOOT_STS 0 4 == 7
    if inPod && starting && !s.strapErr && !s.fabric.pod.tacking && s.field pod Reg.POD_ROLE 2 2 == 3 then
      let sig := s.topoSig
      let s := (s.setNum64 pod Reg.POD_TOPO_SIG_LO Reg.POD_TOPO_SIG_HI sig).setPod { s.fabric.pod with stage := .idle, tacking := true }
      done (s.sendOn h.q h.d 6 (.disc (.tack s.selfId sig)))
    else if !inPod && s.inPod then done (s.sendHello h.q h.d)
    else done s.confirmSelf

/-- LINK_TRAINED (R236, R240, R266): an enabled port that is down comes up on the lanes that `lanes` gives: all four, or,
where NARROW_OK and the PHY allow it, 0 and 1 or 2 and 3. It holds the credits of empty buffers, and both ends number their
frames from 0. The ports of a dimension of size 1 stay disabled (R234). While the module starts or discovers, the port says
hello and passes on the candidates seen (R257, R259). -/
def execLinkTrained (t q d lanes : Nat) (s : State) : Host.Outcome State Fault Refusal :=
  let s := s.advance t
  let page := qPage .fport q d
  let narrow := lanes == 3 || lanes == 12
  let allowed := lanes == 15 || (narrow && s.bit page Reg.FPORT_PORT_CTL 3 && decide (s.field page Reg.FPORT_PORT_CTL 1 2 < 2))
  let alone := !s.fabric.pod.cut.isEmpty && s.physSize (d / 2) == 1
  if !s.bit page Reg.FPORT_PORT_CTL 0 || s.portUp q d || !allowed || alone || decide (6 ≤ d) || decide (4 ≤ q) then done s
  else
    let sts := s.num page Reg.FPORT_PORT_STS
    let s := s.setNum page Reg.FPORT_PORT_STS (putBits (putBits (putBits sts 0 1 1) 1 1 (if narrow then 1 else 0)) 5 4 lanes)
    let full := (List.range 24).map (fun k => (k, fullCredits (k / 3) (k % 3)))
    let s := s.setPort q d { s.port q d with credits := full, owed := [], nakked := false, txSeq := 0, rxSeq := 0, lastRx := s.now }
    let s := (s.raise page 1).raiseIf narrow page 2
    let p := s.fabric.pod
    if s.strapErr ∨ p.stage = .idle ∧ !(s.field (mPage .boot) Reg.BOOT_BOOT_STS 0 4 == 7) then done s
    else
      let s := s.sendHello q d
      done (if p.stage = .election then
        p.keys.foldl (fun s k => s.sendOn q d 6 (.disc (.candidate k.1 k.2))) s else s)

/-- CANDIDATE (R257): a key among the best two seen is kept and flooded on; one that comes before this module's own election
begins is kept for it. -/
def execCandidate (t : Nat) (h : RxHdr) (prio id : Nat) (s : State) : Host.Outcome State Fault Refusal :=
  let r := (s.advance t).receive h (.disc (.candidate prio id)) true
  let s := r.1
  let p := s.fabric.pod
  let better := (p.keys.filter (fun k => decide (prio < k.1 ∨ (k.1 = prio ∧ k.2 < id)))).length
  if !r.2 ∨ prio = 0 ∨ p.keys.contains (prio, id) ∧ p.stage = .election then done s
  else if p.stage ≠ .election then done (s.setPod { p with early := (p.early ++ [(prio, id)]).eraseDups })
  else
    let s := s.setPod { p with keys := p.keys ++ [(prio, id)] }
    if 2 ≤ better then done s
    else done ((s.setPod { s.fabric.pod with keyAt := s.podCount }).flood prio id (some (h.q, h.d)))

/-- This module's neighbour table (R245). -/
def State.ownTable (s : State) : NeighTable :=
  { sender := s.selfId, spare := s.bit (mPage .pod) Reg.POD_POD_CTL 8
    ids := (List.range 24).map (fun i => s.num (qPage .fport (i / 6) (i % 6)) Reg.FPORT_NEIGH_ID)
    sig := s.num64 (mPage .pod) Reg.POD_TOPO_SIG_LO Reg.POD_TOPO_SIG_HI }

/-- The best key of a list. -/
def bestKey (l : List (Nat × Nat)) : Option (Nat × Nat) :=
  l.foldl (fun (b : Option (Nat × Nat)) k => match b with
    | none => some k
    | some x => if x.1 < k.1 ∨ (x.1 = k.1 ∧ k.2 < x.2) then some k else some x) none

/-- ELECTION_CLOSE (R257, R259, R260): in a warm start, the end of stages 1 and 2, at which the module confirms its signature. In an
election, ELECT_QUIET counts after the last improvement the best key is LEAD and the second
STANDBY; every module sends its neighbour table to the lead. With no key discovery fails. -/
def execElectionClose (t : Nat) (s : State) : Host.Outcome State Fault Refusal :=
  let s := s.advance t
  let pod := mPage .pod
  let p := s.fabric.pod
  if p.stage = .confirm then done s.confirmSelf
  else if p.stage ≠ .election ∨ s.podCount < p.keyAt + s.num pod Reg.POD_ELECT_QUIET ∨ !s.stageOver then done s
  else
    match bestKey p.keys with
    | none => done ((s.setPod { p with stage := .idle }).raise pod 6)
    | some lead =>
      let second := bestKey (p.keys.filter (fun k => k != lead))
      let s := s.setNum pod Reg.POD_LEAD_ID (lead.2 + 2 ^ 31)
      let s := s.setNum pod Reg.POD_STANDBY_ID (match second with | some k => k.2 + 2 ^ 31 | none => 0)
      let role := if lead.2 = s.selfId then 2 else if second.any (fun k => k.2 == s.selfId) then 1 else 0
      let s := s.raiseIf (s.field pod Reg.POD_ROLE 0 2 != role) pod 0
      let s := s.setField pod Reg.POD_ROLE 0 2 role
      let s := s.setNum64 pod Reg.POD_TOPO_SIG_LO Reg.POD_TOPO_SIG_HI s.topoSig
      let s := s.setPod { s.fabric.pod with stage := .tables, stageAt := s.podCount, watchAt := s.podCount, termAt := s.num pod Reg.POD_LEAD_TERM }
      let m := s.ownTable
      if role = 2 then done (s.setPod { s.fabric.pod with tables := [m] })
      else done (s.sendId 6 lead.2 (.disc (.neighTable m.sender m.spare m.ids m.sig)))

/-- NEIGH_TABLE (R259): the lead collects it. -/
def execNeighTable (t : Nat) (h : RxHdr) (sender : Nat) (spare : Bool) (ids : List Nat) (sig : Nat) (s : State) :
    Host.Outcome State Fault Refusal :=
  let r := (s.advance t).receive h (.disc (.neighTable sender spare ids sig)) false
  let s := r.1
  if !r.2 ∨ !s.isLead ∨ s.fabric.pod.stage ≠ .tables then done s
  else
    let m : NeighTable := { sender := sender, spare := spare, ids := ids, sig := sig }
    done (s.setPod { s.fabric.pod with tables := s.fabric.pod.tables.filter (fun x => x.sender != sender) ++ [m] })

/-- Do the tables fit the physical shape and LSHAPE (R235, R259): the modules that are not spares fill the logical shape
exactly, spares lie outside it, and every module but the lead is some other's neighbour by a cable that the physical shape
allows (cables that it does not allow are MISWIRED, R234)? -/
def State.tablesFit (s : State) (l : List NeighTable) : Bool :=
  let inShape (c : Nat) : Bool := (List.range 3).all (fun k => decide (coord c k < s.logSize k))
  let full := s.logSize 0 * s.logSize 1 * s.logSize 2
  let size (k : Nat) : Nat := l.foldl (fun m x => max m (coord x.sender k + 1)) 1
  let reached (x : NeighTable) : Bool := x.sender == s.selfId || l.any (fun y => y.ids.zipIdx.any (fun e =>
    bitAt e.1 31 && e.1 % 2 ^ 18 == x.sender &&
    wired (size (e.2 % 6 / 2)) y.sender (e.2 / 6) (e.2 % 6) (e.1 % 2 ^ 18) (bitsOf e.1 18 2) (bitsOf e.1 20 3)))
  (l.filter (fun x => !x.spare)).length == full && l.all (fun x =>
    x.sender / 2 ^ 15 == s.selfId / 2 ^ 15 && inShape x.sender != x.spare && reached x)

/-- Send a module its CONFIG with the cut and alias tables (R245, R246, R259). -/
def State.handOver (s : State) (id : Nat) (clear : Bool) : State :=
  let p := mPage .pod
  let e := s.num p Reg.POD_MEND_EPOCH
  let marks := s.fabric.pod.cut.map (fun m =>
    ({ rtype := 2, flags := 0, subject := s.podId m.1, other := 0, value := m.2 } : MendRec))
  let al := ((List.range 256).filter (fun n => s.bit p (Reg.POD_ALIASn_FROM + 8 * n) 31)).map (fun n =>
    ({ rtype := 3, flags := 0, subject := s.field p (Reg.POD_ALIASn_FROM + 8 * n) 0 18,
       other := s.field p (Reg.POD_ALIASn_TO + 8 * n) 0 18, value := n } : MendRec))
  let recs := marks ++ al
  let s := s.sendId 6 id (.disc (.config { s.configFor id true with aliasClear := clear }))
  let s := recs.foldl (fun s r => s.sendId 6 id (.mend e [r])) s
  s.sendId 6 id (.mend e [{ rtype := 7, flags := 0, subject := 0, other := 0, value := recs.length }])

/-- A warm start whose confirmations have not all come by the bound of stage 4: full discovery runs (R260). -/
def State.giveUpConfirm (s : State) : State :=
  match s.fabric.pod.stored with
  | none => s.beginElection
  | some x =>
    let others := ((x.cut.filter (fun e => decide (e.2 < 2))).map (fun e => s.podId e.1)).filter (fun id => id != s.selfId)
    let sig := s.num64 (mPage .pod) Reg.POD_TOPO_SIG_LO Reg.POD_TOPO_SIG_HI
    let s := if mapGet (fun _ => 0) x.pod Reg.POD_LEAD_ID % 2 ^ 18 = s.selfId then
        others.foldl (fun s id => s.sendId 6 id (.disc (.topoConfirm sig false))) s
      else s
    s.beginElection

/-- NEIGH_TABLE_DEADLINE (R235, R255, R259, R260): stage 4 ends at the lead. Positions that sent nothing are ABSENT. If the
tables fit, the lead writes every module's configuration; if not, discovery fails and nothing is written. -/
def execNeighTableDeadline (t : Nat) (s : State) : Host.Outcome State Fault Refusal :=
  let s := s.advance t
  let p := mPage .pod
  if s.fabric.pod.stage = .confirm then done s.giveUpConfirm
  else if !s.isLead ∨ s.fabric.pod.stage ≠ .tables then done s
  else
    let l := s.fabric.pod.tables
    if !s.tablesFit l then done ((s.setPod { s.fabric.pod with stage := .idle }).raise p 6)
    else
      let clear := s.bit p Reg.POD_POD_CTL 9
      let cut := l.foldl (fun m x => mapSet (fun _ => 3) m (x.sender % 2 ^ 15) (if x.spare then 1 else 0)) []
      let s := s.setPod { s.fabric.pod with cut := cut, stage := .idle }
      let s := s.setNum p Reg.POD_MEND_EPOCH 0
      let s := if s.fabric.pod.setArmed then
          { s.setPod { s.fabric.pod with setArmed := false } with
            pod := { s.pod with count64 := 64 * s.num64 p Reg.POD_PT_SET_LO Reg.POD_PT_SET_HI, rem := 0 } }
        else s
      let s := { s with pod := { s.pod with rate := 0, joining := false } }
      let s := s.applyConfig s.selfId { s.configFor s.selfId false with aliasClear := clear }
      done (s.otherModules.foldl (fun s id => s.handOver id clear) s.checkPorts.storePod)

/-- CONFIG (R245, R259). -/
def execConfig (t : Nat) (h : RxHdr) (c : ConfigRec) (s : State) : Host.Outcome State Fault Refusal :=
  let r := (s.advance t).receive h (.disc (.config c)) false
  if !r.2 || !r.1.obeys h.src then done r.1 else done (r.1.applyConfig h.src c)

/-- TACK (R439): forwarded to the lead, which accepts a chip inside the physical shape whose position is ABSENT or CUT. -/
def execTack (t : Nat) (h : RxHdr) (id sig : Nat) (s : State) : Host.Outcome State Fault Refusal :=
  let r := (s.advance t).receive h (.disc (.tack id sig)) false
  let s := r.1
  let p := mPage .pod
  if !r.2 then done s
  else if !s.isLead then
    (match s.leadId with
    | some l => done (s.sendId 6 l (.disc (.tack id sig)))
    | none => done s)
  else
    let chip := id % 2 ^ 15
    let inside := (List.range 3).all (fun k => decide (coord chip k < s.physSize k))
    if !inside ∨ s.cutOf chip < 2 ∨ id / 2 ^ 15 ≠ s.selfId / 2 ^ 15 then
      done ((s.sendId 6 id (.disc (.tackReply true))).raise (mPage .boot) 4)
    else
      let e := s.num p Reg.POD_MEND_EPOCH + 1
      let s := s.mendAll e { rtype := 2, flags := 0, subject := id, other := 0, value := 1 }
      let s := s.mendAll e { rtype := 7, flags := 0, subject := 0, other := 0, value := 1 }
      done ((s.sendId 6 id (.disc (.tackReply false))).handOver id false)

/-- TACK_REPLY (R439). -/
def execTackReply (t : Nat) (h : RxHdr) (refused : Bool) (s : State) : Host.Outcome State Fault Refusal :=
  let r := (s.advance t).receive h (.disc (.tackReply refused)) false
  let s := r.1
  if !r.2 ∨ !s.fabric.pod.tacking then done s
  else if refused then done ((s.setPod { s.fabric.pod with tacking := false, selfCut := true }).raise (mPage .boot) 4)
  else done s

/-- TOPO_CONFIRM (R260): up to the lead, which answers every module; a module that is told all agree restores its
configuration, and otherwise begins the election. -/
def execTopoConfirm (t : Nat) (h : RxHdr) (sig : Nat) (agree : Bool) (s : State) : Host.Outcome State Fault Refusal :=
  let r := (s.advance t).receive h (.disc (.topoConfirm sig agree)) false
  let s := r.1
  match s.fabric.pod.stored with
  | none => done s
  | some x =>
    if !r.2 ∨ s.fabric.pod.stage ≠ .confirm then done s
    else if mapGet (fun _ => 0) x.pod Reg.POD_LEAD_ID % 2 ^ 18 = s.selfId then
      done (s.setPod { s.fabric.pod with confirms := s.fabric.pod.confirms ++ [(h.src, agree)] }).settleConfirm
    else if agree then done (s.restorePod x)
    else done s.beginElection

/-! ## MEND records (R246, R450, R261, R262) -/

/-- Receive a MEND frame whose first record is of a type, and act on its records in order. -/
def State.mendFrame (s : State) (k : Nat) (h : RxHdr) (epoch : Nat) (recs : List MendRec)
    (act : State → MendRec → State) : State :=
  if recs.head?.map (·.rtype) ≠ some k then s
  else
    let r := s.receive h (.mend epoch recs) false
    if !r.2 then r.1 else recs.foldl act r.1

/-- Act on a record: those of the lead, the two reports to the lead, and those of a reserved type, which are dropped and counted. -/
def State.actRecord (h : RxHdr) (epoch : Nat) (s : State) (r : MendRec) : State :=
  let src := h.src
  match r.rtype with
  | 5 =>
    if s.isLead then
      (s.setPod { s.fabric.pod with unreachable := (s.fabric.pod.unreachable ++ [(r.subject, src)]).eraseDups }).mendCheck
    else s
  | 6 => if s.isLead then s.declareLost r.subject none false else s
  | _ =>
    if r.rtype = 0 ∨ 7 < r.rtype then s.addSat (qPage .fport h.q h.d) Reg.FPORT_RX_BAD 1
    else s.applyRecord src epoch r

/-- MARK (R246, R252, R262). -/
def execMarkCut (t : Nat) (h : RxHdr) (epoch : Nat) (recs : List MendRec) (s : State) : Host.Outcome State Fault Refusal :=
  done ((s.advance t).mendFrame 2 h epoch recs (State.actRecord h epoch))

/-- ALIAS (R246, R264). -/
def execAliasChip (t : Nat) (h : RxHdr) (epoch : Nat) (recs : List MendRec) (s : State) : Host.Outcome State Fault Refusal :=
  done ((s.advance t).mendFrame 3 h epoch recs (State.actRecord h epoch))

/-- ASSIGN (R246, R262, R455). -/
def execAssignSpare (t : Nat) (h : RxHdr) (epoch : Nat) (recs : List MendRec) (s : State) : Host.Outcome State Fault Refusal :=
  done ((s.advance t).mendFrame 4 h epoch recs (State.actRecord h epoch))

/-- UNREACHABLE (R246, R261). -/
def execUnreachable (t : Nat) (h : RxHdr) (epoch : Nat) (recs : List MendRec) (s : State) : Host.Outcome State Fault Refusal :=
  done ((s.advance t).mendFrame 5 h epoch recs (State.actRecord h epoch))

/-- LOST_SELF (R246, R450). -/
def execLostSelf (t : Nat) (h : RxHdr) (epoch : Nat) (recs : List MendRec) (s : State) : Host.Outcome State Fault Refusal :=
  done ((s.advance t).mendFrame 6 h epoch recs (State.actRecord h epoch))

/-- EPOCH_END (R246, R262). -/
def execEpochEnd (t : Nat) (h : RxHdr) (epoch : Nat) (recs : List MendRec) (s : State) : Host.Outcome State Fault Refusal :=
  done ((s.advance t).mendFrame 7 h epoch recs (State.actRecord h epoch))

/-! ## Regeneration, buckets, reports (R244, R451 to R454) -/

/-- The states of this module's gradient buckets (R244, R453). -/
def State.bucketStates (s : State) : List BucketEntry :=
  let open_ := s.compute.queues.flatMap (fun e =>
    if e.1 % 256 = 153 then
      ((e.2.window.filter (fun w => tagClass (dw w.desc 2) == 2 && dOp w.desc == 1)).map (fun w =>
        ({ tag := dw w.desc 2, quarter := e.1 / 256, state := 0 } : BucketEntry)))
    else [])
  let closed := s.train.buckets.map (fun b : Bucket =>
    ({ tag := dw b.desc 2, quarter := b.q, state := if b.gather then 2 else 1 } : BucketEntry))
  let best := closed.filter (fun b => b.state == 2 || !closed.any (fun c => c.tag == b.tag && c.quarter == b.quarter && c.state == 2))
  open_ ++ best

/-- Merge entries, keeping the lowest state of each tag and quarter (R244). -/
def mergeBuckets (a b : List BucketEntry) : List BucketEntry :=
  b.foldl (fun l e =>
    if l.any (fun x => x.tag == e.tag && x.quarter == e.quarter) then
      l.map (fun x => if x.tag = e.tag ∧ x.quarter = e.quarter then { x with state := min x.state e.state } else x)
    else l ++ [e]) a

/-- The adopter's recovery slot of this module for a plan (R204): RECOV + i · OWN, with i from this module's logical position and OWN
the lost position's bytes of the lane. -/
def State.recovSlot (s : State) (p : Plan) (own : Nat) : Nat :=
  p.recov + (s.ringPos 0 + s.ringSize 0 * (s.ringPos 1 + s.ringSize 1 * s.ringPos 2)) * own

/-- Copy the lines of a bucket's kept DATA that the lost position owns to the adopter's recovery area, packed in increasing lane
offset, in writes of at most 4 KiB on the plan's lane (R204, R453). -/
def State.sendLost (s : State) (lost adopter : Nat) (b : Bucket) : State :=
  let p := s.plan b.q (dw b.desc 6)
  let l := s.ownedAt (planDims p) (coord lost) (dw b.desc 5 / 64)
  let own := l.foldl (fun n g => n + 64 * (g.2 - g.1)) 0
  let slot := adopter * 2 ^ 45 + s.recovSlot p own
  (l.foldl (fun (acc : State × Nat) g =>
    (segmentsOf (g.2 - g.1) g.1 g.2).foldl (fun (acc : State × Nat) x =>
      let a := dq b.desc 3 + 64 * x.1
      let n := 64 * (x.2 - x.1)
      let s := acc.1
      ((s.noteReadBy (some (b.q, 0)) a n).sendTo p.vl b.q (slot + acc.2) (.write 0 false (s.readMarked a n)), acc.2 + n)) acc)
    (s, 0)).1

/-- Re-reduction (R453): a survivor sends the adopter the lost lines of every bucket that is reduced, and in no STAGE yet. -/
def State.sendLostLines (s : State) (lost adopter : Nat) : State :=
  if s.isSpare ∨ adopter = s.selfId ∨ lost = s.selfId then s
  else
    let gathered (b : Bucket) : Bool := s.train.buckets.any (fun c => c.gather && c.q == b.q && dw c.desc 2 == dw b.desc 2)
    (s.train.buckets.filter (fun b => !b.gather && !gathered b)).foldl (fun s b => s.sendLost lost adopter b) s

/-- Move bucket states up the tree; the lead asks for regeneration if any bucket is not yet in every STAGE (R453, R454). -/
def State.climbBuckets (s : State) : State :=
  let kids := s.train.bucketKids
  if !s.heard (kids.map Prod.fst) then s
  else
    let l := (kids.filter (fun e => s.isChild e.1)).foldl (fun a e => mergeBuckets a e.2) s.bucketStates
    if s.isLead then
      let lost := s.field (mPage .fault) Reg.FAULT_LAST_LOST 0 18
      if l.any (fun e => decide (e.state < 2)) then
        let adopter := (s.aliasOf lost).getD 0
        ((s.noteRecovery lost 1).treeDown s.treeHdr (.regen lost adopter)).sendLostLines lost adopter
      else s.noteRecovery lost 2
    else s.treeUp s.treeHdr (.bucketStateUp l)

/-- BUCKET_QUERY (R453). -/
def execBucketQuery (t : Nat) (h : RxHdr) (th : TreeHdr) (s : State) : Host.Outcome State Fault Refusal :=
  let r := (s.advance t).receiveTree h th .bucketQuery
  if !r.2 then done r.1
  else done (({ r.1 with train := { r.1.train with bucketKids := [] } } : State).treeDown th .bucketQuery).climbBuckets

/-- BUCKET_STATE_UP (R244, R453). -/
def execBucketStateUp (t : Nat) (h : RxHdr) (th : TreeHdr) (entries : List BucketEntry) (s : State) :
    Host.Outcome State Fault Refusal :=
  let r := (s.advance t).receiveTree h th (.bucketStateUp entries)
  let s := r.1
  if !r.2 ∨ th.attempt ≠ s.attempt then done s
  else
    let k : List (Nat × List BucketEntry) := s.train.bucketKids.filter (fun e => e.1 != th.origin) ++ [(th.origin, entries)]
    done ({ s with train := { s.train with bucketKids := k } } : State).climbBuckets

/-- REGEN (R454): forwarded down the tree; the module takes part in the step's recovery, and sends the
adopter what re-reduction needs of its kept DATA (R453). -/
def execRegen (t : Nat) (h : RxHdr) (th : TreeHdr) (lost adopter : Nat) (s : State) : Host.Outcome State Fault Refusal :=
  let r := (s.advance t).receiveTree h th (.regen lost adopter)
  if !r.2 then done r.1 else done (((r.1.treeDown th (.regen lost adopter)).noteRecovery lost 1).sendLostLines lost adopter)

end Sys2Proof.Machine
end

