-- ==== Sys2Proof/Machine/Links.lean ====
section
/-! DEFINITION. Commands that may take a link down; the lead looks at once at what it finds (R239 to R241, R247, R261). -/

namespace Sys2Proof.Machine

/-- FRAME_CTRL (R239 to R241): acknowledgement and credits, and a NAK with the LSEQ that the receiver expects. It takes no
LSEQ. -/
def execFrameCtrl (t : Nat) (h : RxHdr) (nak : Option Nat) (s : State) : Host.Outcome State Fault Refusal :=
  let s := s.advance t
  if !s.portUp h.q h.d then done s
  else
    let s := s.noteFec h
    if rxBad h (.ctrl nak) then done (s.addSat (qPage .fport h.q h.d) Reg.FPORT_RX_BAD 1)
    else
      match nak with
      | none => done (s.rxHeader h)
      | some n => done ((s.rxHeader h).resendFrom h.q h.d n).mendCheck

/-- REPLAY_TIMEOUT (R241): the oldest frame unacknowledged for 8 µs, and every later one, is resent. -/
def execReplayTimeout (t q d : Nat) (s : State) : Host.Outcome State Fault Refusal :=
  let s := s.advance t
  match (s.port q d).replay with
  | [] => done s
  | r :: _ => if s.portUp q d && decide (r.sentAt + 28800 ≤ s.now) then done (s.resendFrom q d r.lseq).mendCheck else done s

/-- LINK_IDLE_TIMEOUT (R241): no valid frame for 100 µs. -/
def execLinkIdleTimeout (t q d : Nat) (s : State) : Host.Outcome State Fault Refusal :=
  let s := s.advance t
  if s.portUp q d && decide ((s.port q d).lastRx + 360000 ≤ s.now) then done (s.linkDown q d).mendCheck else done s

/-- PCS_ALIGN_LOST (R241). -/
def execPcsAlignLost (t q d : Nat) (s : State) : Host.Outcome State Fault Refusal :=
  done ((s.advance t).linkDown q d).mendCheck

end Sys2Proof.Machine
end

