-- ==== Sys2Proof/Machine/Sites.lean ====
section
/-! DEFINITION. Sites: shard headers, deadlines, round trips, keep-alives, separation and rejoin, relayed accesses and cross-site time (R268 to R296). -/

namespace Sys2Proof.Machine

/-! ## Shard headers (R280 to R283) -/

/-- The local address of the header of a source site and round in a quarter's landing area (R280). -/
def State.headerAddr (s : State) (q site round : Nat) : Nat :=
  let m := mPage .mig
  q * fSize + s.num m Reg.MIG_LAND_OFF_LO + 2 ^ 32 * s.field m Reg.MIG_LAND_OFF_HI 0 6 + 64 * (8 * site + round % 8)

/-- The local address of the data slot of a source site and round (R280). -/
def State.slotAddr (s : State) (q site round : Nat) : Nat :=
  s.headerAddr q 0 0 + 4096 + s.num (mPage .mig) Reg.MIG_SLOT_BYTES * (8 * site + round % 8)

/-- The CRC of a slot: element plane, scale plane and, under SEL, the index list (R281). -/
def State.slotCrc (s : State) (q site round nemit : Nat) (sel : Bool) : Nat :=
  let a := s.slotAddr q site round
  let scales := a + 64 * ((16 * nemit + 63) / 64)
  let index := scales + 64 * ((nemit + 63) / 64)
  (crc64 (s.readBytes a (16 * nemit) ++ s.readBytes scales nemit ++ (if sel then s.readBytes index (4 * nemit) else []))).toNat

/-- The 64 bytes of a shard header (R281). -/
def headerBytes (h : ShardHeader) : List Byte :=
  leBytes 8 h.round ++ leBytes 8 h.srcT ++ leBytes 8 h.ptpTx ++ leBytes 1 (h.site % 8) ++ leBytes 1 h.quarter ++
  leBytes 1 ((if h.sel then 1 else 0) + (if h.catchup then 2 else 0)) ++ [0] ++ leBytes 4 h.nblk ++ leBytes 4 h.nemit ++
  leBytes 8 h.crc ++ leBytes 4 h.common ++ List.replicate 16 0

/-- A request of n packets has arrived on a migration queue pair: its RESET is no longer repeated (R270, R272). -/
def State.qpHeard (s : State) (q site n_ : Nat) : State :=
  let n := 0x100000 + 16 * site + q
  let x := s.migQp q site
  let s := s.setMigQp q site { x with expected := (x.expected + n_) % 2 ^ 24 }
  { s with mig := { s.mig with repeats := s.mig.repeats.filter (fun d => !(d.kind == 2 && d.qpn == n)) } }

/-- SHARD_HEADER_ARRIVE (R280 to R283, R295): the header is written into its place; its CRC is checked against the slot's
data; it is held, replaces an older one, or is discarded. `ptp` is this module's PTP time in nanoseconds. -/
def execShardHeaderArrive (t : Nat) (h : ShardHeader) (ptp : Nat) (flips : List (Nat × Nat)) (s : State) :
    Host.Outcome State Fault Refusal :=
  let s := (s.advance t).upset flips
  let m := mPage .mig
  let q := h.quarter % 4
  let i := h.site % 8
  let s := (s.siteContact i).qpHeard q i 1
  let s := s.memPutBytes none (s.headerAddr q i h.round) (headerBytes h)
  let s := s.setReg m (Reg.MIG_SITEs_OWD + 16 * i) (BitVec.ofInt 32 ((ptp : Int) - h.ptpTx))
  if s.slotCrc q i h.round h.nemit h.sel ≠ h.crc then done ((s.addSat m Reg.MIG_BAD 1).raise m 7)
  else
    let s := if s.num m (Reg.MIG_SITEs_ROUND + 16 * i) < h.round then s.setNum m (Reg.MIG_SITEs_ROUND + 16 * i) h.round else s
    let s := if s.siteState i = 4 ∧ i ≠ s.ownSite ∧ !h.catchup then s.setSite i 2 false else s
    let there (x : Shard) : Bool := x.q == q && x.site == i && x.round % 8 == h.round % 8
    let held := s.mig.held.find? there
    let drop (s : State) : State := (s.addSat m Reg.MIG_DROPPED 1).raise m 6
    if s.mig.joinFrom.any (fun k => decide (h.round < k)) ∨ held.any (fun x => decide (h.round < x.round)) then done (drop s)
    else
      let again := held.any (fun x => x.round == h.round && x.used)
      let x : Shard := { q := q, site := i, round := h.round, catchup := h.catchup, used := again }
      let s := if held.any (fun y => !y.used) then drop s else s
      let s := { s with mig := { s.mig with held := s.mig.held.filter (fun y => !there y) ++ [x] } }
      let late := !again && s.mig.readyRound.any (fun k => decide (h.round ≤ k)) && !s.readyNow && !h.catchup
      let s := if late then (s.addSat m Reg.MIG_LATE 1).raise m 5 else s
      done (if s.readyNow then s.formSet else s.checkReady)

/-- ROUND_DEADLINE (R283): at the open round's deadline READY holds with the headers then held. -/
def execRoundDeadline (t : Nat) (s : State) : Host.Outcome State Fault Refusal :=
  let s := s.advance t
  let m := mPage .mig
  if s.bit m Reg.MIG_MIG_STS 0 && !s.bit m Reg.MIG_MIG_STS 4 && s.stepState != 4 && s.mig.openAt.isSome &&
      decide (s.mig.deadline ≤ s.podCount) then done s.takeReady
  else done s

/-! ## Round trips, keep-alives, separation (R271, R272, R289 to R294) -/

/-- The median of three numbers. -/
def median3 (a b c : Nat) : Nat := max (min a b) (min (max a b) c)

/-- RTT_SAMPLE (R289): SRTT moves by an eighth of the difference, or, on the third sample in a row outside half to twice
SRTT, to the median of the three. -/
def execRttSample (t site sample : Nat) (s : State) : Host.Outcome State Fault Refusal :=
  let s := s.advance t
  let m := mPage .mig
  let reg := Reg.MIG_SITEs_SRTT + 16 * (site % 8)
  let x := s.num m reg
  let out := decide (2 * sample < x ∨ 2 * x < sample)
  let run := if out then mapGet (fun _ => []) s.mig.odd (site % 8) ++ [sample] else []
  let put (l : List Nat) (s : State) : State := { s with mig := { s.mig with odd := mapSet (fun _ => []) s.mig.odd (site % 8) l } }
  match run with
  | a :: b :: c :: _ =>
    done ((((((put [] s).setNum m reg (median3 a b c)).addSat m Reg.MIG_RTT_JUMPS 1)).raise m 0).derive true)
  | _ => done (((put run s).setReg m reg (BitVec.ofInt 32 ((x : Int) + ((sample : Int) - x) / 8))).derive false)

/-- MIG_KEEPALIVE_TIMER (R272, R290): every 100 ms a keep-alive goes to each counterpart. -/
def execMigKeepaliveTimer (t : Nat) (s : State) : Host.Outcome State Fault Refusal :=
  let s := s.advance t
  if s.podCount < s.mig.keepAt + 90000000 ∨ s.field (mPage .pod) Reg.POD_ROLE 2 2 ≠ 0 then done s
  else
    let s := { s with mig := { s.mig with keepAt := s.podCount } }
    done (s.otherSites.foldl (fun s i => s.sendDgram (s.dgramTo 1 i s.dgramPort 0)) s)

/-- SITE_CONTACT_TIMEOUT (R290): a site without contact for the separation time is reported to the lead. -/
def execSiteContactTimeout (t site : Nat) (s : State) : Host.Outcome State Fault Refusal :=
  let s := s.advance t
  let last := mapGet (fun _ => 0) s.mig.contact site
  if s.siteState site ≠ 2 ∨ site = s.ownSite ∨ s.mig.told.contains site ∨ s.podCount < last + s.separation then done s
  else
    let s := { s with mig := { s.mig with told := s.mig.told ++ [site] } }
    done (s.report 2 s.selfId site (fun s => s.siteReport site s.selfId))

/-- MIG_DATAGRAM_REPEAT (R272). -/
def execMigDatagramRepeat (t : Nat) (s : State) : Host.Outcome State Fault Refusal :=
  let s := s.advance t
  if s.mig.repeats.isEmpty ∨ s.podCount < s.mig.repeatAt + 90000000 then done s
  else
    let s := { s with mig := { s.mig with repeatAt := s.podCount } }
    done (s.mig.repeats.foldl (fun s d => s.sendDgram (s.dgramTo d.kind d.dest d.q d.qpn)) s)

/-- KEEPALIVE (R272, R290). -/
def execKeepalive (t : Nat) (d : DgramHdr) (s : State) : Host.Outcome State Fault Refusal :=
  done (((s.advance t).noteDgram d).siteContact (d.site % 8))

/-- A migration queue pair goes through reset to ready-to-send, with PSN 0 (R270, R271). -/
def State.resetMigQp (s : State) (q site : Nat) : State := s.setMigQp q site {}

/-- Own-site slots within STALE_MAX of the current round are sent again, in increasing round order (R271). -/
def State.resendSlots (s : State) (q site : Nat) : State :=
  let m := mPage .mig
  let k := s.num m Reg.MIG_ROUND
  let n := min k (s.field m Reg.MIG_STALE_MAX 0 3)
  s.emit (.slots q site ((List.range (n + 1)).map (fun i => k - n + i)) false)

/-- MIG_QP_ERROR (R270, R271): the queue pair for a site is in error, or its far end has changed holder: this end resets it and starts a
RESET exchange. -/
def execMigQpError (t q site : Nat) (s : State) : Host.Outcome State Fault Refusal :=
  let s := s.advance t
  if site = s.ownSite ∨ !s.otherSites.contains site ∨ 4 ≤ q then done s
  else done (((s.resetMigQp q site).sendRepeated (s.dgramTo 2 site q (0x100000 + 16 * site + q))).resendSlots q site)

/-- RESET (R271, R272): both ends reset the queue pair and send their recent slots again. The far end names it by this
module's site. -/
def execResetQp (t : Nat) (d : DgramHdr) (qpn : Nat) (s : State) : Host.Outcome State Fault Refusal :=
  let site := d.site % 8
  let s := ((s.advance t).noteDgram d).siteContact site
  let q := qpn % 16
  if qpn / 256 ≠ 0x1000 ∨ 4 ≤ q then done s else done ((s.resetMigQp q site).resendSlots q site)

/-- The lowest site number of a set of sites. -/
def lowestSite (sites : Nat) : Nat := ((List.range 8).find? (fun i => bitAt sites i)).getD 8

/-- The lead's part of a rejoin (R291): the leading side has more sites, then the higher ROUND, then the lower site number.
Sites of the other side lag; a lagging side runs CATCHUP, REFETCH, or neither when it missed no round. -/
def State.rejoin (s : State) (round common sites side : Nat) : State :=
  let m := mPage .mig
  let own := s.ownSite :: s.linkedSites
  let ownSet := own.foldl (fun n i => n + 2 ^ i) 0
  let k := s.num m Reg.MIG_ROUND
  let lead := decide (side < own.length ∨ (side = own.length ∧ (round < k ∨ (round = k ∧ lowestSite ownSet < lowestSite sites))))
  let theirs := (List.range 8).filter (fun i => bitAt sites i && !own.contains i)
  let top := if lead then k else round
  let c := if lead then common else s.num m Reg.MIG_COMMON_ROUND
  let behind := top - c
  let mode := if behind = 0 then 0 else if behind ≤ s.field m Reg.MIG_DIV_ROUNDS 0 3 then 1 else 2
  if mode = 0 then theirs.foldl (fun s i => s.siteDown i 2 false 0 top) s
  else if lead then theirs.foldl (fun s i => s.siteDown i 4 true mode top) s
  else theirs.foldl (fun s i => s.siteDown i 2 false 0 top) (own.foldl (fun s i => s.siteDown i 4 true mode top) s)

/-- The lead acts on a SITE_STATE: it stops its own repeats and, when the site is SEPARATED, settles the rejoin (R291). -/
def State.takeSiteState (s : State) (site round common sites side : Nat) : State :=
  let answered (d : Dgram) : Bool := d.dest == site && (d.kind == 3 || d.kind == 4)
  let t : State := { s with mig := { s.mig with repeats := s.mig.repeats.filter (fun d => !answered d) } }
  if s.siteState site = 3 then t.rejoin round common sites side else t

/-- SITE_STATE (R272, R291): passed up the tree to the lead, which has sent its own when contact returned, and decides. -/
def execSiteState (t : Nat) (d : DgramHdr) (sites side : Nat) (s : State) : Host.Outcome State Fault Refusal :=
  let s := ((s.advance t).noteDgram d).siteContact (d.site % 8)
  if s.isLead then done (s.takeSiteState (d.site % 8) d.round d.common sites side)
  else done (s.treeUp s.treeHdr (.siteUp 3 d sites side))

/-- JOIN_ANNOUNCE (R272, R294): passed up the tree to the lead, which answers and sets the site LINKED from its next boundary. -/
def execJoinAnnounce (t : Nat) (d : DgramHdr) (s : State) : Host.Outcome State Fault Refusal :=
  let site := d.site % 8
  let s := ((s.advance t).noteDgram d).siteContact site
  if !s.isLead then done (s.treeUp s.treeHdr (.siteUp 4 d 0 0))
  else
    let s := s.sendDgram (s.dgramTo 3 site s.dgramPort 0)
    done (if s.siteState site = 2 ∨ s.mig.joiners.contains site then s
      else { s with mig := { s.mig with joiners := s.mig.joiners ++ [site] } })

/-- SITE_DOWN (R244, R290, R291): forwarded, then acted on. -/
def execSiteDown (t : Nat) (h : RxHdr) (th : TreeHdr) (site state : Nat) (lagging : Bool) (mode round : Nat) (s : State) :
    Host.Outcome State Fault Refusal :=
  let m : TreeMsg := .siteDown site state lagging mode round
  let r := (s.advance t).receiveTree h th m
  if !r.2 then done r.1 else done ((r.1.treeDown th m).applySite (site % 8) state lagging mode round)

/-! ## Cross-site time (R295) -/

/-- PTP_SYNC (R295): a Sync of the module's domain updates the offset to the master. -/
def execPtpSync (t domain : Nat) (offset : Int) (s : State) : Host.Outcome State Fault Refusal :=
  let s := s.advance t
  let m := mPage .mig
  if !s.bit m Reg.MIG_PTP_CTL 0 ∨ s.field m Reg.MIG_PTP_CTL 8 8 ≠ domain then done s
  else
    let far := decide (offset < -1000 ∨ 1000 < offset)
    let s := { s with mig := { s.mig with lastSync := some s.podCount } }
    let s := (s.setReg m Reg.MIG_PTP_OFFSET (BitVec.ofInt 32 offset)).movePtp
    done ((s.setBit m Reg.MIG_PTP_STS 0 (!far)).raiseIf far m 8)

/-- PTP_SECOND (R295): pod time and the PTP seconds are captured. -/
def execPtpSecond (t seconds : Nat) (s : State) : Host.Outcome State Fault Refusal :=
  let s := s.advance t
  let m := mPage .mig
  if !s.bit m Reg.MIG_PTP_CTL 0 then done s
  else done ((s.setNum64 m Reg.MIG_MAP_PT_LO Reg.MIG_MAP_PT_HI s.podCount).setNum64 m Reg.MIG_MAP_SEC_LO Reg.MIG_MAP_SEC_HI
    (seconds % 2 ^ 48))

/-- PTP_SYNC_TIMEOUT (R295): no Sync for 4 s. -/
def execPtpSyncTimeout (t : Nat) (s : State) : Host.Outcome State Fault Refusal :=
  let s := s.advance t
  let m := mPage .mig
  match s.mig.lastSync with
  | none => done s
  | some a =>
    if s.podCount < a + 3600000000 then done s
    else
      let s := { s with mig := { s.mig with lastSync := none } }
      done ((s.setBit m Reg.MIG_PTP_STS 0 false).raise m 8)

end Sys2Proof.Machine
end

