-- ==== Sys2Proof/Machine/Clocks.lean ====
section
/-! DEFINITION. References, root PLLs, island stops, seams, and the journal's flash mirror (R223, R313 to R321, R339, R345, R376, R377, R392, R468). -/

namespace Sys2Proof.Machine

/-! ## References and root PLLs (R313 to R315) -/

/-- Offset of PLLq_STS. -/
def pllReg (q : Nat) : Nat := Reg.CLKDIR_PLLq_STS + 4 * q

/-- Is reference r (0 A, 1 B) qualified in a quarter? -/
def State.refOk (s : State) (q r : Nat) : Bool := s.bit (mPage .clkdir) (pllReg q) (1 + r)
/-- The reference that a quarter tracks. -/
def State.tracking (s : State) (q : Nat) : Nat := s.field (mPage .clkdir) (pllReg q) 3 1
/-- The reference that a quarter prefers. -/
def State.preferred (s : State) (q : Nat) : Nat := s.field (mPage .clkdir) (Reg.CLKDIR_QREF_CTLq + 4 * q) 0 1

/-- Track reference r; a switch raises REF_SWITCH (R314). -/
def State.track (s : State) (q r : Nat) : State :=
  if s.tracking q = r then s
  else (s.setField (mPage .clkdir) (pllReg q) 3 1 r).raise (mPage .clkdir) 1

/-- Track the preferred reference while it is qualified, else the other; with neither, enter holdover (R314). -/
def State.retrack (s : State) (q : Nat) : State :=
  let c := mPage .clkdir
  let p := s.preferred q
  if s.refOk q p then (s.track q p).setBit c (pllReg q) 4 false
  else if s.refOk q (1 - p) then (s.track q (1 - p)).setBit c (pllReg q) 4 false
  else if s.bit c (pllReg q) 4 then s
  else (s.setBit c (pllReg q) 4 true).raise c 2

/-- REF_LOST (R313, R314): a reference of a quarter is lost; the quarter switches or enters holdover. -/
def execRefLost (t q r : Nat) (s : State) : Host.Outcome State Fault Refusal :=
  let s := s.advance t
  let c := mPage .clkdir
  if 4 ≤ q ∨ 2 ≤ r ∨ !s.refOk q r then done s
  else
    let s := (s.setBit c (pllReg q) (1 + r) false).raise c 0
    done (if s.tracking q = r ∧ !s.bit c (pllReg q) 4 then
      (if s.refOk q (1 - r) then s.track q (1 - r) else (s.setBit c (pllReg q) 4 true).raise c 2) else s)

/-- REF_QUALIFIED (R313, R314): a reference has been within limits for 1 s; holdover ends. -/
def execRefQualified (t q r : Nat) (s : State) : Host.Outcome State Fault Refusal :=
  let s := s.advance t
  let c := mPage .clkdir
  if 4 ≤ q ∨ 2 ≤ r ∨ s.refOk q r then done s
  else
    let s := { s.setBit c (pllReg q) (1 + r) true with clk := { s.clk with refSince := mapSet (fun _ => 0) s.clk.refSince (2 * q + r) s.now } }
    done (if s.bit c (pllReg q) 4 then (s.track q r).setBit c (pllReg q) 4 false else s)

/-- REF_REVERT (R314): with REVERT set, after 10 s of qualification the quarter returns to its preferred reference. -/
def execRefRevert (t q : Nat) (s : State) : Host.Outcome State Fault Refusal :=
  let s := s.advance t
  let p := s.preferred q
  let since := mapGet (fun _ => 0) s.clk.refSince (2 * q + p)
  if decide (q < 4) && s.bit (mPage .clkdir) (Reg.CLKDIR_QREF_CTLq + 4 * q) 1 && s.refOk q p && s.tracking q != p &&
      decide (since + 36000000000 ≤ s.now) then done (s.track q p)
  else done s

/-- A quarter is lost (R315, R450, R468): MODID shows it, and the module reports that it cannot run its stretch. -/
def State.loseQuarter (s : State) (q : Nat) : State :=
  if s.cores.lostQuarters.contains q then s
  else
    let s : State := { s with cores := { s.cores with lostQuarters := s.cores.lostQuarters ++ [q] } }
    (s.setBit (mPage .modid) Reg.MODID_QUARTERS q false).reportLost 1

/-- PLL_FAIL (R315): a root loses lock while a reference or holdover is available: its islands are FAILED and the quarter
is lost. -/
def execPllFail (t q : Nat) (s : State) : Host.Outcome State Fault Refusal :=
  let s := s.advance t
  let c := mPage .clkdir
  if 4 ≤ q ∨ !s.bit c (pllReg q) 0 then done s
  else
    let s := ((s.setBit c (pllReg q) 0 false).setBit c (pllReg q) 5 true).raise c 3
    let s := (List.range 110).foldl (fun s i => s.setIsland q i 6) s
    done (s.loseQuarter q)

/-! ## Stops (R320, R345) -/

/-- Is the last command still under way (CMD_STS.BUSY)? -/
def State.cmdBusy (s : State) : Bool := !s.clk.cmds.isEmpty

/-- Finish the first stop or start command that is due after `d` ACLK: the answer is its command. -/
def State.endCmd (s : State) (stop : Bool) (d code : Nat) : State × Option ClkCmd :=
  match s.clk.cmds.find? (fun c => c.stop == stop && decide (c.since + d ≤ s.now)) with
  | none => (s, none)
  | some c =>
    let rest := s.clk.cmds.erase c
    let s := ({ s with clk := { s.clk with cmds := rest } } : State)
    let s := if s.island c.quarter c.island = (if stop then 2 else 4) then s.setIsland c.quarter c.island code else s
    (s.setBit (mPage .clkdir) Reg.CLKDIR_CMD_STS 0 (!rest.isEmpty), some c)

/-- ISLAND_STOPPED (R320, R345): 64 CCLK after its command an island reaches STOPPED. -/
def execIslandStopped (t : Nat) (s : State) : Host.Outcome State Fault Refusal := done ((s.advance t).endCmd true 256 3).1

/-! ## Seams (R223, R339, R392, R468) -/

/-- The quarters that seam i of SEAM_STS joins (R471). -/
def seamEnds : Nat → Nat × Nat
  | 0 => (0, 1) | 1 => (0, 2) | 2 => (0, 3) | 3 => (1, 2) | 4 => (1, 3) | _ => (2, 3)

/-- Is the seam between two quarters up? -/
def State.seamUp (s : State) (a b : Nat) : Bool :=
  (List.range 6).any (fun i => (seamEnds i == (a, b) || seamEnds i == (b, a)) && !s.bit (mPage .fault) Reg.FAULT_SEAM_STS i)

/-- The route between two quarters: the seam, else the lowest-numbered third quarter whose seams to both are up (R468);
none where there is no route. -/
def State.seamRoute (s : State) (a b : Nat) : Option (List Nat) :=
  if a = b ∨ s.seamUp a b then some []
  else ((List.range 4).find? (fun c => c != a && c != b && s.seamUp a c && s.seamUp c b)).map (fun c => [c])

/-- Seam i. -/
def State.seam (s : State) (i : Nat) : Seam := mapGet (fun _ => {}) s.cores.seams i
/-- Replace seam i. -/
def State.setSeam (s : State) (i : Nat) (x : Seam) : State :=
  { s with cores := { s.cores with seams := mapSet (fun _ => {}) s.cores.seams i x } }

/-- SEAM_FLIT_RECEIVE (R223, R468): a flit with an uncorrectable codeword is dropped and sent again; its sixteenth
resend takes the seam down, and a quarter that no route reaches is lost. -/
def execSeamFlitReceive (t i : Nat) (bad : Bool) (s : State) : Host.Outcome State Fault Refusal :=
  let s := s.advance t
  let f := mPage .fault
  let x := s.seam i
  if 6 ≤ i ∨ s.bit f Reg.FAULT_SEAM_STS i then done s
  else if !bad then done (s.setSeam i { x with resends := 0 })
  else
    let s := (s.setSeam i { x with resends := x.resends + 1 }).addSat f Reg.FAULT_SEAM_RETRIES 1
    if x.resends + 1 < 16 then done s
    else
      let s := (s.setBit f Reg.FAULT_SEAM_STS i true).fault 0x04 (seamEnds i).1 i s.selfId 0 4
      let cut := (List.range 4).filter (fun q => (List.range 4).all (fun p => p == q || (s.seamRoute q p).isNone))
      done (cut.foldl State.loseQuarter s)

/-- SEAM_IDLE_FLIT (R339, R392): press adds or removes an idle flit, so that the elastic buffer keeps its depth. `depth` is
by how many flits the buffer differs from the depth set at the start; the flit brings it back by one. -/
def execSeamIdleFlit (t i : Nat) (depth : Int) (s : State) : Host.Outcome State Fault Refusal :=
  let s := s.advance t
  if 6 ≤ i then done s
  else done (s.setSeam i { s.seam i with depth := if 0 < depth then depth - 1 else if depth < 0 then depth + 1 else 0 })

/-! ## The journal's mirror (R376, R377) -/

/-- Entries of a journal that are not in flash. -/
def Journal.waiting (j : Journal) : List JEntry := j.ring.filter (fun e => !seqDone j.flashSeq e.seq)

/-- JOURNAL_FLASH_PROGRAM (R377): the mirror programs 128 waiting entries, or the waiting ones once the oldest has waited
1 ms, or in a shutdown (R414). -/
def execJournalFlashProgram (t q : Nat) (s : State) : Host.Outcome State Fault Refusal :=
  let s := s.advance t
  let j := s.journal q
  let w := j.waiting
  let due := match w with
    | [] => false
    | e :: _ => decide (128 ≤ w.length) || decide (e.time + 900000 ≤ s.podCount) || s.power.state == 4
  if j.program.isSome || !due || decide (4 ≤ q) then done s
  else done (s.setJournal q { j with program := some { entries := w.take 128, started := s.now } })

/-- JOURNAL_FLASH_DONE (R376, R377): a verified program advances FLASH_SEQ, and entries retire; a failed one raises
FLASH_ERR and is written again in another place. -/
def execJournalFlashDone (t q : Nat) (ok : Bool) (s : State) : Host.Outcome State Fault Refusal :=
  let s := s.advance t
  let j := s.journal q
  match j.program with
  | none => done s
  | some p =>
    if !ok then done ((s.setJournal q { j with program := some { p with started := s.now } }).raise (qPage .jrnl q 0) 3)
    else
      let flash := j.flash ++ p.entries
      let last := (p.entries.getLast?.map (·.seq)).orElse (fun _ => j.flashSeq)
      done ((s.setJournal q { j with program := none, flashSeq := last, flash := flash.drop (flash.length - 16777216) }).retire q)

end Sys2Proof.Machine
end

