-- ==== Sys2Proof/Machine/Background.lean ====
section
/-! DEFINITION. Press, darn and tally (R391 to R403). -/

namespace Sys2Proof.Machine

/-! ## Totals behind the counters (R399) -/

/-- The counters that a quarter's record takes differences of (R400). -/
def sampledRegs (q : Nat) : List (Page × Nat) :=
  (List.range 96).map (fun i => (qPage .array q (i / 3), Reg.ARRAY_BUSY_CYC + 0x40 * (i % 3))) ++
  ([(PageKind.ve, 16), (.ce, 8), (.mg, 8), (.so, 2), (.dg, 2), (.wg, 2), (.ex, 1), (.cs, 1), (.st, 16), (.ue, 4)].flatMap
    (fun e => (List.range e.2).map (fun i => (qPage e.1 q i, Reg.ENG_BUSY_CYC)))) ++
  [(qPage .fold q 0, Reg.FOLD_CONFLICT), (qPage .fold q 0, Reg.FOLD_ECC_CE), (qPage .fold q 0, Reg.FOLD_ECC_UE)] ++
  (List.range 8).flatMap (fun i => [(qPage .nmem q i, Reg.NMEM_ECC_CE), (qPage .nmem q i, Reg.NMEM_ACCEPTED)]) ++
  (List.range 6).map (fun d => (qPage .fport q d, Reg.FPORT_FEC_CORR)) ++ [(qPage .bgnd q 0, Reg.BGND_PRESS_ADJ)]

/-- Keys of totals that lie behind no register: units sent by a fabric port, and lines patrolled (R400). -/
def unitKey (q d : Nat) : Nat := 0x10000000 + 16 * q + d

/-- 64-byte units that a fabric port has sent; for `d` = 6 the lines that rinse has patrolled in the quarter (R400). -/
def State.unitTotal (s : State) (q d : Nat) : Nat :=
  if d < 6 then (s.port q d).units
  else (s.compute.fold.patrol.filter (fun e => e.1 / 256 == q)).foldl (fun n e => n + e.2) 0 +
    (List.range 8).foldl (fun n i => (s.stack q i).patrol.foldl (fun n e => n + e.2) n) 0

/-- The difference of a counter since the last sample. -/
def State.delta (s : State) (p : Page) (off : Nat) : Nat :=
  s.total p off - mapGet (fun _ => 0) s.bgnd.sampled (p.reg off)

/-- The difference of a total behind no register. -/
def State.unitDelta (s : State) (q d : Nat) : Nat :=
  s.unitTotal q d - mapGet (fun _ => 0) s.bgnd.sampled (unitKey q d)

/-- Remember the totals of this sample. -/
def State.keepTotals (s : State) : State :=
  let regs := (List.range 4).flatMap (fun q => (sampledRegs q).map (fun r => (r.1.reg r.2, s.total r.1 r.2)) ++
    (List.range 7).map (fun d => (unitKey q d, s.unitTotal q d)))
  { s with bgnd := { s.bgnd with sampled := regs.foldl (fun m e => mapSet (fun _ => 0) m e.1 e.2) [] } }

/-! ## Telemetry (R382, R399 to R401) -/

/-- A share of 255, as the quarter record gives busy cycles. -/
def share (busy full : Nat) : Nat := min 255 (255 * busy / full)

/-- A signed value in 16 bits. -/
def s16 (v : Int) : List Byte := leBytes 2 (BitVec.ofInt 16 v).toNat

/-- The corrected temperatures of a quarter's sensors that are not excluded (R393). -/
def State.included (s : State) (q : Nat) (die : List Int) : List Int :=
  die.zipIdx.filterMap (fun e => if s.bgnd.excluded.contains (64 * q + e.2) then none
    else some (e.1 + mapGet (fun _ => 0) s.bgnd.offsets (64 * q + e.2)))

/-- The highest of a list of temperatures. -/
def hottest (l : List Int) : Int :=
  match l with
  | [] => 0
  | a :: l => l.foldl max a

/-- A quarter's record (R400); `site` are the units sent on its site port. -/
def State.quarterRecord (s : State) (q time seq : Nat) (x : QuarterSense) (site : Nat) : List Byte :=
  let die := s.included q x.die
  let mean := if die.isEmpty then 0 else die.foldl (· + ·) 0 / (die.length : Int)
  let eng (k : PageKind) (i full : Nat) : List Byte := leBytes 1 (share (s.delta (qPage k q i) Reg.ENG_BUSY_CYC) full)
  let sat16 (n : Nat) : List Byte := leBytes 2 (min 0xFFFF n)
  let fold := qPage .fold q 0
  leBytes 8 time ++ leBytes 4 seq ++ leBytes 1 1 ++
  leBytes 1 (q + (if s.bit (mPage .pod) Reg.POD_PT_STS 0 then 0 else 4)) ++ leBytes 2 256 ++
  s16 (hottest die) ++ s16 mean ++ (List.range 8).flatMap (fun i => s16 (x.dram.getD i 0)) ++
  leBytes 2 x.pCore ++ leBytes 2 x.pMem ++
  (List.range 32).flatMap (fun p => leBytes 1 (share ((List.range 3).foldl (fun n a =>
    n + s.delta (qPage .array q p) (Reg.ARRAY_BUSY_CYC + 0x40 * a)) 0) 10800000)) ++
  (List.range 16).flatMap (fun i => eng .ve i 1800000) ++
  ([(PageKind.ce, 8), (.mg, 8), (.so, 2), (.dg, 2), (.wg, 2), (.ex, 1), (.cs, 1)].flatMap
    (fun e => (List.range e.2).flatMap (fun i => eng e.1 i 1800000))) ++
  (List.range 16).flatMap (fun i => eng .st i 1200000) ++ (List.range 4).flatMap (fun i => eng .ue i 1200000) ++
  leBytes 4 (s.delta fold Reg.FOLD_CONFLICT) ++ sat16 (s.delta fold Reg.FOLD_ECC_CE) ++ sat16 (s.delta fold Reg.FOLD_ECC_UE) ++
  (List.range 8).flatMap (fun i => sat16 (s.delta (qPage .nmem q i) Reg.NMEM_ECC_CE)) ++
  (List.range 8).flatMap (fun i => leBytes 4 (s.delta (qPage .nmem q i) Reg.NMEM_ACCEPTED)) ++
  (List.range 6).flatMap (fun d => leBytes 4 (s.unitDelta q d)) ++
  (List.range 6).flatMap (fun d => sat16 (s.delta (qPage .fport q d) Reg.FPORT_FEC_CORR)) ++
  leBytes 4 site ++ leBytes 4 (s.journal q).ring.length ++ leBytes 4 (s.unitDelta q 6) ++
  sat16 (s.delta (qPage .bgnd q 0) Reg.BGND_PRESS_ADJ) ++ List.replicate 18 0

/-- The module's record (R401). -/
def State.moduleRecord (s : State) (time seq : Nat) : List Byte :=
  let p := mPage .pwr
  let half (off : Nat) : List Byte := leBytes 2 (s.field p off 0 16)
  let limit := if s.field p Reg.PWR_PWR_STS 7 3 = 3 then 1 else 0
  let hold := if (List.range 4).any (fun q => s.bit (mPage .clkdir) (pllReg q) 4) then 2 else 0
  leBytes 8 time ++ leBytes 4 seq ++ leBytes 1 2 ++ leBytes 1 s.service ++ leBytes 2 64 ++
  half Reg.PWR_V_IN ++ half Reg.PWR_I_IN ++ half Reg.PWR_P_IN ++ half Reg.PWR_T_INLET ++ half Reg.PWR_T_OUTLET ++
  half Reg.PWR_FLOW ++ leBytes 4 (limit + hold) ++ List.replicate 32 0

/-- Bytes of staged telemetry (R382). -/
def State.telStaged (s : State) : Nat := s.events.telemetry.foldl (fun n r => n + r.length) 0

/-- Discard the oldest staged records until `n` bytes fit in 1 MiB, with fuel (R382). -/
def State.makeRoom (s : State) (n : Nat) : Nat → State
  | 0 => s
  | k + 1 =>
    if s.telStaged + n ≤ 0x100000 then s
    else
      let s := { s with events := { s.events with telemetry := s.events.telemetry.drop 1 } }
      ((s.addSat (mPage .evq) Reg.EVQ_TEL_DROPS 1).raise (mPage .evq) 1).makeRoom n k

/-- Stage a telemetry record (R382). -/
def State.stage (s : State) (r : List Byte) : State :=
  let s := s.makeRoom r.length s.events.telemetry.length
  { s with events := { s.events with telemetry := s.events.telemetry ++ [r] } }

/-- The temperatures of a sample, and the housekeeping registers (R403, R428). -/
def State.senseQuarter (s : State) (q : Nat) (x : QuarterSense) : State :=
  let h := qPage .hk q 0
  let temps := x.die.zipIdx.foldl (fun m e => mapSet (fun _ => 0) m (64 * q + e.2)
    (e.1 + mapGet (fun _ => 0) s.bgnd.offsets (64 * q + e.2))) s.bgnd.temps
  let s := { s with bgnd := { s.bgnd with temps := temps } }
  (((s.setNum h Reg.HK_V_CORE (x.vCore % 65536)).setNum h Reg.HK_V_STACK (x.vStack % 65536)).setNum h Reg.HK_P_CORE
    (x.pCore % 65536)).setNum h Reg.HK_P_MEM (x.pMem % 65536)

/-- TALLY_SAMPLE (R382, R399 to R403): at a pod time that is a multiple of 900,000 counts every quarter is sampled, and
with TEL_EN the records are staged. -/
def execTallySample (t : Nat) (qs : List QuarterSense) (s : State) : Host.Outcome State Fault Refusal :=
  let s := s.advance t
  let time := s.podCount / 900000 * 900000
  if qs.length ≠ 4 ∨ (s.bgnd.samples ≠ 0 ∧ time ≤ s.bgnd.sampleAt) then done s
  else
    let seq := s.bgnd.samples
    let l := qs.zipIdx
    let s := l.foldl (fun s e => s.senseQuarter e.2 e.1) s
    let s := (List.range 4).foldl (fun s q =>
      let p := qPage .tally q 0
      (s.setNum p Reg.TALLY_SEQ seq).setNum64 p Reg.TALLY_LAST_TIME_LO Reg.TALLY_LAST_TIME_HI time) s
    let s := if s.bit (mPage .evq) Reg.EVQ_EVQ_CTL 0 then
        let s := l.foldl (fun s e =>
          let f := s.freshFree
          f.2.stage (f.2.quarterRecord e.2 time seq e.1 f.1)) s
        s.stage (s.moduleRecord time seq)
      else s
    let s := s.keepTotals
    done { s with bgnd := { s.bgnd with samples := seq + 1, sampleAt := time } }

/-! ## Press (R391 to R394) -/

/-- PRESS_LINK_MONITOR (R392, R402): the lowest margin of each lane in the last 10 ms, fabric lanes first and then the site
port's two. -/
def execPressLinkMonitor (t q : Nat) (margins : List Nat) (s : State) : Host.Outcome State Fault Refusal :=
  let s := s.advance t
  let p := qPage .bgnd q 0
  if !s.bit p Reg.BGND_PRESS_CTL 1 ∨ 4 ≤ q then done s
  else
    let l := margins.take 26
    let m := l.zipIdx.foldl (fun m e => mapSet (fun _ => 0) m (32 * q + e.2) e.1) s.bgnd.margins
    let low := l.any (fun x => decide (x < s.field p Reg.BGND_MARGIN_LIMIT 0 8))
    done (({ s with bgnd := { s.bgnd with margins := m } } : State).raiseIf low p 1)

/-- PRESS_THERMAL (R393): each sensor is compared with the two reference diodes; its offset is updated, and one that
differs from both by more than 4 °C is excluded. -/
def execPressThermal (t q : Nat) (raw : List Int) (ref1 ref2 : Int) (s : State) : Host.Outcome State Fault Refusal :=
  let s := s.advance t
  if !s.bit (qPage .bgnd q 0) Reg.BGND_PRESS_CTL 2 ∨ 4 ≤ q then done s
  else
    let l := (raw.take 64).zipIdx
    let off (i : Nat) : Int := mapGet (fun _ => 0) s.bgnd.offsets (64 * q + i)
    let far (v r : Int) : Bool := decide (64 < v - r ∨ 64 < r - v)
    let bad := (l.filter (fun e => far (e.1 + off e.2) ref1 && far (e.1 + off e.2) ref2)).map (fun e => 64 * q + e.2)
    let new := bad.filter (fun k => !s.bgnd.excluded.contains k)
    let offsets := l.foldl (fun m e => mapSet (fun _ => 0) m (64 * q + e.2) (Config.sensorOffset (off e.2) e.1 ref1 ref2))
      s.bgnd.offsets
    let out := s.bgnd.excluded ++ new
    let s := { s with bgnd := { s.bgnd with offsets := offsets, excluded := out } }
    let p := qPage .tally q 0
    done ((s.setNum p Reg.TALLY_SENSORS_OUT (out.filter (fun k => k / 64 == q)).length).raiseIf (!new.isEmpty) p 0)

/-- Write a stack's calibration record into flash (R394). -/
def State.recordCal (s : State) (q slot : Nat) (temp : Int) : State :=
  let none_ : CalRec := { temp := 0, valid := false, at_ := 0 }
  let rec_ : CalRec := { temp := temp, valid := true, at_ := s.podCount, pins := (s.stack q slot).pins }
  { s with boot := { s.boot with cal := mapSet (fun _ => none_) s.boot.cal (8 * q + slot) rec_ } }

/-- PRESS_CAL_RECORD (R394): every 10 minutes the record of each of a quarter's stacks is written, with its junction
temperature. -/
def execPressCalRecord (t q : Nat) (temps : List Int) (s : State) : Host.Outcome State Fault Refusal :=
  let s := s.advance t
  if 4 ≤ q then done s
  else done ((temps.take 8).zipIdx.foldl (fun s e => if (s.stack q e.2).trained then s.recordCal q e.2 e.1 else s) s)

/-! ## Darn (R395 to R398) -/

/-- The aging loss of a triad, in ppm. -/
def State.loss (s : State) (q p : Nat) : Nat := mapGet (fun _ => 0) s.bgnd.aging (32 * q + p)

/-- Note that a triad has passed a limit; the answer tells whether it is for the first time. -/
def State.passLimit (s : State) (k : Nat) (exceeds : Bool) : State × Bool :=
  if exceeds && !s.bgnd.passed.contains k then ({ s with bgnd := { s.bgnd with passed := s.bgnd.passed ++ [k] } }, true)
  else (s, false)

/-- With TRIAD_AUTO darn moves the slot whose triad has aged most to a free triad that has not (R397). -/
def State.autoMove (s : State) (q : Nat) : State :=
  let b := qPage .bgnd q 0
  let warn := s.num b Reg.BGND_AGE_WARN
  let pending := (List.range 30).any (fun n => s.nextOf q n != s.physOf q n)
  if !s.bit b Reg.BGND_DARN_CTL 0 ∨ pending then s
  else
    let old := (List.range 30).filter (fun n => decide (warn < s.loss q (s.physOf q n)))
    let worst := old.foldl (fun (m : Option Nat) n => match m with
      | none => some n
      | some k => if s.loss q (s.physOf q k) < s.loss q (s.physOf q n) then some n else some k) none
    match worst, (s.freeTriads q).find? (fun p => decide (s.loss q p < warn)) with
    | some n, some p => (s.darnNext q n p).raise b 4
    | _, _ => s

/-- Once a day of pod time darn writes a quarter's aging readings into the flash record area (R396). -/
def State.logAging (s : State) (q : Nat) : State :=
  let day := s.podCount / 77760000000000 + 1
  if mapGet (fun _ => 0) s.bgnd.ageDays q = day then s
  else { s with bgnd := { s.bgnd with
    ageDays := mapSet (fun _ => 0) s.bgnd.ageDays q day
    ageLog := s.bgnd.ageLog ++ (List.range 32).map (fun p => (day, 32 * q + p, s.loss q p)) } }

/-- DARN_AGING (R395 to R398): once per second the losses of the 32 triads; `cpu` is the CCLK that darn used, and, for
Q0, `life`, `spare` and `erases` are the flash figures that it publishes. -/
def execDarnAging (t q : Nat) (losses : List Nat) (cpu life spare erases : Nat) (s : State) : Host.Outcome State Fault Refusal :=
  let s := s.advance t
  let b := qPage .bgnd q 0
  if 4 ≤ q then done s
  else
    let s := s.addSat b Reg.BGND_DARN_CPU cpu
    let s := if !s.bit b Reg.BGND_DARN_CTL 1 then s
      else
        let l := (losses.take 32).zipIdx
        let s := { s with bgnd := { s.bgnd with aging := l.foldl (fun m (e : Nat × Nat) => mapSet (fun _ => 0) m (32 * q + e.2) e.1) s.bgnd.aging } }
        l.foldl (fun (s : State) (e : Nat × Nat) =>
          let k := 2 * (32 * q + e.2)
          let w := s.passLimit k (decide (s.num b Reg.BGND_AGE_WARN < e.1))
          let f := (w.1.raiseIf w.2 b 2).passLimit (k + 1) (decide (s.num b Reg.BGND_AGE_FAIL < e.1))
          if f.2 then (f.1.markFailed q e.2).raise b 3 else f.1) (s.logAging q)
    let s := (s.prepareMap q).autoMove q
    if q ≠ 0 then done s
    else
      let was := s.num b Reg.BGND_FLASH_LIFE % 1024
      let worn := decide (life < 200) && (decide (200 ≤ was) || !s.bit (mPage .fault) Reg.FAULT_ADVISE 2)
      let s := (s.setNum b Reg.BGND_FLASH_LIFE (min life 1023 + 65536 * min spare 2047)).setNum b Reg.BGND_FLASH_ERASES erases
      done (if worn then (s.raise b 5).setBit (mPage .fault) Reg.FAULT_ADVISE 2 true else s)

end Sys2Proof.Machine
end

