-- ==== Sys2Proof/Machine/Trust.lean ====
section
/-! DEFINITION. The trust block: measured start, images and banks, floors (R473 to R488). -/

namespace Sys2Proof.Machine

/-! ## Measurement registers (R480) -/

/-- The bytes of a digest, byte i at bits 8i. -/
def digestBytes (d : BitVec 384) : List Byte := leBytes 48 d.toNat

/-- The number of a digest given as bytes. -/
def digestOf (bs : List Byte) : BitVec 384 := BitVec.ofNat 384 (leNat bs)

/-- Measurement register i. -/
def State.mr (s : State) (i : Nat) : BitVec 384 := s.sec.mrs.getD i 0

/-- Extend MRi (R480). -/
def State.extend (s : State) (i : Nat) (d : List Byte) : State :=
  { s with sec := { s.sec with mrs := s.sec.mrs.set i (Config.sha384 (digestBytes (s.mr i) ++ d)) } }

/-- Is the module owned (R301, R312)? -/
def State.owned (s : State) : Bool := s.bit (mPage .host) Reg.HOST_HOST_STS 0

/-- OWNER_DIG. -/
def State.ownerDig (s : State) : BitVec 384 :=
  BitVec.ofNat 384 ((List.range 12).foldl (fun n i => n + s.num (mPage .host) (Reg.HOST_OWNER_DIGi + 4 * i) * 2 ^ (32 * i)) 0)

/-- Store OWNER_DIG. -/
def State.setOwnerDig (s : State) (d : BitVec 384) : State :=
  (List.range 12).foldl (fun s i => s.setNum (mPage .host) (Reg.HOST_OWNER_DIGi + 4 * i) (d.toNat / 2 ^ (32 * i))) s

/-! ## Classes and banks (R478, R479, R485, R486) -/

/-- A class with nothing in its banks. -/
def FwClass.blank : FwClass := { a := none, b := none }
/-- Class c. -/
def State.fw (s : State) (c : Nat) : FwClass := s.sec.classes.getD c .blank
/-- Replace class c. -/
def State.setFw (s : State) (c : Nat) (x : FwClass) : State := { s with sec := { s.sec with classes := s.sec.classes.set c x } }

/-- The image of a bank: 0 is A, 1 is B. -/
def FwClass.bank (x : FwClass) (i : Nat) : Option FwImage := if i = 0 then x.a else x.b
/-- Put an image into a bank. -/
def FwClass.put (x : FwClass) (i : Nat) (v : Option FwImage) : FwClass := if i = 0 then { x with a := v } else { x with b := v }
/-- The floor in force: the higher of the two counts (R486). -/
def FwClass.floor (x : FwClass) : Nat := max x.floor0 x.floor1
/-- The image that runs. -/
def FwClass.runs (x : FwClass) : Option FwImage := x.bank x.running

/-- The first reason against an image, 0 for none (R479, R486). `rsa` and `slh` say whether its signatures verify. -/
def State.imageReason (s : State) (cls slot svn : Nat) (formatOk rsa slh digestOk : Bool) : Nat :=
  if !formatOk ∨ 5 ≤ cls then 0x01
  else if bitAt s.sec.revoked slot ∨ 4 ≤ slot then 0x02
  else if !rsa then 0x03
  else if !slh then 0x04
  else if !digestOk then 0x05
  else if svn < (s.fw cls).floor then 0x06
  else 0

/-- Is the image of a bank acceptable (R479)? -/
def State.acceptable (s : State) (c : Nat) (v : Option FwImage) : Bool :=
  match v with
  | none => false
  | some i => s.imageReason c i.slot i.svn true i.sound i.sound i.sound == 0

/-- The bank that VERIFY boots for a class (R485): the PENDING one if there is one, else the active one; the other where that
is not acceptable. The answer tells whether a bank was passed over; none where neither is acceptable. -/
def State.chooseBank (s : State) (c : Nat) : Option (Nat × Bool) :=
  let x := s.fw c
  let first := if x.pending then 1 - x.active else x.active
  if s.acceptable c (x.bank first) then some (first, false)
  else if s.acceptable c (x.bank (1 - first)) then some (1 - first, true)
  else none

/-- Measure one class (R480, R485): the answer tells whether a bank was acceptable. -/
def State.measureClass (s : State) (c : Nat) : State × Bool :=
  match s.chooseBank c with
  | none => (s, false)
  | some (b, fell) =>
    let x := s.fw c
    let s := s.setFw c { x with running := b, fallback := fell }
    let s := s.raiseIf fell (mPage .sec) 1
    match x.bank b with
    | none => (s, false)
    | some i => (s.extend c (digestBytes i.digest), true)

/-- The 16-byte configuration record of MR5 (R480). -/
def State.configRecord (s : State) (warm : Bool) : List Byte :=
  leBytes 4 s.selfId ++ leBytes 1 s.sec.revoked ++ (List.range 5).flatMap (fun c => leBytes 1 (s.fw c).floor) ++
  leBytes 1 (if warm then 1 else 0) ++ List.replicate 5 0

/-! ## Identity (R474, R476, R477) -/

/-- What a certificate says, in the order of R476; the DER encoding of X.509 is `Config.certDer`. -/
def Cert.content (c : Cert) : List Byte :=
  leBytes 1 c.place ++ leBytes 1 c.issuer ++ leBytes 32 c.serial ++ leBytes 384 c.rsaKey ++ leBytes 48 c.slhKey ++
  leBytes 384 c.rsaSig ++ leBytes 16224 c.slhSig

/-- The bytes of a chain, from the root to DeviceID. -/
def chainBytes (l : List Cert) : List Byte := l.flatMap (fun c => Config.certDer c.content)

/-- The SHA-384 digest of the whole chain, as fused at manufacture. -/
def State.chainDigest (s : State) : BitVec 384 := Config.sha384 (chainBytes s.sec.fused)

/-- The identity checks of VERIFY: the stored chain matches its fused digest, and the DeviceID keys match the certificate; while
PROD is clear no key is decrypted, so none matches. Equal chains have equal digests, which is asked first. -/
def State.identityChecks (s : State) : Bool :=
  (s.sec.chain == s.sec.fused || Config.sha384 (chainBytes s.sec.chain) == s.chainDigest) && s.sec.prod &&
  s.sec.chain.any (fun c => c.place == 2 && (c.rsaKey, c.slhKey) == s.sec.deviceKeys)

/-- VERIFY (R477, R480, R485, R486, R488): the answer is none, or the UNIT of the failure: the class, or 5 for the
identity or the fuses. -/
def State.verify (s : State) (warm : Bool) : State × Option Nat :=
  let s := { s with sec := { s.sec with mrs := List.replicate 7 0, identOk := s.identityChecks } }
  if !s.sec.fusesAgree then ((s.raise (mPage .sec) 7).raise (mPage .sec) 0, some 5)
  else if !s.sec.identOk then (s.raise (mPage .sec) 0, some 5)
  else
    let r := (List.range 5).foldl (fun (a : State × Option Nat) c =>
      match a.2 with
      | some _ => a
      | none => let m := a.1.measureClass c; if m.2 then (m.1, none) else (m.1, some c)) (s, none)
    match r.2 with
    | some c => (r.1.raise (mPage .sec) 0, some c)
    | none =>
      let s := (List.range 5).foldl (fun s c => let x := s.fw c; s.setFw c { x with floor0 := x.floor, floor1 := x.floor }) r.1
      let s := s.extend 5 (s.configRecord warm)
      (if s.owned then s.extend 6 (digestBytes s.ownerDig) else s, none)

/-- The end of a start: a PENDING bank that ran becomes active; after a failure it is PENDING no more, and FW_REVERT is raised
(R485). -/
def State.endBanks (s : State) (ok : Bool) : State :=
  let was := (List.range 5).any (fun c => (s.fw c).pending)
  let s := (List.range 5).foldl (fun s c =>
    let x := s.fw c
    if !x.pending then s
    else if ok then (if x.running = 1 - x.active then s.setFw c { x with active := x.running, pending := false } else s)
    else s.setFw c { x with pending := false, running := x.active }) s
  s.raiseIf (!ok && was) (mPage .sec) 4

end Sys2Proof.Machine
end

