-- ==== Sys2Proof/Machine/Power.lean ====
section
/-! DEFINITION. Power, coolant, limits, trips and the sideband's own commands (R404 to R428). -/

namespace Sys2Proof.Machine

/-! ## Phases and supplies -/

/-- PHASE of BOOT_STS (R445). -/
def State.phase (s : State) : Nat := s.field (mPage .boot) Reg.BOOT_BOOT_STS 0 4
/-- Set PHASE. -/
def State.setPhase (s : State) (p : Nat) : State := s.setField (mPage .boot) Reg.BOOT_BOOT_STS 0 4 p
/-- Is the current or last start warm? -/
def State.warmStart (s : State) : Bool := s.bit (mPage .boot) Reg.BOOT_BOOT_STS 4
/-- Is a start in progress? -/
def State.starting (s : State) : Bool := decide (s.phase ≤ 8)

/-- Change STATE of R412; a change asserts ALERT_L (R426). -/
def State.setPower (s : State) (st : Nat) : State :=
  { s with power := { s.power with state := st, alert := s.power.alert || s.power.state != st } }

/-- Assert ALERT_L (R426). -/
def State.alert (s : State) : State := { s with power := { s.power with alert := true } }

/-- Is a sideband path to the registers there: island 108 of the service quarter RUN or GATED (R424)? -/
def State.busUp (s : State) : Bool := decide (s.island s.service 108 ≤ 1)

/-- Turn MAIN off: every island is OFF, ports and queue pairs are gone, and what waited is discarded (R326, R412). Entries of
the journals that are not in flash are lost with it (R377). -/
def State.mainOff (s : State) : State :=
  let islands := (List.range 4).foldl (fun m q => (List.range 110).foldl (fun m i => mapSet islandDefault m (128 * q + i) 5) m)
    s.clk.islands
  let j := s.journals.map (fun e => (e.1, { e.2 with ring := [], program := none, held := [] }))
  let s := (List.range 24).foldl (fun s i => s.setBit (qPage .fport (i / 6) (i % 6)) Reg.FPORT_PORT_STS 0 false) s
  { s with clk := { s.clk with islands := islands, held := [], stalled := [], got := [], cmds := [] }
           journals := j, host := {}, sec := { s.sec with sessions := [], vca := [] } }

/-- Every journal entry not yet in flash is written there (R414, R429, R432). -/
def State.flushJournals (s : State) : State :=
  { s with journals := s.journals.map (fun e =>
    (e.1, { e.2 with flash := (let f := e.2.flash ++ e.2.waiting; f.drop (f.length - 16777216)), program := none
                     flashSeq := (e.2.ring.getLast?.map (·.seq)).orElse (fun _ => e.2.flashSeq) })) }

/-- Store TRIP_INFO (R427), with the time of the cause. -/
def State.tripInfo (s : State) (cause q unit : Nat) : State :=
  let s := s.setNum (mPage .pwr) Reg.PWR_TRIP_INFO (cause % 16 + 16 * (q % 4) + 64 * (unit % 64))
  { s with power := { s.power with causeAt := s.now } }

/-- Does a cause of the CCLK of the recorded one replace it: the lower code does (R414, R422)? -/
def State.causeWins (s : State) (cause : Nat) : Bool :=
  s.power.causeAt / 4 == s.now / 4 && decide (cause < s.field (mPage .pwr) Reg.PWR_TRIP_INFO 0 4)

/-- The straps as read: SELF_ID if their parity is odd, else 0 with STRAP_ERR (R407). -/
def State.readStraps (s : State) : State :=
  if s.strapErr then (s.setNum (mPage .pod) Reg.POD_SELF_ID 0).raise (mPage .pwr) 4
  else s.setNum (mPage .pod) Reg.POD_SELF_ID (s.power.straps % 2 ^ 18)

/-- The coolant-present interlock (R413), but for the 10 ms of PWR_EN. -/
def State.interlock (s : State) : Bool :=
  let p := mPage .pwr
  let inlet : Int := (BitVec.ofNat 16 (s.num p Reg.PWR_T_INLET)).toInt
  s.power.enable && s.power.supply && s.power.return_ && decide (600 ≤ s.field p Reg.PWR_FLOW 0 16) &&
  decide (inlet ≤ 720) && decide (4800 ≤ s.field p Reg.PWR_V_IN 0 16) && decide (s.field p Reg.PWR_V_IN 0 16 ≤ 5800)

/-! ## Contact, shutdown and trips -/

/-- POWER_CONTACT (R407, R411): the input is qualified and charged, the AON domain comes up and reads the straps. -/
def execPowerContact (t straps : Nat) (s : State) : Host.Outcome State Fault Refusal :=
  let s := s.advance t
  if s.power.aon then done s
  else done ({ s with power := { state := 0, aon := true, straps := straps % 2 ^ 19, enable := false, supply := false, return_ := false } } : State).readStraps

/-- The AON domain loses its supply: the failure counts clear, and everything is off. -/
def State.aonOff (s : State) : State :=
  { s.setField (mPage .boot) Reg.BOOT_BOOT_STS 5 4 0 with
    power := { s.power with state := 0, aon := false, alert := false, pending := false, enable := false }
    boot := { s.boot with bistAt := none, next := none, unpick := none, warmAfter := false } }

/-- AON_POWER_LOSS (R433, R436): the failure counts clear, BIST_AGE reads all ones, and everything is off. -/
def execAonPowerLoss (t : Nat) (s : State) : Host.Outcome State Fault Refusal :=
  done (s.advance t).mainOff.aonOff

/-- Begin an orderly shutdown with a cause (R414): a further cause changes nothing, but PWR_EN is recorded in place of OFF
of the same CCLK. -/
def State.shutdown (s : State) (cause : Nat) : State :=
  if s.power.state = 4 then (if s.causeWins cause then s.tripInfo cause 0 0 else s)
  else if s.power.state = 0 ∨ s.power.state = 5 then s
  else { (s.tripInfo cause 0 0).setPower 4 with boot := { s.boot with next := none } }

/-- What PWR_EN reads. -/
def State.enable (s : State) (on : Bool) : State := { s with power := { s.power with enable := on } }

/-- PWR_EN_LOW (R414, R438): PWR_EN has been low for 1 ms. -/
def execPwrEnLow (t : Nat) (s : State) : Host.Outcome State Fault Refusal :=
  let s := s.advance t
  done ((s.enable false).shutdown 8)

/-- SHUTDOWN_COMPLETE (R414): with every entry in flash, MAIN and MEMD turn off. -/
def execShutdownComplete (t : Nat) (s : State) : Host.Outcome State Fault Refusal :=
  let s := s.advance t
  if s.power.state ≠ 4 ∨ s.journals.any (fun e => !e.2.waiting.isEmpty) then done s
  else done (s.mainOff.setPower 0)

/-- What the interlock measures (R413): flow, inlet temperature and input voltage. -/
def State.measured (s : State) (flow : Nat) (tInlet : Int) (vin : Nat) : State :=
  let p := mPage .pwr
  ((s.setNum p Reg.PWR_FLOW (flow % 65536)).setNum p Reg.PWR_T_INLET (BitVec.ofInt 16 tInlet).toNat).setNum p
    Reg.PWR_V_IN (vin % 65536)

/-- What the two coupling latch sensors report (R413). -/
def State.latches (s : State) (supply return_ : Bool) : State :=
  { s with power := { s.power with supply := supply, return_ := return_ } }

/-- The ramp stops: MAIN and MEMD are off, and nothing follows of itself. -/
def State.dropRamp (s : State) : State := { s.mainOff.setPower 0 with boot := { s.boot with next := none } }

/-- RAMP_INTERLOCK_FAIL (R413): a condition of the interlock fails during RAMP. -/
def execRampInterlockFail (t flow : Nat) (tInlet : Int) (vin : Nat) (supply return_ : Bool) (s : State) :
    Host.Outcome State Fault Refusal :=
  let s := ((s.advance t).measured flow tInlet vin).latches supply return_
  if s.power.state ≠ 1 ∨ s.interlock then done s
  else done s.dropRamp

/-- TRIP_RELEASE (R422): PWR_EN has been low for 1 s. -/
def execTripRelease (t : Nat) (s : State) : Host.Outcome State Fault Refusal :=
  let s := s.advance t
  if s.power.state ≠ 5 then done s
  else done ((s.enable false).setPower 0)

/-! ## Limits (R410, R415 to R421) -/

/-- P_LIMIT in 10 mW and the code of the term that binds (R416): the first of P_CAP, TDP, current and thermal that is
lowest. -/
def State.powerLimit (s : State) (vin : Nat) : Nat × Nat :=
  let p := mPage .pwr
  let cap := 100 * s.field p Reg.PWR_P_CAP 0 16
  let cur := 82 * vin
  let th := 100 * s.field p Reg.PWR_P_THERM 0 16
  let m := min (min cap 420000) (min cur th)
  (m, if m = cap then 1 else if m = 420000 then 2 else if m = cur then 3 else 4)

/-- THROTTLE_UPDATE (R416): every 10 µs. `vin` (10 mV) is averaged over 1 ms, `pavg` (W) over 100 µs, `iin` in 10 mA. -/
def execThrottleUpdate (t vin iin pavg : Nat) (s : State) : Host.Outcome State Fault Refusal :=
  let s := s.advance t
  if s.power.state ≠ 2 ∧ s.power.state ≠ 4 then done s
  else
    let p := mPage .pwr
    let l := s.powerLimit vin
    let n := s.field p Reg.PWR_PWR_STS 10 6
    let n' := if 98 * l.1 < 10000 * pavg ∧ n < 60 then n + 1 else if 10000 * pavg < 94 * l.1 ∧ 0 < n then n - 1 else n
    let s := (((s.setNum p Reg.PWR_V_IN (vin % 65536)).setNum p Reg.PWR_I_IN (iin % 65536)).setNum p Reg.PWR_P_IN
      (pavg % 65536)).setNum p Reg.PWR_P_LIMIT (l.1 / 100)
    let s := (s.setField p Reg.PWR_PWR_STS 10 6 n').setField p Reg.PWR_PWR_STS 7 3 (if n' = 0 then 0 else l.2)
    let s := (List.range 4).foldl (fun s q => s.setField (qPage .hk q 0) Reg.HK_HK_STS 1 6 n') s
    done (if n = 0 ∧ n' ≠ 0 then (s.raise p 0).alert else s)

/-- V_RANGE (R410): the input has been outside 48 V to 58 V for 1 ms. -/
def execVRange (t vin : Nat) (s : State) : Host.Outcome State Fault Refusal :=
  let s := s.advance t
  let p := mPage .pwr
  let s := s.setNum p Reg.PWR_V_IN (vin % 65536)
  if vin < 4800 ∨ 5800 < vin then done (s.raise p 3).alert else done s

/-- A condition that has held for 1 s is raised once: the time since which it holds, and whether it was raised. -/
def heldFor (on : Bool) (since : Option Nat) (told : Bool) (now : Nat) : Option Nat × Bool × Bool :=
  if !on then (none, false, false)
  else
    let a := since.getD now
    if told then (some a, true, false)
    else if a + 3600000000 ≤ now then (some a, true, true)
    else (some a, false, false)

/-- COOLANT_SAMPLE (R419): every 1 ms; FLOW_LOW and INLET_HIGH after 1 s. -/
def execCoolantSample (t flow : Nat) (tInlet tOutlet : Int) (s : State) : Host.Outcome State Fault Refusal :=
  let s := s.advance t
  let p := mPage .pwr
  if !s.power.aon then done s
  else
    let s := ((s.setNum p Reg.PWR_FLOW (flow % 65536)).setNum p Reg.PWR_T_INLET (BitVec.ofInt 16 tInlet).toNat).setNum p
      Reg.PWR_T_OUTLET (BitVec.ofInt 16 tOutlet).toNat
    let f := heldFor (decide (flow < 760)) s.power.flowLow s.power.flowTold s.now
    let i := heldFor (decide (640 < tInlet)) s.power.inletHigh s.power.inletTold s.now
    let s := { s with power := { s.power with flowLow := f.1, flowTold := f.2.1, inletHigh := i.1, inletTold := i.2.1 } }
    let s := if f.2.2 then (s.raise p 1).alert else s
    done (if i.2.2 then (s.raise p 2).alert else s)

/-- One quarter's comparison with its warning limits, with 3 °C of hysteresis (R420). -/
def State.compareHeat (s : State) (q : Nat) (die dram : Int) : State :=
  let h := qPage .hk q 0
  let lim (off : Nat) : Int := (BitVec.ofNat 16 (s.num h off)).toInt
  let exceeds (was : Bool) (v l : Int) : Bool := if was then decide (l - 48 < v) else decide (l < v)
  let one (s : State) (bit ev off lo : Nat) (v : Int) : State :=
    let was := s.bit h Reg.HK_HK_STS bit
    let now := exceeds was v (lim lo)
    ((s.setNum h off (BitVec.ofInt 16 v).toNat).setBit h Reg.HK_HK_STS bit now).raiseIf (now && !was) h ev
  one (one s 7 0 Reg.HK_T_DIE_MAX Reg.HK_T_WARN die) 8 1 Reg.HK_T_DRAM_MAX Reg.HK_T_DRAM_WARN dram

/-- THERMAL_LIMIT_UPDATE (R420, R421): every 10 ms, with each quarter's highest included die sensor and DRAM junction. -/
def execThermalLimitUpdate (t : Nat) (die dram : List Int) (s : State) : Host.Outcome State Fault Refusal :=
  let s := s.advance t
  let s := (List.range 4).foldl (fun s q => s.compareHeat q (die.getD q 0) (dram.getD q 0)) s
  let p := mPage .pwr
  let hot := (List.range 4).any (fun q => s.bit (qPage .hk q 0) Reg.HK_HK_STS 7 || s.bit (qPage .hk q 0) Reg.HK_HK_STS 8)
  let v := s.field p Reg.PWR_P_THERM 0 16
  done (s.setNum p Reg.PWR_P_THERM (if hot then max 1800 (v - 84) else min 4200 (v + 42)))

/-! ## The sideband's own commands (R423 to R426) -/

/-- The 16 bytes of PSTAT (R425). -/
def State.pstat (s : State) : List Byte :=
  let p := mPage .pwr
  let half (off : Nat) : List Byte := leBytes 2 (s.field p off 0 16)
  let n := s.field p Reg.PWR_PWR_STS 10 6
  let b (x : Bool) (i : Nat) : Nat := if x then 2 ^ i else 0
  half Reg.PWR_V_IN ++ half Reg.PWR_I_IN ++ half Reg.PWR_P_IN ++ half Reg.PWR_FLOW ++ half Reg.PWR_T_INLET ++
  leBytes 1 s.power.state ++ leBytes 1 (s.field p Reg.PWR_TRIP_INFO 0 4) ++
  leBytes 1 (b s.interlock 0 + b (n != 0) 1 + b s.power.flowTold 2 + b s.power.inletTold 3 + b s.strapErr 4 + b s.busUp 5) ++
  leBytes 1 n ++ [0, 0]

/-- SMB_PSTAT (R424 to R426): answered whenever the AON domain is up; it releases ALERT_L. -/
def execSmbPstat (t : Nat) (s : State) : Host.Outcome State Fault Refusal :=
  let s := s.advance t
  if !s.power.aon then done s
  else done (({ s with power := { s.power with alert := false } } : State).emit (.smb s.pstat))

/-- SMB_REG_ADDR (R423, R424): a value that is not a page offset is NAKed, and so is a wrong PEC, which raises SB_PEC. -/
def execSmbRegAddr (t v : Nat) (pec : Bool) (s : State) : Host.Outcome State Fault Refusal :=
  let s := s.advance t
  if !s.power.aon then done s
  else if !pec then done ((s.raise (mPage .pwr) 5).emit .smbNak)
  else if 4096 ≤ v ∨ v % 4 ≠ 0 then done (s.emit .smbNak)
  else done (({ s with power := { s.power with regAddr := v } } : State).emit .smbAck)

/-- SMB_ALERT_RESPONSE (R423, R426): the module answers with its address if its alert is pending. -/
def execSmbAlertResponse (t : Nat) (s : State) : Host.Outcome State Fault Refusal :=
  let s := s.advance t
  if s.power.aon && s.power.alert then done (({ s with power := { s.power with alert := false } } : State).emit (.smb [0x60]))
  else done s

/-- SMB_CLOCK_LOW_RESET (R423): the interface resets after 25 ms of a low clock; a write already accepted stays pending. -/
def execSmbClockLowReset (t : Nat) (s : State) : Host.Outcome State Fault Refusal :=
  let s := s.advance t
  done { s with power := { s.power with regAddr := 0 } }

end Sys2Proof.Machine
end

