-- ==== Sys2Proof/Machine/Boot.lean ====
section
/-! DEFINITION. Starts, failed starts and parking, warm entry, trips, unpick, and the lead's answers (R41 to R43, R227, R228, R244, R422, R429 to R443). -/

namespace Sys2Proof.Machine

/-! ## What a start keeps (R225, R255, R301, R367, R376, R434, R436, R470) -/

/-- Registers that every start keeps: those of the AON domain. -/
def keptAlways : List Nat :=
  [Reg.PWR_TRIP_INFO, Reg.PWR_V_IN, Reg.PWR_I_IN, Reg.PWR_FLOW, Reg.PWR_T_INLET, Reg.PWR_T_OUTLET].map (mPage .pwr).reg ++
  [Reg.BOOT_BOOT_STS, Reg.BOOT_FAIL_INFO, Reg.BOOT_STARTS].map (mPage .boot).reg

/-- Registers that a warm start keeps beside them. -/
def keptWarm : List Nat :=
  [Reg.STEP_ATTEMPT_LO, Reg.STEP_ATTEMPT_HI, Reg.STEP_COMMITTED_LO, Reg.STEP_COMMITTED_HI, Reg.STEP_SKIPPED].map
    (mPage .step).reg ++
  (Reg.HOST_HOST_STS :: (List.range 12).map (fun i => Reg.HOST_OWNER_DIGi + 4 * i)).map (mPage .host).reg ++
  [(mPage .modid).reg Reg.MODID_SVC, (mPage .fault).reg Reg.FAULT_FREC_SEQ, (mPage .fault).reg Reg.FAULT_SEAM_STS]

/-- A journal at a start: its flash, and a SEQ above every one written (R375). -/
def Journal.restart (j : Journal) : Journal :=
  let top := j.flash.getLast?.map (·.seq)
  { seq := (match top with | some n => (n + 65536) % 2 ^ 40 | none => 0), flashSeq := top, flash := j.flash }

/-- A stack at a start: its spare pins, its repairs and darn's record of them, of which a stack that loses power keeps only
the hard ones in force, the corrections counted since the last cold start, and on a warm start a D stack's self-refresh
(R224, R225, R227). -/
def Stack.restart (x : Stack) (warm : Bool) : Stack :=
  { repairs := x.repairs.filter (fun r => warm || r.hard), recorded := x.recorded, hardPending := x.hardPending
    counts := if warm then x.counts else [], pins := x.pins, trainedAt := if warm then x.trainedAt else 0
    sref := warm && x.sref, retainOk := warm && x.retainOk }

/-- Begin a start (R367, R407, R429, R432): every register takes its reset value but for those kept, and phase RAILS begins. -/
def State.beginStart (s : State) (warm : Bool) : State :=
  let s := s.mainOff
  let keep := if warm then keptAlways ++ keptWarm else keptAlways
  let regs := s.regs.filter (fun e => keep.contains e.1)
  let s : State :=
    { pending := s.pending, now := s.now, free := s.free, regs := regs, mem := s.mem, ecc := s.ecc
      journals := s.journals.map (fun e => (e.1, e.2.restart))
      stackUnits := s.stackUnits.map (fun e => (e.1, e.2.restart (warm && decide (6 ≤ e.1 % 8))))
      frecs := if warm then s.frecs else []
      fabric := { pod := { stored := s.fabric.pod.stored } }
      power := s.power
      boot := { startAt := s.now, phaseAt := s.now, bistAt := s.boot.bistAt, slotMap := s.boot.slotMap, cal := s.boot.cal }
      cores := if warm then { seams := s.cores.seams } else {}
      sec := s.sec, out := s.out, outAt := s.outAt }
  let b := mPage .boot
  let s := (s.addSat b Reg.BOOT_STARTS 1).setField b Reg.BOOT_BOOT_STS 4 1 (if warm then 1 else 0)
  ((s.setPhase 0).setPower (if warm then 3 else 1)).readStraps

/-! ## Failed starts (R431, R436, R437) -/

/-- Add 1 to a failure count, which stays at 3. -/
def State.countFail (s : State) (lo : Nat) : State :=
  let b := mPage .boot
  s.setField b Reg.BOOT_BOOT_STS lo 2 (min 3 (s.field b Reg.BOOT_BOOT_STS lo 2 + 1))

/-- What follows a failed start, by the table of R437. -/
def State.afterFail (s : State) (cause : Nat) : State × NextKind :=
  let b := mPage .boot
  if s.warmStart then
    if cause = 7 ∨ cause = 8 then (s.setField b Reg.BOOT_BOOT_STS 5 2 3, .cold)
    else
      let s := s.countFail 5
      (s, if s.field b Reg.BOOT_BOOT_STS 5 2 = 3 then .cold else .warm)
  else
    let s := s.countFail 7
    (s, if s.field b Reg.BOOT_BOOT_STS 7 2 = 3 then .park else .cold)

/-- The start fails (R431, R485): FAIL_INFO, START_FAIL, MAIN off, and for a cold start MEMD as well. -/
def State.failStart (s : State) (cause q unit : Nat) : State :=
  let b := mPage .boot
  let warm := s.warmStart
  let info := cause % 16 + 16 * s.phase + (if warm then 256 else 0) + 512 * (q % 4) + 2048 * (unit % 32)
  let s := (s.setNum b Reg.BOOT_FAIL_INFO info).raise b 1
  let r := (s.endBanks false).afterFail cause
  let s := r.1.mainOff
  let s := if s.power.state = 5 then s else if warm then s.setPower 3 else s.setPower 0
  { s with boot := { s.boot with next := some { at_ := s.now + 3600000000, kind := r.2 } } }

/-! ## Phases (R346, R429 to R433) -/

/-- The bound of a phase in units of 0.1 s (R346, R433). -/
def phaseBound (warm retrained discovered : Bool) (p : Nat) : Nat :=
  if warm then
    match p with
    | 0 => 5 | 1 => 12 | 2 => 20 | 3 => 440 | 4 => if retrained then 450 else 3 | 5 => 20 | 6 => 2
    | 7 => if discovered then 21 else 15 | _ => 2
  else
    match p with
    | 0 => 15 | 1 => 12 | 2 => 20 | 3 => 440 | 4 => 450 | 5 => 20 | 6 => 10 | 7 => 21 | _ => 30

/-- Bring islands up in every quarter. -/
def State.bringUp (s : State) (islands : List Nat) (code : Nat) : State :=
  (List.range 4).foldl (fun s q => islands.foldl (fun s i => s.setIsland q i code) s) s

/-- Seconds since the last BIST that passed (R433). -/
def State.bistAge (s : State) : Nat :=
  match s.boot.bistAt with
  | none => 0xFFFFFFFF
  | some a => min 0xFFFFFFFF ((s.now - a) / 3600000000)

/-- Record how long the phase took, and begin the next that is not omitted (R429, R433). -/
def State.nextPhase (s : State) : State :=
  let b := mPage .boot
  let p := s.phase
  let s := s.setNum b (Reg.BOOT_PHASE_MSp + 4 * p) ((s.now - s.boot.phaseAt) / 3600000)
  let s : State := { s with boot := { s.boot with phaseAt := s.now } }
  let s := s.setPhase (p + 1)
  let s := if p + 1 = 3 ∧ s.warmStart ∧ s.bistAge ≤ 604800 then (s.setBit b Reg.BOOT_SKIP_MASK 0 true).setPhase 4 else s
  let s := if s.phase = 4 ∧ s.warmStart ∧ p + 1 ≤ 4 ∧ s.bit b Reg.BOOT_SKIP_MASK 0 then
      s.bringUp (List.range 32 ++ (List.range 56).map (· + 33) ++ [104, 105, 106, 107]) 1 else s
  let s := if s.phase = 5 ∧ s.warmStart then (s.setBit b Reg.BOOT_SKIP_MASK 4 true).setPhase 6 else s
  let s := if s.phase = 7 then
      let s := s.bringUp [89, 90, 91, 92, 93, 94] 1
      s.startDiscovery s.warmStart
    else s
  if s.phase = 8 then s.bringUp [95] 1 else s

/-- CLOCKS (R313 to R315): every quarter has a qualified reference, and its root locks. -/
def State.endClocks (s : State) : State :=
  match (List.range 4).find? (fun q => !s.refOk q 0 && !s.refOk q 1) with
  | some q => s.failStart 2 q 0
  | none =>
    let c := mPage .clkdir
    let s := (List.range 4).foldl (fun s q => ((s.setBit c (pllReg q) 0 true).setBit c (pllReg q) 5 false).retrack q) s
    let s : State := { s with cores := { s.cores with beatAt := s.now } }
    ((s.bringUp [108, 109, 32] 0).setField (mPage .modid) Reg.MODID_QUARTERS 0 4 15).nextPhase

/-- VERIFY (R477, R485, R486): banks found corrupt do not verify. -/
def State.endVerify (s : State) (corrupt : List Nat) : State :=
  let spoil (s : State) (k : Nat) : State :=
    let x := s.fw (k / 2)
    s.setFw (k / 2) (x.put (k % 2) ((x.bank (k % 2)).map (fun i => { i with sound := false })))
  let r := (corrupt.foldl spoil s).verify s.warmStart
  match r.2 with
  | some u => r.1.failStart 3 0 u
  | none => r.1.nextPhase

/-- BIST (R43, R431): each triad that fails is marked; a quarter with fewer than 30 good ones fails the start. -/
def State.endBist (s : State) (triads : List (Nat × Nat)) : State :=
  let s := triads.foldl (fun s e => if 4 ≤ e.1 ∨ 32 ≤ e.2 then s
    else s.setBit (qPage .tslot e.1 0) Reg.TSLOT_FAILED_MAP e.2 true) s
  match (List.range 4).find? s.short with
  | some q => s.failStart 4 q (((triads.find? (fun e => e.1 == q)).map Prod.snd).getD 0)
  | none =>
    let s := s.bringUp (List.range 32 ++ (List.range 56).map (· + 33) ++ [104, 105, 106, 107]) 1
    ({ s with boot := { s.boot with bistAt := some s.now } } : State).nextPhase

/-- Must a stack be trained (R394, R433)? -/
def State.mustTrain (s : State) (x : StartFound) (k : Nat) : Bool :=
  let none_ : CalRec := { temp := 0, valid := false, at_ := 0 }
  let c := mapGet (fun _ => none_) s.boot.cal k
  !s.warmStart || !c.valid || x.badCrc.contains k || decide (160 < (x.temps.getD k 0 - c.temp).natAbs)

/-- TRAIN (R228, R394, R433): a D stack that lost its contents fails a warm start; stacks whose record does not hold are
trained; D stacks leave self-refresh. -/
def State.endTrain (s : State) (x : StartFound) : State :=
  let b := mPage .boot
  let lost := (List.range 32).filter (fun k => decide (6 ≤ k % 8) && s.warmStart && !(s.stack (k / 8) (k % 8)).retainOk)
  match lost with
  | k :: _ => (lost.foldl (fun s k => s.raise (qPage .nmem (k / 8) (k % 8)) 7) s).failStart 7 (k / 8) k
  | [] =>
    let again := (List.range 32).filter (s.mustTrain x)
    if phaseBound s.warmStart (!again.isEmpty) false 4 * 360000000 < s.now - s.boot.phaseAt then s.failStart 1 0 0
    else
      let s := if s.warmStart && !again.isEmpty then
          ((again.map (· / 8)).eraseDups.foldl (fun s q => s.raise (qPage .bgnd q 0) 6) s).raise b 7 else s
      let s := (List.range 32).foldl (fun s k =>
        let y := s.stack (k / 8) (k % 8)
        let up := { y with trained := true, sref := false, waiting := []
                           trainedAt := if again.contains k then s.now / 3 else y.trainedAt }
        y.waiting.foldl (fun s r => match stackPlace r.addr with
          | some p => s.takeRequest p r
          | none => s) (s.setStack (k / 8) (k % 8) up)) s
      let s := again.foldl (fun s k => s.recordCal (k / 8) (k % 8) (x.temps.getD k 0)) s
      let s := s.setNum b Reg.BOOT_STACKS_TRAINED (again.foldl (fun m k => m + 2 ^ k) 0)
      let s := s.setBit b Reg.BOOT_SKIP_MASK 1 again.isEmpty
      (s.bringUp [96, 97, 98, 99, 100, 101, 102, 103] 1).nextPhase

/-- The soft repairs that darn has recorded become hard, each with its spare (R225). -/
def Stack.harden (x : Stack) : Stack :=
  { x with repairs := x.repairs.filter (·.hard) ++ x.recorded.map (fun r => { r with lines := 16, copied := true, hard := true })
           recorded := [], hardPending := false }

/-- REPAIR (R225, R433): at a cold start the recorded soft repairs become hard. -/
def State.endRepair (s : State) : State :=
  (if s.warmStart then s
   else ({ s with stackUnits := s.stackUnits.map (fun e => (e.1, e.2.harden)) } : State)).nextPhase

/-- CLEAR (R228, R429, R433): a warm start keeps the D tier. -/
def State.endClear (s : State) : State :=
  if s.warmStart then
    let dTier (a : Nat) : Bool := decide (0x10000000000 ≤ a ∧ a < 0x20000000000)
    let mem := s.mem.filter (fun e => dTier e.1)
    let ecc := s.ecc.filter (fun e => dTier (16 * e.1))
    (({ s with mem := mem, ecc := ecc } : State).setBit (mPage .boot) Reg.BOOT_SKIP_MASK 2 true).nextPhase
  else ({ s with mem := [], ecc := [] } : State).nextPhase

/-- PORTS, and with it the start, ends (R42, R43, R430, R436, R485): darn's stored slot map is written to NEXT. -/
def State.endStart (s : State) : State :=
  let b := mPage .boot
  let s := s.setNum b (Reg.BOOT_PHASE_MSp + 32) ((s.now - s.boot.phaseAt) / 3600000)
  let s := (s.setNum b Reg.BOOT_START_MS ((s.now - s.boot.startAt) / 3600000)).setField b Reg.BOOT_BOOT_STS 5 4 0
  let stored := (List.range 4).filter (fun q => s.boot.slotMap.any (fun e => e.1 / 32 == q))
  let s := stored.foldl (fun s q => (List.range 30).foldl (fun s n =>
    s.setField (qPage .tslot q 0) (Reg.TSLOT_SLOTn + 4 * n) 8 5 (mapGet (fun _ => 0) s.boot.slotMap (32 * q + n))) s) s
  ((s.setPhase 9).endBanks true).raise b 0

/-- A phase of a start ends with what it found, and the next begins; one that has passed its bound fails (R228, R429 to R433).
FABRIC ends once discovery has, or a tack is answered. -/
def State.startPhase (s : State) (x : StartFound) : State :=
  let p := s.phase
  if (s.power.state ≠ 1 ∧ s.power.state ≠ 2 ∧ s.power.state ≠ 3) ∨ 8 < p ∨ s.boot.next.isSome then s
  else if p ≠ 4 ∧ phaseBound s.warmStart false (!s.bit (mPage .boot) Reg.BOOT_SKIP_MASK 3) p * 360000000 < s.now - s.boot.phaseAt then
    s.failStart 1 0 0
  else
    match p with
    | 0 => ((List.range 4).foldl (fun s q => s.setBit (qPage .hk q 0) Reg.HK_HK_STS 0 true) (s.setPower 2)).nextPhase
    | 1 => s.endClocks
    | 2 => s.endVerify x.corrupt
    | 3 => s.endBist x.triads
    | 4 => s.endTrain x
    | 5 => s.endRepair
    | 6 => s.endClear
    | 7 => if s.fabric.pod.stage = .idle ∧ !s.fabric.pod.tacking then s.nextPhase else s
    | _ => s.endStart

/-- START_PHASE_FAIL (R431): the phase passes its bound, a root does not lock, or a unit fails its test or training. -/
def execStartPhaseFail (t cause q unit : Nat) (s : State) : Host.Outcome State Fault Refusal :=
  let s := s.advance t
  if (s.power.state ≠ 1 ∧ s.power.state ≠ 2 ∧ s.power.state ≠ 3) ∨ !s.starting ∨ s.boot.next.isSome ∨ cause = 0 ∨ 9 < cause then
    done s
  else done (s.failStart cause q unit)

/-- The straps as their pins read (R407). -/
def State.strapped (s : State) (straps : Nat) : State := { s with power := { s.power with straps := straps % 2 ^ 19 } }

/-- RAMP_START (R413, R429): PWR_EN has been high for 10 ms in STANDBY; with the interlock met a cold start begins. A failed
start's next action keeps its own time. -/
def execRampStart (t straps flow : Nat) (tInlet : Int) (vin : Nat) (s : State) : Host.Outcome State Fault Refusal :=
  let s := s.advance t
  if s.power.state ≠ 0 ∨ !s.power.aon then done s
  else
    let s := (((s.measured flow tInlet vin).latches true true).enable true).strapped straps
    if !s.interlock ∨ s.boot.next.isSome then done s else done (s.beginStart false)

/-- Park (R438, R484): rails, clocks, islands 108 and 109 and the site-port island of one quarter; none comes up where
neither Q0 nor Q1 does. -/
def State.park (s : State) (up0 up1 : Bool) : State :=
  let b := mPage .boot
  let q := if up0 then s.service else 1
  let info := s.num b Reg.BOOT_FAIL_INFO
  if !up0 && !up1 then { s.setPower 0 with boot := { s.boot with next := none } }
  else
    let s := (s.beginStart false).setPower 2
    let s := (((s.setIsland q 108 0).setIsland q 109 0).setIsland q 95 0).setField (mPage .modid) Reg.MODID_SVC 0 2 q
    let s := (s.setField (mPage .modid) Reg.MODID_QUARTERS 0 4 (2 ^ q)).setPhase 10
    let s := s.raise b 2
    if info % 16 = 3 then (s.setBit (mPage .sec) Reg.SEC_SEC_STS 1 true).raise (mPage .sec) 8 else s

/-- START_RETRY (R437, R438): 1 s after a failed start the module starts again or parks; a trip is first released. `up0` and
`up1` say whether Q0 and Q1 come up. -/
def execStartRetry (t : Nat) (up0 up1 : Bool) (s : State) : Host.Outcome State Fault Refusal :=
  let s := s.advance t
  match s.boot.next with
  | none => done s
  | some n =>
    if s.now < n.at_ ∨ s.power.state = 5 ∨ !s.interlock then done s
    else
      done (match n.kind with
      | .warm => s.beginStart true
      | .cold => s.beginStart false
      | .park => s.park up0 up1)

/-- TRIP (R410, R415, R422, R435): MAIN and MEMD turn off, TRIP_INFO records the cause, and D-tier contents are lost. A trip
during a start, or during warm entry, fails it. Of two causes of one CCLK the lower code is recorded; lost coolant flow
trips in ON, RAMP and WARM only. -/
def execTrip (t cause q unit : Nat) (s : State) : Host.Outcome State Fault Refusal :=
  let s := s.advance t
  if s.power.state = 5 ∧ s.causeWins cause ∧ cause ≠ 0 then done (s.tripInfo cause q unit)
  else if s.power.state = 0 ∨ s.power.state = 5 ∨ cause = 0 ∨ 7 < cause ∨ (cause = 3 ∧ s.power.state = 4) then done s
  else
    let starting := s.starting && s.boot.next.isNone && s.power.state != 4
    let s := ((s.tripInfo cause q unit).setPower 5).alert
    let s : State := { s with stackUnits := s.stackUnits.map (fun e => (e.1, ({ e.2 with sref := false, retainOk := false } : Stack))) }
    done (if starting then s.failStart 8 q unit else s.mainOff)

/-! ## Warm entry, and the commands of BOOT_CMD (R414, R429, R432, R438) -/

/-- Every access that a stack has accepted is performed, the others are dropped, and D stacks enter self-refresh (R227). -/
def State.restStacks (s : State) : State :=
  let s := s.stackUnits.foldl (fun (s : State) e => (e.2.reqs.filter (fun r => !r.done_ && r.sent.isSome)).foldl State.performReq s) s
  let s : State := { s with stackUnits := s.stackUnits.map (fun e => (e.1, ({ e.2 with reqs := [], waiting := [] } : Stack))) }
  (List.range 8).foldl (fun (s : State) k =>
    let x := s.stack (k / 2) (6 + k % 2)
    s.setStack (k / 2) (6 + k % 2) { x with sref := true, retainOk := true }) s

/-- WARM_ENTRY (R432): held accesses are discarded, stacks rest, the journal is flushed, and MAIN turns off and ramps again
at once. -/
def State.warmEntry (s : State) : State :=
  let s := (s.restStacks.setPhase 11).flushJournals
  s.beginStart true

/-- A COLD command (R429, R438): the journal is flushed, MAIN and MEMD turn off, and RAMP follows 1 s later. -/
def State.bootCold (s : State) : State :=
  let s := if s.phase = 10 then s.setField (mPage .boot) Reg.BOOT_BOOT_STS 7 2 0 else s
  let s := (s.flushJournals.mainOff).setPower 0
  { s with boot := { s.boot with next := some { at_ := s.now + 3600000000, kind := .cold }, unpick := none, warmAfter := false } }

/-! ## Unpick (R441 to R443) -/

/-- The unpick map (R441): offset and length of each entry. -/
def State.unpickMap (s : State) : List (Nat × Nat) :=
  let b := mPage .boot
  let a := s.num64 b Reg.BOOT_UMAP_LO Reg.BOOT_UMAP_HI
  (List.range (s.field b Reg.BOOT_UMAP_COUNT 0 16)).map (fun i => (s.readNat (a + 16 * i) 8, s.readNat (a + 16 * i + 8) 8))

/-- May unpick begin (R441)? -/
def State.unpickOk (s : State) : Bool :=
  s.phase == 9 && s.boot.unpick.isNone && s.unpickMap.all (fun e =>
    e.1 % 64 == 0 && e.2 % 64 == 0 && decide (0x10000000000 ≤ e.1 ∧ e.1 + e.2 ≤ 0x20000000000) && !touchesReserved e.1 e.2)

/-- Ask the lead for an adopter, or, for a spare, for the cut (R442); a lead first waits for its standby to take over. -/
def State.askUnpick (s : State) : State :=
  match s.boot.unpick with
  | none => s
  | some u =>
    if u.asked ∨ s.isLead then s
    else
      let set (u : Unpick) : State := { s with boot := { s.boot with unpick := some u } }
      if s.isSpare then (set { u with asked := true, drained := true, done_ := true }).treeUp s.treeHdr (.reportUp 6 s.selfId 0)
      else (set { u with asked := true }).treeUp s.treeHdr (.reportUp 5 s.selfId 0)

/-- Begin unpick (R441, R442); `warm` marks the first step of a warm start (R432). -/
def State.startUnpick (s : State) (warm : Bool) : State :=
  let s : State := { s with boot := { s.boot with unpick := some { regions := s.unpickMap }, warmAfter := warm } }
  ((s.setPhase 12).setNum (mPage .boot) Reg.BOOT_ADOPTER 0).askUnpick

/-- The queue number under which unpick copies its regions. -/
def unpickQueue : Nat := 254

/-- The 4 KiB segments of a region: address and bytes. -/
def regionParts (r : Nat × Nat) : List (Nat × Nat) :=
  (List.range ((r.2 + 4095) / 4096)).map (fun i => (r.1 + 4096 * i, min 4096 (r.2 - 4096 * i)))

/-- Copy the mapped regions to the adopter, at the same local offsets (R442). -/
def State.copyRegions (s : State) (u : Unpick) (adopter : Nat) : State :=
  (u.regions.flatMap regionParts).zipIdx.foldl (fun (s : State) e =>
    let a := e.1.1
    let bs := s.readMarked a e.1.2
    let q := (a - 0x10000000000) / dSize
    (s.noteRead a e.1.2).newSeg q unpickQueue 0 e.2 .write 0 (.chip (adopter * 2 ^ 45 + a)) (fun id => .write id false bs)) s

/-- UNPICK_DRAIN_DONE (R442, R443): with the step CLOSED or SKIPPING and an adopter named, the copy begins; `flips` are upsets
found at its reads. A module that was the lead asks for its adopter once it leads no more. -/
def execUnpickDrainDone (t : Nat) (flips : List (Nat × Nat)) (s : State) : Host.Outcome State Fault Refusal :=
  let s := ((s.advance t).askUnpick).upset flips
  let b := mPage .boot
  match s.boot.unpick with
  | none => done s
  | some u =>
    let st := s.stepState
    if u.drained ∨ !s.bit b Reg.BOOT_ADOPTER 31 ∨ !(st == 0 || st == 4 || st == 7) then settled s
    else
      let s : State := { s with boot := { s.boot with unpick := some { u with drained := true } } }
      settled (s.copyRegions u (s.field b Reg.BOOT_ADOPTER 0 18))

/-- Has EX0 of every quarter shipped every closed attempt (R183, R442)? -/
def State.allShipped (s : State) : Bool :=
  (List.range 4).all (fun q => match s.shipClosed q with
    | some c => !c.active
    | none => true)

/-- UNPICK_TRANSFER_DONE (R442, R443): with every region copied and every closed attempt shipped, the lead is asked to cut
this module. A copy that fails is made again. -/
def execUnpickTransferDone (t : Nat) (s : State) : Host.Outcome State Fault Refusal :=
  let s := s.advance t
  match s.boot.unpick with
  | none => done s
  | some u =>
    let mine := s.fabric.segs.filter (fun g => g.n == unpickQueue)
    let drop : State := { s with fabric := { s.fabric with segs := s.fabric.segs.filter (fun g => g.n != unpickQueue) } }
    if !u.drained ∨ u.done_ ∨ mine.any (fun g => (g.answered s.now).isNone) then done s
    else if mine.any (fun g => g.answer.any (fun a => a.1 != 0)) then
      done { drop with boot := { s.boot with unpick := some { u with drained := false } } }
    else if !s.allShipped then done s
    else
      let s : State := { drop with boot := { s.boot with unpick := some { u with done_ := true } } }
      done (s.treeUp s.treeHdr (.reportUp 6 s.selfId 0))

/-- Unpick ends with the cut (R432, R442): UNPICK_DONE, then the shutdown, or the warm start that asked for it. -/
def State.endUnpick (s : State) : State :=
  let warm := s.boot.warmAfter
  let s := ({ s with boot := { s.boot with unpick := none, warmAfter := false } } : State).raise (mPage .boot) 5
  if warm then s.warmEntry else s.shutdown 9

/-- CUT (R246, R262, R442): a lost module stops transmitting but on lane 6; an unpicked one is released. -/
def execCutSelf (t : Nat) (h : RxHdr) (epoch : Nat) (recs : List MendRec) (s : State) : Host.Outcome State Fault Refusal :=
  let s := (s.advance t).mendFrame 1 h epoch recs (State.actRecord h epoch)
  let cut := s.field (mPage .pod) Reg.POD_ROLE 2 2 == 2
  done (if cut && s.boot.unpick.any (fun u => u.done_) then s.endUnpick else s)

/-! ## Reports to the lead, and its answers (R244, R261, R290, R442, R450, R462, R465) -/

/-- The lead acts on an adopter request (R442): a standby is replaced first. -/
def State.adoptRequest (s : State) (id : Nat) : State :=
  let s := if s.standbyId = some id then
      let before := s.everyModule.map (fun m => (m, s.configFor m false))
      (s.chooseStandby id).reconfigure before (fun _ => false)
    else s
  let a := s.adopterFor id
  (s.setPod { s.fabric.pod with adopting := a.map (fun x => (id, x)) }).leadAnswer id 5 id a

/-- The lead acts on a report by its KIND. -/
def State.actReport (s : State) (from_ kind subject value : Nat) : State :=
  match kind with
  | 1 => (s.setPod { s.fabric.pod with unreachable := (s.fabric.pod.unreachable ++ [(subject, from_)]).eraseDups }).mendCheck
  | 2 => s.siteReport value from_
  | 3 => s.minorityMended from_ value
  | 4 => s.leadAnswer from_ 4 subject (s.holderFor from_)
  | 5 => s.adoptRequest subject
  | 6 => s.declareLost subject none (s.fabric.pod.adopting.any (fun a => a.1 == subject) || s.cutOf (subject % 2 ^ 15) == 1)
  | _ => s

/-- REPORT_UP (R244): the report climbs to the lead, which acts on it. -/
def execReportUp (t : Nat) (h : RxHdr) (th : TreeHdr) (kind subject value : Nat) (s : State) : Host.Outcome State Fault Refusal :=
  let r := (s.advance t).receiveTree h th (.reportUp kind subject value)
  if !r.2 then done r.1
  else if r.1.isLead then done (r.1.actReport th.origin kind subject value)
  else done (r.1.treeUp th (.reportUp kind subject value))

/-- LEAD_ANSWER (R244, R442, R455, R462): the holder named, or the adopter; a refusal ends an unpick. -/
def execLeadAnswer (t : Nat) (h : RxHdr) (th : TreeHdr) (kind : Nat) (refused : Bool) (subject answer : Nat) (s : State) :
    Host.Outcome State Fault Refusal :=
  let r := (s.advance t).receiveTree h th (.leadAnswer kind refused subject answer)
  let s := r.1
  let b := mPage .boot
  if !r.2 then done s
  else if kind = 4 then done (if refused then s else s.nameHolder answer)
  else if kind ≠ 5 then done s
  else
    match s.boot.unpick with
    | none => done s
    | some u =>
      if u.done_ then done s
      else if refused then
        done ((({ s with boot := { s.boot with unpick := none, warmAfter := false } } : State).setPhase 9).raise b 6)
      else
        let s : State := { s with boot := { s.boot with unpick := some { u with drained := false } }
                                  fabric := { s.fabric with segs := s.fabric.segs.filter (fun g => g.n != unpickQueue) } }
        done (s.setNum b Reg.BOOT_ADOPTER (answer % 2 ^ 18 + 2 ^ 31))

end Sys2Proof.Machine
end

