-- ==== Sys2Proof/Machine/Cores.lean ====
section
/-! DEFINITION. Watchdogs of arrays, engines and harts, and the service cores (R458, R459, R466, R472). -/

namespace Sys2Proof.Machine

/-- Are the watchdogs of arrays and engines on (R458)? -/
def State.wdogOn (s : State) : Bool := s.bit (mPage .fault) Reg.FAULT_FLT_CTL 0

/-- TILE_WATCHDOG (R458, R459): the oldest tile of an array has not completed within TILE_WDOG counts: its triad fails. -/
def execTileWatchdog (t q p a : Nat) (s : State) : Host.Outcome State Fault Refusal :=
  let s := s.advance t
  match (s.array q p a).tiles with
  | [] => done s
  | x :: _ =>
    if !s.wdogOn ∨ 4 ≤ q ∨ 32 ≤ p ∨ 3 ≤ a ∨ s.now < x.at_ + 4 * s.num (mPage .fault) Reg.FAULT_TILE_WDOG then done s
    else done (s.failTriad q p)

/-- Does a queue's running descriptor wait for something that a counter accounts for (R458): a lease, a remote segment, a
collective's streams, an image? -/
def State.accounted (s : State) (q n : Nat) (w : WinEntry) : Bool :=
  s.writesOpen q n w.seq || !w.open_.isEmpty || w.waitUntil != 0 || n == 153 ||
  s.fabric.segs.any (fun g => g.q == q && g.n == n && g.answer.isNone)

/-- ENGINE_WATCHDOG (R450, R458): a started descriptor has not signalled within ENG_WDOG counts: the engine fails, and the
module reports. `paused` is the ACLK for which the counters of R332 account; a wait under way stops the watch. -/
def execEngineWatchdog (t q n paused : Nat) (s : State) : Host.Outcome State Fault Refusal :=
  let s := s.advance t
  let x := s.queue q n
  match x.window.find? (fun w => w.status == .running) with
  | none => done s
  | some w =>
    if !s.wdogOn ∨ (engineOf n).isNone ∨ x.halt.isSome ∨ s.accounted q n w ∨
        s.now < w.startedAt + paused + 4 * s.num (mPage .fault) Reg.FAULT_ENG_WDOG then done s
    else done ((s.fault 0x02 q n s.selfId 0 2).reportLost 3)

/-! ## Service cores (R466) -/

/-- SERVICE_HEARTBEAT_TIMER (R466): every 100 µs the core of Q0 sends a heartbeat. -/
def execServiceHeartbeatTimer (t : Nat) (s : State) : Host.Outcome State Fault Refusal :=
  let s := s.advance t
  if s.service ≠ 0 ∨ s.island 0 108 > 1 ∨ s.now < s.cores.beatAt + 360000 then done s
  else done { s with cores := { s.cores with beatAt := s.now } }

/-! ## Control processors (R472) -/

/-- Hart i of quarter q. -/
def State.hart (s : State) (q i : Nat) : Hart := mapGet (fun _ => {}) s.cores.harts (4 * q + i)
/-- Replace a hart. -/
def State.setHart (s : State) (q i : Nat) (x : Hart) : State :=
  { s with cores := { s.cores with harts := mapSet (fun _ => {}) s.cores.harts (4 * q + i) x } }

/-- Does an access of a hart wait at an island or for journal space (R325, R378)? -/
def State.hartHeld (s : State) (q i : Nat) : Bool :=
  s.clk.held.any (fun a => a.origin == .cp q i) || s.journals.any (fun e => e.2.held.any (fun a => a.origin == .cp q i)) ||
  s.leases.writes.any (fun w => w.reply == some (.cp q i))

/-- Reset a hart (R472): its firmware restarts, and its watchdog with it. -/
def State.resetHart (s : State) (q i : Nat) : State :=
  (s.setBit (qPage .cp q i) Reg.CP_CP_STS 2 false).setHart q i { s.hart q i with kicked := s.now }

/-- CP_WATCHDOG (R450, R472): a hart that has not written CSR 0x7C0 for CP_WDOG counts is reset; a hart held at an island is
not. A second expiry within one attempt makes the module report, with a cause
that R246 does not number: a free value. -/
def execCpWatchdog (t q i : Nat) (s : State) : Host.Outcome State Fault Refusal :=
  let s := s.advance t
  let page := qPage .cp q i
  let x := s.hart q i
  let limit := s.num page Reg.CP_CP_WDOG
  if 4 ≤ q ∨ 4 ≤ i ∨ limit = 0 ∨ !s.bit page Reg.CP_CP_CTL 0 ∨ s.hartHeld q i ∨ s.island q 109 > 1 ∨
      s.now < x.kicked + 4 * limit then done s
  else
    let again := x.expired == some s.attempt
    let s := ((s.setHart q i { x with expired := some s.attempt }).setBit page Reg.CP_CP_STS 3 true).raise page 1
    let s := s.resetHart q i
    let r := s.freshFree
    done (if again then r.2.reportLost r.1 else s)

/-- CP_WATCHDOG_KICK (R472): a hart writes CSR 0x7C0; this is no register write. -/
def execCpWatchdogKick (t q i : Nat) (s : State) : Host.Outcome State Fault Refusal :=
  let s := s.advance t
  if 4 ≤ q ∨ 4 ≤ i then done s else done (s.setHart q i { s.hart q i with kicked := s.now })

end Sys2Proof.Machine
end

