-- ==== Sys2Proof/Machine/RegRead.lean ====
section
/-! DEFINITION. Reading registers: what a read delivers, what it captures, and what it clears (R7, R111, R319, R328, R352 to R365). -/

namespace Sys2Proof.Machine

/-! ## Registers of a page -/

/-- The register at an offset of a page; QRING1 holds queues only, and a queue number that is not assigned has none (R8,
R112). -/
def Page.specAt (p : Page) (off : Nat) : Option RegSpec :=
  match p.kind with
  | none => none
  | some .qring =>
    let n := 128 * p.inst + (off - 0x100) / 16
    if 0x100 ≤ off ∧ off < 0x900 ∧ !queueExists n then none
    else if 0x900 ≤ off ∧ p.inst ≠ 0 then none
    else PageKind.qring.regAt off
  | some k => k.regAt off

/-- The EVT_STS bits that a page defines (R353); a bit that an engine cannot raise is none of them (R117). -/
def PageKind.evtMask (k : PageKind) : Nat :=
  match k with
  | .ve | .ce | .mg | .wg => 0x0F
  | .so | .dg => 0x09
  | .st | .ex | .cs => 0x19
  | k => 2 ^ k.evtBits - 1

/-! ## The queues of a page (R101, R111) -/

/-- The queue number of an engine. -/
def engineQueue (k : PageKind) (i : Nat) : Nat :=
  match k with
  | .ve => 96 + i | .ce => 112 + i | .mg => 120 + i | .so => 128 + i | .dg => 130 + i | .wg => 132 + i
  | .st => 136 + i | .ex => 152 | .cs => 153 | _ => 160 + i

/-- The queues of a page: three of a mapped triad, one of an engine, those of a QRING page. -/
def State.pageQueues (s : State) (p : Page) : List Nat :=
  match p.kind with
  | some .array =>
    match (List.range 30).find? (fun n => s.physOf p.win n == p.inst) with
    | some n => [3 * n, 3 * n + 1, 3 * n + 2]
    | none => []
  | some .qring => ((List.range 128).map (fun i => 128 * p.inst + i)).filter queueExists
  | some k => if k.isEngine then [engineQueue k p.inst] else []
  | none => []

/-- The queue that CREDIT_SEL selects in a page (R111). -/
def State.selected (s : State) (p : Page) (sel : Nat) : Option Nat :=
  if p.kind = some .qring then (s.pageQueues p).find? (fun n => n == sel) else (s.pageQueues p)[sel]?

/-- Has a page's block no work that quiescing waits for: no tile accepted, no descriptor started and not signalled, no
segment open, no frame unacknowledged (R71, R111, R354)? -/
def State.pageIdle (s : State) (p : Page) : Bool :=
  match p.kind with
  | some .array => (List.range 3).all (fun a => (s.array p.win p.inst a).tiles.isEmpty)
  | some .fport => (s.port p.win p.inst).replay.isEmpty
  | some k =>
    if k.isEngine then
      let n := engineQueue k p.inst
      let x := s.queue p.win n
      x.window.all (fun w => w.status == .waiting || (w.status == .failed && x.halt == some .refused)) &&
        s.opsOf p.win n == x.window.length + x.descFetches
    else true
  | none => true

/-- Has a queue's engine no work (R68, R117, R319): nothing in its window but a descriptor that it refused? -/
def Queue.gated (x : Queue) : Bool := x.window.all (fun w => w.status == .failed && x.halt == some .refused)

/-- Does a page report QUIESCED (R111, R355)? -/
def State.quiesced (s : State) (p : Page) : Bool :=
  (p.kind.map PageKind.quiesces).getD false && s.bit p Reg.HDR_PAGE_CTL 1 && s.pageIdle p

/-- The layout of CREDIT_VIEW for a queue (R111). A fetch that is outstanding counts neither in RING_DEPTH nor in WINDOW (log
entry 140). -/
def State.queueView (s : State) (q n : Nat) : Nat :=
  let x := s.queue q n
  let page := s.queuePage q n
  let w := x.window.length
  (x.occupancy - x.descFetches) + 2 ^ 13 * w + 2 ^ 19 * (windowSize n - w) +
  flag (x.halt.isNone && s.waitUnmet q n) 25 +
  flag (s.fetchWaits q n) 26 + flag x.halt.isSome 27 + flag (s.quiesced page) 28

/-- CREDIT_VIEW of a page (R111, R266): of a port, the credits held to send and those not yet returned. -/
def State.creditView (s : State) (p : Page) : Nat :=
  let sel := s.field p Reg.HDR_CREDIT_SEL 0 9
  if p.kind = some .fport then
    let x := s.port p.win p.inst
    if 24 ≤ sel then 0 else mapGet (fun _ => 0) x.credits sel + 2 ^ 14 * mapGet (fun _ => 0) x.held sel
  else
    match s.selected p sel with
    | some n => s.queueView p.win n
    | none => 0

/-! ## Islands as they show (R318, R319, R329) -/

/-- The page of a stoppable island. -/
def islandPage (q i : Nat) : Option Page :=
  if i < 32 then some (qPage .array q i)
  else if i < 33 then none
  else if i < 89 then
    ([(PageKind.ve, 33, 49), (.ce, 49, 57), (.mg, 57, 65), (.so, 65, 67), (.dg, 67, 69), (.wg, 69, 71), (.ex, 71, 72),
      (.cs, 72, 73), (.st, 73, 89)].find? (fun e => decide (e.2.1 ≤ i ∧ i < e.2.2))).map (fun e => qPage e.1 q (i - e.2.1))
  else if i < 95 then some (qPage .fport q (i - 89))
  else if 104 ≤ i ∧ i < 108 then some (qPage .ue q (i - 104))
  else none

/-- The state code that an island shows: a stoppable island that runs shows GATED without work. -/
def State.islandShown (s : State) (q i : Nat) : Nat :=
  let c := s.island q i
  if 1 < c then c
  else
    match islandPage q i with
    | none => c
    | some p =>
      if s.pageIdle p && (p.kind == some .fport || (s.pageQueues p).all (fun n => (s.queue q n).gated)) &&
        (p.kind != some .fport || (s.port q p.inst).waiting.isEmpty) then 1 else 0

/-- CLK_STATE (R328): a completed read finds the island ungated. -/
def clkState (p : Page) : Nat :=
  match p.kind with
  | none => 0
  | some .clkdir => 5 * 2 ^ 12
  | some k =>
    if p.win < 4 then
      let i := quarterIsland k p.inst
      8 * i + 1024 * p.win + 4096 * islandClock i
    else 8 * 108 + 4096 * 3

/-! ## The header -/

/-- PAGE_CAPS (R353). -/
def Page.caps (p : Page) (k : PageKind) : Nat :=
  flag k.queues 0 + flag k.quiesces 1 + flag k.enables 2 + flag k.stoppable 3 + flag (p.win == 4) 4 + 256 * k.evtBits

/-- PAGE_STS (R355). -/
def State.pageSts (s : State) (p : Page) (k : PageKind) : Nat :=
  flag (s.quiesced p) 0 + flag (k.enables && !s.bit p Reg.HDR_PAGE_CTL 0 && s.pageIdle p) 1 +
  flag (s.reg p Reg.HDR_EVT_STS &&& s.reg p Reg.HDR_EVT_EN != 0) 2 +
  flag ((s.pageQueues p).any (fun n => (s.queue p.win n).halt.isSome)) 3

/-- The header registers that are not stored. -/
def State.headerView (s : State) (p : Page) (k : PageKind) (off : Nat) : Option Nat :=
  match off with
  | 0x000 => some (65536 * k.blockType + 256 * p.idInst + 1)
  | 0x004 => some (p.caps k)
  | 0x00C => some (s.pageSts p k)
  | 0x020 => some (clkState p + (if p.win < 4 ∨ k = .clkdir then 0 else 1024 * s.service))
  | 0x02C => some (s.creditView p)
  | _ => none

/-! ## Block registers that are not stored -/

/-- ARRAY (R68). -/
def State.arrayView (s : State) (p : Page) (off : Nat) : Option Nat :=
  let q := p.win
  let slot := (List.range 30).find? (fun n => s.physOf q n == p.inst)
  if off = Reg.ARRAY_TRIAD_STS then
    some (slot.getD 0 + flag slot.isSome 5 + flag (s.failedTriad q p.inst) 6)
  else if 0x100 ≤ off ∧ off < 0x1C0 ∧ (off - 0x100) % 0x40 = 4 then
    let a := (off - 0x100) / 0x40
    let busy := !(s.array q p.inst a).tiles.isEmpty
    let halted := slot.any (fun n => (s.queue q (3 * n + a)).halt.isSome)
    some (flag busy 0 + flag halted 1 + flag (!busy && slot.all (fun n => (s.queue q (3 * n + a)).gated)) 2)
  else none

/-- TSLOT (R43). -/
def State.tslotView (s : State) (p : Page) (off : Nat) : Option Nat :=
  let q := p.win
  if off = Reg.TSLOT_SPARE_MAP then some ((List.range 32).foldl (fun m i => m + flag (!s.mapped q i) i) 0)
  else if off = Reg.TSLOT_MAP_STS then
    some (flag ((List.range 30).any (fun n => s.nextOf q n != s.physOf q n)) 0 + flag (s.short q) 1)
  else none

/-- QRING (R112). -/
def State.qringView (s : State) (p : Page) (off : Nat) : Option Nat :=
  if off = Reg.QRING_TRACK_FREE then some (s.trackFree p.win)
  else if 0x100 ≤ off ∧ off < 0x900 then
    let n := 128 * p.inst + (off - 0x100) / 16
    let x := s.queue p.win n
    match off % 16 with
    | 0 => some (x.base + 2 ^ 22 * x.log2)
    | 4 => some x.tail
    | 8 => some x.head
    | _ => some (s.queueView p.win n)
  else none

/-- Engines (R117): BUSY from the start of a descriptor to the end of its path time. -/
def State.engineView (s : State) (p : Page) (k : PageKind) (off : Nat) : Option Nat :=
  if off = Reg.ENG_ENG_STS then
    let x := s.queue p.win (engineQueue k p.inst)
    some (flag (x.busy || decide (s.now < x.pathEnd)) 0 + flag x.halt.isSome 1 + flag (x.halt == some .runtime) 2 + flag x.gated 3)
  else none

/-- The number of pin groups whose spare is in use, of which a test holds (R226, R232). -/
def Stack.lanes (x : Stack) (t : Lane → Bool) : Nat := (x.pins.filter (fun e => e.2.any t)).length

/-- NMEM (R232). -/
def State.nmemView (s : State) (p : Page) (off : Nat) : Option Nat :=
  let x := s.stack p.win p.inst
  let d := decide (6 ≤ p.inst)
  if off = Reg.NMEM_MEM_STS then
    some (flag d 0 + flag x.trained 1 + flag x.sref 2 + flag (d && x.retainOk) 3 + 16 * (if d then p.inst - 6 else p.inst))
  else if off = Reg.NMEM_REPAIR_STS then
    some (min 4095 (x.repairs.filter (fun r => !r.hard)).length + 2 ^ 12 * x.minFree + flag x.copying 18 + flag x.hardPending 19)
  else if off = Reg.NMEM_LANE_STS then some (x.lanes (fun _ => true) + 64 * x.lanes (·.degraded))
  else none

/-- FPORT (R247, R266): a port that is down shows SUBST while a sibling carries its traffic. -/
def State.fportView (s : State) (p : Page) (off : Nat) : Option Nat :=
  if off = Reg.FPORT_PORT_STS then
    let up := s.portUp p.win p.inst
    let sub := !up && (List.range 4).any (fun r => s.portUsable r p.inst)
    some (putBits (s.num p off) 3 1 (if sub then 1 else 0))
  else none

/-- Control processors (R472). -/
def State.cpView (s : State) (p : Page) (off : Nat) : Option Nat :=
  if off = Reg.CP_CP_STS then
    some (s.num p off / 4 * 4 + flag (s.bit p Reg.CP_CP_CTL 0) 0 + flag (s.hartHeld p.win p.inst) 1)
  else none

/-- JRNL (R384). -/
def State.jrnlView (s : State) (p : Page) (off : Nat) : Option Nat :=
  let j := s.journal p.win
  let seq (v : Option Nat) (hi : Bool) : Option Nat := some (if hi then v.getD 0 / 2 ^ 32 else v.getD 0)
  if off = Reg.JRNL_JSTS then
    some (min 65536 j.ring.length + flag (!j.held.isEmpty) 17 + flag (decide (65536 ≤ j.ring.length)) 18)
  else if off = Reg.JRNL_SEQ_LO then seq (some j.seq) false
  else if off = Reg.JRNL_SEQ_HI then seq (some j.seq) true
  else if off = Reg.JRNL_FLASH_SEQ_LO then seq j.flashSeq false
  else if off = Reg.JRNL_FLASH_SEQ_HI then seq j.flashSeq true
  else if off = Reg.JRNL_HOST_SEQ_LO then seq j.hostSeq false
  else if off = Reg.JRNL_HOST_SEQ_HI then seq j.hostSeq true
  else if off = Reg.JRNL_HELD_NOW then some (min 127 j.held.length)
  else none

/-- BGND (R402). -/
def State.bgndView (s : State) (p : Page) (off : Nat) : Option Nat :=
  let q := p.win
  if off = Reg.BGND_PRESS_STS then
    let none_ : CalRec := { temp := 0, valid := false, at_ := 0 }
    let rs := (List.range 8).map (fun i => mapGet (fun _ => none_) s.boot.cal (8 * q + i))
    let temps := (rs.filter (·.valid)).map (·.temp)
    let low : Int := match temps with
      | [] => 0
      | a :: l => l.foldl min a
    some (flag (rs.all (·.valid)) 0 + 16 * (BitVec.ofInt 12 low).toNat)
  else if off = Reg.BGND_MARGIN_VIEW then
    some (min 255 (mapGet (fun _ => 0) s.bgnd.margins (32 * q + s.field p Reg.BGND_MARGIN_SEL 0 5)))
  else if off = Reg.BGND_AGE_VIEW then some (s.loss q (s.field p Reg.BGND_AGE_SEL 0 5))
  else none

/-- TALLY (R403). -/
def State.tallyView (s : State) (p : Page) (off : Nat) : Option Nat :=
  if off = Reg.TALLY_TEMP_VIEW then
    let k := 64 * p.win + s.field p Reg.TALLY_TEMP_SEL 0 6
    some ((BitVec.ofInt 16 (mapGet (fun _ => 0) s.bgnd.temps k)).toNat +
      65536 * (BitVec.ofInt 16 (mapGet (fun _ => 0) s.bgnd.offsets k)).toNat)
  else none

/-- CLKDIR (R329). -/
def State.clkdirView (s : State) (off : Nat) : Option Nat :=
  if off = Reg.CLKDIR_HELD_NOW then
    some ((s.clk.held.filterMap (fun a => a.page.kind.map (fun k =>
      if a.page.win < 4 then 128 * a.page.win + quarterIsland k a.page.inst else 128 * s.service + 108))).eraseDups.length)
  else if 0x200 ≤ off ∧ off < 0x400 then
    let q := (off - 0x200) / 0x80
    let w := (off - 0x200) % 0x80 / 4
    some ((List.range 4).foldl (fun n k => n + 256 ^ k * s.islandShown q (4 * w + k)) 0)
  else none

/-- STEP (R161, R166). -/
def State.stepView (s : State) (off : Nat) : Option Nat :=
  let m := mPage .step
  if off = Reg.STEP_STILL_VIEW then
    let c := s.readNat (reservedBase + 0x400000 + 2 * s.field m Reg.STEP_STILL_SEL 0 12) 2
    let th := s.field m Reg.STEP_STILL_THRESH 0 16
    some (c + flag (th != 0 && decide (th ≤ c)) 16)
  else none

/-- LEASE (R159, R165). -/
def State.leaseView (s : State) (off : Nat) : Option Nat :=
  if off % 16 = 0xC then
    let l := s.lease ((off - 0x0FC) / 16)
    let holds := s.holds ((off - 0x0FC) / 16)
    some (flag l.granted 0 + flag l.mixed 1 + 65536 * (if holds = 0 ∧ l.granted then l.claimStep else min 65535 holds))
  else none

/-- POD (R253, R267). -/
def State.podView (s : State) (off : Nat) : Option Nat :=
  if off = Reg.POD_PT_LO then some (s.podCount % 2 ^ 32)
  else if off = Reg.POD_PT_HI then some (s.podCount / 2 ^ 32 % 2 ^ 32)
  else if off = Reg.POD_CUT_VIEW then
    let chip := s.field (mPage .pod) Reg.POD_CUT_SEL 0 15
    let c := s.cutOf chip
    some (flag (c == 2) 0 + flag (c == 1) 1 + flag (s.aliasOf (s.podId chip)).isSome 2 + flag (c == 3) 3)
  else none

/-- HOST (R312). -/
def State.hostView (s : State) (off : Nat) : Option Nat :=
  let h := mPage .host
  if off = Reg.HOST_HOST_STS then some (s.field h off 0 5 + 32 * s.host.qps.length)
  else if 0x200 ≤ off ∧ off < 0x300 then
    let r := mapGet (fun _ => ({} : EvRing)) s.host.rings ((off - 0x200) / 0x20)
    match off % 0x20 with
    | 0x14 => some (r.prod % 2 ^ 32)
    | 0x18 => some (r.prod / 2 ^ 32)
    | _ => none
  else none

/-- EVQ (R385). -/
def State.evqView (s : State) (off : Nat) : Option Nat :=
  if off = Reg.EVQ_ALARM_PEND then some (s.events.alarms.filter (fun a => a.bit ≠ 255)).length
  else if off = Reg.EVQ_TEL_STAGE then some s.telStaged
  else if off = Reg.EVQ_TRACE_STAGE then some (32 * s.events.trace.length)
  else none

/-- FAULT (R470, R471). -/
def State.faultView (s : State) (off : Nat) : Option Nat :=
  if 0x148 ≤ off ∧ off < 0x168 then
    match s.frecs[s.field (mPage .fault) Reg.FAULT_FREC_SEL 0 4]? with
    | none => some 0
    | some r =>
      match (off - 0x148) / 4 with
      | 0 => some (r.time % 2 ^ 32)
      | 1 => some (r.time / 2 ^ 32)
      | 2 => some (r.attempt % 2 ^ 32)
      | 3 => some (r.attempt / 2 ^ 32)
      | 4 => some (r.kind % 256 + 256 * (r.quarter % 256) + 65536 * (r.unit % 65536))
      | 5 => some (r.subject % 2 ^ 18)
      | 6 => some r.detail
      | _ => some r.seq
  else none

/-- SEC (R489). -/
def State.secView (s : State) (off : Nat) : Option Nat :=
  let p := mPage .sec
  if off = Reg.SEC_SEC_STS then
    some (flag (s.sec.identOk && s.sec.prod) 0 + flag (s.bit p off 1) 1 + 4 * (s.sec.sessions.filter (·.open_)).length +
      32 * (s.sec.revoked % 16) + flag s.sec.prod 9)
  else if 0x104 ≤ off ∧ off < 0x118 then
    let x := s.fw ((off - 0x104) / 4)
    some (x.active % 2 + flag x.pending 1 + flag x.fallback 2 + 8 * ((x.runs.map (·.svn)).getD 0 % 256) +
      2 ^ 11 * (((x.bank (1 - x.running)).map (·.svn)).getD 0 % 256) + 2 ^ 19 * (x.floor % 256))
  else if 0x118 ≤ off ∧ off < 0x12C then some (((s.fw ((off - 0x118) / 4)).runs.map (·.version)).getD 0)
  else if 0x130 ≤ off ∧ off < 0x160 then
    some ((s.mr (s.field p Reg.SEC_MR_SEL 0 3)).toNat / 2 ^ (32 * ((off - 0x130) / 4)) % 2 ^ 32)
  else none

/-- A block register that is not stored. -/
def State.blockView (s : State) (p : Page) (k : PageKind) (off : Nat) : Option Nat :=
  match k with
  | .array => s.arrayView p off
  | .tslot => s.tslotView p off
  | .qring => s.qringView p off
  | .signal => some (s.counter p.win (256 * p.inst + (off - 0x100) / 4))
  | .fport => s.fportView p off
  | .nmem => s.nmemView p off
  | .cp => s.cpView p off
  | .jrnl => s.jrnlView p off
  | .bgnd => s.bgndView p off
  | .tally => s.tallyView p off
  | .clkdir => s.clkdirView off
  | .step => s.stepView off
  | .lease => s.leaseView off
  | .pod => s.podView off
  | .host => s.hostView off
  | .evq => s.evqView off
  | .fault => s.faultView off
  | .sec => s.secView off
  | .modid => if off = Reg.MODID_ROLE_VIEW then some (s.num (mPage .pod) Reg.POD_ROLE) else none
  | .mig => if off = Reg.MIG_MIG_STS then some (s.field p off 0 5 + 32 * s.ownSite) else none
  | .boot => if off = Reg.BOOT_BIST_AGE then some s.bistAge else none
  | .pwr =>
    if off = Reg.PWR_PWR_STS then
      some ((if s.power.state = 4 then 4 else 2) + flag s.power.enable 3 + flag s.power.supply 4 + flag s.power.return_ 5 +
        flag s.interlock 6 + 128 * s.field p off 7 9)
    else none
  | k => if k.isEngine then s.engineView p k off else none

/-- The value of a register (R5, R8, R351, R352): reserved bits, offsets and slots read 0. -/
def State.value (s : State) (p : Page) (off : Nat) : Word :=
  match p.kind, p.specAt off with
  | some k, some r =>
    let v := ((if off < 0x100 then s.headerView p k off else s.blockView p k off).map (BitVec.ofNat 32)).getD (s.reg p off)
    let v := if off = Reg.HDR_EVT_EN then v &&& BitVec.ofNat 32 k.evtMask else v
    v &&& BitVec.ofNat 32 (r.rw ||| r.rc ||| r.ro)
  | _, _ => 0

/-! ## Captures and clears (R7, R365) -/

/-- What a read of the *_LO half at an offset captures: the pages that name a capture. -/
def PageKind.captures (k : PageKind) (off : Nat) : List Nat :=
  let one (b : Bool) (l : List Nat) : List Nat := if b then l else []
  match k with
  | .dg => one (decide (0x200 ≤ off ∧ off < 0x400) && off % 8 == 0) [off + 4]
  | .step =>
    one ((decide (0x180 ≤ off ∧ off < 0x200) && off % 8 == 0) ||
      [Reg.STEP_ATTEMPT_LO, Reg.STEP_COMMITTED_LO, Reg.STEP_BND_EXEMPT_LO, Reg.STEP_HREC_BASE_LO].contains off) [off + 4]
  | .exp => one (decide (Reg.EXP_Qq_NEXT_LO ≤ off ∧ off < Reg.EXP_LAG_TIME) && off % 8 == 0) [off + 4]
  | .nmem =>
    if off = Reg.NMEM_CE_ADDR_LO then [Reg.NMEM_CE_ADDR_HI, Reg.NMEM_CE_INFO]
    else one (off == Reg.NMEM_UE_ADDR_LO) [Reg.NMEM_UE_ADDR_HI, Reg.NMEM_UE_SYND]
  | .pod => one (off == Reg.POD_PT_LO) [Reg.POD_PT_HI]
  | .mig => one (off == Reg.MIG_MAP_PT_LO) [Reg.MIG_MAP_PT_HI, Reg.MIG_MAP_SEC_LO, Reg.MIG_MAP_SEC_HI]
  | .host => one (decide (0x200 ≤ off ∧ off < 0x300) && off % 0x20 == 0x14) [off + 4]
  | .jrnl => one (off == Reg.JRNL_SEQ_LO || off == Reg.JRNL_FLASH_SEQ_LO || off == Reg.JRNL_HOST_SEQ_LO) [off + 4]
  | .tally => one (off == Reg.TALLY_LAST_TIME_LO) [Reg.TALLY_LAST_TIME_HI]
  | .cp => one (off == Reg.CP_TRAP_PC_LO) [Reg.CP_TRAP_PC_HI]
  | .fault => one (off == Reg.FAULT_LTAB_LO) [Reg.FAULT_LTAB_HI]
  | _ => []

/-- Is a register read from what a *_LO read has captured? -/
def PageKind.captured (k : PageKind) (off : Nat) : Bool :=
  [4, 8, 12].any (fun d => decide (d ≤ off) && (k.captures (off - d)).contains off)

/-- Capture the parts of a value; before any capture a read shows the live value (log entry 51). -/
def State.capture (s : State) (p : Page) (parts : List Nat) : State :=
  parts.foldl (fun s o => { s with caps := mapSet (fun _ => none) s.caps (p.reg o) (some (s.value p o)) }) s

/-- The RC bits of a register as they were before this CCLK, and what hardware has added or set in it since (R7). -/
def State.rcParts (s : State) (p : Page) (off : Nat) (r : RegSpec) : Word × Word :=
  let m := BitVec.ofNat 32 r.rc
  match s.change p off with
  | none => (s.reg p off &&& m, 0)
  | some c => (BitVec.ofNat 32 c.before &&& m, (BitVec.ofNat 32 (min 0xFFFFFFFF c.add) ||| BitVec.ofNat 32 c.set) &&& m)

/-- Clear the RC bits of a register that is read. What hardware set or counted in this CCLK stays for the next read (R7), and
what the clear takes away is kept for the free-running total (R399). -/
def State.clearOnRead (s : State) (p : Page) (off : Nat) : State :=
  match p.specAt off with
  | none => s
  | some r =>
    if r.rc = 0 then s
    else
      let parts := s.rcParts p off r
      let taken := parts.1.toNat
      let s := s.setReg p off ((s.reg p off &&& ~~~(BitVec.ofNat 32 r.rc)) ||| parts.2)
      let k := p.reg off
      let s := { s with cycle := s.cycle.map (fun (c : RegChange) => if c.key = k then { c with before := 0 } else c) }
      { s with bgnd := { s.bgnd with cleared := mapSet (fun _ => 0) s.bgnd.cleared k (mapGet (fun _ => 0) s.bgnd.cleared k + taken) } }

/-- A read that is performed: the word it delivers, captures made and RC fields cleared. -/
def State.readReg (s : State) (p : Page) (off : Nat) : State × Word :=
  match p.kind with
  | none => (s, 0)
  | some k =>
    let shown := s.value p off
    let live := match p.specAt off with
      | some r => if r.rc = 0 then shown else (shown &&& ~~~(BitVec.ofNat 32 r.rc)) ||| (s.rcParts p off r).1
      | none => shown
    let v := if k.captured off then (mapGet (fun _ => none) s.caps (p.reg off)).getD live else live
    ((s.capture p (k.captures off)).clearOnRead p off, v)

end Sys2Proof.Machine
end

