-- ==== Sys2Proof/Machine/HostOps.lean ====
section
/-! DEFINITION. Host queue pairs, sessions, ownership and event rings (R299 to R310, R372, R376, R381, R383, R481). -/

namespace Sys2Proof.Machine

/-! ## Queue pairs: numbered 16·port + index -/

/-- The host queue pair of a number, if it is established. -/
def State.hostQp (s : State) (k : Nat) : Option HostQp := (s.host.qps.find? (fun e => e.1 == k)).map Prod.snd

/-- Replace an established queue pair. -/
def State.setHostQp (s : State) (k : Nat) (x : HostQp) : State :=
  { s with host := { s.host with qps := s.host.qps.map (fun e => if e.1 = k then (k, x) else e) } }

/-- The number of an origin's queue pair. -/
def qpKey (port i : Nat) : Nat := 16 * port + i

/-- A session by its number. -/
def State.session (s : State) (id : Nat) : Option Session := s.sec.sessions.find? (fun x => x.id == id)

/-- Is it a session of the owner (R301)? -/
def State.ownerSession (s : State) (x : Session) : Bool := s.owned && x.open_ && x.owner == some s.ownerDig

/-- Is a queue pair an owner's (R301, R303)? -/
def State.ownerQp (s : State) (k : Nat) : Bool :=
  match s.hostQp k with
  | none => false
  | some x =>
    if x.role = 3 then s.sec.sessions.any (fun y => y.qp == k && s.ownerSession y) else s.owned && !x.recovery

/-- Is the module in recovery (R487)? -/
def State.recovering (s : State) : Bool := s.bit (mPage .sec) Reg.SEC_SEC_STS 1

/-! ## Event rings (R310) -/

/-- Event ring n. -/
def State.ring (s : State) (n : Nat) : EvRing := mapGet (fun _ => {}) s.host.rings n
/-- Replace event ring n. -/
def State.setRing (s : State) (n : Nat) (r : EvRing) : State :=
  { s with host := { s.host with rings := mapSet (fun _ => {}) s.host.rings n r } }

/-- The offset of ring n's register. -/
def ringReg (base n : Nat) : Nat := base + 0x20 * n

/-- EVRn_CFG. -/
def State.ringCfg (s : State) (n : Nat) : Nat := s.num (mPage .host) (ringReg Reg.HOST_EVRn_CFG n)
/-- Is ring n enabled? -/
def State.ringOn (s : State) (n : Nat) : Bool := bitAt (s.ringCfg n) 31
/-- Has the queue pair of ring n failed? -/
def State.ringIsDown (s : State) (n : Nat) : Bool := s.bit (mPage .host) (ringReg Reg.HOST_EVRn_STS n) 0

/-- The number of the queue pair that EVRn_QPN names, if it is an established EVENT queue pair of the owner. -/
def State.ringQp (s : State) (n : Nat) : Option Nat :=
  let v := s.num (mPage .host) (ringReg Reg.HOST_EVRn_QPN n)
  if v < 0x100 then none
  else if (s.hostQp (v - 0x100)).any (fun x => x.role == 1) && s.ownerQp (v - 0x100) then some (v - 0x100)
  else none

/-- The queue pair of ring n has failed: QP_DOWN, and EVR_QP_DOWN is raised. -/
def State.ringDown (s : State) (n : Nat) : State :=
  ((s.setBit (mPage .host) (ringReg Reg.HOST_EVRn_STS n) 0 true).setRing n { s.ring n with rereading := false }).raise (mPage .host) 5

/-- The host address of ring n. -/
def State.ringBase (s : State) (n : Nat) : Nat :=
  s.num64 (mPage .host) (ringReg Reg.HOST_EVRn_BASE_LO n) (ringReg Reg.HOST_EVRn_BASE_HI n)
/-- The host rkey of ring n. -/
def State.ringKey (s : State) (n : Nat) : Nat := s.num (mPage .host) (ringReg Reg.HOST_EVRn_RKEY n)

/-- Write PROD of ring n into its control block. -/
def State.writeProd (s : State) (n k prod : Nat) : State :=
  (s.setRing n { s.ring n with prod := prod }).emit (.hostWrite k (s.ringBase n) (s.ringKey n) (leBytes 8 prod))

/-- Read CONS of ring n. -/
def State.readCons (s : State) (n k : Nat) : State :=
  (s.setRing n { s.ring n with rereading := true }).emit (.hostRead k (s.ringBase n + 8) (s.ringKey n) 8)

/-- Write bytes into the record area of ring n at a running count; records may wrap (R184, R310). -/
def State.writeRing (s : State) (n k at_ : Nat) (bs : List Byte) : State :=
  let size := 2 ^ bitsOf (s.ringCfg n) 0 5
  let o := at_ % size
  let first := bs.take (size - o)
  let rest := bs.drop (size - o)
  let a := s.ringBase n + 64
  let s := if first.isEmpty then s else s.emit (.hostWrite k (a + o) (s.ringKey n) first)
  if rest.isEmpty then s else s.emit (.hostWrite k a (s.ringKey n) rest)

/-- Ring n becomes enabled (R310): PROD 0, CONS 0. A journal ring begins after the last SEQ delivered (R376). -/
def State.ringEnable (s : State) (n : Nat) : State :=
  let cfg := s.ringCfg n
  let next := ((s.journal (bitsOf cfg 8 2)).hostSeq).map (· + 1)
  let s := (s.setBit (mPage .host) (ringReg Reg.HOST_EVRn_STS n) 0 false).setRing n { nextSeq := next }
  match s.ringQp n with
  | some k => s.writeProd n k 0
  | none => s.ringDown n

/-- A new queue pair for ring n (R310): CONS is read again, the unacknowledged records are written again, then PROD. -/
def State.ringRestart (s : State) (n : Nat) : State :=
  match s.ringQp n with
  | none => s.ringDown n
  | some k =>
    let s := s.setBit (mPage .host) (ringReg Reg.HOST_EVRn_STS n) 0 false
    let r := s.ring n
    let s := s.readCons n k
    let s := r.unacked.foldl (fun s u => s.writeRing n k (u.2 - u.1.bytes.length) u.1.bytes) s
    s.writeProd n k r.prod

/-! ## Records (R372, R373, R381, R383) -/

/-- ORIGIN of a journal entry (R373). -/
def originBits : Origin → Nat
  | .host port qp => 4 * (port % 4 + 4 * (qp % 16))
  | .cp q i => 1 + 4 * (q % 4 + 4 * (i % 4))
  | .lead id => 2 + 4 * (id % 2 ^ 18)
  | .sideband => 3

/-- ADDR of a journal entry (R372). -/
def addrBits (p : Page) (off : Nat) : Nat := p.win + 8 * p.slot + 2 ^ 15 * (off / 4)

/-- The 32 bytes of a journal entry (R372). -/
def JEntry.bytes (e : JEntry) : List Byte :=
  leBytes 8 e.time ++ leBytes 5 e.seq ++ leBytes 3 (originBits e.origin) ++ leBytes 4 (addrBits e.page e.off) ++
  leBytes 1 (e.code + flag e.setWon 3 + flag e.doorbell 4 + flag e.held 5 + flag e.rsvNz 6) ++ leBytes 3 0 ++
  leBytes 4 e.old.toNat ++ leBytes 4 e.new.toNat

/-- The 32 bytes of an alarm record (R381). -/
def Alarm.bytes (a : Alarm) : List Byte :=
  leBytes 8 a.first ++ leBytes 8 a.last ++ leBytes 4 a.count ++ leBytes 3 (a.page.win + 8 * a.page.slot) ++ leBytes 1 a.bit ++
  leBytes 1 (flag a.forced 0 + flag a.pageOvf 1) ++ leBytes 3 0 ++ leBytes 4 a.sts.toNat

/-- The 32 bytes of a trace record (R383). -/
def TraceRec.bytes (r : TraceRec) : List Byte :=
  leBytes 8 r.time ++ leBytes 1 r.quarter ++ leBytes 1 r.queue ++ leBytes 1 r.event ++ leBytes 1 r.code ++ leBytes 2 r.tag ++
  leBytes 18 0

/-- The next record that waits for ring n, by its class (R310, R380). -/
def State.ringNext (s : State) (n : Nat) : Option RingRec :=
  let cfg := s.ringCfg n
  match bitsOf cfg 5 3 with
  | 0 => s.events.alarms.head?.map (fun a => { bytes := a.bytes, seq := none })
  | 1 =>
    ((s.journal (bitsOf cfg 8 2)).ring.find? (fun e => decide (((s.ring n).nextSeq.getD 0) ≤ e.seq))).map
      (fun e => { bytes := e.bytes, seq := some e.seq })
  | 2 => s.events.telemetry.head?.map (fun b => { bytes := b, seq := none })
  | _ => s.events.trace.head?.map (fun r => { bytes := r.bytes, seq := none })

/-- The record of ring n is written: it leaves the table or the staging (R381, R382); an entry of the journal stays in
its ring until it retires. -/
def State.ringTake (s : State) (n : Nat) (r : RingRec) : State :=
  match bitsOf (s.ringCfg n) 5 3 with
  | 0 => { s with events := { s.events with alarms := s.events.alarms.drop 1 } }
  | 1 => s.setRing n { s.ring n with nextSeq := r.seq.map (· + 1) }
  | 2 => { s with events := { s.events with telemetry := s.events.telemetry.drop 1 } }
  | _ => { s with events := { s.events with trace := s.events.trace.drop 1 } }

/-- Write waiting records into ring n while they fit, with fuel; one that does not fit makes the module read CONS again
(R310). -/
def State.ringSend : Nat → Nat → Nat → State → State
  | 0, _, _, s => s
  | f + 1, n, k, s =>
    match s.ringNext n with
    | none => s
    | some r =>
      let x := s.ring n
      let len := r.bytes.length
      if 2 ^ bitsOf (s.ringCfg n) 0 5 < x.prod + len - x.cons then s.setRing n { x with full := true }
      else
        let s := s.writeRing n k x.prod r.bytes
        let s := s.setRing n { x with prod := x.prod + len, unacked := x.unacked ++ [(r, x.prod + len)], full := false }
        State.ringSend f n k (s.ringTake n r)

/-! ## Teardown (R300, R301, R481) -/

/-- The sessions that a test picks end. -/
def State.endSessions (s : State) (p : Session → Bool) : State :=
  { s with sec := { s.sec with sessions := s.sec.sessions.filter (fun x => !p x) } }

/-- A host queue pair is torn down: its sessions end, its event rings are down, and what it had not performed is
dropped. -/
def State.tearDown (s : State) (k : Nat) : State :=
  if (s.hostQp k).isNone then s
  else
    let rings := (List.range 8).filter (fun n => s.ringOn n && !s.ringIsDown n && s.ringQp n == some k)
    let o : Origin := .host (k / 16) (k % 16)
    let other (a : Action) : Bool := match a with
      | .reg x => x.origin != o
      | .memWrite x _ _ | .memRead x _ _ | .fetchAdd x _ _ | .answer x _ => x != o
      | .release _ => true
    let s : State := { s with host := { s.host with qps := s.host.qps.filter (fun e => e.1 != k) }
                              clk := { s.clk with stalled := s.clk.stalled.filter other
                                                  got := s.clk.got.filter (fun e => e.1 != o) }
                              sec := { s.sec with vca := s.sec.vca.filter (fun e => e.1 != k) } }
    let s := s.endSessions (fun x => x.qp == k)
    (rings.foldl State.ringDown s).emit (.cmGone k)

/-- RELEASE takes effect (R301, R480): every host queue pair is torn down, OWNED clears, OWNER_RELEASED is raised. -/
def State.releaseNow (s : State) : State :=
  let s := (s.host.qps.map Prod.fst).foldl State.tearDown s
  ((s.setBit (mPage .host) Reg.HOST_HOST_STS 0 false).raise (mPage .host) 1).extend 6 (List.replicate 48 0xFF)

end Sys2Proof.Machine
end

