-- ==== Sys2Proof/Machine/RegWrite.lean ====
section
/-! DEFINITION. Writing registers: which values and states a page accepts, and what a write does there (R5, R6, R103, R115, R142, R159, R199, R224, R266, R296, R310, R320, R354 to R358, R366, R374). -/

namespace Sys2Proof.Machine

/-! ## Values that are in range (R366) -/

/-- Is a value in range for a register of a page? -/
def rangeOk (k : PageKind) (off v : Nat) : Bool :=
  let log (lo : Nat) : Bool := bitsOf v 0 5 == 0 || decide (lo ≤ bitsOf v 0 5)
  let ring := off % 0x20
  match k with
  | .fport => off != Reg.FPORT_PORT_CTL || bitsOf v 1 2 != 3
  | .step => off != Reg.STEP_HREC_CFG || log 16
  | .lease => off % 16 != 4 || decide (bitsOf v 0 25 ≤ 2 ^ 24)
  | .coll =>
    if off = Reg.COLL_DLOG_CFG then log 12
    else if off = Reg.COLL_DLOG_BASE_LO then v % 4096 == 0
    else if off = Reg.COLL_PLAN_CFG then decide (bitsOf v 0 13 ≤ 4096)
    else if off = Reg.COLL_TREE then bitsOf v 0 3 != 6
    else true
  | .mig =>
    if off = Reg.MIG_ROUND_H then decide (16 ≤ bitsOf v 0 11 ∧ bitsOf v 0 11 ≤ 1024)
    else if off = Reg.MIG_SLOT_BYTES ∨ off = Reg.MIG_LAND_OFF_LO then v % 4096 == 0
    else if off = Reg.MIG_STALE_MAX then decide (bitsOf v 0 3 ≤ 4)
    else if off = Reg.MIG_WAIT_RTTS then bitsOf v 0 8 != 0
    else if off = Reg.MIG_DIV_ROUNDS then bitsOf v 0 3 != 0
    else if off = Reg.MIG_PTP_CTL then decide (bitsOf v 8 8 ≤ 127)
    else true
  | .host =>
    if off = Reg.HOST_HOST_CTL then bitsOf v 2 2 != 3
    else if off = Reg.HOST_ECN_CTL then bitsOf v 8 8 != 0
    else if off = Reg.HOST_QOS_ETS then
      bitsOf v 0 8 + bitsOf v 8 8 + bitsOf v 16 8 == 100 && bitsOf v 16 8 != 0
    else if 0x200 ≤ off ∧ ring = 0xC then decide (16 ≤ bitsOf v 0 5 ∧ bitsOf v 0 5 ≤ 30 ∧ bitsOf v 5 3 ≤ 3)
    else if 0x200 ≤ off ∧ ring = 0 then v % 4096 == 0
    else true
  | .pwr => off != Reg.PWR_P_CAP || decide (1800 ≤ bitsOf v 0 16 ∧ bitsOf v 0 16 ≤ 4200)
  | .hk =>
    if off = Reg.HK_T_WARN then decide (1280 ≤ bitsOf v 0 16 ∧ bitsOf v 0 16 ≤ 1680)
    else if off = Reg.HK_T_DRAM_WARN then decide (1120 ≤ bitsOf v 0 16 ∧ bitsOf v 0 16 ≤ 1520)
    else true
  | .bgnd =>
    if off = Reg.BGND_RINSE_CTL then decide (bitsOf v 2 4 ≤ 8 ∧ bitsOf v 6 4 ≤ 8)
    else if off = Reg.BGND_MARGIN_SEL then decide (bitsOf v 0 5 ≤ 25)
    else true
  | .fault =>
    if off = Reg.FAULT_LTAB_LO then v % 64 == 0
    else if off = Reg.FAULT_LTAB_COUNT then decide (bitsOf v 0 13 ≤ 4096)
    else true
  | .boot =>
    if off = Reg.BOOT_UMAP_LO then v % 64 == 0
    else if off = Reg.BOOT_UMAP_COUNT then bitsOf v 0 16 != 0
    else true
  | _ => true

/-- Does the step's state allow a write: registers that are written only in IDLE (R142, R296, R471)? -/
def State.idleOk (s : State) (k : PageKind) (off : Nat) : Bool :=
  s.stepState == 0 ||
  match k with
  | .step => !(off == Reg.STEP_ATTEMPT_LO || off == Reg.STEP_ATTEMPT_HI || off == Reg.STEP_COMMITTED_LO ||
      off == Reg.STEP_COMMITTED_HI)
  | .mig => !(off == Reg.MIG_MIG_CTL || off == Reg.MIG_ROUND_H || off == Reg.MIG_SITES ||
      decide (Reg.MIG_LAND_OFF_LO ≤ off ∧ off < Reg.MIG_SITEs_STS))
  | .fault => !(off == Reg.FAULT_LTAB_LO || off == Reg.FAULT_LTAB_HI || off == Reg.FAULT_LTAB_COUNT)
  | _ => true

/-! ## What a page does with a write: the state, and whether the write is performed -/

/-- Store the RW bits of a register. -/
def State.store (s : State) (p : Page) (off : Nat) (r : RegSpec) (v : Word) : State :=
  let m := BitVec.ofNat 32 r.rw
  s.setReg p off ((s.reg p off &&& ~~~m) ||| (v &&& m))

/-- PAGE_CTL (R354): ENABLE 0 only while QUIESCED; a field that the page lacks is as reset. -/
def State.writePageCtl (s : State) (p : Page) (k : PageKind) (v : Nat) : State × Bool :=
  if k.enables && !bitAt v 0 && !s.quiesced p then (s, false)
  else (s.setNum p Reg.HDR_PAGE_CTL
    ((if k.enables then v % 2 else 1) + 2 * (if k.quiesces then bitsOf v 1 1 else 0)), true)

/-- EVT_EN (R356): a bit enabled while its EVT_STS bit is set raises an alarm. -/
def State.writeEvtEn (s : State) (p : Page) (k : PageKind) (v : Nat) : State :=
  let old := s.num p Reg.HDR_EVT_EN
  let new := v &&& k.evtMask
  let s := s.setNum p Reg.HDR_EVT_EN new
  ((List.range k.evtBits).filter (fun b => bitAt new b && !bitAt old b && s.bit p Reg.HDR_EVT_STS b)).foldl (fun s b =>
    let r := s.placeAlarm p b false
    if r.2 then (r.1.setEvent (mPage .evq) 0 false).1 else r.1) s

/-- Set the events of a mask in one cycle, as hardware or forced (R356, R357): every alarm shows all of them (R381). -/
def State.setMask (s : State) (p : Page) (k : PageKind) (v : Nat) (forced : Bool) : State :=
  let bits := (List.range k.evtBits).filter (fun b => bitAt v b && bitAt k.evtMask b)
  let new := bits.filter (fun b => !s.bit p Reg.HDR_EVT_STS b && s.bit p Reg.HDR_EVT_EN b)
  let s := bits.foldl (fun s b =>
    ((s.note p Reg.HDR_EVT_STS 0 (2 ^ b)).setBit p Reg.HDR_EVT_STS b true).addSat p Reg.HDR_EVT_COUNT 1) s
  new.foldl (fun s b =>
    let r := s.placeAlarm p b forced
    if r.2 then (r.1.setEvent (mPage .evq) 0 false).1 else r.1) s

/-- A TAIL or RING_CFG write that is not performed: its event, and LAST_QERR (R103, R112). -/
def State.queueError (s : State) (q n bit : Nat) : State :=
  (s.setNum (qPage .qring q 0) Reg.QRING_LAST_QERR n).raise (qPage .qring q (n / 128)) bit

/-- A write of TAIL (R103). -/
def State.writeTail (s : State) (q n v : Nat) : State × Bool :=
  let x := s.queue q n
  let t := v % 65536
  let occ := (t + 65536 - x.head) % 65536
  if !x.hasRing then (s.queueError q n 1, false)
  else if occ < x.occupancy ∨ 2 ^ x.log2 < occ then (s.queueError q n 0, false)
  else (s.setQueue q n { x with tail := t }, true)

/-- A write of RING_CFG (R103). -/
def State.writeRingCfg (s : State) (q n v : Nat) : State × Bool :=
  let x := s.queue q n
  let base := bitsOf v 0 22
  let log := bitsOf v 22 4
  if x.head ≠ x.tail ∨ !x.window.isEmpty ∨ (4 ≤ log ∧ log ≤ 12 ∧ 0x280000 < base + 2 ^ log) then (s.queueError q n 1, false)
  else (s.setQueue q n { x with base := base, log2 := log }, true)

/-- QRING (R112). -/
def State.writeQring (s : State) (p : Page) (off v : Nat) : State × Bool :=
  let n := 128 * p.inst + (off - 0x100) / 16
  if off % 16 = 4 then s.writeTail p.win n v else s.writeRingCfg p.win n v

/-- A counter (R109, R113, R143, R276): CTR_0 and the reserved counters of the step and of a round refuse a write. -/
def State.writeSignal (s : State) (p : Page) (off v : Nat) : State × Bool :=
  let k := 256 * p.inst + (off - 0x100) / 4
  if k = 0 ∨ reservedCounter k ∨ (s.migOn ∧ k = 4091) then (s, false) else (s.replaceCounter p.win k v, true)

/-- ARR_CTL (R65): RESUME of the array's queue. -/
def State.writeArray (s : State) (p : Page) (off v : Nat) : State :=
  match (s.pageQueues p)[(off - 0x100) / 0x40]? with
  | some n => if bitAt v 0 then s.resume p.win n else s
  | none => s

/-- ENG_CTL (R115): a write of both bits is not performed. -/
def State.writeEngine (s : State) (p : Page) (k : PageKind) (r : RegSpec) (v : Nat) : State × Bool :=
  let n := engineQueue k p.inst
  let retry := bitAt v 1 && bitAt r.wo 1
  if bitAt v 0 && retry then (s, false)
  else if bitAt v 0 then (s.resume p.win n, true)
  else if retry then (s.retry p.win n, true)
  else (s, true)

/-- LEASE (R157, R159): a range is written only while the lease is not held; CLAIM asks for a grant, and its clearing ends
it. -/
def State.writeLease (s : State) (off : Nat) (r : RegSpec) (v : Word) : State × Bool :=
  let m := mPage .lease
  let n := (off - 0x0F0) / 16
  if off % 16 = 8 then
    let was := s.bit m off 0
    let now := bitAt v.toNat 0
    let s := s.store m off r v
    (if was = now then s else s.setLease n { s.lease n with granted := false, mixed := false, claimStep := 0 }, true)
  else if s.leaseHeld n then (s.raise m 0, false)
  else (s.store m off r v, true)

/-- COLL (R199, R203, R370). -/
def State.writeColl (s : State) (off : Nat) (r : RegSpec) (v : Word) : State × Bool :=
  let m := mPage .coll
  if off = Reg.COLL_CHECK then
    if !bitAt v.toNat 0 then (s, true)
    else if !s.isLead then (s, false)
    else (s.startCheck (s.num m Reg.COLL_CHECK_ATT), true)
  else
    let s := s.store m off r v
    (if Reg.COLL_SHAPE ≤ off ∧ off ≤ Reg.COLL_TREE then s.failCollectives else s, true)

/-- REPAIR_CTL (R224, R232): GO while a copy runs is not performed; a line of another stack names no unit of this one. -/
def State.writeRepair (s : State) (p : Page) (v : Nat) : State × Bool :=
  let a := s.num64 p Reg.NMEM_REPAIR_ADDR_LO Reg.NMEM_REPAIR_ADDR_HI
  let mine := (stackPlace a).any (fun x => x.quarter == p.win && x.slot == p.inst)
  if !bitAt v 0 then (s, true)
  else if (s.stack p.win p.inst).copying || !mine then (s.raise p 5, false)
  else (s.softRepair a, true)

/-- POD_CMD (R255, R259, R261, R267, R370). -/
def State.writePodCmd (s : State) (v : Nat) : State × Bool :=
  if (bitAt v 0 && !s.isLead) || ((bitAt v 1 || bitAt v 2) && s.stepState != 0) then (s, false)
  else
    let s := if bitAt v 1 then s.setPod { s.fabric.pod with setArmed := true } else s
    let s := if bitAt v 0 then s.declareLost (s.podId (s.field (mPage .pod) Reg.POD_CUT_SEL 0 15)) none false else s
    (if bitAt v 2 then s.startDiscovery false else s, true)

/-- MIG (R274, R295, R296): the 4 s without a Sync run from when PTP is enabled. -/
def State.writeMig (s : State) (off : Nat) (r : RegSpec) (v : Word) : State :=
  let was := s.bit (mPage .mig) Reg.MIG_PTP_CTL 0
  let s := s.store (mPage .mig) off r v
  if off = Reg.MIG_SITES then s.resetSites
  else if off = Reg.MIG_PTP_CTL then
    let on := bitAt v.toNat 0
    if on && !was then { s with mig := { s.mig with lastSync := some s.podCount } }
    else if on then s
    else { s with mig := { s.mig with lastSync := none } }
  else s

/-- EVRn registers (R310). -/
def State.writeRingReg (s : State) (off : Nat) (r : RegSpec) (v : Word) : State × Bool :=
  let h := mPage .host
  let n := (off - 0x200) / 0x20
  let on := s.ringOn n
  let wrong : State × Bool := (s.raise h 4, false)
  match off % 0x20 with
  | 0x0C =>
    let w := v.toNat
    if on then
      if bitAt w 31 then wrong
      else ((s.store h off r v).setRing n { s.ring n with unacked := [], rereading := false, full := false }, true)
    else if !bitAt w 31 then (s.store h off r v, true)
    else
      let same (i : Nat) : Bool := i != n && s.ringOn i && bitsOf (s.ringCfg i) 5 3 == bitsOf w 5 3 &&
        (bitsOf w 5 3 != 1 || bitsOf (s.ringCfg i) 8 2 == bitsOf w 8 2)
      if (List.range 8).any same then wrong else ((s.store h off r v).ringEnable n, true)
  | 0x10 =>
    if !on then (s.store h off r v, true)
    else if !s.ringIsDown n then wrong
    else ((s.store h off r v).ringRestart n, true)
  | _ => if on then wrong else (s.store h off r v, true)

/-- HOST (R301, R310, R312): RELEASE only from an owner queue pair; it takes effect once earlier requests have completed. -/
def State.writeHost (s : State) (o : Origin) (off : Nat) (r : RegSpec) (v : Word) : State × Bool :=
  if off = Reg.HOST_HOST_CMD then
    if !bitAt v.toNat 0 then (s, true)
    else
      match o with
      | .host port i =>
        if s.ownerQp (qpKey port i) then
          ({ s with clk := { s.clk with stalled := s.clk.stalled ++ [.release o] } }, true)
        else (s, false)
      | _ => (s, false)
  else if 0x200 ≤ off then s.writeRingReg off r v
  else (s.store (mPage .host) off r v, true)

/-- May a STOP of an island be performed (R320)? -/
def State.stopOk (s : State) (q i : Nat) : Bool :=
  match islandPage q i with
  | none => false
  | some p =>
    (decide (s.island q i ≤ 1) || s.island q i == 3) && s.quiesced p &&
    (p.kind != some .array || ((List.range 3).all (fun a => (s.array q i a).tiles.isEmpty) && !s.mapped q i)) &&
    (p.kind != some .fport || !s.bit p Reg.FPORT_PORT_CTL 0)

/-- CLK_CMD (R320, R329). -/
def State.writeClkCmd (s : State) (v : Nat) : State × Bool :=
  let c := mPage .clkdir
  let i := bitsOf v 0 7
  let q := bitsOf v 8 2
  let op := bitsOf v 12 2
  let ok := !s.cmdBusy && (if op = 1 then s.stopOk q i else s.island q i == 3)
  if op ≠ 1 ∧ op ≠ 2 then (s, false)
  else if !ok then
    ((s.setNum c Reg.CLKDIR_CMD_STS (flag s.cmdBusy 0 + 2 + 4 * i + 512 * q)).raise c 4, false)
  else
    let cmd : ClkCmd := { quarter := q, island := i, stop := op == 1, since := s.now }
    let s : State := { s with clk := { s.clk with cmds := s.clk.cmds ++ [cmd] } }
    ((s.setIsland q i (if op = 1 then 2 else 4)).setNum c Reg.CLKDIR_CMD_STS (1 + 4 * i + 512 * q), true)

/-- Is the origin an owner for BOOT_CMD: an owner queue pair, or a CONTROL queue pair accepted in recovery (R445,
R487)? -/
def State.bootOwner (s : State) : Origin → Bool
  | .host port i => s.ownerQp (qpKey port i) || (s.hostQp (qpKey port i)).any (fun x => x.recovery && x.role == 0)
  | _ => false

/-- May WARM be performed (R432)? -/
def State.warmOk (s : State) : Bool :=
  let active := s.field (mPage .pod) Reg.POD_ROLE 2 2 == 0
  let run := s.bit (mPage .step) Reg.STEP_STEP_CTL 0
  let st := s.stepState
  s.phase == 9 && (if active && run then s.unpickOk else run || st == 0 || st == 4 || st == 7)

/-- Is a BOOT_CMD write performed? -/
def State.bootCmdOk (s : State) (o : Origin) (v : Nat) : Bool :=
  s.bootOwner o && (bitAt v 1 || !bitAt v 0 || s.warmOk) && (bitAt v 1 || bitAt v 0 || !bitAt v 2 || s.unpickOk)

/-- What a performed BOOT_CMD write begins: COLD before WARM before UNPICK. -/
def State.bootCmd (s : State) (v : Nat) : State :=
  if bitAt v 1 then s.bootCold
  else if bitAt v 0 then
    if s.field (mPage .pod) Reg.POD_ROLE 2 2 == 0 && s.bit (mPage .step) Reg.STEP_STEP_CTL 0 then s.startUnpick true
    else s.warmEntry
  else if bitAt v 2 then s.startUnpick false
  else s

/-- PORT_CTL (R266): ENABLE 0 takes the link down at once; the lead looks at what it finds. -/
def State.writePortCtl (s : State) (p : Page) (r : RegSpec) (v : Word) : State :=
  let s := s.store p Reg.FPORT_PORT_CTL r v
  if bitAt v.toNat 0 then s else (s.linkDown p.win p.inst).mendCheck

/-- ACCn (R133): what a digest engine added in the same VCLK is added after the write. -/
def State.writeAcc (s : State) (p : Page) (off : Nat) (r : RegSpec) (v : Word) : State :=
  let lo := off / 8 * 8
  let add := ((s.cycle.find? (fun c => c.key == p.reg lo && c.at_ / 2 == s.now / 2)).map (·.add)).getD 0
  let was := s.setNum64 p lo (lo + 4) ((s.num64 p lo (lo + 4) + 2 ^ 64 - add % 2 ^ 64) % 2 ^ 64)
  let t := was.store p off r v
  t.setNum64 p lo (lo + 4) ((t.num64 p lo (lo + 4) + add) % 2 ^ 64)

/-- A write to a block register whose value is in range. -/
def State.writeBlock (s : State) (o : Origin) (p : Page) (k : PageKind) (off : Nat) (r : RegSpec) (v : Word) : State × Bool :=
  let plain : State × Bool := (s.store p off r v, true)
  let n := v.toNat
  match k with
  | .array => (s.writeArray p off n, true)
  | .tslot =>
    if off = Reg.TSLOT_FAILED_MAP then
      let t := s.store p off r v
      (t.raiseIf (t.short p.win && !s.short p.win) p 2, true)
    else plain
  | .qring => s.writeQring p off n
  | .signal => s.writeSignal p off n
  | .lease => s.writeLease off r v
  | .coll => s.writeColl off r v
  | .nmem => if off = Reg.NMEM_REPAIR_CTL then s.writeRepair p n else plain
  | .fport => if off = Reg.FPORT_PORT_CTL then (s.writePortCtl p r v, true) else plain
  | .pod => if off = Reg.POD_POD_CMD then s.writePodCmd n else plain
  | .mig => (s.writeMig off r v, true)
  | .host => s.writeHost o off r v
  | .step =>
    if Reg.STEP_ATTEMPT_LO ≤ off ∧ off ≤ Reg.STEP_COMMITTED_HI then (plain.1.mirrorCounts, true) else plain
  | .clkdir =>
    if off = Reg.CLKDIR_CLK_CMD then s.writeClkCmd n else (plain.1.retrack ((off - Reg.CLKDIR_QREF_CTLq) / 4), true)
  | .boot => if off = Reg.BOOT_BOOT_CMD then (s, s.bootCmdOk o n) else plain
  | .dg => if Reg.DG_ACC_LO ≤ off then (s.writeAcc p off r v, true) else if off = Reg.ENG_ENG_CTL then s.writeEngine p k r n else plain
  | .rng => if Reg.RNG_SALT_Qq ≤ off then ((s.note p off 0 0).store p off r v, true) else plain
  | .cp =>
    if off = Reg.CP_CP_CTL then (if bitAt n 1 then plain.1.resetHart p.win p.inst else plain.1, true) else plain
  | k => if k.isEngine && off == Reg.ENG_ENG_CTL then s.writeEngine p k r n else plain

/-- What follows a performed write once it is journalled: a start command or a shutdown (R414, R429, R432, R441). -/
def State.afterWrite (s : State) (p : Page) (off v : Nat) : State :=
  if p = mPage .boot ∧ off = Reg.BOOT_BOOT_CMD then s.bootCmd v
  else if p = mPage .pwr ∧ off = Reg.PWR_PWR_CMD ∧ bitAt v 0 then s.shutdown 9
  else s

/-! ## One write -/

/-- What becomes of a write: the state, CODE, and SET_WON (R374). A bit of EVT_STS that hardware sets in the same CCLK, by
an earlier command or as `hw` names it, stays set (R6). DESIGN CHOICE (log entry 112): a register whose fields are all read-only
or cleared on read is refused with CODE 2. -/
def State.decideWrite (s : State) (a : RegAccess) (k : PageKind) (v : Word) : State × Nat × Bool :=
  let p := a.page
  let off := a.off
  let code (r : State × Bool) : State × Nat × Bool := (r.1, if r.2 then 0 else 2, false)
  if a.refuse ∨ (a.origin = .sideband ∧ k ≠ .pwr) then (s, 2, false)
  else if k == .sec && (match a.origin with | .lead _ => true | _ => false) then (s, 2, false)
  else
    match p.specAt off with
    | none => (s, 0, false)
    | some r =>
      if off = Reg.HDR_PAGE_CTL then code (s.writePageCtl p k v.toNat)
      else if off = Reg.HDR_EVT_STS then
        let hw := a.hw ||| BitVec.ofNat 32 (((s.change p off).map (·.set)).getD 0)
        let won := v &&& hw &&& s.reg p off
        let s := s.setMask p k a.hw.toNat false
        (s.setReg p off (s.reg p off &&& ~~~(v &&& ~~~hw)), 0, won != 0)
      else if off = Reg.HDR_EVT_EN then (s.writeEvtEn p k v.toNat, 0, false)
      else if off = Reg.HDR_EVT_FORCE then ((s.setMask p k a.hw.toNat false).setMask p k v.toNat true, 0, false)
      else if r.rw = 0 ∧ r.wo = 0 then (s, 2, false)
      else if off < 0x100 then (s.store p off r v, 0, false)
      else if !rangeOk k off v.toNat || !s.idleOk k off then
        (s.raiseIf (k == .lease && s.leaseHeld ((off - 0x0F0) / 16)) p 0, 2, false)
      else code (s.writeBlock a.origin p k off r v)

/-- Does a write carry a nonzero value in reserved bits (R8, R374)? -/
def Page.rsvNz (p : Page) (k : PageKind) (off : Nat) (v : Word) : Bool :=
  match p.specAt off with
  | none => v != 0
  | some r =>
    let undef := if off = Reg.HDR_EVT_EN ∨ off = Reg.HDR_EVT_STS then 0xFFFFFFFF - k.evtMask else 0
    v &&& BitVec.ofNat 32 (r.rsv ||| undef) != 0

/-- Complete a write that has its place in the journal: narrow accesses and empty slots first (R351, R361), then the page's
rule; the entry follows, and then what a performed command begins. -/
def State.performWrite (s : State) (a : RegAccess) (v : Word) : State :=
  let p := a.page
  let old := s.value p a.off
  let entry (s : State) (code : Nat) (won rsv : Bool) (new : Word) : JEntry :=
    { time := s.podCount, seq := 0, origin := a.origin, page := p, off := a.off, code := code, setWon := won,
      doorbell := a.doorbell, held := a.held, rsvNz := rsv, old := old, new := new }
  if a.narrow then
    let s := match a.origin with
      | .cp q i => s.raise (qPage .cp q i) 2
      | _ => s
    s.journalAdd (entry s 4 false false old)
  else
    match p.kind with
    | none => s.journalAdd (entry s 3 false false 0)
    | some k =>
      let r := s.decideWrite a k v
      let t := r.1.journalAdd (entry r.1 r.2.1 r.2.2 (p.rsvNz k a.off v) (if r.2.1 = 0 then r.1.value p a.off else old))
      if r.2.1 = 0 then t.afterWrite p a.off v.toNat else t

/-- Refuse a write that has waited 1 ms for journal space (R378, R384): CODE 1. -/
def State.refuseFull (s : State) (q : Nat) (a : RegAccess) : State :=
  let j := qPage .jrnl q 0
  let v := s.value a.page a.off
  let rsv := match a.page.kind, a.write with
    | some k, some w => a.page.rsvNz k a.off w
    | _, _ => false
  let s := s.journalAdd { time := s.podCount, seq := 0, origin := a.origin, page := a.page, off := a.off, code := 1, setWon := false,
                          doorbell := a.doorbell, held := true, rsvNz := rsv, old := v, new := v }
  ((s.addSat j Reg.JRNL_REFUSED 1).setNum j Reg.JRNL_LAST_REFUSED (addrBits a.page a.off)).raise j 1

end Sys2Proof.Machine
end

