-- ==== Sys2Proof/Machine/Access.lean ====
section
/-! DEFINITION. Accesses on their way: islands that hold them, the journal that holds writes, the order of each origin, and the commands that let them proceed (R158, R249, R250, R304, R305, R325, R345, R361 to R363, R378, R430, R466). -/

namespace Sys2Proof.Machine

/-! ## Origins -/

/-- The island that an access to a page crosses into; an empty slot and CLKDIR belong to none (R329, R349, R351). -/
def State.islandOf (s : State) (p : Page) : Option (Nat × Nat) :=
  match p.kind with
  | none => none
  | some .clkdir => none
  | some k => some (if p.win < 4 then (p.win, quarterIsland k p.inst) else (s.service, 108))

/-- Is an access to a page performed rather than held (R318)? -/
def State.reachable (s : State) (p : Page) : Bool :=
  match s.islandOf p with
  | none => true
  | some (q, i) => decide (s.island q i ≤ 1)

/-- The origin of an action. -/
def Action.origin : Action → Origin
  | .reg a => a.origin
  | .memWrite o _ _ | .memRead o _ _ | .fetchAdd o _ _ | .answer o _ | .release o => o

/-- Is an action a RELEASE that waits for earlier requests (R301)? -/
def Action.isRelease : Action → Bool
  | .release _ => true
  | _ => false

/-- Does an access of an origin wait, so that its later ones wait behind it (R304, R325, R362, R378)? -/
def State.blocked (s : State) (o : Origin) : Bool :=
  s.clk.held.any (fun a => a.origin == o) || s.journals.any (fun e => e.2.held.any (fun a => a.origin == o)) ||
  s.leases.writes.any (fun w => w.reply == some o) || s.clk.stalled.any (fun a => !a.isRelease && a.origin == o)

/-- An action waits behind its origin's earlier ones. -/
def State.stall (s : State) (a : Action) : State := { s with clk := { s.clk with stalled := s.clk.stalled ++ [a] } }

/-- May an origin make a register access at all (R250, R303, R363, R424, R472)? A hart runs while CP_CTL.RUN is set in a
quarter whose island 108 runs. -/
def State.admits (s : State) (o : Origin) (p : Page) (off : Nat) : Bool :=
  match o with
  | .host port i =>
    (s.hostQp (qpKey port i)).any (fun x => x.role == 0 && decide (i < 16 ∧ port < 4) &&
      (!x.recovery || (p == mPage .boot && off == Reg.BOOT_BOOT_CMD)))
  | .cp q i => decide (q < 4 ∧ i < 4 ∧ s.island q 108 ≤ 1) && s.bit (qPage .cp q i) Reg.CP_CP_CTL 0
  | .lead id => s.leadId == some id || s.standbyId == some id
  | .sideband => s.busUp

/-! ## Register accesses (R325, R361, R371, R378) -/

/-- What a read delivers to its origin. -/
def State.deliver (s : State) (o : Origin) (bs : List (Byte × Bool)) : State :=
  let old := ((s.clk.got.find? (fun e => e.1 == o)).map Prod.snd).getD []
  { s with clk := { s.clk with got := s.clk.got.filter (fun e => e.1 != o) ++ [(o, old ++ bs)] } }

/-- What has been delivered to an origin, which is taken. -/
def State.takeGot (s : State) (o : Origin) : State × List (Byte × Bool) :=
  ({ s with clk := { s.clk with got := s.clk.got.filter (fun e => e.1 != o) } },
   ((s.clk.got.find? (fun e => e.1 == o)).map Prod.snd).getD [])

/-- An access is held at its island (R325, R329). -/
def State.holdAtIsland (s : State) (a : RegAccess) (q i : Nat) : State :=
  let c := mPage .clkdir
  let first := !s.clk.held.any (fun b => s.islandOf b.page == some (q, i))
  let s := if s.bit c Reg.CLKDIR_HELD_LAST 31 then s
    else if first then s.setNum c Reg.CLKDIR_HELD_LAST (i + 256 * q + 1024 * s.island q i + 2 ^ 31) else s
  ({ s with clk := { s.clk with held := s.clk.held ++ [a] } } : State).raiseIf first c 5

/-- Is an access made by the lead (KIND 2 of R373)? -/
def RegAccess.byLead (a : RegAccess) : Bool :=
  match a.origin with
  | .lead _ => true
  | _ => false

/-- Has the journal of a page room for a write: below 61,440 entries, or 65,536 for the lead's (R378)? -/
def State.journalRoom (s : State) (a : RegAccess) : Bool :=
  decide ((s.journal (s.journalOf a.page)).ring.length < (if a.byLead then 65536 else 61440))

/-- A write that needs an entry: it is performed, or held behind the writes that are held (R378). -/
def State.journalGate (s : State) (a : RegAccess) (v : Word) : State :=
  let q := s.journalOf a.page
  let j := s.journal q
  if s.journalRoom a && j.held.all (fun b => a.byLead && !b.byLead) then s.performWrite a v
  else
    let s := s.setJournal q { j with held := j.held ++ [{ a with held := true, since := s.podCount }] }
    (s.raise (qPage .jrnl q 0) 0).raiseIf (decide (65536 ≤ j.ring.length)) (qPage .jrnl q 0) 2

/-- Is it an access of the sideband outside the PWR page: a write is not performed, and a read returns 0 (R363)? -/
def RegAccess.astray (a : RegAccess) : Bool := a.origin == .sideband && a.page != mPage .pwr

/-- A register access that its origin is granted. A narrow load of a hart raises its access fault and reads nothing (R361). -/
def State.access (s : State) (a : RegAccess) : State :=
  if a.astray && a.write.isNone then s.deliver a.origin ((leBytes 4 0).map (fun b => (b, false))) else
  match s.islandOf a.page, s.reachable a.page || a.narrow || a.astray with
  | some (q, i), false => s.holdAtIsland a q i
  | _, _ =>
    match a.write with
    | some v => s.journalGate a v
    | none =>
      let r := s.readReg a.page a.off
      r.1.deliver a.origin ((leBytes 4 r.2.toNat).map (fun b => (b, false)))

/-! ## Answers (R239, R300, R305, R424) -/

/-- A remote access has its answer: a READ_RESP, or the acknowledgement of another site's RDMA request (R239, R273). -/
def State.answerRemote (s : State) (f : RespTo) (err : Bool) (bs : List (Byte × Bool)) : State :=
  match f.site with
  | none => s.sendAt f.vl f.q f.dst (.readResp f.seg err bs) (max s.now f.due)
  | some x => s.emit (.siteAnswer f.q x f.seg (if err then 0x20 else 0) bs)

/-- A request has its answer. A queue pair keeps the answers to its last 16 reads and atomics (R305); one that was torn down
gets none. -/
def State.answerNow (s : State) (o : Origin) (r : Answer) : State :=
  let g := s.takeGot o
  let s := g.1
  let bs := g.2
  match r with
  | .frame f => s.answerRemote f false bs
  | .sideband true => s.emit (.smb (bs.map Prod.fst))
  | .sideband false => { s with power := { s.power with pending := false } }
  | .nak psn access =>
    match o with
    | .host port i =>
      if (s.hostQp (qpKey port i)).isNone then s
      else if access then
        ((s.addSat (mPage .host) Reg.HOST_ACC_ERR 1).raise (mPage .host) 3).emit (.hostReply (qpKey port i) psn .nakAccess)
      else s.emit (.hostReply (qpKey port i) psn .nakInvalid)
    | _ => s
  | .host psn read keep path =>
    match o with
    | .host port i =>
      match s.hostQp (qpKey port i) with
      | none => s
      | some x =>
        let l := x.answers ++ [(psn, bs)]
        let s := if keep then s.setHostQp (qpKey port i) { x with answers := l.drop (l.length - 16) } else s
        if read then s.emitAt (.hostReply (qpKey port i) psn (.data bs)) (s.now + path)
        else s.emit (.hostReply (qpKey port i) psn .ack)
    | _ => s

/-! ## Actions in their origin's order (R158, R304, R306) -/

/-- Perform an action whose turn it is: a host's D-tier write, or an addition, waits on the leases (R158, R303). An addition
to a stack is one merge write, whose own read is the read of its line (R215, R306). -/
def State.perform (s : State) (a : Action) : State :=
  match a with
  | .reg r => s.access r
  | .memWrite o addr bs =>
    if s.writeWaits addr bs.length then
      { s with leases := { s.leases with writes := s.leases.writes ++
        [{ addr := addr, bytes := bs, since := s.podCount, reply := some o }] } }
    else s.writeMarked addr bs
  | .memRead o addr len => (s.noteRead addr len).deliver o (s.readMarked addr len)
  | .fetchAdd o addr v =>
    if s.writeWaits addr 8 then s.stall a
    else
      let old := s.readMarked addr 8
      let s := if (stackPlace addr).isSome then s else s.noteRead addr 8
      ((s.writeMarked addr ((leBytes 8 (leNat (old.map Prod.fst) + v)).map (fun b => (b, false)))).deliver o old)
  | .answer o r => s.answerNow o r
  | .release _ => s.stall a

/-- An action arrives: it is performed, or waits behind the earlier ones of its origin. -/
def State.submit (s : State) (a : Action) : State := if s.blocked a.origin then s.stall a else s.perform a

/-- Does a host request wait? -/
def State.hostWaits (s : State) : Bool :=
  let isHost (o : Origin) : Bool := match o with
    | .host _ _ => true
    | _ => false
  s.clk.held.any (fun a => isHost a.origin) || s.journals.any (fun e => e.2.held.any (fun a => isHost a.origin)) ||
  s.leases.writes.any (fun w => w.reply.any isHost) || s.clk.stalled.any (fun a => !a.isRelease && isHost a.origin)

/-- What waits proceeds as far as it can; a RELEASE takes effect once no host request waits (R301). -/
def State.proceed (s : State) : State :=
  let l := s.clk.stalled
  let s : State := { s with clk := { s.clk with stalled := [] } }
  let s := (l.filter (fun a => !a.isRelease)).foldl State.submit s
  if !l.any Action.isRelease then s
  else if s.hostWaits then { s with clk := { s.clk with stalled := s.clk.stalled ++ l.filter Action.isRelease } }
  else s.releaseNow

/-- A request of an origin, in its order. -/
def State.request (s : State) (l : List Action) : State := (l.foldl State.submit s).proceed

/-- Islands have come up: the accesses held there are performed, in order (R325). -/
def State.releaseHeld (s : State) : State :=
  let l := s.clk.held
  let s : State := { s with clk := { s.clk with held := l.filter (fun a => !s.reachable a.page) } }
  ((l.filter (fun a => s.reachable a.page)).foldl State.access s).proceed

/-! ## Commands that let accesses proceed -/

/-- ISLAND_RUN (R320, R325, R345): 180 CCLK after its command an island reaches RUN, and held accesses are performed. -/
def execIslandRun (t : Nat) (s : State) : Host.Outcome State Fault Refusal :=
  settled ((s.advance t).endCmd false 720 0).1.releaseHeld

/-- START_PHASE_COMPLETE (R228, R325, R429 to R433): the phase ends with what it found; accesses held at islands that came up are
performed. -/
def execStartPhaseComplete (t : Nat) (x : StartFound) (s : State) : Host.Outcome State Fault Refusal :=
  settled ((s.advance t).startPhase x).releaseHeld

/-- JOURNAL_HOLD_TIMEOUT (R378): the first write held for 900,000 counts is refused into a reserved slot. The lead's writes
are never refused, and at 65,536 entries every write waits. -/
def execJournalHoldTimeout (t q : Nat) (s : State) : Host.Outcome State Fault Refusal :=
  let s := s.advance t
  let j := s.journal q
  let old (a : RegAccess) : Bool := !a.byLead && decide (a.since + 900000 ≤ s.podCount)
  match j.held.find? old with
  | none => done s
  | some a =>
    if 65536 ≤ j.ring.length then done s
    else settled ((s.setJournal q { j with held := j.held.erase a }).refuseFull q a).proceed

/-- JOURNAL_HOLD_RELEASE (R378): the first held write that the journal has room for proceeds. -/
def execJournalHoldRelease (t q : Nat) (s : State) : Host.Outcome State Fault Refusal :=
  let s := s.advance t
  let j := s.journal q
  match j.held.find? s.journalRoom with
  | none => done s
  | some a => settled ((s.setJournal q { j with held := j.held.erase a }).performWrite a (a.write.getD 0)).proceed

/-- The answer of a remote write that a lease held back (R158, R239). -/
def State.respond (s : State) (w : LeaseWrite) : State :=
  match w.respond with
  | none => s
  | some f => s.answerRemote f false []

/-- A write of the module's own has been accepted: once none of its owner waits, the copy of a layer or the mend of a page is
complete (R455, R462, R465). -/
def State.landed (s : State) (owner : Option (Nat × Nat × Nat)) : State :=
  match owner with
  | some o =>
    if s.ownerWaits o then s
    else if o = copyOwner o.2.2 then s.copied o.2.2
    else if o = mendOwner o.2.2 then s.pageMended o.2.2
    else s
  | none => s

/-- LEASE_WRITE_ACCEPT (R158): a waiting write is accepted, and what waits for it proceeds. -/
def execLeaseWriteAccept (t : Nat) (s : State) : Host.Outcome State Fault Refusal :=
  let s := s.advance t
  match acceptable s [] s.leases.writes with
  | none => settled s
  | some (before, w, after) =>
    let s : State := { s with leases := { s.leases with writes := before ++ after } }
    settled (((((s.putWrite w.owner w.addr w.bytes).respond w).landed w.owner).finishCommit).proceed)

/-- SERVICE_FAILOVER (R450, R466, R470): Q1 takes over after 2 ms without a heartbeat, or when Q0's core reports an error in its
own state or traps twice (`failed`): sessions end, pending alarms are lost, staged telemetry and trace are dropped and
counted, and held accesses of the module window are performed. A failure of Q1's core after that makes the module report. -/
def execServiceFailover (t : Nat) (failed : Bool) (s : State) : Host.Outcome State Fault Refusal :=
  let s := s.advance t
  let f := mPage .fault
  let m := mPage .modid
  let evq := mPage .evq
  if s.island 1 108 > 1 then done s
  else if s.service ≠ 0 then
    (if failed && s.bit f Reg.FAULT_SVC_STS 1 then done ((s.setBit f Reg.FAULT_SVC_STS 1 false).reportLost 5) else done s)
  else if !failed ∧ s.now < s.cores.beatAt + 7200000 then done s
  else
    let s := s.setBit f Reg.FAULT_SVC_STS 0 false
    if !s.bit m Reg.MODID_SVC 2 then done (s.reportLost 5)
    else
      let s := (s.setNum m Reg.MODID_SVC (1 + 8))
      let s := (s.addSat evq Reg.EVQ_TEL_DROPS s.events.telemetry.length).addSat evq Reg.EVQ_TRACE_DROPS s.events.trace.length
      let s : State := { s with events := {}, sec := { s.sec with sessions := [], vca := [] }
                                cores := { s.cores with failedAt := some s.now } }
      settled (s.fault 0x05 0 0 s.selfId 0 0).releaseHeld

end Sys2Proof.Machine
end

