-- ==== Sys2Proof/Machine/Writes.lean ====
section
/-! DEFINITION. The register writes that have rows of their own: each is one write of its origin to one register (R5, R6, R65, R103, R113, R115, R142, R159, R199, R203, R224, R255, R259, R261, R266, R310, R320, R354 to R357, R414, R429, R432, R441, R472). -/

namespace Sys2Proof.Machine

/-- One register write by an origin that may make it, where the row's operands name a register (`ok`). An aligned word is the
only access that a register takes: a hart's narrower store is refused as one (R361), and no other origin makes one. -/
def writeRow (s : State) (o : Origin) (ok : Bool) (p : Page) (off : Nat) (v : Word) (hw : Word := 0) (narrow : Bool := false) :
    Host.Outcome State Fault Refusal :=
  let cp := match o with
    | .cp _ _ => true
    | _ => false
  let part := narrow || off % 4 != 0
  if ok && decide (p.win ≤ 4 ∧ p.slot < 4096 ∧ off < 4096) && (cp || !part) && s.admits o p off then
    settled (s.request [.reg { origin := o, page := p, off := off / 4 * 4, write := some v, narrow := part, hw := hw }])
  else done s

/-! ## Any register, and the page headers -/

/-- REGISTER_WRITE (R5, R361, R374). -/
def execRegisterWrite (t : Nat) (o : Origin) (win slot off : Nat) (v : Word) (narrow : Bool) (s : State) :
    Host.Outcome State Fault Refusal := writeRow (s.advance t) o true ⟨win, slot⟩ off v 0 narrow

/-- EVT_STS_CLEAR (R6): `hw` are the bits that hardware sets in the same CCLK. -/
def execEvtStsClear (t : Nat) (o : Origin) (win slot : Nat) (v hw : Word) (s : State) : Host.Outcome State Fault Refusal :=
  writeRow (s.advance t) o true ⟨win, slot⟩ Reg.HDR_EVT_STS v hw

/-- EVT_FORCE (R357). -/
def execEvtForce (t : Nat) (o : Origin) (win slot : Nat) (v hw : Word) (s : State) : Host.Outcome State Fault Refusal :=
  writeRow (s.advance t) o true ⟨win, slot⟩ Reg.HDR_EVT_FORCE v hw

/-- EVT_EN_WRITE (R356). -/
def execEvtEnWrite (t : Nat) (o : Origin) (win slot : Nat) (v : Word) (s : State) : Host.Outcome State Fault Refusal :=
  writeRow (s.advance t) o true ⟨win, slot⟩ Reg.HDR_EVT_EN v

/-- A PAGE_CTL value: a bit of the one that the page holds, replaced. -/
def State.pageCtl (s : State) (p : Page) (i : Nat) (b : Bool) : Word :=
  BitVec.ofNat 32 (putBits (s.num p Reg.HDR_PAGE_CTL) i 1 (if b then 1 else 0))

/-- PAGE_QUIESCE (R354): QUIESCE is set or cleared. -/
def execPageQuiesce (t : Nat) (o : Origin) (win slot : Nat) (quiesce : Bool) (s : State) : Host.Outcome State Fault Refusal :=
  let s := s.advance t
  writeRow s o true ⟨win, slot⟩ Reg.HDR_PAGE_CTL (s.pageCtl ⟨win, slot⟩ 1 quiesce)

/-- PAGE_ENABLE (R354). -/
def execPageEnable (t : Nat) (o : Origin) (win slot : Nat) (s : State) : Host.Outcome State Fault Refusal :=
  let s := s.advance t
  writeRow s o true ⟨win, slot⟩ Reg.HDR_PAGE_CTL (s.pageCtl ⟨win, slot⟩ 0 true)

/-- PAGE_DISABLE (R354). -/
def execPageDisable (t : Nat) (o : Origin) (win slot : Nat) (s : State) : Host.Outcome State Fault Refusal :=
  let s := s.advance t
  writeRow s o true ⟨win, slot⟩ Reg.HDR_PAGE_CTL (s.pageCtl ⟨win, slot⟩ 0 false)

/-! ## Queues, counters and engines -/

/-- ARRAY_RESUME (R65): RESUME of array a of physical triad p. -/
def execArrayResume (t : Nat) (o : Origin) (q p a : Nat) (s : State) : Host.Outcome State Fault Refusal :=
  writeRow (s.advance t) o (decide (q < 4 ∧ p < 32 ∧ a < 3)) (qPage .array q p) (Reg.ARRAY_ARR_CTL + 0x40 * a) 1

/-- The offset of a register of queue n in its QRING page (R112). -/
def ringSlotReg (n k : Nat) : Nat := 0x100 + 16 * (n % 128) + k

/-- RING_TAIL_WRITE (R103). -/
def execRingTailWrite (t : Nat) (o : Origin) (q n : Nat) (v : Word) (s : State) : Host.Outcome State Fault Refusal :=
  writeRow (s.advance t) o (decide (q < 4 ∧ n < 256)) (qPage .qring q (n / 128)) (ringSlotReg n 4) v

/-- RING_CFG_WRITE (R103). -/
def execRingCfgWrite (t : Nat) (o : Origin) (q n : Nat) (v : Word) (s : State) : Host.Outcome State Fault Refusal :=
  writeRow (s.advance t) o (decide (q < 4 ∧ n < 256)) (qPage .qring q (n / 128)) (ringSlotReg n 0) v

/-- SIGNAL_COUNTER_WRITE (R113, R143): counter k of quarter q. -/
def execSignalCounterWrite (t : Nat) (o : Origin) (q k : Nat) (v : Word) (s : State) : Host.Outcome State Fault Refusal :=
  writeRow (s.advance t) o (decide (q < 4 ∧ k < 4096)) (qPage .signal q (k / 256)) (0x100 + 4 * (k % 256)) v

/-- The page of queue n's engine. -/
def enginePage (q n : Nat) : Page :=
  match engineOf n with
  | some (k, i) => qPage k q i
  | none => ⟨q, 0⟩

/-- ENGINE_RESUME (R115): RESUME of queue n's engine. -/
def execEngineResume (t : Nat) (o : Origin) (q n : Nat) (s : State) : Host.Outcome State Fault Refusal :=
  writeRow (s.advance t) o (decide (q < 4) && (engineOf n).isSome) (enginePage q n) Reg.ENG_ENG_CTL 1

/-- ENGINE_RETRY (R115): RETRY of queue n's engine. -/
def execEngineRetry (t : Nat) (o : Origin) (q n : Nat) (s : State) : Host.Outcome State Fault Refusal :=
  writeRow (s.advance t) o (decide (q < 4) && (engineOf n).isSome) (enginePage q n) Reg.ENG_ENG_CTL 2

/-! ## The step, leases, collectives, memory and the pod -/

/-- STEP_COUNT_WRITE (R142): ATTEMPT_LO, ATTEMPT_HI, COMMITTED_LO or COMMITTED_HI by its number k. -/
def execStepCountWrite (t : Nat) (o : Origin) (k : Nat) (v : Word) (s : State) : Host.Outcome State Fault Refusal :=
  writeRow (s.advance t) o (decide (k < 4)) (mPage .step) (Reg.STEP_ATTEMPT_LO + 4 * k) v

/-- Does a lease of that number exist (R157)? -/
def leaseExists (n : Nat) : Bool := decide (1 ≤ n ∧ n ≤ 240)

/-- LEASE_CLAIM (R159): CLAIM of lease n is set. -/
def execLeaseClaim (t : Nat) (o : Origin) (n : Nat) (s : State) : Host.Outcome State Fault Refusal :=
  writeRow (s.advance t) o (leaseExists n) (mPage .lease) (leaseReg Reg.LEASE_Ln_CTL n) 1

/-- LEASE_RELEASE (R159): CLAIM of lease n is cleared. -/
def execLeaseRelease (t : Nat) (o : Origin) (n : Nat) (s : State) : Host.Outcome State Fault Refusal :=
  writeRow (s.advance t) o (leaseExists n) (mPage .lease) (leaseReg Reg.LEASE_Ln_CTL n) 0

/-- LEASE_RANGE_WRITE (R159): L_COUNT or L_BASE of lease n. -/
def execLeaseRangeWrite (t : Nat) (o : Origin) (n : Nat) (count : Bool) (v : Word) (s : State) :
    Host.Outcome State Fault Refusal :=
  writeRow (s.advance t) o (leaseExists n) (mPage .lease)
    (leaseReg (if count then Reg.LEASE_Ln_COUNT else Reg.LEASE_Ln_BASE) n) v

/-- COLL_TOPOLOGY_WRITE (R199): SHAPE, POS, NEIGHi or TREE, by its offset. -/
def execCollTopologyWrite (t : Nat) (o : Origin) (off : Nat) (v : Word) (s : State) : Host.Outcome State Fault Refusal :=
  writeRow (s.advance t) o (decide (Reg.COLL_SHAPE ≤ off ∧ off ≤ Reg.COLL_TREE)) (mPage .coll) off v

/-- LINK_CHECK_START (R203). -/
def execLinkCheckStart (t : Nat) (o : Origin) (s : State) : Host.Outcome State Fault Refusal :=
  writeRow (s.advance t) o true (mPage .coll) Reg.COLL_CHECK 1

/-- REPAIR_GO (R224): GO of stack `slot` of quarter q. -/
def execRepairGo (t : Nat) (o : Origin) (q slot : Nat) (s : State) : Host.Outcome State Fault Refusal :=
  writeRow (s.advance t) o (decide (q < 4 ∧ slot < 8)) (qPage .nmem q slot) Reg.NMEM_REPAIR_CTL 1

/-- PORT_DISABLE (R266): ENABLE 0 of port Qq.d. -/
def execPortDisable (t : Nat) (o : Origin) (q d : Nat) (s : State) : Host.Outcome State Fault Refusal :=
  let s := s.advance t
  let p := qPage .fport q d
  writeRow s o (decide (q < 4 ∧ d < 6)) p Reg.FPORT_PORT_CTL (s.reg p Reg.FPORT_PORT_CTL &&& ~~~1#32)

/-- DISCOVERY_START (R259). -/
def execDiscoveryStart (t : Nat) (o : Origin) (s : State) : Host.Outcome State Fault Refusal :=
  writeRow (s.advance t) o true (mPage .pod) Reg.POD_POD_CMD 4

/-- PT_APPLY (R255). -/
def execPtApply (t : Nat) (o : Origin) (s : State) : Host.Outcome State Fault Refusal :=
  writeRow (s.advance t) o true (mPage .pod) Reg.POD_POD_CMD 2

/-- POD_CMD_CUT (R261). -/
def execPodCmdCut (t : Nat) (o : Origin) (s : State) : Host.Outcome State Fault Refusal :=
  writeRow (s.advance t) o true (mPage .pod) Reg.POD_POD_CMD 1

/-! ## Event rings, islands, power, starts and harts -/

/-- EVENT_RING_ENABLE (R310): EVRn_CFG is written with ENABLE set. -/
def execEventRingEnable (t : Nat) (o : Origin) (n : Nat) (v : Word) (s : State) : Host.Outcome State Fault Refusal :=
  writeRow (s.advance t) o (decide (n < 8)) (mPage .host) (ringReg Reg.HOST_EVRn_CFG n) (v ||| 0x80000000#32)

/-- EVENT_RING_QPN_WRITE (R310). -/
def execEventRingQpnWrite (t : Nat) (o : Origin) (n : Nat) (v : Word) (s : State) : Host.Outcome State Fault Refusal :=
  writeRow (s.advance t) o (decide (n < 8)) (mPage .host) (ringReg Reg.HOST_EVRn_QPN n) v

/-- The value of CLK_CMD (R329). -/
def clkCmd (op q i : Nat) : Word := BitVec.ofNat 32 (i % 128 + 256 * (q % 4) + 4096 * op)

/-- ISLAND_STOP (R320). -/
def execIslandStop (t : Nat) (o : Origin) (q i : Nat) (s : State) : Host.Outcome State Fault Refusal :=
  writeRow (s.advance t) o (decide (q < 4 ∧ i < 128)) (mPage .clkdir) Reg.CLKDIR_CLK_CMD (clkCmd 1 q i)

/-- ISLAND_START (R320). -/
def execIslandStart (t : Nat) (o : Origin) (q i : Nat) (s : State) : Host.Outcome State Fault Refusal :=
  writeRow (s.advance t) o (decide (q < 4 ∧ i < 128)) (mPage .clkdir) Reg.CLKDIR_CLK_CMD (clkCmd 2 q i)

/-- PWR_OFF (R414). -/
def execPwrOff (t : Nat) (o : Origin) (s : State) : Host.Outcome State Fault Refusal :=
  writeRow (s.advance t) o true (mPage .pwr) Reg.PWR_PWR_CMD 1

/-- BOOT_COLD (R429, R445). -/
def execBootCold (t : Nat) (o : Origin) (s : State) : Host.Outcome State Fault Refusal :=
  writeRow (s.advance t) o true (mPage .boot) Reg.BOOT_BOOT_CMD 2

/-- BOOT_WARM (R432, R445). -/
def execBootWarm (t : Nat) (o : Origin) (s : State) : Host.Outcome State Fault Refusal :=
  writeRow (s.advance t) o true (mPage .boot) Reg.BOOT_BOOT_CMD 1

/-- BOOT_UNPICK (R441, R445). -/
def execBootUnpick (t : Nat) (o : Origin) (s : State) : Host.Outcome State Fault Refusal :=
  writeRow (s.advance t) o true (mPage .boot) Reg.BOOT_BOOT_CMD 4

/-- CP_HALT (R472): RUN 0 of hart i of quarter q. -/
def execCpHalt (t : Nat) (o : Origin) (q i : Nat) (s : State) : Host.Outcome State Fault Refusal :=
  writeRow (s.advance t) o (decide (q < 4 ∧ i < 4)) (qPage .cp q i) Reg.CP_CP_CTL 0

/-- CP_RESET (R472): RESET of hart i of quarter q, with RUN as it is. -/
def execCpReset (t : Nat) (o : Origin) (q i : Nat) (s : State) : Host.Outcome State Fault Refusal :=
  let s := s.advance t
  writeRow s o (decide (q < 4 ∧ i < 4)) (qPage .cp q i) Reg.CP_CP_CTL
    (BitVec.ofNat 32 (s.field (qPage .cp q i) Reg.CP_CP_CTL 0 1 + 2))

end Sys2Proof.Machine
end

