-- ==== Sys2Proof/Machine/Remote.lean ====
section
/-! DEFINITION. Accesses that arrive from other modules and other sites (R158, R239, R249, R250, R273). -/

namespace Sys2Proof.Machine

/-! ## Register windows as addresses (R250, R347) -/

/-- Do `n` bytes at a local address lie in the register windows? -/
def inWindows (a n : Nat) : Bool := decide (windowBase ≤ a ∧ a + n ≤ windowBase + 0x5000000)

/-- Are they whole words (R361)? -/
def wholeWords (a n : Nat) : Bool := a % 4 == 0 && n % 4 == 0

/-- The page of an address in the register windows. -/
def addrPage (a : Nat) : Page := ⟨(a - windowBase) / 2 ^ 24, (a - windowBase) / 4096 % 4096⟩

/-- The register accesses of a read: one for each word, in increasing address (R305). -/
def regReads (o : Origin) (a n : Nat) : List Action :=
  (List.range (n / 4)).map (fun j => .reg { origin := o, page := addrPage (a + 4 * j), off := (a + 4 * j) % 4096, write := none })

/-- The register accesses of a write (R305). -/
def regWrites (o : Origin) (a : Nat) (bs : List Byte) : List Action :=
  (List.range (bs.length / 4)).map (fun j =>
    .reg { origin := o, page := addrPage (a + 4 * j), off := (a + 4 * j) % 4096
           write := some (BitVec.ofNat 32 (leNat ((bs.drop (4 * j)).take 4))) })

/-- May memory at a local address be reached from outside: populated, and not in the module-reserved area (R167, R208, R300)? -/
def memReach (a n : Nat) : Bool :=
  decide (a + n ≤ windowBase) && (n == 0 || (populated a n && !touchesReserved a n))

/-! ## Frames (R239, R250) -/

/-- The origin of a frame that may reach the register windows: VL 6, from the current lead or standby (R250). -/
def State.leadOrigin (s : State) (h : RxHdr) : Option Origin :=
  if h.vl = 6 ∧ (s.leadId = some h.src ∨ s.standbyId = some h.src) then some (.lead h.src) else none

/-- Where and from when a delivered access of n bytes at a local address is answered (R340, R341). -/
def State.answerTo (s : State) (h : RxHdr) (b : Body) (dst seg a n : Nat) (isWrite : Bool) : RespTo :=
  { vl := h.vl, q := h.q, dst := dst, seg := seg, due := s.released b + targetAclk h.q a n isWrite }

/-- A write of memory from another module: its answer waits with it on a lease (R158). -/
def State.remoteWrite (s : State) (f : RespTo) (a : Nat) (bs : List (Byte × Bool)) : State :=
  if s.writeWaits a bs.length then
    { s with leases := { s.leases with writes := s.leases.writes ++ [{ addr := a, bytes := bs, since := s.podCount, respond := some f }] } }
  else (s.writeMarked a bs).answerRemote f false []

/-- An atomic addition to 8 aligned bytes for another site (R270): one read and one merge write, answered with the value before it;
a write under a lease waits, and its value is that before the write (log entry 156). -/
def State.remoteAdd (s : State) (f : RespTo) (a v : Nat) : State :=
  let old := s.readMarked a 8
  let s := if (stackPlace a).isSome then s else s.noteRead a 8
  (s.memWrite none a ((leBytes 8 (leNat (old.map Prod.fst) + v)).map (fun b => (b, false)))).answerRemote f false old

/-- FRAME_WRITE (R239, R250, R251): delivered to its target, or forwarded. A write that memory or the windows do not take is
answered with an address error. -/
def execFrameWrite (t : Nat) (h : RxHdr) (seg : Nat) (rsig : Bool) (bytes : List (Byte × Bool)) (s : State) :
    Host.Outcome State Fault Refusal :=
  let r := (s.advance t).receive h (.write seg rsig bytes) false
  let s := r.1
  let a := h.dst % 2 ^ 45
  let f := s.answerTo h (.write seg rsig bytes) (h.src * 2 ^ 45) seg a bytes.length true
  if !r.2 then settled s
  else
    match s.leadOrigin h with
    | some o =>
      if inWindows a bytes.length && wholeWords a bytes.length then
        settled (s.request (regWrites o a (bytes.map Prod.fst) ++ [.answer o (.frame f)]))
      else if memReach a bytes.length then settled (s.request [.memWrite o a bytes, .answer o (.frame f)])
      else settled ((s.noteAddrError a).answerRemote f true [])
    | none => settled (if memReach a bytes.length then s.remoteWrite f a bytes else (s.noteAddrError a).answerRemote f true [])

/-- FRAME_READ_REQ (R239, R250): the target is read, and its data returned in a READ_RESP to the return address; `flips` are
upsets found at the read. -/
def execFrameReadReq (t : Nat) (h : RxHdr) (seg len ret : Nat) (flips : List (Nat × Nat)) (s : State) :
    Host.Outcome State Fault Refusal :=
  let r := ((s.advance t).upset flips).receive h (.readReq seg len ret) false
  let s := r.1
  let a := h.dst % 2 ^ 45
  let f := s.answerTo h (.readReq seg len ret) ret seg a len false
  if !r.2 then settled s
  else
    match s.leadOrigin h with
    | some o =>
      if inWindows a len && wholeWords a len then settled (s.request (regReads o a len ++ [.answer o (.frame f)]))
      else if memReach a len then settled (s.request [.memRead o a len, .answer o (.frame f)])
      else settled ((s.noteAddrError a).answerRemote f true [])
    | none =>
      settled (if memReach a len then (s.noteRead a len).answerRemote f false (s.readMarked a len)
        else (s.noteAddrError a).answerRemote f true [])

/-! ## Other sites (R249, R273) -/

/-- MIGRATION_QP_REQUEST (R269, R273): another site's RDMA request on quarter q's queue pair for that site reaches this module's
memory, or is relayed onto the fabric. Only an active module answers; register windows are refused. -/
def execMigrationQpRequest (t q site seg vl addr : Nat) (req : SiteRequest) (flips : List (Nat × Nat)) (s : State) :
    Host.Outcome State Fault Refusal :=
  let s := (s.advance t).upset flips
  if 4 ≤ q ∨ 8 ≤ site ∨ s.field (mPage .pod) Reg.POD_ROLE 2 2 ≠ 0 ∨ site = s.ownSite then settled s
  else
    let n := match req with
      | .write bs => bs.length
      | .read len => len
      | .sig _ _ | .fetchAdd _ => 0
    let s := (s.siteContact site).qpHeard q site (max 1 ((n + 4095) / 4096))
    let f : RespTo := { vl := vl, q := q, dst := addr, seg := seg, site := some site }
    match s.resolve addr, req with
    | .here a, .write bs =>
      settled (if memReach a bs.length then s.remoteWrite f a bs else (s.noteAddrError a).answerRemote f true [])
    | .here a, .read len =>
      settled (if memReach a len then (s.noteRead a len).answerRemote f false (s.readMarked a len)
        else (s.noteAddrError a).answerRemote f true [])
    | .here a, .fetchAdd v =>
      settled (if memReach a 8 && a % 8 == 0 then s.remoteAdd f a v else (s.noteAddrError a).answerRemote f true [])
    | .chip _, .fetchAdd _ => settled (s.answerRemote f true [])
    | .here _, .sig c r => settled ((s.incCounter (r % 4) (c % 4096) 1).answerRemote f false [])
    | .chip dst, .sig c r => settled ((s.sendTo vl q dst (.sig c r 1)).answerRemote f false [])
    | .chip dst, .write bs =>
      if windowBase ≤ dst % 2 ^ 45 then settled (s.answerRemote f true [])
      else settled (s.newSeg q relayQueue site seg .write vl (.chip dst) (fun id => .write id false bs)).answerRelays
    | .chip dst, .read len =>
      if windowBase ≤ dst % 2 ^ 45 then settled (s.answerRemote f true [])
      else settled (s.newSeg q relayQueue site seg .read vl (.chip dst)
        (fun id => .readReq id len (s.selfId * 2 ^ 45))).answerRelays
    | .fail c, _ => settled (s.emit (.siteAnswer q site seg c []))
    | .site _, _ => settled (s.answerRemote f true [])

end Sys2Proof.Machine
end

