-- ==== Sys2Proof/Machine/HostReq.lean ====
section
/-! DEFINITION. Host requests, connections, event rings and the site ports (R297 to R312, R376, R424). -/

namespace Sys2Proof.Machine

/-! ## Requests on a queue pair (R299, R300, R303 to R307) -/

/-- Where the PSN of a request stands to the one expected (R304, R305). -/
inductive Turn where
  | fresh
  | again
  | ahead
  deriving DecidableEq, Repr

/-- The turn of a PSN: PSNs count modulo 2²⁴. -/
def HostQp.turn (x : HostQp) (psn : Nat) : Turn :=
  let d := if x.psn ≤ psn then psn - x.psn else psn + 2 ^ 24 - x.psn
  if d = 0 then .fresh else if d < 2 ^ 23 then .ahead else .again

/-- The packets of a request or its answer: one at least. -/
def HostQp.packets (x : HostQp) (len : Nat) : Nat := max 1 ((len + x.mtu - 1) / max 1 x.mtu)

/-- A CE-marked packet is answered with a CNP, at most one in CNP_GAP (R309). -/
def State.noteCe (s : State) (k : Nat) (ce : Bool) : State :=
  let h := mPage .host
  match s.hostQp k with
  | none => s
  | some x =>
    if ce && s.bit h Reg.HOST_ECN_CTL 1 && x.cnpAt.all (fun a => decide (a + 3600 * s.field h Reg.HOST_ECN_CTL 8 8 ≤ s.now)) then
      (s.setHostQp k { x with cnpAt := some s.now }).emit (.cnp k)
    else s

/-- May a queue pair write, or read, MEM (R303)? -/
def HostQp.mayMem (x : HostQp) (write : Bool) : Bool :=
  (x.role == 0 && !x.recovery) || (x.role == 2 && (write || !x.recovery))

/-- May a queue pair write, or read, these bytes of REG (R303): in recovery, BOOT_CMD may be written? -/
def HostQp.mayReg (x : HostQp) (a n : Nat) (write : Bool) : Bool :=
  x.role == 0 && inWindows a n && wholeWords a n &&
  (!x.recovery || (write && n == 4 && addrPage a == mPage .boot && a % 4096 == Reg.BOOT_BOOT_CMD))

/-- The rkeys of MEM and REG (R303). -/
def memKey : Nat := 0x102
/-- The rkey of REG. -/
def regKey : Nat := 0x101

/-- READ and atomic requests of an origin that wait for their answers (R299). -/
def State.readsWaiting (s : State) (o : Origin) : Nat :=
  (s.clk.stalled.filter (fun a => match a with
    | .answer p (.host _ true _ _) => p == o
    | _ => false)).length

/-- A request on a host queue pair: in its turn it takes its PSNs and is performed; a duplicate is answered again; one ahead of
its turn is dropped. A READ beyond the 16 outstanding is invalid (R299). -/
def State.hostRequest (s : State) (port i psn len : Nat) (ce read : Bool) (acts : HostQp → Option (List Action))
    (again : HostQp → State → State) : State :=
  let k := qpKey port i
  let o : Origin := .host port i
  if 4 ≤ port ∨ 16 ≤ i then s
  else
    let s := s.noteCe k ce
    match s.hostQp k with
    | none => s
    | some x =>
      match x.turn psn with
      | .ahead => s
      | .again => again x s
      | .fresh =>
        let l := if read && decide (16 ≤ s.readsWaiting o) then [.answer o (.nak psn false)]
          else (acts x).getD [.answer o (.nak psn true)]
        (s.setHostQp k { x with psn := (psn + x.packets len) % 2 ^ 24 }).request l

/-- A duplicate write is acknowledged again unless it still waits. -/
def writeAgain (o : Origin) (k psn : Nat) (_x : HostQp) (s : State) : State :=
  if s.blocked o then s else s.emit (.hostReply k psn .ack)

/-- A duplicate read is answered from the store, from the packet that its PSN names (R305). -/
def readAgain (k psn len : Nat) (x : HostQp) (s : State) : State :=
  let from_ (e : Nat × List (Byte × Bool)) : Nat := (psn + 2 ^ 24 - e.1) % 2 ^ 24 * x.mtu
  match x.answers.find? (fun e => decide (from_ e < max 1 e.2.length)) with
  | none => s
  | some e => s.emit (.hostReply k psn (.data ((e.2.drop (from_ e)).take len)))

/-- The pieces of a READ or an atomic with its answer: memory's packet is accepted once its data has come, and a register's
response follows its data (R343, R344). -/
def State.hostRead (s : State) (port i psn : Nat) (reg : Bool) (l : List Action) : List Action :=
  let path := s.hostReadAclk port l
  l ++ [.answer (.host port i) (.host psn true true (if reg then 360 + path + 396 else path + 540))]

/-- HOST_MEM_WRITE (R158, R300, R303, R304): an RDMA WRITE to MEM. -/
def execHostMemWrite (t port i psn rkey a : Nat) (bytes : List Byte) (ce : Bool) (s : State) : Host.Outcome State Fault Refusal :=
  let o : Origin := .host port i
  settled ((s.advance t).hostRequest port i psn bytes.length ce false
    (fun x => if rkey = memKey ∧ x.mayMem true ∧ memReach a bytes.length then
        some [.memWrite o a (bytes.map (fun b => (b, false))), .answer o (.host psn false false 0)] else none)
    (writeAgain o (qpKey port i) psn))

/-- HOST_MEM_READ (R300, R303, R304): an RDMA READ of MEM; `flips` are upsets found at the read. -/
def execHostMemRead (t port i psn rkey a len : Nat) (ce : Bool) (flips : List (Nat × Nat)) (s : State) :
    Host.Outcome State Fault Refusal :=
  let o : Origin := .host port i
  settled (((s.advance t).upset flips).hostRequest port i psn len ce true
    (fun x => if rkey = memKey ∧ x.mayMem false ∧ memReach a len then
        some (s.hostRead port i psn false [.memRead o a len]) else none)
    (readAgain (qpKey port i) psn len))

/-- HOST_REG_WRITE (R300, R303, R305): one register write for each word. -/
def execHostRegWrite (t port i psn rkey a : Nat) (bytes : List Byte) (ce : Bool) (s : State) : Host.Outcome State Fault Refusal :=
  let o : Origin := .host port i
  settled ((s.advance t).hostRequest port i psn bytes.length ce false
    (fun x => if rkey = regKey ∧ x.mayReg a bytes.length true then
        some (regWrites o a bytes ++ [.answer o (.host psn false false 0)]) else none)
    (writeAgain o (qpKey port i) psn))

/-- HOST_REG_READ (R300, R303, R305): each word is read once, and duplicates are answered from the store. -/
def execHostRegRead (t port i psn rkey a len : Nat) (ce : Bool) (s : State) : Host.Outcome State Fault Refusal :=
  let o : Origin := .host port i
  settled ((s.advance t).hostRequest port i psn len ce true
    (fun x => if rkey = regKey ∧ x.mayReg a len false then some (s.hostRead port i psn true (regReads o a len)) else none)
    (readAgain (qpKey port i) psn len))

/-- HOST_FETCH_ADD (R303, R306): an atomic addition to 8 aligned bytes of MEM. -/
def execHostFetchAdd (t port i psn rkey a v : Nat) (ce : Bool) (flips : List (Nat × Nat)) (s : State) :
    Host.Outcome State Fault Refusal :=
  let o : Origin := .host port i
  settled (((s.advance t).upset flips).hostRequest port i psn 8 ce true
    (fun x => if rkey = memKey ∧ x.mayMem true ∧ (x.mayMem false ∧ a % 8 = 0) ∧ memReach a 8 then
        some (s.hostRead port i psn false [.fetchAdd o a v]) else none)
    (readAgain (qpKey port i) psn 8))

/-- The TAIL write of a doorbell (R307): refused with reserved bits set, or for a queue number without a queue. -/
def doorbell (o : Origin) (imm : Word) : RegAccess :=
  let v := imm.toNat
  let n := bitsOf v 22 8
  { origin := o, page := qPage .qring (bitsOf v 30 2) (n / 128), off := ringSlotReg n 4, write := some (BitVec.ofNat 32 (v % 65536))
    doorbell := true, refuse := bitsOf v 16 6 != 0 || !queueExists n }

/-- HOST_DOORBELL (R303, R307): an RDMA WRITE with immediate to MEM. On a CONTROL queue pair its payload is followed by the TAIL
write; on a BULK queue pair the immediate names nothing. -/
def execHostDoorbell (t port i psn rkey a : Nat) (bytes : List Byte) (imm : Word) (ce : Bool) (s : State) :
    Host.Outcome State Fault Refusal :=
  let o : Origin := .host port i
  settled ((s.advance t).hostRequest port i psn bytes.length ce false
    (fun x => if rkey = memKey ∧ x.mayMem true ∧ memReach a bytes.length then
        some ((if bytes.isEmpty then [] else [.memWrite o a (bytes.map (fun b => (b, false)))]) ++
          (if x.role = 0 then [.reg (doorbell o imm)] else []) ++ [.answer o (.host psn false false 0)])
      else none)
    (writeAgain o (qpKey port i) psn))

/-- HOST_QP_ERROR (R300): a queue pair enters error: it counts in QP_ERR and is torn down. -/
def execHostQpError (t port i : Nat) (s : State) : Host.Outcome State Fault Refusal :=
  let s := s.advance t
  if (s.hostQp (qpKey port i)).isNone ∨ 16 ≤ i then done s
  else settled (((s.addSat (mPage .host) Reg.HOST_QP_ERR 1).raise (mPage .host) 2).tearDown (qpKey port i)).proceed

/-! ## Connections (R299, R301 to R303) -/

/-- Is port Sq up (R312)? -/
def State.sitePortUp (s : State) (q : Nat) : Bool := decide (q < 4) && s.bit (mPage .host) Reg.HOST_HOST_STS (1 + q)

/-- Is a REQ of a role that names a session accepted (R301 to R303)? The answer's second part says whether the queue pair is
one that recovery allows. -/
def State.roleOk (s : State) (role session : Nat) : Bool × Bool :=
  let live := s.session session
  if s.owned then ((role == 3 && session == 0) || live.any s.ownerSession, false)
  else if role = 3 then (true, false)
  else if s.recovering && (role == 0 || role == 2) then (live.any (fun x => x.open_ && x.owner.isSome), true)
  else (false, false)

/-- CM_CONNECT_REQUEST (R299, R301 to R303): accepted by role, ownership and session, within the limits; `zero` says that the
reserved bytes of the private data are 0, and `psn` is the first PSN that the requester will use. -/
def execCmConnectRequest (t port role session mtu psn peer timeout retries rnr : Nat) (zero : Bool) (s : State) :
    Host.Outcome State Fault Refusal :=
  let s := s.advance t
  let free := (List.range 16).find? (fun i => (s.hostQp (qpKey port i)).isNone)
  let ok := s.roleOk role session
  if !s.sitePortUp port then done s
  else if !s.bit (mPage .host) Reg.HOST_HOST_CTL 0 || decide (3 < role) || !zero || !(mtu == 1024 || mtu == 2048 || mtu == 4096) then
    let r := s.freshFree
    done (r.2.emit (.cmReject port r.1))
  else if !ok.1 then done (s.emit (.cmReject port 28))
  else
    match free with
    | none => let r := s.freshFree; done (r.2.emit (.cmReject port r.1))
    | some i =>
      let x : HostQp := { role := role, session := session, peer := peer, mtu := mtu, timeout := timeout, retries := retries, rnr := rnr
                          psn := psn % 2 ^ 24, recovery := ok.2, cutAt := s.now, decayAt := s.now }
      done ({ s with host := { s.host with qps := s.host.qps ++ [(qpKey port i, x)] } }.emit (.cmAccept port (0x100 + qpKey port i)))

/-- CM_DISCONNECT_REQUEST (R302): the queue pair is torn down, with the session and rings that depend on it. -/
def execCmDisconnectRequest (t port i : Nat) (s : State) : Host.Outcome State Fault Refusal :=
  let s := s.advance t
  if 16 ≤ i then done s else settled (s.tearDown (qpKey port i)).proceed

/-! ## Datagrams and addresses (R269, R298, R311) -/

/-- The 64 bytes of the IDENTIFY response (R311). -/
def State.identifyBytes (s : State) (nonce : Nat) : List Byte :=
  leBytes 1 2 ++ leBytes 1 (flag s.owned 0 + flag (s.phase == 10) 1 + flag s.recovering 2 + flag s.strapErr 3) ++ leBytes 2 1 ++
  leBytes 4 (s.num (mPage .pod) Reg.POD_SELF_ID) ++ leBytes 4 (s.num (mPage .pod) Reg.POD_ROLE) ++
  leBytes 4 (s.value (mPage .sec) (Reg.SEC_IMGc_VER + 4)).toNat ++ leBytes 4 (s.value (mPage .sec) Reg.SEC_IMGc_VER).toNat ++
  leBytes 4 (s.num (mPage .modid) Reg.MODID_PART) ++ leBytes 8 nonce ++ List.replicate 32 0

/-- IDENTIFY (R311): a REQUEST is answered to its source; any other code is dropped. -/
def execIdentify (t port code nonce : Nat) (s : State) : Host.Outcome State Fault Refusal :=
  let s := s.advance t
  if s.sitePortUp port && code == 1 then done (s.emit (.identify port (s.identifyBytes nonce))) else done s

/-- The modified EUI-64 interface ID of port Sq. -/
def State.interfaceId (s : State) (q : Nat) : Nat :=
  let m := s.mac q
  (m / 2 ^ 24 ^^^ 0x020000) * 2 ^ 40 + 0xFFFE * 2 ^ 24 + m % 2 ^ 24

/-- The addresses that port Sq holds: IPv6, or IPv4 (R269, R298). -/
def State.addresses (s : State) (q : Nat) (v4 : Bool) : List Nat :=
  let h := mPage .host
  if v4 then (if s.num h (Reg.HOST_IPV4_Sq + 4 * q) = 0 then [] else [s.num h (Reg.HOST_IPV4_Sq + 4 * q)])
  else
    let net := s.num64 h (Reg.HOST_HPFX_Sq_LO + 8 * q) (Reg.HOST_HPFX_Sq_HI + 8 * q)
    (0xFE80 * 2 ^ 112 + s.interfaceId q) :: ((if net = 0 then [] else [net * 2 ^ 64 + s.interfaceId q]) ++ (s.migrationAddr q).toList)

/-- NEIGHBOR_SOLICIT (R298): a Neighbor Solicitation, or ARP, for an address that the port holds is answered. -/
def execNeighborSolicit (t port addr : Nat) (v4 : Bool) (s : State) : Host.Outcome State Fault Refusal :=
  let s := s.advance t
  if s.sitePortUp port && (s.addresses port v4).contains addr then done (s.emit (.neighbor port addr (s.mac port))) else done s

/-- ROUTER_ADVERTISEMENT (R298): the port forms its address from the advertised prefix. -/
def execRouterAdvertisement (t port prefix_ : Nat) (s : State) : Host.Outcome State Fault Refusal :=
  let s := s.advance t
  if s.sitePortUp port then
    done (s.setNum64 (mPage .host) (Reg.HOST_HPFX_Sq_LO + 8 * port) (Reg.HOST_HPFX_Sq_HI + 8 * port) (prefix_ % 2 ^ 64))
  else done s

/-- DHCPV4_REPLY (R298): with IPV4_EN set the port takes one IPv4 address. -/
def execDhcpv4Reply (t port addr : Nat) (s : State) : Host.Outcome State Fault Refusal :=
  let s := s.advance t
  if s.sitePortUp port && s.bit (mPage .host) Reg.HOST_HOST_CTL 1 then
    done (s.setNum (mPage .host) (Reg.HOST_IPV4_Sq + 4 * port) (addr % 2 ^ 32))
  else done s

/-- SITE_PORT_LINK_UP (R297): the port has trained, once its island runs. -/
def execSitePortLinkUp (t port : Nat) (s : State) : Host.Outcome State Fault Refusal :=
  let s := s.advance t
  if port < 4 ∧ s.island port 95 ≤ 1 then done (s.setBit (mPage .host) Reg.HOST_HOST_STS (1 + port) true).movePtp else done s

/-- SITE_PORT_LINK_DOWN (R297): the port's link is lost; PTP and keep-alives move to the next port that is up, which is the
port that they leave by (R272, R295). -/
def execSitePortLinkDown (t port : Nat) (s : State) : Host.Outcome State Fault Refusal :=
  let s := s.advance t
  if port < 4 then
    let s : State := { s with host := { s.host with paused := mapSet (fun _ => 0) s.host.paused port 0 } }
    done (s.setBit (mPage .host) Reg.HOST_HOST_STS (1 + port) false).movePtp
  else done s

/-- PFC_PAUSE_FRAME (R308): the priorities that a PFC frame pauses on a port, of those that QOS_PFC sets; never 6. -/
def execPfcPauseFrame (t port mask : Nat) (s : State) : Host.Outcome State Fault Refusal :=
  let s := s.advance t
  if s.sitePortUp port then
    let m := mask % 64 &&& s.field (mPage .host) Reg.HOST_QOS_PFC 0 6
    done { s with host := { s.host with paused := mapSet (fun _ => 0) s.host.paused port m } }
  else done s

/-! ## ECN (R309) -/

/-- A dyadic number, reduced. -/
def Dyadic.reduce : Nat → Dyadic → Dyadic
  | 0, x => x
  | n + 1, x => if x.e = 0 ∨ x.m % 2 = 1 then x else Dyadic.reduce n { m := x.m / 2, e := x.e - 1 }

/-- The rate after a cut by α: rate × (1 − α/2), at least 1 Gb/s. -/
def Dyadic.cut (rate alpha : Dyadic) : Dyadic :=
  let m := rate.m * (2 ^ (alpha.e + 1) - alpha.m)
  let e := rate.e + alpha.e + 1
  if m < 2 ^ e then { m := 1, e := 0 } else Dyadic.reduce e { m := m, e := e }

/-- CNP_RECEIVE (R309): α rises and the rate is cut. An EVENT queue pair within TC2's reserved share (`within`) is exempt;
`ce` says that the packet was itself CE-marked. -/
def execCnpReceive (t port i : Nat) (within ce : Bool) (s : State) : Host.Outcome State Fault Refusal :=
  let s := s.advance t
  if 4 ≤ port ∨ 16 ≤ i then done s
  else
    let k := qpKey port i
    let s := s.noteCe k ce
    match s.hostQp k with
    | none => done s
    | some x =>
      if !s.bit (mPage .host) Reg.HOST_ECN_CTL 0 || (x.role == 1 && within) then done s
      else
        let a : Dyadic := Dyadic.reduce (x.alpha.e + 5) { m := 16 * x.alpha.m + 2 ^ x.alpha.e, e := x.alpha.e + 5 }
        done (s.setHostQp k { x with alpha := a, rate := x.rate.cut a, cutAt := s.now, decayAt := s.now })

/-- ECN_RATE_TIMER (R309): 55 µs without a CNP, or since the last cut, α decays and the rate rises. -/
def execEcnRateTimer (t port i : Nat) (s : State) : Host.Outcome State Fault Refusal :=
  let s := s.advance t
  match s.hostQp (qpKey port i) with
  | none => done s
  | some x =>
    if 16 ≤ i ∨ !s.bit (mPage .host) Reg.HOST_ECN_CTL 0 ∨ s.now < x.decayAt + 198000 then done s
    else
      let up : Nat := x.rate.m + 5 * 2 ^ x.rate.e
      let rate : Dyadic := if 200 * 2 ^ x.rate.e < up then { m := 200, e := 0 } else { m := up, e := x.rate.e }
      done (s.setHostQp (qpKey port i) { x with
        alpha := Dyadic.reduce (x.alpha.e + 5) { m := 31 * x.alpha.m, e := x.alpha.e + 5 }, rate := rate, decayAt := s.now })

/-! ## Event rings (R310, R376) -/

/-- Is a priority paused on a port (R308)? -/
def State.priorityPaused (s : State) (port p : Nat) : Bool := bitAt (mapGet (fun _ => 0) s.host.paused port) p

/-- Has ring n a record that fits and could be sent now? -/
def State.ringReady (s : State) (n : Nat) : Bool :=
  s.ringOn n && !s.ringIsDown n && (s.ringQp n).isSome && (match s.ringNext n with
    | none => false
    | some r => decide ((s.ring n).prod + r.bytes.length ≤ (s.ring n).cons + 2 ^ bitsOf (s.ringCfg n) 0 5))

/-- How far ring n stands behind others of its port: its class, and among journals the quarter in turn (R380). -/
def State.ringRank (s : State) (n port : Nat) : Nat :=
  let cfg := s.ringCfg n
  let turn := mapGet (fun _ => 0) s.host.turns port
  16 * bitsOf cfg 5 3 + (if bitsOf cfg 5 3 = 1 then (bitsOf cfg 8 2 + 4 - turn) % 4 else 0)

/-- Does a ring of a higher class, or of a quarter whose turn comes first, send before ring n on its port (R380)? -/
def State.ringYields (s : State) (n port : Nat) : Bool :=
  (List.range 8).any (fun m => m != n && s.ringReady m && (s.ringQp m).any (fun k => k / 16 == port) &&
    decide (s.ringRank m port < s.ringRank n port))

/-- The quarter after the one of journal ring n has the next turn on a port (R380). -/
def State.passTurn (s : State) (n port : Nat) : State :=
  if bitsOf (s.ringCfg n) 5 3 = 1 then
    { s with host := { s.host with turns := mapSet (fun _ => 0) s.host.turns port ((bitsOf (s.ringCfg n) 8 2 + 1) % 4) } }
  else s

/-- EVENT_RECORD_SEND (R310, R380): the waiting records that fit are written into ring n, and then PROD, once no ring of a higher
class on its port has one to send. A port on which priority 5 is paused sends none (R308). -/
def execEventRecordSend (t n : Nat) (s : State) : Host.Outcome State Fault Refusal :=
  let s := s.advance t
  if 8 ≤ n ∨ !s.ringOn n ∨ s.ringIsDown n then done s
  else
    match s.ringQp n with
    | none => done s
    | some k =>
      if s.priorityPaused (k / 16) 5 || s.ringYields n (k / 16) then done s
      else
        let r := s.ringSend 131072 n k
        done (if (r.ring n).prod = (s.ring n).prod then r else (r.writeProd n k (r.ring n).prod).passTurn n (k / 16))

/-- EVENT_PROD_ACK (R310, R376): a PROD write is acknowledged; HOST_SEQ of a journal ring advances, and entries retire. -/
def execEventProdAck (t n prod : Nat) (s : State) : Host.Outcome State Fault Refusal :=
  let s := s.advance t
  let x := s.ring n
  if 8 ≤ n ∨ !s.ringOn n ∨ prod ≤ x.acked ∨ x.prod < prod then done s
  else
    let acked := x.unacked.takeWhile (fun u => decide (u.2 ≤ prod))
    let s := s.setRing n { x with acked := prod, unacked := x.unacked.dropWhile (fun u => decide (u.2 ≤ prod)) }
    let q := bitsOf (s.ringCfg n) 8 2
    match (acked.getLast?.map (fun u => u.1.seq)).join with
    | none => done s
    | some m => done ((s.setJournal q { s.journal q with hostSeq := some m }).retire q)

/-- EVENT_CONS_REREAD (R310): a ring in which a record does not fit reads CONS again, 50 µs after the last answer; `answer` is
the CONS that the read delivers. -/
def execEventConsReread (t n : Nat) (answer : Option Nat) (s : State) : Host.Outcome State Fault Refusal :=
  let s := s.advance t
  let x := s.ring n
  if 8 ≤ n ∨ !s.ringOn n ∨ s.ringIsDown n then done s
  else
    match answer, s.ringQp n with
    | some c, _ =>
      if x.rereading then done (s.setRing n { x with cons := c, readAt := some s.now, rereading := false }) else done s
    | none, some k =>
      if x.full && !x.rereading && x.readAt.all (fun a => decide (a + 180000 ≤ s.now)) then done (s.readCons n k) else done s
    | none, none => done s

/-- EVENT_QP_DOWN (R310): the queue pair of ring n fails. -/
def execEventQpDown (t n : Nat) (s : State) : Host.Outcome State Fault Refusal :=
  let s := s.advance t
  if decide (n < 8) && s.ringOn n && !s.ringIsDown n then done (s.ringDown n) else done s

/-! ## The sideband's registers (R362, R424) -/

/-- SMB_REG_READ (R424): NAKed without a path to the registers, or while a write is pending. -/
def execSmbRegRead (t : Nat) (s : State) : Host.Outcome State Fault Refusal :=
  let s := s.advance t
  if !s.power.aon then done s
  else if !s.busUp || s.power.pending then done (s.emit .smbNak)
  else
    settled (s.request [.reg { origin := .sideband, page := mPage .pwr, off := s.power.regAddr, write := none },
      .answer .sideband (.sideband true)])

/-- SMB_REG_WRITE (R423, R424): performed after the STOP and journalled from the sideband; a wrong PEC discards it. -/
def execSmbRegWrite (t : Nat) (v : Word) (pec : Bool) (s : State) : Host.Outcome State Fault Refusal :=
  let s := s.advance t
  if !s.power.aon then done s
  else if !s.busUp || s.power.pending then done (s.emit .smbNak)
  else if !pec then done ((s.raise (mPage .pwr) 5).emit .smbNak)
  else
    let s : State := { s with power := { s.power with pending := true } }
    settled ((s.emit .smbAck).request [.reg { origin := .sideband, page := mPage .pwr, off := s.power.regAddr, write := some v },
      .answer .sideband (.sideband false)])

end Sys2Proof.Machine
end

