-- ==== Sys2Proof/Machine/Spdm.lean ====
section
/-! DEFINITION. SPDM, module messages, reports, staged images and floors (R301, R475, R479 to R488). -/

namespace Sys2Proof.Machine

/-! ## SPDM in the clear (R481, R482): codes of DMTF SPDM 1.3 -/

/-- Is it an established MGMT queue pair? -/
def State.mgmtQp (s : State) (port i : Nat) : Bool :=
  decide (port < 4 ∧ i < 16) && (s.hostQp (qpKey port i)).any (fun x => x.role == 3)

/-- How far the connection of a queue pair has negotiated: 1 version, 2 capabilities, 3 algorithms. -/
def State.vcaOf (s : State) (k : Nat) : Nat := mapGet (fun _ => 0) s.sec.vca k
/-- Set how far it has negotiated. -/
def State.setVca (s : State) (k n : Nat) : State := { s with sec := { s.sec with vca := mapSet (fun _ => 0) s.sec.vca k n } }

/-- Answer an SPDM request: on a MGMT queue pair, of version 1.3, in its order of negotiation; `bad` is an error code of the
request itself, 0 for none. -/
def State.spdm (s : State) (port i ver need bad : Nat) (respond : Nat → State → State) : State :=
  let k := qpKey port i
  if !s.mgmtQp port i then s
  else if ver ≠ 0x13 then s.emit (.spdmError k 0x41)
  else if s.vcaOf k < need then s.emit (.spdmError k 0x04)
  else if bad ≠ 0 then s.emit (.spdmError k bad)
  else respond k s

/-- The response to a request code, with a body that DMTF lays out: a free value of what it depends on. -/
def State.spdmAnswer (s : State) (k code : Nat) (about : List Byte) : State := s.emit (.spdm k code (Config.spdmBody code about))

/-- SPDM_GET_VERSION (R482): the negotiation of the connection begins anew. GET_VERSION itself is sent as version 1.0. -/
def execSpdmGetVersion (t port i : Nat) (s : State) : Host.Outcome State Fault Refusal :=
  done ((s.advance t).spdm port i 0x13 0 0 (fun k s => (s.setVca k 1).spdmAnswer k 0x84 []))

/-- SPDM_GET_CAPABILITIES (R482). -/
def execSpdmGetCapabilities (t port i ver : Nat) (s : State) : Host.Outcome State Fault Refusal :=
  done ((s.advance t).spdm port i ver 1 0 (fun k s => (s.setVca k 2).spdmAnswer k 0xE1 []))

/-- SPDM_NEGOTIATE_ALGORITHMS (R482): `offered` says whether the requester offers the one set of algorithms that there is. -/
def execSpdmNegotiateAlgorithms (t port i ver : Nat) (offered : Bool) (s : State) : Host.Outcome State Fault Refusal :=
  done ((s.advance t).spdm port i ver 2 (if offered then 0 else 0x01) (fun k s => (s.setVca k 3).spdmAnswer k 0xE3 []))

/-- SPDM_GET_DIGESTS (R476, R482): the digest of the chain in slot 0. -/
def execSpdmGetDigests (t port i ver : Nat) (s : State) : Host.Outcome State Fault Refusal :=
  done ((s.advance t).spdm port i ver 3 0 (fun k s => s.spdmAnswer k 0x81 (digestBytes s.chainDigest)))

/-- SPDM_GET_CERTIFICATE (R476, R482): the named part of the chain in slot 0; slots 1 to 7 are empty. -/
def execSpdmGetCertificate (t port i ver slot offset length : Nat) (s : State) : Host.Outcome State Fault Refusal :=
  done ((s.advance t).spdm port i ver 3 (if slot = 0 then 0 else 0x01) (fun k s =>
    s.spdmAnswer k 0x82 (leBytes 2 offset ++ leBytes 2 length ++ ((chainBytes s.sec.chain).drop offset).take length)))

/-- SPDM_CHALLENGE (R482). -/
def execSpdmChallenge (t port i ver slot : Nat) (nonce : List Byte) (s : State) : Host.Outcome State Fault Refusal :=
  done ((s.advance t).spdm port i ver 3 (if slot = 0 then 0 else 0x01) (fun k s => s.spdmAnswer k 0x83 nonce))

/-- The measurements of an index: MR(n − 1) for 1 to 7, all of them for 0xFF (R482). -/
def State.measurements (s : State) (index : Nat) : List Byte :=
  if index = 0xFF then (List.range 7).flatMap (fun n => digestBytes (s.mr n))
  else if 1 ≤ index ∧ index ≤ 7 then digestBytes (s.mr (index - 1)) else []

/-- SPDM_GET_MEASUREMENTS (R482): index 0 asks for their number. -/
def execSpdmGetMeasurements (t port i ver index : Nat) (signed : Bool) (nonce : List Byte) (s : State) :
    Host.Outcome State Fault Refusal :=
  done ((s.advance t).spdm port i ver 3 (if index ≤ 7 ∨ index = 0xFF then 0 else 0x01) (fun k s =>
    s.spdmAnswer k 0xE0 (leBytes 1 index ++ leBytes 1 (flag signed 0) ++ nonce ++ s.measurements index)))

/-! ## Sessions (R482) -/

/-- SPDM_KEY_EXCHANGE (R482): a session begins; at most four are kept. -/
def execSpdmKeyExchange (t port i ver slot : Nat) (request : List Byte) (s : State) : Host.Outcome State Fault Refusal :=
  let s := s.advance t
  let bad := if slot ≠ 0 then 0x01 else if 4 ≤ s.sec.sessions.length then 0x0A else 0
  done (s.spdm port i ver 3 bad (fun k s =>
    let x : Session := { id := s.sec.nextSession, qp := k, beatAt := s.now }
    let s : State := { s with sec := { s.sec with sessions := s.sec.sessions ++ [x], nextSession := s.sec.nextSession + 1 } }
    s.spdmAnswer k 0xE4 (leBytes 4 x.id ++ request)))

/-- Replace a session. -/
def State.setSession (s : State) (x : Session) : State :=
  { s with sec := { s.sec with sessions := s.sec.sessions.map (fun y => if y.id = x.id then x else y) } }

/-- SPDM_FINISH (R482, R488): the handshake of a session completes; `leaf` is the digest of the requester's leaf key where it
authenticates itself. A certificate, signature or verification data that fails ends it. -/
def execSpdmFinish (t session : Nat) (leaf : Option (BitVec 384)) (ok : Bool) (s : State) : Host.Outcome State Fault Refusal :=
  let s := s.advance t
  let p := mPage .sec
  match s.session session with
  | none => done s
  | some x =>
    if x.open_ then done (s.emit (.spdmError x.qp 0x04))
    else if !ok then
      done ((((s.endSessions (fun y => y.id == session)).addSat p Reg.SEC_SPDM_FAILS 1).raise p 6).emit (.spdmError x.qp 0x06))
    else done ((s.setSession { x with open_ := true, owner := leaf, beatAt := s.now }).spdmAnswer x.qp 0xE5 (leBytes 4 session))

/-- A request inside an open session. -/
def State.inSession (s : State) (session : Nat) (f : Session → State → State) : State :=
  match s.session session with
  | none => s
  | some x => if x.open_ then f x s else s

/-- SPDM_HEARTBEAT (R482). -/
def execSpdmHeartbeat (t session : Nat) (s : State) : Host.Outcome State Fault Refusal :=
  done ((s.advance t).inSession session (fun x s => (s.setSession { x with beatAt := s.now }).spdmAnswer x.qp 0xE8 (leBytes 4 session)))

/-- SPDM_KEY_UPDATE (R482): the keys of a session are no state of the model. -/
def execSpdmKeyUpdate (t session op : Nat) (s : State) : Host.Outcome State Fault Refusal :=
  done ((s.advance t).inSession session (fun x s => s.spdmAnswer x.qp 0xE9 (leBytes 4 session ++ leBytes 1 op)))

/-- SPDM_END_SESSION (R482). -/
def execSpdmEndSession (t session : Nat) (s : State) : Host.Outcome State Fault Refusal :=
  done ((s.advance t).inSession session (fun x s => (s.endSessions (fun y => y.id == session)).spdmAnswer x.qp 0xEC (leBytes 4 session)))

/-- SPDM_HEARTBEAT_TIMEOUT (R482): a session whose heartbeat has not come for its period of 10 s ends. -/
def execSpdmHeartbeatTimeout (t session : Nat) (s : State) : Host.Outcome State Fault Refusal :=
  let s := s.advance t
  done (s.inSession session (fun x s =>
    if x.beatAt + 36000000000 ≤ s.now then s.endSessions (fun y => y.id == session) else s))

/-! ## Module messages (R301, R480, R483) -/

/-- The response to a module message. -/
def State.message (s : State) (session code status : Nat) (body : List Byte := []) : State :=
  s.emit (.message session code status body)

/-- CLAIM (R301, R480, R483): a mutually authenticated session claims the module; a live owner's claim stands against every
other identity. A module in recovery answers none of CLAIM, RELEASE and FW_RAISE_FLOOR (R487; log entry 146). -/
def execClaimOwner (t session : Nat) (s : State) : Host.Outcome State Fault Refusal :=
  done ((s.advance t).inSession session (fun x s =>
    if s.recovering then s
    else match x.owner with
    | none => s.message session 0x81 0x0A
    | some d =>
      if s.owned && s.ownerDig != d then s.message session 0x81 0x0A
      else
        let h := mPage .host
        ((((s.setOwnerDig d).setBit h Reg.HOST_HOST_STS 0 true).raise h 0).extend 6 (digestBytes d)).message session 0x81 0))

/-- RELEASE (R301, R483): an owner session's RELEASE is journalled as a write of HOST_CMD, and takes effect once earlier
requests have completed; another session's is refused. -/
def execReleaseOwner (t session : Nat) (s : State) : Host.Outcome State Fault Refusal :=
  settled ((s.advance t).inSession session (fun x s =>
    let ok := s.ownerSession x
    if s.recovering then s
    else (s.message session 0x82 (if ok then 0 else 0x0A)).request
      [.reg { origin := .host (x.qp / 16) (x.qp % 16), page := mPage .host, off := Reg.HOST_HOST_CMD, write := some 1, refuse := !ok }]))

/-! ## Reports (R475, R484) -/

/-- Bytes [511:0] of a report (R484). -/
def State.reportBody (s : State) (nonce : Nat) : List Byte :=
  leBytes 1 1 ++ leBytes 1 (flag s.owned 0 + flag (s.bit (mPage .modid) Reg.MODID_SVC 3) 1 + flag s.recovering 2) ++ leBytes 2 0 ++
  leBytes 4 s.selfId ++ leBytes 4 (s.num (mPage .boot) Reg.BOOT_STARTS) ++ leBytes 4 0 ++ leBytes 8 s.podCount ++ leBytes 32 nonce ++
  (List.range 5).flatMap (fun c => leBytes 1 (s.fw c).floor) ++ leBytes 3 0 ++
  (List.range 7).flatMap (fun n => digestBytes (s.mr n)) ++ (if s.owned then digestBytes s.ownerDig else leBytes 48 0) ++ leBytes 64 0

/-- Exactly n bytes: cut, or filled with zeros. -/
def fitBytes (n : Nat) (l : List Byte) : List Byte := (l ++ List.replicate (n - l.length) 0).take n

/-- GET_REPORT (R483, R484): the report with its two signatures. -/
def execGetReport (t session nonce : Nat) (s : State) : Host.Outcome State Fault Refusal :=
  done ((s.advance t).inSession session (fun _ s =>
    let b := s.reportBody nonce
    s.message session 0x83 0 (b ++ fitBytes 384 (Config.signature 0 b) ++ fitBytes 16224 (Config.signature 1 b))))

/-! ## Staged images and floors (R479, R485, R486) -/

/-- A stage ends in a refusal (R486, R488, R489). -/
def State.refuseStage (s : State) (session cls reason : Nat) : State :=
  let p := mPage .sec
  ((((s.setNum p Reg.SEC_STAGE_STS (3 + 16 * (cls % 8) + 256 * reason)).addSat p Reg.SEC_FW_REJECTS 1).raise p 3)).message
    session 0x84 reason

/-- FW_STAGE (R479, R483, R485 to R488): an image in MEM is checked and written to its class's second bank, which becomes
PENDING. `rsa`, `slh` and `digest` say whether its signatures verify and its DIGEST matches, `written` whether the boot
flash took it. -/
def execFwStage (t session a len : Nat) (rsa slh digest written : Bool) (flips : List (Nat × Nat)) (s : State) :
    Host.Outcome State Fault Refusal :=
  settled (((s.advance t).upset flips).inSession session (fun x s =>
    if !s.ownerSession x && !s.recovering then s.refuseStage session 0 0x0A
    else if s.phase ≠ 9 ∧ !s.recovering then s.refuseStage session 0 0x07
    else if a % 64 ≠ 0 ∨ len < 0x4200 ∨ !memReach a len then s.refuseStage session 0 0x01
    else
      let head := s.readBytes a 24
      let cls := leNat ((head.drop 4).take 1)
      let slot := leNat ((head.drop 5).take 1)
      let svn := leNat ((head.drop 8).take 4)
      let formatOk := leNat (head.take 4) == 1 && decide (1 ≤ svn ∧ svn ≤ 128)
      let fits := decide (0x4200 + leNat ((head.drop 16).take 8) ≤ len)
      let hash := Config.sha384 (s.readBytes a 128)
      let s := s.noteRead a len
      let reason := s.imageReason cls slot svn formatOk rsa slh (digest && fits)
      let reason := if reason = 0 ∧ !written then 0x08 else reason
      if reason ≠ 0 then s.refuseStage session cls reason
      else
        let p := mPage .sec
        let c := s.fw cls
        let image : FwImage := { slot := slot, svn := svn, version := leNat ((head.drop 12).take 4), digest := hash, sound := true }
        let s := s.setFw cls { c.put (1 - c.active) (some image) with pending := true }
        ((s.setNum p Reg.SEC_STAGE_STS (2 + 16 * cls)).raise p 2).message session 0x84 0))

/-- FW_RAISE_FLOOR (R483, R486): fuse bits are burned in Q0 and Q1 up to the new floor; `written` says whether they took. -/
def execFwRaiseFloor (t session cls floor : Nat) (written : Bool) (s : State) : Host.Outcome State Fault Refusal :=
  done ((s.advance t).inSession session (fun x s =>
    let c := s.fw cls
    let svn := (c.runs.map (·.svn)).getD 0
    if s.recovering then s
    else if !s.ownerSession x then s.message session 0x85 0x0A
    else if 5 ≤ cls then s.message session 0x85 0x01
    else if svn < floor ∨ 128 < floor then s.message session 0x85 0x09
    else if !written then s.message session 0x85 0x08
    else
      let s' := s.setFw cls { c with floor0 := max c.floor0 floor, floor1 := max c.floor1 floor }
      (s'.raiseIf (decide (c.floor < floor)) (mPage .sec) 5).message session 0x85 0))

end Sys2Proof.Machine
end

