-- ==== Sys2Proof/Machine/Dispatch.lean ====
section
/-! DEFINITION. The meaning of each command: one arm for each constructor of Instr. -/

namespace Sys2Proof.Machine

def exec (i : Instr) (s : State) : Host.Outcome State Fault Refusal :=
  match i with
  | .registerWrite t o win slot off v narrow => Sys2Proof.Machine.execRegisterWrite t o win slot off v narrow s
  | .evtStsClear t o win slot v hw => Sys2Proof.Machine.execEvtStsClear t o win slot v hw s
  | .evtForce t o win slot v hw => Sys2Proof.Machine.execEvtForce t o win slot v hw s
  | .evtEnWrite t o win slot v => Sys2Proof.Machine.execEvtEnWrite t o win slot v s
  | .pageQuiesce t o win slot quiesce => Sys2Proof.Machine.execPageQuiesce t o win slot quiesce s
  | .pageEnable t o win slot => Sys2Proof.Machine.execPageEnable t o win slot s
  | .pageDisable t o win slot => Sys2Proof.Machine.execPageDisable t o win slot s
  | .tileAccept t q slot arr late drains flips => Sys2Proof.Machine.execTileAccept t q slot arr late drains flips s
  | .tileComplete t q slot arr corrected badRows badCols badLines badA badB => Sys2Proof.Machine.execTileComplete t q slot arr corrected badRows badCols badLines badA badB s
  | .arrayResume t o q p a => Sys2Proof.Machine.execArrayResume t o q p a s
  | .mangleClaimGrant t q => Sys2Proof.Machine.execMangleClaimGrant t q s
  | .mangleStreamDone t q m => Sys2Proof.Machine.execMangleStreamDone t q m s
  | .foldAccessGrant t q bank sub arrivals flips => Sys2Proof.Machine.execFoldAccessGrant t q bank sub arrivals flips s
  | .foldRequestPromote t q off num => Sys2Proof.Machine.execFoldRequestPromote t q off num s
  | .foldReadComplete t q off => Sys2Proof.Machine.execFoldReadComplete t q off s
  | .foldScrubCycle t q bank sub flips => Sys2Proof.Machine.execFoldScrubCycle t q bank sub flips s
  | .ringTailWrite t o q n v => Sys2Proof.Machine.execRingTailWrite t o q n v s
  | .ringCfgWrite t o q n v => Sys2Proof.Machine.execRingCfgWrite t o q n v s
  | .queueFetch t q n => Sys2Proof.Machine.execQueueFetch t q n s
  | .queueFetchArrive t q n => Sys2Proof.Machine.execQueueFetchArrive t q n s
  | .qctlWaitGe t q n => Sys2Proof.Machine.execQctlWaitGe t q n s
  | .qctlTake t q n => Sys2Proof.Machine.execQctlTake t q n s
  | .qctlAdd t q n => Sys2Proof.Machine.execQctlAdd t q n s
  | .qctlClear t q n => Sys2Proof.Machine.execQctlClear t q n s
  | .signalCounterWrite t o q k v => Sys2Proof.Machine.execSignalCounterWrite t o q k v s
  | .descriptorSignal t q n => Sys2Proof.Machine.execDescriptorSignal t q n s
  | .engineResume t o q n => Sys2Proof.Machine.execEngineResume t o q n s
  | .engineRetry t o q n => Sys2Proof.Machine.execEngineRetry t o q n s
  | .vecAdd t q e flips => Sys2Proof.Machine.execVecAdd t q e flips s
  | .vecSub t q e flips => Sys2Proof.Machine.execVecSub t q e flips s
  | .vecMul t q e flips => Sys2Proof.Machine.execVecMul t q e flips s
  | .vecFma t q e flips => Sys2Proof.Machine.execVecFma t q e flips s
  | .vecMax t q e flips => Sys2Proof.Machine.execVecMax t q e flips s
  | .vecMin t q e flips => Sys2Proof.Machine.execVecMin t q e flips s
  | .vecAxpb t q e flips => Sys2Proof.Machine.execVecAxpb t q e flips s
  | .vecActivation t q e flips => Sys2Proof.Machine.execVecActivation t q e flips s
  | .vecRecip t q e flips => Sys2Proof.Machine.execVecRecip t q e flips s
  | .vecRsqrt t q e flips => Sys2Proof.Machine.execVecRsqrt t q e flips s
  | .vecLog t q e flips => Sys2Proof.Machine.execVecLog t q e flips s
  | .vecActivationBackward t q e flips => Sys2Proof.Machine.execVecActivationBackward t q e flips s
  | .vecRowSum t q e flips => Sys2Proof.Machine.execVecRowSum t q e flips s
  | .vecRowMax t q e flips => Sys2Proof.Machine.execVecRowMax t q e flips s
  | .vecRowSumsq t q e flips => Sys2Proof.Machine.execVecRowSumsq t q e flips s
  | .vecRowDot t q e flips => Sys2Proof.Machine.execVecRowDot t q e flips s
  | .vecRowLse t q e flips => Sys2Proof.Machine.execVecRowLse t q e flips s
  | .vecLnFwd t q e flips => Sys2Proof.Machine.execVecLnFwd t q e flips s
  | .vecRmsFwd t q e flips => Sys2Proof.Machine.execVecRmsFwd t q e flips s
  | .vecSoftmaxFwd t q e flips => Sys2Proof.Machine.execVecSoftmaxFwd t q e flips s
  | .vecLnBwd t q e flips => Sys2Proof.Machine.execVecLnBwd t q e flips s
  | .vecRmsBwd t q e flips => Sys2Proof.Machine.execVecRmsBwd t q e flips s
  | .vecSoftmaxBwd t q e flips => Sys2Proof.Machine.execVecSoftmaxBwd t q e flips s
  | .vecSoftmaxBwdL t q e flips => Sys2Proof.Machine.execVecSoftmaxBwdL t q e flips s
  | .vecLnBwdRc t q e flips => Sys2Proof.Machine.execVecLnBwdRc t q e flips s
  | .vecRmsBwdRc t q e flips => Sys2Proof.Machine.execVecRmsBwdRc t q e flips s
  | .vecSoftmaxBwdRc t q e flips => Sys2Proof.Machine.execVecSoftmaxBwdRc t q e flips s
  | .convert t q e flips => Sys2Proof.Machine.execConvert t q e flips s
  | .convertHandoff t q e between flips => Sys2Proof.Machine.execConvertHandoff t q e between flips s
  | .transpose t q m flips => Sys2Proof.Machine.execTranspose t q m flips s
  | .sorterDump t q so => Sys2Proof.Machine.execSorterDump t q so s
  | .digest t q g flips => Sys2Proof.Machine.execDigest t q g flips s
  | .compress t q g flips => Sys2Proof.Machine.execCompress t q g flips s
  | .streamerCopy t q e => Sys2Proof.Machine.execStreamerCopy t q e s
  | .streamerFill t q e => Sys2Proof.Machine.execStreamerFill t q e s
  | .streamerSegmentComplete t q e seq idx site lost flips => Sys2Proof.Machine.execStreamerSegmentComplete t q e seq idx site lost flips s
  | .shipStep t q => Sys2Proof.Machine.execShipStep t q s
  | .shipStepSend t q site flips => Sys2Proof.Machine.execShipStepSend t q site flips s
  | .shipStepDone t q site => Sys2Proof.Machine.execShipStepDone t q site s
  | .shipFull t q site flips => Sys2Proof.Machine.execShipFull t q site flips s
  | .exportConsReread t q site => Sys2Proof.Machine.execExportConsReread t q site s
  | .reduceScatter t q flips => Sys2Proof.Machine.execReduceScatter t q flips s
  | .allGather t q flips => Sys2Proof.Machine.execAllGather t q flips s
  | .verdictOp t q flips => Sys2Proof.Machine.execVerdictOp t q flips s
  | .stepBoundary t => Sys2Proof.Machine.execStepBoundary t s
  | .stepCountWrite t o k v => Sys2Proof.Machine.execStepCountWrite t o k v s
  | .verdictUp t h th nf force contrib sumsq => Sys2Proof.Machine.execVerdictUp t h th nf force contrib sumsq s
  | .verdictDown t h th verdict vnorm clip => Sys2Proof.Machine.execVerdictDown t h th verdict vnorm clip s
  | .updateAdamw t q u flips => Sys2Proof.Machine.execUpdateAdamw t q u flips s
  | .updateAdamwFact t q u flips => Sys2Proof.Machine.execUpdateAdamwFact t q u flips s
  | .updateSgdm t q u flips => Sys2Proof.Machine.execUpdateSgdm t q u flips s
  | .updateCustom t q u flips => Sys2Proof.Machine.execUpdateCustom t q u flips s
  | .updateParityResume t q u => Sys2Proof.Machine.execUpdateParityResume t q u s
  | .exportLag t q u => Sys2Proof.Machine.execExportLag t q u s
  | .modulePrepared t => Sys2Proof.Machine.execModulePrepared t s
  | .preparedUp t h th count present nz => Sys2Proof.Machine.execPreparedUp t h th count present nz s
  | .commitDown t h th time present nz => Sys2Proof.Machine.execCommitDown t h th time present nz s
  | .digestUp t h th entries => Sys2Proof.Machine.execDigestUp t h th entries s
  | .digestDown t h th entries => Sys2Proof.Machine.execDigestDown t h th entries s
  | .replicaMendDone t index bytes outer => Sys2Proof.Machine.execReplicaMendDone t index bytes outer s
  | .leaseClaim t o n => Sys2Proof.Machine.execLeaseClaim t o n s
  | .leaseRelease t o n => Sys2Proof.Machine.execLeaseRelease t o n s
  | .leaseGrant t n => Sys2Proof.Machine.execLeaseGrant t n s
  | .leaseRangeWrite t o n count v => Sys2Proof.Machine.execLeaseRangeWrite t o n count v s
  | .leaseWriteAccept t => Sys2Proof.Machine.execLeaseWriteAccept t s
  | .leaseStale t => Sys2Proof.Machine.execLeaseStale t s
  | .collReadyReceive t h c => Sys2Proof.Machine.execCollReadyReceive t h c s
  | .collSegmentSend t q tag part dir => Sys2Proof.Machine.execCollSegmentSend t q tag part dir s
  | .collSegmentReceive t h c bytes flips => Sys2Proof.Machine.execCollSegmentReceive t h c bytes flips s
  | .collWait t q tag part dir => Sys2Proof.Machine.execCollWait t q tag part dir s
  | .collTopologyWrite t o off v => Sys2Proof.Machine.execCollTopologyWrite t o off v s
  | .linkCheckStart t o => Sys2Proof.Machine.execLinkCheckStart t o s
  | .checkLinks t from_ arrived elsewhere => Sys2Proof.Machine.execCheckLinks t from_ arrived elsewhere s
  | .mismatchUp t h th total entries => Sys2Proof.Machine.execMismatchUp t h th total entries s
  | .heartbeat t h th time => Sys2Proof.Machine.execHeartbeat t h th time s
  | .regen t h th lost adopter => Sys2Proof.Machine.execRegen t h th lost adopter s
  | .bucketQuery t h th => Sys2Proof.Machine.execBucketQuery t h th s
  | .bucketStateUp t h th entries => Sys2Proof.Machine.execBucketStateUp t h th entries s
  | .reportUp t h th kind subject value => Sys2Proof.Machine.execReportUp t h th kind subject value s
  | .leadAnswer t h th kind refused subject answer => Sys2Proof.Machine.execLeadAnswer t h th kind refused subject answer s
  | .siteDown t h th site state lagging mode round => Sys2Proof.Machine.execSiteDown t h th site state lagging mode round s
  | .memRequest t pq port addr isWrite bytes => Sys2Proof.Machine.execMemRequest t pq port addr isWrite bytes s
  | .memAccept t addr => Sys2Proof.Machine.execMemAccept t addr s
  | .memAccessComplete t addr flips => Sys2Proof.Machine.execMemAccessComplete t addr flips s
  | .pageMendDone t page lines => Sys2Proof.Machine.execPageMendDone t page lines s
  | .repairGo t o q slot => Sys2Proof.Machine.execRepairGo t o q slot s
  | .repairCopyDone t q slot => Sys2Proof.Machine.execRepairCopyDone t q slot s
  | .refreshSlot t q slot pc => Sys2Proof.Machine.execRefreshSlot t q slot pc s
  | .rinseSlot t q slot pc flips => Sys2Proof.Machine.execRinseSlot t q slot pc flips s
  | .pressSlot t q slot pc grp moves margins => Sys2Proof.Machine.execPressSlot t q slot pc grp moves margins s
  | .retainBreak t q d => Sys2Proof.Machine.execRetainBreak t q d s
  | .seamFlitReceive t idx bad => Sys2Proof.Machine.execSeamFlitReceive t idx bad s
  | .seamIdleFlit t idx depth => Sys2Proof.Machine.execSeamIdleFlit t idx depth s
  | .frameSend t q d => Sys2Proof.Machine.execFrameSend t q d s
  | .frameWrite t h seg rsig bytes => Sys2Proof.Machine.execFrameWrite t h seg rsig bytes s
  | .frameReadReq t h seg len ret flips => Sys2Proof.Machine.execFrameReadReq t h seg len ret flips s
  | .frameReadResp t h seg error bytes => Sys2Proof.Machine.execFrameReadResp t h seg error bytes s
  | .frameSig t h counter quarter amount => Sys2Proof.Machine.execFrameSig t h counter quarter amount s
  | .frameCtrl t h nak => Sys2Proof.Machine.execFrameCtrl t h nak s
  | .creditReturnTimer t q d => Sys2Proof.Machine.execCreditReturnTimer t q d s
  | .ctrlKeepaliveSend t q d => Sys2Proof.Machine.execCtrlKeepaliveSend t q d s
  | .replayTimeout t q d => Sys2Proof.Machine.execReplayTimeout t q d s
  | .linkIdleTimeout t q d => Sys2Proof.Machine.execLinkIdleTimeout t q d s
  | .pcsAlignLost t q d => Sys2Proof.Machine.execPcsAlignLost t q d s
  | .linkTrained t q d lanes => Sys2Proof.Machine.execLinkTrained t q d lanes s
  | .portDisable t o q d => Sys2Proof.Machine.execPortDisable t o q d s
  | .podTimeSyncTimer t => Sys2Proof.Machine.execPodTimeSyncTimer t s
  | .linkDelayTimer t => Sys2Proof.Machine.execLinkDelayTimer t s
  | .syncReq t h ta seq state => Sys2Proof.Machine.execSyncReq t h ta seq state s
  | .syncResp t h ta tb tc seq state => Sys2Proof.Machine.execSyncResp t h ta tb tc seq state s
  | .linkReq t h ta seq state => Sys2Proof.Machine.execLinkReq t h ta seq state s
  | .linkResp t h ta tb tc seq state => Sys2Proof.Machine.execLinkResp t h ta tb tc seq state s
  | .joinResp t h ta tb tc seq state => Sys2Proof.Machine.execJoinResp t h ta tb tc seq state s
  | .hello t h id quarter direction spare inPod term => Sys2Proof.Machine.execHello t h id quarter direction spare inPod term s
  | .candidate t h prio id => Sys2Proof.Machine.execCandidate t h prio id s
  | .electionClose t => Sys2Proof.Machine.execElectionClose t s
  | .neighTable t h sender spare ids sig => Sys2Proof.Machine.execNeighTable t h sender spare ids sig s
  | .config t h c => Sys2Proof.Machine.execConfig t h c s
  | .tack t h id sig => Sys2Proof.Machine.execTack t h id sig s
  | .tackReply t h refused => Sys2Proof.Machine.execTackReply t h refused s
  | .topoConfirm t h sig agree => Sys2Proof.Machine.execTopoConfirm t h sig agree s
  | .leadProbe t h term => Sys2Proof.Machine.execLeadProbe t h term s
  | .probeAnswer t h term last none_ => Sys2Proof.Machine.execProbeAnswer t h term last none_ s
  | .leadHeartbeatTimer t => Sys2Proof.Machine.execLeadHeartbeatTimer t s
  | .standbyLeadTimeout t => Sys2Proof.Machine.execStandbyLeadTimeout t s
  | .probeWindowExpire t => Sys2Proof.Machine.execProbeWindowExpire t s
  | .discoveryStart t o => Sys2Proof.Machine.execDiscoveryStart t o s
  | .ptApply t o => Sys2Proof.Machine.execPtApply t o s
  | .podCmdCut t o => Sys2Proof.Machine.execPodCmdCut t o s
  | .cutSelf t h epoch recs => Sys2Proof.Machine.execCutSelf t h epoch recs s
  | .markCut t h epoch recs => Sys2Proof.Machine.execMarkCut t h epoch recs s
  | .aliasChip t h epoch recs => Sys2Proof.Machine.execAliasChip t h epoch recs s
  | .assignSpare t h epoch recs => Sys2Proof.Machine.execAssignSpare t h epoch recs s
  | .unreachable t h epoch recs => Sys2Proof.Machine.execUnreachable t h epoch recs s
  | .lostSelf t h epoch recs => Sys2Proof.Machine.execLostSelf t h epoch recs s
  | .epochEnd t h epoch recs => Sys2Proof.Machine.execEpochEnd t h epoch recs s
  | .shardHeaderArrive t h ptp flips => Sys2Proof.Machine.execShardHeaderArrive t h ptp flips s
  | .roundDeadline t => Sys2Proof.Machine.execRoundDeadline t s
  | .rttSample t site sample => Sys2Proof.Machine.execRttSample t site sample s
  | .migKeepaliveTimer t => Sys2Proof.Machine.execMigKeepaliveTimer t s
  | .siteContactTimeout t site => Sys2Proof.Machine.execSiteContactTimeout t site s
  | .migDatagramRepeat t => Sys2Proof.Machine.execMigDatagramRepeat t s
  | .keepalive t d => Sys2Proof.Machine.execKeepalive t d s
  | .migQpError t q site => Sys2Proof.Machine.execMigQpError t q site s
  | .resetQp t d qpn => Sys2Proof.Machine.execResetQp t d qpn s
  | .siteState t d sites side => Sys2Proof.Machine.execSiteState t d sites side s
  | .joinAnnounce t d => Sys2Proof.Machine.execJoinAnnounce t d s
  | .ptpSync t domain offset => Sys2Proof.Machine.execPtpSync t domain offset s
  | .ptpSecond t seconds => Sys2Proof.Machine.execPtpSecond t seconds s
  | .ptpSyncTimeout t => Sys2Proof.Machine.execPtpSyncTimeout t s
  | .cmConnectRequest t port role session mtu psn peer timeout retries rnr zero => Sys2Proof.Machine.execCmConnectRequest t port role session mtu psn peer timeout retries rnr zero s
  | .claimOwner t session => Sys2Proof.Machine.execClaimOwner t session s
  | .releaseOwner t session => Sys2Proof.Machine.execReleaseOwner t session s
  | .hostMemWrite t port idx psn rkey a bytes ce => Sys2Proof.Machine.execHostMemWrite t port idx psn rkey a bytes ce s
  | .hostMemRead t port idx psn rkey a len ce flips => Sys2Proof.Machine.execHostMemRead t port idx psn rkey a len ce flips s
  | .hostRegWrite t port idx psn rkey a bytes ce => Sys2Proof.Machine.execHostRegWrite t port idx psn rkey a bytes ce s
  | .hostRegRead t port idx psn rkey a len ce => Sys2Proof.Machine.execHostRegRead t port idx psn rkey a len ce s
  | .hostFetchAdd t port idx psn rkey a v ce flips => Sys2Proof.Machine.execHostFetchAdd t port idx psn rkey a v ce flips s
  | .hostDoorbell t port idx psn rkey a bytes imm ce => Sys2Proof.Machine.execHostDoorbell t port idx psn rkey a bytes imm ce s
  | .hostQpError t port idx => Sys2Proof.Machine.execHostQpError t port idx s
  | .identify t port code nonce => Sys2Proof.Machine.execIdentify t port code nonce s
  | .neighborSolicit t port addr v4 => Sys2Proof.Machine.execNeighborSolicit t port addr v4 s
  | .cnpReceive t port idx within ce => Sys2Proof.Machine.execCnpReceive t port idx within ce s
  | .ecnRateTimer t port idx => Sys2Proof.Machine.execEcnRateTimer t port idx s
  | .eventRingEnable t o n v => Sys2Proof.Machine.execEventRingEnable t o n v s
  | .eventRingQpnWrite t o n v => Sys2Proof.Machine.execEventRingQpnWrite t o n v s
  | .eventRecordSend t n => Sys2Proof.Machine.execEventRecordSend t n s
  | .eventProdAck t n prod => Sys2Proof.Machine.execEventProdAck t n prod s
  | .eventConsReread t n answer => Sys2Proof.Machine.execEventConsReread t n answer s
  | .eventQpDown t n => Sys2Proof.Machine.execEventQpDown t n s
  | .refLost t q r => Sys2Proof.Machine.execRefLost t q r s
  | .refQualified t q r => Sys2Proof.Machine.execRefQualified t q r s
  | .refRevert t q => Sys2Proof.Machine.execRefRevert t q s
  | .pllFail t q => Sys2Proof.Machine.execPllFail t q s
  | .islandStop t o q idx => Sys2Proof.Machine.execIslandStop t o q idx s
  | .islandStart t o q idx => Sys2Proof.Machine.execIslandStart t o q idx s
  | .islandStopped t => Sys2Proof.Machine.execIslandStopped t s
  | .islandRun t => Sys2Proof.Machine.execIslandRun t s
  | .journalFlashProgram t q => Sys2Proof.Machine.execJournalFlashProgram t q s
  | .journalFlashDone t q ok => Sys2Proof.Machine.execJournalFlashDone t q ok s
  | .journalHoldTimeout t q => Sys2Proof.Machine.execJournalHoldTimeout t q s
  | .journalHoldRelease t q => Sys2Proof.Machine.execJournalHoldRelease t q s
  | .tallySample t qs => Sys2Proof.Machine.execTallySample t qs s
  | .pressLinkMonitor t q margins => Sys2Proof.Machine.execPressLinkMonitor t q margins s
  | .pressThermal t q raw ref1 ref2 => Sys2Proof.Machine.execPressThermal t q raw ref1 ref2 s
  | .pressCalRecord t q temps => Sys2Proof.Machine.execPressCalRecord t q temps s
  | .darnAging t q losses cpu life spare erases => Sys2Proof.Machine.execDarnAging t q losses cpu life spare erases s
  | .powerContact t straps => Sys2Proof.Machine.execPowerContact t straps s
  | .rampStart t straps flow tInlet vin => Sys2Proof.Machine.execRampStart t straps flow tInlet vin s
  | .rampInterlockFail t flow tInlet vin supply return_ => Sys2Proof.Machine.execRampInterlockFail t flow tInlet vin supply return_ s
  | .pwrEnLow t => Sys2Proof.Machine.execPwrEnLow t s
  | .pwrOff t o => Sys2Proof.Machine.execPwrOff t o s
  | .shutdownComplete t => Sys2Proof.Machine.execShutdownComplete t s
  | .throttleUpdate t vin iin pavg => Sys2Proof.Machine.execThrottleUpdate t vin iin pavg s
  | .vRange t vin => Sys2Proof.Machine.execVRange t vin s
  | .coolantSample t flow tInlet tOutlet => Sys2Proof.Machine.execCoolantSample t flow tInlet tOutlet s
  | .thermalLimitUpdate t die dram => Sys2Proof.Machine.execThermalLimitUpdate t die dram s
  | .trip t cause q unit => Sys2Proof.Machine.execTrip t cause q unit s
  | .tripRelease t => Sys2Proof.Machine.execTripRelease t s
  | .smbPstat t => Sys2Proof.Machine.execSmbPstat t s
  | .smbRegAddr t v pec => Sys2Proof.Machine.execSmbRegAddr t v pec s
  | .smbRegRead t => Sys2Proof.Machine.execSmbRegRead t s
  | .smbRegWrite t v pec => Sys2Proof.Machine.execSmbRegWrite t v pec s
  | .smbAlertResponse t => Sys2Proof.Machine.execSmbAlertResponse t s
  | .smbClockLowReset t => Sys2Proof.Machine.execSmbClockLowReset t s
  | .bootCold t o => Sys2Proof.Machine.execBootCold t o s
  | .bootWarm t o => Sys2Proof.Machine.execBootWarm t o s
  | .bootUnpick t o => Sys2Proof.Machine.execBootUnpick t o s
  | .unpickDrainDone t flips => Sys2Proof.Machine.execUnpickDrainDone t flips s
  | .unpickTransferDone t => Sys2Proof.Machine.execUnpickTransferDone t s
  | .startPhaseComplete t x => Sys2Proof.Machine.execStartPhaseComplete t x s
  | .startPhaseFail t cause q unit => Sys2Proof.Machine.execStartPhaseFail t cause q unit s
  | .startRetry t up0 up1 => Sys2Proof.Machine.execStartRetry t up0 up1 s
  | .tileWatchdog t q p a => Sys2Proof.Machine.execTileWatchdog t q p a s
  | .engineWatchdog t q n paused => Sys2Proof.Machine.execEngineWatchdog t q n paused s
  | .serviceHeartbeatTimer t => Sys2Proof.Machine.execServiceHeartbeatTimer t s
  | .serviceFailover t failed => Sys2Proof.Machine.execServiceFailover t failed s
  | .cpWatchdog t q idx => Sys2Proof.Machine.execCpWatchdog t q idx s
  | .cpWatchdogKick t q idx => Sys2Proof.Machine.execCpWatchdogKick t q idx s
  | .cpHalt t o q idx => Sys2Proof.Machine.execCpHalt t o q idx s
  | .cpReset t o q idx => Sys2Proof.Machine.execCpReset t o q idx s
  | .spdmGetVersion t port idx => Sys2Proof.Machine.execSpdmGetVersion t port idx s
  | .spdmGetCapabilities t port idx ver => Sys2Proof.Machine.execSpdmGetCapabilities t port idx ver s
  | .spdmNegotiateAlgorithms t port idx ver offered => Sys2Proof.Machine.execSpdmNegotiateAlgorithms t port idx ver offered s
  | .spdmGetDigests t port idx ver => Sys2Proof.Machine.execSpdmGetDigests t port idx ver s
  | .spdmGetCertificate t port idx ver slot offset length => Sys2Proof.Machine.execSpdmGetCertificate t port idx ver slot offset length s
  | .spdmChallenge t port idx ver slot nonce => Sys2Proof.Machine.execSpdmChallenge t port idx ver slot nonce s
  | .spdmGetMeasurements t port idx ver index signed nonce => Sys2Proof.Machine.execSpdmGetMeasurements t port idx ver index signed nonce s
  | .spdmKeyExchange t port idx ver slot request => Sys2Proof.Machine.execSpdmKeyExchange t port idx ver slot request s
  | .spdmFinish t session leaf ok => Sys2Proof.Machine.execSpdmFinish t session leaf ok s
  | .spdmHeartbeat t session => Sys2Proof.Machine.execSpdmHeartbeat t session s
  | .spdmKeyUpdate t session op => Sys2Proof.Machine.execSpdmKeyUpdate t session op s
  | .spdmEndSession t session => Sys2Proof.Machine.execSpdmEndSession t session s
  | .spdmHeartbeatTimeout t session => Sys2Proof.Machine.execSpdmHeartbeatTimeout t session s
  | .getReport t session nonce => Sys2Proof.Machine.execGetReport t session nonce s
  | .fwStage t session a len rsa slh digest written flips => Sys2Proof.Machine.execFwStage t session a len rsa slh digest written flips s
  | .fwRaiseFloor t session cls floor written => Sys2Proof.Machine.execFwRaiseFloor t session cls floor written s
  | .sitePortLinkDown t port => Sys2Proof.Machine.execSitePortLinkDown t port s
  | .sitePortLinkUp t port => Sys2Proof.Machine.execSitePortLinkUp t port s
  | .routerAdvertisement t port prefix_ => Sys2Proof.Machine.execRouterAdvertisement t port prefix_ s
  | .dhcpv4Reply t port addr => Sys2Proof.Machine.execDhcpv4Reply t port addr s
  | .migrationQpRequest t q site seg vl addr req flips => Sys2Proof.Machine.execMigrationQpRequest t q site seg vl addr req flips s
  | .pfcPauseFrame t port mask => Sys2Proof.Machine.execPfcPauseFrame t port mask s
  | .cmDisconnectRequest t port idx => Sys2Proof.Machine.execCmDisconnectRequest t port idx s
  | .neighTableDeadline t => Sys2Proof.Machine.execNeighTableDeadline t s
  | .aonPowerLoss t => Sys2Proof.Machine.execAonPowerLoss t s

end Sys2Proof.Machine
end

