-- ==== Sys2Proof/WellFormed.lean ====
section
/-! DEFINITION. Well-formed commands: operands that name something that the block has. A command that is not changes nothing but time, or is dropped as its rule says. -/

namespace Sys2Proof

/-- A received header names a port of the module, and its fields have their widths (R237, R238). -/
def RxHdr.wf (h : RxHdr) : Bool :=
  decide (h.q < 4 ∧ h.d < 6 ∧ h.vl < 8 ∧ h.srcQ < 4 ∧ h.lseq < 2 ^ 32 ∧ h.lack < 2 ^ 32 ∧ h.src < 2 ^ 18 ∧ h.dst < 2 ^ 64 ∧ h.route < 16)

/-- A migration datagram's header names a site, a port and a chip, and its fields have their widths (R272). -/
def DgramHdr.wf (h : DgramHdr) : Bool :=
  decide (h.site < 8 ∧ h.q < 4 ∧ h.chip < 2 ^ 15 ∧ h.round < 2 ^ 64 ∧ h.common < 2 ^ 64 ∧ h.time < 2 ^ 64)

/-- Does each operand of a command name a quarter, port, queue, engine, lease, ring or place that exists? -/
def Instr.wf : Instr → Bool
  | .registerWrite _ _ win slot off _ _ => decide (win ≤ 4 ∧ slot < 4096 ∧ off < 4096)
  | .evtStsClear _ _ win slot _ _ => decide (win ≤ 4 ∧ slot < 4096)
  | .evtForce _ _ win slot _ _ => decide (win ≤ 4 ∧ slot < 4096)
  | .evtEnWrite _ _ win slot _ => decide (win ≤ 4 ∧ slot < 4096)
  | .pageQuiesce _ _ win slot _ => decide (win ≤ 4 ∧ slot < 4096)
  | .pageEnable _ _ win slot => decide (win ≤ 4 ∧ slot < 4096)
  | .pageDisable _ _ win slot => decide (win ≤ 4 ∧ slot < 4096)
  | .tileAccept _ q slot arr _ _ _ => decide (q < 4 ∧ slot < 30 ∧ arr < 3)
  | .tileComplete _ q slot arr _ _ _ _ _ _ => decide (q < 4 ∧ slot < 30 ∧ arr < 3)
  | .arrayResume _ _ q p a => decide (q < 4 ∧ p < 32 ∧ a < 3)
  | .mangleClaimGrant _ q => decide (q < 4)
  | .mangleStreamDone _ q m => decide (q < 4 ∧ m < 8)
  | .foldAccessGrant _ q bank sub _ _ => decide (q < 4 ∧ bank < 64 ∧ sub < 4)
  | .foldRequestPromote _ q _ _ => decide (q < 4)
  | .foldReadComplete _ q _ => decide (q < 4)
  | .foldScrubCycle _ q bank sub _ => decide (q < 4 ∧ bank < 64 ∧ sub < 4)
  | .ringTailWrite _ _ q n _ => decide (q < 4 ∧ n < 164)
  | .ringCfgWrite _ _ q n _ => decide (q < 4 ∧ n < 164)
  | .queueFetch _ q n => decide (q < 4 ∧ n < 164)
  | .queueFetchArrive _ q n => decide (q < 4 ∧ n < 164)
  | .qctlWaitGe _ q n => decide (q < 4 ∧ n < 164)
  | .qctlTake _ q n => decide (q < 4 ∧ n < 164)
  | .qctlAdd _ q n => decide (q < 4 ∧ n < 164)
  | .qctlClear _ q n => decide (q < 4 ∧ n < 164)
  | .signalCounterWrite _ _ q k _ => decide (q < 4 ∧ k < 4096)
  | .descriptorSignal _ q n => decide (q < 4 ∧ n < 164)
  | .engineResume _ _ q n => decide (q < 4 ∧ n < 164)
  | .engineRetry _ _ q n => decide (q < 4 ∧ n < 164)
  | .vecAdd _ q e _ => decide (q < 4 ∧ e < 16)
  | .vecSub _ q e _ => decide (q < 4 ∧ e < 16)
  | .vecMul _ q e _ => decide (q < 4 ∧ e < 16)
  | .vecFma _ q e _ => decide (q < 4 ∧ e < 16)
  | .vecMax _ q e _ => decide (q < 4 ∧ e < 16)
  | .vecMin _ q e _ => decide (q < 4 ∧ e < 16)
  | .vecAxpb _ q e _ => decide (q < 4 ∧ e < 16)
  | .vecActivation _ q e _ => decide (q < 4 ∧ e < 16)
  | .vecRecip _ q e _ => decide (q < 4 ∧ e < 16)
  | .vecRsqrt _ q e _ => decide (q < 4 ∧ e < 16)
  | .vecLog _ q e _ => decide (q < 4 ∧ e < 16)
  | .vecActivationBackward _ q e _ => decide (q < 4 ∧ e < 16)
  | .vecRowSum _ q e _ => decide (q < 4 ∧ e < 16)
  | .vecRowMax _ q e _ => decide (q < 4 ∧ e < 16)
  | .vecRowSumsq _ q e _ => decide (q < 4 ∧ e < 16)
  | .vecRowDot _ q e _ => decide (q < 4 ∧ e < 16)
  | .vecRowLse _ q e _ => decide (q < 4 ∧ e < 16)
  | .vecLnFwd _ q e _ => decide (q < 4 ∧ e < 16)
  | .vecRmsFwd _ q e _ => decide (q < 4 ∧ e < 16)
  | .vecSoftmaxFwd _ q e _ => decide (q < 4 ∧ e < 16)
  | .vecLnBwd _ q e _ => decide (q < 4 ∧ e < 16)
  | .vecRmsBwd _ q e _ => decide (q < 4 ∧ e < 16)
  | .vecSoftmaxBwd _ q e _ => decide (q < 4 ∧ e < 16)
  | .vecSoftmaxBwdL _ q e _ => decide (q < 4 ∧ e < 16)
  | .vecLnBwdRc _ q e _ => decide (q < 4 ∧ e < 16)
  | .vecRmsBwdRc _ q e _ => decide (q < 4 ∧ e < 16)
  | .vecSoftmaxBwdRc _ q e _ => decide (q < 4 ∧ e < 16)
  | .convert _ q e _ => decide (q < 4 ∧ e < 8)
  | .convertHandoff _ q e _ _ => decide (q < 4 ∧ e < 8)
  | .transpose _ q m _ => decide (q < 4 ∧ m < 8)
  | .sorterDump _ q so => decide (q < 4 ∧ so < 2)
  | .digest _ q g _ => decide (q < 4 ∧ g < 2)
  | .compress _ q g _ => decide (q < 4 ∧ g < 2)
  | .streamerCopy _ q e => decide (q < 4 ∧ e < 16)
  | .streamerFill _ q e => decide (q < 4 ∧ e < 16)
  | .streamerSegmentComplete _ q e _ _ _ _ _ => decide (q < 4 ∧ e < 16)
  | .shipStep _ q => decide (q < 4)
  | .shipStepSend _ q _ _ => decide (q < 4)
  | .shipStepDone _ q _ => decide (q < 4)
  | .shipFull _ q _ _ => decide (q < 4)
  | .exportConsReread _ q _ => decide (q < 4)
  | .reduceScatter _ q _ => decide (q < 4)
  | .allGather _ q _ => decide (q < 4)
  | .verdictOp _ q _ => decide (q < 4)
  | .stepBoundary _ => true
  | .stepCountWrite _ _ k _ => decide (k < 4)
  | .verdictUp _ h _ _ _ _ _ => h.wf
  | .verdictDown _ h _ _ _ _ => h.wf
  | .updateAdamw _ q u _ => decide (q < 4 ∧ u < 4)
  | .updateAdamwFact _ q u _ => decide (q < 4 ∧ u < 4)
  | .updateSgdm _ q u _ => decide (q < 4 ∧ u < 4)
  | .updateCustom _ q u _ => decide (q < 4 ∧ u < 4)
  | .updateParityResume _ q u => decide (q < 4 ∧ u < 4)
  | .exportLag _ q u => decide (q < 4 ∧ u < 4)
  | .modulePrepared _ => true
  | .preparedUp _ h _ _ _ _ => h.wf
  | .commitDown _ h _ _ _ _ => h.wf
  | .digestUp _ h _ _ => h.wf
  | .digestDown _ h _ _ => h.wf
  | .replicaMendDone _ _ _ _ => true
  | .leaseClaim _ _ n => decide (1 ≤ n ∧ n ≤ 240)
  | .leaseRelease _ _ n => decide (1 ≤ n ∧ n ≤ 240)
  | .leaseGrant _ n => decide (1 ≤ n ∧ n ≤ 240)
  | .leaseRangeWrite _ _ n _ _ => decide (1 ≤ n ∧ n ≤ 240)
  | .leaseWriteAccept _ => true
  | .leaseStale _ => true
  | .collReadyReceive _ h _ => h.wf
  | .collSegmentSend _ q _ part dir => decide (q < 4 ∧ part < 3 ∧ dir < 2)
  | .collSegmentReceive _ h _ _ _ => h.wf
  | .collWait _ q _ part dir => decide (q < 4 ∧ part < 3 ∧ dir < 2)
  | .collTopologyWrite _ _ off _ => decide (0x124 ≤ off ∧ off ≤ 0x144)
  | .linkCheckStart _ _ => true
  | .checkLinks _ _ _ _ => true
  | .mismatchUp _ h _ _ _ => h.wf
  | .heartbeat _ h _ _ => h.wf
  | .regen _ h _ _ _ => h.wf
  | .bucketQuery _ h _ => h.wf
  | .bucketStateUp _ h _ _ => h.wf
  | .reportUp _ h _ _ _ _ => h.wf
  | .leadAnswer _ h _ _ _ _ _ => h.wf
  | .siteDown _ h _ site _ _ _ _ => h.wf && decide (site < 8)
  | .memRequest _ pq _ _ _ _ => decide (pq < 4)
  | .memAccept _ _ => true
  | .memAccessComplete _ _ _ => true
  | .pageMendDone _ _ _ => true
  | .repairGo _ _ q slot => decide (q < 4 ∧ slot < 8)
  | .repairCopyDone _ q slot => decide (q < 4 ∧ slot < 8)
  | .refreshSlot _ q slot _ => decide (q < 4 ∧ slot < 8)
  | .rinseSlot _ q slot _ _ => decide (q < 4 ∧ slot < 8)
  | .pressSlot _ q slot _ _ _ _ => decide (q < 4 ∧ slot < 8)
  | .retainBreak _ q d => decide (q < 4 ∧ d < 2)
  | .seamFlitReceive _ idx _ => decide (idx < 6)
  | .seamIdleFlit _ idx _ => decide (idx < 6)
  | .frameSend _ q d => decide (q < 4 ∧ d < 6)
  | .frameWrite _ h _ _ bytes => h.wf && decide (bytes.length % 16 = 0)
  | .frameReadReq _ h _ _ _ _ => h.wf
  | .frameReadResp _ h _ _ _ => h.wf
  | .frameSig _ h _ quarter _ => h.wf && decide (quarter < 4)
  | .frameCtrl _ h _ => h.wf
  | .creditReturnTimer _ q d => decide (q < 4 ∧ d < 6)
  | .ctrlKeepaliveSend _ q d => decide (q < 4 ∧ d < 6)
  | .replayTimeout _ q d => decide (q < 4 ∧ d < 6)
  | .linkIdleTimeout _ q d => decide (q < 4 ∧ d < 6)
  | .pcsAlignLost _ q d => decide (q < 4 ∧ d < 6)
  | .linkTrained _ q d _ => decide (q < 4 ∧ d < 6)
  | .portDisable _ _ q d => decide (q < 4 ∧ d < 6)
  | .podTimeSyncTimer _ => true
  | .linkDelayTimer _ => true
  | .syncReq _ h _ _ _ => h.wf
  | .syncResp _ h _ _ _ _ _ => h.wf
  | .linkReq _ h _ _ _ => h.wf
  | .linkResp _ h _ _ _ _ _ => h.wf
  | .joinResp _ h _ _ _ _ _ => h.wf
  | .hello _ h _ quarter direction _ _ _ => h.wf && decide (quarter < 4 ∧ direction < 6)
  | .candidate _ h _ _ => h.wf
  | .electionClose _ => true
  | .neighTable _ h _ _ _ _ => h.wf
  | .config _ h _ => h.wf
  | .tack _ h _ _ => h.wf
  | .tackReply _ h _ => h.wf
  | .topoConfirm _ h _ _ => h.wf
  | .leadProbe _ h _ => h.wf
  | .probeAnswer _ h _ _ _ => h.wf
  | .leadHeartbeatTimer _ => true
  | .standbyLeadTimeout _ => true
  | .probeWindowExpire _ => true
  | .discoveryStart _ _ => true
  | .ptApply _ _ => true
  | .podCmdCut _ _ => true
  | .cutSelf _ h _ _ => h.wf
  | .markCut _ h _ _ => h.wf
  | .aliasChip _ h _ _ => h.wf
  | .assignSpare _ h _ _ => h.wf
  | .unreachable _ h _ _ => h.wf
  | .lostSelf _ h _ _ => h.wf
  | .epochEnd _ h _ _ => h.wf
  | .shardHeaderArrive _ _ _ _ => true
  | .roundDeadline _ => true
  | .rttSample _ site _ => decide (site < 8)
  | .migKeepaliveTimer _ => true
  | .siteContactTimeout _ site => decide (site < 8)
  | .migDatagramRepeat _ => true
  | .keepalive _ d => d.wf
  | .migQpError _ q site => decide (q < 4 ∧ site < 8)
  | .resetQp _ d _ => d.wf
  | .siteState _ d _ _ => d.wf
  | .joinAnnounce _ d => d.wf
  | .ptpSync _ _ _ => true
  | .ptpSecond _ _ => true
  | .ptpSyncTimeout _ => true
  | .cmConnectRequest _ port _ _ _ _ _ _ _ _ _ => decide (port < 4)
  | .claimOwner _ _ => true
  | .releaseOwner _ _ => true
  | .hostMemWrite _ port idx _ _ _ _ _ => decide (port < 4 ∧ idx < 16)
  | .hostMemRead _ port idx _ _ _ _ _ _ => decide (port < 4 ∧ idx < 16)
  | .hostRegWrite _ port idx _ _ _ _ _ => decide (port < 4 ∧ idx < 16)
  | .hostRegRead _ port idx _ _ _ _ _ => decide (port < 4 ∧ idx < 16)
  | .hostFetchAdd _ port idx _ _ _ _ _ _ => decide (port < 4 ∧ idx < 16)
  | .hostDoorbell _ port idx _ _ _ _ _ _ => decide (port < 4 ∧ idx < 16)
  | .hostQpError _ port idx => decide (port < 4 ∧ idx < 16)
  | .identify _ port _ _ => decide (port < 4)
  | .neighborSolicit _ port _ _ => decide (port < 4)
  | .cnpReceive _ port idx _ _ => decide (port < 4 ∧ idx < 16)
  | .ecnRateTimer _ port idx => decide (port < 4 ∧ idx < 16)
  | .eventRingEnable _ _ n _ => decide (n < 8)
  | .eventRingQpnWrite _ _ n _ => decide (n < 8)
  | .eventRecordSend _ n => decide (n < 8)
  | .eventProdAck _ n _ => decide (n < 8)
  | .eventConsReread _ n _ => decide (n < 8)
  | .eventQpDown _ n => decide (n < 8)
  | .refLost _ q r => decide (q < 4 ∧ r < 2)
  | .refQualified _ q r => decide (q < 4 ∧ r < 2)
  | .refRevert _ q => decide (q < 4)
  | .pllFail _ q => decide (q < 4)
  | .islandStop _ _ q idx => decide (q < 4 ∧ idx < 110)
  | .islandStart _ _ q idx => decide (q < 4 ∧ idx < 110)
  | .islandStopped _ => true
  | .islandRun _ => true
  | .journalFlashProgram _ q => decide (q < 4)
  | .journalFlashDone _ q _ => decide (q < 4)
  | .journalHoldTimeout _ q => decide (q < 4)
  | .journalHoldRelease _ q => decide (q < 4)
  | .tallySample _ _ => true
  | .pressLinkMonitor _ q _ => decide (q < 4)
  | .pressThermal _ q _ _ _ => decide (q < 4)
  | .pressCalRecord _ q _ => decide (q < 4)
  | .darnAging _ q _ _ _ _ _ => decide (q < 4)
  | .powerContact _ _ => true
  | .rampStart _ _ _ _ _ => true
  | .rampInterlockFail _ _ _ _ _ _ => true
  | .pwrEnLow _ => true
  | .pwrOff _ _ => true
  | .shutdownComplete _ => true
  | .throttleUpdate _ _ _ _ => true
  | .vRange _ _ => true
  | .coolantSample _ _ _ _ => true
  | .thermalLimitUpdate _ _ _ => true
  | .trip _ cause q _ => decide (1 ≤ cause ∧ cause ≤ 7 ∧ q < 4)
  | .tripRelease _ => true
  | .smbPstat _ => true
  | .smbRegAddr _ _ _ => true
  | .smbRegRead _ => true
  | .smbRegWrite _ _ _ => true
  | .smbAlertResponse _ => true
  | .smbClockLowReset _ => true
  | .bootCold _ _ => true
  | .bootWarm _ _ => true
  | .bootUnpick _ _ => true
  | .unpickDrainDone _ _ => true
  | .unpickTransferDone _ => true
  | .startPhaseComplete _ _ => true
  | .startPhaseFail _ cause q _ => decide (1 ≤ cause ∧ cause ≤ 9 ∧ q < 4)
  | .startRetry _ _ _ => true
  | .tileWatchdog _ q p a => decide (q < 4 ∧ p < 32 ∧ a < 3)
  | .engineWatchdog _ q n _ => decide (q < 4 ∧ n < 164)
  | .serviceHeartbeatTimer _ => true
  | .serviceFailover _ _ => true
  | .cpWatchdog _ q idx => decide (q < 4 ∧ idx < 4)
  | .cpWatchdogKick _ q idx => decide (q < 4 ∧ idx < 4)
  | .cpHalt _ _ q idx => decide (q < 4 ∧ idx < 4)
  | .cpReset _ _ q idx => decide (q < 4 ∧ idx < 4)
  | .spdmGetVersion _ port idx => decide (port < 4 ∧ idx < 16)
  | .spdmGetCapabilities _ port idx _ => decide (port < 4 ∧ idx < 16)
  | .spdmNegotiateAlgorithms _ port idx _ _ => decide (port < 4 ∧ idx < 16)
  | .spdmGetDigests _ port idx _ => decide (port < 4 ∧ idx < 16)
  | .spdmGetCertificate _ port idx _ _ _ _ => decide (port < 4 ∧ idx < 16)
  | .spdmChallenge _ port idx _ _ _ => decide (port < 4 ∧ idx < 16)
  | .spdmGetMeasurements _ port idx _ _ _ _ => decide (port < 4 ∧ idx < 16)
  | .spdmKeyExchange _ port idx _ _ _ => decide (port < 4 ∧ idx < 16)
  | .spdmFinish _ _ _ _ => true
  | .spdmHeartbeat _ _ => true
  | .spdmKeyUpdate _ _ _ => true
  | .spdmEndSession _ _ => true
  | .spdmHeartbeatTimeout _ _ => true
  | .getReport _ _ _ => true
  | .fwStage _ _ _ _ _ _ _ _ _ => true
  | .fwRaiseFloor _ _ cls _ _ => decide (cls < 5)
  | .sitePortLinkDown _ port => decide (port < 4)
  | .sitePortLinkUp _ port => decide (port < 4)
  | .routerAdvertisement _ port _ => decide (port < 4)
  | .dhcpv4Reply _ port _ => decide (port < 4)
  | .migrationQpRequest _ q site _ _ _ _ _ => decide (q < 4 ∧ site < 8)
  | .pfcPauseFrame _ port _ => decide (port < 4)
  | .cmDisconnectRequest _ port idx => decide (port < 4 ∧ idx < 16)
  | .neighTableDeadline _ => true
  | .aonPowerLoss _ => true

end Sys2Proof
end

