-- ==== Sys2Proof/Safety.lean ====
section
/-! DEFINITION. What counts as a sound state, what every command keeps, and the conditions under which commands take effect. -/

namespace Sys2Proof
open Machine

/-- A sound state: memory and the stored registers are in their canonical form, so that equal contents are equal data. -/
abbrev Machine.State.Sound (s : Machine.State) : Prop :=
  Machine.Memory.wf s.mem ∧ Machine.mapWf Machine.regDefault s.regs

/-- A command answers a next state of which P holds. -/
def Completes (i : Instr) (s : Machine.State) (P : Machine.State → Prop) : Prop :=
  ∃ u, Machine.exec i s = .next u ∧ P u

/-- Nothing waits: no access is held at an island or by a journal, no action is stalled, no write waits for a lease, and no
uncorrectable line waits for its page mend. -/
abbrev Calm (s : Machine.State) : Prop :=
  s.clk.held = [] ∧ s.clk.stalled = [] ∧ s.leases.writes = [] ∧ s.train.ueLines = [] ∧
  ∀ e ∈ s.journals, e.2.held = []

/-- An origin may write a register now (R304, R318, R363, R378): nothing waits, the origin may make the access (the sideband
only to PWR), the page's island runs, and its journal has room. -/
abbrev Granted (s : Machine.State) (o : Origin) (p : Page) (off : Nat) : Prop :=
  Calm s ∧ s.admits o p off = true ∧ (o = .sideband → p = mPage .pwr) ∧ s.reachable p = true ∧ (s.journal (s.journalOf p)).ring.length < 61440 ∧
  p.win ≤ 4 ∧ p.slot < 4096 ∧ off < 4096 ∧ off % 4 = 0

/-- No error is stored in memory, and no correction and no access of a stack is on its way: every read delivers what was
written. -/
abbrev Clean (s : Machine.State) : Prop :=
  s.ecc = [] ∧ s.compute.fold.writeBacks = [] ∧ ∀ e ∈ s.stackUnits, e.2.writeBacks = [] ∧ e.2.reqs = [] ∧ e.2.waiting = []

/-- The engine of queue n of quarter q has run entry i of its window, which starts at `a` and whose path time ends at ACLK
`stop`: the entry is done, and the queue is otherwise as it was (R105, R120, R330). -/
abbrev Ran (a u : Machine.State) (q n i : Nat) (w : WinEntry) (stop : Nat) : Prop :=
  let w' : WinEntry := { w with status := .done, startedAt := a.now, salt := a.salt q, attempt := a.attempt, waitUntil := stop }
  u.queue q n = { a.queue q n with window := (a.queue q n).window.set i w' }

/-- The draws of a descriptor that starts now (R119, R120). -/
def Machine.State.drawsOf (a : Machine.State) (q : Nat) (w : WinEntry) : DrawKey :=
  a.keyOfEntry q { w with salt := a.salt q, attempt := a.attempt }

/-- The entry of an update program that starts now: what it reads of the learning rate follows what its fetch read (R120,
R171, R172). -/
def Machine.State.startsUpdate (a : Machine.State) (q : Nat) (w : WinEntry) : WinEntry :=
  { w with status := .running, startedAt := a.now, salt := a.salt q, attempt := a.attempt, next := 0
           got := padTo 256 0 w.got ++ memBytes a.mem (a.lrAddr (paramOf w.got)) 4 }

/-- Element (n, j) of a state layout of `rows` by `cols` elements at an address, as its block decodes; padding reads as zero
(R22, R170). -/
def Machine.State.momentAt (a : Machine.State) (x rows cols n j : Nat) : Machine.Num :=
  let b := j / 16
  let scale := leNat (memBytes a.mem (x + rows * layoutElemStride cols + n * layoutScaleStride cols + b) 1)
  let elems := leNat (memBytes a.mem (x + n * layoutElemStride cols + 16 * b) 16)
  (decodeBlock .sq8e4 scale (unpadded (cols - 16 * b) (unpackElems 8 16 elems))).getD (j % 16) .zero

/-- A little-endian 16-bit word of memory. -/
def word16 (m : List Host.Cell) (x : Nat) : Nat := leNat (memBytes m x 2)

/-- Two ranges of bytes do not meet. -/
abbrev Apart (x n y m : Nat) : Prop := x + n ≤ y ∨ y + m ≤ x

/-- A frame with a body is in order at a port that is up, not silenced, and for this module, or for the port's neighbour
(`hop`): it breaks no rule of its form, and its body is acted on here (R237 to R241, R262). -/
abbrev Delivered (a : State) (h : RxHdr) (b : Body) (hop : Bool) : Prop :=
  a.portUp h.q h.d = true ∧ rxBad h b = false ∧ h.raw.any (rxRefused b) = false ∧ h.lseq = (a.port h.q h.d).rxSeq ∧
  (a.bit (qPage .fport h.q h.d) Reg.FPORT_PORT_STS 4 = false ∨ h.vl = 6) ∧ (hop = true ∨ h.dst / 2 ^ 45 % 2 ^ 18 = a.selfId)

/-- A TREE message of the present term is delivered (R244, R258). -/
abbrev Heard (a : State) (h : RxHdr) (th : TreeHdr) (m : TreeMsg) : Prop :=
  Delivered a h (.tree th m) false ∧ th.term = a.num (mPage .pod) Reg.POD_LEAD_TERM

/-- Every fragment of a frame waits at a port of a direction (R240, R244). -/
abbrev Waits (u : State) (d : Nat) (f : Frame) : Prop := ∀ g ∈ f.fragments, ∃ q < 4, ∃ w ∈ (u.port q d).waiting, w.frame = g

/-- A frame goes out, in a direction of its own where one is given: where it has a next hop, it waits at a port of that
hop's direction (R191, R247, R251). -/
abbrev GoesBy (a u : State) (f : Frame) (travel : Option Nat) : Prop :=
  ∀ h, a.nextHop (f.src % 2 ^ 15) (f.dst / 2 ^ 45 % 2 ^ 15) f.route travel = some h →
    Waits u h.dir { f with cls := h.cls, route := h.route }

/-- A frame goes out the shorter way (R251). -/
abbrev Goes (a u : State) (f : Frame) : Prop := GoesBy a u f none

/-- What taking a delivered frame in changes of a state `a`, whose own effect is in it: the port, and the port's FEC counters
and event (R236 to R241). -/
abbrev Took (a u : State) (h : RxHdr) : Prop :=
  u = { a with fabric := { a.fabric with ports := u.fabric.ports }, regs := u.regs, cycle := u.cycle, events := u.events,
               pulses := u.pulses } ∧
  ∀ p off, p ≠ qPage .fport h.q h.d → u.reg p off = a.reg p off

/-- A message of this module's services goes to a module by site and chip (R240). -/
abbrev Tells (a u : State) (vl id : Nat) (b : Body) : Prop := Goes a u (a.ownFrame vl a.service (id * 2 ^ 45) b)

/-- A message goes to the neighbour of a port, on that port (R243, R245). -/
abbrev Says (a u : State) (q d : Nat) (b : Body) : Prop :=
  ∀ g ∈ (a.ownFrame 6 q (a.field (qPage .fport q d) Reg.FPORT_NEIGH_ID 0 18 * 2 ^ 45) b).fragments,
    ∃ w ∈ (u.port q d).waiting, w.frame = g

/-- No collective runs and no step is open: a mend or a new configuration has no step to recover (R453). -/
abbrev Still (a : State) : Prop := a.coll.ops = [] ∧ a.stepState = 0 ∧ a.train.stage = .none ∧ a.train.commit = none

/-- A host request is in its turn on an established queue pair, and nothing waits (R304, R305). -/
abbrev InTurn (a : State) (port i psn : Nat) (x : HostQp) : Prop :=
  Calm a ∧ a.clk.got = [] ∧ port < 4 ∧ i < 16 ∧ a.hostQp (qpKey port i) = some x ∧ psn = x.psn ∧ psn < 2 ^ 24

/-- A request on a host queue pair was answered: the reply went out and the queue pair expects the PSN after its packets. -/
abbrev Answered (a u : State) (port i psn len : Nat) (x : HostQp) (r : HostReply) : Prop :=
  u.out = a.out ++ [.hostReply (qpKey port i) psn r] ∧
  (u.hostQp (qpKey port i)).map (·.psn) = some ((psn + x.packets len) % 2 ^ 24)

end Sys2Proof
end

