-- ==== Sys2Proof/Certificates/Slice0/Obligations.lean ====
section
/-! DEFINITION. The statements for the provers: what the commands of the block do, what they leave, and what holds of every step. -/

open Sys2Proof
open Sys2Proof.Machine

/-- For every state and every command at the front of its queue, a step is exec of that command on the state whose
queue is the rest. With no command waiting, a step answers the same state: this is the model's choice (log entry 8),
as the table has no row for a tick. (95_what_each_step_holds) -/
def Obligations.StepRunsFrontCommand : Prop :=
  (∀ (s : State) (c : Instr) (rest : List Instr), s.pending = c :: rest → step s = exec c { s with pending := rest }) ∧
  (∀ s : State, s.pending = [] → step s = .next s)

/-- Whatever command runs on whatever state, and whatever next state it answers, the queue of waiting commands is as
it was. (95_what_each_step_holds) -/
def Obligations.CommandsLeaveTheQueue : Prop :=
  ∀ (c : Instr) (s u : State), exec c s = .next u → u.pending = s.pending

/-- On every state every command of the table answers a next state: the model stops on none of them. Where each has
its own effect, the statements about the command say. (95_what_each_step_holds) -/
def Obligations.EveryCommandAnswers : Prop :=
  ∀ (c : Instr) (s : State), ∃ u, exec c s = .next u

/-- After reset memory and the stored registers are in their canonical form, no command waits, and no access, write or
mend waits. What a register holds that the rules leave open is the model's choice (log entry 3). (R352, R367) -/
def Obligations.ResetIsSound : Prop :=
  State.reset.Sound ∧ State.reset.pending = [] ∧ Calm State.reset ∧ Clean State.reset

/-- From every sound state, reached or not, every step answers a sound state: no step lists a byte or a register at
what an unlisted one reads as, and none lists one twice or out of order. The canonical form is the model's (log entry
4). (R5, R352, R351) -/
def Obligations.StepsKeepSound : Prop :=
  ∀ s u : State, s.Sound → step s = .next u → u.Sound

/-- Whatever a step answers, its time is not before the time it began at, everything that had been sent is still there
in its order with what the step sent after it, and no free value is taken twice. How time and free values are held is
the model's (log entries 1, 2 and 6). (R253, R375, R383) -/
def Obligations.StepsGoForward : Prop :=
  ∀ s u : State, step s = .next u → s.now ≤ u.now ∧ s.out <+: u.out ∧ s.free ≤ u.free

/-- After any command the time of the block is the later of its stamp and the time before: no command runs time past
its own stamp. The stamp is the model's (log entry 1). (R253, R324) -/
def Obligations.CommandsReachTheirStamp : Prop :=
  ∀ (c : Instr) (s u : State), exec c s = .next u → u.now = max s.now c.stamp

/-- A read of an offset at which a page has no register, or of a page slot that holds no block, delivers 0, whatever
the state. (R8, R351) -/
def Obligations.ReservedPlacesReadZero : Prop :=
  ∀ (s : State) (p : Page) (off : Nat), off < 4096 → (p.kind = none ∨ p.specAt off = none) → (s.readReg p off).2 = 0

/-- A granted write of an aligned word to a register of a page whose registers act on nothing else (RNG, BGND, TALLY,
HK, EXP, OPT, EVQ, JRNL, FOLD), with a value in range, answers a next state: the RW bits take the value written and
the other bits stay; the journal of the page gains exactly one entry, with the origin, the old value, CODE 0 and the
next SEQ; and nothing else changes but the page's JRNL_SEQ. A narrow write of a hart is refused instead, with CODE 4,
and stores nothing. (R5, R8, R361, R371, R372, R374) -/
def Obligations.WritesStoreAndAreJournalled : Prop :=
  (∀ (t : Nat) (o : Origin) (win slot off : Nat) (v : Word) (k : PageKind) (r : RegSpec) (s : State),
    let a := s.advance t
    let p : Page := ⟨win, slot⟩
    let j := a.journal (a.journalOf p)
    Granted a o p off → p.kind = some k → k ∈ [.rng, .bgnd, .tally, .hk, .exp, .opt, .evq, .jrnl, .fold] → 0x100 ≤ off →
    p.specAt off = some r → r.rw ≠ 0 → rangeOk k off v.toNat = true →
    Completes (.registerWrite t o win slot off v false) s (fun u =>
      u.reg p off = (a.reg p off &&& ~~~(BitVec.ofNat 32 r.rw)) ||| (v &&& BitVec.ofNat 32 r.rw) ∧
      (∃ e, (u.journal (a.journalOf p)).ring = j.ring ++ [e] ∧ e.origin = o ∧ e.page = p ∧ e.off = off ∧ e.code = 0 ∧
        e.old = a.value p off ∧ e.seq = j.seq) ∧
      (∀ p' off', p'.reg off' ≠ p.reg off → p'.reg off' ≠ p.reg Reg.HDR_JRNL_SEQ → u.reg p' off' = a.reg p' off') ∧
      u = { a with regs := u.regs, cycle := u.cycle, journals := u.journals })) ∧
  (∀ (t q i win slot off : Nat) (v : Word) (k : PageKind) (s : State),
    let a := s.advance t
    let p : Page := ⟨win, slot⟩
    let j := a.journal (a.journalOf p)
    Granted a (.cp q i) p off → p.kind = some k → p ≠ mPage .evq → off ≠ Reg.HDR_JRNL_SEQ → off ≠ Reg.HDR_EVT_STS → off ≠ Reg.HDR_EVT_COUNT →
    Completes (.registerWrite t (.cp q i) win slot off v true) s (fun u =>
      u.reg p off = a.reg p off ∧
      ∃ e, (u.journal (a.journalOf p)).ring = j.ring ++ [e] ∧ e.code = 4 ∧ e.old = e.new ∧ e.origin = .cp q i))

/-- A granted write of v to EVT_STS, with hardware setting the bits hw in the same CCLK, answers a next state in which
a bit that the page raises reads 1 if hardware set it with the write, and otherwise reads 1 exactly if it did before and
either v does not name it or hardware set it earlier in this CCLK. The EVQ page's own bit 0 is left out: it may be set
by the alarm that is raised. Memory and every unit are as they were. (R6) -/
def Obligations.ClearingLosesToSets : Prop :=
  ∀ (t : Nat) (o : Origin) (win slot : Nat) (v hw : Word) (k : PageKind) (s : State),
    let a := s.advance t
    let p : Page := ⟨win, slot⟩
    let set := ((a.change p Reg.HDR_EVT_STS).map (·.set)).getD 0
    Granted a o p Reg.HDR_EVT_STS → p.kind = some k → ¬ (k = .sec ∧ ∃ id, o = .lead id) →
    Completes (.evtStsClear t o win slot v hw) s (fun u =>
      (∀ b, bitAt k.evtMask b = true → (p = mPage .evq → b ≠ 0) →
        u.bit p Reg.HDR_EVT_STS b = (bitAt hw.toNat b || (a.bit p Reg.HDR_EVT_STS b && (!bitAt v.toNat b || bitAt set b)))) ∧
      u = { a with regs := u.regs, cycle := u.cycle, journals := u.journals, events := u.events })

/-- A granted write of v to EVT_FORCE, with hardware setting hw in the same CCLK, sets every bit that the page raises and
v or hw names, leaves the others, and adds one to EVT_COUNT for each set (a bit that both name counts twice), up to its
largest value. A granted write of EVT_EN stores the bits that the page raises. The EVQ page is left out of the first: an
alarm may set its bit 0. Memory and every unit are as they were. (R357, R358) -/
def Obligations.ForcedEventsSetAndCount : Prop :=
  (∀ (t : Nat) (o : Origin) (win slot : Nat) (v hw : Word) (k : PageKind) (s : State),
    let a := s.advance t
    let p : Page := ⟨win, slot⟩
    let n (x : Word) : Nat := ((List.range k.evtBits).filter (fun b => bitAt x.toNat b && bitAt k.evtMask b)).length
    Granted a o p Reg.HDR_EVT_FORCE → p.kind = some k → p ≠ mPage .evq → ¬ (k = .sec ∧ ∃ id, o = .lead id) →
    Completes (.evtForce t o win slot v hw) s (fun u =>
      (∀ b, b < k.evtBits → u.bit p Reg.HDR_EVT_STS b =
        (a.bit p Reg.HDR_EVT_STS b || (bitAt k.evtMask b && (bitAt v.toNat b || bitAt hw.toNat b)))) ∧
      u.num p Reg.HDR_EVT_COUNT = min 0xFFFFFFFF (a.num p Reg.HDR_EVT_COUNT + n v + n hw) ∧
      u = { a with regs := u.regs, cycle := u.cycle, journals := u.journals, events := u.events })) ∧
  (∀ (t : Nat) (o : Origin) (win slot : Nat) (v : Word) (k : PageKind) (s : State),
    let a := s.advance t
    let p : Page := ⟨win, slot⟩
    Granted a o p Reg.HDR_EVT_EN → p.kind = some k → ¬ (k = .sec ∧ ∃ id, o = .lead id) →
    Completes (.evtEnWrite t o win slot v) s (fun u =>
      u.num p Reg.HDR_EVT_EN = (v.toNat &&& k.evtMask) ∧
      u = { a with regs := u.regs, cycle := u.cycle, journals := u.journals, events := u.events }))

/-- On a page that supports them: a quiesce request sets or clears QUIESCE and keeps ENABLE, if the page is enabled,
is quiesced or has no ENABLE; an enabling write sets ENABLE; a disabling write clears it if the page reports QUIESCED,
and otherwise leaves PAGE_CTL as it was and is journalled with CODE 2. Memory and every unit are as they were. (R354)
-/
def Obligations.PageControlFollowsItsRule : Prop :=
  (∀ (t : Nat) (o : Origin) (win slot : Nat) (b : Bool) (k : PageKind) (s : State),
    let a := s.advance t
    let p : Page := ⟨win, slot⟩
    Granted a o p Reg.HDR_PAGE_CTL → p.kind = some k → k.quiesces = true →
    (k.enables = false ∨ a.bit p Reg.HDR_PAGE_CTL 0 = true ∨ a.quiesced p = true) →
    Completes (.pageQuiesce t o win slot b) s (fun u =>
      u.bit p Reg.HDR_PAGE_CTL 1 = b ∧ (k.enables = true → u.bit p Reg.HDR_PAGE_CTL 0 = a.bit p Reg.HDR_PAGE_CTL 0) ∧
      u = { a with regs := u.regs, cycle := u.cycle, journals := u.journals })) ∧
  (∀ (t : Nat) (o : Origin) (win slot : Nat) (k : PageKind) (s : State),
    let a := s.advance t
    let p : Page := ⟨win, slot⟩
    Granted a o p Reg.HDR_PAGE_CTL → p.kind = some k → k.quiesces = true → k.enables = true →
    Completes (.pageEnable t o win slot) s (fun u =>
      u.bit p Reg.HDR_PAGE_CTL 0 = true ∧ u.bit p Reg.HDR_PAGE_CTL 1 = a.bit p Reg.HDR_PAGE_CTL 1 ∧
      u = { a with regs := u.regs, cycle := u.cycle, journals := u.journals }) ∧
    Completes (.pageDisable t o win slot) s (fun u =>
      u.bit p Reg.HDR_PAGE_CTL 0 = (!a.quiesced p && a.bit p Reg.HDR_PAGE_CTL 0) ∧
      u.bit p Reg.HDR_PAGE_CTL 1 = a.bit p Reg.HDR_PAGE_CTL 1 ∧
      ((u.journal (a.journalOf p)).ring.getLast?).map (·.code) = some (if a.quiesced p then 0 else 2) ∧
      u = { a with regs := u.regs, cycle := u.cycle, journals := u.journals }))

/-- A granted write of TAIL is performed exactly if the queue has a ring and the new occupancy is neither below the
old nor above the ring's size: then TAIL is the low 16 bits written, and otherwise the queue stays as it was. A
granted write of RING_CFG is performed exactly if HEAD is TAIL, the window is empty, and a ring of 16 to 4,096 entries
lies in the populated Fold: then the base and the size are the fields written. Every other queue, and memory, is as it
was. (R102, R103, R112) -/
def Obligations.RingRegistersFollowTheirRules : Prop :=
  (∀ (t : Nat) (o : Origin) (q n : Nat) (v : Word) (s : State),
    let a := s.advance t
    let p := qPage .qring q (n / 128)
    let x := a.queue q n
    let occ := (v.toNat % 65536 + 65536 - x.head) % 65536
    q < 4 → n < 256 → queueExists n = true → Granted a o p (ringSlotReg n 4) →
    Completes (.ringTailWrite t o q n v) s (fun u =>
      u.queue q n = (if x.hasRing ∧ x.occupancy ≤ occ ∧ occ ≤ 2 ^ x.log2 then { x with tail := v.toNat % 65536 } else x) ∧
      (∀ q' n', 256 * q' + n' ≠ 256 * q + n → u.queue q' n' = a.queue q' n') ∧
      u = { a with regs := u.regs, cycle := u.cycle, journals := u.journals, events := u.events, pulses := u.pulses, compute := u.compute })) ∧
  (∀ (t : Nat) (o : Origin) (q n : Nat) (v : Word) (s : State),
    let a := s.advance t
    let p := qPage .qring q (n / 128)
    let x := a.queue q n
    let base := bitsOf v.toNat 0 22
    let log := bitsOf v.toNat 22 4
    q < 4 → n < 256 → queueExists n = true → Granted a o p (ringSlotReg n 0) →
    Completes (.ringCfgWrite t o q n v) s (fun u =>
      u.queue q n = (if x.head = x.tail ∧ x.window = [] ∧ ¬ (4 ≤ log ∧ log ≤ 12 ∧ 0x280000 < base + 2 ^ log)
        then { x with base := base, log2 := log } else x) ∧
      (∀ q' n', 256 * q' + n' ≠ 256 * q + n → u.queue q' n' = a.queue q' n') ∧
      u = { a with regs := u.regs, cycle := u.cycle, journals := u.journals, events := u.events, pulses := u.pulses, compute := u.compute }))

/-- For a queue with nothing fetched behind its halt: RESUME of an array or of an engine ends the halt and takes the
refused or failed descriptor out of the window, except that an update engine keeps it as done and skipped, so that it
signals; RETRY of a streamer, the exporter or the collective sequencer after a runtime failure ends the halt and makes
the failed descriptor wait again from its first segment, a collective with the next epoch. Memory is as it was. (R65,
R115, R460) -/
def Obligations.HaltedQueuesResumeAndRetry : Prop :=
  (∀ (t : Nat) (o : Origin) (q p i n : Nat) (s : State),
    let a := s.advance t
    let x := a.queue q (3 * n + i)
    q < 4 → p < 32 → i < 3 → Granted a o (qPage .array q p) (Reg.ARRAY_ARR_CTL + 0x40 * i) →
    (List.range 30).find? (fun m => a.physOf q m == p) = some n → x.halt = some .refused → x.fetches = [] →
    Completes (.arrayResume t o q p i) s (fun u =>
      (u.queue q (3 * n + i)).halt = none ∧
      (u.queue q (3 * n + i)).window = x.window.filter (fun w => w.status != .failed) ∧ u.mem = a.mem ∧ u.ecc = a.ecc)) ∧
  (∀ (t : Nat) (o : Origin) (q n : Nat) (k : PageKind) (i : Nat) (s : State),
    let a := s.advance t
    let x := a.queue q n
    let failed (w : WinEntry) : Bool := w.status == .failed
    q < 4 → engineOf n = some (k, i) → Granted a o (enginePage q n) Reg.ENG_ENG_CTL →
    (x.halt = some .refused ∨ x.halt = some .runtime) → x.fetches = [] →
    Completes (.engineResume t o q n) s (fun u =>
      (u.queue q n).halt = none ∧ u.mem = a.mem ∧ u.ecc = a.ecc ∧
      (u.queue q n).window = (if 160 ≤ n
        then x.window.map (fun w => if failed w then { w with status := .done, skip := true, waitUntil := 0 } else w)
        else x.window.filter (fun w => !failed w)))) ∧
  (∀ (t : Nat) (o : Origin) (q n : Nat) (s : State),
    let a := s.advance t
    let x := a.queue q n
    q < 4 → 136 ≤ n → n < 154 → Granted a o (enginePage q n) Reg.ENG_ENG_CTL → x.halt = some .runtime →
    Completes (.engineRetry t o q n) s (fun u =>
      (u.queue q n).halt = none ∧
      (u.queue q n).window = x.window.map (fun w => if w.status == .failed then
        { w with status := .waiting, next := if n = 153 then w.next + 1 else 0, open_ := [], err := 0 } else w) ∧
      u = { a with regs := u.regs, cycle := u.cycle, journals := u.journals, compute := u.compute }))

/-- A granted write of a completion counter stores the value written, with what was added to the counter in this ACLK
added after it, except that counter 0, the reserved counters of the step, and ROUND_READY while migration is enabled
refuse it and stay as they were. In IDLE a granted write of a
word of ATTEMPT or COMMITTED stores it; in every other state the word stays as it was. Every other counter is as it
was. (R109, R113, R142, R143, R276) -/
def Obligations.CountersAndStepCountsAreWritten : Prop :=
  (∀ (t : Nat) (o : Origin) (q k : Nat) (v : Word) (s : State),
    let a := s.advance t
    q < 4 → k < 4096 → Granted a o (qPage .signal q (k / 256)) (0x100 + 4 * (k % 256)) →
    Completes (.signalCounterWrite t o q k v) s (fun u =>
      u.counter q k = (if k = 0 ∨ reservedCounter k ∨ (a.migOn ∧ k = 4091) then a.counter q k
        else min 0xFFFFFFFF (v.toNat + a.added q k)) ∧
      (∀ q' k', 4096 * q' + k' ≠ 4096 * q + k → u.counter q' k' = a.counter q' k') ∧
      u = { a with regs := u.regs, cycle := u.cycle, journals := u.journals, compute := u.compute })) ∧
  (∀ (t : Nat) (o : Origin) (k : Nat) (v : Word) (s : State),
    let a := s.advance t
    let off := Reg.STEP_ATTEMPT_LO + 4 * k
    k < 4 → Granted a o (mPage .step) off →
    Completes (.stepCountWrite t o k v) s (fun u =>
      u.reg (mPage .step) off = (if a.stepState = 0 then v else a.reg (mPage .step) off)))

/-- CLAIM of a lease that was not claimed starts it with no grant, and one that was claimed stays as it is; clearing
it ends the grant; a range is written only while the lease is not held. A ring that is off, whose class no other ring
serves, is enabled at PROD 0 and CONS 0 with nothing unacknowledged; its PROD goes out on its queue pair, or QP_DOWN
shows. A QPN is stored while its ring is off. A topology register in range takes its value, and no collective runs on.
Memory is as it was. (R157, R159, R199, R262, R310) -/
def Obligations.LeasesRingsAndTopologyAreWritten : Prop :=
  (∀ (t : Nat) (o : Origin) (n : Nat) (b : Bool) (s : State),
    let a := s.advance t
    let off := leaseReg Reg.LEASE_Ln_CTL n
    1 ≤ n → n ≤ 240 → Granted a o (mPage .lease) off →
    Completes (if b then .leaseClaim t o n else .leaseRelease t o n) s (fun u =>
      u.bit (mPage .lease) off 0 = b ∧
      u.lease n = (if a.bit (mPage .lease) off 0 = b then a.lease n
        else { a.lease n with granted := false, mixed := false, claimStep := 0 }) ∧
      (∀ m, m ≠ n → u.lease m = a.lease m) ∧
      u = { a with regs := u.regs, cycle := u.cycle, journals := u.journals, leases := u.leases })) ∧
  (∀ (t : Nat) (o : Origin) (n : Nat) (count : Bool) (v : Word) (s : State),
    let a := s.advance t
    let off := leaseReg (if count then Reg.LEASE_Ln_COUNT else Reg.LEASE_Ln_BASE) n
    1 ≤ n → n ≤ 240 → Granted a o (mPage .lease) off → (count = true → v.toNat % 2 ^ 25 ≤ 2 ^ 24) →
    Completes (.leaseRangeWrite t o n count v) s (fun u =>
      u.num (mPage .lease) off = (if a.leaseHeld n then a.num (mPage .lease) off
        else a.num (mPage .lease) off / 2 ^ (if count then 25 else 24) * 2 ^ (if count then 25 else 24) +
          v.toNat % 2 ^ (if count then 25 else 24)) ∧
      u = { a with regs := u.regs, cycle := u.cycle, journals := u.journals, events := u.events, pulses := u.pulses })) ∧
  (∀ (t : Nat) (o : Origin) (n : Nat) (v : Word) (s : State),
    let a := s.advance t
    let off := ringReg Reg.HOST_EVRn_CFG n
    let w := v.toNat
    n < 8 → Granted a o (mPage .host) off → a.ringOn n = false → 16 ≤ bitsOf w 0 5 → bitsOf w 0 5 ≤ 30 → bitsOf w 5 3 ≤ 3 →
    (∀ i, i < 8 → i ≠ n → a.ringOn i = true → bitsOf (a.ringCfg i) 5 3 ≠ bitsOf w 5 3) →
    Completes (.eventRingEnable t o n v) s (fun u =>
      u.ringOn n = true ∧ (u.ring n).prod = 0 ∧ (u.ring n).cons = 0 ∧ (u.ring n).unacked = [] ∧
      u.ringIsDown n = (a.ringQp n).isNone ∧
      u.out = a.out ++ (a.ringQp n).toList.map (fun k => .hostWrite k (a.ringBase n) (a.ringKey n) (leBytes 8 0)) ∧
      u = { a with regs := u.regs, cycle := u.cycle, journals := u.journals, events := u.events, pulses := u.pulses, host := u.host, outAt := u.outAt, out := u.out })) ∧
  (∀ (t : Nat) (o : Origin) (n : Nat) (v : Word) (s : State),
    let a := s.advance t
    let off := ringReg Reg.HOST_EVRn_QPN n
    n < 8 → Granted a o (mPage .host) off → a.ringOn n = false →
    Completes (.eventRingQpnWrite t o n v) s (fun u =>
      u.num (mPage .host) off = a.num (mPage .host) off / 2 ^ 24 * 2 ^ 24 + v.toNat % 2 ^ 24 ∧
      u = { a with regs := u.regs, cycle := u.cycle, journals := u.journals })) ∧
  (∀ (t : Nat) (o : Origin) (off : Nat) (v : Word) (r : RegSpec) (s : State),
    let a := s.advance t
    Reg.COLL_SHAPE ≤ off → off ≤ Reg.COLL_TREE → Granted a o (mPage .coll) off → (mPage .coll).specAt off = some r →
    (off = Reg.COLL_TREE → v.toNat % 8 ≠ 6) →
    Completes (.collTopologyWrite t o off v) s (fun u =>
      u.reg (mPage .coll) off = (a.reg (mPage .coll) off &&& ~~~(BitVec.ofNat 32 r.rw)) ||| (v &&& BitVec.ofNat 32 r.rw) ∧
      u.coll.ops = [] ∧ u.mem = a.mem ∧ u.ecc = a.ecc))

/-- CHECK at the lead starts a link check of CHECK_ATT: it is BUSY, and the reports of every module are awaited. GO of
a repair whose line lies in the stack, with a free spare and no copy running, takes the next spare unit. ENABLE 0 of a
port takes its link down. In IDLE discovery begins with the election, unless the straps read wrong, and SET of pod time
is armed. At the lead CUT of a spare marks it CUT and names it in LAST_LOST; an unpick under way is left out. (R203, R224, R255, R259, R261, R266)
-/
def Obligations.CommandsOfThePodAndItsLinksAct : Prop :=
  (∀ (t : Nat) (o : Origin) (s : State),
    let a := s.advance t
    Granted a o (mPage .coll) Reg.COLL_CHECK → a.isLead = true →
    Completes (.linkCheckStart t o) s (fun u =>
      u.bit (mPage .coll) Reg.COLL_CHECK_STS 0 = true ∧ u.coll.checkLeft = a.podModules ∧
      u.coll.checking = some (a.num (mPage .coll) Reg.COLL_CHECK_ATT) ∧
      u = { a with regs := u.regs, cycle := u.cycle, journals := u.journals, events := u.events, pulses := u.pulses, fabric := u.fabric, coll := u.coll })) ∧
  (∀ (t : Nat) (o : Origin) (q slot : Nat) (x : StackPlace) (s : State),
    let a := s.advance t
    let p := qPage .nmem q slot
    let y := a.stack q slot
    q < 4 → slot < 8 → Granted a o p Reg.NMEM_REPAIR_CTL →
    stackPlace (a.num64 p Reg.NMEM_REPAIR_ADDR_LO Reg.NMEM_REPAIR_ADDR_HI) = some x → x.quarter = q → x.slot = slot →
    y.copying = false → y.usedIn x.pc x.bank < 32 →
    let r : Repair := { pc := x.pc, bank := x.bank, unit := x.index / 16, spare := y.usedIn x.pc x.bank, lines := 0, copied := false }
    Completes (.repairGo t o q slot) s (fun u =>
      u.stack q slot = { y with hardPending := true, repairs := y.repairs ++ [r], recorded := y.recorded ++ [r] } ∧
      u = { a with regs := u.regs, cycle := u.cycle, journals := u.journals, events := u.events, pulses := u.pulses, stackUnits := u.stackUnits })) ∧
  (∀ (t : Nat) (o : Origin) (q d : Nat) (s : State),
    let a := s.advance t
    let p := qPage .fport q d
    q < 4 → d < 6 → Granted a o p Reg.FPORT_PORT_CTL → a.field p Reg.FPORT_PORT_CTL 1 2 ≠ 3 → a.isLead = false →
    Completes (.portDisable t o q d) s (fun u =>
      u.reg p Reg.FPORT_PORT_CTL = a.reg p Reg.FPORT_PORT_CTL &&& ~~~1#32 ∧ u.portUp q d = false ∧
      u = { a with regs := u.regs, cycle := u.cycle, journals := u.journals, events := u.events, pulses := u.pulses, fabric := u.fabric, frecs := u.frecs })) ∧
  (∀ (t : Nat) (o : Origin) (s : State),
    let a := s.advance t
    Granted a o (mPage .pod) Reg.POD_POD_CMD → a.stepState = 0 →
    Completes (.discoveryStart t o) s (fun u =>
      u.fabric.pod.stage = (if a.strapErr = true then .idle else .election) ∧ u.fabric.pod.tables = [] ∧ u.field (mPage .pod) Reg.POD_ROLE 2 2 = 3 ∧
      (∀ q d, q < 4 → d < 6 → u.bit (qPage .fport q d) Reg.FPORT_NEIGH_ID 31 = false) ∧
      u = { a with regs := u.regs, cycle := u.cycle, journals := u.journals, fabric := u.fabric }) ∧
    Completes (.ptApply t o) s (fun u =>
      u = { a with regs := u.regs, cycle := u.cycle, journals := u.journals,
                   fabric := { a.fabric with pod := { a.fabric.pod with setArmed := true } } })) ∧
  (∀ (t : Nat) (o : Origin) (s : State),
    let a := s.advance t
    let chip := a.field (mPage .pod) Reg.POD_CUT_SEL 0 15
    Granted a o (mPage .pod) Reg.POD_POD_CMD → a.isLead = true → a.podId chip ≠ a.selfId → a.cutOf chip = 1 →
    a.fabric.pod.adopting = none →
    Completes (.podCmdCut t o) s (fun u =>
      u.cutOf chip = 2 ∧ u.num (mPage .fault) Reg.FAULT_LAST_LOST = a.podId chip + 2 ^ 31 ∧
      (Still a → u.train.mended = true ∧ u.mem = a.mem)))

/-- With no command under way, STOP of an island that may stop and START of one that is STOPPED take it to STOPPING
and STARTING and show BUSY. RUN 0 halts a hart; RESET restarts its watchdog and keeps RUN. OFF begins the shutdown,
with its cause, unless one runs already. An owner's COLD turns everything off with a cold start to follow in 1 s; WARM
begins a warm start at once, with the D tier in self-refresh and the step counts kept, or first an unpick where an
active module trains; UNPICK begins an unpick of the unpick map. (R320, R329, R414, R429, R432, R438, R441, R472) -/
def Obligations.IslandsHartsPowerAndStartsAreCommanded : Prop :=
  (∀ (t : Nat) (o : Origin) (q i : Nat) (stop : Bool) (s : State),
    let a := s.advance t
    q < 4 → i < 128 → Granted a o (mPage .clkdir) Reg.CLKDIR_CLK_CMD → a.clk.cmds = [] →
    (if stop then a.stopOk q i = true else a.island q i = 3) →
    Completes (if stop then .islandStop t o q i else .islandStart t o q i) s (fun u =>
      u.island q i = (if stop then 2 else 4) ∧ u.num (mPage .clkdir) Reg.CLKDIR_CMD_STS = 1 + 4 * i + 512 * q ∧
      u = { a with regs := u.regs, cycle := u.cycle, journals := u.journals,
                   clk := { a.clk with islands := u.clk.islands, cmds := [⟨q, i, stop, a.now⟩] } })) ∧
  (∀ (t : Nat) (o : Origin) (q i : Nat) (s : State),
    let a := s.advance t
    let p := qPage .cp q i
    q < 4 → i < 4 → Granted a o p Reg.CP_CP_CTL →
    Completes (.cpHalt t o q i) s (fun u =>
      u.bit p Reg.CP_CP_CTL 0 = false ∧ u = { a with regs := u.regs, cycle := u.cycle, journals := u.journals }) ∧
    Completes (.cpReset t o q i) s (fun u =>
      u.hart q i = { a.hart q i with kicked := a.now } ∧ u.bit p Reg.CP_CP_CTL 0 = a.bit p Reg.CP_CP_CTL 0 ∧
      u.bit p Reg.CP_CP_STS 2 = false ∧ u = { a with regs := u.regs, cycle := u.cycle, journals := u.journals, cores := u.cores })) ∧
  (∀ (t : Nat) (o : Origin) (s : State),
    let a := s.advance t
    Granted a o (mPage .pwr) Reg.PWR_PWR_CMD →
    Completes (.pwrOff t o) s (fun u =>
      (a.power.state = 0 ∨ a.power.state = 5 ∨ (a.power.state = 4 ∧ a.causeWins 9 = false) → u.power = a.power) ∧
      (a.power.state ≠ 0 → a.power.state ≠ 4 → a.power.state ≠ 5 →
        u.power = { a.power with state := 4, alert := true, causeAt := a.now } ∧ u.num (mPage .pwr) Reg.PWR_TRIP_INFO = 9 ∧
        u.boot.next = none) ∧
      u = { a with regs := u.regs, cycle := u.cycle, journals := u.journals, power := u.power, boot := u.boot })) ∧
  (∀ (t : Nat) (o : Origin) (s : State),
    let a := s.advance t
    Granted a o (mPage .boot) Reg.BOOT_BOOT_CMD → a.bootOwner o = true →
    Completes (.bootCold t o) s (fun u =>
      u.power.state = 0 ∧ u.boot.next = some ⟨a.now + 3600000000, .cold⟩ ∧ u.host = {} ∧
      (∀ q i, q < 4 → i < 110 → u.island q i = 5) ∧ u.mem = a.mem ∧ u.stackUnits = a.stackUnits) ∧
    (a.warmOk = true → (a.field (mPage .pod) Reg.POD_ROLE 2 2 ≠ 0 ∨ a.bit (mPage .step) Reg.STEP_STEP_CTL 0 = false) →
      Completes (.bootWarm t o) s (fun u =>
        u.phase = 0 ∧ u.warmStart = true ∧ u.power.state = 3 ∧
        (∀ q k, q < 4 → k = 6 ∨ k = 7 → (u.stack q k).sref = true ∧ (u.stack q k).retainOk = true) ∧
        u.num64 (mPage .step) Reg.STEP_ATTEMPT_LO Reg.STEP_ATTEMPT_HI =
          a.num64 (mPage .step) Reg.STEP_ATTEMPT_LO Reg.STEP_ATTEMPT_HI)) ∧
    (a.warmOk = true → a.field (mPage .pod) Reg.POD_ROLE 2 2 = 0 → a.bit (mPage .step) Reg.STEP_STEP_CTL 0 = true →
      Completes (.bootWarm t o) s (fun u => u.phase = 12 ∧ u.boot.warmAfter = true ∧ u.mem = a.mem)) ∧
    (a.unpickOk = true →
      Completes (.bootUnpick t o) s (fun u =>
        u.phase = 12 ∧ u.boot.warmAfter = false ∧ u.boot.unpick.map (·.regions) = some a.unpickMap ∧ u.mem = a.mem)))

/-- When the next tile of a queue may start, its interval has passed, its mangles are granted, its feeders, C buffers and
line buffers are ready and the window is not blocked, the tile is accepted: its descriptor runs from this ACLK with this
quarter's SALT and this ATTEMPT, it is the array's newest tile, and the next may follow after the larger of B + 2 and 32
ACLK. Memory is as it was. In a blocked window, within the interval, or where the array is not ready, nothing happens.
The oldest request for mangles is granted when its mangles are free; each then serves it for 24 VCLK and as long as its
stream takes at 512 bytes a VCLK, and is free when it has delivered it. (R47, R49, R77, R120, R334, R417) -/
def Obligations.TilesAreAcceptedOnFreeArrays : Prop :=
  (∀ (t q slot arr i : Nat) (late : List (Nat × Nat × Nat)) (drains : List Nat) (flips : List (Nat × Nat)) (w : WinEntry)
    (s : State),
    let a := s.advance t
    let n := 3 * slot + arr
    let p := a.physOf q slot
    let x := a.array q p arr
    let granted := (a.mangles q).served.find? (fun e => e.1 == a.claimant q n)
    let w' : WinEntry := { w with status := .running, startedAt := a.now, salt := a.salt q, attempt := a.attempt }
    slot < 30 → arr < 3 → a.startable q n = some (i, w) → a.blockedWindow = false →
    (∀ e, x.lastAccept = some e → e.1 + e.2.1 ≤ a.now) → (streamsOf n w.desc = [] ∨ granted.isSome = true) →
    x.ready a.now w.fetchedAt ((granted.map Prod.snd).getD 0) w.desc late = true →
    Completes (.tileAccept t q slot arr late drains flips) s (fun u =>
      u.queue q n = { a.queue q n with window := (a.queue q n).window.set i w' } ∧
      (u.array q p arr).tiles.length = x.tiles.length + 1 ∧ (u.array q p arr).kinds = x.kinds + 1 ∧
      (u.array q p arr).lastAccept = some (a.now, max (descBeats w.desc + 2) 32, descBeats w.desc) ∧
      (u.array q p arr).tiles.getLast?.map (fun y => (y.desc, y.at_, y.salt)) = some (w.desc, a.now, a.salt q) ∧
      u.mem = a.mem)) ∧
  (∀ (t q slot arr : Nat) (late : List (Nat × Nat × Nat)) (drains : List Nat) (flips : List (Nat × Nat)) (s : State),
    let a := s.advance t
    let n := 3 * slot + arr
    let x := a.array q (a.physOf q slot) arr
    let granted := (a.mangles q).served.find? (fun e => e.1 == a.claimant q n)
    (a.blockedWindow = true ∨ (∃ e, x.lastAccept = some e ∧ a.now < e.1 + e.2.1) ∨
      (∀ i w, a.startable q n = some (i, w) →
        x.ready a.now w.fetchedAt ((granted.map Prod.snd).getD 0) w.desc late = false)) →
    exec (.tileAccept t q slot arr late drains flips) s = .next a) ∧
  (∀ (t q : Nat) (c : MangleClaim) (s : State),
    let a := s.advance t
    let x := a.mangles q
    let serves (m : Nat × Nat) : MangleUse :=
      { mangle := m.1, who := c.who, at_ := a.now, until_ := if m.2 = 0 then a.now else a.now + 2 * (24 + (m.2 + 511) / 512) }
    c ∈ x.claims → (∀ b ∈ x.busy, ∀ m ∈ c.streams, b.mangle ≠ m.1) →
    (∀ o ∈ x.claims, o ≠ c → c.at_ < o.at_ ∨ (c.at_ = o.at_ ∧ c.who < o.who)) →
    Completes (.mangleClaimGrant t q) s (fun u =>
      u.mangles q = { claims := x.claims.erase c, busy := x.busy ++ c.streams.map serves,
                      served := x.served ++ [(c.who, a.now)] } ∧
      (∀ q', q' ≠ q → u.mangles q' = a.mangles q') ∧
      u = { a with compute := { a.compute with mangles := u.compute.mangles } })) ∧
  (∀ (t q m : Nat) (s : State),
    let a := s.advance t
    Completes (.mangleStreamDone t q m) s (fun u =>
      (u.mangles q).claims = (a.mangles q).claims ∧ (u.mangles q).served = (a.mangles q).served ∧
      (∀ b, b ∈ (u.mangles q).busy ↔ b ∈ (a.mangles q).busy ∧ ¬ (b.mangle = m ∧ b.until_ ≤ a.now)) ∧
      u = { a with compute := { a.compute with mangles := u.compute.mangles } }))

/-- The oldest tile of an array, running and past its last cycle, with a free handoff buffer where it hands off, and
nothing fetched behind it, completes. Its counter gains 1, its entry leaves the window, LAST_TAG and TILES_DONE show
it. A tile that writes 16-bit results stores its rounded carries under the draws of its key, and no byte outside its
output lines changes; one that hands off fills the buffer with its exact carries and changes no memory. Where R66
leaves the result undefined, only the frame is stated. (R48, R52, R60, R61, R63, R68, R106) -/
def Obligations.TilesWriteTheirLinesAndSignal : Prop :=
  ∀ (t q slot arr corrected : Nat) (badRows badCols badLines : List Nat) (badA badB : Nat)
    (tile : Tile) (tiles : List Tile) (w : WinEntry) (rest : List WinEntry) (s : State),
    let a := s.advance t
    let n := 3 * slot + arr
    let p := a.physOf q slot
    let x := a.array q p arr
    let d := tile.desc
    let page := qPage .array q p
    let carries := tile.carries (fun i => badRows.contains i || badLines.contains i || badA != 0)
      (fun j => badCols.contains j || badB != 0)
    slot < 30 → arr < 3 → x.tiles = tile :: tiles → (a.queue q n).window = w :: rest → w.status = .running →
    tile.at_ + tile.stop (x.handFor 0) ≤ a.now → (df d 0 15 2 = 2 → x.handoff = none) → (a.queue q n).fetches = [] →
    Completes (.tileComplete t q slot arr corrected badRows badCols badLines badA badB) s (fun u =>
      u.queue q n = { a.queue q n with window := rest } ∧
      (u.array q p arr).tiles = tiles ∧
      u.counter q (dSig d) = (if dSig d = 0 then a.counter q 0 else min 0xFFFFFFFF (a.counter q (dSig d) + 1)) ∧
      (∀ q' k, 4096 * q' + k ≠ 4096 * q + dSig d → u.counter q' k = a.counter q' k) ∧
      u.num page (Reg.ARRAY_LAST_TAG + 0x40 * arr) = dTag d ∧
      u.num page (Reg.ARRAY_TILES_DONE + 0x40 * arr) = (a.num page (Reg.ARRAY_TILES_DONE + 0x40 * arr) + 1) % 2 ^ 32 ∧
      (df d 0 15 2 = 2 → u.mem = a.mem ∧ (tile.undef = false →
        (u.array q p arr).handoff = some { ce := df d 15 28 3, carries := carries.flatten })) ∧
      (df d 0 15 2 ≠ 2 → (u.array q p arr).handoff = x.handoff ∧ (tile.undef = false → tile.clash = [] →
        u.mem = (a.putTile q d (roundCarries d (a.keyOfEntry q { w with salt := tile.salt }) carries)).mem)) ∧
      ∀ y, (∀ r ∈ outRegions q d, ¬ (r.1 ≤ y ∧ y < r.1 + r.2)) → memGet u.mem y = memGet a.mem y)

/-- A request that no other one goes before, by class, age and number, is granted: a write stores its lanes, a read
takes the line as delivered; the request is gone and the sub-bank is taken for this ACLK. A request that has waited 32
ACLK is promoted and counted. 18 ACLK after its grant a read is delivered, to its ring entry if it is a fetch. In its
own ACLK scrub reads the next line and moves on. Errors in the Fold and in corrections are left out. (R93, R95, R96,
R97, R98, R335, R387) -/
def Obligations.FoldGrantsReadsAndScrubs : Prop :=
  (∀ (t q bank sub : Nat) (arrivals : List FoldArrival) (flips : List (Nat × Nat)) (r : FoldReq) (s : State),
    let a := arrivals.foldl (fun s x => s.foldArrive q x) ((s.advance t).upset flips)
    let f := a.compute.fold
    let k := 256 * q + 4 * bank + sub
    let here (o : FoldReq) : Prop := o.quarter = q ∧ subBank o.off = 4 * bank + sub
    let line := foldBase q + r.off
    q < 4 → a.now % 1024 ≠ 0 → mapGet (fun _ => 0) f.lastGrant k ≤ a.now → r ∈ f.reqs → here r → r.off % 64 = 0 →
    r.off < foldSize →
    (∀ o ∈ f.reqs, here o → o ≠ r → r.before o = true) → Clean a →
    Completes (.foldAccessGrant t q bank sub arrivals flips) s (fun u =>
      mapGet (fun _ => 0) u.compute.fold.lastGrant k = a.now + 1 ∧ u.compute.fold.reqs.length + 1 = f.reqs.length ∧
      (r.isWrite = true → u.mem = r.write.foldl (fun m w => memSet m (line + w.1 % 64) w.2) a.mem ∧
        u.compute.fold.reads = f.reads) ∧
      (r.isWrite = false → u.mem = a.mem ∧ u.compute.fold.reads = f.reads ++
        [{ quarter := q, off := r.off, granted := a.now, fetchOf := r.fetchOf, line := leNat (memBytes a.mem line 64) }]) ∧
      u = { a with regs := u.regs, cycle := u.cycle, mem := u.mem, compute := { a.compute with fold := u.compute.fold } })) ∧
  (∀ (t q off num : Nat) (r : FoldReq) (s : State),
    let a := s.advance t
    let f := a.compute.fold
    f.reqs = [r] → r.quarter = q → r.off = off / 64 * 64 → r.num = num → r.promoted = false → r.at_ + 32 ≤ a.now →
    Completes (.foldRequestPromote t q off num) s (fun u =>
      u.compute.fold.reqs = [{ r with promoted := true }] ∧
      u.num (qPage .fold q 0) Reg.FOLD_PROMOTED = min 0xFFFFFFFF (a.num (qPage .fold q 0) Reg.FOLD_PROMOTED + 1) ∧
      u = { a with regs := u.regs, cycle := u.cycle, compute := { a.compute with fold := u.compute.fold } })) ∧
  (∀ (t q off : Nat) (r : FoldRead) (l : List FoldRead) (s : State),
    let a := s.advance t
    a.compute.fold.reads = r :: l → r.quarter = q → r.off = off / 64 * 64 → r.granted + 18 ≤ a.now →
    Completes (.foldReadComplete t q off) s (fun u =>
      u.compute.fold.reads = l ∧
      (r.fetchOf = none → u = { a with compute := { a.compute with fold := u.compute.fold } }) ∧
      (∀ n i g, r.fetchOf = some (n, i) → (a.queue q n).fetches = [g] → g.index = i → g.line = none →
        (u.queue q n).fetches = [{ g with line := some (BitVec.ofNat 512 r.line), poisoned := r.poisoned }]) ∧
      u.mem = a.mem)) ∧
  (∀ (t q bank sub : Nat) (s : State),
    let a := s.advance t
    let bg := qPage .bgnd q 0
    let k := 256 * q + 4 * bank + sub
    let c := mapGet (fun _ => 0) a.compute.fold.patrol k
    q < 4 → a.now % 1024 = 0 → a.bit bg Reg.BGND_RINSE_CTL 0 = true →
    a.now / 1024 % 2 ^ a.field bg Reg.BGND_RINSE_CTL 2 4 = 0 → Clean a →
    Completes (.foldScrubCycle t q bank sub []) s (fun u =>
      mapGet (fun _ => 0) u.compute.fold.patrol k = c + 1 ∧ u.num bg Reg.BGND_FOLD_POS = (c + 1) % 10240 ∧
      u.mem = a.mem ∧ u.ecc = a.ecc ∧ u.compute.fold.reqs = a.compute.fold.reqs))

/-- A queue that works, with an entry not yet fetched, nothing behind a control entry, and for a descriptor a free
window place and a tracker entry, asks the Fold for the entry's line with class 2. A line that arrives with a
descriptor that nothing refuses or skips enters the window, with what its check read for it, and HEAD passes it; one that its check refuses enters it
as failed, and the queue halts with the code; a poisoned one is refused with 0x0C. The oldest descriptor, done and
with every write made, leaves the window and adds 1 to its counter; a streamer with a remote signal is left out.
(R102, R105, R106, R107, R110, R111, R115) -/
def Obligations.RingEntriesAreFetchedInOrder : Prop :=
  (∀ (t q n : Nat) (s : State),
    let a := s.advance t
    let x := a.queue q n
    let i := (x.head + x.fetches.length) % 65536
    let off := 64 * (x.base + i % 2 ^ x.log2)
    let ctl := a.readNat (foldBase q + off) 1 % 16 == 15
    queueExists n = true → x.hasRing = true → x.halt = none → (∀ f ∈ x.fetches, f.ctl = false) →
    a.working (a.queuePage q n) = true → x.fetches.length < x.occupancy → x.nextFetch ≤ a.now →
    (ctl = true ∨ (x.window.length + x.descFetches < windowSize n ∧ a.canTrack q n = true)) →
    Completes (.queueFetch t q n) s (fun u =>
      u.queue q n = { x with fetches := x.fetches ++ [{ index := i, ctl := ctl }], trackWait := false, nextFetch := a.now + 1 } ∧
      u.compute.fold.reqs = a.compute.fold.reqs ++
        [{ quarter := q, off := off, cls := 2, at_ := a.now, num := n, fetchOf := some (n, i) }] ∧
      u = { a with compute := { a.compute with queues := u.compute.queues, fold := u.compute.fold } })) ∧
  (∀ (t q n : Nat) (f : Fetch) (d : Desc) (s : State),
    let a := s.advance t
    let x := a.queue q n
    x.fetches = [f] → f.line = some d → f.poisoned = false → x.halt = none → dOp d ≠ 15 → x.window.length < windowSize n →
    (a.skipping q n && skipsInWindow n d) = false → a.roundSkips n d = false → (160 ≤ n → Clean a) →
    Completes (.queueFetchArrive t q n) s (fun u =>
      u.mem = a.mem ∧
      if (a.checkFetched q n d).1 = 0 then
        u.queue q n = { x with head := (x.head + 1) % 65536, fetches := [], window := x.window ++
          [{ desc := d, fetchedAt := a.now, seq := x.head, got := if n < 160 then [] else a.programBytes d }] } ∧
        (n < 160 → u = { a with compute := { a.compute with queues := u.compute.queues, mangles := u.compute.mangles } })
      else
        u.queue q n = { x with head := (x.head + 1) % 65536, fetches := [], halt := some .refused, window := x.window ++
          [{ desc := d, status := .failed, fetchedAt := a.now, seq := x.head }] } ∧
        u.num (a.queuePage q n) (queueReg n Reg.ARRAY_ERR_INFO Reg.ENG_ERR_INFO) =
          ((a.checkFetched q n d).1 + 65536 * dTag d) % 2 ^ 32)) ∧
  (∀ (t q n : Nat) (f : Fetch) (d : Desc) (s : State),
    let a := s.advance t
    let x := a.queue q n
    x.fetches = [f] → f.line = some d → f.poisoned = true → x.halt = none → dOp d ≠ 15 →
    Completes (.queueFetchArrive t q n) s (fun u =>
      (u.queue q n).halt = some .refused ∧ u.mem = a.mem ∧
      u.num (a.queuePage q n) (queueReg n Reg.ARRAY_ERR_INFO Reg.ENG_ERR_INFO) = (0x0C + 65536 * dTag d) % 2 ^ 32)) ∧
  (∀ (t q n : Nat) (w : WinEntry) (rest : List WinEntry) (s : State),
    let a := s.advance t
    let x := a.queue q n
    let k := dSig w.desc
    x.window = w :: rest → w.status = .done → w.waitUntil ≤ a.now → a.writesOpen q n w.seq = false → x.fetches = [] →
    (136 ≤ n → n < 152 → db w.desc 0 8 = true → w.skip = true) →
    Completes (.descriptorSignal t q n) s (fun u =>
      u.queue q n = { x with window := rest } ∧
      u.counter q k = (if k = 0 then a.counter q 0 else min 0xFFFFFFFF (a.counter q k + 1)) ∧
      (∀ q' k', 4096 * q' + k' ≠ 4096 * q + k → u.counter q' k' = a.counter q' k') ∧
      u.mem = a.mem ∧ u.stackUnits = a.stackUnits ∧ u.fabric = a.fabric))

/-- A control entry at HEAD that its check lets pass, whose wait is met, with nothing fetched behind it, is consumed
and HEAD passes it: WAIT_GE changes no counter, TAKE subtracts VALUE, or in an aborted step nothing, ADD adds VALUE up
to the largest value, and CLEAR sets the counter to 0, to which what was added in the same ACLK is added. Counter 0
reads as before. No other counter, no other queue and no memory changes. While its wait is not met, or a TAKE of the
same counter goes before it in this ACLK, nothing happens. (R107, R108, R109, R452) -/
def Obligations.ControlEntriesActOnCounters : Prop :=
  ∀ (t q n c : Nat) (d : Desc) (i : Instr) (s : State),
    let a := s.advance t
    let x := a.queue q n
    let k := df d 1 0 12
    i = [Instr.qctlWaitGe t q n, .qctlTake t q n, .qctlAdd t q n, .qctlClear t q n].getD c (.qctlWaitGe t q n) → c < 4 →
    a.controlNow q n c = some d →
    (a.waitUnmet q n = true ∨ (c < 2 ∧ a.takesFirst q n k (c == 1) = true) → exec i s = .next a) ∧
    (a.waitUnmet q n = false → (c < 2 → a.takesFirst q n k (c == 1) = false) → x.fetches.length = 1 →
      Completes i s (fun u =>
        u.queue q n = { x with head := (x.head + 1) % 65536, fetches := [] } ∧
        u.counter q k = (if k = 0 ∨ c = 0 then a.counter q k
          else if c = 1 then (if a.abortedWait k then a.counter q k else a.counter q k - dw d 2)
          else if c = 2 then min 0xFFFFFFFF (a.counter q k + dw d 2) else min 0xFFFFFFFF (a.added q k)) ∧
        (∀ q' k', 4096 * q' + k' ≠ 4096 * q + k → u.counter q' k' = a.counter q' k') ∧
        (∀ q' n', 256 * q' + n' ≠ 256 * q + n → u.queue q' n' = a.queue q' n') ∧
        u.mem = a.mem ∧ u.fabric = a.fabric ∧ u.stackUnits = a.stackUnits))

/-- For every vector command: the next descriptor of the engine, if it may start and names one of the command's
kernels, runs. Its entry is done, with the SALT and ATTEMPT it started under and its path time; and no byte of memory
changes outside its destination rows, its statistics records and its gradient buffers. A command whose kernels the
descriptor does not name does nothing. (R105, R116, R120, R121, R122, R123, R125, R336) -/
def Obligations.VectorKernelsRunAndWriteOnlyTheirRows : Prop :=
  ∀ (t q e : Nat) (flips : List (Nat × Nat)) (ks : List Nat) (c : Instr) (i : Nat) (w : WinEntry) (s : State),
    let a := (s.advance t).upset flips
    let d := w.desc
    let k := df d 0 4 8
    let n := df d 1 0 16 + 1
    let rows := df d 2 0 24 + 1
    let base := foldBase q
    (ks, c) ∈ [([0x01], Instr.vecAdd t q e flips), ([0x02], .vecSub t q e flips), ([0x03], .vecMul t q e flips),
      ([0x04], .vecFma t q e flips), ([0x05], .vecMax t q e flips), ([0x06], .vecMin t q e flips),
      ([0x07], .vecAxpb t q e flips), ((List.range 10).map (0x10 + ·), .vecActivation t q e flips),
      ([0x1A], .vecRecip t q e flips), ([0x1B], .vecRsqrt t q e flips), ([0x1C], .vecLog t q e flips),
      ((List.range 10).map (0x20 + ·), .vecActivationBackward t q e flips), ([0x30], .vecRowSum t q e flips),
      ([0x31], .vecRowMax t q e flips), ([0x32], .vecRowSumsq t q e flips), ([0x33], .vecRowDot t q e flips),
      ([0x34], .vecRowLse t q e flips), ([0x40], .vecLnFwd t q e flips), ([0x41], .vecRmsFwd t q e flips),
      ([0x42], .vecSoftmaxFwd t q e flips), ([0x48], .vecLnBwd t q e flips), ([0x49], .vecRmsBwd t q e flips),
      ([0x4A], .vecSoftmaxBwd t q e flips), ([0x4B], .vecSoftmaxBwdL t q e flips), ([0x4C], .vecLnBwdRc t q e flips),
      ([0x4D], .vecRmsBwdRc t q e flips), ([0x4E], .vecSoftmaxBwdRc t q e flips)] →
    e < 16 → (s.advance t).startable q (96 + e) = some (i, w) →
    (k ∈ ks → Completes c s (fun u =>
      Ran a u q (96 + e) i w (a.now + 2 * vecPath k (rows * ((n + 63) / 64))) ∧
      ∀ y, (kernelDst k = true → ∀ r, r < rows → Apart y 1 (base + dw d 8 + r * dw d 9) (2 * n)) →
        (∀ r, r < rows → Apart y 1 (base + dw d 10 + r * statBytes k) (statBytes k)) →
        (kernelAux0 k = true → k ≠ 0x40 → Apart y 1 (base + dw d 13) (2 * n)) →
        (kernelAux1 k = true → Apart y 1 (base + dw d 14) (2 * n)) → memGet u.mem y = memGet a.mem y)) ∧
    (k ∉ ks → exec c s = .next (s.advance t))

/-- For a descriptor of one row, on memory without errors, each element of the destination is the kernel's function of
the elements at its position, rounded once into the destination format under RND: sum, difference, product, fused
multiply-add, maximum, minimum, a·x + b, the activations, 1/x, 1/√x, ln x, and the backward activations. The
elementary functions are free values on finite arguments (log entry 2). (R60, R86, R123, R124) -/
def Obligations.ElementwiseKernelsComputeTheirFunctions : Prop :=
  ∀ (t q e : Nat) (flips : List (Nat × Nat)) (c : Instr) (f : Machine.Num → Machine.Num → Machine.Num → Machine.Num) (k i : Nat) (w : WinEntry) (s : State),
    let a := (s.advance t).upset flips
    let d := w.desc
    let m := df d 0 4 8
    let n := df d 1 0 16 + 1
    let x (off j : Nat) : Machine.Num := decodeElem (fmt16 (db d 0 12)) (word16 a.mem (foldBase q + off + 2 * j))
    let p (j : Nat) : Machine.Num := ofF32 (BitVec.ofNat 32 (dw d j))
    (k, c, f) ∈ [(0x01, Instr.vecAdd t q e flips, fun x y _ => x.add y), (0x02, .vecSub t q e flips, fun x y _ => x.sub y),
      (0x03, .vecMul t q e flips, fun x y _ => x.mul y), (0x04, .vecFma t q e flips, fun x y v => (x.mul y).add v),
      (0x05, .vecMax t q e flips, fun x y _ => numMax x y), (0x06, .vecMin t q e flips, fun x y _ => numMin x y),
      (0x07, .vecAxpb t q e flips, fun x _ _ => ((p 11).mul x).add (p 12)),
      (0x10, .vecActivation t q e flips, fun x _ _ => activation (m - 0x10) (p 11) (p 12) x),
      (0x1A, .vecRecip t q e flips, fun x _ _ => fDiv (.fin false 1 0) x), (0x1B, .vecRsqrt t q e flips, fun x _ _ => elem .rsqrt x),
      (0x1C, .vecLog t q e flips, fun x _ _ => elem .log x),
      (0x20, .vecActivationBackward t q e flips, fun x y _ => fMul y (derivative (m - 0x20) (p 11) (p 12) x))] →
    m = k ∨ (k = 0x10 ∧ 0x10 ≤ m ∧ m ≤ 0x19) ∨ (k = 0x20 ∧ 0x20 ≤ m ∧ m ≤ 0x29) →
    e < 16 → (s.advance t).startable q (96 + e) = some (i, w) → df d 2 0 24 = 0 → Clean a →
    Completes c s (fun u => ∀ j, j < n →
      word16 u.mem (foldBase q + dw d 8 + 2 * j) = (convert16 (fmt16 (db d 0 13))
        (if db d 0 14 then .sr (draw (a.drawsOf q w) j) else .rne) (f (x (dw d 3) j) (x (dw d 5) j) (x (dw d 7) j))).code % 65536)

/-- For a descriptor of one row, on memory without errors and with destinations apart: a reduction stores the sum,
maximum, sum of squares, dot product or log-sum-exp of its row as a split pair; a forward or backward normalisation or
softmax writes its row, rounded once, and its statistics; and the backward normalisations add the row's terms to their
gradient buffers with one rounding. (R88, R89, R90, R91, R123, R124, R125) -/
def Obligations.RowKernelsStoreStatisticsAndGradients : Prop :=
  (∀ (t q e : Nat) (flips : List (Nat × Nat)) (c : Instr) (k i : Nat) (w : WinEntry) (s : State),
    let a := (s.advance t).upset flips
    let d := w.desc
    let n := df d 1 0 16 + 1
    let x (off : Nat) : List Machine.Num :=
      (List.range n).map (fun j => decodeElem (fmt16 (db d 0 12)) (word16 a.mem (foldBase q + off + 2 * j)))
    let v := match k with
      | 0x30 => rowSum (x (dw d 3))
      | 0x31 => rowMax (x (dw d 3))
      | 0x32 => rowSum ((x (dw d 3)).map (fun y => fMul y y))
      | 0x33 => rowSum ((x (dw d 3)).zipWith fMul (x (dw d 5)))
      | _ => lse (rowLse (List.replicate n true) (x (dw d 3)))
    (k, c) ∈ [(0x30, Instr.vecRowSum t q e flips), (0x31, .vecRowMax t q e flips), (0x32, .vecRowSumsq t q e flips),
      (0x33, .vecRowDot t q e flips), (0x34, .vecRowLse t q e flips)] → df d 0 4 8 = k →
    e < 16 → (s.advance t).startable q (96 + e) = some (i, w) → df d 2 0 24 = 0 → Clean a →
    Completes c s (fun u =>
      word16 u.mem (foldBase q + dw d 10) = (splitPair v).1 % 65536 ∧
      word16 u.mem (foldBase q + dw d 10 + 2) = (splitPair v).2 % 65536)) ∧
  (∀ (t q e : Nat) (flips : List (Nat × Nat)) (c : Instr) (k i : Nat) (w : WinEntry) (s : State),
    let a := (s.advance t).upset flips
    let d := w.desc
    let n := df d 1 0 16 + 1
    let base := foldBase q
    let o := vecRow k (a.vecIn q d 0)
    let fo := fmt16 (db d 0 13)
    (k, c) ∈ [(0x40, Instr.vecLnFwd t q e flips), (0x41, .vecRmsFwd t q e flips), (0x42, .vecSoftmaxFwd t q e flips),
      (0x48, .vecLnBwd t q e flips), (0x49, .vecRmsBwd t q e flips), (0x4A, .vecSoftmaxBwd t q e flips),
      (0x4B, .vecSoftmaxBwdL t q e flips), (0x4C, .vecLnBwdRc t q e flips), (0x4D, .vecRmsBwdRc t q e flips),
      (0x4E, .vecSoftmaxBwdRc t q e flips)] → df d 0 4 8 = k →
    e < 16 → (s.advance t).startable q (96 + e) = some (i, w) → df d 2 0 24 = 0 → Clean a →
    (kernelStat k = true → Apart (dw d 8) (2 * n) (dw d 10) (statBytes k)) →
    (kernelAux0 k = true → k ≠ 0x40 → Apart (dw d 8) (2 * n) (dw d 13) (2 * n)) →
    (kernelAux1 k = true → Apart (dw d 8) (2 * n) (dw d 14) (2 * n) ∧ Apart (dw d 13) (2 * n) (dw d 14) (2 * n)) →
    Completes c s (fun u =>
      (∀ j, j < n → word16 u.mem (base + dw d 8 + 2 * j) = (convert16 fo
        (if db d 0 14 then .sr (draw (a.drawsOf q w) j) else .rne) (o.d.getD j .zero)).code % 65536) ∧
      (∀ j v, o.stats[j]? = some v →
        word16 u.mem (base + dw d 10 + 4 * j) = (splitPair v).1 % 65536 ∧
        word16 u.mem (base + dw d 10 + 4 * j + 2) = (splitPair v).2 % 65536) ∧
      (kernelAux0 k = true → k ≠ 0x40 → db d 0 14 = false → ∀ j, j < n →
        word16 u.mem (base + dw d 13 + 2 * j) = (convert16 fo .rne
          ((decodeElem fo (word16 a.mem (base + dw d 13 + 2 * j))).add (fAdd .zero (o.gScale.getD j .zero)))).code % 65536) ∧
      (kernelAux1 k = true → db d 0 14 = false → ∀ j, j < n →
        word16 u.mem (base + dw d 14 + 2 * j) = (convert16 fo .rne
          ((decodeElem fo (word16 a.mem (base + dw d 14 + 2 * j))).add (fAdd .zero (o.gBias.getD j .zero)))).code % 65536)))

/-- A conversion of a Fold source that may start runs: its entry is done at its path time, two-pass where TENSOR mode
has no delayed scale, and no byte outside its destination rows changes. A 16-bit row gives each element rounded once
under its own draw; one block in LOCAL mode gives its scale byte and its codes. A handoff conversion whose tile waits
takes the buffer, spilling where it must; one that must spill without a SPILL area is refused with 0x12 when it
starts. (R22, R26, R28, R30, R61, R119, R127, R128, R129, R336) -/
def Obligations.ConversionsRunAndRoundOnce : Prop :=
  (∀ (t q e i : Nat) (flips : List (Nat × Nat)) (w : WinEntry) (fs fd : Fmt) (s : State),
    let a := (s.advance t).upset flips
    let d := w.desc
    let cols := df d 1 0 16 + 1
    let rows := df d 2 0 24 + 1
    let base := foldBase q
    let key := a.drawsOf q w
    let len := blockLen (db d 0 13)
    let blocks := (cols + len - 1) / len
    let two := fd.isBlock && db d 0 15 && !(db d 0 21 && (a.delayed q (df d 11 16 16)).ready)
    let g := rows * ((cols + 63) / 64)
    let x (j : Nat) : Machine.Num := decodeElem fs (word16 a.mem (base + dw d 3 + 2 * j))
    let b := convertLocal fd (df d 0 16 2) fs.infAmax (roundAt (db d 0 14) key) ((List.range len).map x)
    let bytes := fieldBytes fd len
    e < 8 → (s.advance t).startable q (112 + e) = some (i, w) → db d 0 18 = false →
    fmtOf (df d 0 4 4) = some fs → fmtOf (df d 0 9 4) = some fd →
    Completes (.convert t q e flips) s (fun u =>
      Ran a u q (112 + e) i w (a.now + 2 * (if two then 36 + 2 * g else 24 + g)) ∧
      (∀ y, (∀ r, r < rows →
          Apart y 1 (base + dw d 7 + r * dw d 8) (if fd.isBlock then blocks * fieldBytes fd len else 2 * cols) ∧
          (fd.isBlock = true → Apart y 1 (base + dw d 9 + r * dw d 10) blocks)) → memGet u.mem y = memGet a.mem y) ∧
      (Clean a → rows = 1 → fs.isBlock = false → fd.isBlock = false → ∀ j, j < cols →
        word16 u.mem (base + dw d 7 + 2 * j) = (convert16 fd (roundAt (db d 0 14) key j) (x j)).code % 65536) ∧
      (Clean a → rows = 1 → fs.isBlock = false → fd.isBlock = true → db d 0 15 = false → cols = len →
        Apart (dw d 7) bytes (dw d 9) 1 →
        memGet u.mem (base + dw d 9) = BitVec.ofNat 8 b.scale ∧
        leNat (memBytes u.mem (base + dw d 7) bytes) = packElems fd.width b.codes % 2 ^ (8 * bytes)))) ∧
  (∀ (t q e i : Nat) (between : List (Nat × Byte)) (flips : List (Nat × Nat)) (w : WinEntry) (h : Handoff) (s : State),
    let a := s.advance t
    let d := w.desc
    let p := a.physOf q (df d 3 0 5)
    let arr := df d 3 5 2
    let spills := convSpills d (a.delayed q (df d 11 16 16)).ready
    let base := foldBase q
    let fd := (fmtOf (df d 0 9 4)).getD .bf16
    e < 8 → a.startable q (112 + e) = some (i, w) → db d 0 18 = true →
    (spills = true → dw d 12 = 0 →
      Completes (.convertHandoff t q e between flips) s (fun u =>
        (u.queue q (112 + e)).halt = some .refused ∧ u.num (qPage .ce q e) Reg.ENG_ERR_INFO = 0x12 + 65536 * dTag d ∧
        u.mem = a.mem)) ∧
    (¬ (spills = true ∧ dw d 12 = 0) → (a.array q p arr).handoff = some h → h.ce = e →
      Completes (.convertHandoff t q e between flips) s (fun u =>
        Ran a u q (112 + e) i w (a.now + 2 * (if spills then 68 else 40)) ∧ (u.array q p arr).handoff = none ∧
        (fd.isBlock = false → db d 0 19 = false → h.carries.length = 1024 → 64 ≤ dw d 8 → ∀ r j v, r < 32 → j < 32 →
          h.carries[32 * r + j]? = some (some v) →
          word16 u.mem (base + dw d 7 + r * dw d 8 + 2 * j) =
            (convert16 fd (roundAt (db d 0 14) (a.drawsOf q w) (32 * r + j)) v).code % 65536))))

/-- A mangle that holds its claim gives it up and, for a 16-bit destination on memory without errors, writes every
element of row k and column j at row j and column k. A dump writes each bin of its IDs as 64 bits, and with CLEAR
leaves them 0. A digest adds the digest of its bytes to its accumulator, or sets it where CLR is set, and changes no
memory. A wring counts KEEP emitted blocks where SEL is set and there are more, else all, and changes no byte outside
its outputs and its residuals. (R77, R78, R130, R131, R132, R133, R134, R135) -/
def Obligations.ManglesSortersDigestsAndWringsRun : Prop :=
  (∀ (t q m i : Nat) (flips : List (Nat × Nat)) (w : WinEntry) (s : State),
    let a := (s.advance t).upset flips
    let d := w.desc
    let r := 32 * (df d 1 0 16 + 1)
    let c := 32 * (df d 2 0 16 + 1)
    let base := foldBase q
    m < 8 → (s.advance t).startable q (120 + m) = some (i, w) → (a.mangles q).served.any (fun e => e.1 == 96 + m) = true →
    Completes (.transpose t q m flips) s (fun u =>
      Ran a u q (120 + m) i w (a.now + 2 * (36 + r * c / 256)) ∧ (u.mangles q).served.any (fun e => e.1 == 96 + m) = false ∧
      (Clean a → ((fmtOf (df d 0 5 4)).getD .bf16).isBlock = false → 2 * r ≤ dw d 6 → ∀ k j, k < r → j < c →
        word16 u.mem (base + dw d 5 + j * dw d 6 + 2 * k) = word16 a.mem (base + dw d 3 + k * dw d 4 + 2 * j)))) ∧
  (∀ (t q so i : Nat) (w : WinEntry) (s : State),
    let a := s.advance t
    let d := w.desc
    let first := df d 2 0 12
    let count := df d 2 16 12 + 1 - first
    so < 2 → a.startable q (128 + so) = some (i, w) →
    Completes (.sorterDump t q so) s (fun u =>
      Ran a u q (128 + so) i w (a.now + 2 * (16 + 9 * count)) ∧
      (∀ k b, k < count → b < 68 →
        leNat (memBytes u.mem (foldBase q + dw d 3 + 544 * k + 8 * b) 8) = a.bin q so (first + k) b % 2 ^ 64 ∧
        u.bin q so (first + k) b = (if db d 0 4 then 0 else a.bin q so (first + k) b)) ∧
      ∀ y, Apart y 1 (foldBase q + dw d 3) (544 * count) → memGet u.mem y = memGet a.mem y)) ∧
  (∀ (t q g i : Nat) (flips : List (Nat × Nat)) (w : WinEntry) (s : State),
    let a := (s.advance t).upset flips
    let d := w.desc
    let p := qPage .dg q g
    let lo := Reg.DG_ACC_LO + 8 * df d 7 0 6
    let hi := Reg.DG_ACC_HI + 8 * df d 7 0 6
    g < 2 → (s.advance t).startable q (130 + g) = some (i, w) → Clean a → a.train.ueLines = [] →
    Completes (.digest t q g flips) s (fun u =>
      Ran a u q (130 + g) i w (a.now + 2 * (40 + (dw d 4 + 255) / 256)) ∧ u.mem = a.mem ∧
      u.num64 p lo hi = ((if db d 0 4 then 0 else a.num64 p lo hi) +
        (digest (dq d 5) (memBytes a.mem (dq d 2) (dw d 4))).toNat) % 2 ^ 64)) ∧
  (∀ (t q g i : Nat) (flips : List (Nat × Nat)) (w : WinEntry) (s : State),
    let a := (s.advance t).upset flips
    let d := w.desc
    let f := (fmtOf (df d 0 4 4)).getD .sq8e4
    let len := blockLen (db d 0 8)
    let nb := dw d 2
    let base := foldBase q
    g < 2 → (s.advance t).startable q (132 + g) = some (i, w) → Clean a → a.train.ueLines = [] →
    Completes (.compress t q g flips) s (fun u =>
      Ran a u q (132 + g) i w (a.now + 2 * (if db d 0 10 then 56 + 2 * ((len * nb + 63) / 64) else 32 + (len * nb + 63) / 64)) ∧
      leNat (memBytes u.mem (base + dw d 11) 4) = (if db d 0 10 then min nb (dw d 10) else nb) ∧
      ∀ y, Apart y 1 (base + dw d 7) (nb * fieldBytes f len) → Apart y 1 (base + dw d 8) nb →
        (db d 0 10 = true → Apart y 1 (base + dw d 9) (4 * nb)) → Apart y 1 (base + dw d 11) 4 →
        Apart y 1 (dq d 5) (2 * len * nb) → memGet u.mem y = memGet a.mem y))

/-- A COPY whose ends are this module's, or a FILL of this module's memory, that may start issues all of its segments
(here at most as many as its queue's reserved tracker entries) and changes no byte. A segment between this module's
addresses then copies its bytes, or writes zeros, and no other byte changes; the last one finishes the descriptor at
its path time. A remote write that is answered ends the same way, and one that failed, or whose frame was lost (0x21),
halts the queue at runtime with its code. A digest tap, leases and errors in memory are left out. (R110, R115, R116,
R136, R137) -/
def Obligations.StreamersMoveRowsInSegments : Prop :=
  (∀ (t q e i : Nat) (w : WinEntry) (s : State),
    let a := s.advance t
    let d := w.desc
    let m := a.moves d
    let n := 136 + e
    let w' : WinEntry := { w with status := .running, startedAt := a.now, salt := a.salt q, attempt := a.attempt, next := m.count, open_ := List.range m.count }
    let P (u : State) : Prop :=
      u.queue q n = { a.queue q n with window := (a.queue q n).window.set i w', segWait := false } ∧ u.mem = a.mem
    e < 16 → a.startable q n = some (i, w) → 0 < dw d 6 → w.next = 0 → w.open_ = [] → w.err = 0 → a.opsOf q n + m.count ≤ 4 →
    (∀ v ∈ (a.queue q n).window, v.status = .running → v.seq ≠ w.seq) →
    (∀ j, j < m.count → ∃ y, a.resolve (m.ends d j).2.1 = .here y) →
    (dOp d = 1 → (∀ j, j < m.count → ∃ x, a.resolve (m.ends d j).1 = .here x) → Completes (.streamerCopy t q e) s P) ∧
    (dOp d = 2 → Completes (.streamerFill t q e) s P)) ∧
  (∀ (t q e seq i k : Nat) (site : Option (Nat × List (Byte × Bool))) (lost : Bool) (w : WinEntry) (s : State),
    let a := s.advance t
    let d := w.desc
    let m := a.moves d
    let n := 136 + e
    let mine (v : WinEntry) : Bool := v.status == .running && v.seq == seq
    e < 16 → (a.queue q n).window.findIdx mine = k → (a.queue q n).window[k]? = some w → w.open_ = [i] → w.err = 0 →
    m.count ≤ w.next →
    (∀ y, a.segOf q n seq i = none → a.resolve (m.ends d i).2.1 = .here y → populated y (m.ends d i).2.2 = true →
      touchesReserved y (m.ends d i).2.2 = false → a.writeWaits y (m.ends d i).2.2 = false → Clean a →
      (dOp d = 2 ∨ (dOp d = 1 ∧ db d 0 7 = false ∧
        ∃ x, a.resolve (m.ends d i).1 = .here x ∧ populated x (m.ends d i).2.2 = true)) →
      Completes (.streamerSegmentComplete t q e seq i site lost []) s (fun u =>
        (dOp d = 2 → memBytes u.mem y (m.ends d i).2.2 = List.replicate (m.ends d i).2.2 0) ∧
        (∀ x, dOp d = 1 → a.resolve (m.ends d i).1 = .here x →
          memBytes u.mem y (m.ends d i).2.2 = memBytes a.mem x (m.ends d i).2.2) ∧
        (∀ z, Apart z 1 y (m.ends d i).2.2 → memGet u.mem z = memGet a.mem z) ∧
        (u.queue q n).window[k]? =
          some { w with status := .done, open_ := [], waitUntil := w.startedAt + a.streamTime q d })) ∧
    (∀ (g : Seg) (c : Nat), a.segOf q n seq i = some g → g.kind = .write → (if lost then some (0x21, []) else g.answered a.now) = some (c, []) →
      ¬ (a.train.aborted = true ∧ a.stepState = 4) → c < 2 ^ 16 →
      Completes (.streamerSegmentComplete t q e seq i site lost []) s (fun u =>
        u.mem = a.mem ∧ (∀ g' ∈ u.fabric.segs, g'.id ≠ g.id) ∧
        if c = 0 then
          (u.queue q n).window[k]? = some { w with status := .done, open_ := [], waitUntil := w.startedAt + a.streamTime q d }
        else (u.queue q n).halt = some .runtime ∧ u.num (qPage .st q e) Reg.ENG_ERR_INFO = c + 65536 * dTag d)))

/-- With a ring in this module's memory, without errors, waiting writes or a wrap: a SHIP_STEP that starts reads PROD
and CONS; once its attempt has closed, its records go to the record area at PROD, then PROD grows by their length, and
no other byte changes; when all are there the next attempt is due and the descriptor is done. A SHIP_FULL of a range
within a page writes one FULL_PAGE record with the lease's step, or COMMITTED and MIXED without a grant, and is done.
While a record does not fit, CONS is read again 50 µs after it was last read. (R138, R182, R183, R184, R185, R157) -/
def Obligations.ExporterShipsRecordsInOrder : Prop :=
  (∀ (t q i l : Nat) (w : WinEntry) (s : State),
    let a := s.advance t
    let d := w.desc
    a.exRunning q = none → a.startable q 152 = some (i, w) → dOp d = 1 → a.resolve (dq d 4) = .here l → populated l 64 = true →
    Clean a →
    let x : Shipping := { prod := leNat (memBytes a.mem l 8), cons := leNat (memBytes a.mem (l + 8) 8), began := true }
    Completes (.shipStep t q) s (fun u =>
      u.shipping q = some { x with readAt := some a.now, claimStep := a.committed % 65536 } ∧
      ((u.queue q 152).window[i]?).map (·.status) = some .running ∧ u.mem = a.mem)) ∧
  (∀ (t q i l : Nat) (w : WinEntry) (x : Shipping) (c : Closed) (s : State),
    let a := s.advance t
    let d := w.desc
    let area := dw d 6 - 64
    let bs := (a.stepRecords q c).flatten
    let at_ := l + 64 + x.prod % area
    a.exRunning q = some (i, w) → dOp d = 1 → a.shipping q = some x → a.shipClosed q = some c → x.began = true →
    x.next = 0 → (∀ g ∈ a.fabric.segs, ¬ (g.q = q ∧ g.n = 152)) → Clean a → a.resolve (dq d 4) = .here l →
    populated l (dw d 6) = true → touchesReserved l (dw d 6) = false →
    (∀ y n, l ≤ y → y + n ≤ l + dw d 6 → a.writeWaits y n = false) →
    64 < dw d 6 → ringUsed x + bs.length ≤ area → x.prod % area + bs.length ≤ area → x.prod + bs.length < 2 ^ 64 →
    Completes (.shipStepSend t q [] []) s (fun u =>
      memBytes u.mem at_ bs.length = bs ∧ leNat (memBytes u.mem l 8) = x.prod + bs.length ∧
      (∀ y, Apart y 1 at_ bs.length → Apart y 1 l 8 → memGet u.mem y = memGet a.mem y) ∧
      u.shipping q = some { x with records := [], next := 1, prod := x.prod + bs.length, again := false })) ∧
  (∀ (t q i : Nat) (w : WinEntry) (x : Shipping) (c : Closed) (s : State),
    let a := s.advance t
    a.exRunning q = some (i, w) → dOp w.desc = 1 → a.shipping q = some x → a.shipClosed q = some c →
    x.next = 1 → x.records = [] → a.writesOpen q 152 w.seq = false →
    (∀ g ∈ a.fabric.segs, ¬ (g.q = q ∧ g.n = 152)) → q < 4 →
    Completes (.shipStepDone t q []) s (fun u =>
      u.nextShip q = (a.nextShip q + 1) % 2 ^ 64 ∧ u.shipping q = none ∧
      (u.queue q 152).window[i]? = some { w with status := .done, waitUntil := a.now } ∧
      (c.skip = false → 2 * q + c.parity ∉ u.train.images) ∧ u.mem = a.mem)) ∧
  (∀ (t q i l : Nat) (w : WinEntry) (s : State),
    let a := s.advance t
    let d := w.desc
    let area := dw d 6 - 64
    let lo := dq d 7
    let n := dw d 9
    let m := (n + 7) / 8 * 8
    let le := a.lease (df d 1 0 16)
    let granted := df d 1 0 16 ≠ 0 ∧ le.granted = true
    let step := if granted then le.claimStep else a.committed % 65536
    let mixed := if granted then le.mixed else true
    let prod := leNat (memBytes a.mem l 8)
    let cons := leNat (memBytes a.mem (l + 8) 8)
    let at_ := l + 64 + prod % area
    a.exRunning q = none → a.startable q 152 = some (i, w) → dOp d = 2 → a.resolve (dq d 4) = .here l → Clean a →
    populated l (dw d 6) = true → touchesReserved l (dw d 6) = false →
    (∀ y k, l ≤ y → y + k ≤ l + dw d 6 → a.writeWaits y k = false) → a.writesOpen q 152 w.seq = false →
    (∀ g ∈ a.fabric.segs, ¬ (g.q = q ∧ g.n = 152)) → 0 < n → lo % 65536 + n ≤ 65536 → 64 < dw d 6 →
    (prod + 2 ^ 64 - cons) % 2 ^ 64 + 32 + m ≤ area → prod % area + 32 + m ≤ area →
    Completes (.shipFull t q [] []) s (fun u =>
      memBytes u.mem at_ (32 + m) = recHead 4 (if mixed then 8 else 0) step (32 + m) ++ leBytes 8 lo ++ leBytes 4 n ++
        List.replicate 12 0 ++ memBytes a.mem lo n ++ List.replicate (m - n) 0 ∧
      leNat (memBytes u.mem l 8) = (prod + 32 + m) % 2 ^ 64 ∧ u.shipping q = none ∧
      ((u.queue q 152).window[i]?).map (fun v => (v.status, v.waitUntil)) = some (.done, a.now))) ∧
  (∀ (t q i l r : Nat) (w : WinEntry) (x : Shipping) (s : State),
    let a := s.advance t
    let d := w.desc
    let y : Shipping := { x with cons := leNat (memBytes a.mem (l + 8) 8), readAt := some a.now, again := true }
    a.exRunning q = some (i, w) → a.shipping q = some x → a.shipBlocked q w = true → x.reading = false → x.readAt = some r →
    r + 180000 ≤ a.now → (∀ g ∈ a.fabric.segs, ¬ (g.q = q ∧ g.n = 152)) → Clean a → a.resolve (dq d 4) = .here l →
    populated l 64 = true → (∀ b z, a.nextRecord w y = some (b, z) → dw d 6 - 64 < ringUsed y + b.length) →
    Completes (.exportConsReread t q []) s (fun u => u.shipping q = some y ∧ u.mem = a.mem))

/-- An operation that CS0 may start, on memory without errors: where every ring has one member, a REDUCE_SCATTER
copies its lane to SHARD and nothing else, an ALL_GATHER changes no byte, and the descriptor is done. Where every ring
that the plan names has more, and the lane has a line for every owner, the operation runs with a stream for each part
and direction, each holding its own pieces to send in its first phase, and READY goes to the neighbour that sends to
it. (R105, R139, R150, R191, R192, R193, R195) -/
def Obligations.CollectivesStartAndAnnounce : Prop :=
  (∀ (t q i op : Nat) (w : WinEntry) (s : State),
    let a := s.advance t
    let d := w.desc
    let p := a.plan q (dw d 6)
    let o : CollOp := { q := q, seq := w.seq, desc := d, epoch := w.next, attempt := a.attempt, streams := [] }
    let P (u : State) : Prop :=
      ((u.queue q 153).window[i]?).map (fun v => (v.status, v.waitUntil)) = some (.done, a.now) ∧ u.coll.ops = a.coll.ops ∧
      (op = 2 → u.mem = a.mem) ∧
      (op = 1 → memBytes u.mem p.shard (dw d 5) = memBytes a.mem (dq d 3) (dw d 5) ∧
        ∀ y, Apart y 1 p.shard (dw d 5) → memGet u.mem y = memGet a.mem y)
    a.startable q 153 = some (i, w) → dOp d = op → a.coll.ops.length < 4 → (∀ v ∈ a.coll.ops, v.q ≠ q) →
    (∀ v ∈ (a.queue q 153).window, v.status ≠ .running) →
    (tagClass (dw d 2) = 2 → a.stepState ∈ [3, 5, 6, 7]) → a.collRegions o = true → Clean a → p.ldig = false → dw d 5 % 64 = 0 →
    (∀ e, e < 3 → a.ringSize e = 1 ∧ a.ringPos e = 0) → Apart p.shard (dw d 5) (dq d 3) (dw d 5) →
    (∀ y n, p.shard ≤ y → y + n ≤ p.shard + dw d 5 → a.writeWaits y n = false) →
    (op = 1 → Completes (.reduceScatter t q []) s P) ∧ (op = 2 → Completes (.allGather t q []) s P)) ∧
  (∀ (t q i op : Nat) (w : WinEntry) (s : State),
    let a := s.advance t
    let d := w.desc
    let p := a.plan q (dw d 6)
    let dims := planDims p
    let m := dims.length
    let first := if op = 1 then 0 else m - 1
    let o : CollOp := { q := q, seq := w.seq, desc := d, epoch := w.next, attempt := a.attempt, streams := [] }
    let P (u : State) : Prop := u.mem = a.mem ∧ ∃ o', u.collOp q (dw d 2) = some o' ∧ o'.seq = w.seq ∧ o'.epoch = w.next ∧
      ∀ r h, r < m → h < 2 → (∃ x, o'.stream r h = some x ∧ x.phase = first ∧ x.done_ = false ∧ x.out ≠ []) ∧
        let back := 2 * phaseDim dims r first + (1 - h)
        GoesBy a u (a.ownFrame p.vl q (a.neigh back * 2 ^ 45 + foldBase q) (.ready (o.hdr r h first 0 0))) (some back)
    a.startable q 153 = some (i, w) → dOp d = op → a.coll.ops.length < 4 → (∀ v ∈ a.coll.ops, v.q ≠ q) →
    (tagClass (dw d 2) = 2 → a.stepState ∈ [3, 5, 6, 7]) → a.collRegions o = true → Clean a → 0 < m →
    (∀ e ∈ dims, 1 < a.ringSize e ∧ a.ringPos e < a.ringSize e) →
    2 * m * (dims.map a.ringSize).foldl (· * ·) 1 ≤ dw d 5 / 64 →
    (op = 1 → Completes (.reduceScatter t q []) s P) ∧ (op = 2 → Completes (.allGather t q []) s P))

/-- READY for a stream of a running operation lets its phase send, and one that comes early is kept. The oldest
segment of a stream leaves in its direction once READY has come, its sum is there, fewer than 32 are unacknowledged and a
tracker entry is free; what an ALL_GATHER relays is read from STAGE. On memory without errors a segment of an ALL_GATHER
in its phase is written to STAGE, and the last of a REDUCE_SCATTER's ring to SCRATCH as the once-rounded sum with the
module's own, once a vector engine takes it; no other byte changes. A segment that no running operation names counts as
STRAY. A stream that has waited WAIT_WARN for READY, or for a segment, records its tag and direction and goes on waiting.
Digest logging and stochastic rounding are left out. (R110, R191, R193, R195, R196, R198, R202) -/
def Obligations.CollectiveStreamsMoveAndWait : Prop :=
  (∀ (t : Nat) (h : RxHdr) (c : CollHdr) (s : State),
    let a := s.advance t
    Delivered a h (.ready c) false →
    (∀ o x, a.collOp h.srcQ c.tag = some o → o.attempt % 65536 = c.attempt → o.epoch = c.epoch → o.stream c.part c.direction = some x →
      Completes (.collReadyReceive t h c) s (fun u => ∃ o' x', u.collOp h.srcQ c.tag = some o' ∧
        o'.stream c.part c.direction = some x' ∧ (∀ k, k ∈ x'.ready ↔ k ∈ x.ready ∨ k = c.phase) ∧ x'.out = x.out ∧
        u.mem = a.mem)) ∧
    (a.collOp h.srcQ c.tag = none →
      Completes (.collReadyReceive t h c) s (fun u =>
        Took { a with coll := { a.coll with readies := a.coll.readies ++ [(h.srcQ, c)] } } u h))) ∧
  (∀ (t q tag part dir : Nat) (o : CollOp) (x : Stream) (g : CSeg) (rest : List CSeg) (s : State),
    let a := s.advance t
    let hd := o.hdr part dir g.phase g.step g.off
    let i := 2 * (a.phaseRing o part g.phase).1 + dir
    let p := a.planOf o
    let relayed : Bool := !o.reduces && decide (0 < g.step)
    let bytes := if relayed then (List.range ((g.off + g.bytes.length) / 64 - g.off / 64)).flatMap (fun j =>
      memBytes a.mem (a.lineAt o part g.phase (g.off / 64 + j)) 64) else g.bytes
    a.collOp q tag = some o → o.q = q → dw o.desc 2 = tag → o.stream part dir = some x → x.part = part → x.dir = dir →
    o.late = [] → g.at_ ≤ a.now → (relayed = true → Clean a ∧ a.writesOpen q 153 o.seq = false) →
    x.out = g :: rest → x.ready.contains g.phase = true → a.streamUnacked q hd < 32 → a.canTrack q 153 = true → p.ldig = false →
    (rest ≠ [] ∨ x.got ≠ a.phaseBytes o part dir x.phase) → x.done_ = false →
    Completes (.collSegmentSend t q tag part dir) s (fun u =>
      GoesBy a u (a.ownFrame p.vl q (a.neigh i * 2 ^ 45 + foldBase q) (.coll hd bytes)) (some i) ∧ u.mem = a.mem ∧
      ∃ o', u.collOp q tag = some o' ∧ o'.stream part dir = some { x with out := rest })) ∧
  (∀ (t : Nat) (h : RxHdr) (c : CollHdr) (bytes : List Byte) (s : State),
    let a := s.advance t
    Delivered a h (.coll c bytes) false →
    (a.collOp h.srcQ c.tag = none →
      Completes (.collSegmentReceive t h c bytes []) s (fun u =>
        u.num (mPage .coll) Reg.COLL_STRAY = min 0xFFFFFFFF (a.num (mPage .coll) Reg.COLL_STRAY + 1) ∧ u.mem = a.mem ∧
        u.coll = a.coll)) ∧
    (∀ o x, a.collOp h.srcQ c.tag = some o → o.q = h.srcQ → dw o.desc 2 = c.tag → o.attempt % 65536 = c.attempt → o.epoch = c.epoch →
      o.stream c.part c.direction = some x → x.part = c.part → x.dir = c.direction → x.phase = c.phase → x.done_ = false →
      Clean a → (a.planOf o).ldig = false → bytes.length % 2 = 0 → c.off % 64 = 0 → (o.reduces = true → (a.addEngine o).isSome) →
      x.got + bytes.length ≠ a.phaseBytes o c.part c.direction c.phase →
      let p := a.planOf o
      let last := c.step + 2 = (a.phaseRing o c.part c.phase).2.1
      let fo := fmt16 (db o.desc 0 4)
      let own (j : Nat) : Machine.Num := decodeElem fo (word16 a.mem (a.lineAt o c.part c.phase (c.off / 64) + 2 * j))
      let got (j : Nat) : Machine.Num := decodeElem fo (leNat ((bytes.drop (2 * j)).take 2))
      let sum (j : Nat) : Nat := (convert16 fo .rne ((got j).add (own j))).code % 65536
      let at_ := (if o.reduces then p.scratch else p.stage) + c.off
      a.writeWaits at_ bytes.length = false →
      Completes (.collSegmentReceive t h c bytes []) s (fun u =>
        (o.reduces = false → memBytes u.mem at_ bytes.length = bytes) ∧
        (o.reduces = true → last → p.rnd = false → ∀ j, 2 * j < bytes.length →
          word16 u.mem (at_ + 2 * j) = sum j) ∧
        (o.reduces = true → ¬ last → u.mem = a.mem) ∧
        (∀ y, Apart y 1 at_ bytes.length → memGet u.mem y = memGet a.mem y) ∧
        ∃ o' x', u.collOp h.srcQ c.tag = some o' ∧ o'.stream c.part c.direction = some x' ∧ x'.got = x.got + bytes.length ∧
          (last → x'.out = x.out) ∧
          (¬ last → ∃ g, x'.out = x.out ++ [g] ∧ g.phase = c.phase ∧ g.step = c.step + 1 ∧ g.off = c.off ∧
            (o.reduces = false → g.bytes = bytes) ∧
            (o.reduces = true → p.rnd = false → ∀ j, 2 * j < bytes.length → leNat ((g.bytes.drop (2 * j)).take 2) = sum j))))) ∧
  (∀ (t q tag part dir : Nat) (o : CollOp) (x : Stream) (s : State),
    let a := s.advance t
    let m := mPage .coll
    let warn := a.num m Reg.COLL_WAIT_WARN
    let Warned (i : Nat) (y : Stream) (u : State) : Prop :=
      u.num m Reg.COLL_WAIT_TAG = tag ∧ u.num m Reg.COLL_WAIT_INFO = i + 16 * q ∧ u.mem = a.mem ∧
      ∃ o', u.collOp q tag = some o' ∧ o'.stream part dir = some y
    a.collOp q tag = some o → o.q = q → dw o.desc 2 = tag → o.stream part dir = some x → x.part = part → x.dir = dir →
    tag < 2 ^ 32 → q < 4 → dir < 2 →
    (∀ g, x.out.find? (fun g => !x.ready.contains g.phase) = some g → x.warnedReady = false → x.asked + warn < a.podCount →
      Completes (.collWait t q tag part dir) s (Warned (2 * (a.phaseRing o part g.phase).1 + dir) { x with warnedReady := true })) ∧
    ((∀ g ∈ x.out, x.ready.contains g.phase = true) → x.done_ = false → x.warned = false →
      x.got < a.phaseBytes o part dir x.phase → x.since + warn < a.podCount →
      Completes (.collWait t q tag part dir) s (Warned (2 * (a.phaseRing o part x.phase).1 + (1 - dir)) { x with warned := true })))

/-- CHECK is passed on to every child and this module's check of the attempt begins; a check that starts at the lead
awaits every module. When a neighbour's send digest
has come, on memory without errors, it is compared with the receive digest of the opposite direction in this module's
record of the same tag, quarter and EPOCH: equal gives no mismatch, another value gives one, and no record sets
UNCHECKED; the report goes to the parent. A report of another module is passed on; at the lead it counts in
MISMATCHES, the last one is recorded, and one module fewer is awaited. (R202, R203, R258, R467) -/
def Obligations.LinkChecksClimbTheTree : Prop :=
  (∀ (t : Nat) (h : RxHdr) (th : TreeHdr) (s : State),
    let a := s.advance t
    (∀ elsewhere, Heard a h th .check →
      Completes (.checkLinks t (some (h, th)) [] elsewhere) s (fun u =>
        u.coll = { a.coll with checking := some th.attempt } ∧ u.mem = a.mem ∧
        ∀ i ∈ a.treeChildren, Tells a u 7 (a.neigh i) (.tree th .check))) ∧
    (a.isLead = true → Completes (.checkLinks t none [] true) s (fun u =>
      u.coll = { a.coll with checking := some a.attempt, checkLeft := a.podModules } ∧ u.mem = a.mem ∧
      u.bit (mPage .coll) Reg.COLL_CHECK_STS 0 = true ∧ ∀ i ∈ a.treeChildren, Tells a u 7 (a.neigh i) (.tree a.treeHdr .check)))) ∧
  (∀ (t n : Nat) (d : LinkDigest) (s : State),
    let a := s.advance t
    let r := (a.logRecords n).find? (fun y => leNat (memBytes a.mem y 4) == d.tag && leNat (memBytes a.mem (y + 5) 1) == d.quarter &&
      leNat (memBytes a.mem (y + 6) 1) == d.epoch)
    let i := opposite d.direction
    let l : List Mismatch := match r with
      | none => []
      | some y => if leNat (memBytes a.mem (y + 80 + 8 * i) 8) = d.value then []
        else [{ tag := d.tag, quarter := d.quarter, direction := i, epoch := d.epoch, receiver := a.selfId }]
    a.coll.checking = some n → a.isLead = false → a.treeParent < 6 → Clean a →
    Completes (.checkLinks t none [d] false) s (fun u =>
      u.coll.checking = none ∧ u.bit (mPage .coll) Reg.COLL_CHECK_STS 1 = (a.bit (mPage .coll) Reg.COLL_CHECK_STS 1 || r.isNone) ∧
      Tells a u 7 (a.neigh a.treeParent) (.tree { a.treeHdr with attempt := n } (.mismatchUp l.length l)) ∧ u.mem = a.mem)) ∧
  (∀ (t : Nat) (h : RxHdr) (th : TreeHdr) (total : Nat) (entries : List Mismatch) (s : State),
    let a := s.advance t
    let m := mPage .coll
    Heard a h th (.mismatchUp total entries) →
    (a.isLead = false → a.treeParent < 6 →
      Completes (.mismatchUp t h th total entries) s (fun u =>
        Tells a u 7 (a.neigh a.treeParent) (.tree th (.mismatchUp total entries)) ∧ Took a u h)) ∧
    (a.isLead = true →
      Completes (.mismatchUp t h th total entries) s (fun u =>
        u.coll.checkLeft = a.coll.checkLeft - 1 ∧
        (a.coll.checkLeft ≤ 1 → u.bit m Reg.COLL_CHECK_STS 0 = false) ∧
        u.num m Reg.COLL_MISMATCHES = (if total = 0 then a.num m Reg.COLL_MISMATCHES else
          min 0xFFFFFFFF (a.num m Reg.COLL_MISMATCHES + total)) ∧
        (∀ l e, total ≠ 0 → entries = l ++ [e] →
          u.num m Reg.COLL_LAST_MISMATCH = (e.receiver + 2 ^ 18 * e.direction + 2 ^ 22 * e.quarter) % 2 ^ 32) ∧ u.mem = a.mem)))

/-- A VERDICT operation in RUN or VERDICT, on memory without errors, while another quarter's record is missing,
records its quarter's sum, rounded in binary32 at every addition, and NF for a non-finite entry or sum; the state
becomes VERDICT. A record of the one child that was awaited is combined with this module's and goes to the parent; at
the lead, once every module has contributed, it decides. A verdict for this attempt is passed to the children, stored,
counted in VERDICTS, and leads to GO or SKIPPING; one for another attempt sets RUN_ERR and the module reports itself
out of step. (R141, R143, R146, R147, R148, R149, R151, R201) -/
def Obligations.VerdictsClimbAndDecide : Prop :=
  (∀ (t q i n : Nat) (w : WinEntry) (s : State),
    let a := s.advance t
    let d := w.desc
    let e (j : Nat) : Machine.Num := splitValue (word16 a.mem (dq d 3 + 4 * j)) (word16 a.mem (dq d 3 + 4 * j + 2))
    let sum (k : Nat) : Machine.Num := (List.range k).foldl (fun x j => fAdd x (e j)) (.fin false 0 0)
    let nf := (List.range n).any (fun j => !(e j).isFinite || !(sum (j + 1)).isFinite)
    a.startable q 153 = some (i, w) → dOp d = 3 → (a.stepState = 1 ∨ a.stepState = 2) → dw d 5 = 4 * n →
    (a.coll.ops.filter (fun o => o.q == q)).length < 4 →
    populated (dq d 3) (4 * n) = true → touchesReserved (dq d 3) (4 * n) = false → Clean a → a.isSpare = false → (∃ p, p < 4 ∧ p ≠ q ∧ ∀ x ∈ a.train.quarters, x.1 ≠ p) →
    Completes (.verdictOp t q []) s (fun u =>
      (q, { nf := nf, force := a.bit (mPage .step) Reg.STEP_STEP_CTL 1 || a.train.triadFail, contrib := 1,
            sumsq := toF32 (sum n) }) ∈ u.train.quarters ∧ u.stepState = 2 ∧
      ((u.queue q 153).window[i]?).map (fun v => (v.status, v.waitUntil)) = some (.done, a.now))) ∧
  (∀ (t : Nat) (h : RxHdr) (th : TreeHdr) (nf force : Bool) (contrib : Nat) (sumsq : Word) (own : VRec) (s : State),
    let a := s.advance t
    let r : VRec := { nf := own.nf || nf, force := own.force || force, contrib := own.contrib + contrib,
                      sumsq := toF32 (fAdd (ofF32 own.sumsq) (ofF32 sumsq)) }
    let step := mPage .step
    let v := decideVerdict (min 2 (a.field step Reg.STEP_STEP_CTL 2 2)) (a.reg step Reg.STEP_SKIP_LIMIT)
      (a.reg step Reg.STEP_CLIP_LIMIT) r
    Heard a h th (.verdictUp nf force contrib sumsq) → th.attempt = a.attempt → a.train.localRec = some own → a.isSpare = false → a.train.kids = [] →
    a.train.sentUp = false → a.heard [th.origin] = true → a.isChild th.origin = true →
    (a.isLead = false → a.treeParent < 6 →
      Completes (.verdictUp t h th nf force contrib sumsq) s (fun u => u.train.sentUp = true ∧ u.mem = a.mem ∧
        Tells a u 7 (a.neigh a.treeParent) (.tree a.treeHdr (.verdictUp r.nf r.force r.contrib r.sumsq)))) ∧
    (a.isLead = true → r.contrib = a.podModules → (a.stepState = 1 ∨ a.stepState = 2) →
      Completes (.verdictUp t h th nf force contrib sumsq) s (fun u =>
        u.num step Reg.STEP_VERDICT = v.1 ∧ u.reg step Reg.STEP_VNORM = v.2.1 ∧ u.reg step Reg.STEP_CLIP = v.2.2 ∧
        u.stepState = (if v.1 % 4 = 1 then 3 else 4) ∧
        ∀ c ∈ a.treeChildren, Tells a u 7 (a.neigh c) (.tree a.treeHdr (.verdictDown v.1 v.2.1 v.2.2))))) ∧
  (∀ (t : Nat) (h : RxHdr) (th : TreeHdr) (verdict : Nat) (vnorm clip : Word) (s : State),
    let a := s.advance t
    let step := mPage .step
    Heard a h th (.verdictDown verdict vnorm clip) →
    (th.attempt = a.attempt → (a.stepState = 1 ∨ a.stepState = 2) →
      Completes (.verdictDown t h th verdict vnorm clip) s (fun u =>
        u.num step Reg.STEP_VERDICT = verdict % 2 ^ 32 ∧ u.reg step Reg.STEP_VNORM = vnorm ∧ u.reg step Reg.STEP_CLIP = clip ∧
        u.stepState = (if verdict % 4 = 1 then 3 else 4) ∧
        (verdict % 4 ≠ 1 → u.num step Reg.STEP_SKIPPED = min 0xFFFFFFFF (a.num step Reg.STEP_SKIPPED + 1)) ∧
        (∀ p, p < 4 → u.counter p 4094 = min 0xFFFFFFFF (a.counter p 4094 + 1)) ∧
        ∀ c ∈ a.treeChildren, Tells a u 7 (a.neigh c) (.tree th (.verdictDown verdict vnorm clip)))) ∧
    (th.attempt ≠ a.attempt →
      Completes (.verdictDown t h th verdict vnorm clip) s (fun u =>
        u.bit step Reg.STEP_STEP_STS 4 = true ∧ u.fabric.pod.selfCut = true ∧ u.stepState = a.stepState ∧
        u.reg step Reg.STEP_VERDICT = a.reg step Reg.STEP_VERDICT ∧ u.mem = a.mem)))

/-- For every record and limits and every mode: the decision skips exactly if one of the four reasons holds, each with
its bit, and the outcome is 2 for skip and 1 for go; VNORM is the square root of the sum; CLIP is the quotient of the
limit and the norm where the step goes on, the mode uses the norm, a limit is set and the norm is above it, and 1.0
otherwise. (R148) -/
def Obligations.TheLeadDecidesByItsLimits : Prop :=
  ∀ (mode : Nat) (sl cl : Word) (r : VRec), mode ≤ 2 →
    let v := fSqrt (ofF32 r.sumsq)
    let nonfinite : Prop := mode ≠ 1 ∧ r.nf = true
    let normNan : Prop := mode ≠ 0 ∧ v.isFinite = false
    let exceeds : Prop := mode ≠ 0 ∧ v.isFinite = true ∧ Num.lt .zero (ofF32 sl) = true ∧ (ofF32 sl).lt v = true
    let skip : Prop := r.force = true ∨ nonfinite ∨ normNan ∨ exceeds
    let d := decideVerdict mode sl cl r
    (d.1 % 4 = 2 ↔ skip) ∧ (d.1 % 4 = 1 ↔ ¬ skip) ∧ (bitAt d.1 4 = true ↔ r.force = true) ∧ (bitAt d.1 5 = true ↔ nonfinite) ∧
    (bitAt d.1 6 = true ↔ normNan) ∧ (bitAt d.1 7 = true ↔ exceeds) ∧ d.2.1 = toF32 v ∧
    (¬ skip → mode ≠ 0 → Num.lt .zero (ofF32 cl) = true → (ofF32 cl).lt v = true → d.2.2 = toF32 (fDiv (ofF32 cl) v)) ∧
    ((skip ∨ mode = 0 ∨ Num.lt .zero (ofF32 cl) = false ∨ (ofF32 cl).lt v = false) → d.2.2 = 0x3F800000)

/-- When its conditions hold, the boundary counts ATTEMPT and BOUNDARIES, sets PHASE_MARK, VERDICT, RUN_ERR and
FORCE_SKIP to 0 and CLIP to 1.0, takes the next seed, clears the sorter bins and enters RUN, and the FWD timer starts at
the end of its path time; otherwise nothing
changes. A module in GO whose updates and collectives are done enters PREPARED, and without children reports to its
parent; a module alone commits. A child's report is combined and passed on. COMMIT for this attempt in PREPARED, on
memory without errors, leases or digest comparison, is passed to the children, copies every line of a gathered lane
that the module does not own out of staging, counts COMMITTED and CLOSES, and closes the step; a second COMMIT is only
passed on. (R120, R142, R143, R144, R145, R154, R155, R156, R193, R201, R345) -/
def Obligations.BoundaryPreparedAndCommitOrderTheStep : Prop :=
  (∀ (t : Nat) (s : State),
    let a := s.advance t
    let step := mPage .step
    a.train.ueLines = [] →
    (a.boundaryReady = true →
      Completes (.stepBoundary t) s (fun u =>
        u.attempt = (a.attempt + 1) % 2 ^ 64 ∧ u.stepState = 1 ∧
        (∀ q, q < 4 → u.counter q 4095 = min 0xFFFFFFFF (a.counter q 4095 + 1) ∧ u.counter q 4092 = 0) ∧
        u.num step Reg.STEP_VERDICT = 0 ∧ u.num step Reg.STEP_CLIP = 0x3F800000 ∧ u.bit step Reg.STEP_STEP_CTL 1 = false ∧
        u.bit step Reg.STEP_STEP_STS 4 = false ∧ u.compute.bins = [] ∧
        u.num64 step Reg.STEP_PTp_START_LO Reg.STEP_PTp_START_HI = (a.podCount + 28800) % 2 ^ 64 ∧
        u.reg (mPage .rng) Reg.RNG_SEED_LO = a.reg (mPage .rng) Reg.RNG_SEED_NEXT_LO ∧
        u.reg (mPage .rng) Reg.RNG_SEED_HI = a.reg (mPage .rng) Reg.RNG_SEED_NEXT_HI)) ∧
    (a.boundaryReady = false → Completes (.stepBoundary t) s (fun u => u = a))) ∧
  (∀ (t : Nat) (s : State),
    let a := s.advance t
    let count := if a.isSpare then 0 else 1
    a.stepState = 3 → (∀ q, q < 4 → a.partDone q 153 = true ∧ ∀ k, k < 4 → a.partDone q (160 + k) = true) →
    a.treeChildren = [] → a.train.prepSent = false → a.train.ueLines = [] →
    (a.isLead = false → a.treeParent < 6 →
      Completes (.modulePrepared t) s (fun u => u.stepState = 5 ∧ u.train.prepSent = true ∧ u.mem = a.mem ∧
        Tells a u 7 (a.neigh a.treeParent) (.tree a.treeHdr (.preparedUp count a.train.present a.train.nz)))) ∧
    (a.isLead = true → a.isSpare = false → a.podModules = 1 → (∀ b ∈ a.train.buckets, b.gather = false) →
      a.field (mPage .step) Reg.STEP_DIGEST_EVERY 0 16 = 0 → (∀ w ∈ a.leases.writes, w.owner ≠ some commitOwner) →
      Completes (.modulePrepared t) s (fun u => u.stepState = 7 ∧ u.committed = (a.committed + 1) % 2 ^ 64))) ∧
  (∀ (t : Nat) (h : RxHdr) (th : TreeHdr) (count present nz : Nat) (own : PrepRec) (s : State),
    let a := s.advance t
    Heard a h th (.preparedUp count present nz) → th.attempt = a.attempt → a.train.prepKids = [] → a.isLead = false → a.treeParent < 6 →
    (a.train.prepared = none → Completes (.preparedUp t h th count present nz) s (fun u =>
      u.train = { a.train with prepKids := [{ child := th.origin, count := count, present := present, nz := nz }] })) ∧
    (a.train.prepared = some own → a.train.prepSent = false → a.heard [th.origin] = true → a.isChild th.origin = true →
      Completes (.preparedUp t h th count present nz) s (fun u => u.train.prepSent = true ∧ u.mem = a.mem ∧
        Tells a u 7 (a.neigh a.treeParent)
          (.tree a.treeHdr (.preparedUp (own.count + count) (own.present ||| present) (own.nz ||| nz)))))) ∧
  (∀ (t : Nat) (h : RxHdr) (th : TreeHdr) (time present nz : Nat) (s : State),
    let a := s.advance t
    Heard a h th (.commitDown time present nz) → a.train.ueLines = [] →
    (th.attempt = a.attempt → a.stepState = 5 → a.field (mPage .step) Reg.STEP_DIGEST_EVERY 0 16 = 0 → Clean a →
      (∀ y n, a.writeWaits y n = false) →
      Completes (.commitDown t h th time present nz) s (fun u =>
        u.stepState = 7 ∧ u.committed = (a.committed + 1) % 2 ^ 64 ∧
        (∀ p, p < 4 → u.counter p 4093 = min 0xFFFFFFFF (a.counter p 4093 + 1)) ∧
        (∀ c ∈ a.treeChildren, Tells a u 7 (a.neigh c) (.tree th (.commitDown time present nz))) ∧
        (∀ b, a.train.buckets = [b] → b.gather = true →
          let p := a.plan b.q (dw b.desc 6)
          let lines := dw b.desc 5 / 64
          (∀ e ∈ planDims p, a.ringPos e < a.ringSize e) → touchesReserved (dq b.desc 3) (64 * lines) = false →
          Apart (dq b.desc 3) (64 * lines) p.stage (64 * lines) →
          ∀ l, l < lines → (∀ g ∈ a.ownedAt (planDims p) a.ringPos lines, ¬ (g.1 ≤ l ∧ l < g.2)) →
            memBytes u.mem (dq b.desc 3 + 64 * l) 64 = memBytes a.mem (p.stage + 64 * l) 64))) ∧
    (a.stepState ≠ 5 → Completes (.commitDown t h th time present nz) s (fun u =>
      u.train = a.train ∧ u.mem = a.mem ∧ u.stepState = a.stepState ∧ u.committed = a.committed)))

/-- In COMMITTING, with digests of one layer: a node merges its child's pair with its own, adding counts of equal
pairs and keeping the lower holder, and passes it on; a lead that finds them equal sends the majority down and closes
the step. A module that agrees with the majority, or finds none, closes; one that differs notes a copy from the
holder. A copy that arrives is written and digested again: a match is counted and reported, and without further copies
the step closes; a first mismatch is copied again. On a page being mended, the line with a poisoned codeword is
replaced by the holder's, no other byte changes, and the mend ends. (R155, R222, R455, R461, R462, R464, R465) -/
def Obligations.DigestsFindMinoritiesAndMends : Prop :=
  (∀ (t : Nat) (h : RxHdr) (th : TreeHdr) (x y : LayerEntry) (s : State),
    let a := s.advance t
    let both : LayerEntry := { x with count := x.count + y.count, holder := min x.holder y.holder }
    Heard a h th (.digestUp [y]) → th.attempt = a.attempt → a.train.stage = .digests → a.train.digestSent = false →
    a.train.digestKids = [] →
    a.train.layers = [x] → x.layer = y.layer → a.heard [th.origin] = true → a.isChild th.origin = true →
    (a.isLead = false → a.treeParent < 6 →
      Completes (.digestUp t h th [y]) s (fun u => u.train.digestSent = true ∧ u.mem = a.mem ∧
        Tells a u 7 (a.neigh a.treeParent) (.tree a.treeHdr (.digestUp (if x.digest = y.digest then [both] else [x, y]))))) ∧
    (a.isLead = true → x.digest = y.digest → 0 < x.count + y.count →
      let m : MajorityEntry := { layer := x.layer, split := false, holder := min x.holder y.holder, digest := x.digest }
      Completes (.digestUp t h th [y]) s (fun u => u.stepState = 7 ∧ u.train.majority = [m] ∧
        ∀ c ∈ a.treeChildren, Tells a u 7 (a.neigh c) (.tree a.treeHdr (.digestDown [m]))))) ∧
  (∀ (t : Nat) (h : RxHdr) (th : TreeHdr) (x : LayerEntry) (m : MajorityEntry) (s : State),
    let a := s.advance t
    Heard a h th (.digestDown [m]) → th.attempt = a.attempt → a.train.stage = .digests → a.train.layers = [x] → m.layer = x.layer → a.isLead = false →
    Completes (.digestDown t h th [m]) s (fun u =>
      (∀ c ∈ a.treeChildren, Tells a u 7 (a.neigh c) (.tree th (.digestDown [m]))) ∧ u.mem = a.mem ∧
      ((m.split = true ∨ m.digest = x.digest) → u.stepState = 7 ∧ u.train.copies = []) ∧
      (m.split = false → m.digest ≠ x.digest → u.stepState = a.stepState ∧
        u.train.copies = [{ index := 0, layer := x.layer, holder := some m.holder, digest := some m.digest }]))) ∧
  (∀ (t index : Nat) (bytes : List Byte) (outer : List OuterRange) (c : LayerCopy) (s : State),
    let a := s.advance t
    let e := a.layerEntry index
    let n := 65536 * e.2.1
    let table := a.num64 (mPage .fault) Reg.FAULT_LTAB_LO Reg.FAULT_LTAB_HI + 16 * index
    a.train.copies = [c] → c.index = index → c.holder.isSome = true → a.writeWaits e.1 n = false → populated e.1 n = true →
    bytes.length = n → Clean a → a.train.ueLines = [] → Apart e.1 n table 16 → a.isLead = false → c.copies = 0 →
    index < outerIndex → a.ownerWaits (copyOwner index) = false →
    Completes (.replicaMendDone t index bytes outer) s (fun u =>
      memBytes u.mem e.1 n = bytes ∧ (∀ y, Apart y 1 e.1 n → memGet u.mem y = memGet a.mem y) ∧
      (c.digest = some (digest 0 bytes).toNat → u.train.copies = [] ∧
        u.num (mPage .fault) Reg.FAULT_REPLICA_MENDS = min 0xFFFFFFFF (a.num (mPage .fault) Reg.FAULT_REPLICA_MENDS + 1) ∧
        (a.treeParent < 6 → Tells a u 7 (a.neigh a.treeParent) (.tree a.treeHdr (.reportUp 3 a.selfId c.layer))) ∧
        (a.train.stage = .digests → u.stepState = 7)) ∧
      (c.digest ≠ some (digest 0 bytes).toNat → u.train.copies = [{ c with copies := 1 }] ∧ u.stepState = a.stepState))) ∧
  (∀ (t page cw : Nat) (m : PageMend) (bs : List Byte) (s : State),
    let a := s.advance t
    let base := 0x10000000000 + 0x10000 * page
    let l := (16 * cw - base) / 64
    a.train.mends = [m] → m.page = page → m.holder.isSome = true → a.ecc = [(cw, poisonMark)] → base ≤ 16 * cw →
    16 * cw < base + 0x10000 → bs.length = 64 → a.writeWaits base 0x10000 = false →
    populated base 0x10000 = true → a.ownerWaits (mendOwner page) = false →
    (∀ e ∈ a.stackUnits, e.2.writeBacks = [] ∧ e.2.reqs = [] ∧ e.2.waiting = []) →
    (∀ q k, q < 4 → k < 4 → ∀ w ∈ (a.queue q (160 + k)).window, ¬ (w.status = .running ∧ w.next = 2)) →
    Completes (.pageMendDone t page [(l, bs)]) s (fun u =>
      memBytes u.mem (base + 64 * l) 64 = bs ∧ u.ecc = [] ∧ u.train.mends = [] ∧
      (∀ y, Apart y 1 (base + 64 * l) 64 → memGet u.mem y = memGet a.mem y) ∧
      u.num (mPage .fault) Reg.FAULT_PAGE_MENDS = min 0xFFFFFFFF (a.num (mPage .fault) Reg.FAULT_PAGE_MENDS + 1)))

/-- A claimed lease under which no write is on its way is granted, with MIXED in GO, PREPARED and COMMITTING and the
low 16 bits of COMMITTED, and nothing else changes. The first waiting write that no held lease covers and that shares
no page with an earlier one is performed; the others stay, and no other byte changes. A write that has waited
LEASE_WARN counts is recorded by its page and goes on waiting. (R157, R158, R159, R165) -/
def Obligations.LeasesAreGrantedAndHoldWrites : Prop :=
  (∀ (t n : Nat) (s : State),
    let a := s.advance t
    let l := a.lease n
    0 < n → n ≤ 240 → a.bit (mPage .lease) (leaseReg Reg.LEASE_Ln_CTL n) 0 = true → l.granted = false → a.writesUnder n = false →
    Completes (.leaseGrant t n) s (fun u =>
      u.lease n = { l with granted := true, mixed := decide (a.stepState ∈ [3, 5, 6]), claimStep := a.committed % 65536 } ∧
      (∀ k, k ≠ n → u.lease k = a.lease k) ∧ u = { a with leases := u.leases } ∧ u.leases.writes = a.leases.writes)) ∧
  (∀ (t : Nat) (l r : List LeaseWrite) (w : LeaseWrite) (s : State),
    let a := s.advance t
    let n := w.bytes.length
    a.leases.writes = l ++ [w] ++ r → a.leaseCovers w.addr n = false →
    (∀ b ∈ l, a.leaseCovers b.addr b.bytes.length = true ∧ sharePage b.addr b.bytes.length w.addr n = false) →
    Clean a → a.train.ueLines = [] → w.respond = none → (∀ o, w.owner = some o → o.1 < 4) → a.clk.stalled = [] → a.train.commit = none →
    Completes (.leaseWriteAccept t) s (fun u =>
      u.leases.writes = l ++ r ∧ memBytes u.mem w.addr n = w.bytes.map Prod.fst ∧
      (∀ y, Apart y 1 w.addr n → memGet u.mem y = memGet a.mem y))) ∧
  (∀ (t p e : Nat) (w : LeaseWrite) (s : State),
    let a := s.advance t
    a.leases.writes = [w] → w.stale = false → w.since + a.num (mPage .step) Reg.STEP_LEASE_WARN ≤ a.podCount →
    weightPages w.addr w.bytes.length = some (p, e) →
    Completes (.leaseStale t) s (fun u =>
      u.num (mPage .step) Reg.STEP_STALE_PAGE = p % 2 ^ 32 ∧ u.leases.writes = [{ w with stale := true }] ∧ u.mem = a.mem))

/-- In GO or later, on memory without errors, with no lease or waiting write, and export inactive, UPDATE_ADAMW,
UPDATE_ADAMW_FACT, UPDATE_SGDM and UPDATE_CUSTOM each run a program of their kind that may start: its entry is done at its path time, its layer is PRESENT, and no
byte changes outside its weight rows and the layouts of its moments. UPDATE_PARITY_RESUME: a program that waited for an
unshipped image does the same once the image is free, and LAG clears when no other waits. EXPORT_LAG: one that has waited
LEASE_WARN counts of pod time sets LAG, once. (R150, R154, R166, R168, R170, R171, R182, R336) -/
def Obligations.UpdateProgramsWriteOnlyTheirState : Prop :=
  (∀ (t q k i prog : Nat) (w : WinEntry) (s : State),
    let a := s.advance t
    let g := a.programOf q (a.startsUpdate q w)
    let n := 160 + k
    let P (u : State) : Prop :=
      (u.queue q n).window[i]? = some { w with status := .done, startedAt := a.now, salt := a.salt q, attempt := a.attempt,
                                               waitUntil := a.now + 3 * updateTime g } ∧
      u.train.present = a.train.present ||| 2 ^ df w.desc 1 0 12 ∧
      ∀ y, (∀ r ∈ updateRanges g, Apart y 1 r.1 r.2) → memGet u.mem y = memGet a.mem y
    k < 4 → a.stepState ∈ [3, 5, 6, 7] → (∀ v ∈ (a.queue q n).window, v.status ≠ .running) → a.startable q n = some (i, w) →
    w.next = 0 → df w.desc 0 4 4 = prog → Clean a → a.train.ueLines = [] → a.exportActive = false → (∀ y m, a.writeWaits y m = false) →
    a.leases.writes = [] → (a.queue q n).pathEnd ≤ a.now →
    (prog = 1 → Completes (.updateAdamw t q k []) s P) ∧ (prog = 2 → Completes (.updateAdamwFact t q k []) s P) ∧
    (prog = 3 → Completes (.updateSgdm t q k []) s P) ∧ (prog = 15 → Completes (.updateCustom t q k []) s P)) ∧
  (∀ (t q k i : Nat) (w : WinEntry) (s : State),
    let a := s.advance t
    let n := 160 + k
    q < 4 → k < 4 → a.waitsImage q k = some (i, w) → a.exportActive = false → Clean a → a.train.ueLines = [] →
    (∀ y m, a.writeWaits y m = false) → (∀ j v, (a.queue q n).window[j]? = some v → j ≠ i → v.status ≠ .running) →
    (∀ q' k', q' < 4 → k' < 4 → (q', k') ≠ (q, k) → a.waitsImage q' k' = none) →
    Completes (.updateParityResume t q k) s (fun u =>
      (u.queue q n).window[i]? = some { w with status := .done, waitUntil := a.now + 3 * updateTime (a.programOf q w) } ∧
      u.bit (mPage .exp) Reg.EXP_EXP_STS 1 = false ∧ u.train.present = a.train.present ||| 2 ^ df w.desc 1 0 12 ∧
      ∀ y, (∀ r ∈ updateRanges (a.programOf q w), Apart y 1 r.1 r.2) → memGet u.mem y = memGet a.mem y)) ∧
  (∀ (t q k i : Nat) (w : WinEntry) (s : State),
    let a := s.advance t
    let n := 160 + k
    q < 4 → k < 4 → a.waitsImage q k = some (i, w) → w.waitUntil = 0 →
    w.waitPod + a.num (mPage .step) Reg.STEP_LEASE_WARN ≤ a.podCount →
    Completes (.exportLag t q k) s (fun u =>
      u.queue q n = { a.queue q n with window := (a.queue q n).window.set i { w with waitUntil := 1 } } ∧
      u.bit (mPage .exp) Reg.EXP_EXP_STS 1 = true ∧ u.mem = a.mem ∧ u.train = a.train))

/-- For a program that may start, of one row or, for ADAMW_FACT, of any, on memory without errors, leases or export, with
weights and moments in
separate places and no NaN held: every weight that UPDATE_ADAMW, UPDATE_ADAMW_FACT, UPDATE_SGDM or UPDATE_CUSTOM stores is
the result of its formula or code, each operation in binary32, from the gradient, the old weight and the moments as their
blocks decode, rounded to the weight format under the element's draw. (R119, R168, R170, R172 to R176, R178 to R180) -/
def Obligations.OptimizersFollowTheirFormulas : Prop :=
  (∀ (t q k i prog : Nat) (w : WinEntry) (s : State),
    let a := s.advance t
    let d := w.desc
    let pr := a.programOf q (a.startsUpdate q w)
    let cols := pr.p.cols
    let c := pr.k
    let fw := fmt16 (db d 0 8)
    let X := dq d 10
    let has (i : Nat) : Bool := decide (prog ≠ 15 ∨ dq d i ≠ 0)
    let g (j : Nat) : Machine.Num := if has 6 then decodeElem (fmt16 (db d 0 9)) (word16 a.mem (dq d 6 + 2 * j)) else .zero
    let gh (j : Nat) : Machine.Num := fMul (g j) c.c
    let sq (j : Nat) : Machine.Num := fMul (gh j) (gh j)
    let old (j : Nat) : Machine.Num := if has 4 then decodeElem fw (word16 a.mem (dq d 4 + 2 * j)) else .zero
    let m (j : Nat) : Machine.Num := if has 8 then a.momentAt (dq d 8) 1 cols 0 j else .zero
    let v (j : Nat) : Machine.Num := if has 10 then a.momentAt X 1 cols 0 j else .zero
    let m1 (j : Nat) : Machine.Num := fAdd (fMul c.beta1 (m j)) (if prog = 3 then gh j else fMul c.omb1 (gh j))
    let v1 (j : Nat) : Machine.Num := fAdd (fMul c.beta2 (v j)) (fMul c.omb2 (sq j))
    let step (j : Nat) : Machine.Num := if prog = 3 then m1 j else fDiv (fMul (m1 j) c.b1) (fAdd (fSqrt (fMul (v1 j) c.b2)) c.eps)
    let w1 (j : Nat) : Machine.Num := fSub (old j) (fMul c.lr (fAdd (step j) (fMul c.lambda (old j))))
    let Stored (u : State) (j : Nat) (x : Machine.Num) : Prop :=
      word16 u.mem (dq d 4 + 2 * j) = (convert16 fw (.sr (draw pr.key (4 * j))) x).code % 65536
    let P (u : State) : Prop := ∀ j, j < cols → Stored u j (w1 j)
    k < 4 → a.stepState ∈ [3, 5, 6, 7] → (∀ v ∈ (a.queue q (160 + k)).window, v.status ≠ .running) →
    a.startable q (160 + k) = some (i, w) → w.next = 0 → df d 0 4 4 = prog → pr.p.rows = 1 → Clean a → a.train.ueLines = [] →
    a.train.takeUp = none → a.exportActive = false → (∀ y m, a.writeWaits y m = false) → a.leases.writes = [] →
    (a.queue q (160 + k)).pathEnd ≤ a.now → a.bit (mPage .opt) Reg.OPT_OPT_CTL 0 = false →
    Apart (dq d 4) (2 * cols) (dq d 8) (layoutSize 1 cols) → (prog ≠ 3 → Apart (dq d 4) (2 * cols) X (layoutSize 1 cols)) →
    (prog = 1 → Completes (.updateAdamw t q k []) s P) ∧ (prog = 3 → Completes (.updateSgdm t q k []) s P) ∧
    (prog = 15 → Completes (.updateCustom t q k []) s (fun u =>
      ∀ j x, j < cols → (customElem pr (g j) (old j) (m j) (v j)).w = some x → Stored u j x))) ∧
  (∀ (t q k i : Nat) (w : WinEntry) (s : State),
    let a := s.advance t
    let d := w.desc
    let pr := a.programOf q (a.startsUpdate q w)
    let rows := pr.p.rows
    let cols := pr.p.cols
    let c := pr.k
    let fw := fmt16 (db d 0 8)
    let X := dq d 10
    let W (n j : Nat) : Nat := dq d 4 + n * pr.p.wstride + 2 * j
    let sum (l : List Machine.Num) : Machine.Num := l.foldl fAdd .zero
    let gh (n j : Nat) : Machine.Num := fMul (decodeElem (fmt16 (db d 0 9)) (word16 a.mem (dq d 6 + n * pr.p.gstride + 2 * j))) c.c
    let sq (n j : Nat) : Machine.Num := fMul (gh n j) (gh n j)
    let r1 (n : Nat) : Machine.Num := fAdd (fMul c.beta2 (a.momentAt X 1 rows 0 n))
      (fMul c.omb2 (fDiv (sum ((List.range cols).map (sq n))) (.fin false cols 0)))
    let c1 (j : Nat) : Machine.Num := fAdd (fMul c.beta2 (a.momentAt (X + layoutSize 1 rows) 1 cols 0 j))
      (fMul c.omb2 (fDiv (sum ((List.range rows).map (fun n => sq n j))) (.fin false rows 0)))
    let rbar := fDiv (sum ((List.range rows).map r1)) (.fin false rows 0)
    let vh (n j : Nat) : Machine.Num := if rbar.isZero then .zero else fMul (fDiv (fMul (r1 n) (c1 j)) rbar) c.b2
    let m1 (n j : Nat) : Machine.Num := fAdd (fMul c.beta1 (a.momentAt (dq d 8) rows cols n j)) (fMul c.omb1 (gh n j))
    let old (n j : Nat) : Machine.Num := decodeElem fw (word16 a.mem (W n j))
    let w1 (n j : Nat) : Machine.Num := fSub (old n j) (fMul c.lr (fAdd (fDiv (fMul (m1 n j) c.b1) (fAdd (fSqrt (vh n j)) c.eps))
      (fMul c.lambda (old n j))))
    let all := (rows - 1) * pr.p.wstride + 2 * cols
    k < 4 → a.stepState ∈ [3, 5, 6, 7] → (∀ v ∈ (a.queue q (160 + k)).window, v.status ≠ .running) →
    a.startable q (160 + k) = some (i, w) → w.next = 0 → df d 0 4 4 = 2 → Clean a → a.train.ueLines = [] →
    a.train.takeUp = none → a.exportActive = false → (∀ y m, a.writeWaits y m = false) → a.leases.writes = [] →
    (a.queue q (160 + k)).pathEnd ≤ a.now → a.bit (mPage .opt) Reg.OPT_OPT_CTL 0 = false → 2 * cols ≤ pr.p.wstride →
    Apart (dq d 4) all (dq d 8) (layoutSize rows cols) → Apart (dq d 4) all X (layoutSize 1 rows + layoutSize 1 cols) →
    Completes (.updateAdamwFact t q k []) s (fun u => ∀ n j, n < rows → j < cols →
      word16 u.mem (W n j) = (convert16 fw (.sr (draw pr.key (4 * (n * cols + j)))) (w1 n j)).code % 65536))

/-- A frame in order for this module, on memory without errors and not from the lead's register lane: a WRITE that
memory takes stores its bytes and is answered, waits where a lease covers its page, and is answered with an address
error, storing nothing, where memory does not take it; a READ_REQ is answered with the bytes, or with an address
error; a READ_RESP gives its segment the answer, which its requester has at the end of its path; a SIG adds its amount to
the counter. Another site's request on its
queue pair acts and is answered the same way at an active module, an atomic addition with the value before it. (R109, R158, R239, R249, R250, R270, R273, R340) -/
def Obligations.RemoteFramesActAtTheirTarget : Prop :=
  (∀ (t seg : Nat) (h : RxHdr) (rsig : Bool) (bytes : List (Byte × Bool)) (s : State),
    let a := s.advance t
    let x := h.dst % 2 ^ 45
    let n := bytes.length
    let answer (e : Bool) : Frame := a.ownFrame h.vl h.q (h.src * 2 ^ 45) (.readResp seg e [])
    Delivered a h (.write seg rsig bytes) false → a.leadOrigin h = none → Clean a → a.train.ueLines = [] →
    (memReach x n = true → a.writeWaits x n = false →
      Completes (.frameWrite t h seg rsig bytes) s (fun u => memBytes u.mem x n = bytes.map Prod.fst ∧
        (∀ y, Apart y 1 x n → memGet u.mem y = memGet a.mem y) ∧ Goes a u (answer false))) ∧
    (memReach x n = true → a.writeWaits x n = true →
      Completes (.frameWrite t h seg rsig bytes) s (fun u => u.mem = a.mem ∧ ∃ w, u.leases.writes = a.leases.writes ++ [w] ∧
        w.addr = x ∧ w.bytes = bytes ∧ w.since = a.podCount)) ∧
    (memReach x n = false →
      Completes (.frameWrite t h seg rsig bytes) s (fun u => u.mem = a.mem ∧ u.leases = a.leases ∧ Goes a u (answer true)))) ∧
  (∀ (t seg len ret : Nat) (h : RxHdr) (s : State),
    let a := s.advance t
    let x := h.dst % 2 ^ 45
    Delivered a h (.readReq seg len ret) false → a.leadOrigin h = none → Clean a → a.train.ueLines = [] →
    Completes (.frameReadReq t h seg len ret []) s (fun u => u.mem = a.mem ∧
      Goes a u (a.ownFrame h.vl h.q ret (if memReach x len = true
        then .readResp seg false ((memBytes a.mem x len).map (fun b => (b, false))) else .readResp seg true [])))) ∧
  (∀ (t seg : Nat) (h : RxHdr) (error : Bool) (bytes : List (Byte × Bool)) (g : Seg) (s : State),
    let a := s.advance t
    let b : Body := .readResp seg error bytes
    Delivered a h b false → a.fabric.segs = [g] → g.id = seg → g.answer = none → g.n ≠ relayQueue →
    Completes (.frameReadResp t h seg error bytes) s (fun u =>
      Took { a with fabric := { a.fabric with
        segs := [{ g with answer := some (if error then 0x20 else 0, bytes), due := a.released b + 72 }] } } u h)) ∧
  (∀ (t k q n : Nat) (h : RxHdr) (s : State),
    let a := s.advance t
    Delivered a h (.sig k q n) false → 0 < k → k < 4096 → q < 4 →
    Completes (.frameSig t h k q n) s (fun u =>
      u.counter q k = min 0xFFFFFFFF (a.counter q k + n) ∧
      (∀ q' k', k' < 4096 → (q', k') ≠ (q, k) → u.counter q' k' = a.counter q' k') ∧ u.mem = a.mem)) ∧
  (∀ (t q site seg vl addr x : Nat) (req : SiteRequest) (s : State),
    let a := s.advance t
    q < 4 → site < 8 → a.field (mPage .pod) Reg.POD_ROLE 2 2 = 0 → site ≠ a.ownSite → a.resolve addr = .here x → Clean a →
    a.train.ueLines = [] →
    (∀ bs, req = .write bs → memReach x bs.length = true → a.writeWaits x bs.length = false →
      Completes (.migrationQpRequest t q site seg vl addr req []) s (fun u => memBytes u.mem x bs.length = bs.map Prod.fst ∧
        (∀ y, Apart y 1 x bs.length → memGet u.mem y = memGet a.mem y) ∧ .siteAnswer q site seg 0 [] ∈ u.out)) ∧
    (∀ len, req = .read len → memReach x len = true →
      Completes (.migrationQpRequest t q site seg vl addr req []) s (fun u => u.mem = a.mem ∧
        .siteAnswer q site seg 0 ((memBytes a.mem x len).map (fun b => (b, false))) ∈ u.out)) ∧
    (∀ len, req = .read len → memReach x len = false →
      Completes (.migrationQpRequest t q site seg vl addr req []) s (fun u => u.mem = a.mem ∧ .siteAnswer q site seg 0x20 [] ∈ u.out)) ∧
    (∀ k r, req = .sig k r → 0 < k → k < 4091 → r < 4 →
      Completes (.migrationQpRequest t q site seg vl addr req []) s (fun u =>
        u.counter r k = min 0xFFFFFFFF (a.counter r k + 1) ∧ .siteAnswer q site seg 0 [] ∈ u.out)) ∧
    (∀ v, req = .fetchAdd v → memReach x 8 = true → x % 8 = 0 → a.writeWaits x 8 = false →
      Completes (.migrationQpRequest t q site seg vl addr req []) s (fun u =>
        leNat (memBytes u.mem x 8) = (leNat (memBytes a.mem x 8) + v) % 2 ^ 64 ∧
        (∀ y, Apart y 1 x 8 → memGet u.mem y = memGet a.mem y) ∧
        .siteAnswer q site seg 0 ((memBytes a.mem x 8).map (fun b => (b, false))) ∈ u.out)))

/-- A port that carries traffic: the first frame of lane 7, else of lane 6, that may leave by now, holds its credits
and overtakes none leaves with the next LSEQ, pays its credits and stays in the replay buffer; a lone frame of
another lane leaves too; a cut module sends on lane 6 only. A CTRL frame drops what it acknowledges from the replay buffer and returns its credits; a
NAK, or 8 µs without acknowledgement, resends the frame and counts it, and its sixteenth resend takes the link down.
Owed credits and the keepalive go out in CTRL frames. A link that hears nothing for 100 µs, or loses alignment, goes
down with no credits left. The lead's own checks are left out. (R238, R240, R241, R242, R247, R266) -/
def Obligations.LinksSequenceAcknowledgeAndRetry : Prop :=
  (∀ (t q d i : Nat) (w : Waiting) (s : State),
    let a := s.advance t
    let x := a.port q d
    let f := a.stamped w.frame
    let k := 3 * f.vl + f.cls
    let c := mapGet (fun _ => 0) x.credits k
    a.portUsable q d = true → a.bit (qPage .fport q d) Reg.HDR_PAGE_CTL 1 = false →
    x.replay.foldl (fun n r => n + r.frame.size) 0 + w.frame.size ≤ 0x40000 →
    (if a.fabric.pod.selfCut then x.head a.now 6 = some (i, w)
     else x.head a.now 7 = some (i, w) ∨ (x.head a.now 7 = none ∧ x.head a.now 6 = some (i, w)) ∨
      (x.waiting = [w] ∧ i = 0 ∧ w.ready ≤ a.now ∧ w.frame.vl < 6 ∧ x.turn < 6 ∧ x.deficit.length = 6 ∧
        x.affords w.frame = true ∧ w.frame.size ≤ 4160)) →
    Completes (.frameSend t q d) s (fun u =>
      let y := u.port q d
      y.waiting = x.waiting.eraseIdx i ∧ y.txSeq = (x.txSeq + 1) % 2 ^ 32 ∧
      y.replay = x.replay ++ [{ lseq := x.txSeq, frame := f, sentAt := a.now, resends := 0 }] ∧
      mapGet (fun _ => 0) y.credits k = c - f.credits ∧
      (∃ r, u.out = a.out ++ [.frame q d x.txSeq x.lack r f]) ∧
      u = { a with fabric := { a.fabric with ports := u.fabric.ports }, outAt := u.outAt, out := u.out })) ∧
  (∀ (t : Nat) (h : RxHdr) (s : State),
    let a := s.advance t
    let x := a.port h.q h.d
    a.portUp h.q h.d = true → rxBad h (.ctrl none) = false →
    Completes (.frameCtrl t h none) s (fun u =>
      (∀ r, r ∈ (u.port h.q h.d).replay ↔
        r ∈ x.replay ∧ 2 ^ 31 ≤ (h.lack + 2 ^ 32 - r.lseq) % 2 ^ 32) ∧
      (∀ v k n, h.credit = some (v, k, n) → mapGet (fun _ => 0) (u.port h.q h.d).credits (3 * v + k) =
        min (fullCredits v k) (mapGet (fun _ => 0) x.credits (3 * v + k) + n)) ∧
      (u.port h.q h.d).lastRx = a.now ∧ Took a u h)) ∧
  (∀ (t : Nat) (h : RxHdr) (r : Replay) (s : State),
    let a := s.advance t
    let q := h.q
    let d := h.d
    let x := a.port q d
    let page := qPage .fport q d
    let f := a.stamped r.frame
    let P (u : State) : Prop := (u.port q d).replay = [{ r with frame := f, sentAt := a.now, resends := r.resends + 1 }] ∧
      u.num page Reg.FPORT_RETRIES = min 0xFFFFFFFF (a.num page Reg.FPORT_RETRIES + 1) ∧ u.portUp q d = true ∧
      ∃ l c, u.out = a.out ++ [.frame q d r.lseq l c f]
    a.portUp q d = true → x.replay = [r] → a.isLead = false → (a.fabric.pod.selfCut = true → r.frame.vl = 6) →
    (rxBad h (.ctrl (some r.lseq)) = false → 2 ^ 31 ≤ (h.lack + 2 ^ 32 - r.lseq) % 2 ^ 32 → r.resends < 15 →
      Completes (.frameCtrl t h (some r.lseq)) s P) ∧
    (r.sentAt + 28800 ≤ a.now → r.resends < 15 → Completes (.replayTimeout t q d) s P) ∧
    (r.sentAt + 28800 ≤ a.now → r.resends = 15 → Completes (.replayTimeout t q d) s (fun u => u.portUp q d = false))) ∧
  (∀ (t q d v k n : Nat) (l : List (Nat × Nat)) (s : State),
    let a := s.advance t
    let x := a.port q d
    let f := a.ownFrame 6 q (a.field (qPage .fport q d) Reg.FPORT_NEIGH_ID 0 18 * 2 ^ 45) (.ctrl none)
    a.portUp q d = true →
    (x.owed = (3 * v + k, n) :: l → k < 3 → Completes (.creditReturnTimer t q d) s (fun u =>
      (u.port q d).owed = l ∧ u.out = a.out ++ [.frame q d x.txSeq x.lack (some (v, k, n)) f])) ∧
    Completes (.ctrlKeepaliveSend t q d) s (fun u => (u.port q d).lastCtrl = a.now ∧
      ∃ c, u.out = a.out ++ [.frame q d x.txSeq x.lack c f])) ∧
  (∀ (t q d : Nat) (s : State),
    let a := s.advance t
    let P (u : State) : Prop := u.portUp q d = false ∧ (u.port q d).credits = [] ∧ u.mem = a.mem
    a.portUp q d = true → a.isLead = false →
    ((a.port q d).lastRx + 360000 ≤ a.now → Completes (.linkIdleTimeout t q d) s P) ∧ Completes (.pcsAlignLost t q d) s P)

/-- A child with a parent asks every 65,536 counts, and every port that is up measures its link as often. A request is
answered with its own stamp and that of its reception, as JOIN_RESP where the child has not joined. The answer to this
module's latest request sets PT_OFFSET and PT_DELAY by the two-way exchange, and steers within 50 ppm: beyond 2 counts
LOCKED clears, after 8 answers within a quarter count it sets. A joining module steps once to the parent's time plus
the delay, and one that is LOCKED never back. LINK_DELAY is half the round trip less the neighbour's share. The rate is a free value within its bound
(log entry 2). (R243, R253, R254, R255, R266) -/
def Obligations.PodTimeIsExchangedAndSteered : Prop :=
  (∀ (t : Nat) (s : State),
    let a := s.advance t
    let p := a.fabric.pod
    let n := (p.syncSeq + 1) % 2 ^ 32
    (a.isLead = false → a.treeParent < 6 → a.bit (mPage .pod) Reg.POD_PT_STS 1 = false → p.syncAt + 65536 ≤ a.podCount →
      Completes (.podTimeSyncTimer t) s (fun u => u.fabric.pod = { p with syncSeq := n, syncAt := a.podCount } ∧
        Tells a u 6 (a.neigh a.treeParent) (.time { kind := 0, ta := 0, tb := 0, tc := 0, seq := n, state := a.timeState }))) ∧
    (p.linkAt + 65536 ≤ a.podCount →
      Completes (.linkDelayTimer t) s (fun u => u.fabric.pod = { p with linkAt := a.podCount } ∧ ∀ x ∈ a.upPorts,
        Says a u x.1 x.2 (.time { kind := 2, ta := 0, tb := 0, tc := 0, seq := 0, state := a.timeState })))) ∧
  (∀ (t ta seq state : Nat) (h : RxHdr) (s : State),
    let a := s.advance t
    let ask (k : Nat) : Body := .time { kind := k, ta := ta, tb := 0, tc := 0, seq := seq, state := state }
    let m (k : Nat) : TimeMsg := { kind := k, ta := ta, tb := a.pod.count64 % 2 ^ 64, tc := 0, seq := seq, state := a.timeState }
    (Delivered a h (ask 0) false → Completes (.syncReq t h ta seq state) s (fun u =>
      Tells a u 6 h.src (.time (m (if bitAt state 3 then 4 else 1))) ∧ u.mem = a.mem ∧ u.pod = a.pod)) ∧
    (Delivered a h (ask 2) true → Completes (.linkReq t h ta seq state) s (fun u =>
      Says a u h.q h.d (.time (m 3)) ∧ Took a u h))) ∧
  (∀ (t ta tb tc seq state : Nat) (h : RxHdr) (s : State),
    let a := s.advance t
    let pod := mPage .pod
    let t4 := a.pod.count64
    let offset := (stampDiff tb ta - stampDiff t4 tc) / 2
    let delay := (stampDiff t4 ta - stampDiff tc tb) / 2
    let good := if -16 ≤ offset ∧ offset ≤ 16 then a.fabric.pod.good + 1 else 0
    let b (k : Nat) : Body := .time { kind := k, ta := ta, tb := tb, tc := tc, seq := seq, state := state }
    let joined := ((a.restore tc : Int) + delay).toNat
    (Delivered a h (b 1) false → seq = a.fabric.pod.syncSeq → a.isLead = false →
      Completes (.syncResp t h ta tb tc seq state) s (fun u =>
        u.reg pod Reg.POD_PT_OFFSET = BitVec.ofInt 32 offset ∧ u.reg pod Reg.POD_PT_DELAY = BitVec.ofInt 32 delay ∧
        -50000 ≤ u.pod.rate ∧ u.pod.rate ≤ 50000 ∧ u.pod.count64 = t4 ∧ u.fabric.pod.good = good ∧
        u.bit pod Reg.POD_PT_STS 0 = (if offset < -128 ∨ 128 < offset then false
          else if 8 ≤ good then true else a.bit pod Reg.POD_PT_STS 0))) ∧
    (Delivered a h (b 4) false → seq = a.fabric.pod.syncSeq → a.pod.joining = true →
      Completes (.joinResp t h ta tb tc seq state) s (fun u =>
        u.pod.count64 = (if a.bit pod Reg.POD_PT_STS 0 = true then max t4 joined else joined) ∧ u.pod.joining = false ∧
        u.reg pod Reg.POD_PT_DELAY = BitVec.ofInt 32 delay)) ∧
    (Delivered a h (b 3) true → Completes (.linkResp t h ta tb tc seq state) s (fun u =>
      u.reg (qPage .fport h.q h.d) Reg.FPORT_LINK_DELAY = BitVec.ofInt 32 delay ∧ u.pod = a.pod)))

/-- A lead that is not being unpicked sends a heartbeat to its standby and to its neighbours every quarter of
LEAD_TIMEOUT. A heartbeat of the present term is noted, with its sender as LEAD_ID; one of a lower term changes
nothing kept; one of a higher term sets LEAD_TERM and deposes a lead. The standby of a silent lead asks the lead's
neighbours; each answers with what it last heard; a neighbour that heard nothing is noted. After the window, more than
half silent makes the standby the lead at the next term (stated with no step, no collective and no mend open, and every
direction up); otherwise the
probe ends and the next one waits. (R244, R258, R457) -/
def Obligations.TheLeadIsHeardProbedAndReplaced : Prop :=
  (∀ (t : Nat) (s : State),
    let a := s.advance t
    let p := a.fabric.pod
    a.isLead = true → a.boot.unpick = none → p.lastBeat + a.num (mPage .pod) Reg.POD_LEAD_TIMEOUT / 4 ≤ a.podCount →
    Completes (.leadHeartbeatTimer t) s (fun u => u.fabric.pod = { p with lastBeat := a.podCount } ∧ u.mem = a.mem ∧
      ∀ id ∈ a.standbyId.toList ++ a.physNeighbours (a.selfId % 2 ^ 15), Tells a u 7 id (.tree a.treeHdr (.heartbeat a.podCount)))) ∧
  (∀ (t time : Nat) (h : RxHdr) (th : TreeHdr) (s : State),
    let a := s.advance t
    let pod := mPage .pod
    let p := a.fabric.pod
    let old := if a.leadId = some th.origin then [] else a.leadId.toList
    let noted (u : State) : Prop := u.fabric.pod = { p with heartbeat := some a.podCount, probe := none
                                                            deposed := (p.deposed ++ old).filter (fun x => x != th.origin) } ∧
      u.reg pod Reg.POD_LEAD_ID = BitVec.ofNat 32 (th.origin + 2 ^ 31) ∧ u.mem = a.mem
    Delivered a h (.tree th (.heartbeat time)) false →
    (th.term = a.num pod Reg.POD_LEAD_TERM → Completes (.heartbeat t h th time) s noted) ∧
    (th.term < a.num pod Reg.POD_LEAD_TERM → Completes (.heartbeat t h th time) s (fun u => Took a u h)) ∧
    (a.num pod Reg.POD_LEAD_TERM < th.term → th.term < 2 ^ 32 → Completes (.heartbeat t h th time) s (fun u =>
      noted u ∧ u.num pod Reg.POD_LEAD_TERM = th.term ∧ u.isLead = false ∧ (a.isLead = false → u.isStandby = a.isStandby)))) ∧
  (∀ (t lead : Nat) (s : State),
    let a := s.advance t
    let p := a.fabric.pod
    let asked := a.physNeighbours (lead % 2 ^ 15)
    a.leadId = some lead → a.isStandby = true → a.leadSilent = true → p.probe = none → p.probeAt ≤ a.podCount →
    Completes (.standbyLeadTimeout t) s (fun u =>
      u.fabric.pod = { p with probe := some { since := a.podCount, asked := asked, silent := [] } } ∧ u.regs = a.regs ∧
      ∀ id ∈ asked, Tells a u 6 id (.disc (.leadProbe (a.num (mPage .pod) Reg.POD_LEAD_TERM))))) ∧
  (∀ (t term : Nat) (h : RxHdr) (s : State),
    let a := s.advance t
    let own := a.num (mPage .pod) Reg.POD_LEAD_TERM
    Delivered a h (.disc (.leadProbe term)) false → own ≤ term →
    Completes (.leadProbe t h term) s (fun u => u.fabric.pod = a.fabric.pod ∧ u.mem = a.mem ∧
      Tells a u 6 h.src (.disc (.probeAnswer own (a.fabric.pod.heartbeat.getD 0) a.leadSilent)))) ∧
  (∀ (t term last : Nat) (h : RxHdr) (none_ : Bool) (p : Probe) (s : State),
    let a := s.advance t
    let p' : Probe := { p with silent := if none_ then p.silent ++ [h.src] else p.silent }
    Delivered a h (.disc (.probeAnswer term last none_)) false → a.fabric.pod.probe = some p → h.src ∈ p.asked →
    h.src ∉ p.silent → p.silent.Nodup →
    Completes (.probeAnswer t h term last none_) s (fun u =>
      Took { a with fabric := { a.fabric with pod := { a.fabric.pod with probe := some p' } } } u h)) ∧
  (∀ (t : Nat) (p : Probe) (s : State),
    let a := s.advance t
    let pod := mPage .pod
    let wait := a.num pod Reg.POD_LEAD_TIMEOUT
    a.fabric.pod.probe = some p → p.since + wait ≤ a.podCount →
    (p.asked.length < 2 * p.silent.length → Still a → a.isStandby = true → a.fabric.pod.mendOpen = none →
      a.fabric.pod.unreachable = [] → (∀ d, d < 6 → ∃ q, q < 4 ∧ a.portUsable q d = true) →
      Completes (.probeWindowExpire t) s (fun u => u.isLead = true ∧ u.leadId = some a.selfId ∧ u.fabric.pod.probe = none ∧
        u.num pod Reg.POD_LEAD_TERM = (a.num pod Reg.POD_LEAD_TERM + 1) % 2 ^ 32 ∧ u.stepState = 0 ∧ u.mem = a.mem)) ∧
    (2 * p.silent.length ≤ p.asked.length →
      Completes (.probeWindowExpire t) s (fun u => u.isLead = a.isLead ∧ u.mem = a.mem ∧
        u.fabric.pod = { a.fabric.pod with probe := none, probeAt := a.podCount + wait } ∧
        u.num pod Reg.POD_LEAD_TERM = a.num pod Reg.POD_LEAD_TERM)))

/-- A report goes on to the parent; at the lead, a report of a module by fewer than its neighbours' majority is kept,
a holder is named by an answer, and an adopter by an answer that the lead remembers. An answer that names a holder
gives it to the first page asked for; one that names an adopter sets ADOPTER; a refusal ends the unpick. A query for
bucket states goes down and a leaf answers with its own; a child's states are merged, the lowest state of each bucket,
and go up; the lead asks for regeneration where a bucket is not complete. Regeneration goes down and is counted (both on
memory without errors). A
site's state goes down and is applied. (R244, R290, R442, R453, R454, R455, R462) -/
def Obligations.ReportsClimbAndTheLeadAnswers : Prop :=
  (∀ (t kind subject value : Nat) (h : RxHdr) (th : TreeHdr) (s : State),
    let a := s.advance t
    Heard a h th (.reportUp kind subject value) →
    (a.isLead = false → a.treeParent < 6 →
      Completes (.reportUp t h th kind subject value) s (fun u => Took a u h ∧
        Tells a u 7 (a.neigh a.treeParent) (.tree th (.reportUp kind subject value)))) ∧
    (a.isLead = true → kind = 4 → Completes (.reportUp t h th kind subject value) s (fun u => u.mem = a.mem ∧
        Tells a u 7 th.origin (.tree a.treeHdr (.leadAnswer 4 (a.holderFor th.origin).isNone subject ((a.holderFor th.origin).getD 0))))) ∧
    (a.isLead = true → kind = 5 → a.standbyId ≠ some subject →
      Completes (.reportUp t h th kind subject value) s (fun u => u.mem = a.mem ∧
        u.fabric.pod.adopting = (a.adopterFor subject).map (fun x => (subject, x)) ∧
        Tells a u 7 subject (.tree a.treeHdr (.leadAnswer 5 (a.adopterFor subject).isNone subject ((a.adopterFor subject).getD 0)))))) ∧
  (∀ (t kind subject answer : Nat) (refused : Bool) (h : RxHdr) (th : TreeHdr) (s : State),
    let a := s.advance t
    let boot := mPage .boot
    Heard a h th (.leadAnswer kind refused subject answer) →
    (∀ page rest m, kind = 4 → refused = false → a.train.asked = page :: rest → a.train.mends = [m] → m.page = page →
      m.holder = none → a.train.takeUp = none →
      Completes (.leadAnswer t h th kind refused subject answer) s (fun u =>
        Took { a with train := { a.train with asked := rest, mends := [{ m with holder := some answer }] } } u h)) ∧
    (∀ p, kind = 5 → a.boot.unpick = some p → p.done_ = false →
      (refused = false → Completes (.leadAnswer t h th kind refused subject answer) s (fun u => u.mem = a.mem ∧
        u.num boot Reg.BOOT_ADOPTER = answer % 2 ^ 18 + 2 ^ 31 ∧ u.boot.unpick = some { p with drained := false })) ∧
      (refused = true → Completes (.leadAnswer t h th kind refused subject answer) s (fun u => u.mem = a.mem ∧
        u.boot.unpick = none ∧ u.phase = 9)))) ∧
  (∀ (t : Nat) (h : RxHdr) (th : TreeHdr) (s : State),
    let a := s.advance t
    Heard a h th .bucketQuery → a.isLead = false → a.treeChildren = [] → a.treeParent < 6 →
    Completes (.bucketQuery t h th) s (fun u => u.train = { a.train with bucketKids := [] } ∧ u.mem = a.mem ∧
      Tells a u 7 (a.neigh a.treeParent) (.tree a.treeHdr (.bucketStateUp a.bucketStates)))) ∧
  (∀ (t : Nat) (h : RxHdr) (th : TreeHdr) (l : List BucketEntry) (s : State),
    let a := s.advance t
    let all := mergeBuckets a.bucketStates l
    let lost := a.field (mPage .fault) Reg.FAULT_LAST_LOST 0 18
    Heard a h th (.bucketStateUp l) → th.attempt = a.attempt → a.train.bucketKids = [] → a.heard [th.origin] = true → a.isChild th.origin = true →
    (a.isLead = false → a.treeParent < 6 → Completes (.bucketStateUp t h th l) s (fun u =>
      u.train.bucketKids = [(th.origin, l)] ∧ u.mem = a.mem ∧
      Tells a u 7 (a.neigh a.treeParent) (.tree a.treeHdr (.bucketStateUp all)))) ∧
    (a.isLead = true → (∃ e ∈ all, e.state < 2) → Clean a → Completes (.bucketStateUp t h th l) s (fun u => u.mem = a.mem ∧
      ∀ c ∈ a.treeChildren, Tells a u 7 (a.neigh c) (.tree a.treeHdr (.regen lost ((a.aliasOf lost).getD 0)))))) ∧
  (∀ (t lost adopter : Nat) (h : RxHdr) (th : TreeHdr) (s : State),
    let a := s.advance t
    let f := mPage .fault
    Heard a h th (.regen lost adopter) → Clean a → Completes (.regen t h th lost adopter) s (fun u =>
      u.num f Reg.FAULT_RECOVERIES = min 0xFFFFFFFF (a.num f Reg.FAULT_RECOVERIES + 1) ∧ u.mem = a.mem ∧
      (∃ r, u.frecs = (r :: a.frecs).take 16 ∧ r.kind = 0x0B ∧ r.subject = lost) ∧
      ∀ c ∈ a.treeChildren, Tells a u 7 (a.neigh c) (.tree th (.regen lost adopter)))) ∧
  (∀ (t site state mode round : Nat) (lagging : Bool) (h : RxHdr) (th : TreeHdr) (s : State),
    let a := s.advance t
    Heard a h th (.siteDown site state lagging mode round) → site < 8 → state < 8 → a.bit (mPage .mig) Reg.MIG_MIG_STS 0 = false →
    Completes (.siteDown t h th site state lagging mode round) s (fun u => u.siteState site = state ∧ u.mem = a.mem ∧
      (∀ i, i < 8 → i ≠ site → u.siteState i = a.siteState i) ∧
      ∀ c ∈ a.treeChildren, Tells a u 7 (a.neigh c) (.tree th (.siteDown site state lagging mode round))))

/-- A trained port comes up with full credits, and greets while the module discovers. Without a stored configuration,
a hello records the neighbour and its wiring; a starting module that meets a pod tacks, a module in a pod answers a
starting one. A new key is kept, and one of the best two is flooded on. After the quiet time the best key leads, the
second stands by, and each table goes to the lead, which keeps one of each module. At the deadline, tables that do not
fit end discovery with nothing written; tables that fit give the cut table, epoch 0 and a CONFIG to every module (with
no step and no collective open). A CONFIG sets the role, the rings and tree, and with valid counts the step counts. A
tack is passed to the lead, which refuses it or marks the chip a spare. A refusal parks; confirmed signatures restore
the stored configuration, others begin an election. (R234, R235, R245, R255, R257, R259, R260, R266, R439) -/
def Obligations.DiscoveryElectsALeadThatConfigures : Prop :=
  (∀ (t q d lanes : Nat) (s : State),
    let a := s.advance t
    let page := qPage .fport q d
    let narrow := lanes = 3 ∨ lanes = 12
    q < 4 → d < 6 → a.portUp q d = false → a.bit page Reg.FPORT_PORT_CTL 0 = true →
    (lanes = 15 ∨ (narrow ∧ a.bit page Reg.FPORT_PORT_CTL 3 = true ∧ a.field page Reg.FPORT_PORT_CTL 1 2 < 2)) →
    (a.fabric.pod.cut = [] ∨ a.physSize (d / 2) ≠ 1) →
    Completes (.linkTrained t q d lanes) s (fun u => u.portUp q d = true ∧ u.field page Reg.FPORT_PORT_STS 5 4 = lanes ∧
      (u.bit page Reg.FPORT_PORT_STS 1 = true ↔ narrow) ∧ (u.port q d).lastRx = a.now ∧ (u.port q d).owed = [] ∧ (u.port q d).txSeq = 0 ∧ (u.port q d).rxSeq = 0 ∧
      (∀ k, k < 24 → mapGet (fun _ => 0) (u.port q d).credits k = fullCredits (k / 3) (k % 3)) ∧
      (a.fabric.pod.stage ≠ .idle → a.strapErr = false → Says a u q d (.disc (.hello a.selfId q d (a.bit (mPage .pod) Reg.POD_POD_CTL 8) a.inPod
        (a.num (mPage .pod) Reg.POD_LEAD_TERM)))) ∧ u.mem = a.mem)) ∧
  (∀ (t id quarter direction term : Nat) (h : RxHdr) (spare inPod : Bool) (s : State),
    let a := s.advance t
    let pod := mPage .pod
    let starting := a.field (mPage .boot) Reg.BOOT_BOOT_STS 0 4 = 7 ∧ a.fabric.pod.tacking = false ∧ a.field pod Reg.POD_ROLE 2 2 = 3 ∧
      a.strapErr = false
    let page := qPage .fport h.q h.d
    Delivered a h (.disc (.hello id quarter direction spare inPod term)) true → h.q < 4 → h.d < 6 → a.fabric.pod.stored = none →
    Completes (.hello t h id quarter direction spare inPod term) s (fun u =>
      u.num page Reg.FPORT_NEIGH_ID = id % 2 ^ 18 + 2 ^ 18 * (quarter % 4) + 2 ^ 20 * (direction % 8) + 2 ^ 31 ∧
      u.bit page Reg.FPORT_PORT_STS 2 = !wired (a.physSize (h.d / 2)) a.selfId h.q h.d id quarter direction ∧
      (term < 2 ^ 32 → u.num pod Reg.POD_LEAD_TERM = max term (a.num pod Reg.POD_LEAD_TERM)) ∧ u.mem = a.mem ∧
      (inPod = true → starting → u.fabric.pod.tacking = true ∧ Says u u h.q h.d (.disc (.tack u.selfId u.topoSig))) ∧
      (inPod = false → a.inPod = true → Says u u h.q h.d (.disc (.hello u.selfId h.q h.d (u.bit pod Reg.POD_POD_CTL 8) true
        (u.num pod Reg.POD_LEAD_TERM)))))) ∧
  (∀ (t prio id : Nat) (h : RxHdr) (s : State),
    let a := s.advance t
    let p := a.fabric.pod
    let better := (p.keys.filter (fun k => decide (prio < k.1 ∨ (k.1 = prio ∧ k.2 < id)))).length
    Delivered a h (.disc (.candidate prio id)) true → prio ≠ 0 →
    (p.stage = .election → (prio, id) ∉ p.keys → Completes (.candidate t h prio id) s (fun u =>
      Took { a with fabric := { a.fabric with pod :=
        { p with keys := p.keys ++ [(prio, id)], keyAt := if better < 2 then a.podCount else p.keyAt } } } u h ∧
      (better < 2 → ∀ x ∈ a.upPorts, x ≠ (h.q, h.d) → Says a u x.1 x.2 (.disc (.candidate prio id))))) ∧
    (p.stage ≠ .election → (prio, id) ∉ p.early → p.early.Nodup → Completes (.candidate t h prio id) s (fun u =>
      Took { a with fabric := { a.fabric with pod := { p with early := p.early ++ [(prio, id)] } } } u h))) ∧
  (∀ (t : Nat) (s : State),
    let a := s.advance t
    let p := a.fabric.pod
    let pod := mPage .pod
    p.stage = .election → p.keyAt + a.num pod Reg.POD_ELECT_QUIET ≤ a.podCount → a.stageOver = true →
    (p.keys = [] → Completes (.electionClose t) s (fun u => u.fabric.pod = { p with stage := .idle } ∧
      u.reg pod Reg.POD_ROLE = a.reg pod Reg.POD_ROLE ∧ u.reg pod Reg.POD_LEAD_ID = a.reg pod Reg.POD_LEAD_ID)) ∧
    (∀ lead, lead ∈ p.keys → (∀ k ∈ p.keys, k ≠ lead → k.1 < lead.1 ∨ (k.1 = lead.1 ∧ lead.2 < k.2)) →
      Completes (.electionClose t) s (fun u =>
        u.reg pod Reg.POD_LEAD_ID = BitVec.ofNat 32 (lead.2 + 2 ^ 31) ∧ u.fabric.pod.stage = .tables ∧
        (p.keys = [lead] → u.num pod Reg.POD_STANDBY_ID = 0) ∧ (u.isLead = true ↔ lead.2 = a.selfId) ∧
        u.num64 pod Reg.POD_TOPO_SIG_LO Reg.POD_TOPO_SIG_HI = a.topoSig ∧
        (∀ k ∈ p.keys, k ≠ lead → (∀ j ∈ p.keys, j ≠ lead → j ≠ k → j.1 < k.1 ∨ (j.1 = k.1 ∧ k.2 < j.2)) →
          u.reg pod Reg.POD_STANDBY_ID = BitVec.ofNat 32 (k.2 + 2 ^ 31) ∧
          (lead.2 ≠ a.selfId → (u.isStandby = true ↔ k.2 = a.selfId))) ∧
        (lead.2 = a.selfId → u.fabric.pod.tables = [u.ownTable]) ∧
        (lead.2 ≠ a.selfId → Tells u u 6 lead.2
          (.disc (.neighTable u.ownTable.sender u.ownTable.spare u.ownTable.ids u.ownTable.sig)))))) ∧
  (∀ (t sender sig : Nat) (h : RxHdr) (spare : Bool) (ids : List Nat) (s : State),
    let a := s.advance t
    let p := a.fabric.pod
    let l := p.tables.filter (fun x => x.sender != sender) ++ [{ sender := sender, spare := spare, ids := ids, sig := sig }]
    Delivered a h (.disc (.neighTable sender spare ids sig)) false → a.isLead = true → p.stage = .tables →
    Completes (.neighTable t h sender spare ids sig) s (fun u =>
      Took { a with fabric := { a.fabric with pod := { p with tables := l } } } u h)) ∧
  (∀ (t : Nat) (s : State),
    let a := s.advance t
    let p := a.fabric.pod
    a.isLead = true → p.stage = .tables →
    (a.tablesFit p.tables = false → Completes (.neighTableDeadline t) s (fun u =>
      u.fabric = { a.fabric with pod := { p with stage := .idle } } ∧ u.journals = a.journals ∧ u.mem = a.mem)) ∧
    (a.tablesFit p.tables = true → Still a → p.setArmed = false → a.bit (mPage .pod) Reg.POD_POD_CTL 9 = false →
      (p.tables.map (·.sender)).Nodup →
      Completes (.neighTableDeadline t) s (fun u => u.fabric.pod.stage = .idle ∧ u.num (mPage .pod) Reg.POD_MEND_EPOCH = 0 ∧
        u.pod.rate = 0 ∧ u.pod.count64 = a.pod.count64 ∧ (∀ x ∈ p.tables, u.cutOf (x.sender % 2 ^ 15) = if x.spare then 1 else 0) ∧
        (∀ c, (∀ x ∈ p.tables, x.sender % 2 ^ 15 ≠ c) → u.cutOf c = 3) ∧
        ∀ x ∈ p.tables, x.sender ≠ a.selfId → Tells u u 6 x.sender (.disc (.config (u.configFor x.sender true)))))) ∧
  (∀ (t : Nat) (h : RxHdr) (c : ConfigRec) (s : State),
    let a := s.advance t
    let pod := mPage .pod
    let coll := mPage .coll
    Delivered a h (.disc (.config c)) false → a.obeys h.src = true → Still a →
    Completes (.config t h c) s (fun u => u.num pod Reg.POD_ROLE = c.role % 2 ^ 32 ∧
      u.reg pod Reg.POD_LEAD_ID = BitVec.ofNat 32 (h.src + 2 ^ 31) ∧ (c.role % 4 = 1 → u.standbyId = some a.selfId) ∧
      u.num coll Reg.COLL_SHAPE = c.shape % 2 ^ 32 ∧ u.num coll Reg.COLL_POS = c.pos % 2 ^ 32 ∧
      u.num coll Reg.COLL_TREE = c.tree % 2 ^ 32 ∧
      (∀ i, i < 6 → u.num coll (Reg.COLL_NEIGHi + 4 * i) = c.neigh.getD i 0 % 2 ^ 32) ∧ u.fabric.pod.stage = .idle ∧
      (∀ y, Apart y 1 (reservedBase + 0x402000) 64 → memGet u.mem y = memGet a.mem y) ∧
      (c.countsValid = true → u.attempt = c.attempt % 2 ^ 64 ∧ u.committed = c.committed % 2 ^ 64) ∧
      (c.countsValid = false → u.attempt = a.attempt ∧ u.committed = a.committed ∧ u.mem = a.mem))) ∧
  (∀ (t id sig : Nat) (h : RxHdr) (s : State),
    let a := s.advance t
    let chip := id % 2 ^ 15
    let fits := (∀ k, k < 3 → coord chip k < a.physSize k) ∧ 2 ≤ a.cutOf chip ∧ id / 2 ^ 15 = a.selfId / 2 ^ 15
    Delivered a h (.disc (.tack id sig)) false →
    (∀ lead, a.isLead = false → a.leadId = some lead →
      Completes (.tack t h id sig) s (fun u => Took a u h ∧ Tells a u 6 lead (.disc (.tack id sig)))) ∧
    (a.isLead = true → ¬ fits → Completes (.tack t h id sig) s (fun u => u.fabric.pod = a.fabric.pod ∧
      Tells a u 6 id (.disc (.tackReply true)))) ∧
    (a.isLead = true → fits → Still a → a.fabric.pod.following = false → Completes (.tack t h id sig) s (fun u => u.cutOf chip = 1 ∧ u.mem = a.mem ∧
      (∀ c, c ≠ chip → u.cutOf c = a.cutOf c) ∧ Tells u u 6 id (.disc (.tackReply false)) ∧
      Tells u u 6 id (.disc (.config (u.configFor id true)))))) ∧
  (∀ (t : Nat) (h : RxHdr) (refused : Bool) (s : State),
    let a := s.advance t
    Delivered a h (.disc (.tackReply refused)) false → a.fabric.pod.tacking = true →
    Completes (.tackReply t h refused) s (fun u => u.mem = a.mem ∧ u.fabric.pod =
      if refused then { a.fabric.pod with tacking := false, selfCut := true } else a.fabric.pod)) ∧
  (∀ (t sig : Nat) (h : RxHdr) (agree : Bool) (x : StoredPod) (s : State),
    let a := s.advance t
    let p := a.fabric.pod
    let leads := mapGet (fun _ => 0) x.pod Reg.POD_LEAD_ID % 2 ^ 18 = a.selfId
    let restored (u : State) : Prop := u.fabric.pod.stage = .idle ∧ u.fabric.pod.cut = x.cut ∧
      u.bit (mPage .boot) Reg.BOOT_SKIP_MASK 3 = true ∧ u.mem = a.mem
    Delivered a h (.disc (.topoConfirm sig agree)) false → p.stored = some x → p.stage = .confirm →
    (agree = false → Completes (.topoConfirm t h sig agree) s (fun u => u.fabric.pod.stage = .election ∧ u.mem = a.mem)) ∧
    (agree = true → ¬ leads → Completes (.topoConfirm t h sig agree) s restored) ∧
    (agree = true → leads → (∀ e ∈ p.confirms, e.2 = true) →
      (∀ e ∈ x.cut, e.2 < 2 → a.podId e.1 = h.src ∨ ∃ c ∈ p.confirms, c.1 = a.podId e.1) →
      Completes (.topoConfirm t h sig agree) s restored))

/-- A record of the next epoch, or one that follows a CONFIG, acts if the lead sends it; another is dropped. MARK sets the
cut table's
entry (of the table that is handed over after a CONFIG), fails open segments to a chip that is cut and shows it at its neighbours' ports; ALIAS sets or clears its
entry; ASSIGN makes its adopter active and asks for a holder of every layer; EPOCH_END sets MEND_EPOCH, puts a table handed over
into effect and stores the
configuration; CUT ends a module's assignment, and an unpick that waited for it. A report of an unreachable module is
kept until more than half of its neighbours report it; then, and at once where it reports itself, the lead cuts it and
gives its position to the nearest spare (with no step and no collective open). Unpick copies its regions once its
adopter is named, and with every copy made and every attempt shipped asks for its cut. (R246, R261, R262, R264, R441,
R442, R443, R450, R453, R455) -/
def Obligations.MendsCutMarkAliasAndAssign : Prop :=
  (∀ (t epoch : Nat) (h : RxHdr) (r : MendRec) (s : State),
    let a := s.advance t
    let pod := mPage .pod
    let p := a.fabric.pod
    let acts : Prop := (p.following = true ∨ epoch = a.num pod Reg.POD_MEND_EPOCH + 1) ∧
      (a.leadId = some h.src ∨ (h.src = a.selfId ∧ a.isLead = true))
    let chip := r.subject % 2 ^ 15
    let from_ := Reg.POD_ALIASn_FROM + 8 * (r.value % 256)
    let dest := Reg.POD_ALIASn_TO + 8 * (r.value % 256)
    let page (q d : Nat) : Page := qPage .fport q d
    let cutIn (l : List (Nat × Nat)) (c : Nat) : Nat := mapGet (fun _ => 3) l c
    Delivered a h (.mend epoch [r]) false →
    (r.rtype = 2 → r.value < 4 → acts → Completes (.markCut t h epoch [r]) s (fun u =>
      (p.following = false → ∀ c, u.cutOf c = if c = chip then r.value else a.cutOf c) ∧
      (p.following = true → u.fabric.pod.cut = p.cut ∧
        ∀ c, cutIn u.fabric.pod.incoming c = if c = chip then r.value else cutIn p.incoming c) ∧ (r.value = 2 → ∀ g ∈ u.fabric.segs, g.chip = some chip → g.answer.isSome = true) ∧
      (∀ q d, q < 4 → d < 6 → a.bit (page q d) Reg.FPORT_NEIGH_ID 31 = true →
        a.field (page q d) Reg.FPORT_NEIGH_ID 0 18 = r.subject % 2 ^ 18 →
        u.bit (page q d) Reg.FPORT_PORT_STS 4 = decide (r.value = 2)) ∧ u.mem = a.mem)) ∧
    (r.rtype = 2 → ¬ acts → Completes (.markCut t h epoch [r]) s (fun u => Took a u h)) ∧
    (r.rtype = 3 → acts → Completes (.aliasChip t h epoch [r]) s (fun u => u.fabric.pod = p ∧ u.mem = a.mem ∧
      u.num pod from_ = (if bitAt r.flags 0 then 0 else r.subject % 2 ^ 18 + 2 ^ 31) ∧
      u.num pod dest = (if bitAt r.flags 0 then 0 else r.other % 2 ^ 18) ∧
      ∀ n, n < 256 → n ≠ r.value % 256 → u.reg pod (Reg.POD_ALIASn_FROM + 8 * n) = a.reg pod (Reg.POD_ALIASn_FROM + 8 * n) ∧
        u.reg pod (Reg.POD_ALIASn_TO + 8 * n) = a.reg pod (Reg.POD_ALIASn_TO + 8 * n))) ∧
    (r.rtype = 4 → acts → a.isLead = false → r.other = a.selfId →
      let l := (List.range a.layerCount).map (fun i =>
        ({ index := i, layer := (a.layerEntry i).2.2, holder := none, digest := none } : LayerCopy))
      Completes (.assignSpare t h epoch [r]) s (fun u => u.field pod Reg.POD_ROLE 2 2 = 0 ∧ u.mem = a.mem ∧
        u.field pod Reg.POD_ROLE 0 2 = a.field pod Reg.POD_ROLE 0 2 ∧
        u.train = { a.train with
          takeUp := some { lost := r.subject, since := a.podCount, attempt := a.attempt, layers := l }
          asked := a.train.asked ++ l.map (fun c => ((a.layerEntry c.index).1 - 0x10000000000) / 0x10000) })) ∧
    (r.rtype = 7 → acts → Still a → Completes (.epochEnd t h epoch [r]) s (fun u =>
      u.num pod Reg.POD_MEND_EPOCH = epoch % 2 ^ 32 ∧ u.fabric.pod.following = false ∧ u.fabric.pod.stored.isSome = true ∧
      u.fabric.pod.cut = (if p.following then p.incoming else p.cut) ∧ u.mem = a.mem)) ∧
    (r.rtype = 1 → acts → r.subject = a.selfId →
      (a.boot.unpick = none → Completes (.cutSelf t h epoch [r]) s (fun u => u.field pod Reg.POD_ROLE 2 2 = 2 ∧
        u.fabric.pod = { p with selfCut := true } ∧ u.mem = a.mem)) ∧
      (∀ x, a.boot.unpick = some x → x.done_ = true → a.boot.warmAfter = false → a.power.state ≤ 3 → a.power.state ≠ 0 →
        Completes (.cutSelf t h epoch [r]) s (fun u => u.boot.unpick = none ∧ u.power.state = 4 ∧ u.mem = a.mem)))) ∧
  (∀ (t epoch spare n : Nat) (h : RxHdr) (r : MendRec) (s : State),
    let a := s.advance t
    let pod := mPage .pod
    let p := a.fabric.pod
    let e := a.num pod Reg.POD_MEND_EPOCH + 1
    let lost := r.subject
    let chip := lost % 2 ^ 15
    let near := ((List.range 6).map (fun d => stepIn a.physSize chip d)).eraseDups.filter (fun c =>
      c != chip && decide (a.cutOf c < 2))
    let said := (p.unreachable ++ [(lost, h.src)]).eraseDups
    let seen := near.filter (fun c => said.contains (lost, a.podId c))
    let mended (u : State) : Prop := u.cutOf chip = 2 ∧ u.num (mPage .fault) Reg.FAULT_LAST_LOST = lost + 2 ^ 31 ∧
      u.num pod Reg.POD_MEND_EPOCH = e % 2 ^ 32 ∧ u.mem = a.mem ∧ (a.cutOf chip = 0 →
        u.cutOf (spare % 2 ^ 15) = 0 ∧ u.num pod (Reg.POD_ALIASn_FROM + 8 * n) = lost + 2 ^ 31 ∧
        u.num pod (Reg.POD_ALIASn_TO + 8 * n) = spare ∧
        Tells u u 6 spare (.mend e [{ rtype := 4, flags := 0, subject := lost, other := spare, value := 0 }]))
    let ready : Prop := Still a ∧ a.leadId = some a.selfId ∧ lost ≠ a.selfId ∧ lost / 2 ^ 15 = a.selfId / 2 ^ 15 ∧ a.cutOf chip < 2 ∧
      p.adopting = none ∧ a.nearestSpare lost = some spare ∧ spare ≠ a.selfId ∧ a.aliasSlot lost = some n ∧
      a.bit pod (Reg.POD_ALIASn_FROM + 8 * n) 31 = false ∧ p.following = false
    Delivered a h (.mend epoch [r]) false → a.isLead = true →
    (r.rtype = 6 → ready → Completes (.lostSelf t h epoch [r]) s mended) ∧
    (r.rtype = 5 → (∀ x ∈ p.unreachable, x.1 = lost) →
      (near.length < 2 * seen.length → ready → Completes (.unreachable t h epoch [r]) s mended) ∧
      (2 * seen.length ≤ near.length → Completes (.unreachable t h epoch [r]) s (fun u =>
        Took { a with fabric := { a.fabric with pod := { p with unreachable := said } } } u h)))) ∧
  (∀ (t : Nat) (x : Unpick) (s : State),
    let a := s.advance t
    let boot := mPage .boot
    let mine := a.fabric.segs.filter (fun g => g.n == unpickQueue)
    a.boot.unpick = some x → x.asked = true →
    (x.drained = false → a.bit boot Reg.BOOT_ADOPTER 31 = true → (a.stepState = 0 ∨ a.stepState = 4 ∨ a.stepState = 7) → Clean a →
      a.train.ueLines = [] → Completes (.unpickDrainDone t []) s (fun u => u.boot.unpick = some { x with drained := true } ∧
        u.mem = a.mem ∧ u.fabric.segs.length = a.fabric.segs.length + (x.regions.flatMap regionParts).length)) ∧
    (x.drained = true → x.done_ = false → (∀ g ∈ mine, (g.answered a.now).isSome = true) →
      (a.allShipped = true → (∀ g ∈ mine, g.answer.map Prod.fst = some 0) → a.isLead = false → a.treeParent < 6 →
        Completes (.unpickTransferDone t) s (fun u => u.boot.unpick = some { x with done_ := true } ∧ u.mem = a.mem ∧
          Tells a u 7 (a.neigh a.treeParent) (.tree a.treeHdr (.reportUp 6 a.selfId 0)))) ∧
      ((∃ g ∈ mine, g.answer.map Prod.fst ≠ some 0) →
        Completes (.unpickTransferDone t) s (fun u => u.boot.unpick = some { x with drained := false } ∧ u.mem = a.mem))))

/-- A request at a trained stack waits with a slot that it can reach, after every earlier one of its line; a
stack that is not trained, or in self-refresh, leaves it waiting. It is accepted one lead before its slot and counted;
a write that a lease holds is not, and takes a new slot once none does. At its path's end a read leaves memory as it
was and a write stores its bytes alone. A finished copy is marked. Refresh keeps its group's banks busy. A rinse slot
poisons a codeword that is still uncorrectable, else stores a waiting line as it is delivered, else, where it is on,
patrols one line in each way. A press slot counts its moves; the first pin that fails moves to its group's spare, a
second leaves the group degraded. A stack that leaves its self-refresh limits loses RETAIN_OK. Accesses that end are
stated on memory without errors, rinse with banks free. (R99, R158, R211, R212, R213, R214, R215, R224, R226, R227, R228, R387, R388, R391) -/
def Obligations.StacksScheduleServeAndRepair : Prop :=
  (∀ (t pq port addr : Nat) (isWrite : Bool) (bytes : List (Nat × Byte)) (p : StackPlace) (s : State),
    let a := s.advance t
    let x := a.stack p.quarter p.slot
    let old := (x.forget a.mclk).reqs
    let ro := routeOf pq port p
    let new : MemReq := { addr := addr / 64 * 64, port := port, lead := ro.lead, isWrite := isWrite, write := bytes,
                          merge := isMerge bytes,
                          path := if isWrite then (if isMerge bytes then ro.merge else ro.write) else ro.read,
                          slot := 0, way := 0, arrived := a.mclk }
    stackPlace addr = some p →
    (x.trained = true → x.sref = false → Completes (.memRequest t pq port addr isWrite bytes) s (fun u => u.mem = a.mem ∧
      ∃ slot way, (u.stack p.quarter p.slot).reqs = old ++ [{ new with slot := slot, way := way }] ∧
        a.mclk + ro.back + ro.lead ≤ slot ∧ ∀ o ∈ old, o.addr = new.addr → o.slot < slot)) ∧
    (x.trained = false ∨ x.sref = true → Completes (.memRequest t pq port addr isWrite bytes) s (fun u =>
      u = a.setStack p.quarter p.slot { x with waiting := x.waiting ++ [new] }))) ∧
  (∀ (t pq port addr : Nat) (isWrite : Bool) (bytes : List (Nat × Byte)) (s : State),
    let a := s.advance t
    let q := (addr - 0x20000000000) / 0x10000000
    stackPlace addr = none →
    (0x20000000000 ≤ addr → addr < 0x20040000000 → Completes (.memRequest t pq port addr isWrite bytes) s (fun u =>
      (a.pulses = [] → u.bit (qPage .fold q 0) Reg.HDR_EVT_STS 2 = true) ∧ u.mem = a.mem)) ∧
    (addr < 0x20000000000 ∨ 0x20040000000 ≤ addr → Completes (.memRequest t pq port addr isWrite bytes) s (fun u => u = a))) ∧
  (∀ (t addr : Nat) (p : StackPlace) (r : MemReq) (s : State),
    let a := s.advance t
    let x := a.stack p.quarter p.slot
    let page := qPage .nmem p.quarter p.slot
    let sent := r.slot - r.lead
    let accepts (P : State → Prop) : Prop := Completes (.memAccept t addr) s P
    stackPlace addr = some p → x.reqs = [r] → r.addr = addr / 64 * 64 → r.own = false → r.sent = none →
    r.slot ≤ a.mclk + r.lead →
    (a.keptBack r = false → r.kept = none → accepts (fun u =>
      u.stack p.quarter p.slot = { x with reqs := [{ r with sent := some sent }] } ∧ u.mem = a.mem ∧
      u.num page Reg.NMEM_ACCEPTED = min 0xFFFFFFFF (a.num page Reg.NMEM_ACCEPTED + 1) ∧
      u.num page Reg.NMEM_SLOT_WAIT = min 0xFFFFFFFF (a.num page Reg.NMEM_SLOT_WAIT + (sent - r.arrived)))) ∧
    (a.keptBack r = false → r.kept ≠ none → sent < a.mclk → accepts (fun u => u.mem = a.mem ∧
      u.num page Reg.NMEM_ACCEPTED = min 0xFFFFFFFF (a.num page Reg.NMEM_ACCEPTED + 1) ∧
      ∃ slot way, a.mclk + r.lead ≤ slot ∧
        (u.stack p.quarter p.slot).reqs = [{ r with slot := slot, way := way, sent := some (slot - r.lead) }])) ∧
    (r.isWrite = true → r.done_ = false → a.leaseCovers r.addr 64 = true → accepts (fun u =>
      u = a.setStack p.quarter p.slot { x with reqs := [{ r with kept := some (r.kept.getD a.podCount) }] }))) ∧
  (∀ (t addr at_ : Nat) (p : StackPlace) (r : MemReq) (s : State),
    let a := s.advance t
    let x := a.stack p.quarter p.slot
    let line := addr / 64 * 64
    stackPlace addr = some p → x.reqs = [r] → r.addr = line → r.own = false → r.sent = some at_ → at_ + r.path ≤ a.mclk →
    a.ecc = [] → (∀ e ∈ a.stackUnits, e.2.writeBacks = []) → a.train.ueLines = [] →
    Completes (.memAccessComplete t addr []) s (fun u => (u.stack p.quarter p.slot).reqs = [] ∧ u.regs = a.regs ∧
      r.slot + r.hold ≤ mapGet (fun _ => 0) (u.stack p.quarter p.slot).busy (64 * p.pc + p.bank) ∧
      (r.isWrite = false ∨ r.done_ = true → u.mem = a.mem) ∧
      (r.isWrite = true → r.done_ = false → (∀ w ∈ r.write, w.1 < 64) → (r.write.map Prod.fst).Nodup →
        (∀ w ∈ r.write, memGet u.mem (line + w.1) = w.2) ∧
        ∀ y, (∀ w ∈ r.write, y ≠ line + w.1) → memGet u.mem y = memGet a.mem y))) ∧
  (∀ (t q slot : Nat) (r : Repair) (s : State),
    let a := s.advance t
    let x := a.stack q slot
    x.repairs = [r] → r.copied = false → r.lines = 16 → Completes (.repairCopyDone t q slot) s (fun u =>
      u.stack q slot = { x with repairs := [{ r with copied := true }] } ∧ u.mem = a.mem)) ∧
  (∀ (t q slot pc : Nat) (s : State),
    let a := s.advance t
    let x := a.stack q slot
    let n := a.mclk - x.trainedAt
    let per := stackBanks slot / 8
    let first := 64 * pc + per * (n / 64 % 8)
    let busy (y : Stack) (k : Nat) : Nat := mapGet (fun _ => 0) y.busy k
    x.trained = true → x.sref = false → n % 64 = 0 → Completes (.refreshSlot t q slot pc) s (fun u =>
      (∀ i, i < per → busy (u.stack q slot) (first + i) = max (busy x (first + i)) (a.mclk + 20)) ∧
      (∀ k, (k < first ∨ first + per ≤ k) → busy (u.stack q slot) k = busy x k) ∧
      (u.stack q slot).reqs = x.reqs ∧ u.mem = a.mem ∧ u.regs = a.regs)) ∧
  (∀ (t q slot pc c l : Nat) (pl : StackPlace) (s : State),
    let a := s.advance t
    let x := a.stack q slot
    let n := a.mclk - x.trainedAt
    let bg := qPage .bgnd q 0
    let on := a.bit bg Reg.BGND_RINSE_CTL 1
    let rinses (P : State → Prop) : Prop := Completes (.rinseSlot t q slot pc []) s P
    x.trained = true → x.sref = false → n % 64 = 32 → n / 64 % 16 ≠ 15 → a.train.ueLines = [] → x.busy = [] → x.reqs = [] →
    x.repairs = [] →
    (x.rewrites = [c] → x.writeBacks = [] → on = false → stackPlace (16 * c) = some pl → pl.pc = pc →
      rinses (fun u => (u.stack q slot).rewrites = [] ∧ (a.check c = .uncorrectable → u.eccAt c = poisonMark) ∧
        (∀ k, (k ≠ c ∨ a.check c ≠ .uncorrectable) → u.eccAt k = a.eccAt k) ∧ u.mem = a.mem)) ∧
    (x.rewrites = [] → x.writeBacks = [l] → on = false → stackPlace l = some pl → pl.pc = pc →
      let fixed (k : Nat) : Prop := l / 16 ≤ k ∧ k < l / 16 + 4 ∧ ∃ j e, a.check k = .fix j e
      rinses (fun u => (u.stack q slot).writeBacks = [] ∧
        (∀ k, fixed k → u.eccAt k = 0 ∧ memBytes u.mem (16 * k) 16 = a.codeword k) ∧
        (∀ k, ¬ fixed k → u.eccAt k = a.eccAt k ∧ memBytes u.mem (16 * k) 16 = memBytes a.mem (16 * k) 16))) ∧
    (x.rewrites = [] → x.writeBacks = [] → on = true → n / 64 % 2 ^ a.field bg Reg.BGND_RINSE_CTL 6 4 = 0 → a.ecc = [] →
      q < 4 → slot < 8 → pc < 8 →
      let k := mapGet (fun _ => 0) x.patrol pc
      k + stackWays slot < stackBanks slot * stackLines slot →
      rinses (fun u => mapGet (fun _ => 0) (u.stack q slot).patrol pc = k + stackWays slot ∧ u.mem = a.mem ∧ u.ecc = []))) ∧
  (∀ (t q slot pc grp moves : Nat) (margins : List Nat) (s : State),
    let a := s.advance t
    let x := a.stack q slot
    let n := a.mclk - x.trainedAt
    let bg := qPage .bgnd q 0
    let hits (j : Nat) : List Nat := (mapGet (fun _ => []) x.pinHits ((6 * pc + grp) * 36 + j)).filter (fun h => a.now < h + 3600000000)
    let low (j : Nat) : Prop := ∃ m, margins[j]? = some m ∧ m < a.field bg Reg.BGND_MARGIN_LIMIT 0 8
    let fails (j : Nat) : Prop := (low j ∧ ∀ l, x.lane pc grp = some l → l.pin ≠ j) ∨ 64 ≤ (hits j).length
    let auto := a.bit (qPage .nmem q slot) Reg.NMEM_MEM_CTL 1
    let presses (P : State → Prop) : Prop := Completes (.pressSlot t q slot pc grp moves margins) s P
    q < 4 → slot < 8 → x.trained = true → x.sref = false → n % 64 = 32 → n / 64 % 16 = 15 →
    presses (fun u => u.mem = a.mem ∧ (u.stack q slot).reqs = x.reqs ∧ (a.bit bg Reg.BGND_PRESS_CTL 0 = true →
      u.num bg Reg.BGND_PRESS_ADJ = min 0xFFFFFFFF (a.num bg Reg.BGND_PRESS_ADJ + moves))) ∧
    (∀ j, fails j → j < max 36 margins.length → (∀ i, i < j → ¬ fails i) → auto = true →
      (x.lane pc grp = none → presses (fun u => (u.stack q slot).lane pc grp = some { pin := j } ∧
        (a.pulses = [] → u.bit (qPage .nmem q slot) Reg.HDR_EVT_STS 6 = true))) ∧
      (∀ l, x.lane pc grp = some l → l.degraded = false → presses (fun u =>
        (u.stack q slot).lane pc grp = some { l with degraded := true } ∧ u.bit (mPage .fault) Reg.FAULT_ADVISE 0 = true))) ∧
    ((∀ j, j < max 36 margins.length → ¬ fails j) ∨ auto = false → presses (fun u => u.stack q slot = x))) ∧
  (∀ (t q d : Nat) (s : State),
    let a := s.advance t
    (a.stack q (6 + d)).sref = true → Completes (.retainBreak t q d) s (fun u =>
      u.stack q (6 + d) = { a.stack q (6 + d) with retainOk := false } ∧ u.mem = a.mem ∧ u.regs = a.regs))

/-- The loss of the reference that a quarter tracks switches it to the other where that is qualified, else it holds
over. A qualified reference ends holdover; a quarter that reverts returns to its preferred one after 10 s. A root that
loses lock fails every island of its quarter, which is lost. An island stops 256 ACLK, and runs 720 ACLK, after its
command, and no other island changes. A flit received badly is counted, and its sixteenth resend takes the seam down;
an idle flit brings the elastic buffer one closer to its depth. (R223, R313, R314, R315, R320, R325, R339, R345, R392,
R450, R468) -/
def Obligations.ClocksIslandsAndSeamsFollowTheirEvents : Prop :=
  (∀ (t q r : Nat) (s : State),
    let a := s.advance t
    let c := mPage .clkdir
    let holds (u : State) : Bool := u.bit c (pllReg q) 4
    q < 4 → r < 2 →
    (a.refOk q r = true → Completes (.refLost t q r) s (fun u => u.refOk q r = false ∧ u.refOk q (1 - r) = a.refOk q (1 - r) ∧
      (a.tracking q = r → holds a = false → a.refOk q (1 - r) = true → u.tracking q = 1 - r ∧ holds u = false) ∧
      (a.tracking q = r → holds a = false → a.refOk q (1 - r) = false → u.tracking q = r ∧ holds u = true) ∧
      (a.tracking q ≠ r → u.tracking q = a.tracking q ∧ holds u = holds a) ∧ u.clk = a.clk)) ∧
    (a.refOk q r = false → Completes (.refQualified t q r) s (fun u => u.refOk q r = true ∧ holds u = false ∧
      u.tracking q = (if holds a then r else a.tracking q))) ∧
    (a.bit c (Reg.CLKDIR_QREF_CTLq + 4 * q) 1 = true → a.refOk q (a.preferred q) = true → a.tracking q ≠ a.preferred q →
      mapGet (fun _ => 0) a.clk.refSince (2 * q + a.preferred q) + 36000000000 ≤ a.now →
      Completes (.refRevert t q) s (fun u => u.tracking q = a.preferred q ∧ u.clk = a.clk))) ∧
  (∀ (t q : Nat) (s : State),
    let a := s.advance t
    let c := mPage .clkdir
    q < 4 → a.bit c (pllReg q) 0 = true → q ∉ a.cores.lostQuarters → Completes (.pllFail t q) s (fun u =>
      u.bit c (pllReg q) 0 = false ∧ u.bit c (pllReg q) 5 = true ∧ (∀ i, i < 110 → u.island q i = 6) ∧
      (∀ p i, p ≠ q → i < 128 → u.island p i = a.island p i) ∧ u.bit (mPage .modid) Reg.MODID_QUARTERS q = false ∧
      u.fabric.pod.selfCut = true ∧ u.mem = a.mem)) ∧
  (∀ (t : Nat) (c : ClkCmd) (s : State),
    let a := s.advance t
    let ends (dest : Nat) (u : State) : Prop := u.island c.quarter c.island = dest ∧ u.clk.cmds = [] ∧
      u.bit (mPage .clkdir) Reg.CLKDIR_CMD_STS 0 = false ∧ u.mem = a.mem ∧
      ∀ p i, (p, i) ≠ (c.quarter, c.island) → i < 128 → u.island p i = a.island p i
    a.clk.cmds = [c] → c.island < 128 →
    (c.stop = true → c.since + 256 ≤ a.now → a.island c.quarter c.island = 2 → Completes (.islandStopped t) s (ends 3)) ∧
    (c.stop = true → a.now < c.since + 256 → Completes (.islandStopped t) s (fun u => u = a)) ∧
    (c.stop = false → c.since + 720 ≤ a.now → a.island c.quarter c.island = 4 → a.clk.held = [] → a.clk.stalled = [] →
      a.train.ueLines = [] → Completes (.islandRun t) s (ends 0))) ∧
  (∀ (t i : Nat) (bad : Bool) (s : State),
    let a := s.advance t
    let f := mPage .fault
    let n := (a.seam i).resends
    i < 6 → a.bit f Reg.FAULT_SEAM_STS i = false →
    (bad = false → Completes (.seamFlitReceive t i bad) s (fun u => u.seam i = { a.seam i with resends := 0 } ∧ u.regs = a.regs)) ∧
    (bad = true → Completes (.seamFlitReceive t i bad) s (fun u => u.seam i = { a.seam i with resends := n + 1 } ∧
      u.num f Reg.FAULT_SEAM_RETRIES = min 0xFFFFFFFF (a.num f Reg.FAULT_SEAM_RETRIES + 1) ∧
      u.bit f Reg.FAULT_SEAM_STS i = decide (16 ≤ n + 1) ∧ u.mem = a.mem))) ∧
  (∀ (t i : Nat) (depth : Int) (s : State),
    let a := s.advance t
    i < 6 → Completes (.seamIdleFlit t i depth) s (fun u => (u.seam i).depth.natAbs = depth.natAbs - 1 ∧
      (0 ≤ (u.seam i).depth ∧ 0 ≤ depth ∨ (u.seam i).depth ≤ 0 ∧ depth ≤ 0) ∧ (u.seam i).resends = (a.seam i).resends ∧
      (∀ j, j ≠ i → u.seam j = a.seam j) ∧ u.regs = a.regs))

/-- The mirror programs the waiting entries once 128 wait, the oldest is 1 ms old, or the module shuts down. A good
program advances FLASH_SEQ and retires the entries that it covers, a bad one is repeated. A write held for 1 ms is
refused with CODE 1 and is not performed; one for which there is room again is performed, here of a plain register,
and journalled. A tile, an engine's descriptor or a hart over its time fails its triad, or makes the module report
itself, or resets the hart; a second expiry in an attempt reports too. Q0 beats every 100 µs; without a beat for 2 ms
Q1 takes over and sessions end, and where Q1's core does not run the module reports itself. (R371, R376, R377, R378,
R450, R458, R459, R466, R470, R472) -/
def Obligations.JournalsMirrorAndWatchdogsReport : Prop :=
  (∀ (t q : Nat) (s : State),
    let a := s.advance t
    let j := a.journal q
    let due : Prop := 128 ≤ j.waiting.length ∨ ∃ e l, j.waiting = e :: l ∧ (e.time + 900000 ≤ a.podCount ∨ a.power.state = 4)
    q < 4 → j.program = none →
    (due → Completes (.journalFlashProgram t q) s (fun u =>
      u = a.setJournal q { j with program := some { entries := j.waiting.take 128, started := a.now } })) ∧
    (¬ due → Completes (.journalFlashProgram t q) s (fun u => u = a))) ∧
  (∀ (t q : Nat) (p : FlashProgram) (e : JEntry) (l : List JEntry) (s : State),
    let a := s.advance t
    let j := a.journal q
    j.program = some p → p.entries = l ++ [e] →
    (a.journalRingOn q = false → j.flash.length + p.entries.length ≤ 16777216 →
      Completes (.journalFlashDone t q true) s (fun u => u.mem = a.mem ∧ u.regs = a.regs ∧
        u.journal q = { j with program := none, flashSeq := some e.seq, flash := j.flash ++ p.entries,
                               ring := j.ring.dropWhile (fun x => decide (x.seq ≤ e.seq)) })) ∧
    Completes (.journalFlashDone t q false) s (fun u => u.mem = a.mem ∧
      u.journal q = { j with program := some { p with started := a.now } })) ∧
  (∀ (t q : Nat) (x : RegAccess) (s : State),
    let a := s.advance t
    let j := a.journal q
    let page := qPage .jrnl q 0
    q < 4 → j.held = [x] → a.journalOf x.page = q → a.clk.stalled = [] → a.train.ueLines = [] →
    (x.byLead = false → x.since + 900000 ≤ a.podCount → j.ring.length < 65536 →
      Completes (.journalHoldTimeout t q) s (fun u => (u.journal q).held = [] ∧ u.mem = a.mem ∧
        u.num page Reg.JRNL_REFUSED = min 0xFFFFFFFF (a.num page Reg.JRNL_REFUSED + 1) ∧
        ∃ e, (u.journal q).ring = j.ring ++ [e] ∧ e.code = 1 ∧ e.held = true ∧ e.origin = x.origin ∧ e.page = x.page ∧
          e.off = x.off ∧ e.new = e.old)) ∧
    (∀ k r v, a.journalRoom x = true → x.narrow = false → x.write = some v → x.page.kind = some k →
      k ∈ [.rng, .bgnd, .tally, .hk, .exp, .opt, .evq, .jrnl, .fold] → 0x100 ≤ x.off → x.page.specAt x.off = some r → r.rw ≠ 0 →
      rangeOk k x.off v.toNat = true → Completes (.journalHoldRelease t q) s (fun u => (u.journal q).held = [] ∧ u.mem = a.mem ∧
        u.reg x.page x.off = (a.reg x.page x.off &&& ~~~(BitVec.ofNat 32 r.rw)) ||| (v &&& BitVec.ofNat 32 r.rw) ∧
        ∃ e, (u.journal q).ring = j.ring ++ [e] ∧ e.code = 0 ∧ e.origin = x.origin ∧ e.page = x.page ∧ e.off = x.off))) ∧
  (∀ (t q p i : Nat) (x : Tile) (l : List Tile) (s : State),
    let a := s.advance t
    (a.array q p i).tiles = x :: l → a.wdogOn = true → q < 4 → p < 32 → i < 3 → a.failedTriad q p = false →
    x.at_ + 4 * a.num (mPage .fault) Reg.FAULT_TILE_WDOG ≤ a.now →
    Completes (.tileWatchdog t q p i) s (fun u => u.failedTriad q p = true ∧
      ∃ r ∈ u.frecs, r.kind = 1 ∧ r.quarter = q ∧ r.unit = p ∧ r.time = a.podCount)) ∧
  (∀ (t q n paused : Nat) (w : WinEntry) (s : State),
    let a := s.advance t
    let x := a.queue q n
    x.window = [w] → w.status = .running → a.wdogOn = true → (engineOf n).isSome = true → x.halt = none →
    a.accounted q n w = false →
    (w.startedAt + paused + 4 * a.num (mPage .fault) Reg.FAULT_ENG_WDOG ≤ a.now →
      Completes (.engineWatchdog t q n paused) s (fun u => u.fabric.pod.selfCut = true ∧ u.mem = a.mem ∧ u.queue q n = x ∧
        ∃ r ∈ u.frecs, r.kind = 2 ∧ r.quarter = q ∧ r.unit = n)) ∧
    (a.now < w.startedAt + paused + 4 * a.num (mPage .fault) Reg.FAULT_ENG_WDOG →
      Completes (.engineWatchdog t q n paused) s (fun u => u = a))) ∧
  (∀ (t : Nat) (s : State),
    let a := s.advance t
    a.service = 0 → a.island 0 108 ≤ 1 → a.cores.beatAt + 360000 ≤ a.now →
    Completes (.serviceHeartbeatTimer t) s (fun u => u = { a with cores := { a.cores with beatAt := a.now } })) ∧
  (∀ (t : Nat) (failed : Bool) (s : State),
    let a := s.advance t
    a.service = 0 → a.island 1 108 ≤ 1 → (failed = true ∨ a.cores.beatAt + 7200000 ≤ a.now) →
    (a.bit (mPage .modid) Reg.MODID_SVC 2 = true → a.clk.held = [] → a.clk.stalled = [] → a.train.ueLines = [] →
      Completes (.serviceFailover t failed) s (fun u => u.service = 1 ∧ u.sec.sessions = [] ∧ u.events.telemetry = [] ∧
        u.events.trace = [] ∧ u.bit (mPage .fault) Reg.FAULT_SVC_STS 0 = false ∧ u.mem = a.mem ∧
        ∃ r ∈ u.frecs, r.kind = 5 ∧ r.subject = a.selfId)) ∧
    (a.bit (mPage .modid) Reg.MODID_SVC 2 = false →
      Completes (.serviceFailover t failed) s (fun u => u.service = 0 ∧ u.fabric.pod.selfCut = true ∧ u.mem = a.mem))) ∧
  (∀ (t q i : Nat) (s : State),
    let a := s.advance t
    let page := qPage .cp q i
    let x := a.hart q i
    q < 4 → i < 4 → a.num page Reg.CP_CP_WDOG ≠ 0 → a.bit page Reg.CP_CP_CTL 0 = true → a.hartHeld q i = false →
    a.island q 109 ≤ 1 →
    (x.kicked + 4 * a.num page Reg.CP_CP_WDOG ≤ a.now → Completes (.cpWatchdog t q i) s (fun u =>
      u.hart q i = { x with expired := some a.attempt, kicked := a.now } ∧ u.bit page Reg.CP_CP_STS 3 = true ∧
      u.bit page Reg.CP_CP_STS 2 = false ∧ u.mem = a.mem ∧ (x.expired = some a.attempt → u.fabric.pod.selfCut = true) ∧
      (x.expired ≠ some a.attempt → u.fabric = a.fabric))) ∧
    (a.now < x.kicked + 4 * a.num page Reg.CP_CP_WDOG → Completes (.cpWatchdog t q i) s (fun u => u = a)) ∧
    Completes (.cpWatchdogKick t q i) s (fun u => u.hart q i = { x with kicked := a.now } ∧ u.regs = a.regs ∧
      u.journals = a.journals ∧ u.mem = a.mem))

/-- A header is written to its place and its OWD noted; one whose data do not match is counted bad; a good one is held
and advances the site's ROUND, one older than the held one is dropped. At the deadline the round's set is taken. A
sample moves SRTT by an eighth of the difference, and the third outlier in a row moves it to the median. Keep-alives
and repeats go out every 100 ms. A packet is contact; a site without contact for the separation time is reported to
the lead. A failed queue pair is reset by both ends, which send their recent slots. Records of sites pass up to the
lead, which rejoins a separated site and links a joining one. A Sync sets the offset and its second the mapping; 4 s
without one invalidates. Data are stated on memory without errors. (R271, R272, R280, R281, R283, R289, R290, R291,
R294, R295) -/
def Obligations.SitesShareRoundsAndTime : Prop :=
  (∀ (t ptp : Nat) (h : ShardHeader) (s : State),
    let a := s.advance t
    let m := mPage .mig
    let b := (a.writeBytes (a.headerAddr h.quarter h.site h.round) (headerBytes h))
    let good : Prop := b.slotCrc h.quarter h.site h.round h.nemit h.sel = h.crc
    let place (x : Shard) : Bool := x.q == h.quarter && x.site == h.site && x.round % 8 == h.round % 8
    let arrives (P : State → Prop) : Prop := Completes (.shardHeaderArrive t h ptp []) s P
    h.quarter < 4 → h.site < 8 → Clean a → a.writeWaits (a.headerAddr h.quarter h.site h.round) 64 = false →
    a.isLead = false → a.bit m Reg.MIG_MIG_STS 0 = false → a.readyNow = false → h.round < 2 ^ 32 →
    arrives (fun u => memBytes u.mem (a.headerAddr h.quarter h.site h.round) 64 = headerBytes h ∧
      (∀ y, Apart y 1 (a.headerAddr h.quarter h.site h.round) 64 → memGet u.mem y = memGet a.mem y) ∧
      u.reg m (Reg.MIG_SITEs_OWD + 16 * h.site) = BitVec.ofInt 32 ((ptp : Int) - h.ptpTx)) ∧
    (¬ good → arrives (fun u => u.num m Reg.MIG_BAD = min 0xFFFFFFFF (a.num m Reg.MIG_BAD + 1) ∧ u.mig.held = a.mig.held)) ∧
    (good → a.mig.joinFrom = none → (∀ x ∈ a.mig.held, place x = false) →
      arrives (fun u => u.num m (Reg.MIG_SITEs_ROUND + 16 * h.site) = max (a.num m (Reg.MIG_SITEs_ROUND + 16 * h.site)) h.round ∧
        u.mig.held = a.mig.held ++ [{ q := h.quarter, site := h.site, round := h.round, catchup := h.catchup }])) ∧
    (∀ x, good → a.mig.held = [x] → place x = true → h.round < x.round → arrives (fun u =>
      u.mig.held = [x] ∧ u.num m Reg.MIG_DROPPED = min 0xFFFFFFFF (a.num m Reg.MIG_DROPPED + 1)))) ∧
  (∀ (t : Nat) (s : State),
    let a := s.advance t
    let m := mPage .mig
    a.bit m Reg.MIG_MIG_STS 0 = true → a.bit m Reg.MIG_MIG_STS 4 = false → a.stepState ≠ 4 → a.mig.openAt.isSome = true →
    (a.mig.deadline ≤ a.podCount → Completes (.roundDeadline t) s (fun u => u.bit m Reg.MIG_MIG_STS 4 = true ∧ u.mem = a.mem ∧
      u.mig.readyRound = some a.roundNumber ∧ ∀ q, q < 4 → u.counter q 4091 = min 0xFFFFFFFF (a.counter q 4091 + 1))) ∧
    (a.podCount < a.mig.deadline → Completes (.roundDeadline t) s (fun u => u = a))) ∧
  (∀ (t site sample : Nat) (s : State),
    let a := s.advance t
    let m := mPage .mig
    let reg := Reg.MIG_SITEs_SRTT + 16 * site
    let x := a.num m reg
    let out : Prop := 2 * sample < x ∨ 2 * x < sample
    let run := mapGet (fun _ => []) a.mig.odd site
    site < 8 → run.length ≤ 2 →
    ((¬ out ∨ run.length < 2) → Completes (.rttSample t site sample) s (fun u =>
      u.reg m reg = BitVec.ofInt 32 ((x : Int) + ((sample : Int) - x) / 8) ∧ u.mem = a.mem ∧
      (out → mapGet (fun _ => []) u.mig.odd site = run ++ [sample]) ∧ (¬ out → mapGet (fun _ => []) u.mig.odd site = []))) ∧
    (∀ y z, out → run = [y, z] → Completes (.rttSample t site sample) s (fun u =>
      u.reg m reg = BitVec.ofNat 32 (median3 y z sample) ∧ mapGet (fun _ => []) u.mig.odd site = [] ∧ u.mem = a.mem ∧
      u.num m Reg.MIG_RTT_JUMPS = min 0xFFFFFFFF (a.num m Reg.MIG_RTT_JUMPS + 1)))) ∧
  (∀ (t : Nat) (s : State),
    let a := s.advance t
    (a.mig.keepAt + 90000000 ≤ a.podCount → a.field (mPage .pod) Reg.POD_ROLE 2 2 = 0 →
      Completes (.migKeepaliveTimer t) s (fun u => u.out = a.out ++ a.otherSites.map (fun i => .dgram (a.dgramTo 1 i a.dgramPort 0)) ∧
        u = { a with mig := { a.mig with keepAt := a.podCount }, outAt := u.outAt, out := u.out })) ∧
    (a.mig.repeats ≠ [] → a.mig.repeatAt + 90000000 ≤ a.podCount → Completes (.migDatagramRepeat t) s (fun u =>
      u.out = a.out ++ a.mig.repeats.map (fun d => .dgram (a.dgramTo d.kind d.dest d.q d.qpn)) ∧
      u = { a with mig := { a.mig with repeatAt := a.podCount }, outAt := u.outAt, out := u.out }))) ∧
  (∀ (t site : Nat) (s : State),
    let a := s.advance t
    site < 8 →
    (a.siteState site = 2 → site ≠ a.ownSite → site ∉ a.mig.told →
      mapGet (fun _ => 0) a.mig.contact site + a.separation ≤ a.podCount → a.isLead = false → a.treeParent < 6 →
      Completes (.siteContactTimeout t site) s (fun u => u.mig = { a.mig with told := a.mig.told ++ [site] } ∧
        Tells a u 7 (a.neigh a.treeParent) (.tree a.treeHdr (.reportUp 2 a.selfId site)))) ∧
    ∀ h : DgramHdr, h.site = site → Completes (.keepalive t h) s (fun u =>
      mapGet (fun _ => 0) u.mig.contact site = a.podCount ∧ mapGet (fun _ => 0) u.mig.commons site = h.common ∧
      site ∉ u.mig.told ∧ u.mem = a.mem ∧ u.regs = a.regs)) ∧
  (∀ (t q site : Nat) (s : State),
    let a := s.advance t
    let k := a.num (mPage .mig) Reg.MIG_ROUND
    let n := min k (a.field (mPage .mig) Reg.MIG_STALE_MAX 0 3)
    let slots : Out := .slots q site ((List.range (n + 1)).map (fun i => k - n + i)) false
    q < 4 → site < 8 →
    (site ≠ a.ownSite → site ∈ a.otherSites → Completes (.migQpError t q site) s (fun u => u.mem = a.mem ∧
      u.migQp q site = {} ∧
      u.out = a.out ++ [.dgram (a.dgramTo 2 site q (0x100000 + 16 * site + q)), slots] ∧
      a.dgramTo 2 site q (0x100000 + 16 * site + q) ∈ u.mig.repeats)) ∧
    (∀ (i : Nat) (h : DgramHdr), i < 16 → h.site = site → a.isLead = false →
      Completes (.resetQp t h (0x100000 + 16 * i + q)) s (fun u => u.out = a.out ++ [slots] ∧ u.migQp q site = {} ∧ u.mem = a.mem))) ∧
  (∀ (t sites side : Nat) (h : DgramHdr) (s : State),
    let a := s.advance t
    let m := mPage .mig
    let k := a.num m Reg.MIG_ROUND
    let mode := if k = h.common then 0 else if k ≤ h.common + a.field m Reg.MIG_DIV_ROUNDS 0 3 then 1 else 2
    let state := if mode = 0 then 2 else 4
    h.site < 8 →
    (a.isLead = false → a.treeParent < 6 →
      Completes (.siteState t h sites side) s (fun u => u.mem = a.mem ∧ u.regs = a.regs ∧ u.out = a.out ∧
        Tells a u 7 (a.neigh a.treeParent) (.tree a.treeHdr (.siteUp 3 h sites side))) ∧
      Completes (.joinAnnounce t h) s (fun u => u.mem = a.mem ∧ u.regs = a.regs ∧ u.out = a.out ∧
        Tells a u 7 (a.neigh a.treeParent) (.tree a.treeHdr (.siteUp 4 h 0 0)))) ∧
    (a.isLead = true → a.siteState h.site = 3 → a.bit m Reg.MIG_MIG_STS 0 = false → sites = 2 ^ h.site →
      side = 1 → 1 < (a.ownSite :: a.linkedSites).length → h.common ≤ k → h.site ≠ a.ownSite →
      Completes (.siteState t h sites side) s (fun u => u.siteState h.site = state ∧ u.mem = a.mem ∧
        ∀ c ∈ a.treeChildren, Tells a u 7 (a.neigh c) (.tree a.treeHdr (.siteDown h.site state (decide (mode ≠ 0)) mode k)))) ∧
    (a.isLead = true → a.siteState h.site ≠ 2 → Completes (.joinAnnounce t h) s (fun u => h.site ∈ u.mig.joiners ∧
      u.mem = a.mem ∧ u.regs = a.regs ∧ .dgram (a.dgramTo 3 h.site a.dgramPort 0) ∈ u.out))) ∧
  (∀ (t seconds : Nat) (offset : Int) (s : State),
    let a := s.advance t
    let m := mPage .mig
    let near : Bool := decide (-1000 ≤ offset ∧ offset ≤ 1000)
    a.bit m Reg.MIG_PTP_CTL 0 = true →
    Completes (.ptpSync t (a.field m Reg.MIG_PTP_CTL 8 8) offset) s (fun u => u.reg m Reg.MIG_PTP_OFFSET = BitVec.ofInt 32 offset ∧
      u.bit m Reg.MIG_PTP_STS 0 = near ∧ u.mig = { a.mig with lastSync := some a.podCount } ∧ u.mem = a.mem) ∧
    Completes (.ptpSecond t seconds) s (fun u => u.num64 m Reg.MIG_MAP_PT_LO Reg.MIG_MAP_PT_HI = a.podCount % 2 ^ 64 ∧
      u.num64 m Reg.MIG_MAP_SEC_LO Reg.MIG_MAP_SEC_HI = seconds % 2 ^ 48 ∧ u.mig = a.mig ∧ u.mem = a.mem) ∧
    (∀ x, a.mig.lastSync = some x → x + 3600000000 ≤ a.podCount → Completes (.ptpSyncTimeout t) s (fun u =>
      u.bit m Reg.MIG_PTP_STS 0 = false ∧ u.mig = { a.mig with lastSync := none } ∧ u.mem = a.mem)))

/-- A request with the expected PSN on a queue pair that may make it, with nothing waiting and memory without errors:
a write stores its bytes and is acknowledged, one under a lease waits, one that is not allowed is NAKed, counted, and
stores nothing; a duplicate write is acknowledged and stores nothing; a read returns the bytes; an addition adds to 8
bytes and returns the old ones; a read of a word returns the register's value; a write of a word follows the rule of a
plain register; a doorbell's TAIL write follows the rule of TAIL, and one with reserved bits or no queue is refused. A
queue pair in error is counted and torn down. The sideband reads a register of the PWR page, and its write is
journalled. (R158, R299, R300, R303, R304, R305, R306, R307, R424) -/
def Obligations.HostRequestsReachMemoryAndRegisters : Prop :=
  (∀ (t port i psn rkey addr : Nat) (bytes : List Byte) (x : HostQp) (s : State),
    let a := s.advance t
    let n := bytes.length
    let h := mPage .host
    let writes (P : State → Prop) : Prop := Completes (.hostMemWrite t port i psn rkey addr bytes false) s P
    let allowed : Prop := rkey = memKey ∧ x.mayMem true = true ∧ memReach addr n = true
    (InTurn a port i psn x → Clean a → allowed → a.writeWaits addr n = false → writes (fun u =>
      memBytes u.mem addr n = bytes ∧ (∀ y, Apart y 1 addr n → memGet u.mem y = memGet a.mem y) ∧ Answered a u port i psn n x .ack)) ∧
    (InTurn a port i psn x → allowed → a.writeWaits addr n = true → writes (fun u => u.mem = a.mem ∧ u.out = a.out ∧
      ∃ w, u.leases.writes = [w] ∧ w.addr = addr ∧ w.bytes = bytes.map (fun b => (b, false)) ∧ w.reply = some (.host port i))) ∧
    (InTurn a port i psn x → ¬ allowed → writes (fun u => u.mem = a.mem ∧ Answered a u port i psn n x .nakAccess ∧
      u.num h Reg.HOST_ACC_ERR = min 0xFFFFFFFF (a.num h Reg.HOST_ACC_ERR + 1))) ∧
    (Calm a → port < 4 → i < 16 → a.hostQp (qpKey port i) = some x → 2 ^ 23 ≤ (psn + 2 ^ 24 - x.psn) % 2 ^ 24 → writes (fun u =>
      u = { a with outAt := u.outAt, out := a.out ++ [.hostReply (qpKey port i) psn .ack] }))) ∧
  (∀ (t port i psn addr len : Nat) (x : HostQp) (s : State),
    let a := s.advance t
    InTurn a port i psn x → Clean a → x.mayMem false = true →
    (memReach addr len = true → Completes (.hostMemRead t port i psn memKey addr len false []) s (fun u => u.mem = a.mem ∧
      Answered a u port i psn len x (.data ((memBytes a.mem addr len).map (fun b => (b, false)))))) ∧
    (∀ v, memReach addr 8 = true → addr % 8 = 0 → a.writeWaits addr 8 = false → x.mayMem true = true →
      Completes (.hostFetchAdd t port i psn memKey addr v false []) s (fun u =>
        memBytes u.mem addr 8 = leBytes 8 (leNat (memBytes a.mem addr 8) + v) ∧
        (∀ y, Apart y 1 addr 8 → memGet u.mem y = memGet a.mem y) ∧
        Answered a u port i psn 8 x (.data ((memBytes a.mem addr 8).map (fun b => (b, false))))))) ∧
  (∀ (t port i psn addr : Nat) (bytes : List Byte) (x : HostQp) (k : PageKind) (r : RegSpec) (s : State),
    let a := s.advance t
    let p := addrPage addr
    let off := addr % 4096
    let v := BitVec.ofNat 32 (leNat bytes)
    let b := a.setHostQp (qpKey port i) { x with psn := (psn + x.packets 4) % 2 ^ 24 }
    InTurn a port i psn x →
    (x.mayReg addr 4 false = true → a.reachable p = true → Completes (.hostRegRead t port i psn regKey addr 4 false) s (fun u =>
      u.mem = a.mem ∧ Answered a u port i psn 4 x (.data ((leBytes 4 (b.readReg p off).2.toNat).map (fun b => (b, false)))))) ∧
    (x.mayReg addr 4 true = true → bytes.length = 4 → Granted a (.host port i) p off → p.kind = some k →
      k ∈ [.rng, .bgnd, .tally, .hk, .exp, .opt, .evq, .jrnl, .fold] → 0x100 ≤ off → p.specAt off = some r → r.rw ≠ 0 →
      rangeOk k off v.toNat = true → Completes (.hostRegWrite t port i psn regKey addr bytes false) s (fun u => u.mem = a.mem ∧
        u.reg p off = (a.reg p off &&& ~~~(BitVec.ofNat 32 r.rw)) ||| (v &&& BitVec.ofNat 32 r.rw) ∧
        Answered a u port i psn 4 x .ack))) ∧
  (∀ (t port i psn addr : Nat) (imm : Word) (x : HostQp) (s : State),
    let a := s.advance t
    let v := imm.toNat
    let q := bitsOf v 30 2
    let n := bitsOf v 22 8
    let y := a.queue q n
    let occ := (v % 65536 + 65536 - y.head) % 65536
    let p := qPage .qring q (n / 128)
    InTurn a port i psn x → x.role = 0 → x.recovery = false → addr ≤ windowBase → Granted a (.host port i) p (ringSlotReg n 4) →
    Completes (.hostDoorbell t port i psn memKey addr [] imm false) s (fun u => u.mem = a.mem ∧ Answered a u port i psn 0 x .ack ∧
      (bitsOf v 16 6 = 0 → queueExists n = true →
        u.queue q n = (if y.hasRing ∧ y.occupancy ≤ occ ∧ occ ≤ 2 ^ y.log2 then { y with tail := v % 65536 } else y)) ∧
      (bitsOf v 16 6 ≠ 0 ∨ queueExists n = false → u.compute = a.compute ∧
        ∃ e, (u.journal q).ring = (a.journal q).ring ++ [e] ∧ e.code = 2 ∧ e.doorbell = true))) ∧
  (∀ (t port i : Nat) (x : HostQp) (s : State),
    let a := s.advance t
    let h := mPage .host
    Calm a → port < 4 → i < 16 → a.hostQp (qpKey port i) = some x → Completes (.hostQpError t port i) s (fun u =>
      u.hostQp (qpKey port i) = none ∧ u.num h Reg.HOST_QP_ERR = min 0xFFFFFFFF (a.num h Reg.HOST_QP_ERR + 1) ∧
      .cmGone (qpKey port i) ∈ u.out ∧ (∀ y ∈ u.sec.sessions, y.qp ≠ qpKey port i) ∧ u.mem = a.mem)) ∧
  (∀ (t : Nat) (v : Word) (s : State),
    let a := s.advance t
    let p := mPage .pwr
    let off := a.power.regAddr
    Calm a → a.clk.got = [] → a.power.aon = true → a.power.pending = false →
    (a.busUp = true → Completes (.smbRegRead t) s (fun u => u.mem = a.mem ∧ u.out = a.out ++ [.smb (leBytes 4 (a.readReg p off).2.toNat)])) ∧
    (a.busUp = true → (a.journal a.service).ring.length < 61440 → off ≠ Reg.PWR_PWR_CMD → Completes (.smbRegWrite t v true) s (fun u =>
      u.out = a.out ++ [.smbAck] ∧ u.power.pending = false ∧ u.mem = a.mem ∧ ∃ e, (u.journal a.service).ring = (a.journal a.service).ring ++ [e] ∧
        e.origin = .sideband ∧ e.page = p ∧ e.off = off)) ∧
    (a.busUp = true → Completes (.smbRegWrite t v false) s (fun u => u.out = a.out ++ [.smbNak] ∧ u.journals = a.journals ∧ u.power = a.power)) ∧
    (a.busUp = false → Completes (.smbRegRead t) s (fun u => u = { a with outAt := u.outAt, out := a.out ++ [.smbNak] })))

/-- A port whose link is up accepts a request to connect by role and session with the lowest free number, and rejects
others; it answers IDENTIFY and solicitations for its addresses, takes its prefix and IPv4 address, and pauses the
priorities that QOS_PFC sets; a port that goes down pauses none. A CNP raises α and cuts the rate, never below 1 Gb/s,
and is sent for a marked packet; 55 µs without one decay α and raise the rate to at most 200 Gb/s. A ring writes its
waiting record where it fits and then PROD, else notes that it is full; an acknowledged PROD retires journal entries;
a full ring reads CONS again; a failed queue pair downs its ring. (R269, R297, R298, R299, R301, R302, R308, R309,
R310, R311, R312, R376) -/
def Obligations.PortsConnectAnswerAndFeedRings : Prop :=
  (∀ (t port role session mtu psn peer timeout retries rnr : Nat) (zero : Bool) (s : State),
    let a := s.advance t
    let tries (P : State → Prop) : Prop := Completes (.cmConnectRequest t port role session mtu psn peer timeout retries rnr zero) s P
    let valid : Prop := a.bit (mPage .host) Reg.HOST_HOST_CTL 0 = true ∧ role ≤ 3 ∧ zero = true ∧ (mtu = 1024 ∨ mtu = 2048 ∨ mtu = 4096)
    a.sitePortUp port = true →
    (∀ i, valid → (a.roleOk role session).1 = true → i < 16 → a.hostQp (qpKey port i) = none →
      (∀ j, j < i → (a.hostQp (qpKey port j)).isSome = true) → tries (fun u => ∃ x, u.hostQp (qpKey port i) = some x ∧
        x.role = role ∧ x.session = session ∧ x.peer = peer ∧ x.mtu = mtu ∧ x.psn = psn % 2 ^ 24 ∧
        x.recovery = (a.roleOk role session).2 ∧
        u = { a with host := u.host, outAt := u.outAt, out := a.out ++ [.cmAccept port (0x100 + qpKey port i)] } ∧
        u.host = { a.host with qps := a.host.qps ++ [(qpKey port i, x)] })) ∧
    (valid → (a.roleOk role session).1 = false → tries (fun u => u = { a with outAt := u.outAt, out := a.out ++ [.cmReject port 28] })) ∧
    (¬ valid → tries (fun u => (∃ r, u.out = a.out ++ [.cmReject port r]) ∧ u.host = a.host ∧ u.regs = a.regs))) ∧
  (∀ (t port i : Nat) (x : HostQp) (s : State),
    let a := s.advance t
    Calm a → i < 16 → port < 4 → a.hostQp (qpKey port i) = some x → Completes (.cmDisconnectRequest t port i) s (fun u =>
      u.hostQp (qpKey port i) = none ∧ .cmGone (qpKey port i) ∈ u.out ∧ (∀ y ∈ u.sec.sessions, y.qp ≠ qpKey port i) ∧ u.mem = a.mem)) ∧
  (∀ (t port nonce addr prefix_ mask : Nat) (v4 : Bool) (s : State),
    let a := s.advance t
    let h := mPage .host
    a.sitePortUp port = true →
    Completes (.identify t port 1 nonce) s (fun u => u = { a with outAt := u.outAt, out := a.out ++ [.identify port (a.identifyBytes nonce)] }) ∧
    (addr ∈ a.addresses port v4 → Completes (.neighborSolicit t port addr v4) s (fun u =>
      u = { a with outAt := u.outAt, out := a.out ++ [.neighbor port addr (a.mac port)] })) ∧
    Completes (.routerAdvertisement t port prefix_) s (fun u => u = { a with regs := u.regs, cycle := u.cycle } ∧
      u.num64 h (Reg.HOST_HPFX_Sq_LO + 8 * port) (Reg.HOST_HPFX_Sq_HI + 8 * port) = prefix_ % 2 ^ 64) ∧
    (a.bit h Reg.HOST_HOST_CTL 1 = true → Completes (.dhcpv4Reply t port addr) s (fun u => u = { a with regs := u.regs, cycle := u.cycle } ∧
      u.num h (Reg.HOST_IPV4_Sq + 4 * port) = addr % 2 ^ 32)) ∧
    Completes (.pfcPauseFrame t port mask) s (fun u => u = { a with host := u.host } ∧ (∀ p, p < 6 →
      u.priorityPaused port p = (bitAt mask p && a.bit h Reg.HOST_QOS_PFC p)) ∧ u.priorityPaused port 6 = false)) ∧
  (∀ (t port : Nat) (s : State),
    let a := s.advance t
    port < 4 →
    (a.island port 95 ≤ 1 → Completes (.sitePortLinkUp t port) s (fun u => u.sitePortUp port = true ∧ u = { a with regs := u.regs, cycle := u.cycle })) ∧
    Completes (.sitePortLinkDown t port) s (fun u => u.sitePortUp port = false ∧ (∀ p, u.priorityPaused port p = false) ∧
      (∀ q, q < 4 → q ≠ port → u.sitePortUp q = a.sitePortUp q) ∧ u.mem = a.mem)) ∧
  (∀ (t port i : Nat) (ce : Bool) (x : HostQp) (s : State),
    let a := s.advance t
    let h := mPage .host
    let k := qpKey port i
    port < 4 → i < 16 → a.hostQp k = some x → a.bit h Reg.HOST_ECN_CTL 0 = true →
    (x.role ≠ 1 → Completes (.cnpReceive t port i false ce) s (fun u => ∃ y, u.hostQp k = some y ∧
      y.alpha.m * 32 * 2 ^ x.alpha.e = (16 * x.alpha.m + 2 ^ x.alpha.e) * 2 ^ y.alpha.e ∧
      y.rate.m * 2 ^ (x.rate.e + y.alpha.e + 1) =
        max (x.rate.m * (2 ^ (y.alpha.e + 1) - y.alpha.m)) (2 ^ (x.rate.e + y.alpha.e + 1)) * 2 ^ y.rate.e ∧
      y.cutAt = a.now ∧ y.decayAt = a.now ∧ y.psn = x.psn ∧ u.mem = a.mem ∧
      (ce = true → a.bit h Reg.HOST_ECN_CTL 1 = true → x.cnpAt = none → u.out = a.out ++ [.cnp k]) ∧ (ce = false → u.out = a.out))) ∧
    (x.decayAt + 198000 ≤ a.now → Completes (.ecnRateTimer t port i) s (fun u =>
      ∃ y, u.hostQp k = some y ∧ y.alpha.m * 32 * 2 ^ x.alpha.e = 31 * x.alpha.m * 2 ^ y.alpha.e ∧
      y.rate.m * 2 ^ x.rate.e = min (200 * 2 ^ x.rate.e) (x.rate.m + 5 * 2 ^ x.rate.e) * 2 ^ y.rate.e ∧ y.decayAt = a.now ∧
      u = { a with host := u.host }))) ∧
  (∀ (t n k : Nat) (al : Alarm) (s : State),
    let a := s.advance t
    let r := a.ring n
    let size := 2 ^ bitsOf (a.ringCfg n) 0 5
    n < 8 → a.ringOn n = true → a.ringIsDown n = false → a.ringQp n = some k →
    (bitsOf (a.ringCfg n) 5 3 = 0 → a.events.alarms = [al] → a.priorityPaused (k / 16) 5 = false →
      (r.prod + 32 ≤ r.cons + size → r.prod % size + 32 ≤ size → Completes (.eventRecordSend t n) s (fun u =>
        u.events.alarms = [] ∧ (u.ring n).prod = r.prod + 32 ∧ u.mem = a.mem ∧
        u.out = a.out ++ [.hostWrite k (a.ringBase n + 64 + r.prod % size) (a.ringKey n) al.bytes,
          .hostWrite k (a.ringBase n) (a.ringKey n) (leBytes 8 (r.prod + 32))])) ∧
      (r.cons + size < r.prod + 32 → Completes (.eventRecordSend t n) s (fun u =>
        u.events = a.events ∧ u.out = a.out ∧ u.ring n = { r with full := true }))) ∧
    (∀ c, r.rereading = true → Completes (.eventConsReread t n (some c)) s (fun u =>
      u.ring n = { r with cons := c, readAt := some a.now, rereading := false } ∧ u = { a with host := u.host })) ∧
    (r.full = true → r.rereading = false → r.readAt = none → Completes (.eventConsReread t n none) s (fun u =>
      u.ring n = { r with rereading := true } ∧ u.out = a.out ++ [.hostRead k (a.ringBase n + 8) (a.ringKey n) 8])) ∧
    Completes (.eventQpDown t n) s (fun u => u.ringIsDown n = true ∧ u.ring n = { r with rereading := false } ∧ u.mem = a.mem ∧
      u.out = a.out)) ∧
  (∀ (t n q prod seq : Nat) (x : RingRec) (s : State),
    let a := s.advance t
    let j := a.journal q
    let r := a.ring n
    n < 8 → a.ringOn n = true → bitsOf (a.ringCfg n) 5 3 = 1 → bitsOf (a.ringCfg n) 8 2 = q → r.unacked = [(x, prod)] →
    r.acked < prod → prod = r.prod → x.seq = some seq → Completes (.eventProdAck t n prod) s (fun u =>
      u.ring n = { r with acked := prod, unacked := [] } ∧ u.mem = a.mem ∧ (u.journal q).hostSeq = some seq ∧
      (u.journal q).ring = j.ring.dropWhile (fun e => seqDone j.flashSeq e.seq && decide (e.seq ≤ seq))))

/-- On an established MGMT queue pair a request of version 1.3 whose negotiation has come far enough is answered with
its response code, its body a free value (log entry 2); one too early is an error. A key exchange begins one of at
most four sessions, FINISH opens it or ends it with SPDM_FAILS, a heartbeat renews it, and its end or 10 s without a
heartbeat removes it. In an open session CLAIM of an authenticated requester sets OWNED and OWNER_DIG and extends MR6,
unless another owns the module; an owner's RELEASE, with nothing waiting, tears down every queue pair and clears
OWNED; a report carries its nonce, owner and measurements; a good image becomes PENDING in the second bank; floors
rise up to the running SVN. A module in recovery takes images from any session and answers none of CLAIM, RELEASE and
FW_RAISE_FLOOR (log entry 146). (R301, R475, R476, R479, R480, R482, R483, R484, R485, R486, R488) -/
def Obligations.SpdmSessionsOwnAndUpdateTheModule : Prop :=
  (∀ (t port i ver slot offset length index : Nat) (offered signed : Bool) (nonce request : List Byte) (s : State),
    let a := s.advance t
    let k := qpKey port i
    let answers (c : Instr) (need code : Nat) (about : List Byte) : Prop :=
      (need ≤ a.vcaOf k → Completes c s (fun u => u.out = a.out ++ [.spdm k code (Config.spdmBody code about)] ∧ u.regs = a.regs ∧
        u.mem = a.mem ∧ u.sec = { a.sec with vca := u.sec.vca } ∧ u.vcaOf k = (if code = 0x84 then 1 else if code = 0xE1 then 2
          else if code = 0xE3 then 3 else a.vcaOf k))) ∧
      (a.vcaOf k < need → Completes c s (fun u => u = { a with outAt := u.outAt, out := a.out ++ [.spdmError k 0x04] }))
    a.mgmtQp port i = true →
    answers (.spdmGetVersion t port i) 0 0x84 [] ∧ answers (.spdmGetCapabilities t port i 0x13) 1 0xE1 [] ∧
    (offered = true → answers (.spdmNegotiateAlgorithms t port i 0x13 offered) 2 0xE3 []) ∧
    answers (.spdmGetDigests t port i 0x13) 3 0x81 (digestBytes (Config.sha384 (chainBytes a.sec.fused))) ∧
    (slot = 0 → answers (.spdmGetCertificate t port i 0x13 slot offset length) 3 0x82
        (leBytes 2 offset ++ leBytes 2 length ++ ((chainBytes a.sec.chain).drop offset).take length) ∧
      answers (.spdmChallenge t port i 0x13 slot nonce) 3 0x83 nonce) ∧
    ((index ≤ 7 ∨ index = 0xFF) → answers (.spdmGetMeasurements t port i 0x13 index signed nonce) 3 0xE0
      (leBytes 1 index ++ leBytes 1 (if signed then 1 else 0) ++ nonce ++ a.measurements index)) ∧
    (ver ≠ 0x13 → Completes (.spdmGetDigests t port i ver) s (fun u => u = { a with outAt := u.outAt, out := a.out ++ [.spdmError k 0x41] })) ∧
    (3 ≤ a.vcaOf k → slot = 0 → a.sec.sessions.length < 4 → Completes (.spdmKeyExchange t port i 0x13 slot request) s (fun u =>
      u.sec.sessions = a.sec.sessions ++ [{ id := a.sec.nextSession, qp := k, beatAt := a.now }] ∧ u.regs = a.regs ∧
      u.out = a.out ++ [.spdm k 0xE4 (Config.spdmBody 0xE4 (leBytes 4 a.sec.nextSession ++ request))])) ∧
    (3 ≤ a.vcaOf k → slot = 0 → 4 ≤ a.sec.sessions.length → Completes (.spdmKeyExchange t port i 0x13 slot request) s (fun u =>
      u = { a with outAt := u.outAt, out := a.out ++ [.spdmError k 0x0A] }))) ∧
  (∀ (t op : Nat) (leaf : Option (BitVec 384)) (x : Session) (s : State),
    let a := s.advance t
    let n := x.id
    let p := mPage .sec
    a.sec.sessions = [x] →
    (x.open_ = false →
      Completes (.spdmFinish t n leaf true) s (fun u => u.sec.sessions = [{ x with open_ := true, owner := leaf, beatAt := a.now }] ∧
        u.regs = a.regs) ∧
      Completes (.spdmFinish t n leaf false) s (fun u => u.sec.sessions = [] ∧ .spdmError x.qp 0x06 ∈ u.out ∧
        u.num p Reg.SEC_SPDM_FAILS = min 0xFFFFFFFF (a.num p Reg.SEC_SPDM_FAILS + 1))) ∧
    (x.open_ = true →
      Completes (.spdmHeartbeat t n) s (fun u => u.sec.sessions = [{ x with beatAt := a.now }] ∧ u.regs = a.regs) ∧
      Completes (.spdmKeyUpdate t n op) s (fun u => u = { a with outAt := u.outAt, out := u.out } ∧
        u.out = a.out ++ [.spdm x.qp 0xE9 (Config.spdmBody 0xE9 (leBytes 4 n ++ leBytes 1 op))]) ∧
      Completes (.spdmEndSession t n) s (fun u => u.sec.sessions = [] ∧ u.regs = a.regs) ∧
      (x.beatAt + 36000000000 ≤ a.now → Completes (.spdmHeartbeatTimeout t n) s (fun u => u.sec.sessions = [] ∧ u.regs = a.regs)) ∧
      (a.now < x.beatAt + 36000000000 → Completes (.spdmHeartbeatTimeout t n) s (fun u => u = a)))) ∧
  (∀ (t nonce : Nat) (x : Session) (y : HostQp) (s : State),
    let a := s.advance t
    let n := x.id
    let free (d : BitVec 384) : Prop := a.owned = false ∨ a.ownerDig = d
    a.session n = some x → x.open_ = true → (a.recovering = true → Completes (.claimOwner t n) s (fun u => u = a) ∧
      (a.train.ueLines = [] → Completes (.releaseOwner t n) s (fun u => u = a))) ∧
    (∀ d, x.owner = some d → free d → a.recovering = false → a.sec.mrs.length = 7 → Completes (.claimOwner t n) s (fun u => u.owned = true ∧ u.ownerDig = d ∧
      u.mr 6 = Config.sha384 (digestBytes (a.mr 6) ++ digestBytes d) ∧ .message n 0x81 0 [] ∈ u.out ∧ u.mem = a.mem)) ∧
    ((x.owner = none ∨ ∃ d, x.owner = some d ∧ ¬ free d) → a.recovering = false → Completes (.claimOwner t n) s (fun u =>
      u = { a with outAt := u.outAt, out := a.out ++ [.message n 0x81 0x0A []] })) ∧
    (Calm a → a.recovering = false → a.busUp = true → (a.journal a.service).ring.length < 61440 → a.hostQp x.qp = some y → y.role = 3 →
      (a.ownerSession x = true → Completes (.releaseOwner t n) s (fun u => u.owned = false ∧ u.host.qps = [] ∧
        .message n 0x82 0 [] ∈ u.out ∧ u.mem = a.mem)) ∧
      (a.ownerSession x = false → Completes (.releaseOwner t n) s (fun u => u.owned = a.owned ∧ u.host = a.host ∧
        .message n 0x82 0x0A [] ∈ u.out ∧ ∃ e, (u.journal a.service).ring = (a.journal a.service).ring ++ [e] ∧ e.code = 2))) ∧
    Completes (.getReport t n nonce) s (fun u => ∃ b, u = { a with outAt := u.outAt, out := a.out ++ [.message n 0x83 0 b] } ∧
      b.take 512 = a.reportBody nonce)) ∧
  (∀ (t addr len cls floor : Nat) (x : Session) (s : State),
    let a := s.advance t
    let n := x.id
    let p := mPage .sec
    let head := memBytes a.mem addr 24
    let part (i w : Nat) : Nat := leNat ((head.drop i).take w)
    let c := a.fw cls
    let image : FwImage := { slot := part 5 1, svn := part 8 4, version := part 12 4, digest := Config.sha384 (memBytes a.mem addr 128), sound := true }
    a.session n = some x → x.open_ = true → a.sec.classes.length = 5 →
    (((a.ownerSession x = true ∧ a.phase = 9) ∨ a.recovering = true) → addr % 64 = 0 → 0x4200 + part 16 8 ≤ len → memReach addr len = true → Clean a →
      a.train.ueLines = [] → part 0 4 = 1 → part 4 1 = cls → 1 ≤ part 8 4 → part 8 4 ≤ 128 →
      a.imageReason cls (part 5 1) (part 8 4) true true true true = 0 →
      Completes (.fwStage t n addr len true true true true []) s (fun u => u.mem = a.mem ∧ (u.fw cls).pending = true ∧
        (u.fw cls).bank (1 - c.active) = some image ∧ (∀ d, d ≠ cls → u.fw d = a.fw d) ∧ u.num p Reg.SEC_STAGE_STS = 2 + 16 * cls ∧
        .message n 0x84 0 [] ∈ u.out)) ∧
    (a.ownerSession x = false → a.recovering = false → a.train.ueLines = [] → Completes (.fwStage t n addr len true true true true []) s (fun u =>
      u.sec = a.sec ∧ .message n 0x84 0x0A [] ∈ u.out ∧ u.num p Reg.SEC_FW_REJECTS = min 0xFFFFFFFF (a.num p Reg.SEC_FW_REJECTS + 1))) ∧
    (a.recovering = true → Completes (.fwRaiseFloor t n cls floor true) s (fun u => u = a)) ∧
    (a.ownerSession x = true → a.recovering = false → cls < 5 → floor ≤ 128 →
      (floor ≤ (c.runs.map (·.svn)).getD 0 → Completes (.fwRaiseFloor t n cls floor true) s (fun u => u.mem = a.mem ∧
        (u.fw cls).floor0 = max c.floor0 floor ∧ (u.fw cls).floor1 = max c.floor1 floor ∧ (∀ d, d ≠ cls → u.fw d = a.fw d) ∧
        .message n 0x85 0 [] ∈ u.out)) ∧
      ((c.runs.map (·.svn)).getD 0 < floor → Completes (.fwRaiseFloor t n cls floor true) s (fun u =>
        u = { a with outAt := u.outAt, out := a.out ++ [.message n 0x85 0x09 []] }))))

/-- A sample numbers itself, and with TEL_EN stages four records of 256 bytes and one of 64, where 1 MiB has room.
With LINK_MON set the lane margins are kept. With THERMAL set exactly the sensors that differ by more than 4 °C from
both diodes join the excluded ones, which are counted. Every 10 minutes the record of each trained stack is written.
Each second darn counts the CCLK it used and, with its control set, keeps the losses and fails a triad whose loss
passes AGE_FAIL for the first time; for Q0 it publishes the flash figures. (R43, R382, R392, R393, R394, R395, R396,
R398, R399, R400, R401, R403) -/
def Obligations.TallyPressAndDarnRecordTheirFindings : Prop :=
  (∀ (t : Nat) (qs : List QuarterSense) (s : State),
    let a := s.advance t
    let time := a.podCount / 900000 * 900000
    let tel := a.bit (mPage .evq) Reg.EVQ_EVQ_CTL 0
    qs.length = 4 → (a.bgnd.samples = 0 ∨ a.bgnd.sampleAt < time) →
    Completes (.tallySample t qs) s (fun u => u.bgnd.samples = a.bgnd.samples + 1 ∧ u.bgnd.sampleAt = time ∧ u.mem = a.mem ∧
      (∀ q, q < 4 → u.num (qPage .tally q 0) Reg.TALLY_SEQ = a.bgnd.samples % 2 ^ 32 ∧
        u.num64 (qPage .tally q 0) Reg.TALLY_LAST_TIME_LO Reg.TALLY_LAST_TIME_HI = time % 2 ^ 64) ∧
      (∀ q x, q < 4 → qs[q]? = some x → u.num (qPage .hk q 0) Reg.HK_P_CORE = x.pCore % 65536 ∧
        u.num (qPage .hk q 0) Reg.HK_V_CORE = x.vCore % 65536) ∧
      (tel = false → u.events = a.events) ∧
      (tel = true → a.telStaged + 1088 ≤ 0x100000 → ∃ l, u.events = { a.events with telemetry := a.events.telemetry ++ l } ∧
        l.map List.length = [256, 256, 256, 256, 64]))) ∧
  (∀ (t q : Nat) (margins : List Nat) (s : State),
    let a := s.advance t
    q < 4 → a.bit (qPage .bgnd q 0) Reg.BGND_PRESS_CTL 1 = true → Completes (.pressLinkMonitor t q margins) s (fun u =>
      (∀ i m, i < 26 → margins[i]? = some m → mapGet (fun _ => 0) u.bgnd.margins (32 * q + i) = m) ∧
      (∀ k, k / 32 ≠ q → mapGet (fun _ => 0) u.bgnd.margins k = mapGet (fun _ => 0) a.bgnd.margins k) ∧ u.mem = a.mem)) ∧
  (∀ (t q : Nat) (raw : List Int) (ref1 ref2 : Int) (s : State),
    let a := s.advance t
    let far (v r : Int) : Prop := 64 < v - r ∨ 64 < r - v
    q < 4 → a.bit (qPage .bgnd q 0) Reg.BGND_PRESS_CTL 2 = true → Completes (.pressThermal t q raw ref1 ref2) s (fun u =>
      (∀ k, k ∈ u.bgnd.excluded ↔ k ∈ a.bgnd.excluded ∨ ∃ i v, i < 64 ∧ k = 64 * q + i ∧ raw[i]? = some v ∧
        far (v + mapGet (fun _ => 0) a.bgnd.offsets k) ref1 ∧ far (v + mapGet (fun _ => 0) a.bgnd.offsets k) ref2) ∧
      u.num (qPage .tally q 0) Reg.TALLY_SENSORS_OUT = (u.bgnd.excluded.filter (fun k => k / 64 == q)).length % 2 ^ 32 ∧ u.mem = a.mem)) ∧
  (∀ (t q : Nat) (temps : List Int) (s : State),
    let a := s.advance t
    let none_ : CalRec := { temp := 0, valid := false, at_ := 0 }
    q < 4 → Completes (.pressCalRecord t q temps) s (fun u => u = { a with boot := { a.boot with cal := u.boot.cal } } ∧
      (∀ i v, i < 8 → temps[i]? = some v → mapGet (fun _ => none_) u.boot.cal (8 * q + i) =
        if (a.stack q i).trained then { temp := v, valid := true, at_ := a.podCount, pins := (a.stack q i).pins } else mapGet (fun _ => none_) a.boot.cal (8 * q + i)) ∧
      (∀ k, k / 8 ≠ q → mapGet (fun _ => none_) u.boot.cal k = mapGet (fun _ => none_) a.boot.cal k))) ∧
  (∀ (t q cpu life spare erases : Nat) (losses : List Nat) (s : State),
    let a := s.advance t
    let b := qPage .bgnd q 0
    q < 4 → Completes (.darnAging t q losses cpu life spare erases) s (fun u => u.mem = a.mem ∧
      u.num b Reg.BGND_DARN_CPU = min 0xFFFFFFFF (a.num b Reg.BGND_DARN_CPU + cpu) ∧
      (a.bit b Reg.BGND_DARN_CTL 1 = true → ∀ i v, i < 32 → losses[i]? = some v → u.loss q i = v ∧
        (a.num b Reg.BGND_AGE_FAIL < v → 2 * (32 * q + i) + 1 ∉ a.bgnd.passed → u.failedTriad q i = true)) ∧
      (a.bit b Reg.BGND_DARN_CTL 1 = false → u.bgnd = a.bgnd) ∧
      (q = 0 → u.num b Reg.BGND_FLASH_LIFE = min life 1023 + 65536 * min spare 2047)))

/-- Contact brings the AON domain up and reads the straps, whose parity is odd; its loss turns all off. In RAMP a
failed interlock condition turns MAIN off. PWR_EN low begins a shutdown with its cause, which ends once every journal
is in flash; a trip is released. The throttle steps up above 98 % and down below 94 % of the lowest limit; an input
outside 48 V to 58 V alerts; low flow is told after 1 s; a quarter over its warning, with hysteresis, lowers P_THERM
by 84 W, else it rises by 42 W. PSTAT and the alert response release ALERT_L; REG_ADDR takes a word offset and refuses
others; a low clock clears it. (R407, R410, R413, R414, R416, R419, R420, R421, R422, R423, R425, R426) -/
def Obligations.PowerLimitsAndSidebandFollowTheirInputs : Prop :=
  (∀ (t straps : Nat) (s : State),
    let a := s.advance t
    let odd := ((List.range 19).filter (fun i => bitAt (straps % 2 ^ 19) i)).length % 2 = 1
    a.power.aon = false → Completes (.powerContact t straps) s (fun u => u.power.aon = true ∧ u.power.state = 0 ∧
      u.power.straps = straps % 2 ^ 19 ∧ u.mem = a.mem ∧ (odd → u.selfId = straps % 2 ^ 18) ∧ (¬ odd → u.selfId = 0))) ∧
  (∀ (t : Nat) (s : State),
    let a := s.advance t
    let off (u : State) : Prop := u.host = {} ∧ u.clk.held = [] ∧ u.sec.sessions = [] ∧ ∀ q i, q < 4 → i < 110 → u.island q i = 5
    Completes (.aonPowerLoss t) s (fun u => off u ∧ u.power.aon = false ∧ u.power.state = 0 ∧ u.boot.bistAt = none ∧
      u.field (mPage .boot) Reg.BOOT_BOOT_STS 5 4 = 0) ∧
    (a.power.state ≠ 0 → a.power.state ≤ 3 → Completes (.pwrEnLow t) s (fun u => u.power.state = 4 ∧ u.power.enable = false ∧
      u.boot.next = none ∧ u.num (mPage .pwr) Reg.PWR_TRIP_INFO = 8 ∧ u.mem = a.mem)) ∧
    (a.power.state = 4 → (∀ e ∈ a.journals, e.2.waiting = []) → Completes (.shutdownComplete t) s (fun u =>
      off u ∧ u.power.state = 0 ∧ u.mem = a.mem)) ∧
    (a.power.state = 4 → (∃ e ∈ a.journals, e.2.waiting ≠ []) → Completes (.shutdownComplete t) s (fun u => u = a)) ∧
    (a.power.state = 5 → Completes (.tripRelease t) s (fun u => u.power.state = 0 ∧ u.power.enable = false ∧ u.regs = a.regs ∧
      u.mem = a.mem)) ∧
    (∀ flow vin tInlet supply return_, a.power.state = 1 → flow < 65536 → vin < 65536 → -32768 ≤ tInlet → tInlet < 32768 →
      let met : Prop := a.power.enable = true ∧ supply = true ∧ return_ = true ∧ 600 ≤ flow ∧ tInlet ≤ 720 ∧ 4800 ≤ vin ∧ vin ≤ 5800
      (¬ met → Completes (.rampInterlockFail t flow tInlet vin supply return_) s (fun u => off u ∧ u.power.state = 0 ∧ u.boot.next = none)) ∧
      (met → Completes (.rampInterlockFail t flow tInlet vin supply return_) s (fun u => u.power.state = 1 ∧ u.clk = a.clk)))) ∧
  (∀ (t vin iin pavg : Nat) (s : State),
    let a := s.advance t
    let p := mPage .pwr
    let limit := min (min (100 * a.field p Reg.PWR_P_CAP 0 16) 420000) (min (82 * vin) (100 * a.field p Reg.PWR_P_THERM 0 16))
    let n := a.field p Reg.PWR_PWR_STS 10 6
    let m := if 98 * limit < 10000 * pavg ∧ n < 60 then n + 1 else if 10000 * pavg < 94 * limit ∧ 0 < n then n - 1 else n
    (a.power.state = 2 ∨ a.power.state = 4) → Completes (.throttleUpdate t vin iin pavg) s (fun u =>
      u.field p Reg.PWR_PWR_STS 10 6 = m ∧ u.num p Reg.PWR_P_LIMIT = limit / 100 ∧ u.num p Reg.PWR_V_IN = vin % 65536 ∧
      (m = 0 → u.field p Reg.PWR_PWR_STS 7 3 = 0) ∧ (∀ q, q < 4 → u.field (qPage .hk q 0) Reg.HK_HK_STS 1 6 = m) ∧
      (n = 0 → m ≠ 0 → u.power.alert = true) ∧ u.mem = a.mem)) ∧
  (∀ (t vin : Nat) (s : State),
    let a := s.advance t
    Completes (.vRange t vin) s (fun u => u.num (mPage .pwr) Reg.PWR_V_IN = vin % 65536 ∧ u.mem = a.mem ∧
      u.power.alert = (a.power.alert || decide (vin < 4800 ∨ 5800 < vin)))) ∧
  (∀ (t flow : Nat) (tInlet tOutlet : Int) (s : State),
    let a := s.advance t
    let p := mPage .pwr
    a.power.aon = true → Completes (.coolantSample t flow tInlet tOutlet) s (fun u => u.num p Reg.PWR_FLOW = flow % 65536 ∧
      u.num p Reg.PWR_T_OUTLET = (BitVec.ofInt 16 tOutlet).toNat ∧ u.mem = a.mem ∧
      (760 ≤ flow → u.power.flowLow = none ∧ u.power.flowTold = false) ∧
      (flow < 760 → a.power.flowLow = none → u.power.flowLow = some a.now) ∧
      (∀ x, flow < 760 → a.power.flowLow = some x → x + 3600000000 ≤ a.now → u.power.flowTold = true ∧
        (a.power.flowTold = false → u.power.alert = true)))) ∧
  (∀ (t : Nat) (die dram : List Int) (s : State),
    let a := s.advance t
    let p := mPage .pwr
    let v := a.field p Reg.PWR_P_THERM 0 16
    let exceeds (q bit lim : Nat) (x : Int) : Bool :=
      let l := (BitVec.ofNat 16 (a.num (qPage .hk q 0) lim)).toInt
      decide ((if a.bit (qPage .hk q 0) Reg.HK_HK_STS bit then l - 48 else l) < x)
    let dieOver (q : Nat) : Bool := exceeds q 7 Reg.HK_T_WARN (die.getD q 0)
    let dramOver (q : Nat) : Bool := exceeds q 8 Reg.HK_T_DRAM_WARN (dram.getD q 0)
    Completes (.thermalLimitUpdate t die dram) s (fun u => u.mem = a.mem ∧ (∀ q, q < 4 →
        u.bit (qPage .hk q 0) Reg.HK_HK_STS 7 = dieOver q ∧ u.bit (qPage .hk q 0) Reg.HK_HK_STS 8 = dramOver q) ∧
      ((∃ q, q < 4 ∧ (dieOver q = true ∨ dramOver q = true)) → u.num p Reg.PWR_P_THERM = max 1800 (v - 84)) ∧
      ((∀ q, q < 4 → dieOver q = false ∧ dramOver q = false) → u.num p Reg.PWR_P_THERM = min 4200 (v + 42)))) ∧
  (∀ (t v : Nat) (s : State),
    let a := s.advance t
    a.power.aon = true →
    Completes (.smbPstat t) s (fun u => u = { a with power := { a.power with alert := false }, outAt := u.outAt, out := a.out ++ [.smb a.pstat] }) ∧
    (v < 4096 → v % 4 = 0 → Completes (.smbRegAddr t v true) s (fun u =>
      u = { a with power := { a.power with regAddr := v }, outAt := u.outAt, out := a.out ++ [.smbAck] })) ∧
    ((4096 ≤ v ∨ v % 4 ≠ 0) → Completes (.smbRegAddr t v true) s (fun u => u = { a with outAt := u.outAt, out := a.out ++ [.smbNak] })) ∧
    Completes (.smbRegAddr t v false) s (fun u => u.out = a.out ++ [.smbNak] ∧ u.power = a.power) ∧
    (a.power.alert = true → Completes (.smbAlertResponse t) s (fun u =>
      u = { a with power := { a.power with alert := false }, outAt := u.outAt, out := a.out ++ [.smb [0x60]] })) ∧
    (a.power.alert = false → Completes (.smbAlertResponse t) s (fun u => u = a)) ∧
    Completes (.smbClockLowReset t) s (fun u => u = { a with power := { a.power with regAddr := 0 } }))

/-- In STANDBY, with the interlock met, a start begins: STARTS counts, phase RAILS begins, every island is OFF and the
step counts are 0. RAILS ends in RUN and phase CLOCKS; CLEAR of a cold start empties memory; PORTS ends the start; a
phase past its bound fails with cause 1. A failed phase stores FAIL_INFO, turns MAIN off, and 1 s later a start
follows, by kind and failure count; no more than the third failure of a cold start parks. The retry then starts warm
or cold, or parks in the quarter that comes up, or nowhere. A trip stores its cause, loses self-refresh, and turns
MAIN off or fails the start; of two causes of one CCLK the lower is stored, and in STANDBY a condition changes nothing
(log entry 159). (R227, R228, R326, R407, R413, R422, R429, R430, R431, R433, R435, R437) -/
def Obligations.StartsBeginPassFailAndRetry : Prop :=
  (∀ (t straps flow vin : Nat) (tInlet : Int) (s : State),
    let a := s.advance t
    let boot := mPage .boot
    let met : Prop := 600 ≤ flow ∧ tInlet ≤ 720 ∧ 4800 ≤ vin ∧ vin ≤ 5800
    a.power.state = 0 → a.power.aon = true → a.boot.next = none → flow < 65536 → vin < 65536 → -32768 ≤ tInlet → tInlet < 32768 →
    (met → Completes (.rampStart t straps flow tInlet vin) s (fun u => u.power.state = 1 ∧ u.phase = 0 ∧ u.warmStart = false ∧
      u.num boot Reg.BOOT_STARTS = min 0xFFFFFFFF (a.num boot Reg.BOOT_STARTS + 1) ∧ u.attempt = 0 ∧ u.mem = a.mem ∧
      u.out = a.out ∧ ∀ q i, q < 4 → i < 110 → u.island q i = 5)) ∧
    (¬ met → Completes (.rampStart t straps flow tInlet vin) s (fun u => u.power.state = 0 ∧ u.phase = a.phase ∧ u.clk = a.clk))) ∧
  (∀ (t : Nat) (x : StartFound) (s : State),
    let a := s.advance t
    let boot := mPage .boot
    let ends (P : State → Prop) : Prop := Completes (.startPhaseComplete t x) s P
    a.boot.next = none → a.clk.held = [] → a.clk.stalled = [] → a.train.ueLines = [] →
    (a.power.state = 1 → a.phase = 0 → a.now - a.boot.phaseAt ≤ (if a.warmStart then 5 else 15) * 360000000 → ends (fun u =>
      u.power.state = 2 ∧ u.phase = 1 ∧ u.boot.phaseAt = a.now ∧ (∀ q, q < 4 → u.bit (qPage .hk q 0) Reg.HK_HK_STS 0 = true) ∧
      u.num boot Reg.BOOT_PHASE_MSp = (a.now - a.boot.phaseAt) / 3600000 ∧ u.mem = a.mem)) ∧
    (a.power.state = 2 → a.phase = 6 → a.warmStart = false → a.now - a.boot.phaseAt ≤ 10 * 360000000 → ends (fun u =>
      u.mem = [] ∧ u.ecc = [] ∧ u.phase = 7)) ∧
    (a.power.state = 2 → a.phase = 8 → a.now - a.boot.phaseAt ≤ 2 * 360000000 → ends (fun u => u.phase = 9 ∧ u.mem = a.mem ∧
      u.field boot Reg.BOOT_BOOT_STS 5 4 = 0 ∧ u.num boot Reg.BOOT_START_MS = (a.now - a.boot.startAt) / 3600000 % 2 ^ 32)) ∧
    (a.power.state = 2 → a.phase = 5 → a.warmStart = false → 20 * 360000000 < a.now - a.boot.phaseAt → ends (fun u =>
      u.power.state = 0 ∧ u.num boot Reg.BOOT_FAIL_INFO = 1 + 16 * 5 ∧ u.boot.next.isSome = true))) ∧
  (∀ (t cause q unit : Nat) (s : State),
    let a := s.advance t
    let boot := mPage .boot
    let fails := a.field boot Reg.BOOT_BOOT_STS 7 2
    (a.power.state = 1 ∨ a.power.state = 2 ∨ a.power.state = 3) → a.phase ≤ 8 → a.boot.next = none → 1 ≤ cause → cause ≤ 9 → q < 4 →
    unit < 32 → Completes (.startPhaseFail t cause q unit) s (fun u =>
      u.num boot Reg.BOOT_FAIL_INFO = cause + 16 * a.phase + (if a.warmStart then 256 else 0) + 512 * q + 2048 * unit ∧
      u.power.state = (if a.warmStart then 3 else 0) ∧ (∀ p i, p < 4 → i < 110 → u.island p i = 5) ∧ u.mem = a.mem ∧
      (a.warmStart = false → u.field boot Reg.BOOT_BOOT_STS 7 2 = min 3 (fails + 1) ∧
        u.boot.next = some { at_ := a.now + 3600000000, kind := if 2 ≤ fails then .park else .cold }) ∧
      (a.warmStart = true → (cause = 7 ∨ cause = 8) → u.boot.next = some { at_ := a.now + 3600000000, kind := .cold }))) ∧
  (∀ (t : Nat) (up0 up1 : Bool) (x : NextStart) (s : State),
    let a := s.advance t
    let modid := mPage .modid
    let retry (P : State → Prop) : Prop := Completes (.startRetry t up0 up1) s P
    a.boot.next = some x → x.at_ ≤ a.now → a.power.state ≠ 5 → a.interlock = true →
    (x.kind = .warm → retry (fun u => u.phase = 0 ∧ u.warmStart = true ∧ u.power.state = 3 ∧ u.attempt = a.attempt ∧ u.committed = a.committed)) ∧
    (x.kind = .cold → retry (fun u => u.phase = 0 ∧ u.warmStart = false ∧ u.power.state = 1 ∧ u.attempt = 0 ∧ u.boot.next = none)) ∧
    (x.kind = .park → (up0 = true ∨ up1 = true) → retry (fun u => u.phase = 10 ∧ u.power.state = 2 ∧
      u.service = (if up0 then a.service else 1) ∧ u.num modid Reg.MODID_QUARTERS = 2 ^ u.service ∧ u.island u.service 108 = 0 ∧
      u.island u.service 95 = 0)) ∧
    (x.kind = .park → up0 = false → up1 = false → retry (fun u => u.power.state = 0 ∧ u.boot.next = none ∧ u.regs = a.regs))) ∧
  (∀ (t cause q unit : Nat) (s : State),
    let a := s.advance t
    1 ≤ cause → cause ≤ 7 → q < 4 → unit < 64 → (a.power.state = 0 → Completes (.trip t cause q unit) s (fun u => u = a)) ∧
    (a.power.state = 5 → a.power.causeAt / 4 = a.now / 4 → cause < a.field (mPage .pwr) Reg.PWR_TRIP_INFO 0 4 →
      Completes (.trip t cause q unit) s (fun u => u.num (mPage .pwr) Reg.PWR_TRIP_INFO = cause + 16 * q + 64 * unit ∧
        u.power.state = 5 ∧ u.mem = a.mem)) ∧
    (a.power.state ≠ 0 → a.power.state ≠ 5 → (cause = 3 → a.power.state ≠ 4) → Completes (.trip t cause q unit) s (fun u =>
      u.power.state = 5 ∧ u.power.alert = true ∧ u.num (mPage .pwr) Reg.PWR_TRIP_INFO = cause + 16 * q + 64 * unit ∧
      (∀ e ∈ u.stackUnits, e.2.sref = false ∧ e.2.retainOk = false) ∧ (∀ p i, p < 4 → i < 110 → u.island p i = 5) ∧ u.mem = a.mem ∧
      (a.phase ≤ 8 → a.boot.next = none → a.power.state ≠ 4 → u.boot.next.isSome = true))))

/-- For every Fold offset below 0xA00_0000 the place of its line is the bank, sub-bank and index of the rule, within
their ranges; for each bank, sub-bank and index in range there is exactly one line with that place; and 64 lines that
agree in their higher bits lie in 64 different banks. (R94) -/
def Obligations.FoldLinesHaveOnePlaceEach : Prop :=
  (∀ o : Nat, o < 0xA000000 →
    let l := o / 64
    foldPlace o = { bank := bitsOf l 0 6 ^^^ bitsOf l 6 6 ^^^ bitsOf l 12 6 ^^^ bitsOf l 18 4, sub := bitsOf l 6 2, index := bitsOf l 8 14 } ∧
    (foldPlace o).bank < 64 ∧ (foldPlace o).sub < 4 ∧ (foldPlace o).index < 10240) ∧
  (∀ bank sub index : Nat, bank < 64 → sub < 4 → index < 10240 →
    ∃ l, 64 * l < 0xA000000 ∧ foldPlace (64 * l) = { bank := bank, sub := sub, index := index } ∧
      ∀ k, 64 * k < 0xA000000 → foldPlace (64 * k) = { bank := bank, sub := sub, index := index } → k = l) ∧
  (∀ h i j : Nat, i < 64 → j < 64 → i ≠ j → (foldPlace (64 * (64 * h + i))).bank ≠ (foldPlace (64 * (64 * h + j))).bank)

/-- The place of a line of the F tier and of the D tier is that of the rules; for each stack, pseudo-channel, bank and
index in range there is exactly one line of the quarter with that place. 48 F-tier lines in a row lie on 48 different
pseudo-channels, a stride of 48 lines stays on one, and a weight page puts 64 lines on each D-tier pseudo-channel of
its quarter. (R209, R210) -/
def Obligations.StackLinesHaveOnePlaceEach : Prop :=
  (∀ q o : Nat, o < fSize →
    let u := o / 64 % 48
    let m := o / 64 / 48
    fPlace q o = { dTier := false, quarter := q, stack := u % 6, pc := u / 6,
                   bank := bitsOf m 0 6 ^^^ bitsOf m 6 6 ^^^ bitsOf m 12 6 ^^^ bitsOf m 18 6, index := bitsOf m 6 20 }) ∧
  (∀ q o : Nat, o < dSize →
    let l := o / 64
    let u := bitsOf l 0 4 ^^^ bitsOf l 4 4 ^^^ bitsOf l 8 4
    let m := l / 16
    dPlace q o = { dTier := true, quarter := q, stack := bitsOf u 0 1, pc := bitsOf u 1 3,
                   bank := bitsOf m 0 5 ^^^ bitsOf m 5 5 ^^^ bitsOf m 10 5 ^^^ bitsOf m 15 5 ^^^ bitsOf m 20 5, index := bitsOf m 5 23 }) ∧
  (∀ q stack pc bank index : Nat, stack < 6 → pc < 8 → bank < 64 → index < 2 ^ 20 →
    let p : StackPlace := { dTier := false, quarter := q, stack := stack, pc := pc, bank := bank, index := index }
    ∃ l, 64 * l < fSize ∧ fPlace q (64 * l) = p ∧ ∀ k, 64 * k < fSize → fPlace q (64 * k) = p → k = l) ∧
  (∀ q stack pc bank index : Nat, stack < 2 → pc < 8 → bank < 32 → index < 2 ^ 23 →
    let p : StackPlace := { dTier := true, quarter := q, stack := stack, pc := pc, bank := bank, index := index }
    ∃ l, 64 * l < dSize ∧ dPlace q (64 * l) = p ∧ ∀ k, 64 * k < dSize → dPlace q (64 * k) = p → k = l) ∧
  (∀ q l i j : Nat, i < 48 → j < 48 → i ≠ j → ((fPlace q (64 * (l + i))).stack, (fPlace q (64 * (l + i))).pc) ≠
    ((fPlace q (64 * (l + j))).stack, (fPlace q (64 * (l + j))).pc)) ∧
  (∀ q l n : Nat, (fPlace q (64 * (l + 48 * n))).stack = (fPlace q (64 * l)).stack ∧ (fPlace q (64 * (l + 48 * n))).pc = (fPlace q (64 * l)).pc) ∧
  (∀ q page stack pc : Nat, stack < 2 → pc < 8 → ((List.range 1024).filter (fun i =>
    (dPlace q (64 * (1024 * page + i))).stack == stack && (dPlace q (64 * (1024 * page + i))).pc == pc)).length = 64)

/-- For all 128 data bits: the word encoded by the check symbols has syndrome 0 and reads clean; with any one of its
36 symbols in error by any nonzero value the check names that symbol and that value; with any two in error it finds an
uncorrectable or a poisoned word, and corrects nothing; with symbols 32 and 33 XORed by 0xF it finds a poisoned word.
(R217, R218, R219, R221) -/
def Obligations.TheCodeCorrectsOneSymbolAndDetectsTwo : Prop :=
  (∀ d : Nat, syndrome (eccEncode d) = ⟨0, 0, 0, 0⟩ ∧ eccEncode d % 2 ^ 128 = d % 2 ^ 128 ∧
    eccDecode (syndrome (eccEncode d)) = .clean ∧ eccDecode (syndrome (eccEncode d ^^^ poisonMark)) = .poisoned) ∧
  (∀ d j e : Nat, j < 36 → 0 < e → e < 16 → eccDecode (syndrome (eccEncode d ^^^ e * 2 ^ (4 * j))) = .fix j e) ∧
  (∀ d i j e f : Nat, i < j → j < 36 → 0 < e → e < 16 → 0 < f → f < 16 →
    let r := eccDecode (syndrome (eccEncode d ^^^ e * 2 ^ (4 * i) ^^^ f * 2 ^ (4 * j)))
    r = .uncorrectable ∨ r = .poisoned)
end

