-- ==== Sys2Proof/Laws/Maps.lean ====
section
/-! SUPPORT. The laws of the sparse maps: a read after a write, and the canonical form kept by every operation. -/

namespace Sys2Proof.Laws
open Sys2Proof.Machine

variable {α : Type}

theorem mapGet_erase_other (d : Nat → α) (m : List (Nat × α)) (k j : Nat) (h : j ≠ k) :
    mapGet d (mapErase m k) j = mapGet d m j := by
  induction m with
  | nil => rfl
  | cons e m ih =>
    obtain ⟨k', v⟩ := e
    by_cases hk : k' = k
    · subst hk
      simp [mapErase, mapGet, Ne.symm h]
      simpa [mapErase] using ih
    · simp [mapErase, hk, mapGet]
      split
      · rfl
      · simpa [mapErase] using ih

theorem mapGet_erase_same (d : Nat → α) (m : List (Nat × α)) (k : Nat) :
    mapGet d (mapErase m k) k = d k := by
  induction m with
  | nil => rfl
  | cons e m ih =>
    obtain ⟨k', v⟩ := e
    by_cases hk : k' = k
    · subst hk
      simp [mapErase]
      simpa [mapErase] using ih
    · simp [mapErase, hk, mapGet]
      simpa [mapErase] using ih

theorem mapGet_insert_same (d : Nat → α) (m : List (Nat × α)) (k : Nat) (v : α)
    (h : ∀ e ∈ m, e.1 ≠ k) : mapGet d (mapInsert k v m) k = v := by
  induction m with
  | nil => simp [mapInsert, mapGet]
  | cons e m ih =>
    obtain ⟨k', w⟩ := e
    have hk : k' ≠ k := h (k', w) (by simp)
    simp only [mapInsert]
    split
    · simp [mapGet]
    · simp [mapGet, hk]
      exact ih (fun e he => h e (by simp [he]))

theorem mapGet_insert_other (d : Nat → α) (m : List (Nat × α)) (k j : Nat) (v : α) (h : j ≠ k) :
    mapGet d (mapInsert k v m) j = mapGet d m j := by
  induction m with
  | nil => simp [mapInsert, mapGet, Ne.symm h]
  | cons e m ih =>
    obtain ⟨k', w⟩ := e
    simp only [mapInsert]
    split
    · simp [mapGet, Ne.symm h]
    · simp [mapGet, ih]

theorem mapErase_ne (m : List (Nat × α)) (k : Nat) : ∀ e ∈ mapErase m k, e.1 ≠ k := by
  intro e he
  simp [mapErase] at he
  exact he.2

@[simp] theorem mapGet_set_same [DecidableEq α] (d : Nat → α) (m : List (Nat × α)) (k : Nat) (v : α) :
    mapGet d (mapSet d m k v) k = v := by
  unfold mapSet
  split
  · rename_i h; rw [mapGet_erase_same, h]
  · exact mapGet_insert_same d _ k v (mapErase_ne m k)

theorem mapGet_set_other [DecidableEq α] (d : Nat → α) (m : List (Nat × α)) (k j : Nat) (v : α) (h : j ≠ k) :
    mapGet d (mapSet d m k v) j = mapGet d m j := by
  unfold mapSet
  split
  · exact mapGet_erase_other d m k j h
  · rw [mapGet_insert_other d _ k j v h, mapGet_erase_other d m k j h]

theorem mapErase_wf (d : Nat → α) (m : List (Nat × α)) (k : Nat) (h : mapWf d m) : mapWf d (mapErase m k) :=
  ⟨h.1.filter _, fun e he => h.2 e (List.mem_of_mem_filter he)⟩

theorem mapInsert_mem (m : List (Nat × α)) (k : Nat) (v : α) (e : Nat × α) :
    e ∈ mapInsert k v m ↔ e = (k, v) ∨ e ∈ m := by
  induction m with
  | nil => simp [mapInsert]
  | cons a m ih =>
    simp only [mapInsert]
    split
    · simp
    · simp only [List.mem_cons, ih]
      tauto

theorem mapInsert_sorted (m : List (Nat × α)) (k : Nat) (v : α)
    (h : m.Pairwise (fun a b => a.1 < b.1)) (hk : ∀ e ∈ m, e.1 ≠ k) :
    (mapInsert k v m).Pairwise (fun a b => a.1 < b.1) := by
  induction m with
  | nil => simp [mapInsert]
  | cons a m ih =>
    rw [List.pairwise_cons] at h
    have ha : a.1 ≠ k := hk a (by simp)
    simp only [mapInsert]
    split
    · rename_i hlt
      rw [List.pairwise_cons]
      refine ⟨?_, List.pairwise_cons.2 h⟩
      intro b hb
      rcases List.mem_cons.1 hb with rfl | hb
      · exact hlt
      · exact Nat.lt_trans hlt (h.1 b hb)
    · rename_i hge
      rw [List.pairwise_cons]
      refine ⟨?_, ih h.2 (fun e he => hk e (by simp [he]))⟩
      intro b hb
      rcases (mapInsert_mem m k v b).1 hb with rfl | hb
      · show a.1 < k
        omega
      · exact h.1 b hb

/-- Every write keeps the canonical form. -/
theorem mapSet_wf [DecidableEq α] (d : Nat → α) (m : List (Nat × α)) (k : Nat) (v : α) (h : mapWf d m) :
    mapWf d (mapSet d m k v) := by
  have he := mapErase_wf d m k h
  unfold mapSet
  split
  · exact he
  · rename_i hv
    refine ⟨mapInsert_sorted _ k v he.1 (mapErase_ne m k), ?_⟩
    intro e hem
    rcases (mapInsert_mem _ k v e).1 hem with rfl | hem
    · exact hv
    · exact he.2 e hem

@[simp] theorem memGet_set_same (m : List Host.Cell) (a : Nat) (b : Byte) : memGet (memSet m a b) a = b :=
  mapGet_set_same memDefault m a b

theorem memGet_set_other (m : List Host.Cell) (a j : Nat) (b : Byte) (h : j ≠ a) :
    memGet (memSet m a b) j = memGet m j := mapGet_set_other memDefault m a j b h

/-- A byte outside the bytes written reads as before. -/
theorem memGet_put_other (m : List Host.Cell) (a j : Nat) (bs : List Byte) (h : j < a ∨ a + bs.length ≤ j) :
    memGet (memPut m a bs) j = memGet m j := by
  induction bs generalizing m a with
  | nil => rfl
  | cons b bs ih =>
    simp only [List.length_cons] at h
    rw [memPut, ih _ _ (by omega), memGet_set_other _ _ _ _ (by omega)]

/-- A byte written reads back. -/
theorem memGet_put_same (m : List Host.Cell) (a i : Nat) (bs : List Byte) (h : i < bs.length) :
    memGet (memPut m a bs) (a + i) = bs[i] := by
  induction bs generalizing m a i with
  | nil => simp at h
  | cons b bs ih =>
    cases i with
    | zero => rw [memPut, memGet_put_other _ _ _ _ (by omega)]; simp
    | succ i =>
      have h' : i < bs.length := by simpa using h
      rw [memPut, show a + (i + 1) = (a + 1) + i by omega, ih _ _ _ h']
      simp

/-- Writing bytes keeps the canonical form of memory. -/
theorem memPut_wf (m : List Host.Cell) (a : Nat) (bs : List Byte) (h : Memory.wf m) : Memory.wf (memPut m a bs) := by
  induction bs generalizing m a with
  | nil => exact h
  | cons b bs ih => exact ih _ _ (mapSet_wf memDefault m a b h)

end Sys2Proof.Laws
end

