-- ==== Sys2Proof/Laws/Keeps.lean ====
section
/-! SUPPORT. What every operation of the block keeps: one lemma for an operation. -/

namespace Sys2Proof.Laws
open Sys2Proof.Machine

/-- What every operation leaves behind: the queue and the time are as they were, what was sent stays sent, free values are
never taken twice, and a sound state stays sound. -/
structure Keeps (s t : State) : Prop where
  pending : t.pending = s.pending
  now : t.now = s.now
  free : s.free ≤ t.free
  out : s.out <+: t.out
  outAt : s.outAt <+: t.outAt
  sound : s.Sound → t.Sound

@[simp] theorem Keeps.refl (s : State) : Keeps s s := ⟨rfl, rfl, Nat.le_refl _, List.prefix_rfl, List.prefix_rfl, id⟩

theorem Keeps.trans {s t u : State} (h : Keeps s t) (k : Keeps t u) : Keeps s u :=
  ⟨k.pending.trans h.pending, k.now.trans h.now, Nat.le_trans h.free k.free, h.out.trans k.out, h.outAt.trans k.outAt, k.sound ∘ h.sound⟩

variable {s₀ s : State}

/-- A state that differs in other fields only. -/
@[simp] theorem keeps_fields (h : Keeps s₀ s) (ca cy ec pu po cl jo ev co st le fr fa tr cl' mi ho pw bo bg cr se) :
    Keeps s₀ (State.mk s.pending s.now s.free s.regs ca cy s.mem ec pu po cl jo ev co st le fr fa tr cl' mi ho pw bo bg cr se s.out s.outAt) :=
  ⟨h.pending, h.now, h.free, h.out, h.outAt, h.sound⟩

@[simp] theorem keeps_ite {c : Prop} [Decidable c] {t u : State} (ht : c → Keeps s₀ t) (hu : ¬c → Keeps s₀ u) :
    Keeps s₀ (if c then t else u) := by
  split
  · exact ht ‹_›
  · exact hu ‹_›

@[simp] theorem keeps_ite_fst {α : Type} {c : Prop} [Decidable c] {t u : State × α} (ht : c → Keeps s₀ t.1) (hu : ¬c → Keeps s₀ u.1) :
    Keeps s₀ (if c then t else u).1 := by
  split
  · exact ht ‹_›
  · exact hu ‹_›

@[simp] theorem keeps_foldl {α : Type} {f : State → α → State} (l : List α) (hf : ∀ t a, Keeps t (f t a)) (h : Keeps s₀ s) :
    Keeps s₀ (l.foldl f s) := by
  induction l generalizing s with
  | nil => exact h
  | cons a l ih => exact ih (h.trans (hf s a))

@[simp] theorem keeps_foldl_fst {α β : Type} {f : State × β → α → State × β} {x : State × β} (l : List α)
    (hf : ∀ t a, Keeps t.1 (f t a).1) (h : Keeps s₀ x.1) : Keeps s₀ (l.foldl f x).1 := by
  induction l generalizing x with
  | nil => exact h
  | cons a l ih => exact ih (h.trans (hf x a))

/-- Memory written in its canonical form, and free values taken. -/
theorem keeps_mem {m : List Host.Cell} (h : Keeps s₀ s) (hm : Memory.wf s.mem → Memory.wf m) : Keeps s₀ { s with mem := m } :=
  ⟨h.pending, h.now, h.free, h.out, h.outAt, fun k => ⟨hm (h.sound k).1, (h.sound k).2⟩⟩

theorem keeps_regs (h : Keeps s₀ s) {rs : List (Nat × Word)} (hr : mapWf regDefault s.regs → mapWf regDefault rs)
    (ca cy ec pu po cl jo ev co st le fr fa tr cl' mi ho pw bo bg cr se) :
    Keeps s₀ (State.mk s.pending s.now s.free rs ca cy s.mem ec pu po cl jo ev co st le fr fa tr cl' mi ho pw bo bg cr se s.out s.outAt) :=
  ⟨h.pending, h.now, h.free, h.out, h.outAt, fun k => ⟨(h.sound k).1, hr (h.sound k).2⟩⟩

theorem keeps_free (n : Nat) (h : Keeps s₀ s) : Keeps s₀ { s with free := s.free + n } :=
  ⟨h.pending, h.now, Nat.le_trans h.free (Nat.le_add_right _ _), h.out, h.outAt, h.sound⟩


/-! ## Ops -/

@[simp] theorem keeps_setReg (p : Page) (off : Nat) (v : Word) (hk : Keeps s₀ s) : Keeps s₀ (s.setReg p off v) := by
  unfold State.setReg
  exact ⟨hk.pending, hk.now, hk.free, hk.out, hk.outAt, fun k =>
    ⟨(hk.sound k).1, mapSet_wf regDefault s.regs (p.reg off) v (hk.sound k).2⟩⟩


@[simp] theorem keeps_setNum (p : Page) (off v : Nat) (hk : Keeps s₀ s) : Keeps s₀ (State.setNum s p off v) := by
  unfold State.setNum; simp (maxDischargeDepth := 50) [hk]

@[simp] theorem keeps_setField (p : Page) (off lo w x : Nat) (hk : Keeps s₀ s) : Keeps s₀ (State.setField s p off lo w x) := by
  unfold State.setField; simp (maxDischargeDepth := 50) [hk]

@[simp] theorem keeps_setBit (p : Page) (off i : Nat) (b : Bool) (hk : Keeps s₀ s) : Keeps s₀ (State.setBit s p off i b) := by
  unfold State.setBit; simp (maxDischargeDepth := 50) [hk]

@[simp] theorem keeps_note (p : Page) (off add set : Nat) (hk : Keeps s₀ s) : Keeps s₀ (State.note s p off add set) := by
  unfold State.note; simp (maxDischargeDepth := 50) [hk]

@[simp] theorem keeps_addSat (p : Page) (off n : Nat) (hk : Keeps s₀ s) : Keeps s₀ (State.addSat s p off n) := by
  unfold State.addSat; simp (maxDischargeDepth := 50) [hk]

@[simp] theorem keeps_addWrap (p : Page) (off n : Nat) (hk : Keeps s₀ s) : Keeps s₀ (State.addWrap s p off n) := by
  unfold State.addWrap; simp (maxDischargeDepth := 50) [hk]

@[simp] theorem keeps_setNum64 (p : Page) (lo hi v : Nat) (hk : Keeps s₀ s) : Keeps s₀ (State.setNum64 s p lo hi v) := by
  unfold State.setNum64; simp (maxDischargeDepth := 50) [hk]

@[simp] theorem keeps_setQueue (q n : Nat) (x : Queue) (hk : Keeps s₀ s) : Keeps s₀ (State.setQueue s q n x) := by
  unfold State.setQueue; simp (maxDischargeDepth := 50) [hk]

@[simp] theorem keeps_setArray (q p a : Nat) (x : ArrayState) (hk : Keeps s₀ s) : Keeps s₀ (State.setArray s q p a x) := by
  unfold State.setArray; simp (maxDischargeDepth := 50) [hk]

@[simp] theorem keeps_setMangles (q : Nat) (x : Mangles) (hk : Keeps s₀ s) : Keeps s₀ (State.setMangles s q x) := by
  unfold State.setMangles; simp (maxDischargeDepth := 50) [hk]

@[simp] theorem keeps_setFold (x : FoldSched) (hk : Keeps s₀ s) : Keeps s₀ (State.setFold s x) := by
  unfold State.setFold; simp (maxDischargeDepth := 50) [hk]

@[simp] theorem keeps_setJournal (q : Nat) (x : Journal) (hk : Keeps s₀ s) : Keeps s₀ (State.setJournal s q x) := by
  unfold State.setJournal; simp (maxDischargeDepth := 50) [hk]

@[simp] theorem keeps_setStack (q slot : Nat) (x : Stack) (hk : Keeps s₀ s) : Keeps s₀ (State.setStack s q slot x) := by
  unfold State.setStack; simp (maxDischargeDepth := 50) [hk]

@[simp] theorem keeps_setIsland (q i c : Nat) (hk : Keeps s₀ s) : Keeps s₀ (State.setIsland s q i c) := by
  unfold State.setIsland; simp (maxDischargeDepth := 50) [hk]

@[simp] theorem keeps_retire (q : Nat) (hk : Keeps s₀ s) : Keeps s₀ (State.retire s q) := by
  unfold State.retire; simp (maxDischargeDepth := 50) [hk]

@[simp] theorem keeps_journalAdd (e : JEntry) (hk : Keeps s₀ s) : Keeps s₀ (State.journalAdd s e) := by
  unfold State.journalAdd; simp (maxDischargeDepth := 50) [hk]

@[simp] theorem keeps_journalled (o : Origin) (p : Page) (off : Nat) (v : Word) (hk : Keeps s₀ s) :
    Keeps s₀ (State.journalled s o p off v) := by
  unfold State.journalled; simp (maxDischargeDepth := 50) [hk]

@[simp] theorem keeps_emitAt (o : Out) (at_ : Nat) (hk : Keeps s₀ s) : Keeps s₀ (s.emitAt o at_) :=
  ⟨hk.pending, hk.now, hk.free, hk.out.trans (List.prefix_append _ _), hk.outAt.trans (List.prefix_append _ _), hk.sound⟩


@[simp] theorem keeps_emit (o : Out) (hk : Keeps s₀ s) : Keeps s₀ (State.emit s o) := by
  unfold State.emit; simp (maxDischargeDepth := 50) [hk]

/-! ## Flags -/

@[simp] theorem keeps_placeAlarm (p : Page) (bit : Nat) (forced : Bool) (hk : Keeps s₀ s) :
    Keeps s₀ (State.placeAlarm s p bit forced).1 := by
  unfold State.placeAlarm; simp only []; (repeat' split) <;> simp (maxDischargeDepth := 50) [hk]

@[simp] theorem keeps_setEvent (p : Page) (bit : Nat) (forced : Bool) (hk : Keeps s₀ s) :
    Keeps s₀ (State.setEvent s p bit forced).1 := by
  unfold State.setEvent; simp (maxDischargeDepth := 50) [hk]

@[simp] theorem keeps_setEvents (p : Page) (bit : Nat) (forced : Bool) (hk : Keeps s₀ s) :
    Keeps s₀ (State.setEvents s p bit forced) := by
  unfold State.setEvents; simp (maxDischargeDepth := 50) [hk]

@[simp] theorem keeps_raise (p : Page) (bit : Nat) (hk : Keeps s₀ s) : Keeps s₀ (State.raise s p bit) := by
  unfold State.raise; simp (maxDischargeDepth := 50) [hk]

@[simp] theorem keeps_raiseAll (p : Page) (bits : List Nat) (hk : Keeps s₀ s) : Keeps s₀ (State.raiseAll s p bits) := by
  unfold State.raiseAll; simp (maxDischargeDepth := 50) [hk]

@[simp] theorem keeps_raiseIf (c : Bool) (p : Page) (bit : Nat) (hk : Keeps s₀ s) : Keeps s₀ (State.raiseIf s c p bit) := by
  unfold State.raiseIf; simp (maxDischargeDepth := 50) [hk]

@[simp] theorem keeps_traceEvent (q n event code tag : Nat) (hk : Keeps s₀ s) : Keeps s₀ (State.traceEvent s q n event code tag) := by
  unfold State.traceEvent; simp (maxDischargeDepth := 50) [hk]

/-! ## Leases -/

@[simp] theorem keeps_setLease (n : Nat) (l : Lease) (hk : Keeps s₀ s) : Keeps s₀ (State.setLease s n l) := by
  unfold State.setLease; simp (maxDischargeDepth := 50) [hk]

/-! ## MemOps -/

@[simp] theorem keeps_setEcc (c v : Nat) (hk : Keeps s₀ s) : Keeps s₀ (State.setEcc s c v) := by
  unfold State.setEcc; simp (maxDischargeDepth := 50) [hk]

@[simp] theorem keeps_upset (flips : List (Nat × Nat)) (hk : Keeps s₀ s) : Keeps s₀ (State.upset s flips) := by
  unfold State.upset; simp (maxDischargeDepth := 50) [hk]

@[simp] theorem keeps_absorb (c : Nat) (hk : Keeps s₀ s) : Keeps s₀ (s.absorb c) := by
  unfold State.absorb
  exact keeps_ite (fun _ => hk) (fun _ => keeps_setEcc _ _ (keeps_mem hk (fun h => memPut_wf _ _ _ h)))


@[simp] theorem keeps_softRepair (a : Nat) (hk : Keeps s₀ s) : Keeps s₀ (State.softRepair s a) := by
  unfold State.softRepair; simp only []; split <;> simp (maxDischargeDepth := 50) [hk]

@[simp] theorem keeps_stackCe (p : StackPlace) (line c way j e : Nat) (queue : Bool) (hk : Keeps s₀ s) :
    Keeps s₀ (State.stackCe s p line c way j e queue) := by
  unfold State.stackCe; simp (maxDischargeDepth := 50) [hk]

@[simp] theorem keeps_stackUe (p : StackPlace) (line c cw : Nat) (rewrite : Bool) (hk : Keeps s₀ s) :
    Keeps s₀ (State.stackUe s p line c cw rewrite) := by
  unfold State.stackUe; simp (maxDischargeDepth := 50) [hk]

@[simp] theorem keeps_noteCodewordBy (cw : Nat) (way : Option Nat) (queue : Bool) (hk : Keeps s₀ s) :
    Keeps s₀ (State.noteCodewordBy s cw way queue) := by
  unfold State.noteCodewordBy; simp only []; (repeat' split) <;> simp (maxDischargeDepth := 50) [hk]

@[simp] theorem keeps_settleCodeword (way : Option Nat) (c cover : Nat) (merge : Bool) (hk : Keeps s₀ s) :
    Keeps s₀ (State.settleCodeword s way c cover merge) := by
  unfold State.settleCodeword; simp only []; (repeat' split) <;> simp (maxDischargeDepth := 50) [hk]

@[simp] theorem keeps_settleLine (way : Option Nat) (line : Nat) (cover : Nat → Nat) (hk : Keeps s₀ s) :
    Keeps s₀ (State.settleLine s way line cover) := by
  unfold State.settleLine; simp (maxDischargeDepth := 50) [hk]

@[simp] theorem keeps_dropWriteBacks (a n : Nat) (hk : Keeps s₀ s) : Keeps s₀ (State.dropWriteBacks s a n) := by
  unfold State.dropWriteBacks; simp only []; (repeat' split) <;> simp (maxDischargeDepth := 50) [hk]

@[simp] theorem keeps_writeLanes (way : Option Nat) (line : Nat) (ws : List (Nat × Byte)) (hk : Keeps s₀ s) :
    Keeps s₀ (s.writeLanes way line ws) := by
  unfold State.writeLanes
  simp only []
  refine keeps_mem (keeps_settleLine _ _ _ (keeps_foldl _ (fun t c => keeps_ite (fun _ => .refl t) (fun _ => by simp)) hk)) (fun h => ?_)
  generalize State.mem _ = m at h ⊢
  induction ws generalizing m with
  | nil => exact h
  | cons w ws ih => exact ih _ (mapSet_wf _ _ _ _ h)


@[simp] theorem keeps_noteLine (line : Nat) (way : Option Nat) (hk : Keeps s₀ s) : Keeps s₀ (State.noteLine s line way) := by
  unfold State.noteLine; simp (maxDischargeDepth := 50) [hk]

@[simp] theorem keeps_performReq (r : MemReq) (hk : Keeps s₀ s) : Keeps s₀ (State.performReq s r) := by
  unfold State.performReq; (repeat' split) <;> simp (maxDischargeDepth := 50) [hk]

@[simp] theorem keeps_flushLine (line : Nat) (hk : Keeps s₀ s) : Keeps s₀ (State.flushLine s line) := by
  unfold State.flushLine; simp only []; split <;> simp (maxDischargeDepth := 50) [hk]

@[simp] theorem keeps_flush (a n : Nat) (hk : Keeps s₀ s) : Keeps s₀ (State.flush s a n) := by
  unfold State.flush; simp (maxDischargeDepth := 50) [hk]

@[simp] theorem keeps_lineAccess (via : Option (Nat × Nat)) (write merge : Bool) (line : Nat) (hk : Keeps s₀ s) :
    Keeps s₀ (State.lineAccess s via write merge line).1 := by
  unfold State.lineAccess; simp only []; split <;> simp (maxDischargeDepth := 50) [hk]

@[simp] theorem keeps_noteReadBy (via : Option (Nat × Nat)) (a n : Nat) (hk : Keeps s₀ s) : Keeps s₀ (State.noteReadBy s via a n) := by
  unfold State.noteReadBy; simp (maxDischargeDepth := 50) [hk]

@[simp] theorem keeps_noteRead (a n : Nat) (hk : Keeps s₀ s) : Keeps s₀ (State.noteRead s a n) := by
  unfold State.noteRead; simp (maxDischargeDepth := 50) [hk]

@[simp] theorem keeps_writeBytesBy (ways : List (Nat × Option Nat)) (a : Nat) (bs : List Byte) (hk : Keeps s₀ s) :
    Keeps s₀ (s.writeBytesBy ways a bs) := by
  unfold State.writeBytesBy
  simp only []
  have g := keeps_foldl (f := fun (t : State) l => t.settleLine (mapGet (fun _ => none) ways l) l (fun i =>
    min (a + bs.length) (l + 16 * i + 16) - max a (l + 16 * i))) (linesOf a bs.length) (fun t l => by simp) (keeps_flush a bs.length hk)
  have g2 := keeps_dropWriteBacks a bs.length g
  exact ⟨g2.pending, g2.now, g2.free, g2.out, g2.outAt, fun k => ⟨memPut_wf _ _ _ (g.sound k).1, (g2.sound k).2⟩⟩


@[simp] theorem keeps_writeBytes (a : Nat) (bs : List Byte) (hk : Keeps s₀ s) : Keeps s₀ (State.writeBytes s a bs) := by
  unfold State.writeBytes; simp (maxDischargeDepth := 50) [hk]

@[simp] theorem keeps_writeNat (a n v : Nat) (hk : Keeps s₀ s) : Keeps s₀ (State.writeNat s a n v) := by
  unfold State.writeNat; simp (maxDischargeDepth := 50) [hk]

@[simp] theorem keeps_markPoison (a : Nat) (bs : List (Byte × Bool)) (hk : Keeps s₀ s) : Keeps s₀ (State.markPoison s a bs) := by
  unfold State.markPoison; simp (maxDischargeDepth := 50) [hk]

@[simp] theorem keeps_storeMarked (a : Nat) (bs : List (Byte × Bool)) (hk : Keeps s₀ s) : Keeps s₀ (State.storeMarked s a bs) := by
  unfold State.storeMarked; simp (maxDischargeDepth := 50) [hk]

@[simp] theorem keeps_countWrites (via : Option (Nat × Nat)) (a n : Nat) (hk : Keeps s₀ s) :
    Keeps s₀ (State.countWrites s via a n).1 := by
  unfold State.countWrites; simp (maxDischargeDepth := 50) [hk]

@[simp] theorem keeps_writeMarkedBy (via : Option (Nat × Nat)) (a : Nat) (bs : List (Byte × Bool)) (hk : Keeps s₀ s) :
    Keeps s₀ (State.writeMarkedBy s via a bs) := by
  unfold State.writeMarkedBy; (repeat' split) <;> simp (maxDischargeDepth := 50) [hk]

@[simp] theorem keeps_writeMarked (a : Nat) (bs : List (Byte × Bool)) (hk : Keeps s₀ s) : Keeps s₀ (State.writeMarked s a bs) := by
  unfold State.writeMarked; simp (maxDischargeDepth := 50) [hk]

@[simp] theorem keeps_noteAddrError (a : Nat) (hk : Keeps s₀ s) : Keeps s₀ (State.noteAddrError s a) := by
  unfold State.noteAddrError; simp (maxDischargeDepth := 50) [hk]

/-! ## Time -/

@[simp] theorem keeps_countLag (n : Nat) (hk : Keeps s₀ s) : Keeps s₀ (State.countLag s n) := by
  unfold State.countLag; simp (maxDischargeDepth := 50) [hk]

@[simp] theorem keeps_countArrays (n : Nat) (hk : Keeps s₀ s) : Keeps s₀ (State.countArrays s n) := by
  unfold State.countArrays; simp (maxDischargeDepth := 50) [hk]

@[simp] theorem keeps_raiseSpills (a : Nat) (hk : Keeps s₀ s) : Keeps s₀ (State.raiseSpills s a) := by
  unfold State.raiseSpills; simp (maxDischargeDepth := 50) [hk]

@[simp] theorem keeps_closeEntries (n : Nat) (hk : Keeps s₀ s) : Keeps s₀ (State.closeEntries s n) := by
  unfold State.closeEntries; simp (maxDischargeDepth := 50) [hk]



/-! ## Operands -/

@[simp] theorem keeps_putRow16 (a : Nat) (codes : List (Option Nat)) (hk : Keeps s₀ s) : Keeps s₀ (s.putRow16 a codes) := by
  unfold State.putRow16
  split
  · simp [hk]
  · exact keeps_foldl _ (fun t p => by split <;> simp) hk


@[simp] theorem keeps_putBlock (f : Fmt) (len elemBase scaleBase b : Nat) (o : BlockOut) (hk : Keeps s₀ s) :
    Keeps s₀ (State.putBlock s f len elemBase scaleBase b o) := by
  unfold State.putBlock; simp (maxDischargeDepth := 50) [hk]

/-! ## Checks2 -/

@[simp] theorem keeps_noteProgram (q n : Nat) (d : Desc) (hk : Keeps s₀ s) : Keeps s₀ (State.noteProgram s q n d) := by
  unfold State.noteProgram; simp (maxDischargeDepth := 50) [hk]

/-! ## FaultOps -/

@[simp] theorem keeps_faultRecord (kind quarter unit subject detail : Nat) (hk : Keeps s₀ s) :
    Keeps s₀ (State.faultRecord s kind quarter unit subject detail) := by
  unfold State.faultRecord; simp (maxDischargeDepth := 50) [hk]

@[simp] theorem keeps_fault (kind quarter unit subject detail bit : Nat) (hk : Keeps s₀ s) :
    Keeps s₀ (State.fault s kind quarter unit subject detail bit) := by
  unfold State.fault; simp (maxDischargeDepth := 50) [hk]

@[simp] theorem keeps_putWrite (owner : Option (Nat × Nat × Nat)) (a : Nat) (bs : List (Byte × Bool)) (hk : Keeps s₀ s) :
    Keeps s₀ (State.putWrite s owner a bs) := by
  unfold State.putWrite; simp (maxDischargeDepth := 50) [hk]

@[simp] theorem keeps_memWrite (owner : Option (Nat × Nat × Nat)) (a : Nat) (bs : List (Byte × Bool)) (hk : Keeps s₀ s) :
    Keeps s₀ (State.memWrite s owner a bs) := by
  unfold State.memWrite; simp (maxDischargeDepth := 50) [hk]

@[simp] theorem keeps_memPutBytes (owner : Option (Nat × Nat × Nat)) (a : Nat) (bs : List Byte) (hk : Keeps s₀ s) :
    Keeps s₀ (State.memPutBytes s owner a bs) := by
  unfold State.memPutBytes; simp (maxDischargeDepth := 50) [hk]

@[simp] theorem keeps_ownWrite (a n v : Nat) (hk : Keeps s₀ s) : Keeps s₀ (State.ownWrite s a n v) := by
  unfold State.ownWrite; simp (maxDischargeDepth := 50) [hk]

/-! ## FabricOps -/

@[simp] theorem keeps_setPort (q d : Nat) (x : Port) (hk : Keeps s₀ s) : Keeps s₀ (State.setPort s q d x) := by
  unfold State.setPort; simp (maxDischargeDepth := 50) [hk]

@[simp] theorem keeps_setPod (x : Pod) (hk : Keeps s₀ s) : Keeps s₀ (State.setPod s x) := by
  unfold State.setPod; simp (maxDischargeDepth := 50) [hk]

@[simp] theorem keeps_putFrame (q d : Nat) (f : Frame) (at_ : Nat) (owe : Option (Nat × Nat × Nat × Nat)) (hk : Keeps s₀ s) :
    Keeps s₀ (State.putFrame s q d f at_ owe) := by
  unfold State.putFrame; simp (maxDischargeDepth := 50) [hk]

@[simp] theorem keeps_routeAt (f : Frame) (travel : Option Nat) (at_ : Nat) (owe : Option (Nat × Nat × Nat × Nat)) (hk : Keeps s₀ s) :
    Keeps s₀ (State.routeAt s f travel at_ owe).1 := by
  unfold State.routeAt; simp only []; split <;> simp (maxDischargeDepth := 50) [hk]

@[simp] theorem keeps_route (f : Frame) (travel : Option Nat) (hk : Keeps s₀ s) : Keeps s₀ (State.route s f travel).1 := by
  unfold State.route; (repeat' split) <;> simp (maxDischargeDepth := 50) [hk]

@[simp] theorem keeps_sendAt (vl q dst : Nat) (b : Body) (at_ : Nat) (hk : Keeps s₀ s) : Keeps s₀ (State.sendAt s vl q dst b at_) := by
  unfold State.sendAt; simp (maxDischargeDepth := 50) [hk]

@[simp] theorem keeps_sendTo (vl q dst : Nat) (b : Body) (hk : Keeps s₀ s) : Keeps s₀ (State.sendTo s vl q dst b) := by
  unfold State.sendTo; simp (maxDischargeDepth := 50) [hk]

@[simp] theorem keeps_sendId (vl id : Nat) (b : Body) (hk : Keeps s₀ s) : Keeps s₀ (State.sendId s vl id b) := by
  unfold State.sendId; simp (maxDischargeDepth := 50) [hk]

@[simp] theorem keeps_sendOn (q d vl : Nat) (b : Body) (hk : Keeps s₀ s) : Keeps s₀ (State.sendOn s q d vl b) := by
  unfold State.sendOn; simp (maxDischargeDepth := 50) [hk]

@[simp] theorem keeps_setMigQp (q site : Nat) (x : MigQp) (hk : Keeps s₀ s) : Keeps s₀ (State.setMigQp s q site x) := by
  unfold State.setMigQp; simp (maxDischargeDepth := 50) [hk]

@[simp] theorem keeps_toSite (vl q dst : Nat) (b : Body) (hk : Keeps s₀ s) : Keeps s₀ (State.toSite s vl q dst b) := by
  unfold State.toSite; simp (maxDischargeDepth := 50) [hk]

@[simp] theorem keeps_sendSig (vl q a counter quarter : Nat) (apply : State → State) (ha : ∀ t, Keeps t (apply t)) (hk : Keeps s₀ s) :
    Keeps s₀ (s.sendSig vl q a counter quarter apply) := by
  unfold State.sendSig
  split
  · exact hk.trans (ha s)
  all_goals simp [hk]


@[simp] theorem keeps_treeSend (i : Nat) (h : TreeHdr) (m : TreeMsg) (hk : Keeps s₀ s) : Keeps s₀ (State.treeSend s i h m) := by
  unfold State.treeSend; simp (maxDischargeDepth := 50) [hk]

@[simp] theorem keeps_treeUp (h : TreeHdr) (m : TreeMsg) (hk : Keeps s₀ s) : Keeps s₀ (State.treeUp s h m) := by
  unfold State.treeUp; (repeat' split) <;> simp (maxDischargeDepth := 50) [hk]

@[simp] theorem keeps_treeDown (h : TreeHdr) (m : TreeMsg) (hk : Keeps s₀ s) : Keeps s₀ (State.treeDown s h m) := by
  unfold State.treeDown; simp (maxDischargeDepth := 50) [hk]

@[simp] theorem keeps_newSeg (q n seq index : Nat) (kind : SegKind) (vl : Nat) (t : Target) (b : Nat → Body) (hk : Keeps s₀ s) :
    Keeps s₀ (State.newSeg s q n seq index kind vl t b) := by
  unfold State.newSeg; simp only []; split <;> simp (maxDischargeDepth := 50) [hk]

@[simp] theorem keeps_dropSeg (id : Nat) (hk : Keeps s₀ s) : Keeps s₀ (State.dropSeg s id) := by
  unfold State.dropSeg; simp (maxDischargeDepth := 50) [hk]

@[simp] theorem keeps_answerRelays (hk : Keeps s₀ s) : Keeps s₀ (State.answerRelays s) := by
  unfold State.answerRelays; simp (maxDischargeDepth := 50) [hk]

@[simp] theorem keeps_answerSeg (id code : Nat) (bs : List (Byte × Bool)) (due : Nat) (hk : Keeps s₀ s) :
    Keeps s₀ (State.answerSeg s id code bs due) := by
  unfold State.answerSeg; simp (maxDischargeDepth := 50) [hk]

@[simp] theorem keeps_failSegsTo (chip : Nat) (hk : Keeps s₀ s) : Keeps s₀ (State.failSegsTo s chip) := by
  unfold State.failSegsTo; simp (maxDischargeDepth := 50) [hk]

@[simp] theorem keeps_sendCtrl (q d : Nat) (nak : Option Nat) (hk : Keeps s₀ s) : Keeps s₀ (State.sendCtrl s q d nak) := by
  unfold State.sendCtrl; simp (maxDischargeDepth := 50) [hk]

@[simp] theorem keeps_wire (q d lseq : Nat) (f : Frame) (hk : Keeps s₀ s) : Keeps s₀ (State.wire s q d lseq f) := by
  unfold State.wire; simp (maxDischargeDepth := 50) [hk]

@[simp] theorem keeps_directionLost (q d : Nat) (hk : Keeps s₀ s) : Keeps s₀ (State.directionLost s q d) := by
  unfold State.directionLost; simp only []; (repeat' split) <;> simp (maxDischargeDepth := 50) [hk]

@[simp] theorem keeps_parkIfFlapping (q d : Nat) (hk : Keeps s₀ s) : Keeps s₀ (State.parkIfFlapping s q d) := by
  unfold State.parkIfFlapping; simp (maxDischargeDepth := 50) [hk]

@[simp] theorem keeps_linkDown (q d : Nat) (hk : Keeps s₀ s) : Keeps s₀ (State.linkDown s q d) := by
  unfold State.linkDown; simp (maxDischargeDepth := 50) [hk]

@[simp] theorem keeps_resendFrom (q d from_ : Nat) (hk : Keeps s₀ s) : Keeps s₀ (State.resendFrom s q d from_) := by
  unfold State.resendFrom; simp (maxDischargeDepth := 50) [hk]

@[simp] theorem keeps_rxHeader (h : RxHdr) (hk : Keeps s₀ s) : Keeps s₀ (State.rxHeader s h) := by
  unfold State.rxHeader; simp (maxDischargeDepth := 50) [hk]

@[simp] theorem keeps_oweCredits (q d vl cls n : Nat) (hk : Keeps s₀ s) : Keeps s₀ (State.oweCredits s q d vl cls n) := by
  unfold State.oweCredits; simp (maxDischargeDepth := 50) [hk]

@[simp] theorem keeps_holdBuffer (q d vl cls n : Nat) (hk : Keeps s₀ s) : Keeps s₀ (State.holdBuffer s q d vl cls n) := by
  unfold State.holdBuffer; simp (maxDischargeDepth := 50) [hk]

@[simp] theorem keeps_noteFec (h : RxHdr) (hk : Keeps s₀ s) : Keeps s₀ (State.noteFec s h) := by
  unfold State.noteFec; simp (maxDischargeDepth := 50) [hk]

@[simp] theorem keeps_nakGap (q d : Nat) (hk : Keeps s₀ s) : Keeps s₀ (State.nakGap s q d) := by
  unfold State.nakGap; simp (maxDischargeDepth := 50) [hk]

@[simp] theorem keeps_forward (h : RxHdr) (b : Body) (hk : Keeps s₀ s) : Keeps s₀ (State.forward s h b) := by
  unfold State.forward; simp (maxDischargeDepth := 50) [hk]

@[simp] theorem keeps_receive (h : RxHdr) (b : Body) (hop : Bool) (hk : Keeps s₀ s) : Keeps s₀ (State.receive s h b hop).1 := by
  unfold State.receive; simp (maxDischargeDepth := 50) [hk]

@[simp] theorem keeps_newTerm (term : Nat) (hk : Keeps s₀ s) : Keeps s₀ (State.newTerm s term) := by
  unfold State.newTerm; simp (maxDischargeDepth := 50) [hk]

@[simp] theorem keeps_receiveTree (h : RxHdr) (t : TreeHdr) (m : TreeMsg) (hk : Keeps s₀ s) :
    Keeps s₀ (State.receiveTree s h t m).1 := by
  unfold State.receiveTree; simp (maxDischargeDepth := 50) [hk]

/-! ## Mends -/

@[simp] theorem keeps_report (kind subject value : Nat) (atLead : State → State) (ha : ∀ t, Keeps t (atLead t)) (hk : Keeps s₀ s) :
    Keeps s₀ (s.report kind subject value atLead) := by
  unfold State.report
  split
  · exact hk.trans (ha s)
  · simp [hk]


@[simp] theorem keeps_nameHolder (holder : Nat) (hk : Keeps s₀ s) : Keeps s₀ (State.nameHolder s holder) := by
  unfold State.nameHolder; simp only []; split <;> simp (maxDischargeDepth := 50) [hk]

@[simp] theorem keeps_askHolder (page : Nat) (hk : Keeps s₀ s) : Keeps s₀ (s.askHolder page) := by
  unfold State.askHolder
  refine keeps_report _ _ _ _ (fun t => ?_) (by simp [hk])
  split <;> simp


@[simp] theorem keeps_startMends (hk : Keeps s₀ s) : Keeps s₀ s.startMends := by
  unfold State.startMends
  refine keeps_foldl _ (fun t a => ?_) (by simp [hk])
  split
  · simp
  · simp only []; split <;> simp


/-! ## QueueOps -/

@[simp] theorem keeps_setCounter (q k v : Nat) (hk : Keeps s₀ s) : Keeps s₀ (State.setCounter s q k v) := by
  unfold State.setCounter; simp (maxDischargeDepth := 50) [hk]

@[simp] theorem keeps_replaceCounter (q k v : Nat) (hk : Keeps s₀ s) : Keeps s₀ (State.replaceCounter s q k v) := by
  unfold State.replaceCounter; simp (maxDischargeDepth := 50) [hk]

@[simp] theorem keeps_phaseStart (p : Nat) (hk : Keeps s₀ s) : Keeps s₀ (State.phaseStart s p) := by
  unfold State.phaseStart; simp (maxDischargeDepth := 50) [hk]

@[simp] theorem keeps_phaseEnd (p : Nat) (hk : Keeps s₀ s) : Keeps s₀ (State.phaseEnd s p) := by
  unfold State.phaseEnd; simp (maxDischargeDepth := 50) [hk]

@[simp] theorem keeps_markPhase (hk : Keeps s₀ s) : Keeps s₀ (State.markPhase s) := by
  unfold State.markPhase; simp (maxDischargeDepth := 50) [hk]

@[simp] theorem keeps_incCounter (q k n : Nat) (hk : Keeps s₀ s) : Keeps s₀ (State.incCounter s q k n) := by
  unfold State.incCounter; simp (maxDischargeDepth := 50) [hk]

@[simp] theorem keeps_refuse (q n code tag : Nat) (poison : Bool) (h : Halt) (hk : Keeps s₀ s) :
    Keeps s₀ (State.refuse s q n code tag poison h) := by
  unfold State.refuse; simp (maxDischargeDepth := 50) [hk]

@[simp] theorem keeps_refuseFetched (q n code : Nat) (d : Desc) (poison : Bool) (hk : Keeps s₀ s) :
    Keeps s₀ (State.refuseFetched s q n code d poison) := by
  unfold State.refuseFetched; simp (maxDischargeDepth := 50) [hk]

@[simp] theorem keeps_refuseStart (q n i code : Nat) (w : WinEntry) (poison : Bool) (hk : Keeps s₀ s) :
    Keeps s₀ (State.refuseStart s q n i code w poison) := by
  unfold State.refuseStart; simp (maxDischargeDepth := 50) [hk]

@[simp] theorem keeps_failRuntime (q n seq code : Nat) (hk : Keeps s₀ s) : Keeps s₀ (State.failRuntime s q n seq code) := by
  unfold State.failRuntime; simp only []; split <;> simp (maxDischargeDepth := 50) [hk]

@[simp] theorem keeps_drainFuel (k q n : Nat) (hk : Keeps s₀ s) : Keeps s₀ (State.drainFuel k q n s) := by
  induction k generalizing s with
  | zero => exact hk
  | succ k ih =>
    unfold State.drainFuel
    simp only []
    repeat' split
    all_goals first | exact hk | exact ih (by simp [hk]) | simp [hk]


@[simp] theorem keeps_claimNext (q n : Nat) (hk : Keeps s₀ s) : Keeps s₀ (State.claimNext s q n) := by
  unfold State.claimNext; simp only []; split <;> simp (maxDischargeDepth := 50) [hk]

@[simp] theorem keeps_dropClaim (q n : Nat) (hk : Keeps s₀ s) : Keeps s₀ (State.dropClaim s q n) := by
  unfold State.dropClaim; simp (maxDischargeDepth := 50) [hk]

@[simp] theorem keeps_drain (q n : Nat) (hk : Keeps s₀ s) : Keeps s₀ (s.drain q n) := by
  unfold State.drain; simp [hk]


@[simp] theorem keeps_skipEntries (q n : Nat) (p : WinEntry → Bool) (hk : Keeps s₀ s) : Keeps s₀ (State.skipEntries s q n p) := by
  unfold State.skipEntries; simp (maxDischargeDepth := 50) [hk]

@[simp] theorem keeps_resume (q n : Nat) (hk : Keeps s₀ s) : Keeps s₀ (State.resume s q n) := by
  unfold State.resume; simp only []; split <;> simp (maxDischargeDepth := 50) [hk]

@[simp] theorem keeps_retry (q n : Nat) (hk : Keeps s₀ s) : Keeps s₀ (State.retry s q n) := by
  unfold State.retry; simp (maxDischargeDepth := 50) [hk]

@[simp] theorem keeps_skipWaiting (q n : Nat) (hk : Keeps s₀ s) : Keeps s₀ (State.skipWaiting s q n) := by
  unfold State.skipWaiting; simp (maxDischargeDepth := 50) [hk]

@[simp] theorem keeps_setEntry (q n i : Nat) (w : WinEntry) (hk : Keeps s₀ s) : Keeps s₀ (State.setEntry s q n i w) := by
  unfold State.setEntry; simp (maxDischargeDepth := 50) [hk]

@[simp] theorem keeps_openRound (n : Nat) (d : Desc) (hk : Keeps s₀ s) : Keeps s₀ (State.openRound s n d) := by
  unfold State.openRound; simp (maxDischargeDepth := 50) [hk]

@[simp] theorem keeps_startEntry (q n i : Nat) (w : WinEntry) (hk : Keeps s₀ s) : Keeps s₀ (State.startEntry s q n i w) := by
  unfold State.startEntry; simp (maxDischargeDepth := 50) [hk]

@[simp] theorem keeps_finishEntry (q n i at_ : Nat) (hk : Keeps s₀ s) : Keeps s₀ (State.finishEntry s q n i at_) := by
  unfold State.finishEntry; (repeat' split) <;> simp (maxDischargeDepth := 50) [hk]

/-! ## Queues -/

@[simp] theorem keeps_foldArrive (q : Nat) (a : FoldArrival) (hk : Keeps s₀ s) : Keeps s₀ (State.foldArrive s q a) := by
  unfold State.foldArrive; simp (maxDischargeDepth := 50) [hk]

@[simp] theorem keeps_foldPerform (r : FoldReq) (hk : Keeps s₀ s) : Keeps s₀ (State.foldPerform s r) := by
  unfold State.foldPerform; simp only []; split <;> simp (maxDischargeDepth := 50) [hk]

@[simp] theorem keeps_consumeControl (q n : Nat) (hk : Keeps s₀ s) : Keeps s₀ (State.consumeControl s q n) := by
  unfold State.consumeControl; simp (maxDischargeDepth := 50) [hk]

@[simp] theorem keeps_countSignal (q n : Nat) (w : WinEntry) (hk : Keeps s₀ s) : Keeps s₀ (State.countSignal s q n w) := by
  unfold State.countSignal; simp (maxDischargeDepth := 50) [hk]

/-! ## TileOps -/

@[simp] theorem keeps_putTile (q : Nat) (d : Desc) (out : List (List (Option Conv))) (hk : Keeps s₀ s) :
    Keeps s₀ (State.putTile s q d out) := by
  unfold State.putTile; simp (maxDischargeDepth := 50) [hk]

/-! ## Arrays -/

@[simp] theorem keeps_markOverlaps (q k : Nat) (out : List (Nat × Nat)) (hk : Keeps s₀ s) : Keeps s₀ (s.markOverlaps q k out) := by
  have g := keeps_free (2 ^ 33) hk
  exact ⟨g.pending, g.now, g.free, g.out, g.outAt, g.sound⟩


/-! ## Vector -/

@[simp] theorem keeps_noteConvs (p : Page) (cs : List Conv) (hk : Keeps s₀ s) : Keeps s₀ (State.noteConvs s p cs) := by
  unfold State.noteConvs; simp (maxDischargeDepth := 50) [hk]

@[simp] theorem keeps_engineReads (p : Page) (l : List (Nat × Nat)) (hk : Keeps s₀ s) : Keeps s₀ (State.engineReads s p l) := by
  unfold State.engineReads; simp (maxDischargeDepth := 50) [hk]

@[simp] theorem keeps_vecDoRow (q : Nat) (d : Desc) (key : DrawKey) (page : Page) (r : Nat) (hk : Keeps s₀ s) :
    Keeps s₀ (State.vecDoRow s q d key page r).1 := by
  unfold State.vecDoRow; simp (maxDischargeDepth := 50) [hk]

@[simp] theorem keeps_addGrads (q off : Nat) (d : Desc) (page : Page) (sums : List Machine.Num) (hk : Keeps s₀ s) :
    Keeps s₀ (s.addGrads q off d page sums) := by
  unfold State.addGrads
  refine keeps_noteConvs _ _ ?_
  have g := fun cs => keeps_putRow16 (foldBase q + off) cs hk
  exact ⟨(g _).pending, (g _).now, Nat.le_trans hk.free (Nat.le_add_right _ _), (g _).out, (g _).outAt, (g _).sound⟩


@[simp] theorem keeps_runVec (q e : Nat) (kernels : List Nat) (flips : List (Nat × Nat)) (hk : Keeps s₀ s) :
    Keeps s₀ (s.runVec q e kernels flips) := by
  unfold State.runVec
  simp only []
  split
  · exact hk
  · split
    · exact hk
    · refine keeps_finishEntry _ _ _ _ ?_
      have g := fun (w : WinEntry) (page : Page) (key : DrawKey) (l : List Nat) (u : State) (hu : Keeps s₀ u) =>
        keeps_foldl_fst (s₀ := s₀) (x := (u, ([] : List VecRow)))
          (f := fun a r => ((a.1.vecDoRow q w.desc key page r).1, a.2 ++ [(a.1.vecDoRow q w.desc key page r).2])) l
          (fun t r => keeps_vecDoRow q w.desc key page r (Keeps.refl _)) hu
      split <;> split
      · exact keeps_addGrads _ _ _ _ _ (keeps_addGrads _ _ _ _ _ (g _ _ _ _ _ (keeps_engineReads _ _ (keeps_startEntry _ _ _ _ (keeps_upset _ hk)))))
      · exact keeps_addGrads _ _ _ _ _ (g _ _ _ _ _ (keeps_engineReads _ _ (keeps_startEntry _ _ _ _ (keeps_upset _ hk))))
      · exact keeps_addGrads _ _ _ _ _ (g _ _ _ _ _ (keeps_engineReads _ _ (keeps_startEntry _ _ _ _ (keeps_upset _ hk))))
      · exact g _ _ _ _ _ (keeps_engineReads _ _ (keeps_startEntry _ _ _ _ (keeps_upset _ hk)))


/-! ## ConvOps -/

@[simp] theorem keeps_putConvRow (m : ConvMode) (elemBase scaleBase : Nat) (r : ConvRow) (hk : Keeps s₀ s) :
    Keeps s₀ (s.putConvRow m elemBase scaleBase r) := by
  unfold State.putConvRow
  split
  · exact keeps_foldl _ (fun t p => by split <;> simp) hk
  · simp [hk]


@[simp] theorem keeps_countBins (q sorter id : Nat) (bins : List Nat) (hk : Keeps s₀ s) :
    Keeps s₀ (State.countBins s q sorter id bins) := by
  unfold State.countBins; simp (maxDischargeDepth := 50) [hk]

@[simp] theorem keeps_mergeAmax (q id : Nat) (vs : List Machine.Num) (hk : Keeps s₀ s) : Keeps s₀ (s.mergeAmax q id vs) := by
  unfold State.mergeAmax
  exact keeps_ite (fun _ => by simp [hk]) (fun _ => hk)


/-! ## Convert -/

@[simp] theorem keeps_countConv (q e : Nat) (d : Desc) (rows : List ConvRow) (vals : List Machine.Num) (hk : Keeps s₀ s) :
    Keeps s₀ (s.countConv q e d rows vals) := by
  unfold State.countConv
  simp only []
  have g1 := keeps_raiseIf (rows.any ConvRow.nan) (qPage .ce q e) 2 (keeps_raiseIf (rows.any ConvRow.sat) (qPage .ce q e) 1 hk)
  have g2 : ∀ {t : State}, Keeps s₀ t → ∀ a b c (l : List Nat), Keeps s₀ (if db d 0 20 then t.countBins a b c l else t) :=
    fun h _ _ _ _ => keeps_ite (fun _ => keeps_countBins _ _ _ _ h) (fun _ => h)
  exact keeps_ite (fun _ => keeps_mergeAmax _ _ _ (g2 g1 ..)) (fun _ => g2 g1 ..)


@[simp] theorem keeps_addDigest (q g acc : Nat) (v : Nat) (hk : Keeps s₀ s) : Keeps s₀ (State.addDigest s q g acc v) := by
  unfold State.addDigest; simp (maxDischargeDepth := 50) [hk]

@[simp] theorem keeps_clearDigest (q g acc : Nat) (hk : Keeps s₀ s) : Keeps s₀ (State.clearDigest s q g acc) := by
  unfold State.clearDigest; simp (maxDischargeDepth := 50) [hk]

/-! ## Memory -/

@[simp] theorem keeps_takeRequest (p : StackPlace) (r : MemReq) (hk : Keeps s₀ s) : Keeps s₀ (State.takeRequest s p r) := by
  unfold State.takeRequest; simp (maxDischargeDepth := 50) [hk]

@[simp] theorem keeps_copyLine (line : Nat) (hk : Keeps s₀ s) : Keeps s₀ (s.copyLine line) := by
  unfold State.copyLine
  exact keeps_foldl _ (fun t i => by simp only []; split <;> simp) hk


@[simp] theorem keeps_rinseDo (q slot pc way : Nat) (flips : List (Nat × Nat)) (it : RinseItem) (hk : Keeps s₀ s) :
    Keeps s₀ (s.rinseDo q slot pc way flips it) := by
  cases it <;> simp only [State.rinseDo]
  case rewrite c => exact keeps_ite (fun _ => by simp [hk]) (fun _ => by simp [hk])
  case writeBack l => exact keeps_foldl _ (fun t i => by split <;> simp) (by simp [hk])
  case patrol l => (repeat' split) <;> simp (maxDischargeDepth := 50) [hk]
  all_goals simp [hk]


@[simp] theorem keeps_rinseWay (q slot pc turn way : Nat) (flips : List (Nat × Nat)) (hk : Keeps s₀ s) :
    Keeps s₀ (s.rinseWay q slot pc turn way flips) := by
  unfold State.rinseWay
  simp only []
  repeat' split
  all_goals simp [hk]


@[simp] theorem keeps_sparePin (q slot pc grp j : Nat) (hk : Keeps s₀ s) : Keeps s₀ (State.sparePin s q slot pc grp j) := by
  unfold State.sparePin; simp only []; split <;> simp (maxDischargeDepth := 50) [hk]

/-! ## Stream -/

@[simp] theorem keeps_hold (d : Desc) (a : Nat) (begin_ : Bool) (hk : Keeps s₀ s) : Keeps s₀ (State.hold s d a begin_) := by
  unfold State.hold; simp (maxDischargeDepth := 50) [hk]

@[simp] theorem keeps_tap (q : Nat) (d : Desc) (m : Moves) (i : Nat) (bs : List Byte) (hk : Keeps s₀ s) :
    Keeps s₀ (State.tap s q d m i bs) := by
  unfold State.tap; simp (maxDischargeDepth := 50) [hk]

@[simp] theorem keeps_readSource (q e : Nat) (d : Desc) (m : Moves) (i a n : Nat) (hk : Keeps s₀ s) :
    Keeps s₀ (State.readSource s q e d m i a n).1 := by
  unfold State.readSource; simp (maxDischargeDepth := 50) [hk]

@[simp] theorem keeps_sendSegment (q n : Nat) (w : WinEntry) (i dst : Nat) (bs : List (Byte × Bool)) (hk : Keeps s₀ s) :
    Keeps s₀ (State.sendSegment s q n w i dst bs) := by
  unfold State.sendSegment; simp (maxDischargeDepth := 50) [hk]

@[simp] theorem keeps_issueSegment (q e : Nat) (w : WinEntry) (i : Nat) (hk : Keeps s₀ s) :
    Keeps s₀ (State.issueSegment s q e w i) := by
  unfold State.issueSegment; simp only []; (repeat' split) <;> simp (maxDischargeDepth := 50) [hk]

@[simp] theorem keeps_issueFuel (k q e seq : Nat) (hk : Keeps s₀ s) : Keeps s₀ (State.issueFuel k q e seq s) := by
  induction k generalizing s with
  | zero => exact hk
  | succ k ih =>
    unfold State.issueFuel
    simp only []
    split
    · exact hk
    · refine keeps_ite (fun _ => hk) (fun _ => keeps_ite (fun _ => by simp [hk]) (fun _ => ih ?_))
      exact keeps_issueSegment _ _ _ _ (keeps_setEntry _ _ _ _ (keeps_setQueue _ _ _ hk))


@[simp] theorem keeps_settleStream (q e seq : Nat) (hk : Keeps s₀ s) : Keeps s₀ (State.settleStream s q e seq) := by
  unfold State.settleStream; simp only []; split <;> simp (maxDischargeDepth := 50) [hk]

@[simp] theorem keeps_runStream (q e op : Nat) (hk : Keeps s₀ s) : Keeps s₀ (s.runStream q e op) := by
  unfold State.runStream
  simp only []
  repeat' split
  all_goals simp (maxDischargeDepth := 50) [hk]


@[simp] theorem keeps_readUnder (k n : Nat) (hk : Keeps s₀ s) : Keeps s₀ (State.readUnder s k n) := by
  unfold State.readUnder; simp (maxDischargeDepth := 50) [hk]

@[simp] theorem keeps_streamWrite (q n seq lent a : Nat) (bs : List (Byte × Bool)) (hk : Keeps s₀ s) :
    Keeps s₀ (State.streamWrite s q n seq lent a bs).1 := by
  unfold State.streamWrite; simp (maxDischargeDepth := 50) [hk]

@[simp] theorem keeps_endSegment (q e seq i code : Nat) (hk : Keeps s₀ s) : Keeps s₀ (s.endSegment q e seq i code) := by
  unfold State.endSegment
  simp only []
  repeat' split
  all_goals simp (maxDischargeDepth := 50) [hk]


/-! ## Rounds -/

@[simp] theorem keeps_setSite (i state : Nat) (lagging : Bool) (hk : Keeps s₀ s) : Keeps s₀ (State.setSite s i state lagging) := by
  unfold State.setSite; simp (maxDischargeDepth := 50) [hk]

@[simp] theorem keeps_watchSite (i : Nat) (hk : Keeps s₀ s) : Keeps s₀ (State.watchSite s i) := by
  unfold State.watchSite; simp (maxDischargeDepth := 50) [hk]

@[simp] theorem keeps_resetSites (hk : Keeps s₀ s) : Keeps s₀ (State.resetSites s) := by
  unfold State.resetSites; simp (maxDischargeDepth := 50) [hk]

@[simp] theorem keeps_tickAll (k : Nat) (hk : Keeps s₀ s) : Keeps s₀ (State.tickAll s k) := by
  unfold State.tickAll; simp (maxDischargeDepth := 50) [hk]

@[simp] theorem keeps_formSet (hk : Keeps s₀ s) : Keeps s₀ (State.formSet s) := by
  unfold State.formSet; simp (maxDischargeDepth := 50) [hk]

@[simp] theorem keeps_takeReady (hk : Keeps s₀ s) : Keeps s₀ (State.takeReady s) := by
  unfold State.takeReady; simp (maxDischargeDepth := 50) [hk]

@[simp] theorem keeps_checkReady (hk : Keeps s₀ s) : Keeps s₀ (State.checkReady s) := by
  unfold State.checkReady; simp (maxDischargeDepth := 50) [hk]

@[simp] theorem keeps_movePtp (hk : Keeps s₀ s) : Keeps s₀ (State.movePtp s) := by
  unfold State.movePtp; simp (maxDischargeDepth := 50) [hk]

@[simp] theorem keeps_announce (hk : Keeps s₀ s) : Keeps s₀ s.announce := by
  unfold State.announce
  refine keeps_foldl _ (fun t q => ?_) hk
  split <;> simp


@[simp] theorem keeps_sendDgram (d : Dgram) (hk : Keeps s₀ s) : Keeps s₀ (State.sendDgram s d) := by
  unfold State.sendDgram; simp (maxDischargeDepth := 50) [hk]

@[simp] theorem keeps_sendRepeated (d : Dgram) (hk : Keeps s₀ s) : Keeps s₀ (State.sendRepeated s d) := by
  unfold State.sendRepeated; simp (maxDischargeDepth := 50) [hk]

@[simp] theorem keeps_joinSite (hk : Keeps s₀ s) : Keeps s₀ (State.joinSite s) := by
  unfold State.joinSite; simp (maxDischargeDepth := 50) [hk]

@[simp] theorem keeps_skipRound (hk : Keeps s₀ s) : Keeps s₀ (State.skipRound s) := by
  unfold State.skipRound; simp (maxDischargeDepth := 50) [hk]

@[simp] theorem keeps_finishRound (hk : Keeps s₀ s) : Keeps s₀ (State.finishRound s) := by
  unfold State.finishRound; simp (maxDischargeDepth := 50) [hk]

@[simp] theorem keeps_derive (jump : Bool) (hk : Keeps s₀ s) : Keeps s₀ (State.derive s jump) := by
  unfold State.derive; simp (maxDischargeDepth := 50) [hk]

@[simp] theorem keeps_applySite (site state : Nat) (lagging : Bool) (mode round : Nat) (hk : Keeps s₀ s) :
    Keeps s₀ (State.applySite s site state lagging mode round) := by
  unfold State.applySite; simp (maxDischargeDepth := 50) [hk]

@[simp] theorem keeps_siteDown (site state : Nat) (lagging : Bool) (mode round : Nat) (hk : Keeps s₀ s) :
    Keeps s₀ (State.siteDown s site state lagging mode round) := by
  unfold State.siteDown; simp (maxDischargeDepth := 50) [hk]

@[simp] theorem keeps_beginRound (hk : Keeps s₀ s) : Keeps s₀ (State.beginRound s) := by
  unfold State.beginRound; simp (maxDischargeDepth := 50) [hk]

@[simp] theorem keeps_siteReport (site id : Nat) (hk : Keeps s₀ s) : Keeps s₀ (State.siteReport s site id) := by
  unfold State.siteReport; simp (maxDischargeDepth := 50) [hk]

@[simp] theorem keeps_noteDgram (d : DgramHdr) (hk : Keeps s₀ s) : Keeps s₀ (State.noteDgram s d) := by
  unfold State.noteDgram; simp (maxDischargeDepth := 50) [hk]

@[simp] theorem keeps_siteContact (site : Nat) (hk : Keeps s₀ s) : Keeps s₀ (State.siteContact s site) := by
  unfold State.siteContact; simp (maxDischargeDepth := 50) [hk]

/-! ## LinkCheck -/

@[simp] theorem keeps_ringWrite (base size at_ : Nat) (bs : List Byte) (hk : Keeps s₀ s) :
    Keeps s₀ (State.ringWrite s base size at_ bs) := by
  unfold State.ringWrite; simp (maxDischargeDepth := 50) [hk]

@[simp] theorem keeps_logDigests (rec_ : List Byte) (hk : Keeps s₀ s) : Keeps s₀ (State.logDigests s rec_) := by
  unfold State.logDigests; simp (maxDischargeDepth := 50) [hk]

@[simp] theorem keeps_sendDigests (attempt : Nat) (hk : Keeps s₀ s) : Keeps s₀ (State.sendDigests s attempt) := by
  unfold State.sendDigests; simp (maxDischargeDepth := 50) [hk]

@[simp] theorem keeps_startCheck (attempt : Nat) (hk : Keeps s₀ s) : Keeps s₀ (State.startCheck s attempt) := by
  unfold State.startCheck; simp (maxDischargeDepth := 50) [hk]

@[simp] theorem keeps_leadWrite (id : Nat) (p : Page) (off v : Nat) (hk : Keeps s₀ s) : Keeps s₀ (State.leadWrite s id p off v) := by
  unfold State.leadWrite; simp (maxDischargeDepth := 50) [hk]

@[simp] theorem keeps_countMismatches (total : Nat) (entries : List Mismatch) (hk : Keeps s₀ s) :
    Keeps s₀ (State.countMismatches s total entries) := by
  unfold State.countMismatches; simp only []; (repeat' split) <;> simp (maxDischargeDepth := 50) [hk]

@[simp] theorem keeps_compareLinks (attempt : Nat) (arrived : List LinkDigest) (hk : Keeps s₀ s) :
    Keeps s₀ (s.compareLinks attempt arrived).1 := by
  unfold State.compareLinks
  refine keeps_foldl_fst _ (fun t d => ?_) hk
  simp only []
  split
  · simp
  · split <;> simp


/-! ## Triads -/

@[simp] theorem keeps_darnNext (q n p : Nat) (hk : Keeps s₀ s) : Keeps s₀ (State.darnNext s q n p) := by
  unfold State.darnNext; simp (maxDischargeDepth := 50) [hk]

@[simp] theorem keeps_prepareMap (q : Nat) (hk : Keeps s₀ s) : Keeps s₀ (s.prepareMap q) := by
  unfold State.prepareMap
  refine keeps_foldl _ (fun t n => ?_) hk
  split
  · split <;> simp
  · simp


@[simp] theorem keeps_markFailed (q p : Nat) (hk : Keeps s₀ s) : Keeps s₀ (State.markFailed s q p) := by
  unfold State.markFailed; simp (maxDischargeDepth := 50) [hk]

@[simp] theorem keeps_abandonTiles (q slot a : Nat) (hk : Keeps s₀ s) : Keeps s₀ (State.abandonTiles s q slot a) := by
  unfold State.abandonTiles; simp (maxDischargeDepth := 50) [hk]

@[simp] theorem keeps_failTriad (q p : Nat) (hk : Keeps s₀ s) : Keeps s₀ (State.failTriad s q p) := by
  unfold State.failTriad; simp only []; (repeat' split) <;> simp (maxDischargeDepth := 50) [hk]

@[simp] theorem keeps_darnStops (q : Nat) (hk : Keeps s₀ s) : Keeps s₀ (State.darnStops s q) := by
  unfold State.darnStops; simp (maxDischargeDepth := 50) [hk]

@[simp] theorem keeps_watchEcc (hk : Keeps s₀ s) : Keeps s₀ (State.watchEcc s) := by
  unfold State.watchEcc; simp (maxDischargeDepth := 50) [hk]

/-! ## StepOps -/

@[simp] theorem keeps_mendHist (h : Nat) (hk : Keeps s₀ s) : Keeps s₀ (State.mendHist s h) := by
  unfold State.mendHist; simp (maxDischargeDepth := 50) [hk]

@[simp] theorem keeps_mergePending (h v : Nat) (hk : Keeps s₀ s) : Keeps s₀ (State.mergePending s h v) := by
  unfold State.mergePending; simp (maxDischargeDepth := 50) [hk]

@[simp] theorem keeps_mergeAmaxTables (hk : Keeps s₀ s) : Keeps s₀ (State.mergeAmaxTables s) := by
  unfold State.mergeAmaxTables; simp (maxDischargeDepth := 50) [hk]

@[simp] theorem keeps_settleHist (commit : Bool) (h : Nat) (hk : Keeps s₀ s) : Keeps s₀ (State.settleHist s commit h) := by
  unfold State.settleHist; simp (maxDischargeDepth := 50) [hk]

@[simp] theorem keeps_loadScales (hk : Keeps s₀ s) : Keeps s₀ (State.loadScales s) := by
  unfold State.loadScales; simp (maxDischargeDepth := 50) [hk]

@[simp] theorem keeps_enter (code : Nat) (hk : Keeps s₀ s) : Keeps s₀ (State.enter s code) := by
  unfold State.enter; simp (maxDischargeDepth := 50) [hk]

@[simp] theorem keeps_mirrorCounts (hk : Keeps s₀ s) : Keeps s₀ (State.mirrorCounts s) := by
  unfold State.mirrorCounts; simp (maxDischargeDepth := 50) [hk]

@[simp] theorem keeps_reportLost (cause : Nat) (hk : Keeps s₀ s) : Keeps s₀ (State.reportLost s cause) := by
  unfold State.reportLost; simp (maxDischargeDepth := 50) [hk]

@[simp] theorem keeps_writeStepRecord (hk : Keeps s₀ s) : Keeps s₀ (State.writeStepRecord s) := by
  unfold State.writeStepRecord; simp (maxDischargeDepth := 50) [hk]

@[simp] theorem keeps_restartTriad (q p : Nat) (hk : Keeps s₀ s) : Keeps s₀ (State.restartTriad s q p) := by
  unfold State.restartTriad; simp (maxDischargeDepth := 50) [hk]

@[simp] theorem keeps_applySlotMap (q : Nat) (hk : Keeps s₀ s) : Keeps s₀ (State.applySlotMap s q) := by
  unfold State.applySlotMap; simp (maxDischargeDepth := 50) [hk]

@[simp] theorem keeps_boundaryReset (hk : Keeps s₀ s) : Keeps s₀ (State.boundaryReset s) := by
  unfold State.boundaryReset; simp (maxDischargeDepth := 50) [hk]

@[simp] theorem keeps_applyExport (a : Nat) (hk : Keeps s₀ s) : Keeps s₀ (State.applyExport s a) := by
  unfold State.applyExport; simp (maxDischargeDepth := 50) [hk]

@[simp] theorem keeps_startForward (hk : Keeps s₀ s) : Keeps s₀ (State.startForward s) := by
  unfold State.startForward; simp (maxDischargeDepth := 50) [hk]

@[simp] theorem keeps_holdFetches (hk : Keeps s₀ s) : Keeps s₀ (State.holdFetches s) := by
  unfold State.holdFetches; simp (maxDischargeDepth := 50) [hk]

@[simp] theorem keeps_boundary (hk : Keeps s₀ s) : Keeps s₀ (State.boundary s) := by
  unfold State.boundary; simp (maxDischargeDepth := 50) [hk]

@[simp] theorem keeps_enterVerdict (hk : Keeps s₀ s) : Keeps s₀ (State.enterVerdict s) := by
  unfold State.enterVerdict; simp (maxDischargeDepth := 50) [hk]

@[simp] theorem keeps_failCollectives (hk : Keeps s₀ s) : Keeps s₀ (State.failCollectives s) := by
  unfold State.failCollectives; simp (maxDischargeDepth := 50) [hk]

@[simp] theorem keeps_addClosed (skip : Bool) (time : Nat) (hk : Keeps s₀ s) : Keeps s₀ (State.addClosed s skip time) := by
  unfold State.addClosed; simp (maxDischargeDepth := 50) [hk]

@[simp] theorem keeps_refuseVerdict (q : Nat) (hk : Keeps s₀ s) : Keeps s₀ (State.refuseVerdict s q) := by
  unfold State.refuseVerdict; simp only []; split <;> simp (maxDischargeDepth := 50) [hk]

@[simp] theorem keeps_refuseVerdicts (hk : Keeps s₀ s) : Keeps s₀ (State.refuseVerdicts s) := by
  unfold State.refuseVerdicts; simp (maxDischargeDepth := 50) [hk]

@[simp] theorem keeps_skipStep (hk : Keeps s₀ s) : Keeps s₀ (State.skipStep s) := by
  unfold State.skipStep; simp (maxDischargeDepth := 50) [hk]

@[simp] theorem keeps_abortStep (hk : Keeps s₀ s) : Keeps s₀ (State.abortStep s) := by
  unfold State.abortStep; simp (maxDischargeDepth := 50) [hk]

@[simp] theorem keeps_applyVerdict (attempt verdict : Nat) (vnorm clip : Word) (hk : Keeps s₀ s) :
    Keeps s₀ (State.applyVerdict s attempt verdict vnorm clip) := by
  unfold State.applyVerdict; simp (maxDischargeDepth := 50) [hk]

@[simp] theorem keeps_sendVerdict (v : Nat × Word × Word) (hk : Keeps s₀ s) : Keeps s₀ (State.sendVerdict s v) := by
  unfold State.sendVerdict; simp (maxDischargeDepth := 50) [hk]

@[simp] theorem keeps_climbVerdict (hk : Keeps s₀ s) : Keeps s₀ (State.climbVerdict s) := by
  unfold State.climbVerdict; simp only []; split <;> simp (maxDischargeDepth := 50) [hk]

@[simp] theorem keeps_copyStaged (b : Bucket) (hk : Keeps s₀ s) : Keeps s₀ (State.copyStaged s b) := by
  unfold State.copyStaged; simp (maxDischargeDepth := 50) [hk]

@[simp] theorem keeps_mendStill (l : Nat) (hk : Keeps s₀ s) : Keeps s₀ (State.mendStill s l) := by
  unfold State.mendStill; simp (maxDischargeDepth := 50) [hk]

@[simp] theorem keeps_stillLayers (present nz : Nat) (hk : Keeps s₀ s) : Keeps s₀ (State.stillLayers s present nz) := by
  unfold State.stillLayers; simp (maxDischargeDepth := 50) [hk]

@[simp] theorem keeps_closeStep (hk : Keeps s₀ s) : Keeps s₀ (State.closeStep s) := by
  unfold State.closeStep; simp (maxDischargeDepth := 50) [hk]

@[simp] theorem keeps_applyDigests (l : List MajorityEntry) (hk : Keeps s₀ s) : Keeps s₀ (State.applyDigests s l) := by
  unfold State.applyDigests; simp (maxDischargeDepth := 50) [hk]

@[simp] theorem keeps_climbDigests (hk : Keeps s₀ s) : Keeps s₀ (State.climbDigests s) := by
  unfold State.climbDigests; simp (maxDischargeDepth := 50) [hk]

@[simp] theorem keeps_finishCommit (hk : Keeps s₀ s) : Keeps s₀ (State.finishCommit s) := by
  unfold State.finishCommit; simp only []; split <;> simp (maxDischargeDepth := 50) [hk]

@[simp] theorem keeps_applyCommit (attempt time present nz : Nat) (hk : Keeps s₀ s) :
    Keeps s₀ (State.applyCommit s attempt time present nz) := by
  unfold State.applyCommit; simp (maxDischargeDepth := 50) [hk]

@[simp] theorem keeps_climbPrepared (hk : Keeps s₀ s) : Keeps s₀ (State.climbPrepared s) := by
  unfold State.climbPrepared; simp only []; split <;> simp (maxDischargeDepth := 50) [hk]

/-! ## Steps -/

@[simp] theorem keeps_minorityMended (id layer : Nat) (hk : Keeps s₀ s) : Keeps s₀ (State.minorityMended s id layer) := by
  unfold State.minorityMended; simp (maxDischargeDepth := 50) [hk]

@[simp] theorem keeps_checkCopy (c : LayerCopy) (hk : Keeps s₀ s) : Keeps s₀ (State.checkCopy s c) := by
  unfold State.checkCopy; simp (maxDischargeDepth := 50) [hk]

@[simp] theorem keeps_copyBytes (src dst n : Nat) (hk : Keeps s₀ s) : Keeps s₀ (State.copyBytes s src dst n) := by
  unfold State.copyBytes; simp (maxDischargeDepth := 50) [hk]

@[simp] theorem keeps_zeroBytes (a n : Nat) (hk : Keeps s₀ s) : Keeps s₀ (State.zeroBytes s a n) := by
  unfold State.zeroBytes; simp (maxDischargeDepth := 50) [hk]

@[simp] theorem keeps_takeOuter (t : TakeUp) (hk : Keeps s₀ s) : Keeps s₀ (State.takeOuter s t) := by
  unfold State.takeOuter; simp only []; split <;> simp (maxDischargeDepth := 50) [hk]

@[simp] theorem keeps_adopted (t : TakeUp) (hk : Keeps s₀ s) : Keeps s₀ (State.adopted s t) := by
  unfold State.adopted; simp (maxDischargeDepth := 50) [hk]

@[simp] theorem keeps_takenUp (t : TakeUp) (hk : Keeps s₀ s) : Keeps s₀ (State.takenUp s t) := by
  unfold State.takenUp; simp (maxDischargeDepth := 50) [hk]

@[simp] theorem keeps_outerCame (k : Nat) (bytes : List Byte) (hk : Keeps s₀ s) : Keeps s₀ (State.outerCame s k bytes) := by
  unfold State.outerCame; simp only []; (repeat' split) <;> simp (maxDischargeDepth := 50) [hk]

@[simp] theorem keeps_copied (index : Nat) (hk : Keeps s₀ s) : Keeps s₀ (State.copied s index) := by
  unfold State.copied; simp only []; (repeat' split) <;> simp (maxDischargeDepth := 50) [hk]

@[simp] theorem keeps_layerCame (index : Nat) (bytes : List Byte) (hk : Keeps s₀ s) : Keeps s₀ (State.layerCame s index bytes) := by
  unfold State.layerCame; simp (maxDischargeDepth := 50) [hk]

/-! ## Update -/

@[simp] theorem keeps_putStateRow (owner : Nat × Nat × Nat) (x rows cols r : Nat) (vs : List Machine.Num) (rnd : Nat → Rnd) (y : Tally)
    (hk : Keeps s₀ s) : Keeps s₀ (s.putStateRow owner x rows cols r vs rnd y).1 := by
  unfold State.putStateRow
  simp [hk]


@[simp] theorem keeps_putDiff (owner : Nat × Nat × Nat) (g : Program) (n : Nat) (ws : List Nat) (hk : Keeps s₀ s) :
    Keeps s₀ (State.putDiff s owner g n ws) := by
  unfold State.putDiff; simp (maxDischargeDepth := 50) [hk]

@[simp] theorem keeps_putWeights (owner : Nat × Nat × Nat) (g : Program) (n : Nat) (old : List (Option Nat)) (ws : List Machine.Num)
    (y : Tally) (hk : Keeps s₀ s) : Keeps s₀ (s.putWeights owner g n old ws y).1 := by
  unfold State.putWeights
  simp only []
  refine keeps_putDiff _ _ _ _ (keeps_ite (fun _ => keeps_foldl _ (fun u p => keeps_ite (fun _ => .refl u) (fun _ => ?_)) hk) (fun _ => ?_))
  · simp
  · simp [hk]


@[simp] theorem keeps_updateRow (owner : Nat × Nat × Nat) (g : Program) (n : Nat) (y : Tally) (hk : Keeps s₀ s) :
    Keeps s₀ (s.updateRow owner g n y).1 := by
  unfold State.updateRow
  simp only []
  split <;> split <;> split <;> simp (maxDischargeDepth := 50) [hk]


@[simp] theorem keeps_updateFact (owner : Nat × Nat × Nat) (g : Program) (hk : Keeps s₀ s) : Keeps s₀ (s.updateFact owner g).1 := by
  unfold State.updateFact
  simp only []
  refine keeps_putStateRow _ _ _ _ _ _ _ _ (keeps_putStateRow _ _ _ _ _ _ _ _ (keeps_foldl_fst _ (fun t n => ?_) hk))
  simp


@[simp] theorem keeps_listChange (q : Nat) (g : Program) (hk : Keeps s₀ s) : Keeps s₀ (State.listChange s q g) := by
  unfold State.listChange; simp (maxDischargeDepth := 50) [hk]

@[simp] theorem keeps_performUpdate (q u i : Nat) (w : WinEntry) (hk : Keeps s₀ s) : Keeps s₀ (State.performUpdate s q u i w) := by
  unfold State.performUpdate; simp (maxDischargeDepth := 50) [hk]

@[simp] theorem keeps_runUpdate (q u prog : Nat) (hk : Keeps s₀ s) : Keeps s₀ (State.runUpdate s q u prog) := by
  unfold State.runUpdate; simp only []; (repeat' split) <;> simp (maxDischargeDepth := 50) [hk]

@[simp] theorem keeps_pageMended (page : Nat) (hk : Keeps s₀ s) : Keeps s₀ (s.pageMended page) := by
  unfold State.pageMended
  refine keeps_foldl _ (fun t k => ?_) (keeps_fault _ _ _ _ _ _ (keeps_addSat _ _ _ (keeps_fields hk ..)))
  simp only []
  split <;> simp


/-! ## Export -/

@[simp] theorem keeps_noteShip (q : Nat) (c : Closed) (hk : Keeps s₀ s) : Keeps s₀ (s.noteShip q c) := by
  unfold State.noteShip
  refine keeps_ite (fun _ => hk) (fun _ => keeps_foldl _ (fun t i => ?_) (keeps_noteReadBy _ _ _ hk))
  split
  · simp
  · exact keeps_foldl _ (fun u r => by simp) (.refl t)


@[simp] theorem keeps_setShipping (q : Nat) (x : Option Shipping) (hk : Keeps s₀ s) : Keeps s₀ (State.setShipping s q x) := by
  unfold State.setShipping; simp (maxDischargeDepth := 50) [hk]

@[simp] theorem keeps_shipFail (q : Nat) (w : WinEntry) (code : Nat) (hk : Keeps s₀ s) : Keeps s₀ (State.shipFail s q w code) := by
  unfold State.shipFail; simp (maxDischargeDepth := 50) [hk]

@[simp] theorem keeps_endSeg (g : Seg) (hk : Keeps s₀ s) : Keeps s₀ (State.endSeg s g) := by
  unfold State.endSeg; simp (maxDischargeDepth := 50) [hk]

@[simp] theorem keeps_reapSegs (q : Nat) (site : List (Nat × Nat × List (Byte × Bool))) (hk : Keeps s₀ s) :
    Keeps s₀ (State.reapSegs s q site) := by
  unfold State.reapSegs; simp (maxDischargeDepth := 50) [hk]

@[simp] theorem keeps_setSegWait (q : Nat) (b : Bool) (hk : Keeps s₀ s) : Keeps s₀ (State.setSegWait s q b) := by
  unfold State.setSegWait; simp (maxDischargeDepth := 50) [hk]

@[simp] theorem keeps_readControl (q : Nat) (w : WinEntry) (x : Shipping) (hk : Keeps s₀ s) : Keeps s₀ (State.readControl s q w x) := by
  unfold State.readControl; simp only []; split <;> simp (maxDischargeDepth := 50) [hk]

@[simp] theorem keeps_shipWrite (q : Nat) (w : WinEntry) (leased : Bool) (a : Nat) (bs : List (Byte × Bool)) (hk : Keeps s₀ s) :
    Keeps s₀ (State.shipWrite s q w leased a bs).1 := by
  unfold State.shipWrite; simp only []; (repeat' split) <;> simp (maxDischargeDepth := 50) [hk]

@[simp] theorem keeps_placeRecord (q : Nat) (w : WinEntry) (leased : Bool) (prod : Nat) (r : List (Byte × Bool)) (hk : Keeps s₀ s) :
    Keeps s₀ (State.placeRecord s q w leased prod r).1 := by
  unfold State.placeRecord; simp (maxDischargeDepth := 50) [hk]

@[simp] theorem keeps_noteFull (q : Nat) (w : WinEntry) (i : Nat) (hk : Keeps s₀ s) : Keeps s₀ (State.noteFull s q w i) := by
  unfold State.noteFull; simp (maxDischargeDepth := 50) [hk]

@[simp] theorem keeps_sendRecords (k q : Nat) (w : WinEntry) (sent : Bool) (hk : Keeps s₀ s) :
    Keeps s₀ (State.sendRecords k q w sent s) := by
  induction k generalizing s sent with
  | zero => exact hk
  | succ k ih =>
    unfold State.sendRecords
    split
    · exact hk
    · rename_i x _
      extract_lets prodWrite
      have prod : ∀ {t : State} (y : Shipping), Keeps s₀ t → Keeps s₀ (prodWrite t y) := by
        intro t y ht
        unfold prodWrite
        split
        · simp only []; split <;> simp [ht]
        · exact ht
      clear_value prodWrite
      split
      · exact prod _ hk
      · rename_i r y _
        refine keeps_ite (fun _ => prod _ hk) (fun _ => keeps_ite (fun _ => keeps_setSegWait _ _ (prod _ hk)) (fun _ => ?_))
        have g1 : Keeps s₀ (if dOp w.desc = 2 then (s.setSegWait q false).noteFull q w x.next else s.setSegWait q false) :=
          keeps_ite (fun _ => keeps_noteFull _ _ _ (keeps_setSegWait _ _ hk)) (fun _ => keeps_setSegWait _ _ hk)
        have g2 := keeps_raiseIf (dOp w.desc == 2 && r.any Prod.snd) (qPage .ex q 0) 3 g1
        have g3 := keeps_placeRecord q w (dOp w.desc == 2) x.prod r g2
        exact keeps_ite (fun _ => keeps_shipFail _ _ _ g3) (fun _ => ih _ (keeps_setShipping _ _ g3))


@[simp] theorem keeps_takeAnswers (q : Nat) (w : WinEntry) (site : List (Nat × Nat × List (Byte × Bool))) (hk : Keeps s₀ s) :
    Keeps s₀ (s.takeAnswers q w site) := by
  unfold State.takeAnswers
  refine keeps_foldl _ (fun t g => ?_) hk
  simp only []
  repeat' split
  all_goals simp (maxDischargeDepth := 50)


@[simp] theorem keeps_shipFitting (q : Nat) (w : WinEntry) (hk : Keeps s₀ s) : Keeps s₀ (State.shipFitting s q w) := by
  unfold State.shipFitting; (repeat' split) <;> simp (maxDischargeDepth := 50) [hk]

@[simp] theorem keeps_shipOn (q : Nat) (site : List (Nat × Nat × List (Byte × Bool))) (hk : Keeps s₀ s) : Keeps s₀ (s.shipOn q site) := by
  unfold State.shipOn
  simp only []
  repeat' split
  all_goals simp (maxDischargeDepth := 50) [hk]


@[simp] theorem keeps_shipStart (q op : Nat) (hk : Keeps s₀ s) : Keeps s₀ (State.shipStart s q op) := by
  unfold State.shipStart; simp only []; split <;> simp (maxDischargeDepth := 50) [hk]

/-! ## Coll -/

@[simp] theorem keeps_setCollOp (o : CollOp) (hk : Keeps s₀ s) : Keeps s₀ (State.setCollOp s o) := by
  unfold State.setCollOp; simp (maxDischargeDepth := 50) [hk]

@[simp] theorem keeps_readLines (o : CollOp) (r k a e : Nat) (hk : Keeps s₀ s) : Keeps s₀ (State.readLines s o r k a e).1 := by
  unfold State.readLines; simp (maxDischargeDepth := 50) [hk]

@[simp] theorem keeps_collSend (o : CollOp) (i : Nat) (b : Body) (hk : Keeps s₀ s) : Keeps s₀ (State.collSend s o i b) := by
  unfold State.collSend; simp (maxDischargeDepth := 50) [hk]

@[simp] theorem keeps_storeShard (o : CollOp) (hk : Keeps s₀ s) : Keeps s₀ (State.storeShard s o) := by
  unfold State.storeShard; simp (maxDischargeDepth := 50) [hk]

@[simp] theorem keeps_collComplete (o : CollOp) (hk : Keeps s₀ s) : Keeps s₀ (State.collComplete s o) := by
  unfold State.collComplete; simp (maxDischargeDepth := 50) [hk]

@[simp] theorem keeps_collSettle (q tag : Nat) (hk : Keeps s₀ s) : Keeps s₀ (State.collSettle s q tag) := by
  unfold State.collSettle; (repeat' split) <;> simp (maxDischargeDepth := 50) [hk]

@[simp] theorem keeps_enterPhase (o : CollOp) (x : Stream) (k : Nat) (hk : Keeps s₀ s) : Keeps s₀ (State.enterPhase s o x k) := by
  unfold State.enterPhase; simp (maxDischargeDepth := 50) [hk]

@[simp] theorem keeps_collGo (k q tag r h : Nat) (hk : Keeps s₀ s) : Keeps s₀ (State.collGo k q tag r h s) := by
  induction k generalizing s with
  | zero => exact hk
  | succ k ih =>
    unfold State.collGo
    simp only []
    repeat' split
    all_goals first | exact hk | exact ih (by simp [hk]) | simp [hk]


@[simp] theorem keeps_collStep (q tag r h : Nat) (hk : Keeps s₀ s) : Keeps s₀ (s.collStep q tag r h) := by
  unfold State.collStep; simp [hk]


@[simp] theorem keeps_noteRanges (l : List (Nat × Nat)) (hk : Keeps s₀ s) : Keeps s₀ (State.noteRanges s l) := by
  unfold State.noteRanges; simp (maxDischargeDepth := 50) [hk]

@[simp] theorem keeps_runColl (q op : Nat) (flips : List (Nat × Nat)) (hk : Keeps s₀ s) : Keeps s₀ (s.runColl q op flips) := by
  unfold State.runColl
  simp only []
  split
  · exact hk
  · split
    · exact hk
    · split
      · simp (maxDischargeDepth := 50) [hk]
      · refine keeps_collSettle _ _ (keeps_foldl _ (fun t l => ?_) ?_)
        · repeat' split
          all_goals simp
        · apply keeps_fields
          split <;> simp (maxDischargeDepth := 50) [hk]


@[simp] theorem keeps_collAdd (o : CollOp) (e r k off : Nat) (bs : List Byte) (hk : Keeps s₀ s) :
    Keeps s₀ (State.collAdd s o e r k off bs).1 := by
  unfold State.collAdd; simp (maxDischargeDepth := 50) [hk]

@[simp] theorem keeps_stray (hk : Keeps s₀ s) : Keeps s₀ (State.stray s) := by
  unfold State.stray; simp (maxDischargeDepth := 50) [hk]

@[simp] theorem keeps_collPass (o : CollOp) (c : CollHdr) (bs : List Byte) (at_ : Nat) (hk : Keeps s₀ s) :
    Keeps s₀ (State.collPass s o c bs at_) := by
  unfold State.collPass; simp only []; (repeat' split) <;> simp (maxDischargeDepth := 50) [hk]

@[simp] theorem keeps_collTake (o : CollOp) (c : CollHdr) (bs : List Byte) (hk : Keeps s₀ s) : Keeps s₀ (State.collTake s o c bs) := by
  unfold State.collTake; simp only []; (repeat' split) <;> simp (maxDischargeDepth := 50) [hk]

/-! ## Frames -/

@[simp] theorem keeps_freeBuffer (w : Waiting) (hk : Keeps s₀ s) : Keeps s₀ (State.freeBuffer s w) := by
  unfold State.freeBuffer; (repeat' split) <;> simp (maxDischargeDepth := 50) [hk]

@[simp] theorem keeps_steer (offset delay : Int) (hk : Keeps s₀ s) : Keeps s₀ (State.steer s offset delay) := by
  unfold State.steer; simp (maxDischargeDepth := 50) [hk]

/-! ## Pod -/

@[simp] theorem keeps_leadSet (src : Nat) (p : Page) (off v : Nat) (hk : Keeps s₀ s) : Keeps s₀ (State.leadSet s src p off v).1 := by
  unfold State.leadSet; simp (maxDischargeDepth := 50) [hk]

@[simp] theorem keeps_newTopology (hk : Keeps s₀ s) : Keeps s₀ (State.newTopology s) := by
  unfold State.newTopology; simp (maxDischargeDepth := 50) [hk]

@[simp] theorem keeps_setCollRegs (src : Nat) (c : ConfigRec) (hk : Keeps s₀ s) : Keeps s₀ (State.setCollRegs s src c).1 := by
  unfold State.setCollRegs; simp (maxDischargeDepth := 50) [hk]

@[simp] theorem keeps_takeCounts (src : Nat) (c : ConfigRec) (hk : Keeps s₀ s) : Keeps s₀ (State.takeCounts s src c) := by
  unfold State.takeCounts; simp (maxDischargeDepth := 50) [hk]

@[simp] theorem keeps_clearAliases (src : Nat) (hk : Keeps s₀ s) : Keeps s₀ (State.clearAliases s src) := by
  unfold State.clearAliases; simp (maxDischargeDepth := 50) [hk]

@[simp] theorem keeps_seeLead (src : Nat) (hk : Keeps s₀ s) : Keeps s₀ (State.seeLead s src) := by
  unfold State.seeLead; simp (maxDischargeDepth := 50) [hk]

@[simp] theorem keeps_reportAgain (hk : Keeps s₀ s) : Keeps s₀ (State.reportAgain s) := by
  unfold State.reportAgain; simp (maxDischargeDepth := 50) [hk]

@[simp] theorem keeps_applyConfig (src : Nat) (c : ConfigRec) (hk : Keeps s₀ s) : Keeps s₀ (State.applyConfig s src c) := by
  unfold State.applyConfig; simp (maxDischargeDepth := 50) [hk]

@[simp] theorem keeps_markedCut (subject : Nat) (hk : Keeps s₀ s) : Keeps s₀ (State.markedCut s subject) := by
  unfold State.markedCut; simp (maxDischargeDepth := 50) [hk]

@[simp] theorem keeps_applyMark (src subject v : Nat) (hk : Keeps s₀ s) : Keeps s₀ (State.applyMark s src subject v) := by
  unfold State.applyMark; simp (maxDischargeDepth := 50) [hk]

@[simp] theorem keeps_applyAlias (src n f t : Nat) (clear : Bool) (hk : Keeps s₀ s) : Keeps s₀ (s.applyAlias src n f t clear) := by
  unfold State.applyAlias; simp [hk]


@[simp] theorem keeps_applyAssign (src lost adopter : Nat) (hk : Keeps s₀ s) : Keeps s₀ (State.applyAssign s src lost adopter) := by
  unfold State.applyAssign; simp (maxDischargeDepth := 50) [hk]

@[simp] theorem keeps_applyCut (src subject : Nat) (hk : Keeps s₀ s) : Keeps s₀ (State.applyCut s src subject) := by
  unfold State.applyCut; simp (maxDischargeDepth := 50) [hk]

@[simp] theorem keeps_storePod (hk : Keeps s₀ s) : Keeps s₀ (State.storePod s) := by
  unfold State.storePod; simp (maxDischargeDepth := 50) [hk]

@[simp] theorem keeps_checkPorts (hk : Keeps s₀ s) : Keeps s₀ (State.checkPorts s) := by
  unfold State.checkPorts; simp (maxDischargeDepth := 50) [hk]

@[simp] theorem keeps_applyEpochEnd (src epoch : Nat) (hk : Keeps s₀ s) : Keeps s₀ (State.applyEpochEnd s src epoch) := by
  unfold State.applyEpochEnd; simp (maxDischargeDepth := 50) [hk]

@[simp] theorem keeps_applyRecord (src epoch : Nat) (r : MendRec) (hk : Keeps s₀ s) : Keeps s₀ (s.applyRecord src epoch r) := by
  unfold State.applyRecord
  simp only []
  split
  · exact hk
  · split <;> simp [hk]


@[simp] theorem keeps_broadcast (epoch : Nat) (r : MendRec) (hk : Keeps s₀ s) : Keeps s₀ (State.broadcast s epoch r) := by
  unfold State.broadcast; simp (maxDischargeDepth := 50) [hk]

@[simp] theorem keeps_mendAll (epoch : Nat) (r : MendRec) (hk : Keeps s₀ s) : Keeps s₀ (State.mendAll s epoch r) := by
  unfold State.mendAll; simp (maxDischargeDepth := 50) [hk]

@[simp] theorem keeps_reconfigure (before : List (Nat × ConfigRec)) (hand : Nat → Bool) (hk : Keeps s₀ s) :
    Keeps s₀ (State.reconfigure s before hand) := by
  unfold State.reconfigure; simp (maxDischargeDepth := 50) [hk]

@[simp] theorem keeps_noteRecovery (lost detail : Nat) (hk : Keeps s₀ s) : Keeps s₀ (State.noteRecovery s lost detail) := by
  unfold State.noteRecovery; simp (maxDischargeDepth := 50) [hk]

@[simp] theorem keeps_recover (lost : Nat) (hk : Keeps s₀ s) : Keeps s₀ (State.recover s lost) := by
  unfold State.recover; simp (maxDischargeDepth := 50) [hk]

@[simp] theorem keeps_chooseStandby (not_ : Nat) (hk : Keeps s₀ s) : Keeps s₀ (State.chooseStandby s not_) := by
  unfold State.chooseStandby; simp only []; split <;> simp (maxDischargeDepth := 50) [hk]

@[simp] theorem keeps_leadAnswer (dst kind subject : Nat) (a : Option Nat) (hk : Keeps s₀ s) :
    Keeps s₀ (s.leadAnswer dst kind subject a) := by
  unfold State.leadAnswer; simp [hk]


@[simp] theorem keeps_reAdopt (gone : Nat) (hk : Keeps s₀ s) : Keeps s₀ (s.reAdopt gone) := by
  unfold State.reAdopt
  split
  · exact hk
  · split <;> simp [hk]


@[simp] theorem keeps_markLost (lost mark e : Nat) (hk : Keeps s₀ s) : Keeps s₀ (State.markLost s lost mark e) := by
  unfold State.markLost; simp (maxDischargeDepth := 50) [hk]

@[simp] theorem keeps_replaceLost (lost e sp n : Nat) (before : List (Nat × ConfigRec)) (hk : Keeps s₀ s) :
    Keeps s₀ (State.replaceLost s lost e sp n before) := by
  unfold State.replaceLost; simp (maxDischargeDepth := 50) [hk]

@[simp] theorem keeps_fillPlace (lost e : Nat) (chosen : Option Nat) (unpick : Bool) (before : List (Nat × ConfigRec)) (hk : Keeps s₀ s) :
    Keeps s₀ (State.fillPlace s lost e chosen unpick before) := by
  unfold State.fillPlace; (repeat' split) <;> first | exact hk | simp_all (maxDischargeDepth := 50) | (simp only []; (repeat' split) <;> simp_all (maxDischargeDepth := 50))

@[simp] theorem keeps_declareLost (lost : Nat) (chosen : Option Nat) (unpick : Bool) (hk : Keeps s₀ s) :
    Keeps s₀ (s.declareLost lost chosen unpick) := by
  refine keeps_ite (fun _ => hk) (fun _ => keeps_ite (fun _ => keeps_raise _ _ hk) (fun _ => ?_))
  have g := fun m e => keeps_markLost lost m e hk
  exact keeps_ite (fun _ => keeps_reAdopt _ (keeps_raise _ _ (keeps_reconfigure _ _ (keeps_mendAll _ _ (g _ _)))))
    (fun _ => keeps_fillPlace _ _ _ _ _ (g _ _))


@[simp] theorem keeps_mendCheck (hk : Keeps s₀ s) : Keeps s₀ (State.mendCheck s) := by
  unfold State.mendCheck; simp (maxDischargeDepth := 50) [hk]

@[simp] theorem keeps_finishMend (hk : Keeps s₀ s) : Keeps s₀ (State.finishMend s) := by
  unfold State.finishMend; simp only []; (repeat' split) <;> simp (maxDischargeDepth := 50) [hk]

@[simp] theorem keeps_takeOver (hk : Keeps s₀ s) : Keeps s₀ (State.takeOver s) := by
  unfold State.takeOver; simp only []; split <;> simp (maxDischargeDepth := 50) [hk]

@[simp] theorem keeps_sendHello (q d : Nat) (hk : Keeps s₀ s) : Keeps s₀ (State.sendHello s q d) := by
  unfold State.sendHello; simp (maxDischargeDepth := 50) [hk]

@[simp] theorem keeps_flood (prio id : Nat) (not_ : Option (Nat × Nat)) (hk : Keeps s₀ s) : Keeps s₀ (State.flood s prio id not_) := by
  unfold State.flood; simp (maxDischargeDepth := 50) [hk]

@[simp] theorem keeps_beginElection (hk : Keeps s₀ s) : Keeps s₀ (State.beginElection s) := by
  unfold State.beginElection; simp (maxDischargeDepth := 50) [hk]

@[simp] theorem keeps_retrain (q d : Nat) (hk : Keeps s₀ s) : Keeps s₀ (State.retrain s q d) := by
  unfold State.retrain; simp (maxDischargeDepth := 50) [hk]

@[simp] theorem keeps_startDiscovery (warm : Bool) (hk : Keeps s₀ s) : Keeps s₀ (State.startDiscovery s warm) := by
  unfold State.startDiscovery; simp (maxDischargeDepth := 50) [hk]

@[simp] theorem keeps_restorePod (x : StoredPod) (hk : Keeps s₀ s) : Keeps s₀ (State.restorePod s x) := by
  unfold State.restorePod; simp (maxDischargeDepth := 50) [hk]

@[simp] theorem keeps_settleConfirm (hk : Keeps s₀ s) : Keeps s₀ (State.settleConfirm s) := by
  unfold State.settleConfirm; simp only []; split <;> simp (maxDischargeDepth := 50) [hk]

@[simp] theorem keeps_confirmSelf (hk : Keeps s₀ s) : Keeps s₀ (State.confirmSelf s) := by
  unfold State.confirmSelf; simp only []; split <;> simp (maxDischargeDepth := 50) [hk]

@[simp] theorem keeps_handOver (id : Nat) (clear : Bool) (hk : Keeps s₀ s) : Keeps s₀ (State.handOver s id clear) := by
  unfold State.handOver; simp (maxDischargeDepth := 50) [hk]

@[simp] theorem keeps_giveUpConfirm (hk : Keeps s₀ s) : Keeps s₀ (State.giveUpConfirm s) := by
  unfold State.giveUpConfirm; simp only []; split <;> simp (maxDischargeDepth := 50) [hk]

@[simp] theorem keeps_mendFrame (k : Nat) (h : RxHdr) (epoch : Nat) (recs : List MendRec) (act : State → MendRec → State) (hact : ∀ x0 x1, Keeps x0 (act x0 x1)) (hk : Keeps s₀ s) :
    Keeps s₀ (State.mendFrame s k h epoch recs act) := by
  unfold State.mendFrame; (repeat' split) <;> first | exact hk | simp_all (maxDischargeDepth := 50) | (simp only []; (repeat' split) <;> simp_all (maxDischargeDepth := 50))

@[simp] theorem keeps_actRecord (h : RxHdr) (epoch : Nat) (r : MendRec) (hk : Keeps s₀ s) : Keeps s₀ (State.actRecord h epoch s r) := by
  unfold State.actRecord; simp only []; split <;> simp (maxDischargeDepth := 50) [hk]

@[simp] theorem keeps_sendLost (lost adopter : Nat) (b : Bucket) (hk : Keeps s₀ s) : Keeps s₀ (State.sendLost s lost adopter b) := by
  unfold State.sendLost; simp (maxDischargeDepth := 50) [hk]

@[simp] theorem keeps_sendLostLines (lost adopter : Nat) (hk : Keeps s₀ s) : Keeps s₀ (State.sendLostLines s lost adopter) := by
  unfold State.sendLostLines; simp (maxDischargeDepth := 50) [hk]

@[simp] theorem keeps_climbBuckets (hk : Keeps s₀ s) : Keeps s₀ (State.climbBuckets s) := by
  unfold State.climbBuckets; simp (maxDischargeDepth := 50) [hk]

/-! ## Sites -/

@[simp] theorem keeps_qpHeard (q site n_ : Nat) (hk : Keeps s₀ s) : Keeps s₀ (State.qpHeard s q site n_) := by
  unfold State.qpHeard; simp (maxDischargeDepth := 50) [hk]

@[simp] theorem keeps_resetMigQp (q site : Nat) (hk : Keeps s₀ s) : Keeps s₀ (State.resetMigQp s q site) := by
  unfold State.resetMigQp; simp (maxDischargeDepth := 50) [hk]

@[simp] theorem keeps_resendSlots (q site : Nat) (hk : Keeps s₀ s) : Keeps s₀ (State.resendSlots s q site) := by
  unfold State.resendSlots; simp (maxDischargeDepth := 50) [hk]

@[simp] theorem keeps_rejoin (round common sites side : Nat) (hk : Keeps s₀ s) : Keeps s₀ (State.rejoin s round common sites side) := by
  unfold State.rejoin; simp (maxDischargeDepth := 50) [hk]

@[simp] theorem keeps_takeSiteState (site round common sites side : Nat) (hk : Keeps s₀ s) :
    Keeps s₀ (State.takeSiteState s site round common sites side) := by
  unfold State.takeSiteState; simp (maxDischargeDepth := 50) [hk]

/-! ## Clocks -/

@[simp] theorem keeps_track (q r : Nat) (hk : Keeps s₀ s) : Keeps s₀ (State.track s q r) := by
  unfold State.track; simp (maxDischargeDepth := 50) [hk]

@[simp] theorem keeps_retrack (q : Nat) (hk : Keeps s₀ s) : Keeps s₀ (State.retrack s q) := by
  unfold State.retrack; simp (maxDischargeDepth := 50) [hk]

@[simp] theorem keeps_loseQuarter (q : Nat) (hk : Keeps s₀ s) : Keeps s₀ (State.loseQuarter s q) := by
  unfold State.loseQuarter; simp (maxDischargeDepth := 50) [hk]

@[simp] theorem keeps_endCmd (stop : Bool) (d code : Nat) (hk : Keeps s₀ s) : Keeps s₀ (State.endCmd s stop d code).1 := by
  unfold State.endCmd; simp only []; split <;> simp (maxDischargeDepth := 50) [hk]

@[simp] theorem keeps_setSeam (i : Nat) (x : Seam) (hk : Keeps s₀ s) : Keeps s₀ (State.setSeam s i x) := by
  unfold State.setSeam; simp (maxDischargeDepth := 50) [hk]

/-! ## Background -/

@[simp] theorem keeps_keepTotals (hk : Keeps s₀ s) : Keeps s₀ (State.keepTotals s) := by
  unfold State.keepTotals; simp (maxDischargeDepth := 50) [hk]

@[simp] theorem keeps_makeRoom (n k : Nat) (hk : Keeps s₀ s) : Keeps s₀ (s.makeRoom n k) := by
  induction k generalizing s with
  | zero => exact hk
  | succ k ih =>
    unfold State.makeRoom
    split
    · exact hk
    · exact ih (by simp (maxDischargeDepth := 50) [hk])


@[simp] theorem keeps_stage (r : List Byte) (hk : Keeps s₀ s) : Keeps s₀ (s.stage r) := by
  unfold State.stage; simp [hk]


@[simp] theorem keeps_senseQuarter (q : Nat) (x : QuarterSense) (hk : Keeps s₀ s) : Keeps s₀ (State.senseQuarter s q x) := by
  unfold State.senseQuarter; simp (maxDischargeDepth := 50) [hk]

@[simp] theorem keeps_recordCal (q slot : Nat) (temp : Int) (hk : Keeps s₀ s) : Keeps s₀ (State.recordCal s q slot temp) := by
  unfold State.recordCal; simp (maxDischargeDepth := 50) [hk]

@[simp] theorem keeps_passLimit (k : Nat) (c : Bool) (hk : Keeps s₀ s) : Keeps s₀ (s.passLimit k c).1 := by
  unfold State.passLimit
  split <;> simp [hk]


@[simp] theorem keeps_autoMove (q : Nat) (hk : Keeps s₀ s) : Keeps s₀ (State.autoMove s q) := by
  unfold State.autoMove; simp only []; (repeat' split) <;> simp (maxDischargeDepth := 50) [hk]

@[simp] theorem keeps_logAging (q : Nat) (hk : Keeps s₀ s) : Keeps s₀ (State.logAging s q) := by
  unfold State.logAging; simp (maxDischargeDepth := 50) [hk]

/-! ## Trust -/

@[simp] theorem keeps_extend (i : Nat) (d : List Byte) (hk : Keeps s₀ s) : Keeps s₀ (State.extend s i d) := by
  unfold State.extend; simp (maxDischargeDepth := 50) [hk]

@[simp] theorem keeps_setOwnerDig (d : BitVec 384) (hk : Keeps s₀ s) : Keeps s₀ (State.setOwnerDig s d) := by
  unfold State.setOwnerDig; simp (maxDischargeDepth := 50) [hk]

@[simp] theorem keeps_setFw (c : Nat) (x : FwClass) (hk : Keeps s₀ s) : Keeps s₀ (State.setFw s c x) := by
  unfold State.setFw; simp (maxDischargeDepth := 50) [hk]

@[simp] theorem keeps_measureClass (c : Nat) (hk : Keeps s₀ s) : Keeps s₀ (State.measureClass s c).1 := by
  unfold State.measureClass; simp only []; (repeat' split) <;> simp (maxDischargeDepth := 50) [hk]

@[simp] theorem keeps_verify (warm : Bool) (hk : Keeps s₀ s) : Keeps s₀ (s.verify warm).1 := by
  unfold State.verify
  simp only []
  have g := keeps_foldl_fst (x := (({ s with sec := { s.sec with mrs := List.replicate 7 0, identOk := s.identityChecks } } : State), (none : Option Nat)))
    (f := fun (a : State × Option Nat) c => match a.2 with
      | some _ => a
      | none => if (a.1.measureClass c).2 then ((a.1.measureClass c).1, none) else ((a.1.measureClass c).1, some c)) (List.range 5)
    (fun t c => by split <;> (try split) <;> simp) (keeps_fields hk ..)
  split
  · exact keeps_raise _ _ (keeps_raise _ _ (keeps_fields hk ..))
  · split
    · exact keeps_raise _ _ (keeps_fields hk ..)
    · split
      · exact keeps_raise _ _ g
      · have g2 := keeps_foldl (f := fun (s : State) c => s.setFw c { s.fw c with floor0 := (s.fw c).floor, floor1 := (s.fw c).floor })
          (List.range 5) (fun t c => by simp) g
        split
        · exact keeps_extend _ _ (keeps_extend _ _ g2)
        · exact keeps_extend _ _ g2


@[simp] theorem keeps_endBanks (ok : Bool) (hk : Keeps s₀ s) : Keeps s₀ (State.endBanks s ok) := by
  unfold State.endBanks; simp (maxDischargeDepth := 50) [hk]

/-! ## Power -/

@[simp] theorem keeps_setPhase (p : Nat) (hk : Keeps s₀ s) : Keeps s₀ (State.setPhase s p) := by
  unfold State.setPhase; simp (maxDischargeDepth := 50) [hk]

@[simp] theorem keeps_setPower (st : Nat) (hk : Keeps s₀ s) : Keeps s₀ (State.setPower s st) := by
  unfold State.setPower; simp (maxDischargeDepth := 50) [hk]

@[simp] theorem keeps_alert (hk : Keeps s₀ s) : Keeps s₀ (State.alert s) := by
  unfold State.alert; simp (maxDischargeDepth := 50) [hk]

@[simp] theorem keeps_mainOff (hk : Keeps s₀ s) : Keeps s₀ (State.mainOff s) := by
  unfold State.mainOff; simp (maxDischargeDepth := 50) [hk]

@[simp] theorem keeps_flushJournals (hk : Keeps s₀ s) : Keeps s₀ (State.flushJournals s) := by
  unfold State.flushJournals; simp (maxDischargeDepth := 50) [hk]

@[simp] theorem keeps_tripInfo (cause q unit : Nat) (hk : Keeps s₀ s) : Keeps s₀ (State.tripInfo s cause q unit) := by
  unfold State.tripInfo; simp (maxDischargeDepth := 50) [hk]

@[simp] theorem keeps_readStraps (hk : Keeps s₀ s) : Keeps s₀ (State.readStraps s) := by
  unfold State.readStraps; simp (maxDischargeDepth := 50) [hk]

@[simp] theorem keeps_aonOff (hk : Keeps s₀ s) : Keeps s₀ (State.aonOff s) := by
  unfold State.aonOff; simp (maxDischargeDepth := 50) [hk]

@[simp] theorem keeps_shutdown (cause : Nat) (hk : Keeps s₀ s) : Keeps s₀ (State.shutdown s cause) := by
  unfold State.shutdown; simp (maxDischargeDepth := 50) [hk]

@[simp] theorem keeps_enable (on : Bool) (hk : Keeps s₀ s) : Keeps s₀ (State.enable s on) := by
  unfold State.enable; simp (maxDischargeDepth := 50) [hk]

@[simp] theorem keeps_measured (flow : Nat) (tInlet : Int) (vin : Nat) (hk : Keeps s₀ s) :
    Keeps s₀ (State.measured s flow tInlet vin) := by
  unfold State.measured; simp (maxDischargeDepth := 50) [hk]

@[simp] theorem keeps_latches (supply return_ : Bool) (hk : Keeps s₀ s) : Keeps s₀ (State.latches s supply return_) := by
  unfold State.latches; simp (maxDischargeDepth := 50) [hk]

@[simp] theorem keeps_dropRamp (hk : Keeps s₀ s) : Keeps s₀ (State.dropRamp s) := by
  unfold State.dropRamp; simp (maxDischargeDepth := 50) [hk]

@[simp] theorem keeps_compareHeat (q : Nat) (die dram : Int) (hk : Keeps s₀ s) : Keeps s₀ (State.compareHeat s q die dram) := by
  unfold State.compareHeat; simp (maxDischargeDepth := 50) [hk]

/-! ## Boot -/

@[simp] theorem keeps_beginStart (warm : Bool) (hk : Keeps s₀ s) : Keeps s₀ (s.beginStart warm) := by
  unfold State.beginStart
  simp only []
  have g := keeps_mainOff hk
  have g2 : ∀ (l : List (Nat × Word)) (f : Nat × Word → Bool), mapWf regDefault l → mapWf regDefault (l.filter f) :=
    fun l f h => ⟨h.1.filter _, fun e he => h.2 e (List.mem_of_mem_filter he)⟩
  refine keeps_readStraps (keeps_setPower _ (keeps_setPhase _ (keeps_setField _ _ _ _ _ (keeps_addSat _ _ _ ?_))))
  exact keeps_regs g (g2 _ _) ..


@[simp] theorem keeps_countFail (lo : Nat) (hk : Keeps s₀ s) : Keeps s₀ (State.countFail s lo) := by
  unfold State.countFail; simp (maxDischargeDepth := 50) [hk]

@[simp] theorem keeps_afterFail (cause : Nat) (hk : Keeps s₀ s) : Keeps s₀ (State.afterFail s cause).1 := by
  unfold State.afterFail; simp (maxDischargeDepth := 50) [hk]

@[simp] theorem keeps_failStart (cause q unit : Nat) (hk : Keeps s₀ s) : Keeps s₀ (State.failStart s cause q unit) := by
  unfold State.failStart; simp (maxDischargeDepth := 50) [hk]

@[simp] theorem keeps_bringUp (islands : List Nat) (code : Nat) (hk : Keeps s₀ s) : Keeps s₀ (State.bringUp s islands code) := by
  unfold State.bringUp; simp (maxDischargeDepth := 50) [hk]

@[simp] theorem keeps_nextPhase (hk : Keeps s₀ s) : Keeps s₀ (State.nextPhase s) := by
  unfold State.nextPhase; simp (maxDischargeDepth := 50) [hk]

@[simp] theorem keeps_endClocks (hk : Keeps s₀ s) : Keeps s₀ (State.endClocks s) := by
  unfold State.endClocks; simp only []; split <;> simp (maxDischargeDepth := 50) [hk]

@[simp] theorem keeps_endVerify (corrupt : List Nat) (hk : Keeps s₀ s) : Keeps s₀ (State.endVerify s corrupt) := by
  unfold State.endVerify; simp only []; split <;> simp (maxDischargeDepth := 50) [hk]

@[simp] theorem keeps_endBist (triads : List (Nat × Nat)) (hk : Keeps s₀ s) : Keeps s₀ (State.endBist s triads) := by
  unfold State.endBist; simp only []; split <;> simp (maxDischargeDepth := 50) [hk]

@[simp] theorem keeps_endTrain (x : StartFound) (hk : Keeps s₀ s) : Keeps s₀ (s.endTrain x) := by
  unfold State.endTrain
  simp only []
  split
  · exact keeps_failStart _ _ _ (keeps_foldl _ (fun t k => by simp) hk)
  · refine keeps_ite (fun _ => keeps_failStart _ _ _ hk) (fun _ => ?_)
    refine keeps_nextPhase (keeps_bringUp _ _ (keeps_setBit _ _ _ _ (keeps_setNum _ _ _ (keeps_foldl _ (fun t k => by simp) ?_))))
    refine keeps_foldl _ (fun t k => ?_) (keeps_ite (fun _ => keeps_raise _ _ (keeps_foldl _ (fun t q => by simp) hk)) (fun _ => hk))
    refine keeps_foldl _ (fun u r => ?_) (keeps_setStack _ _ _ (.refl t))
    split <;> simp


@[simp] theorem keeps_endRepair (hk : Keeps s₀ s) : Keeps s₀ (State.endRepair s) := by
  unfold State.endRepair; simp (maxDischargeDepth := 50) [hk]

@[simp] theorem keeps_endClear (hk : Keeps s₀ s) : Keeps s₀ s.endClear := by
  unfold State.endClear
  simp only []
  split
  · refine keeps_nextPhase (keeps_setBit _ _ _ _ ?_)
    exact ⟨hk.pending, hk.now, hk.free, hk.out, hk.outAt, fun k =>
      ⟨⟨(hk.sound k).1.1.filter _, fun e he => (hk.sound k).1.2 e (List.mem_of_mem_filter he)⟩, (hk.sound k).2⟩⟩
  · refine keeps_nextPhase ?_
    exact ⟨hk.pending, hk.now, hk.free, hk.out, hk.outAt, fun k => ⟨⟨.nil, fun e he => by cases he⟩, (hk.sound k).2⟩⟩


@[simp] theorem keeps_endStart (hk : Keeps s₀ s) : Keeps s₀ (State.endStart s) := by
  unfold State.endStart; simp (maxDischargeDepth := 50) [hk]

@[simp] theorem keeps_startPhase (x : StartFound) (hk : Keeps s₀ s) : Keeps s₀ (State.startPhase s x) := by
  unfold State.startPhase; simp only []; (repeat' split) <;> simp (maxDischargeDepth := 50) [hk]

@[simp] theorem keeps_strapped (straps : Nat) (hk : Keeps s₀ s) : Keeps s₀ (State.strapped s straps) := by
  unfold State.strapped; simp (maxDischargeDepth := 50) [hk]

@[simp] theorem keeps_park (up0 up1 : Bool) (hk : Keeps s₀ s) : Keeps s₀ (State.park s up0 up1) := by
  unfold State.park; simp (maxDischargeDepth := 50) [hk]

@[simp] theorem keeps_restStacks (hk : Keeps s₀ s) : Keeps s₀ (State.restStacks s) := by
  unfold State.restStacks; simp (maxDischargeDepth := 50) [hk]

@[simp] theorem keeps_warmEntry (hk : Keeps s₀ s) : Keeps s₀ (State.warmEntry s) := by
  unfold State.warmEntry; simp (maxDischargeDepth := 50) [hk]

@[simp] theorem keeps_bootCold (hk : Keeps s₀ s) : Keeps s₀ (State.bootCold s) := by
  unfold State.bootCold; simp (maxDischargeDepth := 50) [hk]

@[simp] theorem keeps_askUnpick (hk : Keeps s₀ s) : Keeps s₀ (State.askUnpick s) := by
  unfold State.askUnpick; simp only []; split <;> simp (maxDischargeDepth := 50) [hk]

@[simp] theorem keeps_startUnpick (warm : Bool) (hk : Keeps s₀ s) : Keeps s₀ (State.startUnpick s warm) := by
  unfold State.startUnpick; simp (maxDischargeDepth := 50) [hk]

@[simp] theorem keeps_copyRegions (u : Unpick) (adopter : Nat) (hk : Keeps s₀ s) : Keeps s₀ (State.copyRegions s u adopter) := by
  unfold State.copyRegions; simp (maxDischargeDepth := 50) [hk]

@[simp] theorem keeps_endUnpick (hk : Keeps s₀ s) : Keeps s₀ (State.endUnpick s) := by
  unfold State.endUnpick; simp (maxDischargeDepth := 50) [hk]

@[simp] theorem keeps_adoptRequest (id : Nat) (hk : Keeps s₀ s) : Keeps s₀ (s.adoptRequest id) := by
  unfold State.adoptRequest
  simp only []
  split <;> simp (maxDischargeDepth := 50) [hk]


@[simp] theorem keeps_actReport (src kind subject value : Nat) (hk : Keeps s₀ s) : Keeps s₀ (s.actReport src kind subject value) := by
  unfold State.actReport
  split <;> simp (maxDischargeDepth := 50) [hk]


/-! ## Cores -/

@[simp] theorem keeps_setHart (q i : Nat) (x : Hart) (hk : Keeps s₀ s) : Keeps s₀ (State.setHart s q i x) := by
  unfold State.setHart; simp (maxDischargeDepth := 50) [hk]

@[simp] theorem keeps_resetHart (q i : Nat) (hk : Keeps s₀ s) : Keeps s₀ (State.resetHart s q i) := by
  unfold State.resetHart; simp (maxDischargeDepth := 50) [hk]

/-! ## RegRead -/

@[simp] theorem keeps_capture (p : Page) (parts : List Nat) (hk : Keeps s₀ s) : Keeps s₀ (State.capture s p parts) := by
  unfold State.capture; simp (maxDischargeDepth := 50) [hk]

@[simp] theorem keeps_clearOnRead (p : Page) (off : Nat) (hk : Keeps s₀ s) : Keeps s₀ (State.clearOnRead s p off) := by
  unfold State.clearOnRead; simp only []; split <;> simp (maxDischargeDepth := 50) [hk]

@[simp] theorem keeps_readReg (p : Page) (off : Nat) (hk : Keeps s₀ s) : Keeps s₀ (State.readReg s p off).1 := by
  unfold State.readReg; simp only []; split <;> simp (maxDischargeDepth := 50) [hk]

/-! ## HostOps -/

@[simp] theorem keeps_setHostQp (k : Nat) (x : HostQp) (hk : Keeps s₀ s) : Keeps s₀ (State.setHostQp s k x) := by
  unfold State.setHostQp; simp (maxDischargeDepth := 50) [hk]

@[simp] theorem keeps_setRing (n : Nat) (r : EvRing) (hk : Keeps s₀ s) : Keeps s₀ (State.setRing s n r) := by
  unfold State.setRing; simp (maxDischargeDepth := 50) [hk]

@[simp] theorem keeps_ringDown (n : Nat) (hk : Keeps s₀ s) : Keeps s₀ (State.ringDown s n) := by
  unfold State.ringDown; simp (maxDischargeDepth := 50) [hk]

@[simp] theorem keeps_writeProd (n k prod : Nat) (hk : Keeps s₀ s) : Keeps s₀ (State.writeProd s n k prod) := by
  unfold State.writeProd; simp (maxDischargeDepth := 50) [hk]

@[simp] theorem keeps_readCons (n k : Nat) (hk : Keeps s₀ s) : Keeps s₀ (State.readCons s n k) := by
  unfold State.readCons; simp (maxDischargeDepth := 50) [hk]

@[simp] theorem keeps_writeRing (n k at_ : Nat) (bs : List Byte) (hk : Keeps s₀ s) : Keeps s₀ (State.writeRing s n k at_ bs) := by
  unfold State.writeRing; simp (maxDischargeDepth := 50) [hk]

@[simp] theorem keeps_ringEnable (n : Nat) (hk : Keeps s₀ s) : Keeps s₀ (State.ringEnable s n) := by
  unfold State.ringEnable; simp only []; split <;> simp (maxDischargeDepth := 50) [hk]

@[simp] theorem keeps_ringRestart (n : Nat) (hk : Keeps s₀ s) : Keeps s₀ (State.ringRestart s n) := by
  unfold State.ringRestart; simp only []; split <;> simp (maxDischargeDepth := 50) [hk]

@[simp] theorem keeps_ringTake (n : Nat) (r : RingRec) (hk : Keeps s₀ s) : Keeps s₀ (State.ringTake s n r) := by
  unfold State.ringTake; simp only []; split <;> simp (maxDischargeDepth := 50) [hk]

@[simp] theorem keeps_ringSend (f n k : Nat) (hk : Keeps s₀ s) : Keeps s₀ (State.ringSend f n k s) := by
  induction f generalizing s with
  | zero => exact hk
  | succ f ih =>
    unfold State.ringSend
    simp only []
    repeat' split
    all_goals first | exact hk | exact ih (by simp (maxDischargeDepth := 50) [hk]) | simp (maxDischargeDepth := 50) [hk]


@[simp] theorem keeps_endSessions (p : Session → Bool) (hk : Keeps s₀ s) : Keeps s₀ (State.endSessions s p) := by
  unfold State.endSessions; simp (maxDischargeDepth := 50) [hk]

@[simp] theorem keeps_tearDown (k : Nat) (hk : Keeps s₀ s) : Keeps s₀ (State.tearDown s k) := by
  unfold State.tearDown; simp (maxDischargeDepth := 50) [hk]

@[simp] theorem keeps_releaseNow (hk : Keeps s₀ s) : Keeps s₀ (State.releaseNow s) := by
  unfold State.releaseNow; simp (maxDischargeDepth := 50) [hk]

/-! ## RegWrite -/

@[simp] theorem keeps_store (p : Page) (off : Nat) (r : RegSpec) (v : Word) (hk : Keeps s₀ s) : Keeps s₀ (State.store s p off r v) := by
  unfold State.store; simp (maxDischargeDepth := 50) [hk]

@[simp] theorem keeps_writePageCtl (p : Page) (k : PageKind) (v : Nat) (hk : Keeps s₀ s) : Keeps s₀ (State.writePageCtl s p k v).1 := by
  unfold State.writePageCtl; simp (maxDischargeDepth := 50) [hk]

@[simp] theorem keeps_writeEvtEn (p : Page) (k : PageKind) (v : Nat) (hk : Keeps s₀ s) : Keeps s₀ (State.writeEvtEn s p k v) := by
  unfold State.writeEvtEn; simp (maxDischargeDepth := 50) [hk]

@[simp] theorem keeps_setMask (p : Page) (k : PageKind) (v : Nat) (forced : Bool) (hk : Keeps s₀ s) :
    Keeps s₀ (State.setMask s p k v forced) := by
  unfold State.setMask; simp (maxDischargeDepth := 50) [hk]

@[simp] theorem keeps_queueError (q n bit : Nat) (hk : Keeps s₀ s) : Keeps s₀ (State.queueError s q n bit) := by
  unfold State.queueError; simp (maxDischargeDepth := 50) [hk]

@[simp] theorem keeps_writeTail (q n v : Nat) (hk : Keeps s₀ s) : Keeps s₀ (State.writeTail s q n v).1 := by
  unfold State.writeTail; simp (maxDischargeDepth := 50) [hk]

@[simp] theorem keeps_writeRingCfg (q n v : Nat) (hk : Keeps s₀ s) : Keeps s₀ (State.writeRingCfg s q n v).1 := by
  unfold State.writeRingCfg; simp (maxDischargeDepth := 50) [hk]

@[simp] theorem keeps_writeQring (p : Page) (off v : Nat) (hk : Keeps s₀ s) : Keeps s₀ (State.writeQring s p off v).1 := by
  unfold State.writeQring; simp (maxDischargeDepth := 50) [hk]

@[simp] theorem keeps_writeSignal (p : Page) (off v : Nat) (hk : Keeps s₀ s) : Keeps s₀ (State.writeSignal s p off v).1 := by
  unfold State.writeSignal; simp (maxDischargeDepth := 50) [hk]

@[simp] theorem keeps_writeArray (p : Page) (off v : Nat) (hk : Keeps s₀ s) : Keeps s₀ (State.writeArray s p off v) := by
  unfold State.writeArray; (repeat' split) <;> simp (maxDischargeDepth := 50) [hk]

@[simp] theorem keeps_writeEngine (p : Page) (k : PageKind) (r : RegSpec) (v : Nat) (hk : Keeps s₀ s) :
    Keeps s₀ (State.writeEngine s p k r v).1 := by
  unfold State.writeEngine; simp (maxDischargeDepth := 50) [hk]

@[simp] theorem keeps_writeLease (off : Nat) (r : RegSpec) (v : Word) (hk : Keeps s₀ s) : Keeps s₀ (State.writeLease s off r v).1 := by
  unfold State.writeLease; simp (maxDischargeDepth := 50) [hk]

@[simp] theorem keeps_writeColl (off : Nat) (r : RegSpec) (v : Word) (hk : Keeps s₀ s) : Keeps s₀ (State.writeColl s off r v).1 := by
  unfold State.writeColl; simp (maxDischargeDepth := 50) [hk]

@[simp] theorem keeps_writeRepair (p : Page) (v : Nat) (hk : Keeps s₀ s) : Keeps s₀ (State.writeRepair s p v).1 := by
  unfold State.writeRepair; simp (maxDischargeDepth := 50) [hk]

@[simp] theorem keeps_writePodCmd (v : Nat) (hk : Keeps s₀ s) : Keeps s₀ (State.writePodCmd s v).1 := by
  unfold State.writePodCmd; simp (maxDischargeDepth := 50) [hk]

@[simp] theorem keeps_writeMig (off : Nat) (r : RegSpec) (v : Word) (hk : Keeps s₀ s) : Keeps s₀ (State.writeMig s off r v) := by
  unfold State.writeMig; simp (maxDischargeDepth := 50) [hk]

@[simp] theorem keeps_writeRingReg (off : Nat) (r : RegSpec) (v : Word) (hk : Keeps s₀ s) :
    Keeps s₀ (State.writeRingReg s off r v).1 := by
  unfold State.writeRingReg; simp only []; split <;> simp (maxDischargeDepth := 50) [hk]

@[simp] theorem keeps_writeHost (o : Origin) (off : Nat) (r : RegSpec) (v : Word) (hk : Keeps s₀ s) :
    Keeps s₀ (State.writeHost s o off r v).1 := by
  unfold State.writeHost; simp only []; (repeat' split) <;> simp (maxDischargeDepth := 50) [hk]

@[simp] theorem keeps_writeClkCmd (v : Nat) (hk : Keeps s₀ s) : Keeps s₀ (State.writeClkCmd s v).1 := by
  unfold State.writeClkCmd; simp (maxDischargeDepth := 50) [hk]

@[simp] theorem keeps_bootCmd (v : Nat) (hk : Keeps s₀ s) : Keeps s₀ (State.bootCmd s v) := by
  unfold State.bootCmd; simp (maxDischargeDepth := 50) [hk]

@[simp] theorem keeps_writePortCtl (p : Page) (r : RegSpec) (v : Word) (hk : Keeps s₀ s) : Keeps s₀ (State.writePortCtl s p r v) := by
  unfold State.writePortCtl; simp (maxDischargeDepth := 50) [hk]

@[simp] theorem keeps_writeAcc (p : Page) (off : Nat) (r : RegSpec) (v : Word) (hk : Keeps s₀ s) :
    Keeps s₀ (State.writeAcc s p off r v) := by
  unfold State.writeAcc; simp (maxDischargeDepth := 50) [hk]

@[simp] theorem keeps_writeBlock (o : Origin) (p : Page) (k : PageKind) (off : Nat) (r : RegSpec) (v : Word) (hk : Keeps s₀ s) :
    Keeps s₀ (State.writeBlock s o p k off r v).1 := by
  unfold State.writeBlock; simp only []; split <;> simp (maxDischargeDepth := 50) [hk]

@[simp] theorem keeps_afterWrite (p : Page) (off v : Nat) (hk : Keeps s₀ s) : Keeps s₀ (State.afterWrite s p off v) := by
  unfold State.afterWrite; simp (maxDischargeDepth := 50) [hk]

@[simp] theorem keeps_decideWrite (a : RegAccess) (k : PageKind) (v : Word) (hk : Keeps s₀ s) :
    Keeps s₀ (State.decideWrite s a k v).1 := by
  unfold State.decideWrite; simp only []; (repeat' split) <;> simp (maxDischargeDepth := 50) [hk]

@[simp] theorem keeps_performWrite (a : RegAccess) (v : Word) (hk : Keeps s₀ s) : Keeps s₀ (State.performWrite s a v) := by
  unfold State.performWrite; simp only []; (repeat' split) <;> simp (maxDischargeDepth := 50) [hk]

@[simp] theorem keeps_refuseFull (q : Nat) (a : RegAccess) (hk : Keeps s₀ s) : Keeps s₀ (State.refuseFull s q a) := by
  unfold State.refuseFull; simp (maxDischargeDepth := 50) [hk]

/-! ## Access -/

@[simp] theorem keeps_stall (a : Action) (hk : Keeps s₀ s) : Keeps s₀ (State.stall s a) := by
  unfold State.stall; simp (maxDischargeDepth := 50) [hk]

@[simp] theorem keeps_deliver (o : Origin) (bs : List (Byte × Bool)) (hk : Keeps s₀ s) : Keeps s₀ (State.deliver s o bs) := by
  unfold State.deliver; simp (maxDischargeDepth := 50) [hk]

@[simp] theorem keeps_takeGot (o : Origin) (hk : Keeps s₀ s) : Keeps s₀ (State.takeGot s o).1 := by
  unfold State.takeGot; simp (maxDischargeDepth := 50) [hk]

@[simp] theorem keeps_holdAtIsland (a : RegAccess) (q i : Nat) (hk : Keeps s₀ s) : Keeps s₀ (State.holdAtIsland s a q i) := by
  unfold State.holdAtIsland; simp (maxDischargeDepth := 50) [hk]

@[simp] theorem keeps_journalGate (a : RegAccess) (v : Word) (hk : Keeps s₀ s) : Keeps s₀ (State.journalGate s a v) := by
  unfold State.journalGate; simp (maxDischargeDepth := 50) [hk]

@[simp] theorem keeps_access (a : RegAccess) (hk : Keeps s₀ s) : Keeps s₀ (State.access s a) := by
  unfold State.access; simp only []; (repeat' split) <;> simp (maxDischargeDepth := 50) [hk]

@[simp] theorem keeps_answerRemote (f : RespTo) (err : Bool) (bs : List (Byte × Bool)) (hk : Keeps s₀ s) :
    Keeps s₀ (State.answerRemote s f err bs) := by
  unfold State.answerRemote; (repeat' split) <;> simp (maxDischargeDepth := 50) [hk]

@[simp] theorem keeps_answerNow (o : Origin) (r : Answer) (hk : Keeps s₀ s) : Keeps s₀ (State.answerNow s o r) := by
  unfold State.answerNow; simp only []; (repeat' split) <;> simp (maxDischargeDepth := 50) [hk]

@[simp] theorem keeps_perform (a : Action) (hk : Keeps s₀ s) : Keeps s₀ (State.perform s a) := by
  unfold State.perform; simp only []; split <;> simp (maxDischargeDepth := 50) [hk]

@[simp] theorem keeps_submit (a : Action) (hk : Keeps s₀ s) : Keeps s₀ (State.submit s a) := by
  unfold State.submit; simp (maxDischargeDepth := 50) [hk]

@[simp] theorem keeps_proceed (hk : Keeps s₀ s) : Keeps s₀ (State.proceed s) := by
  unfold State.proceed; simp (maxDischargeDepth := 50) [hk]

@[simp] theorem keeps_request (l : List Action) (hk : Keeps s₀ s) : Keeps s₀ (State.request s l) := by
  unfold State.request; simp (maxDischargeDepth := 50) [hk]

@[simp] theorem keeps_releaseHeld (hk : Keeps s₀ s) : Keeps s₀ (State.releaseHeld s) := by
  unfold State.releaseHeld; simp (maxDischargeDepth := 50) [hk]

@[simp] theorem keeps_respond (w : LeaseWrite) (hk : Keeps s₀ s) : Keeps s₀ (State.respond s w) := by
  unfold State.respond; (repeat' split) <;> simp (maxDischargeDepth := 50) [hk]

@[simp] theorem keeps_landed (owner : Option (Nat × Nat × Nat)) (hk : Keeps s₀ s) : Keeps s₀ (State.landed s owner) := by
  unfold State.landed; (repeat' split) <;> simp (maxDischargeDepth := 50) [hk]

/-! ## Remote -/

@[simp] theorem keeps_remoteWrite (f : RespTo) (a : Nat) (bs : List (Byte × Bool)) (hk : Keeps s₀ s) :
    Keeps s₀ (State.remoteWrite s f a bs) := by
  unfold State.remoteWrite; simp (maxDischargeDepth := 50) [hk]

@[simp] theorem keeps_remoteAdd (f : RespTo) (a v : Nat) (hk : Keeps s₀ s) : Keeps s₀ (State.remoteAdd s f a v) := by
  unfold State.remoteAdd; simp (maxDischargeDepth := 50) [hk]

/-! ## HostReq -/

@[simp] theorem keeps_noteCe (k : Nat) (ce : Bool) (hk : Keeps s₀ s) : Keeps s₀ (State.noteCe s k ce) := by
  unfold State.noteCe; simp only []; split <;> simp (maxDischargeDepth := 50) [hk]

@[simp] theorem keeps_hostRequest (port i psn len : Nat) (ce read : Bool) (acts : HostQp → Option (List Action))
    (again : HostQp → State → State) (ha : ∀ x t, Keeps t (again x t)) (hk : Keeps s₀ s) :
    Keeps s₀ (s.hostRequest port i psn len ce read acts again) := by
  unfold State.hostRequest
  simp only []
  repeat' split
  all_goals first | exact hk | exact keeps_noteCe _ _ hk | exact keeps_request _ (keeps_setHostQp _ _ (keeps_noteCe _ _ hk)) |
    exact (keeps_noteCe _ _ hk).trans (ha _ _)


@[simp] theorem keeps_writeAgain (o : Origin) (k psn : Nat) (_x : HostQp) (hk : Keeps s₀ s) : Keeps s₀ (writeAgain o k psn _x s) := by
  unfold writeAgain; simp (maxDischargeDepth := 50) [hk]

@[simp] theorem keeps_readAgain (k psn len : Nat) (x : HostQp) (hk : Keeps s₀ s) : Keeps s₀ (readAgain k psn len x s) := by
  unfold readAgain; simp only []; split <;> simp (maxDischargeDepth := 50) [hk]

@[simp] theorem keeps_passTurn (n port : Nat) (hk : Keeps s₀ s) : Keeps s₀ (State.passTurn s n port) := by
  unfold State.passTurn; simp (maxDischargeDepth := 50) [hk]

/-! ## Spdm -/

@[simp] theorem keeps_setVca (k n : Nat) (hk : Keeps s₀ s) : Keeps s₀ (State.setVca s k n) := by
  unfold State.setVca; simp (maxDischargeDepth := 50) [hk]

@[simp] theorem keeps_spdm (port i ver need bad : Nat) (respond : Nat → State → State) (ha : ∀ k t, Keeps t (respond k t))
    (hk : Keeps s₀ s) : Keeps s₀ (s.spdm port i ver need bad respond) := by
  unfold State.spdm
  simp only []
  repeat' split
  all_goals first | exact hk | simp [hk] | exact hk.trans (ha _ _)


@[simp] theorem keeps_spdmAnswer (k code : Nat) (about : List Byte) (hk : Keeps s₀ s) : Keeps s₀ (State.spdmAnswer s k code about) := by
  unfold State.spdmAnswer; simp (maxDischargeDepth := 50) [hk]

@[simp] theorem keeps_setSession (x : Session) (hk : Keeps s₀ s) : Keeps s₀ (State.setSession s x) := by
  unfold State.setSession; simp (maxDischargeDepth := 50) [hk]

@[simp] theorem keeps_inSession (session : Nat) (f : Session → State → State) (ha : ∀ x t, Keeps t (f x t)) (hk : Keeps s₀ s) :
    Keeps s₀ (s.inSession session f) := by
  unfold State.inSession
  split
  · exact hk
  · split
    · exact hk.trans (ha _ _)
    · exact hk


@[simp] theorem keeps_message (session code status : Nat) (body : List Byte) (hk : Keeps s₀ s) :
    Keeps s₀ (State.message s session code status body) := by
  unfold State.message; simp (maxDischargeDepth := 50) [hk]

@[simp] theorem keeps_refuseStage (session cls reason : Nat) (hk : Keeps s₀ s) : Keeps s₀ (State.refuseStage s session cls reason) := by
  unfold State.refuseStage; simp (maxDischargeDepth := 50) [hk]

/-! ## Step -/



/-! ## Outcomes -/

/-- Whatever next state an outcome answers, it keeps what `s` held. -/
def Answers (s : State) (o : Host.Outcome State Fault Refusal) : Prop := ∀ u, o = .next u → Keeps s u

@[simp] theorem answers_done (h : Keeps s₀ s) : Answers s₀ (done s) := by
  intro u e; unfold done at e; cases e; exact h

@[simp] theorem answers_settled (h : Keeps s₀ s) : Answers s₀ (settled s) := by
  unfold settled
  refine answers_done ?_
  split
  · exact h
  · exact keeps_startMends h

@[simp] theorem answers_ite {c : Prop} [Decidable c] {a b : Host.Outcome State Fault Refusal} (ha : c → Answers s₀ a)
    (hb : ¬c → Answers s₀ b) : Answers s₀ (if c then a else b) := by
  split
  · exact ha ‹_›
  · exact hb ‹_›

@[simp] theorem answers_writeRow (o : Origin) (waits : Bool) (p : Page) (off : Nat) (v hw : Word) (narrow : Bool)
    (h : Keeps s₀ s) : Answers s₀ (writeRow s o waits p off v hw narrow) := by
  unfold writeRow
  simp (maxDischargeDepth := 50) [h]

end Sys2Proof.Laws
end

