-- ==== Sys2Proof/Laws/State.lean ====
section
/-! SUPPORT. What each update of State leaves unchanged, one lemma for a field and an update, and what it reads back as. -/

namespace Sys2Proof.Laws
open Sys2Proof.Machine

variable (s : State)

@[simp] theorem setReg_pending (p : Page) (off : Nat) (v : Word) : (s.setReg p off v).pending = s.pending := by unfold State.setReg; rfl
@[simp] theorem setReg_now (p : Page) (off : Nat) (v : Word) : (s.setReg p off v).now = s.now := by unfold State.setReg; rfl
@[simp] theorem setReg_free (p : Page) (off : Nat) (v : Word) : (s.setReg p off v).free = s.free := by unfold State.setReg; rfl
@[simp] theorem setReg_caps (p : Page) (off : Nat) (v : Word) : (s.setReg p off v).caps = s.caps := by unfold State.setReg; rfl
@[simp] theorem setReg_mem (p : Page) (off : Nat) (v : Word) : (s.setReg p off v).mem = s.mem := by unfold State.setReg; rfl
@[simp] theorem setReg_ecc (p : Page) (off : Nat) (v : Word) : (s.setReg p off v).ecc = s.ecc := by unfold State.setReg; rfl
@[simp] theorem setReg_pulses (p : Page) (off : Nat) (v : Word) : (s.setReg p off v).pulses = s.pulses := by unfold State.setReg; rfl
@[simp] theorem setReg_pod (p : Page) (off : Nat) (v : Word) : (s.setReg p off v).pod = s.pod := by unfold State.setReg; rfl
@[simp] theorem setReg_clk (p : Page) (off : Nat) (v : Word) : (s.setReg p off v).clk = s.clk := by unfold State.setReg; rfl
@[simp] theorem setReg_journals (p : Page) (off : Nat) (v : Word) : (s.setReg p off v).journals = s.journals := by unfold State.setReg; rfl
@[simp] theorem setReg_events (p : Page) (off : Nat) (v : Word) : (s.setReg p off v).events = s.events := by unfold State.setReg; rfl
@[simp] theorem setReg_compute (p : Page) (off : Nat) (v : Word) : (s.setReg p off v).compute = s.compute := by unfold State.setReg; rfl
@[simp] theorem setReg_stackUnits (p : Page) (off : Nat) (v : Word) : (s.setReg p off v).stackUnits = s.stackUnits := by unfold State.setReg; rfl
@[simp] theorem setReg_leases (p : Page) (off : Nat) (v : Word) : (s.setReg p off v).leases = s.leases := by unfold State.setReg; rfl
@[simp] theorem setReg_frecs (p : Page) (off : Nat) (v : Word) : (s.setReg p off v).frecs = s.frecs := by unfold State.setReg; rfl
@[simp] theorem setReg_fabric (p : Page) (off : Nat) (v : Word) : (s.setReg p off v).fabric = s.fabric := by unfold State.setReg; rfl
@[simp] theorem setReg_train (p : Page) (off : Nat) (v : Word) : (s.setReg p off v).train = s.train := by unfold State.setReg; rfl
@[simp] theorem setReg_coll (p : Page) (off : Nat) (v : Word) : (s.setReg p off v).coll = s.coll := by unfold State.setReg; rfl
@[simp] theorem setReg_mig (p : Page) (off : Nat) (v : Word) : (s.setReg p off v).mig = s.mig := by unfold State.setReg; rfl
@[simp] theorem setReg_host (p : Page) (off : Nat) (v : Word) : (s.setReg p off v).host = s.host := by unfold State.setReg; rfl
@[simp] theorem setReg_power (p : Page) (off : Nat) (v : Word) : (s.setReg p off v).power = s.power := by unfold State.setReg; rfl
@[simp] theorem setReg_boot (p : Page) (off : Nat) (v : Word) : (s.setReg p off v).boot = s.boot := by unfold State.setReg; rfl
@[simp] theorem setReg_bgnd (p : Page) (off : Nat) (v : Word) : (s.setReg p off v).bgnd = s.bgnd := by unfold State.setReg; rfl
@[simp] theorem setReg_cores (p : Page) (off : Nat) (v : Word) : (s.setReg p off v).cores = s.cores := by unfold State.setReg; rfl
@[simp] theorem setReg_sec (p : Page) (off : Nat) (v : Word) : (s.setReg p off v).sec = s.sec := by unfold State.setReg; rfl
@[simp] theorem setReg_out (p : Page) (off : Nat) (v : Word) : (s.setReg p off v).out = s.out := by unfold State.setReg; rfl
@[simp] theorem setReg_outAt (p : Page) (off : Nat) (v : Word) : (s.setReg p off v).outAt = s.outAt := by unfold State.setReg; rfl
@[simp] theorem setReg_cycle (p : Page) (off : Nat) (v : Word) : (s.setReg p off v).cycle = s.cycle := by unfold State.setReg; rfl

@[simp] theorem setNum_pending (p : Page) (off v : Nat) : (s.setNum p off v).pending = s.pending := by unfold State.setNum State.setReg; rfl
@[simp] theorem setNum_now (p : Page) (off v : Nat) : (s.setNum p off v).now = s.now := by unfold State.setNum State.setReg; rfl
@[simp] theorem setNum_free (p : Page) (off v : Nat) : (s.setNum p off v).free = s.free := by unfold State.setNum State.setReg; rfl
@[simp] theorem setNum_caps (p : Page) (off v : Nat) : (s.setNum p off v).caps = s.caps := by unfold State.setNum State.setReg; rfl
@[simp] theorem setNum_mem (p : Page) (off v : Nat) : (s.setNum p off v).mem = s.mem := by unfold State.setNum State.setReg; rfl
@[simp] theorem setNum_ecc (p : Page) (off v : Nat) : (s.setNum p off v).ecc = s.ecc := by unfold State.setNum State.setReg; rfl
@[simp] theorem setNum_pulses (p : Page) (off v : Nat) : (s.setNum p off v).pulses = s.pulses := by unfold State.setNum State.setReg; rfl
@[simp] theorem setNum_pod (p : Page) (off v : Nat) : (s.setNum p off v).pod = s.pod := by unfold State.setNum State.setReg; rfl
@[simp] theorem setNum_clk (p : Page) (off v : Nat) : (s.setNum p off v).clk = s.clk := by unfold State.setNum State.setReg; rfl
@[simp] theorem setNum_journals (p : Page) (off v : Nat) : (s.setNum p off v).journals = s.journals := by unfold State.setNum State.setReg; rfl
@[simp] theorem setNum_events (p : Page) (off v : Nat) : (s.setNum p off v).events = s.events := by unfold State.setNum State.setReg; rfl
@[simp] theorem setNum_compute (p : Page) (off v : Nat) : (s.setNum p off v).compute = s.compute := by unfold State.setNum State.setReg; rfl
@[simp] theorem setNum_stackUnits (p : Page) (off v : Nat) : (s.setNum p off v).stackUnits = s.stackUnits := by unfold State.setNum State.setReg; rfl
@[simp] theorem setNum_leases (p : Page) (off v : Nat) : (s.setNum p off v).leases = s.leases := by unfold State.setNum State.setReg; rfl
@[simp] theorem setNum_frecs (p : Page) (off v : Nat) : (s.setNum p off v).frecs = s.frecs := by unfold State.setNum State.setReg; rfl
@[simp] theorem setNum_fabric (p : Page) (off v : Nat) : (s.setNum p off v).fabric = s.fabric := by unfold State.setNum State.setReg; rfl
@[simp] theorem setNum_train (p : Page) (off v : Nat) : (s.setNum p off v).train = s.train := by unfold State.setNum State.setReg; rfl
@[simp] theorem setNum_coll (p : Page) (off v : Nat) : (s.setNum p off v).coll = s.coll := by unfold State.setNum State.setReg; rfl
@[simp] theorem setNum_mig (p : Page) (off v : Nat) : (s.setNum p off v).mig = s.mig := by unfold State.setNum State.setReg; rfl
@[simp] theorem setNum_host (p : Page) (off v : Nat) : (s.setNum p off v).host = s.host := by unfold State.setNum State.setReg; rfl
@[simp] theorem setNum_power (p : Page) (off v : Nat) : (s.setNum p off v).power = s.power := by unfold State.setNum State.setReg; rfl
@[simp] theorem setNum_boot (p : Page) (off v : Nat) : (s.setNum p off v).boot = s.boot := by unfold State.setNum State.setReg; rfl
@[simp] theorem setNum_bgnd (p : Page) (off v : Nat) : (s.setNum p off v).bgnd = s.bgnd := by unfold State.setNum State.setReg; rfl
@[simp] theorem setNum_cores (p : Page) (off v : Nat) : (s.setNum p off v).cores = s.cores := by unfold State.setNum State.setReg; rfl
@[simp] theorem setNum_sec (p : Page) (off v : Nat) : (s.setNum p off v).sec = s.sec := by unfold State.setNum State.setReg; rfl
@[simp] theorem setNum_out (p : Page) (off v : Nat) : (s.setNum p off v).out = s.out := by unfold State.setNum State.setReg; rfl
@[simp] theorem setNum_outAt (p : Page) (off v : Nat) : (s.setNum p off v).outAt = s.outAt := by unfold State.setNum State.setReg; rfl
@[simp] theorem setNum_cycle (p : Page) (off v : Nat) : (s.setNum p off v).cycle = s.cycle := by unfold State.setNum State.setReg; rfl

@[simp] theorem setField_pending (p : Page) (off lo w x : Nat) : (s.setField p off lo w x).pending = s.pending := by unfold State.setField State.setNum State.setReg; rfl
@[simp] theorem setField_now (p : Page) (off lo w x : Nat) : (s.setField p off lo w x).now = s.now := by unfold State.setField State.setNum State.setReg; rfl
@[simp] theorem setField_free (p : Page) (off lo w x : Nat) : (s.setField p off lo w x).free = s.free := by unfold State.setField State.setNum State.setReg; rfl
@[simp] theorem setField_caps (p : Page) (off lo w x : Nat) : (s.setField p off lo w x).caps = s.caps := by unfold State.setField State.setNum State.setReg; rfl
@[simp] theorem setField_mem (p : Page) (off lo w x : Nat) : (s.setField p off lo w x).mem = s.mem := by unfold State.setField State.setNum State.setReg; rfl
@[simp] theorem setField_ecc (p : Page) (off lo w x : Nat) : (s.setField p off lo w x).ecc = s.ecc := by unfold State.setField State.setNum State.setReg; rfl
@[simp] theorem setField_pulses (p : Page) (off lo w x : Nat) : (s.setField p off lo w x).pulses = s.pulses := by unfold State.setField State.setNum State.setReg; rfl
@[simp] theorem setField_pod (p : Page) (off lo w x : Nat) : (s.setField p off lo w x).pod = s.pod := by unfold State.setField State.setNum State.setReg; rfl
@[simp] theorem setField_clk (p : Page) (off lo w x : Nat) : (s.setField p off lo w x).clk = s.clk := by unfold State.setField State.setNum State.setReg; rfl
@[simp] theorem setField_journals (p : Page) (off lo w x : Nat) : (s.setField p off lo w x).journals = s.journals := by unfold State.setField State.setNum State.setReg; rfl
@[simp] theorem setField_events (p : Page) (off lo w x : Nat) : (s.setField p off lo w x).events = s.events := by unfold State.setField State.setNum State.setReg; rfl
@[simp] theorem setField_compute (p : Page) (off lo w x : Nat) : (s.setField p off lo w x).compute = s.compute := by unfold State.setField State.setNum State.setReg; rfl
@[simp] theorem setField_stackUnits (p : Page) (off lo w x : Nat) : (s.setField p off lo w x).stackUnits = s.stackUnits := by unfold State.setField State.setNum State.setReg; rfl
@[simp] theorem setField_leases (p : Page) (off lo w x : Nat) : (s.setField p off lo w x).leases = s.leases := by unfold State.setField State.setNum State.setReg; rfl
@[simp] theorem setField_frecs (p : Page) (off lo w x : Nat) : (s.setField p off lo w x).frecs = s.frecs := by unfold State.setField State.setNum State.setReg; rfl
@[simp] theorem setField_fabric (p : Page) (off lo w x : Nat) : (s.setField p off lo w x).fabric = s.fabric := by unfold State.setField State.setNum State.setReg; rfl
@[simp] theorem setField_train (p : Page) (off lo w x : Nat) : (s.setField p off lo w x).train = s.train := by unfold State.setField State.setNum State.setReg; rfl
@[simp] theorem setField_coll (p : Page) (off lo w x : Nat) : (s.setField p off lo w x).coll = s.coll := by unfold State.setField State.setNum State.setReg; rfl
@[simp] theorem setField_mig (p : Page) (off lo w x : Nat) : (s.setField p off lo w x).mig = s.mig := by unfold State.setField State.setNum State.setReg; rfl
@[simp] theorem setField_host (p : Page) (off lo w x : Nat) : (s.setField p off lo w x).host = s.host := by unfold State.setField State.setNum State.setReg; rfl
@[simp] theorem setField_power (p : Page) (off lo w x : Nat) : (s.setField p off lo w x).power = s.power := by unfold State.setField State.setNum State.setReg; rfl
@[simp] theorem setField_boot (p : Page) (off lo w x : Nat) : (s.setField p off lo w x).boot = s.boot := by unfold State.setField State.setNum State.setReg; rfl
@[simp] theorem setField_bgnd (p : Page) (off lo w x : Nat) : (s.setField p off lo w x).bgnd = s.bgnd := by unfold State.setField State.setNum State.setReg; rfl
@[simp] theorem setField_cores (p : Page) (off lo w x : Nat) : (s.setField p off lo w x).cores = s.cores := by unfold State.setField State.setNum State.setReg; rfl
@[simp] theorem setField_sec (p : Page) (off lo w x : Nat) : (s.setField p off lo w x).sec = s.sec := by unfold State.setField State.setNum State.setReg; rfl
@[simp] theorem setField_out (p : Page) (off lo w x : Nat) : (s.setField p off lo w x).out = s.out := by unfold State.setField State.setNum State.setReg; rfl
@[simp] theorem setField_outAt (p : Page) (off lo w x : Nat) : (s.setField p off lo w x).outAt = s.outAt := by unfold State.setField State.setNum State.setReg; rfl
@[simp] theorem setField_cycle (p : Page) (off lo w x : Nat) : (s.setField p off lo w x).cycle = s.cycle := by unfold State.setField State.setNum State.setReg; rfl

@[simp] theorem setBit_pending (p : Page) (off i : Nat) (b : Bool) : (s.setBit p off i b).pending = s.pending := by unfold State.setBit State.setField State.setNum State.setReg; rfl
@[simp] theorem setBit_now (p : Page) (off i : Nat) (b : Bool) : (s.setBit p off i b).now = s.now := by unfold State.setBit State.setField State.setNum State.setReg; rfl
@[simp] theorem setBit_free (p : Page) (off i : Nat) (b : Bool) : (s.setBit p off i b).free = s.free := by unfold State.setBit State.setField State.setNum State.setReg; rfl
@[simp] theorem setBit_caps (p : Page) (off i : Nat) (b : Bool) : (s.setBit p off i b).caps = s.caps := by unfold State.setBit State.setField State.setNum State.setReg; rfl
@[simp] theorem setBit_mem (p : Page) (off i : Nat) (b : Bool) : (s.setBit p off i b).mem = s.mem := by unfold State.setBit State.setField State.setNum State.setReg; rfl
@[simp] theorem setBit_ecc (p : Page) (off i : Nat) (b : Bool) : (s.setBit p off i b).ecc = s.ecc := by unfold State.setBit State.setField State.setNum State.setReg; rfl
@[simp] theorem setBit_pulses (p : Page) (off i : Nat) (b : Bool) : (s.setBit p off i b).pulses = s.pulses := by unfold State.setBit State.setField State.setNum State.setReg; rfl
@[simp] theorem setBit_pod (p : Page) (off i : Nat) (b : Bool) : (s.setBit p off i b).pod = s.pod := by unfold State.setBit State.setField State.setNum State.setReg; rfl
@[simp] theorem setBit_clk (p : Page) (off i : Nat) (b : Bool) : (s.setBit p off i b).clk = s.clk := by unfold State.setBit State.setField State.setNum State.setReg; rfl
@[simp] theorem setBit_journals (p : Page) (off i : Nat) (b : Bool) : (s.setBit p off i b).journals = s.journals := by unfold State.setBit State.setField State.setNum State.setReg; rfl
@[simp] theorem setBit_events (p : Page) (off i : Nat) (b : Bool) : (s.setBit p off i b).events = s.events := by unfold State.setBit State.setField State.setNum State.setReg; rfl
@[simp] theorem setBit_compute (p : Page) (off i : Nat) (b : Bool) : (s.setBit p off i b).compute = s.compute := by unfold State.setBit State.setField State.setNum State.setReg; rfl
@[simp] theorem setBit_stackUnits (p : Page) (off i : Nat) (b : Bool) : (s.setBit p off i b).stackUnits = s.stackUnits := by unfold State.setBit State.setField State.setNum State.setReg; rfl
@[simp] theorem setBit_leases (p : Page) (off i : Nat) (b : Bool) : (s.setBit p off i b).leases = s.leases := by unfold State.setBit State.setField State.setNum State.setReg; rfl
@[simp] theorem setBit_frecs (p : Page) (off i : Nat) (b : Bool) : (s.setBit p off i b).frecs = s.frecs := by unfold State.setBit State.setField State.setNum State.setReg; rfl
@[simp] theorem setBit_fabric (p : Page) (off i : Nat) (b : Bool) : (s.setBit p off i b).fabric = s.fabric := by unfold State.setBit State.setField State.setNum State.setReg; rfl
@[simp] theorem setBit_train (p : Page) (off i : Nat) (b : Bool) : (s.setBit p off i b).train = s.train := by unfold State.setBit State.setField State.setNum State.setReg; rfl
@[simp] theorem setBit_coll (p : Page) (off i : Nat) (b : Bool) : (s.setBit p off i b).coll = s.coll := by unfold State.setBit State.setField State.setNum State.setReg; rfl
@[simp] theorem setBit_mig (p : Page) (off i : Nat) (b : Bool) : (s.setBit p off i b).mig = s.mig := by unfold State.setBit State.setField State.setNum State.setReg; rfl
@[simp] theorem setBit_host (p : Page) (off i : Nat) (b : Bool) : (s.setBit p off i b).host = s.host := by unfold State.setBit State.setField State.setNum State.setReg; rfl
@[simp] theorem setBit_power (p : Page) (off i : Nat) (b : Bool) : (s.setBit p off i b).power = s.power := by unfold State.setBit State.setField State.setNum State.setReg; rfl
@[simp] theorem setBit_boot (p : Page) (off i : Nat) (b : Bool) : (s.setBit p off i b).boot = s.boot := by unfold State.setBit State.setField State.setNum State.setReg; rfl
@[simp] theorem setBit_bgnd (p : Page) (off i : Nat) (b : Bool) : (s.setBit p off i b).bgnd = s.bgnd := by unfold State.setBit State.setField State.setNum State.setReg; rfl
@[simp] theorem setBit_cores (p : Page) (off i : Nat) (b : Bool) : (s.setBit p off i b).cores = s.cores := by unfold State.setBit State.setField State.setNum State.setReg; rfl
@[simp] theorem setBit_sec (p : Page) (off i : Nat) (b : Bool) : (s.setBit p off i b).sec = s.sec := by unfold State.setBit State.setField State.setNum State.setReg; rfl
@[simp] theorem setBit_out (p : Page) (off i : Nat) (b : Bool) : (s.setBit p off i b).out = s.out := by unfold State.setBit State.setField State.setNum State.setReg; rfl
@[simp] theorem setBit_outAt (p : Page) (off i : Nat) (b : Bool) : (s.setBit p off i b).outAt = s.outAt := by unfold State.setBit State.setField State.setNum State.setReg; rfl
@[simp] theorem setBit_cycle (p : Page) (off i : Nat) (b : Bool) : (s.setBit p off i b).cycle = s.cycle := by unfold State.setBit State.setField State.setNum State.setReg; rfl

@[simp] theorem setNum64_pending (p : Page) (lo hi v : Nat) : (s.setNum64 p lo hi v).pending = s.pending := by unfold State.setNum64 State.setNum State.setReg; rfl
@[simp] theorem setNum64_now (p : Page) (lo hi v : Nat) : (s.setNum64 p lo hi v).now = s.now := by unfold State.setNum64 State.setNum State.setReg; rfl
@[simp] theorem setNum64_free (p : Page) (lo hi v : Nat) : (s.setNum64 p lo hi v).free = s.free := by unfold State.setNum64 State.setNum State.setReg; rfl
@[simp] theorem setNum64_caps (p : Page) (lo hi v : Nat) : (s.setNum64 p lo hi v).caps = s.caps := by unfold State.setNum64 State.setNum State.setReg; rfl
@[simp] theorem setNum64_mem (p : Page) (lo hi v : Nat) : (s.setNum64 p lo hi v).mem = s.mem := by unfold State.setNum64 State.setNum State.setReg; rfl
@[simp] theorem setNum64_ecc (p : Page) (lo hi v : Nat) : (s.setNum64 p lo hi v).ecc = s.ecc := by unfold State.setNum64 State.setNum State.setReg; rfl
@[simp] theorem setNum64_pulses (p : Page) (lo hi v : Nat) : (s.setNum64 p lo hi v).pulses = s.pulses := by unfold State.setNum64 State.setNum State.setReg; rfl
@[simp] theorem setNum64_pod (p : Page) (lo hi v : Nat) : (s.setNum64 p lo hi v).pod = s.pod := by unfold State.setNum64 State.setNum State.setReg; rfl
@[simp] theorem setNum64_clk (p : Page) (lo hi v : Nat) : (s.setNum64 p lo hi v).clk = s.clk := by unfold State.setNum64 State.setNum State.setReg; rfl
@[simp] theorem setNum64_journals (p : Page) (lo hi v : Nat) : (s.setNum64 p lo hi v).journals = s.journals := by unfold State.setNum64 State.setNum State.setReg; rfl
@[simp] theorem setNum64_events (p : Page) (lo hi v : Nat) : (s.setNum64 p lo hi v).events = s.events := by unfold State.setNum64 State.setNum State.setReg; rfl
@[simp] theorem setNum64_compute (p : Page) (lo hi v : Nat) : (s.setNum64 p lo hi v).compute = s.compute := by unfold State.setNum64 State.setNum State.setReg; rfl
@[simp] theorem setNum64_stackUnits (p : Page) (lo hi v : Nat) : (s.setNum64 p lo hi v).stackUnits = s.stackUnits := by unfold State.setNum64 State.setNum State.setReg; rfl
@[simp] theorem setNum64_leases (p : Page) (lo hi v : Nat) : (s.setNum64 p lo hi v).leases = s.leases := by unfold State.setNum64 State.setNum State.setReg; rfl
@[simp] theorem setNum64_frecs (p : Page) (lo hi v : Nat) : (s.setNum64 p lo hi v).frecs = s.frecs := by unfold State.setNum64 State.setNum State.setReg; rfl
@[simp] theorem setNum64_fabric (p : Page) (lo hi v : Nat) : (s.setNum64 p lo hi v).fabric = s.fabric := by unfold State.setNum64 State.setNum State.setReg; rfl
@[simp] theorem setNum64_train (p : Page) (lo hi v : Nat) : (s.setNum64 p lo hi v).train = s.train := by unfold State.setNum64 State.setNum State.setReg; rfl
@[simp] theorem setNum64_coll (p : Page) (lo hi v : Nat) : (s.setNum64 p lo hi v).coll = s.coll := by unfold State.setNum64 State.setNum State.setReg; rfl
@[simp] theorem setNum64_mig (p : Page) (lo hi v : Nat) : (s.setNum64 p lo hi v).mig = s.mig := by unfold State.setNum64 State.setNum State.setReg; rfl
@[simp] theorem setNum64_host (p : Page) (lo hi v : Nat) : (s.setNum64 p lo hi v).host = s.host := by unfold State.setNum64 State.setNum State.setReg; rfl
@[simp] theorem setNum64_power (p : Page) (lo hi v : Nat) : (s.setNum64 p lo hi v).power = s.power := by unfold State.setNum64 State.setNum State.setReg; rfl
@[simp] theorem setNum64_boot (p : Page) (lo hi v : Nat) : (s.setNum64 p lo hi v).boot = s.boot := by unfold State.setNum64 State.setNum State.setReg; rfl
@[simp] theorem setNum64_bgnd (p : Page) (lo hi v : Nat) : (s.setNum64 p lo hi v).bgnd = s.bgnd := by unfold State.setNum64 State.setNum State.setReg; rfl
@[simp] theorem setNum64_cores (p : Page) (lo hi v : Nat) : (s.setNum64 p lo hi v).cores = s.cores := by unfold State.setNum64 State.setNum State.setReg; rfl
@[simp] theorem setNum64_sec (p : Page) (lo hi v : Nat) : (s.setNum64 p lo hi v).sec = s.sec := by unfold State.setNum64 State.setNum State.setReg; rfl
@[simp] theorem setNum64_out (p : Page) (lo hi v : Nat) : (s.setNum64 p lo hi v).out = s.out := by unfold State.setNum64 State.setNum State.setReg; rfl
@[simp] theorem setNum64_outAt (p : Page) (lo hi v : Nat) : (s.setNum64 p lo hi v).outAt = s.outAt := by unfold State.setNum64 State.setNum State.setReg; rfl
@[simp] theorem setNum64_cycle (p : Page) (lo hi v : Nat) : (s.setNum64 p lo hi v).cycle = s.cycle := by unfold State.setNum64 State.setNum State.setReg; rfl

@[simp] theorem addSat_pending (p : Page) (off n : Nat) : (s.addSat p off n).pending = s.pending := by unfold State.addSat; split <;> unfold State.setNum State.setReg <;> rfl
@[simp] theorem addSat_now (p : Page) (off n : Nat) : (s.addSat p off n).now = s.now := by unfold State.addSat; split <;> unfold State.setNum State.setReg <;> rfl
@[simp] theorem addSat_free (p : Page) (off n : Nat) : (s.addSat p off n).free = s.free := by unfold State.addSat; split <;> unfold State.setNum State.setReg <;> rfl
@[simp] theorem addSat_caps (p : Page) (off n : Nat) : (s.addSat p off n).caps = s.caps := by unfold State.addSat; split <;> unfold State.setNum State.setReg <;> rfl
@[simp] theorem addSat_mem (p : Page) (off n : Nat) : (s.addSat p off n).mem = s.mem := by unfold State.addSat; split <;> unfold State.setNum State.setReg <;> rfl
@[simp] theorem addSat_ecc (p : Page) (off n : Nat) : (s.addSat p off n).ecc = s.ecc := by unfold State.addSat; split <;> unfold State.setNum State.setReg <;> rfl
@[simp] theorem addSat_pulses (p : Page) (off n : Nat) : (s.addSat p off n).pulses = s.pulses := by unfold State.addSat; split <;> unfold State.setNum State.setReg <;> rfl
@[simp] theorem addSat_pod (p : Page) (off n : Nat) : (s.addSat p off n).pod = s.pod := by unfold State.addSat; split <;> unfold State.setNum State.setReg <;> rfl
@[simp] theorem addSat_clk (p : Page) (off n : Nat) : (s.addSat p off n).clk = s.clk := by unfold State.addSat; split <;> unfold State.setNum State.setReg <;> rfl
@[simp] theorem addSat_journals (p : Page) (off n : Nat) : (s.addSat p off n).journals = s.journals := by unfold State.addSat; split <;> unfold State.setNum State.setReg <;> rfl
@[simp] theorem addSat_events (p : Page) (off n : Nat) : (s.addSat p off n).events = s.events := by unfold State.addSat; split <;> unfold State.setNum State.setReg <;> rfl
@[simp] theorem addSat_compute (p : Page) (off n : Nat) : (s.addSat p off n).compute = s.compute := by unfold State.addSat; split <;> unfold State.setNum State.setReg <;> rfl
@[simp] theorem addSat_stackUnits (p : Page) (off n : Nat) : (s.addSat p off n).stackUnits = s.stackUnits := by unfold State.addSat; split <;> unfold State.setNum State.setReg <;> rfl
@[simp] theorem addSat_leases (p : Page) (off n : Nat) : (s.addSat p off n).leases = s.leases := by unfold State.addSat; split <;> unfold State.setNum State.setReg <;> rfl
@[simp] theorem addSat_frecs (p : Page) (off n : Nat) : (s.addSat p off n).frecs = s.frecs := by unfold State.addSat; split <;> unfold State.setNum State.setReg <;> rfl
@[simp] theorem addSat_fabric (p : Page) (off n : Nat) : (s.addSat p off n).fabric = s.fabric := by unfold State.addSat; split <;> unfold State.setNum State.setReg <;> rfl
@[simp] theorem addSat_train (p : Page) (off n : Nat) : (s.addSat p off n).train = s.train := by unfold State.addSat; split <;> unfold State.setNum State.setReg <;> rfl
@[simp] theorem addSat_coll (p : Page) (off n : Nat) : (s.addSat p off n).coll = s.coll := by unfold State.addSat; split <;> unfold State.setNum State.setReg <;> rfl
@[simp] theorem addSat_mig (p : Page) (off n : Nat) : (s.addSat p off n).mig = s.mig := by unfold State.addSat; split <;> unfold State.setNum State.setReg <;> rfl
@[simp] theorem addSat_host (p : Page) (off n : Nat) : (s.addSat p off n).host = s.host := by unfold State.addSat; split <;> unfold State.setNum State.setReg <;> rfl
@[simp] theorem addSat_power (p : Page) (off n : Nat) : (s.addSat p off n).power = s.power := by unfold State.addSat; split <;> unfold State.setNum State.setReg <;> rfl
@[simp] theorem addSat_boot (p : Page) (off n : Nat) : (s.addSat p off n).boot = s.boot := by unfold State.addSat; split <;> unfold State.setNum State.setReg <;> rfl
@[simp] theorem addSat_bgnd (p : Page) (off n : Nat) : (s.addSat p off n).bgnd = s.bgnd := by unfold State.addSat; split <;> unfold State.setNum State.setReg <;> rfl
@[simp] theorem addSat_cores (p : Page) (off n : Nat) : (s.addSat p off n).cores = s.cores := by unfold State.addSat; split <;> unfold State.setNum State.setReg <;> rfl
@[simp] theorem addSat_sec (p : Page) (off n : Nat) : (s.addSat p off n).sec = s.sec := by unfold State.addSat; split <;> unfold State.setNum State.setReg <;> rfl
@[simp] theorem addSat_out (p : Page) (off n : Nat) : (s.addSat p off n).out = s.out := by unfold State.addSat; split <;> unfold State.setNum State.setReg <;> rfl
@[simp] theorem addSat_outAt (p : Page) (off n : Nat) : (s.addSat p off n).outAt = s.outAt := by unfold State.addSat; split <;> unfold State.setNum State.setReg <;> rfl

@[simp] theorem addWrap_pending (p : Page) (off n : Nat) : (s.addWrap p off n).pending = s.pending := by unfold State.addWrap State.setNum State.setReg; rfl
@[simp] theorem addWrap_now (p : Page) (off n : Nat) : (s.addWrap p off n).now = s.now := by unfold State.addWrap State.setNum State.setReg; rfl
@[simp] theorem addWrap_free (p : Page) (off n : Nat) : (s.addWrap p off n).free = s.free := by unfold State.addWrap State.setNum State.setReg; rfl
@[simp] theorem addWrap_caps (p : Page) (off n : Nat) : (s.addWrap p off n).caps = s.caps := by unfold State.addWrap State.setNum State.setReg; rfl
@[simp] theorem addWrap_mem (p : Page) (off n : Nat) : (s.addWrap p off n).mem = s.mem := by unfold State.addWrap State.setNum State.setReg; rfl
@[simp] theorem addWrap_ecc (p : Page) (off n : Nat) : (s.addWrap p off n).ecc = s.ecc := by unfold State.addWrap State.setNum State.setReg; rfl
@[simp] theorem addWrap_pulses (p : Page) (off n : Nat) : (s.addWrap p off n).pulses = s.pulses := by unfold State.addWrap State.setNum State.setReg; rfl
@[simp] theorem addWrap_pod (p : Page) (off n : Nat) : (s.addWrap p off n).pod = s.pod := by unfold State.addWrap State.setNum State.setReg; rfl
@[simp] theorem addWrap_clk (p : Page) (off n : Nat) : (s.addWrap p off n).clk = s.clk := by unfold State.addWrap State.setNum State.setReg; rfl
@[simp] theorem addWrap_journals (p : Page) (off n : Nat) : (s.addWrap p off n).journals = s.journals := by unfold State.addWrap State.setNum State.setReg; rfl
@[simp] theorem addWrap_events (p : Page) (off n : Nat) : (s.addWrap p off n).events = s.events := by unfold State.addWrap State.setNum State.setReg; rfl
@[simp] theorem addWrap_compute (p : Page) (off n : Nat) : (s.addWrap p off n).compute = s.compute := by unfold State.addWrap State.setNum State.setReg; rfl
@[simp] theorem addWrap_stackUnits (p : Page) (off n : Nat) : (s.addWrap p off n).stackUnits = s.stackUnits := by unfold State.addWrap State.setNum State.setReg; rfl
@[simp] theorem addWrap_leases (p : Page) (off n : Nat) : (s.addWrap p off n).leases = s.leases := by unfold State.addWrap State.setNum State.setReg; rfl
@[simp] theorem addWrap_frecs (p : Page) (off n : Nat) : (s.addWrap p off n).frecs = s.frecs := by unfold State.addWrap State.setNum State.setReg; rfl
@[simp] theorem addWrap_fabric (p : Page) (off n : Nat) : (s.addWrap p off n).fabric = s.fabric := by unfold State.addWrap State.setNum State.setReg; rfl
@[simp] theorem addWrap_train (p : Page) (off n : Nat) : (s.addWrap p off n).train = s.train := by unfold State.addWrap State.setNum State.setReg; rfl
@[simp] theorem addWrap_coll (p : Page) (off n : Nat) : (s.addWrap p off n).coll = s.coll := by unfold State.addWrap State.setNum State.setReg; rfl
@[simp] theorem addWrap_mig (p : Page) (off n : Nat) : (s.addWrap p off n).mig = s.mig := by unfold State.addWrap State.setNum State.setReg; rfl
@[simp] theorem addWrap_host (p : Page) (off n : Nat) : (s.addWrap p off n).host = s.host := by unfold State.addWrap State.setNum State.setReg; rfl
@[simp] theorem addWrap_power (p : Page) (off n : Nat) : (s.addWrap p off n).power = s.power := by unfold State.addWrap State.setNum State.setReg; rfl
@[simp] theorem addWrap_boot (p : Page) (off n : Nat) : (s.addWrap p off n).boot = s.boot := by unfold State.addWrap State.setNum State.setReg; rfl
@[simp] theorem addWrap_bgnd (p : Page) (off n : Nat) : (s.addWrap p off n).bgnd = s.bgnd := by unfold State.addWrap State.setNum State.setReg; rfl
@[simp] theorem addWrap_cores (p : Page) (off n : Nat) : (s.addWrap p off n).cores = s.cores := by unfold State.addWrap State.setNum State.setReg; rfl
@[simp] theorem addWrap_sec (p : Page) (off n : Nat) : (s.addWrap p off n).sec = s.sec := by unfold State.addWrap State.setNum State.setReg; rfl
@[simp] theorem addWrap_out (p : Page) (off n : Nat) : (s.addWrap p off n).out = s.out := by unfold State.addWrap State.setNum State.setReg; rfl
@[simp] theorem addWrap_outAt (p : Page) (off n : Nat) : (s.addWrap p off n).outAt = s.outAt := by unfold State.addWrap State.setNum State.setReg; rfl
@[simp] theorem addWrap_cycle (p : Page) (off n : Nat) : (s.addWrap p off n).cycle = s.cycle := by unfold State.addWrap State.setNum State.setReg; rfl

@[simp] theorem setQueue_pending (q n : Nat) (x : Queue) : (s.setQueue q n x).pending = s.pending := by unfold State.setQueue; rfl
@[simp] theorem setQueue_now (q n : Nat) (x : Queue) : (s.setQueue q n x).now = s.now := by unfold State.setQueue; rfl
@[simp] theorem setQueue_free (q n : Nat) (x : Queue) : (s.setQueue q n x).free = s.free := by unfold State.setQueue; rfl
@[simp] theorem setQueue_regs (q n : Nat) (x : Queue) : (s.setQueue q n x).regs = s.regs := by unfold State.setQueue; rfl
@[simp] theorem setQueue_caps (q n : Nat) (x : Queue) : (s.setQueue q n x).caps = s.caps := by unfold State.setQueue; rfl
@[simp] theorem setQueue_mem (q n : Nat) (x : Queue) : (s.setQueue q n x).mem = s.mem := by unfold State.setQueue; rfl
@[simp] theorem setQueue_ecc (q n : Nat) (x : Queue) : (s.setQueue q n x).ecc = s.ecc := by unfold State.setQueue; rfl
@[simp] theorem setQueue_pulses (q n : Nat) (x : Queue) : (s.setQueue q n x).pulses = s.pulses := by unfold State.setQueue; rfl
@[simp] theorem setQueue_pod (q n : Nat) (x : Queue) : (s.setQueue q n x).pod = s.pod := by unfold State.setQueue; rfl
@[simp] theorem setQueue_clk (q n : Nat) (x : Queue) : (s.setQueue q n x).clk = s.clk := by unfold State.setQueue; rfl
@[simp] theorem setQueue_journals (q n : Nat) (x : Queue) : (s.setQueue q n x).journals = s.journals := by unfold State.setQueue; rfl
@[simp] theorem setQueue_events (q n : Nat) (x : Queue) : (s.setQueue q n x).events = s.events := by unfold State.setQueue; rfl
@[simp] theorem setQueue_stackUnits (q n : Nat) (x : Queue) : (s.setQueue q n x).stackUnits = s.stackUnits := by unfold State.setQueue; rfl
@[simp] theorem setQueue_leases (q n : Nat) (x : Queue) : (s.setQueue q n x).leases = s.leases := by unfold State.setQueue; rfl
@[simp] theorem setQueue_frecs (q n : Nat) (x : Queue) : (s.setQueue q n x).frecs = s.frecs := by unfold State.setQueue; rfl
@[simp] theorem setQueue_fabric (q n : Nat) (x : Queue) : (s.setQueue q n x).fabric = s.fabric := by unfold State.setQueue; rfl
@[simp] theorem setQueue_train (q n : Nat) (x : Queue) : (s.setQueue q n x).train = s.train := by unfold State.setQueue; rfl
@[simp] theorem setQueue_coll (q n : Nat) (x : Queue) : (s.setQueue q n x).coll = s.coll := by unfold State.setQueue; rfl
@[simp] theorem setQueue_mig (q n : Nat) (x : Queue) : (s.setQueue q n x).mig = s.mig := by unfold State.setQueue; rfl
@[simp] theorem setQueue_host (q n : Nat) (x : Queue) : (s.setQueue q n x).host = s.host := by unfold State.setQueue; rfl
@[simp] theorem setQueue_power (q n : Nat) (x : Queue) : (s.setQueue q n x).power = s.power := by unfold State.setQueue; rfl
@[simp] theorem setQueue_boot (q n : Nat) (x : Queue) : (s.setQueue q n x).boot = s.boot := by unfold State.setQueue; rfl
@[simp] theorem setQueue_bgnd (q n : Nat) (x : Queue) : (s.setQueue q n x).bgnd = s.bgnd := by unfold State.setQueue; rfl
@[simp] theorem setQueue_cores (q n : Nat) (x : Queue) : (s.setQueue q n x).cores = s.cores := by unfold State.setQueue; rfl
@[simp] theorem setQueue_sec (q n : Nat) (x : Queue) : (s.setQueue q n x).sec = s.sec := by unfold State.setQueue; rfl
@[simp] theorem setQueue_out (q n : Nat) (x : Queue) : (s.setQueue q n x).out = s.out := by unfold State.setQueue; rfl
@[simp] theorem setQueue_outAt (q n : Nat) (x : Queue) : (s.setQueue q n x).outAt = s.outAt := by unfold State.setQueue; rfl
@[simp] theorem setQueue_cycle (q n : Nat) (x : Queue) : (s.setQueue q n x).cycle = s.cycle := by unfold State.setQueue; rfl

@[simp] theorem setArray_pending (q p a : Nat) (x : ArrayState) : (s.setArray q p a x).pending = s.pending := by unfold State.setArray; rfl
@[simp] theorem setArray_now (q p a : Nat) (x : ArrayState) : (s.setArray q p a x).now = s.now := by unfold State.setArray; rfl
@[simp] theorem setArray_free (q p a : Nat) (x : ArrayState) : (s.setArray q p a x).free = s.free := by unfold State.setArray; rfl
@[simp] theorem setArray_regs (q p a : Nat) (x : ArrayState) : (s.setArray q p a x).regs = s.regs := by unfold State.setArray; rfl
@[simp] theorem setArray_caps (q p a : Nat) (x : ArrayState) : (s.setArray q p a x).caps = s.caps := by unfold State.setArray; rfl
@[simp] theorem setArray_mem (q p a : Nat) (x : ArrayState) : (s.setArray q p a x).mem = s.mem := by unfold State.setArray; rfl
@[simp] theorem setArray_ecc (q p a : Nat) (x : ArrayState) : (s.setArray q p a x).ecc = s.ecc := by unfold State.setArray; rfl
@[simp] theorem setArray_pulses (q p a : Nat) (x : ArrayState) : (s.setArray q p a x).pulses = s.pulses := by unfold State.setArray; rfl
@[simp] theorem setArray_pod (q p a : Nat) (x : ArrayState) : (s.setArray q p a x).pod = s.pod := by unfold State.setArray; rfl
@[simp] theorem setArray_clk (q p a : Nat) (x : ArrayState) : (s.setArray q p a x).clk = s.clk := by unfold State.setArray; rfl
@[simp] theorem setArray_journals (q p a : Nat) (x : ArrayState) : (s.setArray q p a x).journals = s.journals := by unfold State.setArray; rfl
@[simp] theorem setArray_events (q p a : Nat) (x : ArrayState) : (s.setArray q p a x).events = s.events := by unfold State.setArray; rfl
@[simp] theorem setArray_stackUnits (q p a : Nat) (x : ArrayState) : (s.setArray q p a x).stackUnits = s.stackUnits := by unfold State.setArray; rfl
@[simp] theorem setArray_leases (q p a : Nat) (x : ArrayState) : (s.setArray q p a x).leases = s.leases := by unfold State.setArray; rfl
@[simp] theorem setArray_frecs (q p a : Nat) (x : ArrayState) : (s.setArray q p a x).frecs = s.frecs := by unfold State.setArray; rfl
@[simp] theorem setArray_fabric (q p a : Nat) (x : ArrayState) : (s.setArray q p a x).fabric = s.fabric := by unfold State.setArray; rfl
@[simp] theorem setArray_train (q p a : Nat) (x : ArrayState) : (s.setArray q p a x).train = s.train := by unfold State.setArray; rfl
@[simp] theorem setArray_coll (q p a : Nat) (x : ArrayState) : (s.setArray q p a x).coll = s.coll := by unfold State.setArray; rfl
@[simp] theorem setArray_mig (q p a : Nat) (x : ArrayState) : (s.setArray q p a x).mig = s.mig := by unfold State.setArray; rfl
@[simp] theorem setArray_host (q p a : Nat) (x : ArrayState) : (s.setArray q p a x).host = s.host := by unfold State.setArray; rfl
@[simp] theorem setArray_power (q p a : Nat) (x : ArrayState) : (s.setArray q p a x).power = s.power := by unfold State.setArray; rfl
@[simp] theorem setArray_boot (q p a : Nat) (x : ArrayState) : (s.setArray q p a x).boot = s.boot := by unfold State.setArray; rfl
@[simp] theorem setArray_bgnd (q p a : Nat) (x : ArrayState) : (s.setArray q p a x).bgnd = s.bgnd := by unfold State.setArray; rfl
@[simp] theorem setArray_cores (q p a : Nat) (x : ArrayState) : (s.setArray q p a x).cores = s.cores := by unfold State.setArray; rfl
@[simp] theorem setArray_sec (q p a : Nat) (x : ArrayState) : (s.setArray q p a x).sec = s.sec := by unfold State.setArray; rfl
@[simp] theorem setArray_out (q p a : Nat) (x : ArrayState) : (s.setArray q p a x).out = s.out := by unfold State.setArray; rfl
@[simp] theorem setArray_outAt (q p a : Nat) (x : ArrayState) : (s.setArray q p a x).outAt = s.outAt := by unfold State.setArray; rfl
@[simp] theorem setArray_cycle (q p a : Nat) (x : ArrayState) : (s.setArray q p a x).cycle = s.cycle := by unfold State.setArray; rfl

@[simp] theorem setMangles_pending (q : Nat) (x : Mangles) : (s.setMangles q x).pending = s.pending := by unfold State.setMangles; rfl
@[simp] theorem setMangles_now (q : Nat) (x : Mangles) : (s.setMangles q x).now = s.now := by unfold State.setMangles; rfl
@[simp] theorem setMangles_free (q : Nat) (x : Mangles) : (s.setMangles q x).free = s.free := by unfold State.setMangles; rfl
@[simp] theorem setMangles_regs (q : Nat) (x : Mangles) : (s.setMangles q x).regs = s.regs := by unfold State.setMangles; rfl
@[simp] theorem setMangles_caps (q : Nat) (x : Mangles) : (s.setMangles q x).caps = s.caps := by unfold State.setMangles; rfl
@[simp] theorem setMangles_mem (q : Nat) (x : Mangles) : (s.setMangles q x).mem = s.mem := by unfold State.setMangles; rfl
@[simp] theorem setMangles_ecc (q : Nat) (x : Mangles) : (s.setMangles q x).ecc = s.ecc := by unfold State.setMangles; rfl
@[simp] theorem setMangles_pulses (q : Nat) (x : Mangles) : (s.setMangles q x).pulses = s.pulses := by unfold State.setMangles; rfl
@[simp] theorem setMangles_pod (q : Nat) (x : Mangles) : (s.setMangles q x).pod = s.pod := by unfold State.setMangles; rfl
@[simp] theorem setMangles_clk (q : Nat) (x : Mangles) : (s.setMangles q x).clk = s.clk := by unfold State.setMangles; rfl
@[simp] theorem setMangles_journals (q : Nat) (x : Mangles) : (s.setMangles q x).journals = s.journals := by unfold State.setMangles; rfl
@[simp] theorem setMangles_events (q : Nat) (x : Mangles) : (s.setMangles q x).events = s.events := by unfold State.setMangles; rfl
@[simp] theorem setMangles_stackUnits (q : Nat) (x : Mangles) : (s.setMangles q x).stackUnits = s.stackUnits := by unfold State.setMangles; rfl
@[simp] theorem setMangles_leases (q : Nat) (x : Mangles) : (s.setMangles q x).leases = s.leases := by unfold State.setMangles; rfl
@[simp] theorem setMangles_frecs (q : Nat) (x : Mangles) : (s.setMangles q x).frecs = s.frecs := by unfold State.setMangles; rfl
@[simp] theorem setMangles_fabric (q : Nat) (x : Mangles) : (s.setMangles q x).fabric = s.fabric := by unfold State.setMangles; rfl
@[simp] theorem setMangles_train (q : Nat) (x : Mangles) : (s.setMangles q x).train = s.train := by unfold State.setMangles; rfl
@[simp] theorem setMangles_coll (q : Nat) (x : Mangles) : (s.setMangles q x).coll = s.coll := by unfold State.setMangles; rfl
@[simp] theorem setMangles_mig (q : Nat) (x : Mangles) : (s.setMangles q x).mig = s.mig := by unfold State.setMangles; rfl
@[simp] theorem setMangles_host (q : Nat) (x : Mangles) : (s.setMangles q x).host = s.host := by unfold State.setMangles; rfl
@[simp] theorem setMangles_power (q : Nat) (x : Mangles) : (s.setMangles q x).power = s.power := by unfold State.setMangles; rfl
@[simp] theorem setMangles_boot (q : Nat) (x : Mangles) : (s.setMangles q x).boot = s.boot := by unfold State.setMangles; rfl
@[simp] theorem setMangles_bgnd (q : Nat) (x : Mangles) : (s.setMangles q x).bgnd = s.bgnd := by unfold State.setMangles; rfl
@[simp] theorem setMangles_cores (q : Nat) (x : Mangles) : (s.setMangles q x).cores = s.cores := by unfold State.setMangles; rfl
@[simp] theorem setMangles_sec (q : Nat) (x : Mangles) : (s.setMangles q x).sec = s.sec := by unfold State.setMangles; rfl
@[simp] theorem setMangles_out (q : Nat) (x : Mangles) : (s.setMangles q x).out = s.out := by unfold State.setMangles; rfl
@[simp] theorem setMangles_outAt (q : Nat) (x : Mangles) : (s.setMangles q x).outAt = s.outAt := by unfold State.setMangles; rfl
@[simp] theorem setMangles_cycle (q : Nat) (x : Mangles) : (s.setMangles q x).cycle = s.cycle := by unfold State.setMangles; rfl

@[simp] theorem setFold_pending (x : FoldSched) : (s.setFold x).pending = s.pending := by unfold State.setFold; rfl
@[simp] theorem setFold_now (x : FoldSched) : (s.setFold x).now = s.now := by unfold State.setFold; rfl
@[simp] theorem setFold_free (x : FoldSched) : (s.setFold x).free = s.free := by unfold State.setFold; rfl
@[simp] theorem setFold_regs (x : FoldSched) : (s.setFold x).regs = s.regs := by unfold State.setFold; rfl
@[simp] theorem setFold_caps (x : FoldSched) : (s.setFold x).caps = s.caps := by unfold State.setFold; rfl
@[simp] theorem setFold_mem (x : FoldSched) : (s.setFold x).mem = s.mem := by unfold State.setFold; rfl
@[simp] theorem setFold_ecc (x : FoldSched) : (s.setFold x).ecc = s.ecc := by unfold State.setFold; rfl
@[simp] theorem setFold_pulses (x : FoldSched) : (s.setFold x).pulses = s.pulses := by unfold State.setFold; rfl
@[simp] theorem setFold_pod (x : FoldSched) : (s.setFold x).pod = s.pod := by unfold State.setFold; rfl
@[simp] theorem setFold_clk (x : FoldSched) : (s.setFold x).clk = s.clk := by unfold State.setFold; rfl
@[simp] theorem setFold_journals (x : FoldSched) : (s.setFold x).journals = s.journals := by unfold State.setFold; rfl
@[simp] theorem setFold_events (x : FoldSched) : (s.setFold x).events = s.events := by unfold State.setFold; rfl
@[simp] theorem setFold_stackUnits (x : FoldSched) : (s.setFold x).stackUnits = s.stackUnits := by unfold State.setFold; rfl
@[simp] theorem setFold_leases (x : FoldSched) : (s.setFold x).leases = s.leases := by unfold State.setFold; rfl
@[simp] theorem setFold_frecs (x : FoldSched) : (s.setFold x).frecs = s.frecs := by unfold State.setFold; rfl
@[simp] theorem setFold_fabric (x : FoldSched) : (s.setFold x).fabric = s.fabric := by unfold State.setFold; rfl
@[simp] theorem setFold_train (x : FoldSched) : (s.setFold x).train = s.train := by unfold State.setFold; rfl
@[simp] theorem setFold_coll (x : FoldSched) : (s.setFold x).coll = s.coll := by unfold State.setFold; rfl
@[simp] theorem setFold_mig (x : FoldSched) : (s.setFold x).mig = s.mig := by unfold State.setFold; rfl
@[simp] theorem setFold_host (x : FoldSched) : (s.setFold x).host = s.host := by unfold State.setFold; rfl
@[simp] theorem setFold_power (x : FoldSched) : (s.setFold x).power = s.power := by unfold State.setFold; rfl
@[simp] theorem setFold_boot (x : FoldSched) : (s.setFold x).boot = s.boot := by unfold State.setFold; rfl
@[simp] theorem setFold_bgnd (x : FoldSched) : (s.setFold x).bgnd = s.bgnd := by unfold State.setFold; rfl
@[simp] theorem setFold_cores (x : FoldSched) : (s.setFold x).cores = s.cores := by unfold State.setFold; rfl
@[simp] theorem setFold_sec (x : FoldSched) : (s.setFold x).sec = s.sec := by unfold State.setFold; rfl
@[simp] theorem setFold_out (x : FoldSched) : (s.setFold x).out = s.out := by unfold State.setFold; rfl
@[simp] theorem setFold_outAt (x : FoldSched) : (s.setFold x).outAt = s.outAt := by unfold State.setFold; rfl
@[simp] theorem setFold_cycle (x : FoldSched) : (s.setFold x).cycle = s.cycle := by unfold State.setFold; rfl

@[simp] theorem setJournal_pending (q : Nat) (x : Journal) : (s.setJournal q x).pending = s.pending := by unfold State.setJournal; rfl
@[simp] theorem setJournal_now (q : Nat) (x : Journal) : (s.setJournal q x).now = s.now := by unfold State.setJournal; rfl
@[simp] theorem setJournal_free (q : Nat) (x : Journal) : (s.setJournal q x).free = s.free := by unfold State.setJournal; rfl
@[simp] theorem setJournal_regs (q : Nat) (x : Journal) : (s.setJournal q x).regs = s.regs := by unfold State.setJournal; rfl
@[simp] theorem setJournal_caps (q : Nat) (x : Journal) : (s.setJournal q x).caps = s.caps := by unfold State.setJournal; rfl
@[simp] theorem setJournal_mem (q : Nat) (x : Journal) : (s.setJournal q x).mem = s.mem := by unfold State.setJournal; rfl
@[simp] theorem setJournal_ecc (q : Nat) (x : Journal) : (s.setJournal q x).ecc = s.ecc := by unfold State.setJournal; rfl
@[simp] theorem setJournal_pulses (q : Nat) (x : Journal) : (s.setJournal q x).pulses = s.pulses := by unfold State.setJournal; rfl
@[simp] theorem setJournal_pod (q : Nat) (x : Journal) : (s.setJournal q x).pod = s.pod := by unfold State.setJournal; rfl
@[simp] theorem setJournal_clk (q : Nat) (x : Journal) : (s.setJournal q x).clk = s.clk := by unfold State.setJournal; rfl
@[simp] theorem setJournal_events (q : Nat) (x : Journal) : (s.setJournal q x).events = s.events := by unfold State.setJournal; rfl
@[simp] theorem setJournal_compute (q : Nat) (x : Journal) : (s.setJournal q x).compute = s.compute := by unfold State.setJournal; rfl
@[simp] theorem setJournal_stackUnits (q : Nat) (x : Journal) : (s.setJournal q x).stackUnits = s.stackUnits := by unfold State.setJournal; rfl
@[simp] theorem setJournal_leases (q : Nat) (x : Journal) : (s.setJournal q x).leases = s.leases := by unfold State.setJournal; rfl
@[simp] theorem setJournal_frecs (q : Nat) (x : Journal) : (s.setJournal q x).frecs = s.frecs := by unfold State.setJournal; rfl
@[simp] theorem setJournal_fabric (q : Nat) (x : Journal) : (s.setJournal q x).fabric = s.fabric := by unfold State.setJournal; rfl
@[simp] theorem setJournal_train (q : Nat) (x : Journal) : (s.setJournal q x).train = s.train := by unfold State.setJournal; rfl
@[simp] theorem setJournal_coll (q : Nat) (x : Journal) : (s.setJournal q x).coll = s.coll := by unfold State.setJournal; rfl
@[simp] theorem setJournal_mig (q : Nat) (x : Journal) : (s.setJournal q x).mig = s.mig := by unfold State.setJournal; rfl
@[simp] theorem setJournal_host (q : Nat) (x : Journal) : (s.setJournal q x).host = s.host := by unfold State.setJournal; rfl
@[simp] theorem setJournal_power (q : Nat) (x : Journal) : (s.setJournal q x).power = s.power := by unfold State.setJournal; rfl
@[simp] theorem setJournal_boot (q : Nat) (x : Journal) : (s.setJournal q x).boot = s.boot := by unfold State.setJournal; rfl
@[simp] theorem setJournal_bgnd (q : Nat) (x : Journal) : (s.setJournal q x).bgnd = s.bgnd := by unfold State.setJournal; rfl
@[simp] theorem setJournal_cores (q : Nat) (x : Journal) : (s.setJournal q x).cores = s.cores := by unfold State.setJournal; rfl
@[simp] theorem setJournal_sec (q : Nat) (x : Journal) : (s.setJournal q x).sec = s.sec := by unfold State.setJournal; rfl
@[simp] theorem setJournal_out (q : Nat) (x : Journal) : (s.setJournal q x).out = s.out := by unfold State.setJournal; rfl
@[simp] theorem setJournal_outAt (q : Nat) (x : Journal) : (s.setJournal q x).outAt = s.outAt := by unfold State.setJournal; rfl
@[simp] theorem setJournal_cycle (q : Nat) (x : Journal) : (s.setJournal q x).cycle = s.cycle := by unfold State.setJournal; rfl

@[simp] theorem setStack_pending (q n : Nat) (x : Stack) : (s.setStack q n x).pending = s.pending := by unfold State.setStack; rfl
@[simp] theorem setStack_now (q n : Nat) (x : Stack) : (s.setStack q n x).now = s.now := by unfold State.setStack; rfl
@[simp] theorem setStack_free (q n : Nat) (x : Stack) : (s.setStack q n x).free = s.free := by unfold State.setStack; rfl
@[simp] theorem setStack_regs (q n : Nat) (x : Stack) : (s.setStack q n x).regs = s.regs := by unfold State.setStack; rfl
@[simp] theorem setStack_caps (q n : Nat) (x : Stack) : (s.setStack q n x).caps = s.caps := by unfold State.setStack; rfl
@[simp] theorem setStack_mem (q n : Nat) (x : Stack) : (s.setStack q n x).mem = s.mem := by unfold State.setStack; rfl
@[simp] theorem setStack_ecc (q n : Nat) (x : Stack) : (s.setStack q n x).ecc = s.ecc := by unfold State.setStack; rfl
@[simp] theorem setStack_pulses (q n : Nat) (x : Stack) : (s.setStack q n x).pulses = s.pulses := by unfold State.setStack; rfl
@[simp] theorem setStack_pod (q n : Nat) (x : Stack) : (s.setStack q n x).pod = s.pod := by unfold State.setStack; rfl
@[simp] theorem setStack_clk (q n : Nat) (x : Stack) : (s.setStack q n x).clk = s.clk := by unfold State.setStack; rfl
@[simp] theorem setStack_journals (q n : Nat) (x : Stack) : (s.setStack q n x).journals = s.journals := by unfold State.setStack; rfl
@[simp] theorem setStack_events (q n : Nat) (x : Stack) : (s.setStack q n x).events = s.events := by unfold State.setStack; rfl
@[simp] theorem setStack_compute (q n : Nat) (x : Stack) : (s.setStack q n x).compute = s.compute := by unfold State.setStack; rfl
@[simp] theorem setStack_leases (q n : Nat) (x : Stack) : (s.setStack q n x).leases = s.leases := by unfold State.setStack; rfl
@[simp] theorem setStack_frecs (q n : Nat) (x : Stack) : (s.setStack q n x).frecs = s.frecs := by unfold State.setStack; rfl
@[simp] theorem setStack_fabric (q n : Nat) (x : Stack) : (s.setStack q n x).fabric = s.fabric := by unfold State.setStack; rfl
@[simp] theorem setStack_train (q n : Nat) (x : Stack) : (s.setStack q n x).train = s.train := by unfold State.setStack; rfl
@[simp] theorem setStack_coll (q n : Nat) (x : Stack) : (s.setStack q n x).coll = s.coll := by unfold State.setStack; rfl
@[simp] theorem setStack_mig (q n : Nat) (x : Stack) : (s.setStack q n x).mig = s.mig := by unfold State.setStack; rfl
@[simp] theorem setStack_host (q n : Nat) (x : Stack) : (s.setStack q n x).host = s.host := by unfold State.setStack; rfl
@[simp] theorem setStack_power (q n : Nat) (x : Stack) : (s.setStack q n x).power = s.power := by unfold State.setStack; rfl
@[simp] theorem setStack_boot (q n : Nat) (x : Stack) : (s.setStack q n x).boot = s.boot := by unfold State.setStack; rfl
@[simp] theorem setStack_bgnd (q n : Nat) (x : Stack) : (s.setStack q n x).bgnd = s.bgnd := by unfold State.setStack; rfl
@[simp] theorem setStack_cores (q n : Nat) (x : Stack) : (s.setStack q n x).cores = s.cores := by unfold State.setStack; rfl
@[simp] theorem setStack_sec (q n : Nat) (x : Stack) : (s.setStack q n x).sec = s.sec := by unfold State.setStack; rfl
@[simp] theorem setStack_out (q n : Nat) (x : Stack) : (s.setStack q n x).out = s.out := by unfold State.setStack; rfl
@[simp] theorem setStack_outAt (q n : Nat) (x : Stack) : (s.setStack q n x).outAt = s.outAt := by unfold State.setStack; rfl
@[simp] theorem setStack_cycle (q n : Nat) (x : Stack) : (s.setStack q n x).cycle = s.cycle := by unfold State.setStack; rfl

@[simp] theorem setIsland_pending (q i c : Nat) : (s.setIsland q i c).pending = s.pending := by unfold State.setIsland; rfl
@[simp] theorem setIsland_now (q i c : Nat) : (s.setIsland q i c).now = s.now := by unfold State.setIsland; rfl
@[simp] theorem setIsland_free (q i c : Nat) : (s.setIsland q i c).free = s.free := by unfold State.setIsland; rfl
@[simp] theorem setIsland_regs (q i c : Nat) : (s.setIsland q i c).regs = s.regs := by unfold State.setIsland; rfl
@[simp] theorem setIsland_caps (q i c : Nat) : (s.setIsland q i c).caps = s.caps := by unfold State.setIsland; rfl
@[simp] theorem setIsland_mem (q i c : Nat) : (s.setIsland q i c).mem = s.mem := by unfold State.setIsland; rfl
@[simp] theorem setIsland_ecc (q i c : Nat) : (s.setIsland q i c).ecc = s.ecc := by unfold State.setIsland; rfl
@[simp] theorem setIsland_pulses (q i c : Nat) : (s.setIsland q i c).pulses = s.pulses := by unfold State.setIsland; rfl
@[simp] theorem setIsland_pod (q i c : Nat) : (s.setIsland q i c).pod = s.pod := by unfold State.setIsland; rfl
@[simp] theorem setIsland_journals (q i c : Nat) : (s.setIsland q i c).journals = s.journals := by unfold State.setIsland; rfl
@[simp] theorem setIsland_events (q i c : Nat) : (s.setIsland q i c).events = s.events := by unfold State.setIsland; rfl
@[simp] theorem setIsland_compute (q i c : Nat) : (s.setIsland q i c).compute = s.compute := by unfold State.setIsland; rfl
@[simp] theorem setIsland_stackUnits (q i c : Nat) : (s.setIsland q i c).stackUnits = s.stackUnits := by unfold State.setIsland; rfl
@[simp] theorem setIsland_leases (q i c : Nat) : (s.setIsland q i c).leases = s.leases := by unfold State.setIsland; rfl
@[simp] theorem setIsland_frecs (q i c : Nat) : (s.setIsland q i c).frecs = s.frecs := by unfold State.setIsland; rfl
@[simp] theorem setIsland_fabric (q i c : Nat) : (s.setIsland q i c).fabric = s.fabric := by unfold State.setIsland; rfl
@[simp] theorem setIsland_train (q i c : Nat) : (s.setIsland q i c).train = s.train := by unfold State.setIsland; rfl
@[simp] theorem setIsland_coll (q i c : Nat) : (s.setIsland q i c).coll = s.coll := by unfold State.setIsland; rfl
@[simp] theorem setIsland_mig (q i c : Nat) : (s.setIsland q i c).mig = s.mig := by unfold State.setIsland; rfl
@[simp] theorem setIsland_host (q i c : Nat) : (s.setIsland q i c).host = s.host := by unfold State.setIsland; rfl
@[simp] theorem setIsland_power (q i c : Nat) : (s.setIsland q i c).power = s.power := by unfold State.setIsland; rfl
@[simp] theorem setIsland_boot (q i c : Nat) : (s.setIsland q i c).boot = s.boot := by unfold State.setIsland; rfl
@[simp] theorem setIsland_bgnd (q i c : Nat) : (s.setIsland q i c).bgnd = s.bgnd := by unfold State.setIsland; rfl
@[simp] theorem setIsland_cores (q i c : Nat) : (s.setIsland q i c).cores = s.cores := by unfold State.setIsland; rfl
@[simp] theorem setIsland_sec (q i c : Nat) : (s.setIsland q i c).sec = s.sec := by unfold State.setIsland; rfl
@[simp] theorem setIsland_out (q i c : Nat) : (s.setIsland q i c).out = s.out := by unfold State.setIsland; rfl
@[simp] theorem setIsland_outAt (q i c : Nat) : (s.setIsland q i c).outAt = s.outAt := by unfold State.setIsland; rfl
@[simp] theorem setIsland_cycle (q i c : Nat) : (s.setIsland q i c).cycle = s.cycle := by unfold State.setIsland; rfl

@[simp] theorem setEcc_pending (c v : Nat) : (s.setEcc c v).pending = s.pending := by unfold State.setEcc; rfl
@[simp] theorem setEcc_now (c v : Nat) : (s.setEcc c v).now = s.now := by unfold State.setEcc; rfl
@[simp] theorem setEcc_free (c v : Nat) : (s.setEcc c v).free = s.free := by unfold State.setEcc; rfl
@[simp] theorem setEcc_regs (c v : Nat) : (s.setEcc c v).regs = s.regs := by unfold State.setEcc; rfl
@[simp] theorem setEcc_caps (c v : Nat) : (s.setEcc c v).caps = s.caps := by unfold State.setEcc; rfl
@[simp] theorem setEcc_mem (c v : Nat) : (s.setEcc c v).mem = s.mem := by unfold State.setEcc; rfl
@[simp] theorem setEcc_pulses (c v : Nat) : (s.setEcc c v).pulses = s.pulses := by unfold State.setEcc; rfl
@[simp] theorem setEcc_pod (c v : Nat) : (s.setEcc c v).pod = s.pod := by unfold State.setEcc; rfl
@[simp] theorem setEcc_clk (c v : Nat) : (s.setEcc c v).clk = s.clk := by unfold State.setEcc; rfl
@[simp] theorem setEcc_journals (c v : Nat) : (s.setEcc c v).journals = s.journals := by unfold State.setEcc; rfl
@[simp] theorem setEcc_events (c v : Nat) : (s.setEcc c v).events = s.events := by unfold State.setEcc; rfl
@[simp] theorem setEcc_compute (c v : Nat) : (s.setEcc c v).compute = s.compute := by unfold State.setEcc; rfl
@[simp] theorem setEcc_stackUnits (c v : Nat) : (s.setEcc c v).stackUnits = s.stackUnits := by unfold State.setEcc; rfl
@[simp] theorem setEcc_leases (c v : Nat) : (s.setEcc c v).leases = s.leases := by unfold State.setEcc; rfl
@[simp] theorem setEcc_frecs (c v : Nat) : (s.setEcc c v).frecs = s.frecs := by unfold State.setEcc; rfl
@[simp] theorem setEcc_fabric (c v : Nat) : (s.setEcc c v).fabric = s.fabric := by unfold State.setEcc; rfl
@[simp] theorem setEcc_train (c v : Nat) : (s.setEcc c v).train = s.train := by unfold State.setEcc; rfl
@[simp] theorem setEcc_coll (c v : Nat) : (s.setEcc c v).coll = s.coll := by unfold State.setEcc; rfl
@[simp] theorem setEcc_mig (c v : Nat) : (s.setEcc c v).mig = s.mig := by unfold State.setEcc; rfl
@[simp] theorem setEcc_host (c v : Nat) : (s.setEcc c v).host = s.host := by unfold State.setEcc; rfl
@[simp] theorem setEcc_power (c v : Nat) : (s.setEcc c v).power = s.power := by unfold State.setEcc; rfl
@[simp] theorem setEcc_boot (c v : Nat) : (s.setEcc c v).boot = s.boot := by unfold State.setEcc; rfl
@[simp] theorem setEcc_bgnd (c v : Nat) : (s.setEcc c v).bgnd = s.bgnd := by unfold State.setEcc; rfl
@[simp] theorem setEcc_cores (c v : Nat) : (s.setEcc c v).cores = s.cores := by unfold State.setEcc; rfl
@[simp] theorem setEcc_sec (c v : Nat) : (s.setEcc c v).sec = s.sec := by unfold State.setEcc; rfl
@[simp] theorem setEcc_out (c v : Nat) : (s.setEcc c v).out = s.out := by unfold State.setEcc; rfl
@[simp] theorem setEcc_outAt (c v : Nat) : (s.setEcc c v).outAt = s.outAt := by unfold State.setEcc; rfl
@[simp] theorem setEcc_cycle (c v : Nat) : (s.setEcc c v).cycle = s.cycle := by unfold State.setEcc; rfl

@[simp] theorem setLease_pending (n : Nat) (l : Lease) : (s.setLease n l).pending = s.pending := by unfold State.setLease; rfl
@[simp] theorem setLease_now (n : Nat) (l : Lease) : (s.setLease n l).now = s.now := by unfold State.setLease; rfl
@[simp] theorem setLease_free (n : Nat) (l : Lease) : (s.setLease n l).free = s.free := by unfold State.setLease; rfl
@[simp] theorem setLease_regs (n : Nat) (l : Lease) : (s.setLease n l).regs = s.regs := by unfold State.setLease; rfl
@[simp] theorem setLease_caps (n : Nat) (l : Lease) : (s.setLease n l).caps = s.caps := by unfold State.setLease; rfl
@[simp] theorem setLease_mem (n : Nat) (l : Lease) : (s.setLease n l).mem = s.mem := by unfold State.setLease; rfl
@[simp] theorem setLease_ecc (n : Nat) (l : Lease) : (s.setLease n l).ecc = s.ecc := by unfold State.setLease; rfl
@[simp] theorem setLease_pulses (n : Nat) (l : Lease) : (s.setLease n l).pulses = s.pulses := by unfold State.setLease; rfl
@[simp] theorem setLease_pod (n : Nat) (l : Lease) : (s.setLease n l).pod = s.pod := by unfold State.setLease; rfl
@[simp] theorem setLease_clk (n : Nat) (l : Lease) : (s.setLease n l).clk = s.clk := by unfold State.setLease; rfl
@[simp] theorem setLease_journals (n : Nat) (l : Lease) : (s.setLease n l).journals = s.journals := by unfold State.setLease; rfl
@[simp] theorem setLease_events (n : Nat) (l : Lease) : (s.setLease n l).events = s.events := by unfold State.setLease; rfl
@[simp] theorem setLease_compute (n : Nat) (l : Lease) : (s.setLease n l).compute = s.compute := by unfold State.setLease; rfl
@[simp] theorem setLease_stackUnits (n : Nat) (l : Lease) : (s.setLease n l).stackUnits = s.stackUnits := by unfold State.setLease; rfl
@[simp] theorem setLease_frecs (n : Nat) (l : Lease) : (s.setLease n l).frecs = s.frecs := by unfold State.setLease; rfl
@[simp] theorem setLease_fabric (n : Nat) (l : Lease) : (s.setLease n l).fabric = s.fabric := by unfold State.setLease; rfl
@[simp] theorem setLease_train (n : Nat) (l : Lease) : (s.setLease n l).train = s.train := by unfold State.setLease; rfl
@[simp] theorem setLease_coll (n : Nat) (l : Lease) : (s.setLease n l).coll = s.coll := by unfold State.setLease; rfl
@[simp] theorem setLease_mig (n : Nat) (l : Lease) : (s.setLease n l).mig = s.mig := by unfold State.setLease; rfl
@[simp] theorem setLease_host (n : Nat) (l : Lease) : (s.setLease n l).host = s.host := by unfold State.setLease; rfl
@[simp] theorem setLease_power (n : Nat) (l : Lease) : (s.setLease n l).power = s.power := by unfold State.setLease; rfl
@[simp] theorem setLease_boot (n : Nat) (l : Lease) : (s.setLease n l).boot = s.boot := by unfold State.setLease; rfl
@[simp] theorem setLease_bgnd (n : Nat) (l : Lease) : (s.setLease n l).bgnd = s.bgnd := by unfold State.setLease; rfl
@[simp] theorem setLease_cores (n : Nat) (l : Lease) : (s.setLease n l).cores = s.cores := by unfold State.setLease; rfl
@[simp] theorem setLease_sec (n : Nat) (l : Lease) : (s.setLease n l).sec = s.sec := by unfold State.setLease; rfl
@[simp] theorem setLease_out (n : Nat) (l : Lease) : (s.setLease n l).out = s.out := by unfold State.setLease; rfl
@[simp] theorem setLease_outAt (n : Nat) (l : Lease) : (s.setLease n l).outAt = s.outAt := by unfold State.setLease; rfl
@[simp] theorem setLease_cycle (n : Nat) (l : Lease) : (s.setLease n l).cycle = s.cycle := by unfold State.setLease; rfl

@[simp] theorem setCounter_pending (q k v : Nat) : (s.setCounter q k v).pending = s.pending := by unfold State.setCounter; split <;> rfl
@[simp] theorem setCounter_now (q k v : Nat) : (s.setCounter q k v).now = s.now := by unfold State.setCounter; split <;> rfl
@[simp] theorem setCounter_free (q k v : Nat) : (s.setCounter q k v).free = s.free := by unfold State.setCounter; split <;> rfl
@[simp] theorem setCounter_regs (q k v : Nat) : (s.setCounter q k v).regs = s.regs := by unfold State.setCounter; split <;> rfl
@[simp] theorem setCounter_caps (q k v : Nat) : (s.setCounter q k v).caps = s.caps := by unfold State.setCounter; split <;> rfl
@[simp] theorem setCounter_mem (q k v : Nat) : (s.setCounter q k v).mem = s.mem := by unfold State.setCounter; split <;> rfl
@[simp] theorem setCounter_ecc (q k v : Nat) : (s.setCounter q k v).ecc = s.ecc := by unfold State.setCounter; split <;> rfl
@[simp] theorem setCounter_pulses (q k v : Nat) : (s.setCounter q k v).pulses = s.pulses := by unfold State.setCounter; split <;> rfl
@[simp] theorem setCounter_pod (q k v : Nat) : (s.setCounter q k v).pod = s.pod := by unfold State.setCounter; split <;> rfl
@[simp] theorem setCounter_clk (q k v : Nat) : (s.setCounter q k v).clk = s.clk := by unfold State.setCounter; split <;> rfl
@[simp] theorem setCounter_journals (q k v : Nat) : (s.setCounter q k v).journals = s.journals := by unfold State.setCounter; split <;> rfl
@[simp] theorem setCounter_events (q k v : Nat) : (s.setCounter q k v).events = s.events := by unfold State.setCounter; split <;> rfl
@[simp] theorem setCounter_stackUnits (q k v : Nat) : (s.setCounter q k v).stackUnits = s.stackUnits := by unfold State.setCounter; split <;> rfl
@[simp] theorem setCounter_leases (q k v : Nat) : (s.setCounter q k v).leases = s.leases := by unfold State.setCounter; split <;> rfl
@[simp] theorem setCounter_frecs (q k v : Nat) : (s.setCounter q k v).frecs = s.frecs := by unfold State.setCounter; split <;> rfl
@[simp] theorem setCounter_fabric (q k v : Nat) : (s.setCounter q k v).fabric = s.fabric := by unfold State.setCounter; split <;> rfl
@[simp] theorem setCounter_train (q k v : Nat) : (s.setCounter q k v).train = s.train := by unfold State.setCounter; split <;> rfl
@[simp] theorem setCounter_coll (q k v : Nat) : (s.setCounter q k v).coll = s.coll := by unfold State.setCounter; split <;> rfl
@[simp] theorem setCounter_mig (q k v : Nat) : (s.setCounter q k v).mig = s.mig := by unfold State.setCounter; split <;> rfl
@[simp] theorem setCounter_host (q k v : Nat) : (s.setCounter q k v).host = s.host := by unfold State.setCounter; split <;> rfl
@[simp] theorem setCounter_power (q k v : Nat) : (s.setCounter q k v).power = s.power := by unfold State.setCounter; split <;> rfl
@[simp] theorem setCounter_boot (q k v : Nat) : (s.setCounter q k v).boot = s.boot := by unfold State.setCounter; split <;> rfl
@[simp] theorem setCounter_bgnd (q k v : Nat) : (s.setCounter q k v).bgnd = s.bgnd := by unfold State.setCounter; split <;> rfl
@[simp] theorem setCounter_cores (q k v : Nat) : (s.setCounter q k v).cores = s.cores := by unfold State.setCounter; split <;> rfl
@[simp] theorem setCounter_sec (q k v : Nat) : (s.setCounter q k v).sec = s.sec := by unfold State.setCounter; split <;> rfl
@[simp] theorem setCounter_out (q k v : Nat) : (s.setCounter q k v).out = s.out := by unfold State.setCounter; split <;> rfl
@[simp] theorem setCounter_outAt (q k v : Nat) : (s.setCounter q k v).outAt = s.outAt := by unfold State.setCounter; split <;> rfl
@[simp] theorem setCounter_cycle (q k v : Nat) : (s.setCounter q k v).cycle = s.cycle := by unfold State.setCounter; split <;> rfl

@[simp] theorem setPort_pending (q d : Nat) (x : Port) : (s.setPort q d x).pending = s.pending := by unfold State.setPort; rfl
@[simp] theorem setPort_now (q d : Nat) (x : Port) : (s.setPort q d x).now = s.now := by unfold State.setPort; rfl
@[simp] theorem setPort_free (q d : Nat) (x : Port) : (s.setPort q d x).free = s.free := by unfold State.setPort; rfl
@[simp] theorem setPort_regs (q d : Nat) (x : Port) : (s.setPort q d x).regs = s.regs := by unfold State.setPort; rfl
@[simp] theorem setPort_caps (q d : Nat) (x : Port) : (s.setPort q d x).caps = s.caps := by unfold State.setPort; rfl
@[simp] theorem setPort_mem (q d : Nat) (x : Port) : (s.setPort q d x).mem = s.mem := by unfold State.setPort; rfl
@[simp] theorem setPort_ecc (q d : Nat) (x : Port) : (s.setPort q d x).ecc = s.ecc := by unfold State.setPort; rfl
@[simp] theorem setPort_pulses (q d : Nat) (x : Port) : (s.setPort q d x).pulses = s.pulses := by unfold State.setPort; rfl
@[simp] theorem setPort_pod (q d : Nat) (x : Port) : (s.setPort q d x).pod = s.pod := by unfold State.setPort; rfl
@[simp] theorem setPort_clk (q d : Nat) (x : Port) : (s.setPort q d x).clk = s.clk := by unfold State.setPort; rfl
@[simp] theorem setPort_journals (q d : Nat) (x : Port) : (s.setPort q d x).journals = s.journals := by unfold State.setPort; rfl
@[simp] theorem setPort_events (q d : Nat) (x : Port) : (s.setPort q d x).events = s.events := by unfold State.setPort; rfl
@[simp] theorem setPort_compute (q d : Nat) (x : Port) : (s.setPort q d x).compute = s.compute := by unfold State.setPort; rfl
@[simp] theorem setPort_stackUnits (q d : Nat) (x : Port) : (s.setPort q d x).stackUnits = s.stackUnits := by unfold State.setPort; rfl
@[simp] theorem setPort_leases (q d : Nat) (x : Port) : (s.setPort q d x).leases = s.leases := by unfold State.setPort; rfl
@[simp] theorem setPort_frecs (q d : Nat) (x : Port) : (s.setPort q d x).frecs = s.frecs := by unfold State.setPort; rfl
@[simp] theorem setPort_train (q d : Nat) (x : Port) : (s.setPort q d x).train = s.train := by unfold State.setPort; rfl
@[simp] theorem setPort_coll (q d : Nat) (x : Port) : (s.setPort q d x).coll = s.coll := by unfold State.setPort; rfl
@[simp] theorem setPort_mig (q d : Nat) (x : Port) : (s.setPort q d x).mig = s.mig := by unfold State.setPort; rfl
@[simp] theorem setPort_host (q d : Nat) (x : Port) : (s.setPort q d x).host = s.host := by unfold State.setPort; rfl
@[simp] theorem setPort_power (q d : Nat) (x : Port) : (s.setPort q d x).power = s.power := by unfold State.setPort; rfl
@[simp] theorem setPort_boot (q d : Nat) (x : Port) : (s.setPort q d x).boot = s.boot := by unfold State.setPort; rfl
@[simp] theorem setPort_bgnd (q d : Nat) (x : Port) : (s.setPort q d x).bgnd = s.bgnd := by unfold State.setPort; rfl
@[simp] theorem setPort_cores (q d : Nat) (x : Port) : (s.setPort q d x).cores = s.cores := by unfold State.setPort; rfl
@[simp] theorem setPort_sec (q d : Nat) (x : Port) : (s.setPort q d x).sec = s.sec := by unfold State.setPort; rfl
@[simp] theorem setPort_out (q d : Nat) (x : Port) : (s.setPort q d x).out = s.out := by unfold State.setPort; rfl
@[simp] theorem setPort_outAt (q d : Nat) (x : Port) : (s.setPort q d x).outAt = s.outAt := by unfold State.setPort; rfl
@[simp] theorem setPort_cycle (q d : Nat) (x : Port) : (s.setPort q d x).cycle = s.cycle := by unfold State.setPort; rfl

@[simp] theorem setPod_pending (x : Pod) : (s.setPod x).pending = s.pending := by unfold State.setPod; rfl
@[simp] theorem setPod_now (x : Pod) : (s.setPod x).now = s.now := by unfold State.setPod; rfl
@[simp] theorem setPod_free (x : Pod) : (s.setPod x).free = s.free := by unfold State.setPod; rfl
@[simp] theorem setPod_regs (x : Pod) : (s.setPod x).regs = s.regs := by unfold State.setPod; rfl
@[simp] theorem setPod_caps (x : Pod) : (s.setPod x).caps = s.caps := by unfold State.setPod; rfl
@[simp] theorem setPod_mem (x : Pod) : (s.setPod x).mem = s.mem := by unfold State.setPod; rfl
@[simp] theorem setPod_ecc (x : Pod) : (s.setPod x).ecc = s.ecc := by unfold State.setPod; rfl
@[simp] theorem setPod_pulses (x : Pod) : (s.setPod x).pulses = s.pulses := by unfold State.setPod; rfl
@[simp] theorem setPod_pod (x : Pod) : (s.setPod x).pod = s.pod := by unfold State.setPod; rfl
@[simp] theorem setPod_clk (x : Pod) : (s.setPod x).clk = s.clk := by unfold State.setPod; rfl
@[simp] theorem setPod_journals (x : Pod) : (s.setPod x).journals = s.journals := by unfold State.setPod; rfl
@[simp] theorem setPod_events (x : Pod) : (s.setPod x).events = s.events := by unfold State.setPod; rfl
@[simp] theorem setPod_compute (x : Pod) : (s.setPod x).compute = s.compute := by unfold State.setPod; rfl
@[simp] theorem setPod_stackUnits (x : Pod) : (s.setPod x).stackUnits = s.stackUnits := by unfold State.setPod; rfl
@[simp] theorem setPod_leases (x : Pod) : (s.setPod x).leases = s.leases := by unfold State.setPod; rfl
@[simp] theorem setPod_frecs (x : Pod) : (s.setPod x).frecs = s.frecs := by unfold State.setPod; rfl
@[simp] theorem setPod_train (x : Pod) : (s.setPod x).train = s.train := by unfold State.setPod; rfl
@[simp] theorem setPod_coll (x : Pod) : (s.setPod x).coll = s.coll := by unfold State.setPod; rfl
@[simp] theorem setPod_mig (x : Pod) : (s.setPod x).mig = s.mig := by unfold State.setPod; rfl
@[simp] theorem setPod_host (x : Pod) : (s.setPod x).host = s.host := by unfold State.setPod; rfl
@[simp] theorem setPod_power (x : Pod) : (s.setPod x).power = s.power := by unfold State.setPod; rfl
@[simp] theorem setPod_boot (x : Pod) : (s.setPod x).boot = s.boot := by unfold State.setPod; rfl
@[simp] theorem setPod_bgnd (x : Pod) : (s.setPod x).bgnd = s.bgnd := by unfold State.setPod; rfl
@[simp] theorem setPod_cores (x : Pod) : (s.setPod x).cores = s.cores := by unfold State.setPod; rfl
@[simp] theorem setPod_sec (x : Pod) : (s.setPod x).sec = s.sec := by unfold State.setPod; rfl
@[simp] theorem setPod_out (x : Pod) : (s.setPod x).out = s.out := by unfold State.setPod; rfl
@[simp] theorem setPod_outAt (x : Pod) : (s.setPod x).outAt = s.outAt := by unfold State.setPod; rfl
@[simp] theorem setPod_cycle (x : Pod) : (s.setPod x).cycle = s.cycle := by unfold State.setPod; rfl

@[simp] theorem setRing_pending (n : Nat) (r : EvRing) : (s.setRing n r).pending = s.pending := by unfold State.setRing; rfl
@[simp] theorem setRing_now (n : Nat) (r : EvRing) : (s.setRing n r).now = s.now := by unfold State.setRing; rfl
@[simp] theorem setRing_free (n : Nat) (r : EvRing) : (s.setRing n r).free = s.free := by unfold State.setRing; rfl
@[simp] theorem setRing_regs (n : Nat) (r : EvRing) : (s.setRing n r).regs = s.regs := by unfold State.setRing; rfl
@[simp] theorem setRing_caps (n : Nat) (r : EvRing) : (s.setRing n r).caps = s.caps := by unfold State.setRing; rfl
@[simp] theorem setRing_mem (n : Nat) (r : EvRing) : (s.setRing n r).mem = s.mem := by unfold State.setRing; rfl
@[simp] theorem setRing_ecc (n : Nat) (r : EvRing) : (s.setRing n r).ecc = s.ecc := by unfold State.setRing; rfl
@[simp] theorem setRing_pulses (n : Nat) (r : EvRing) : (s.setRing n r).pulses = s.pulses := by unfold State.setRing; rfl
@[simp] theorem setRing_pod (n : Nat) (r : EvRing) : (s.setRing n r).pod = s.pod := by unfold State.setRing; rfl
@[simp] theorem setRing_clk (n : Nat) (r : EvRing) : (s.setRing n r).clk = s.clk := by unfold State.setRing; rfl
@[simp] theorem setRing_journals (n : Nat) (r : EvRing) : (s.setRing n r).journals = s.journals := by unfold State.setRing; rfl
@[simp] theorem setRing_events (n : Nat) (r : EvRing) : (s.setRing n r).events = s.events := by unfold State.setRing; rfl
@[simp] theorem setRing_compute (n : Nat) (r : EvRing) : (s.setRing n r).compute = s.compute := by unfold State.setRing; rfl
@[simp] theorem setRing_stackUnits (n : Nat) (r : EvRing) : (s.setRing n r).stackUnits = s.stackUnits := by unfold State.setRing; rfl
@[simp] theorem setRing_leases (n : Nat) (r : EvRing) : (s.setRing n r).leases = s.leases := by unfold State.setRing; rfl
@[simp] theorem setRing_frecs (n : Nat) (r : EvRing) : (s.setRing n r).frecs = s.frecs := by unfold State.setRing; rfl
@[simp] theorem setRing_fabric (n : Nat) (r : EvRing) : (s.setRing n r).fabric = s.fabric := by unfold State.setRing; rfl
@[simp] theorem setRing_train (n : Nat) (r : EvRing) : (s.setRing n r).train = s.train := by unfold State.setRing; rfl
@[simp] theorem setRing_coll (n : Nat) (r : EvRing) : (s.setRing n r).coll = s.coll := by unfold State.setRing; rfl
@[simp] theorem setRing_mig (n : Nat) (r : EvRing) : (s.setRing n r).mig = s.mig := by unfold State.setRing; rfl
@[simp] theorem setRing_power (n : Nat) (r : EvRing) : (s.setRing n r).power = s.power := by unfold State.setRing; rfl
@[simp] theorem setRing_boot (n : Nat) (r : EvRing) : (s.setRing n r).boot = s.boot := by unfold State.setRing; rfl
@[simp] theorem setRing_bgnd (n : Nat) (r : EvRing) : (s.setRing n r).bgnd = s.bgnd := by unfold State.setRing; rfl
@[simp] theorem setRing_cores (n : Nat) (r : EvRing) : (s.setRing n r).cores = s.cores := by unfold State.setRing; rfl
@[simp] theorem setRing_sec (n : Nat) (r : EvRing) : (s.setRing n r).sec = s.sec := by unfold State.setRing; rfl
@[simp] theorem setRing_out (n : Nat) (r : EvRing) : (s.setRing n r).out = s.out := by unfold State.setRing; rfl
@[simp] theorem setRing_outAt (n : Nat) (r : EvRing) : (s.setRing n r).outAt = s.outAt := by unfold State.setRing; rfl
@[simp] theorem setRing_cycle (n : Nat) (r : EvRing) : (s.setRing n r).cycle = s.cycle := by unfold State.setRing; rfl

@[simp] theorem setHostQp_pending (k : Nat) (x : HostQp) : (s.setHostQp k x).pending = s.pending := by unfold State.setHostQp; rfl
@[simp] theorem setHostQp_now (k : Nat) (x : HostQp) : (s.setHostQp k x).now = s.now := by unfold State.setHostQp; rfl
@[simp] theorem setHostQp_free (k : Nat) (x : HostQp) : (s.setHostQp k x).free = s.free := by unfold State.setHostQp; rfl
@[simp] theorem setHostQp_regs (k : Nat) (x : HostQp) : (s.setHostQp k x).regs = s.regs := by unfold State.setHostQp; rfl
@[simp] theorem setHostQp_caps (k : Nat) (x : HostQp) : (s.setHostQp k x).caps = s.caps := by unfold State.setHostQp; rfl
@[simp] theorem setHostQp_mem (k : Nat) (x : HostQp) : (s.setHostQp k x).mem = s.mem := by unfold State.setHostQp; rfl
@[simp] theorem setHostQp_ecc (k : Nat) (x : HostQp) : (s.setHostQp k x).ecc = s.ecc := by unfold State.setHostQp; rfl
@[simp] theorem setHostQp_pulses (k : Nat) (x : HostQp) : (s.setHostQp k x).pulses = s.pulses := by unfold State.setHostQp; rfl
@[simp] theorem setHostQp_pod (k : Nat) (x : HostQp) : (s.setHostQp k x).pod = s.pod := by unfold State.setHostQp; rfl
@[simp] theorem setHostQp_clk (k : Nat) (x : HostQp) : (s.setHostQp k x).clk = s.clk := by unfold State.setHostQp; rfl
@[simp] theorem setHostQp_journals (k : Nat) (x : HostQp) : (s.setHostQp k x).journals = s.journals := by unfold State.setHostQp; rfl
@[simp] theorem setHostQp_events (k : Nat) (x : HostQp) : (s.setHostQp k x).events = s.events := by unfold State.setHostQp; rfl
@[simp] theorem setHostQp_compute (k : Nat) (x : HostQp) : (s.setHostQp k x).compute = s.compute := by unfold State.setHostQp; rfl
@[simp] theorem setHostQp_stackUnits (k : Nat) (x : HostQp) : (s.setHostQp k x).stackUnits = s.stackUnits := by unfold State.setHostQp; rfl
@[simp] theorem setHostQp_leases (k : Nat) (x : HostQp) : (s.setHostQp k x).leases = s.leases := by unfold State.setHostQp; rfl
@[simp] theorem setHostQp_frecs (k : Nat) (x : HostQp) : (s.setHostQp k x).frecs = s.frecs := by unfold State.setHostQp; rfl
@[simp] theorem setHostQp_fabric (k : Nat) (x : HostQp) : (s.setHostQp k x).fabric = s.fabric := by unfold State.setHostQp; rfl
@[simp] theorem setHostQp_train (k : Nat) (x : HostQp) : (s.setHostQp k x).train = s.train := by unfold State.setHostQp; rfl
@[simp] theorem setHostQp_coll (k : Nat) (x : HostQp) : (s.setHostQp k x).coll = s.coll := by unfold State.setHostQp; rfl
@[simp] theorem setHostQp_mig (k : Nat) (x : HostQp) : (s.setHostQp k x).mig = s.mig := by unfold State.setHostQp; rfl
@[simp] theorem setHostQp_power (k : Nat) (x : HostQp) : (s.setHostQp k x).power = s.power := by unfold State.setHostQp; rfl
@[simp] theorem setHostQp_boot (k : Nat) (x : HostQp) : (s.setHostQp k x).boot = s.boot := by unfold State.setHostQp; rfl
@[simp] theorem setHostQp_bgnd (k : Nat) (x : HostQp) : (s.setHostQp k x).bgnd = s.bgnd := by unfold State.setHostQp; rfl
@[simp] theorem setHostQp_cores (k : Nat) (x : HostQp) : (s.setHostQp k x).cores = s.cores := by unfold State.setHostQp; rfl
@[simp] theorem setHostQp_sec (k : Nat) (x : HostQp) : (s.setHostQp k x).sec = s.sec := by unfold State.setHostQp; rfl
@[simp] theorem setHostQp_out (k : Nat) (x : HostQp) : (s.setHostQp k x).out = s.out := by unfold State.setHostQp; rfl
@[simp] theorem setHostQp_outAt (k : Nat) (x : HostQp) : (s.setHostQp k x).outAt = s.outAt := by unfold State.setHostQp; rfl
@[simp] theorem setHostQp_cycle (k : Nat) (x : HostQp) : (s.setHostQp k x).cycle = s.cycle := by unfold State.setHostQp; rfl

@[simp] theorem emit_pending (o : Out) : (s.emit o).pending = s.pending := by unfold State.emit; rfl
@[simp] theorem emit_now (o : Out) : (s.emit o).now = s.now := by unfold State.emit; rfl
@[simp] theorem emit_free (o : Out) : (s.emit o).free = s.free := by unfold State.emit; rfl
@[simp] theorem emit_regs (o : Out) : (s.emit o).regs = s.regs := by unfold State.emit; rfl
@[simp] theorem emit_caps (o : Out) : (s.emit o).caps = s.caps := by unfold State.emit; rfl
@[simp] theorem emit_mem (o : Out) : (s.emit o).mem = s.mem := by unfold State.emit; rfl
@[simp] theorem emit_ecc (o : Out) : (s.emit o).ecc = s.ecc := by unfold State.emit; rfl
@[simp] theorem emit_pulses (o : Out) : (s.emit o).pulses = s.pulses := by unfold State.emit; rfl
@[simp] theorem emit_pod (o : Out) : (s.emit o).pod = s.pod := by unfold State.emit; rfl
@[simp] theorem emit_clk (o : Out) : (s.emit o).clk = s.clk := by unfold State.emit; rfl
@[simp] theorem emit_journals (o : Out) : (s.emit o).journals = s.journals := by unfold State.emit; rfl
@[simp] theorem emit_events (o : Out) : (s.emit o).events = s.events := by unfold State.emit; rfl
@[simp] theorem emit_compute (o : Out) : (s.emit o).compute = s.compute := by unfold State.emit; rfl
@[simp] theorem emit_stackUnits (o : Out) : (s.emit o).stackUnits = s.stackUnits := by unfold State.emit; rfl
@[simp] theorem emit_leases (o : Out) : (s.emit o).leases = s.leases := by unfold State.emit; rfl
@[simp] theorem emit_frecs (o : Out) : (s.emit o).frecs = s.frecs := by unfold State.emit; rfl
@[simp] theorem emit_fabric (o : Out) : (s.emit o).fabric = s.fabric := by unfold State.emit; rfl
@[simp] theorem emit_train (o : Out) : (s.emit o).train = s.train := by unfold State.emit; rfl
@[simp] theorem emit_coll (o : Out) : (s.emit o).coll = s.coll := by unfold State.emit; rfl
@[simp] theorem emit_mig (o : Out) : (s.emit o).mig = s.mig := by unfold State.emit; rfl
@[simp] theorem emit_host (o : Out) : (s.emit o).host = s.host := by unfold State.emit; rfl
@[simp] theorem emit_power (o : Out) : (s.emit o).power = s.power := by unfold State.emit; rfl
@[simp] theorem emit_boot (o : Out) : (s.emit o).boot = s.boot := by unfold State.emit; rfl
@[simp] theorem emit_bgnd (o : Out) : (s.emit o).bgnd = s.bgnd := by unfold State.emit; rfl
@[simp] theorem emit_cores (o : Out) : (s.emit o).cores = s.cores := by unfold State.emit; rfl
@[simp] theorem emit_sec (o : Out) : (s.emit o).sec = s.sec := by unfold State.emit; rfl
@[simp] theorem emit_cycle (o : Out) : (s.emit o).cycle = s.cycle := by unfold State.emit; rfl

/-! ## Reads after writes -/

@[simp] theorem reg_setReg_same (p : Page) (off : Nat) (v : Word) : (s.setReg p off v).reg p off = v := mapGet_set_same _ _ _ _

theorem reg_setReg_other (p p' : Page) (off off' : Nat) (v : Word) (h : p'.reg off' ≠ p.reg off) :
    (s.setReg p off v).reg p' off' = s.reg p' off' := mapGet_set_other _ _ _ _ _ h

@[simp] theorem queue_setQueue_same (q n : Nat) (x : Queue) : (s.setQueue q n x).queue q n = x := mapGet_set_same _ _ _ _

theorem queue_setQueue_other (q n q' n' : Nat) (x : Queue) (h : 256 * q' + n' ≠ 256 * q + n) :
    (s.setQueue q n x).queue q' n' = s.queue q' n' := mapGet_set_other _ _ _ _ _ h

@[simp] theorem stack_setStack_same (q n : Nat) (x : Stack) : (s.setStack q n x).stack q n = x := mapGet_set_same _ _ _ _

@[simp] theorem journal_setJournal_same (q : Nat) (x : Journal) : (s.setJournal q x).journal q = x := mapGet_set_same _ _ _ _

@[simp] theorem island_setIsland_same (q i c : Nat) : (s.setIsland q i c).island q i = c := mapGet_set_same _ _ _ _

theorem island_setIsland_other (q i c q' i' : Nat) (h : 128 * q' + i' ≠ 128 * q + i) :
    (s.setIsland q i c).island q' i' = s.island q' i' := mapGet_set_other _ _ _ _ _ h

@[simp] theorem array_setArray_same (q p a : Nat) (x : ArrayState) : (s.setArray q p a x).array q p a = x := mapGet_set_same _ _ _ _

@[simp] theorem port_setPort_same (q d : Nat) (x : Port) : (s.setPort q d x).port q d = x := mapGet_set_same _ _ _ _

@[simp] theorem lease_setLease_same (n : Nat) (l : Lease) : (s.setLease n l).lease n = l := mapGet_set_same _ _ _ _

@[simp] theorem ring_setRing_same (n : Nat) (r : EvRing) : (s.setRing n r).ring n = r := mapGet_set_same _ _ _ _

theorem counter_setCounter_same (q k v : Nat) (h : k ≠ 0) : (s.setCounter q k v).counter q k = v := by
  unfold State.setCounter; rw [if_neg h]; unfold State.counter; exact mapGet_set_same _ _ _ _

end Sys2Proof.Laws
end

