-- ==== Sys2Proof/Laws/Regs.lean ====
section
/-! SUPPORT. What a stored register reads as after a write of it, of a field of it, or of another register. -/

namespace Sys2Proof.Laws
open Sys2Proof.Machine

variable (s : State)

@[simp] theorem num_setNum (p : Page) (off v : Nat) : (s.setNum p off v).num p off = v % 2 ^ 32 := by
  simp [State.num, State.setNum]

theorem num_setNum_other (p p' : Page) (off off' v : Nat) (h : p'.reg off' ≠ p.reg off) :
    (s.setNum p off v).num p' off' = s.num p' off' := by
  unfold State.num State.setNum
  rw [reg_setReg_other s p p' off off' _ h]

theorem num_lt (p : Page) (off : Nat) : s.num p off < 2 ^ 32 := (s.reg p off).isLt

/-- The field that was put, read back. -/
theorem bitsOf_putBits (v lo w x : Nat) : bitsOf (putBits v lo w x) lo w = x % 2 ^ w := by
  unfold putBits bitsOf
  have hp : 0 < 2 ^ lo := Nat.two_pow_pos lo
  have hw : 0 < 2 ^ w := Nat.two_pow_pos w
  have hd := Nat.div_add_mod v (2 ^ lo)
  have hm := Nat.div_add_mod (v / 2 ^ lo) (2 ^ w)
  have hl := Nat.mod_lt v hp
  have key : v - v / 2 ^ lo % 2 ^ w * 2 ^ lo + x % 2 ^ w * 2 ^ lo =
      2 ^ lo * (2 ^ w * (v / 2 ^ lo / 2 ^ w) + x % 2 ^ w) + v % 2 ^ lo := by
    have e : v = 2 ^ lo * (2 ^ w * (v / 2 ^ lo / 2 ^ w)) + v / 2 ^ lo % 2 ^ w * 2 ^ lo + v % 2 ^ lo := by
      conv_lhs => rw [← hd, ← hm]
      ring
    have f : v - v / 2 ^ lo % 2 ^ w * 2 ^ lo = 2 ^ lo * (2 ^ w * (v / 2 ^ lo / 2 ^ w)) + v % 2 ^ lo := by omega
    rw [f]; ring
  rw [key, Nat.mul_add_div hp, Nat.div_eq_of_lt hl, Nat.add_zero, Nat.mul_add_mod, Nat.mod_mod]

/-- Putting a field into a 32-bit number leaves a 32-bit number. -/
theorem putBits_lt (v lo w x : Nat) (hv : v < 2 ^ 32) (h : lo + w ≤ 32) : putBits v lo w x < 2 ^ 32 := by
  unfold putBits bitsOf
  have hp : 0 < 2 ^ lo := Nat.two_pow_pos lo
  have hw : 0 < 2 ^ w := Nat.two_pow_pos w
  have hd := Nat.div_add_mod v (2 ^ lo)
  have hm := Nat.div_add_mod (v / 2 ^ lo) (2 ^ w)
  have hl := Nat.mod_lt v hp
  have hx := Nat.mod_lt x hw
  obtain ⟨k, hk⟩ : ∃ k, 32 = lo + w + k := ⟨32 - (lo + w), by omega⟩
  have hq : v / 2 ^ lo / 2 ^ w < 2 ^ k := by
    rw [Nat.div_div_eq_div_mul, ← Nat.pow_add, Nat.div_lt_iff_lt_mul (Nat.two_pow_pos _), ← Nat.pow_add]
    rw [hk] at hv; rwa [Nat.add_comm k]
  have e : v = 2 ^ lo * (2 ^ w * (v / 2 ^ lo / 2 ^ w)) + v / 2 ^ lo % 2 ^ w * 2 ^ lo + v % 2 ^ lo := by
    conv_lhs => rw [← hd, ← hm]
    ring
  have f : v - v / 2 ^ lo % 2 ^ w * 2 ^ lo = 2 ^ lo * (2 ^ w * (v / 2 ^ lo / 2 ^ w)) + v % 2 ^ lo := by omega
  rw [f]
  calc 2 ^ lo * (2 ^ w * (v / 2 ^ lo / 2 ^ w)) + v % 2 ^ lo + x % 2 ^ w * 2 ^ lo
      < 2 ^ lo * (2 ^ w * (v / 2 ^ lo / 2 ^ w)) + 2 ^ lo + x % 2 ^ w * 2 ^ lo := by omega
    _ = 2 ^ lo * (2 ^ w * (v / 2 ^ lo / 2 ^ w) + (x % 2 ^ w + 1)) := by ring
    _ ≤ 2 ^ lo * (2 ^ w * (v / 2 ^ lo / 2 ^ w) + 2 ^ w) := Nat.mul_le_mul_left _ (by omega)
    _ = 2 ^ lo * 2 ^ w * (v / 2 ^ lo / 2 ^ w + 1) := by ring
    _ ≤ 2 ^ lo * 2 ^ w * 2 ^ k := Nat.mul_le_mul_left _ hq
    _ = 2 ^ 32 := by rw [hk, Nat.pow_add, Nat.pow_add]

@[simp] theorem field_setField (p : Page) (off lo w x : Nat) (h : lo + w ≤ 32) :
    (s.setField p off lo w x).field p off lo w = x % 2 ^ w := by
  unfold State.field State.setField
  rw [num_setNum, Nat.mod_eq_of_lt (putBits_lt _ _ _ _ (num_lt s p off) h), bitsOf_putBits]

@[simp] theorem bit_setBit (p : Page) (off i : Nat) (b : Bool) (h : i < 32) : (s.setBit p off i b).bit p off i = b := by
  have g := field_setField s p off i 1 (if b then 1 else 0) (by omega)
  unfold State.field bitsOf at g
  unfold State.bit bitAt State.setBit
  cases b <;> simp_all

@[simp] theorem num_addSat (p : Page) (off n : Nat) : (s.addSat p off n).num p off = min 0xFFFFFFFF (s.num p off + n) := by
  unfold State.addSat
  rw [num_setNum]
  exact Nat.mod_eq_of_lt (by omega)

@[simp] theorem num_addWrap (p : Page) (off n : Nat) : (s.addWrap p off n).num p off = (s.num p off + n) % 2 ^ 32 := by
  unfold State.addWrap
  rw [num_setNum]

end Sys2Proof.Laws
end

