-- ==== Sys2Proof/Machine/Wire.lean ====
section
/-! DEFINITION. The bytes of a fabric frame on the wire, up to its FCS (R237 to R239, R243 to R246). -/

namespace Sys2Proof.Machine

/-- The MAC address of port Qq.d of a module by site and chip: 02:00:SS:CC:CC:PP, in the order of the wire (R237). -/
def portMac (id q d : Nat) : List Byte :=
  ([0x02, 0x00, id / 2 ^ 15, id % 2 ^ 15 / 256, id % 256, 8 * q + d] : List Nat).map (BitVec.ofNat 8 ·)

/-- The body of a TREE message (R244). -/
def TreeMsg.bytes : TreeMsg → List Byte
  | .verdictUp nf force contrib sumsq => leBytes 4 (flag nf 0 + flag force 1) ++ leBytes 4 contrib ++ leBytes 4 sumsq.toNat
  | .verdictDown v vnorm clip => leBytes 4 v ++ leBytes 4 vnorm.toNat ++ leBytes 4 clip.toNat
  | .preparedUp count present nz => leBytes 8 (count % 2 ^ 32) ++ leBytes 512 present ++ leBytes 512 nz
  | .commitDown time present nz => leBytes 8 time ++ leBytes 512 present ++ leBytes 512 nz
  | .digestUp l => leBytes 4 l.length ++ l.flatMap (fun e =>
      leBytes 4 (e.layer % 2 ^ 16) ++ leBytes 4 e.count ++ leBytes 8 (e.holder % 2 ^ 32) ++ leBytes 8 e.digest)
  | .digestDown l => leBytes 4 l.length ++ l.flatMap (fun e =>
      leBytes 2 e.layer ++ leBytes 2 (flag e.split 0) ++ leBytes 4 e.holder ++ leBytes 8 e.digest)
  | .check | .bucketQuery => []
  | .mismatchUp total l => leBytes 4 total ++ l.flatMap (fun e =>
      leBytes 4 e.tag ++ leBytes 1 e.quarter ++ leBytes 1 e.direction ++ leBytes 2 (e.epoch % 256) ++ leBytes 8 (e.receiver % 2 ^ 32))
  | .heartbeat time => leBytes 8 time
  | .regen lost adopter => leBytes 4 lost ++ leBytes 4 adopter
  | .bucketStateUp l => leBytes 4 l.length ++ l.flatMap (fun e =>
      leBytes 4 e.tag ++ leBytes 1 e.quarter ++ leBytes 3 (e.state % 256))
  | .reportUp kind subject value => leBytes 4 (kind % 256) ++ leBytes 4 subject ++ leBytes 4 value
  | .leadAnswer kind refused subject answer =>
      leBytes 1 kind ++ leBytes 3 (flag refused 0) ++ leBytes 4 subject ++ leBytes 4 answer
  | .siteUp kind d sites side =>
      leBytes 1 kind ++ leBytes 3 (d.site % 8 + 8 * (d.q % 4)) ++ leBytes 4 d.chip ++ leBytes 8 d.round ++ leBytes 8 d.common ++
      leBytes 8 d.time ++ leBytes 4 0 ++ leBytes 1 sites ++ leBytes 27 (side % 256)
  | .siteDown site state lagging mode round =>
      leBytes 1 site ++ leBytes 1 state ++ leBytes 1 (flag lagging 0) ++ leBytes 1 mode ++ leBytes 4 round

/-- The code of a TREE message (R244). -/
def TreeMsg.code : TreeMsg → Nat
  | .verdictUp .. => 1 | .verdictDown .. => 2 | .preparedUp .. => 3 | .commitDown .. => 4 | .digestUp _ => 5 | .digestDown _ => 6
  | .check => 7 | .mismatchUp .. => 8 | .heartbeat _ => 9 | .regen .. => 10 | .bucketQuery => 11 | .bucketStateUp _ => 12
  | .reportUp .. => 13 | .leadAnswer .. => 14 | .siteDown .. => 15 | .siteUp .. => 16

/-- The header of a TREE fragment (R244). -/
def treeHeader (h : TreeHdr) (frag : Nat) (last : Bool) : List Byte :=
  leBytes 4 h.term ++ leBytes 2 frag ++ leBytes 2 (flag last 0) ++ leBytes 8 (h.origin % 2 ^ 18)

/-- The payload of a TIME frame (R243). -/
def TimeMsg.bytes (m : TimeMsg) : List Byte :=
  leBytes 8 m.ta ++ leBytes 8 m.tb ++ leBytes 8 m.tc ++ leBytes 4 m.seq ++ leBytes 4 (m.state % 16)

/-- The payload of a DISC message (R245). -/
def DiscMsg.bytes : DiscMsg → List Byte
  | .hello id q d spare inPod term =>
      leBytes 4 id ++ leBytes 1 q ++ leBytes 1 d ++ leBytes 2 (flag spare 0 + flag inPod 1) ++ leBytes 8 (term % 2 ^ 32)
  | .candidate prio id => leBytes 4 (prio % 256) ++ leBytes 4 id
  | .neighTable sender spare ids sig =>
      leBytes 4 sender ++ leBytes 4 (flag spare 0) ++ (List.range 24).flatMap (fun i => leBytes 8 (ids.getD i 0)) ++ leBytes 8 sig
  | .config c =>
      leBytes 4 c.role ++ leBytes 4 c.shape ++ leBytes 4 c.pos ++ (List.range 6).flatMap (fun i => leBytes 4 (c.neigh.getD i 0)) ++
      leBytes 4 c.tree ++ leBytes 8 c.attempt ++ leBytes 8 c.committed ++ leBytes 8 c.skipped ++ leBytes 8 c.time ++
      leBytes 8 (flag c.aliasClear 0 + flag c.countsValid 1)
  | .tack id sig => leBytes 8 (id % 2 ^ 32) ++ leBytes 8 sig
  | .tackReply refused => leBytes 8 (flag refused 0)
  | .topoConfirm sig agree => leBytes 8 sig ++ leBytes 1 (flag agree 0)
  | .leadProbe term => leBytes 4 term
  | .probeAnswer term last none_ => leBytes 4 term ++ leBytes 8 last ++ leBytes 4 (flag none_ 0)

/-- The code of a DISC message (R245). -/
def DiscMsg.code : DiscMsg → Nat
  | .hello .. => 1 | .candidate .. => 2 | .neighTable .. => 3 | .config _ => 4 | .tack .. => 5 | .tackReply _ => 6
  | .topoConfirm .. => 7 | .leadProbe _ => 8 | .probeAnswer .. => 9

/-- A MEND record (R246). -/
def mendBytes (r : MendRec) : List Byte :=
  leBytes 1 r.rtype ++ leBytes 3 (r.flags % 256) ++ leBytes 4 (r.subject % 2 ^ 18) ++ leBytes 4 (r.other % 2 ^ 18) ++ leBytes 4 r.value

/-- A collective segment's OPINFO (R239). -/
def collInfo (c : CollHdr) (phase : Nat) : List Byte :=
  leBytes 4 c.tag ++ leBytes 2 c.attempt ++ leBytes 1 c.epoch ++ leBytes 1 (c.part % 4 + 4 * (c.direction % 2) + 8 * (phase % 4)) ++
  leBytes 4 c.step ++ leBytes 4 c.off

/-- OPINFO of a frame (R239), before its padding to 24 bytes. -/
def Body.info : Body → List Byte
  | .write seg rsig _ => leBytes 4 seg ++ leBytes 4 (flag rsig 0)
  | .readReq seg len ret => leBytes 4 seg ++ leBytes 4 len ++ leBytes 8 ret
  | .readResp seg error _ => leBytes 4 seg ++ leBytes 1 (flag error 0)
  | .sig counter quarter amount => leBytes 2 counter ++ leBytes 2 (quarter % 256) ++ leBytes 4 amount
  | .coll c _ => collInfo c c.phase
  | .ready c => collInfo c c.phase
  | .sendDigest tag quarter epoch attempt direction _ =>
      leBytes 4 tag ++ leBytes 2 attempt ++ leBytes 1 epoch ++ leBytes 1 direction ++ leBytes 4 quarter
  | .tree h m => leBytes 4 m.code ++ leBytes 8 h.attempt
  | .time m => leBytes 1 m.kind
  | .ctrl nak => leBytes 1 (flag nak.isSome 0)
  | .disc m => leBytes 1 m.code
  | .mend epoch _ => leBytes 4 epoch

/-- The payload of a frame (R239, R243 to R246). -/
def Frame.payload (f : Frame) : List Byte :=
  match f.body with
  | .write _ _ bs | .readResp _ _ bs => bs.map Prod.fst
  | .coll _ bs => bs
  | .tree h m => treeHeader h f.frag (f.frag + 1 == f.body.frames) ++ (m.bytes.drop (4080 * f.frag)).take 4080
  | .time m => m.bytes
  | .disc m => m.bytes
  | .mend _ rs => rs.flatMap mendBytes
  | .sendDigest _ _ _ _ _ v => leBytes 8 v
  | _ => []

/-- The fabric header of a frame (R238). -/
def Frame.header (f : Frame) (lseq lack : Nat) (credit : Option (Nat × Nat × Nat)) : List Byte :=
  let cr := match credit with
    | some (vl, cls, n) => leBytes 1 (vl % 8 + 8 * (cls % 4) + 128) ++ leBytes 3 n
    | none => leBytes 4 0
  let info := f.body.info
  leBytes 1 (1 + 16 * f.body.type) ++ leBytes 1 (f.vl % 8 + 8 * (f.cls % 4)) ++ leBytes 2 f.len ++ leBytes 4 lseq ++ leBytes 4 lack ++ cr ++
  leBytes 4 (f.src % 2 ^ 18 + 2 ^ 18 * (f.srcQ % 4)) ++ leBytes 8 f.dst ++ leBytes 4 (f.route % 16) ++
  info ++ List.replicate (32 - info.length) 0

/-- The bytes of a frame that leaves by port Qq.d, without preamble and FCS (R237): the MAC addresses of the neighbour's port and of its own,
EtherType 0x88B5, header and payload. -/
def State.octets (s : State) (q d lseq lack : Nat) (credit : Option (Nat × Nat × Nat)) (f : Frame) : List Byte :=
  let p := qPage .fport q d
  portMac (s.field p Reg.FPORT_NEIGH_ID 0 18) (s.field p Reg.FPORT_NEIGH_ID 18 2) (s.field p Reg.FPORT_NEIGH_ID 20 3) ++
  portMac s.selfId q d ++ [0x88, 0xB5] ++ f.header lseq lack credit ++ f.payload

end Sys2Proof.Machine
end

