-- ==== Sys2Proof/Tests/Slice0.lean ====
section
/-! SUPPORT. Tests: ill-formed commands are refused by the well-formedness check, and for each statement a small state that meets its hypotheses together, on which its command does what the statement says. The expected results are taken from the rules. -/

namespace Sys2Proof.Tests

open Sys2Proof.Machine

set_option Elab.async false

/-- Every island runs. -/
def islandsUp : List (Nat × Nat) := (List.range 4).flatMap (fun q => (List.range 110).map (fun i => (128 * q + i, 0)))

/-- A CONTROL queue pair. -/
def controlQp : HostQp := { role := 0, session := 1, peer := 2, mtu := 4096, timeout := 1, retries := 7, rnr := 7, psn := 0 }

/-- A module whose islands run, with one host attached. -/
def up : State := { State.reset with clk := { islands := islandsUp }, host := { qps := [(0, controlQp)] } }

/-- The host's origin. -/
def host : Origin := .host 0 0

/-- The state after a command. -/
def after (i : Instr) (s : State) : State :=
  match exec i s with
  | .next u => u
  | _ => s

/-- A descriptor from its words. -/
def descriptor (l : List Nat) : Desc := BitVec.ofNat 512 (l.foldr (fun w v => w + 2 ^ 32 * v) 0)

/-! ## Steps -/

/-- A command waits. -/
def waiting_ : State := { up with pending := [.pageQuiesce 5 (.host 0 0) 0 0x500 true, .exportLag 6 0 0] }

theorem test_step_front :
    waiting_.pending = [.pageQuiesce 5 (.host 0 0) 0 0x500 true, .exportLag 6 0 0] ∧
    step waiting_ = exec (.pageQuiesce 5 (.host 0 0) 0 0x500 true) { waiting_ with pending := [.exportLag 6 0 0] } ∧
    step State.reset = .next State.reset := by
  refine ⟨rfl, rfl, rfl⟩

theorem test_step_keeps :
    waiting_.Sound ∧ (∃ u, step waiting_ = .next u ∧ u.Sound ∧ u.pending = [.exportLag 6 0 0] ∧ u.now = 5) := by
  refine ⟨by decide +kernel, _, rfl, by decide +kernel, by decide +kernel, by decide +kernel⟩

theorem test_reset : State.reset.Sound ∧ State.reset.pending = [] ∧ State.reset.num (mPage .step) Reg.STEP_STEP_STS = 0 := by decide +kernel

theorem test_reserved_reads :
    (qPage .array 0 0).specAt 0xF00 = none ∧ (up.readReg (qPage .array 0 0) 0xF00).2 = 0 ∧
    (⟨4, 4095⟩ : Page).kind = none ∧ (up.readReg ⟨4, 4095⟩ 0x100).2 = 0 := by decide +kernel

/-! ## Header and plain writes -/

theorem test_register_write :
    let p := qPage .bgnd 1 0
    let s := up.setNum p Reg.BGND_MARGIN_LIMIT 0xFF
    let u := after (.registerWrite 5 host p.win p.slot Reg.BGND_MARGIN_LIMIT 0xFFFFFF05 false) s
    let r := (p.specAt Reg.BGND_MARGIN_LIMIT).map (·.rw)
    Granted (s.advance 5) host p Reg.BGND_MARGIN_LIMIT ∧ p.kind = some .bgnd ∧ r = some 0xFF ∧
    rangeOk .bgnd Reg.BGND_MARGIN_LIMIT 0xFFFFFF05 = true ∧ u.num p Reg.BGND_MARGIN_LIMIT = 5 ∧
    (u.journal 1).ring.map (fun e => (e.code, e.seq, e.rsvNz, e.old)) = [(0, 0, true, 0xFF)] := by decide +kernel

theorem test_narrow_write :
    let p := qPage .bgnd 1 0
    let u := after (.registerWrite 5 (.cp 1 2) p.win p.slot Reg.BGND_MARGIN_LIMIT 5 true) up
    Granted (up.advance 5) (.cp 1 2) p Reg.BGND_MARGIN_LIMIT ∧ p.kind = some .bgnd ∧
    u.reg p Reg.BGND_MARGIN_LIMIT = up.reg p Reg.BGND_MARGIN_LIMIT ∧ (u.journal 1).ring.map (·.code) = [4] := by decide +kernel

theorem test_events :
    let p := mPage .step
    let s := (up.setNum p Reg.HDR_EVT_STS 3).setNum p Reg.HDR_EVT_COUNT 0xFFFFFFFE
    let u := after (.evtStsClear 5 host p.win p.slot 3 2) s
    let v := after (.evtForce 5 host p.win p.slot 5 4) s
    let w := after (.evtEnWrite 5 host p.win p.slot 0xFFFFFFFF) s
    Granted (s.advance 5) host p Reg.HDR_EVT_STS ∧ Granted (s.advance 5) host p Reg.HDR_EVT_FORCE ∧
    Granted (s.advance 5) host p Reg.HDR_EVT_EN ∧ p.kind = some .step ∧ u.num p Reg.HDR_EVT_STS = 2 ∧
    v.num p Reg.HDR_EVT_STS = 7 ∧ v.num p Reg.HDR_EVT_COUNT = 0xFFFFFFFF ∧
    w.num p Reg.HDR_EVT_EN = 2 ^ PageKind.step.evtBits - 1 := by decide +kernel

theorem test_page_control :
    let p := qPage .ve 0 1
    let s := up.setNum p Reg.HDR_PAGE_CTL 1
    let u := after (.pageQuiesce 5 host p.win p.slot true) s
    let v := after (.pageDisable 6 host p.win p.slot) u
    let w := after (.pageDisable 5 host p.win p.slot) s
    let x := after (.pageEnable 7 host p.win p.slot) v
    Granted (s.advance 5) host p Reg.HDR_PAGE_CTL ∧ p.kind = some .ve ∧ PageKind.ve.quiesces = true ∧ PageKind.ve.enables = true ∧
    (s.advance 5).bit p Reg.HDR_PAGE_CTL 0 = true ∧ u.quiesced p = true ∧ v.num p Reg.HDR_PAGE_CTL = 2 ∧
    w.num p Reg.HDR_PAGE_CTL = 1 ∧ (w.journal 0).ring.map (·.code) = [2] ∧ x.num p Reg.HDR_PAGE_CTL = 3 := by decide +kernel

theorem test_ring_tail :
    let s := up.setQueue 1 5 { head := 65535, tail := 65535, base := 16, log2 := 4 }
    let u := after (.ringTailWrite 5 host 1 5 15) s
    let v := after (.ringTailWrite 5 host 1 5 16) s
    Granted (s.advance 5) host (qPage .qring 1 0) (ringSlotReg 5 4) ∧ queueExists 5 = true ∧ (u.queue 1 5).tail = 15 ∧
    v.queue 1 5 = s.queue 1 5 ∧ (v.journal 1).ring.map (·.code) = [2] := by decide +kernel

theorem test_ring_cfg :
    let log (n : Nat) : Word := BitVec.ofNat 32 (n * 2 ^ 22 + 16)
    let u := after (.ringCfgWrite 5 host 1 5 (log 12)) up
    let v := after (.ringCfgWrite 5 host 1 5 (BitVec.ofNat 32 (4 * 2 ^ 22 + 0x280000))) up
    let w := after (.ringCfgWrite 5 host 1 5 (log 4)) (up.setQueue 1 5 { tail := 1 })
    Granted (up.advance 5) host (qPage .qring 1 0) (ringSlotReg 5 0) ∧ u.queue 1 5 = { base := 16, log2 := 12 } ∧
    v.queue 1 5 = up.queue 1 5 ∧ w.queue 1 5 = { tail := 1 } := by decide +kernel

theorem test_array_resume :
    let d : WinEntry := { desc := 0, status := .failed }
    let s := up.setQueue 1 7 { window := [d, { d with status := .done }], halt := some .refused }
    let u := after (.arrayResume 5 host 1 2 1) s
    Granted (s.advance 5) host (qPage .array 1 2) (Reg.ARRAY_ARR_CTL + 0x40) ∧
    (List.range 30).find? (fun m => (s.advance 5).physOf 1 m == 2) = some 2 ∧ (u.queue 1 7).halt = none ∧
    (u.queue 1 7).window = [{ d with status := .done }] := by decide +kernel

theorem test_engine_resume :
    let d : WinEntry := { desc := 0, status := .failed }
    let x : Queue := { window := [d], halt := some .refused }
    let u := after (.engineResume 5 host 1 97) (up.setQueue 1 97 x)
    let v := after (.engineResume 5 host 1 161) (up.setQueue 1 161 x)
    Granted ((up.setQueue 1 97 x).advance 5) host (enginePage 1 97) Reg.ENG_ENG_CTL ∧
    Granted ((up.setQueue 1 161 x).advance 5) host (enginePage 1 161) Reg.ENG_ENG_CTL ∧
    engineOf 97 = some (.ve, 1) ∧ engineOf 161 = some (.ue, 1) ∧ (u.queue 1 97).window = [] ∧ (u.queue 1 97).halt = none ∧
    (v.queue 1 161).window.map (fun w => (w.status, w.skip)) = [(.done, true)] := by decide +kernel

theorem test_engine_retry :
    let d : WinEntry := { desc := 0, status := .failed, next := 3, err := 0x20 }
    let u := after (.engineRetry 5 host 1 138) (up.setQueue 1 138 { window := [d], halt := some .runtime })
    let v := after (.engineRetry 5 host 1 153) (up.setQueue 1 153 { window := [d], halt := some .runtime })
    Granted (up.advance 5) host (enginePage 1 138) Reg.ENG_ENG_CTL ∧ Granted (up.advance 5) host (enginePage 1 153) Reg.ENG_ENG_CTL ∧
    (u.queue 1 138).window.map (fun w => (w.status, w.next)) = [(.waiting, 0)] ∧
    (v.queue 1 153).window.map (fun w => (w.status, w.next)) = [(.waiting, 4)] := by decide +kernel

theorem test_counter_write :
    let u := after (.signalCounterWrite 5 host 2 17 9) up
    let v := after (.signalCounterWrite 5 host 2 0 9) up
    Granted (up.advance 5) host (qPage .signal 2 0) (0x100 + 4 * 17) ∧ u.counter 2 17 = 9 ∧ u.counter 2 18 = 0 ∧ v.counter 2 0 = 0 := by
  decide +kernel

theorem test_step_count_write :
    let u := after (.stepCountWrite 5 host 0 9) up
    let v := after (.stepCountWrite 5 host 0 9) (up.setNum (mPage .step) Reg.STEP_STEP_STS 1)
    Granted (up.advance 5) host (mPage .step) Reg.STEP_ATTEMPT_LO ∧ u.attempt = 9 ∧ v.attempt = 0 := by decide +kernel

/-! ## Writes -/

theorem test_lease_claim :
    let u := after (.leaseClaim 5 host 3) up
    let a := up.advance 5
    Granted a host (mPage .lease) (leaseReg Reg.LEASE_Ln_CTL 3) ∧ u.bit (mPage .lease) (leaseReg Reg.LEASE_Ln_CTL 3) 0 = true ∧
    u.lease 3 = a.lease 3 ∧ u = { a with regs := u.regs, journals := u.journals, leases := u.leases } := by decide +kernel

/-- A lease that is claimed and granted. -/
def claimed : State := (up.setNum (mPage .lease) (leaseReg Reg.LEASE_Ln_CTL 3) 1).setLease 3 { granted := true, claimStep := 4 }

theorem test_lease_release :
    let u := after (.leaseRelease 5 host 3) claimed
    Granted (claimed.advance 5) host (mPage .lease) (leaseReg Reg.LEASE_Ln_CTL 3) ∧
    u.bit (mPage .lease) (leaseReg Reg.LEASE_Ln_CTL 3) 0 = false ∧ (u.lease 3).granted = false ∧ (u.lease 3).claimStep = 0 ∧
    u.lease 4 = claimed.lease 4 := by decide +kernel

theorem test_lease_range_write :
    let off := leaseReg Reg.LEASE_Ln_COUNT 240
    let base := leaseReg Reg.LEASE_Ln_BASE 240
    Granted (up.advance 5) host (mPage .lease) off ∧ Granted (up.advance 5) host (mPage .lease) base ∧
    (after (.leaseRangeWrite 5 host 240 true 0x1000000) up).num (mPage .lease) off = 0x1000000 ∧
    (after (.leaseRangeWrite 5 host 240 false 0x1000005) up).num (mPage .lease) base = 5 := by decide +kernel

theorem test_lease_range_held :
    let off := leaseReg Reg.LEASE_Ln_COUNT 3
    let u := after (.leaseRangeWrite 5 host 3 true 7) claimed
    Granted (claimed.advance 5) host (mPage .lease) off ∧ claimed.leaseHeld 3 = true ∧ u.num (mPage .lease) off = 0 := by decide +kernel

theorem test_event_ring_enable :
    let u := after (.eventRingEnable 5 host 7 20) up
    Granted (up.advance 5) host (mPage .host) (ringReg Reg.HOST_EVRn_CFG 7) ∧ u.ringOn 7 = true ∧ u.ringIsDown 7 = true ∧
    (∀ i, i < 8 → i ≠ 7 → up.ringOn i = false) ∧ u.ring 7 = {} ∧ u.out = [] := by decide +kernel

theorem test_event_ring_qpn :
    let off := ringReg Reg.HOST_EVRn_QPN 0
    let u := after (.eventRingQpnWrite 5 host 0 0x110) up
    Granted (up.advance 5) host (mPage .host) off ∧ up.ringOn 0 = false ∧ u.num (mPage .host) off = 0x110 := by decide +kernel

/-- A collective runs in quarter 1. -/
def inCollective : State :=
  { up with coll := { ops := [{ q := 1, seq := 0, desc := 0, epoch := 0, attempt := 0, streams := [] }] } }

theorem test_topology_write :
    let u := after (.collTopologyWrite 5 host Reg.COLL_SHAPE 0x030201) inCollective
    Granted (inCollective.advance 5) host (mPage .coll) Reg.COLL_SHAPE ∧ u.num (mPage .coll) Reg.COLL_SHAPE = 0x030201 ∧
    u.coll.ops = [] ∧ u.mem = inCollective.mem := by decide +kernel

theorem test_topology_tree :
    let u := after (.collTopologyWrite 5 host Reg.COLL_TREE 7) up
    Granted (up.advance 5) host (mPage .coll) Reg.COLL_TREE ∧ u.num (mPage .coll) Reg.COLL_TREE = 7 := by decide +kernel

/-- This module is the lead of a pod with a spare at chip 1. -/
def lead : State :=
  let s := (up.setNum (mPage .pod) Reg.POD_ROLE 2).setNum (mPage .pod) Reg.POD_LEAD_ID (2 ^ 31)
  s.setPod { s.fabric.pod with cut := [(0, 0), (1, 1)] }

theorem test_link_check_start :
    let s := lead.setNum (mPage .coll) Reg.COLL_CHECK_ATT 9
    let u := after (.linkCheckStart 5 host) s
    Granted (s.advance 5) host (mPage .coll) Reg.COLL_CHECK ∧ s.isLead = true ∧
    u.bit (mPage .coll) Reg.COLL_CHECK_STS 0 = true ∧ u.coll.checking = some 9 ∧ u.coll.checkLeft = 1 := by decide +kernel

theorem test_repair_go :
    let p := qPage .nmem 1 2
    let s := up.setNum64 p Reg.NMEM_REPAIR_ADDR_LO Reg.NMEM_REPAIR_ADDR_HI (placeAddr 1 2 3 5 77)
    let u := after (.repairGo 5 host 1 2) s
    Granted (s.advance 5) host p Reg.NMEM_REPAIR_CTL ∧
    stackPlace (s.num64 p Reg.NMEM_REPAIR_ADDR_LO Reg.NMEM_REPAIR_ADDR_HI) = some (StackPlace.mk false 1 2 3 5 77) ∧
    (s.stack 1 2).copying = false ∧ (u.stack 1 2).hardPending = true ∧ (u.stack 1 2).recorded = (u.stack 1 2).repairs ∧
    (u.stack 1 2).repairs = [{ pc := 3, bank := 5, unit := 4, spare := 0, lines := 0, copied := false }] := by decide +kernel

theorem test_port_disable :
    let p := qPage .fport 2 5
    let s := (up.setNum p Reg.FPORT_PORT_STS 1).setNum p Reg.FPORT_PORT_CTL 9
    let a := s.advance 5
    let u := after (.portDisable 5 host 2 5) s
    Granted a host p Reg.FPORT_PORT_CTL ∧ a.isLead = false ∧ u.num p Reg.FPORT_PORT_CTL = 8 ∧ u.portUp 2 5 = false ∧
    u = { a with regs := u.regs, cycle := u.cycle, journals := u.journals, events := u.events, pulses := u.pulses,
                 fabric := u.fabric, frecs := u.frecs } := by
  decide +kernel

theorem test_discovery_start :
    let u := after (.discoveryStart 5 host) up
    Granted (up.advance 5) host (mPage .pod) Reg.POD_POD_CMD ∧ (up.advance 5).stepState = 0 ∧
    u.fabric.pod.stage = .election ∧ u.field (mPage .pod) Reg.POD_ROLE 2 2 = 3 := by decide +kernel

theorem test_pt_apply : (after (.ptApply 5 host) up).fabric.pod.setArmed = true := by decide +kernel

theorem test_pod_cmd_cut :
    let s := lead.setNum (mPage .pod) Reg.POD_CUT_SEL 1
    let a := s.advance 5
    let u := after (.podCmdCut 5 host) s
    Granted a host (mPage .pod) Reg.POD_POD_CMD ∧ a.isLead = true ∧ a.podId 1 ≠ a.selfId ∧ a.cutOf 1 = 1 ∧
    a.fabric.pod.adopting = none ∧ u.cutOf 1 = 2 ∧ u.num (mPage .fault) Reg.FAULT_LAST_LOST = 2 ^ 31 + 1 ∧
    u.train.mended = true := by decide +kernel

theorem test_island_stop :
    let s := up.setBit (qPage .ve 3 15) Reg.HDR_PAGE_CTL 1 true
    let a := s.advance 5
    let u := after (.islandStop 5 host 3 48) s
    Granted a host (mPage .clkdir) Reg.CLKDIR_CLK_CMD ∧ a.stopOk 3 48 = true ∧ u.island 3 48 = 2 ∧
    u.num (mPage .clkdir) Reg.CLKDIR_CMD_STS = 1 + 4 * 48 + 512 * 3 ∧
    u = { a with regs := u.regs, journals := u.journals, clk := { a.clk with islands := u.clk.islands, cmds := [⟨3, 48, true, a.now⟩] } } := by
  decide +kernel

theorem test_island_start :
    let s := up.setIsland 0 33 3
    let a := s.advance 5
    let u := after (.islandStart 5 host 0 33) s
    Granted a host (mPage .clkdir) Reg.CLKDIR_CLK_CMD ∧ u.island 0 33 = 4 ∧ u.clk.cmds = [⟨0, 33, false, 5⟩] := by decide +kernel

theorem test_cp_halt :
    let p := qPage .cp 3 1
    let s := up.setNum p Reg.CP_CP_CTL 1
    let a := s.advance 5
    let u := after (.cpHalt 5 (.cp 3 1) 3 1) s
    Granted a (.cp 3 1) p Reg.CP_CP_CTL ∧ u.bit p Reg.CP_CP_CTL 0 = false ∧
    u = { a with regs := u.regs, journals := u.journals } := by decide +kernel

theorem test_cp_reset :
    let p := qPage .cp 3 1
    let s := up.setNum p Reg.CP_CP_CTL 1
    let u := after (.cpReset 5 host 3 1) s
    Granted (s.advance 5) host p Reg.CP_CP_CTL ∧ u.bit p Reg.CP_CP_CTL 0 = true ∧ (u.hart 3 1).kicked = 5 := by decide +kernel

theorem test_pwr_off :
    let s := { up with power := { up.power with state := 2 } }
    let u := after (.pwrOff 5 host) s
    Granted (s.advance 5) host (mPage .pwr) Reg.PWR_PWR_CMD ∧ u.power.state = 4 ∧ u.power.alert = true ∧
    u.num (mPage .pwr) Reg.PWR_TRIP_INFO = 9 := by decide +kernel

/-- The module is owned, and has started. -/
def owned : State :=
  (((({ up with clk := { islands := [(108, 0)] } } : State)).setBit (mPage .host) Reg.HOST_HOST_STS 0 true).setPhase 9).setField (mPage .pod) Reg.POD_ROLE 2 2 1

theorem test_boot_cold :
    let a := owned.advance 5
    let u := after (.bootCold 5 host) owned
    Granted a host (mPage .boot) Reg.BOOT_BOOT_CMD ∧ a.bootOwner host = true ∧ u.power.state = 0 ∧
    u.boot.next = some ⟨3600000005, .cold⟩ ∧ u.island 3 109 = 5 := by decide +kernel

theorem test_boot_warm :
    let s := owned.setNum (mPage .step) Reg.STEP_ATTEMPT_LO 8
    let a := s.advance 5
    let u := after (.bootWarm 5 host) s
    a.warmOk = true ∧ a.field (mPage .pod) Reg.POD_ROLE 2 2 ≠ 0 ∧ u.phase = 0 ∧ u.warmStart = true ∧
    (u.stack 2 7).sref = true ∧ u.num (mPage .step) Reg.STEP_ATTEMPT_LO = 8 := by decide +kernel

/-- An active module that trains, with one page in its unpick map. -/
def training : State :=
  let s := (owned.setField (mPage .pod) Reg.POD_ROLE 2 2 0).setBit (mPage .step) Reg.STEP_STEP_CTL 0 true
  let s := (s.setNum (mPage .boot) Reg.BOOT_UMAP_COUNT 1).setNum64 (mPage .boot) Reg.BOOT_UMAP_LO Reg.BOOT_UMAP_HI 0x1000
  (s.writeNat 0x1000 8 0x10000010000).writeNat 0x1008 8 64

theorem test_boot_unpick :
    let a := training.advance 5
    let u := after (.bootUnpick 5 host) training
    a.bootOwner host = true ∧ a.unpickOk = true ∧ u.phase = 12 ∧
    u.boot.unpick.map (·.regions) = some [(0x10000010000, 64)] := by decide +kernel

theorem test_boot_warm_unpick :
    let a := training.advance 5
    let u := after (.bootWarm 5 host) training
    a.warmOk = true ∧ a.field (mPage .pod) Reg.POD_ROLE 2 2 = 0 ∧ u.phase = 12 ∧ u.boot.warmAfter = true := by decide +kernel

/-! ## Tiles -/

/-- A tile descriptor with one active cell: D at Fold offset 0x1000, SIG counter 9. -/
def oneCell : Desc := descriptor [0, 0, 0, 0, 0, 0, 0, 0, 0, 0, 0, 0x1000, 0, 1, 1, 0x90000]

/-- A queue of quarter 1 whose next tile waits. -/
def tileWaits : State := up.setQueue 1 0 { window := [{ desc := oneCell }] }

theorem test_tile_accept :
    let a := tileWaits.advance 2000
    let u := after (.tileAccept 2000 1 0 0 [] [] [(0x2001000000, 1)]) tileWaits
    a.startable 1 0 = some (0, { desc := oneCell }) ∧ a.blockedWindow = false ∧ streamsOf 0 oneCell = [] ∧
    (a.array 1 0 0).ready a.now 0 0 oneCell [] = true ∧
    (u.array 1 0 0).lastAccept = some (2000, max (descBeats oneCell + 2) 32, descBeats oneCell) ∧
    (u.queue 1 0).window.map (·.status) = [.running] ∧ u.mem = a.mem := by decide +kernel

theorem test_tile_blocked :
    let s := tileWaits.setField (mPage .pwr) Reg.PWR_PWR_STS 10 6 60
    (s.advance (63 * 1024)).blockedWindow = true ∧
    after (.tileAccept (63 * 1024) 1 0 0 [] [] []) s = s.advance (63 * 1024) := by decide +kernel

/-- Beat 0 is not in its queue in the ACLK of the fetch. -/
theorem test_tile_not_ready :
    let a := tileWaits.advance 3
    (a.array 1 0 0).ready a.now 0 0 oneCell [] = false ∧ after (.tileAccept 3 1 0 0 [] [] []) tileWaits = a := by decide +kernel

/-- The tile runs: A holds 1 in its first element, B 2. -/
def tileRuns : State :=
  (up.setQueue 1 0 { window := [{ desc := oneCell, status := .running }] }).setArray 1 0 0
    { tiles := [{ desc := oneCell, kind := 0, at_ := 0, salt := 0, a := [⟨[⟨127, [0x3F80, 0, 0, 0]⟩], false⟩],
                  b := [⟨[⟨127, [0x4000, 0, 0, 0]⟩], false⟩], c := [], cBad := [], reads := [] }] }

theorem test_tile_complete :
    let a := tileRuns.advance 500
    let x := a.array 1 0 0
    let u := after (.tileComplete 500 1 0 0 0 [] [] [] 0 0) tileRuns
    x.tiles.all (fun y => decide (y.at_ + y.stop (x.handFor 0) ≤ a.now)) = true ∧ u.readNat (foldBase 1 + 0x1000) 4 = 0x4000 ∧ u.mem.length = 1 ∧
    u.counter 1 9 = 1 ∧ (u.queue 1 0).window = [] ∧ u.num (qPage .array 1 0) Reg.ARRAY_TILES_DONE = 1 := by decide +kernel

theorem test_tile_hands_off :
    let d := oneCell ||| BitVec.ofNat 512 0x10000
    let s := (up.setQueue 1 1 { window := [{ desc := d, status := .running }] }).setArray 1 0 1
      { tiles := [{ desc := d, kind := 1, at_ := 0, salt := 0, a := [⟨[⟨127, [0x3F80, 0, 0, 0]⟩], false⟩],
                    b := [⟨[⟨127, [0x4000, 0, 0, 0]⟩], false⟩], c := [], cBad := [], reads := [] }] }
    let u := after (.tileComplete 500 1 0 1 0 [] [] [] 0 0) s
    df d 0 15 2 = 2 ∧ ((u.array 1 0 1).handoff.map (fun h => h.carries.headD none)) = some (some (.fin false (2 ^ 33) (-32))) ∧
    u.mem = [] := by decide +kernel

theorem test_mangle_claim_grant :
    let c : MangleClaim := { who := 4, streams := [(1, 512), (2, 0)], at_ := 3 }
    let b : MangleUse := { mangle := 0, who := 9, at_ := 1, until_ := 60 }
    let s := up.setMangles 2 { claims := [{ who := 5, streams := [(2, 64)], at_ := 3 }, c], busy := [b] }
    let u := after (.mangleClaimGrant 5 2) s
    (∀ b ∈ (s.mangles 2).busy, ∀ m ∈ c.streams, b.mangle ≠ m.1) ∧ (u.mangles 2).claims.map (·.who) = [5] ∧
    (u.mangles 2).busy = [b, { mangle := 1, who := 4, at_ := 5, until_ := 55 }, { mangle := 2, who := 4, at_ := 5, until_ := 5 }] ∧
    (u.mangles 2).served = [(4, 5)] := by decide +kernel

theorem test_mangle_stream_done :
    let b (m k : Nat) : MangleUse := { mangle := m, who := 4, at_ := 1, until_ := k }
    (after (.mangleStreamDone 50 2 1) (up.setMangles 2 { busy := [b 1 50, b 2 50, b 1 51] })).mangles 2 =
      { busy := [b 2 50, b 1 51] } := by
  decide +kernel

/-! ## The Fold and the queues -/

theorem test_fold_grant_write :
    let w : FoldArrival := { off := 0x40, cls := 2, num := 7, isWrite := true, bytes := [(3, 0xAB)] }
    let a := [w].foldl (fun s x => s.foldArrive 1 x) ((up.advance 5).upset [])
    let b := subBank 0x40
    let u := after (.foldAccessGrant 5 1 (b / 4) (b % 4) [w] []) up
    Clean a ∧ a.compute.fold.reqs.map (·.off) = [0x40] ∧ 4 * (b / 4) + b % 4 = subBank 0x40 ∧
    u.mem = [(foldBase 1 + 0x43, 0xAB)] ∧ u.compute.fold.reqs = [] := by decide +kernel

theorem test_fold_grant_read :
    let s := (up.writeNat (foldBase 1 + 0x40) 1 0x5A).setFold { reqs := [{ quarter := 1, off := 0x40, cls := 2, at_ := 0, num := 3 },
      { quarter := 1, off := 0x40, cls := 2, at_ := 0, num := 9 }] }
    let b := subBank 0x40
    let u := after (.foldAccessGrant 5 1 (b / 4) (b % 4) [] []) s
    Clean (s.advance 5) ∧ u.compute.fold.reads.map (fun r => (r.granted, r.line)) = [(5, 0x5A)] ∧
    u.compute.fold.reqs.map (·.num) = [9] := by decide +kernel

theorem test_fold_promote :
    let s := up.setFold { reqs := [{ quarter := 1, off := 0x40, cls := 3, at_ := 0, num := 3 }] }
    let u := after (.foldRequestPromote 32 1 0x40 3) s
    u.compute.fold.reqs.map (·.promoted) = [true] ∧ u.num (qPage .fold 1 0) Reg.FOLD_PROMOTED = 1 := by decide +kernel

theorem test_fold_read_complete :
    let s := (up.setFold { reads := [{ quarter := 1, off := 0x40, granted := 5, fetchOf := some (96, 0), line := 2 }] }).setQueue 1 96
      { fetches := [{ index := 0 }] }
    (after (.foldReadComplete 23 1 0x40) s).queue 1 96 = { fetches := [{ index := 0, line := some 2 }] } ∧
    (after (.foldReadComplete 22 1 0x40) s).compute.fold.reads.length = 1 := by decide +kernel

theorem test_fold_scrub :
    let s := up.setNum (qPage .bgnd 1 0) Reg.BGND_RINSE_CTL 1
    let a := s.advance 1024
    let u := after (.foldScrubCycle 1024 1 3 2 []) s
    a.bit (qPage .bgnd 1 0) Reg.BGND_RINSE_CTL 0 = true ∧ a.now / 1024 % 2 ^ a.field (qPage .bgnd 1 0) Reg.BGND_RINSE_CTL 2 4 = 0 ∧
    Clean a ∧ u.num (qPage .bgnd 1 0) Reg.BGND_FOLD_POS = 1 ∧ mapGet (fun _ => 0) u.compute.fold.patrol (256 + 14) = 1 := by
  decide +kernel

/-- Queue 96 of quarter 1 has a ring of 16 entries with one to fetch. -/
def ringed : State := up.setQueue 1 96 { tail := 1, log2 := 4 }

theorem test_queue_fetch :
    let a := ringed.advance 5
    let u := after (.queueFetch 5 1 96) ringed
    queueExists 96 = true ∧ a.working (a.queuePage 1 96) = true ∧ a.canTrack 1 96 = true ∧
    u.queue 1 96 = { tail := 1, log2 := 4, fetches := [{ index := 0 }], nextFetch := 6 } ∧
    u.compute.fold.reqs.map (fun r => (r.cls, r.fetchOf)) = [(2, some (96, 0))] := by decide +kernel

/-- A control entry ADD of 5 to counter 9. -/
def addFive : Desc := descriptor [0x2F, 9, 5]

theorem test_queue_fetch_control :
    let s := ringed.writeNat (foldBase 1) 4 0x2F
    (after (.queueFetch 5 1 96) s).queue 1 96 = { tail := 1, log2 := 4, fetches := [{ index := 0, ctl := true }], nextFetch := 6 } := by
  decide +kernel

/-- A vector ADD of one element, TAG 3, signalling counter 9. -/
def vecOne (op : Nat) : Desc := descriptor [op, 0x30000, 0, 0, 0, 0, 0, 0, 0, 0, 0, 0, 0, 0, 0, 0x90000]

theorem test_queue_fetch_arrive :
    let s := up.setQueue 1 96 { tail := 1, log2 := 4, fetches := [{ index := 0, line := some (vecOne 14) }] }
    let a := s.advance 5
    let u := after (.queueFetchArrive 5 1 96) s
    a.skipping 1 96 = false ∧ a.roundSkips 96 (vecOne 14) = false ∧ (a.checkFetched 1 96 (vecOne 14)).1 = 1 ∧
    (u.queue 1 96).halt = some .refused ∧ (u.queue 1 96).head = 1 ∧
    u.num (qPage .ve 1 0) Reg.ENG_ERR_INFO = 0x30001 := by decide +kernel

theorem test_queue_fetch_poisoned :
    let s := up.setQueue 1 96 { tail := 1, log2 := 4, fetches := [{ index := 0, line := some (vecOne 0), poisoned := true }] }
    let u := after (.queueFetchArrive 5 1 96) s
    (u.queue 1 96).halt = some .refused ∧ u.num (qPage .ve 1 0) Reg.ENG_ERR_INFO = 0x3000C := by decide +kernel

theorem test_descriptor_signal :
    let s := up.setQueue 1 96 { head := 1, tail := 1, log2 := 4, window := [{ desc := vecOne 0, status := .done, waitUntil := 5 }] }
    let a := s.advance 5
    let u := after (.descriptorSignal 5 1 96) s
    a.writesOpen 1 96 0 = false ∧ u.counter 1 9 = 1 ∧ (u.queue 1 96).window = [] ∧
    u.num (qPage .ve 1 0) Reg.ENG_LAST_TAG = 3 ∧ (after (.descriptorSignal 4 1 96) s).counter 1 9 = 0 := by decide +kernel

/-- A control entry waits at HEAD of queue 96, and counter 9 holds 7. -/
def control (d : Desc) : State :=
  (up.setQueue 1 96 { tail := 1, log2 := 4, fetches := [{ index := 0, ctl := true, line := some d }] }).setCounter 1 9 7

theorem test_qctl_wait_ge :
    let s := control (descriptor [0x0F, 9, 7])
    let a := s.advance 5
    a.controlNow 1 96 0 = some (descriptor [0x0F, 9, 7]) ∧ a.waitUnmet 1 96 = false ∧
    (after (.qctlWaitGe 5 1 96) s).queue 1 96 = { head := 1, tail := 1, log2 := 4 } ∧
    (after (.qctlWaitGe 5 1 96) (control (descriptor [0x0F, 9, 8]))) = (control (descriptor [0x0F, 9, 8])).advance 5 := by
  decide +kernel

theorem test_qctl_take :
    let s := control (descriptor [0x1F, 9, 5])
    (s.advance 5).controlNow 1 96 1 = some (descriptor [0x1F, 9, 5]) ∧ (s.advance 5).waitUnmet 1 96 = false ∧
    (after (.qctlTake 5 1 96) s).counter 1 9 = 2 := by decide +kernel

theorem test_qctl_add :
    let s := control addFive
    (s.advance 5).controlNow 1 96 2 = some addFive ∧ (s.advance 5).waitUnmet 1 96 = false ∧
    (after (.qctlAdd 5 1 96) s).counter 1 9 = 12 := by decide +kernel

theorem test_qctl_clear :
    let s := control (descriptor [0x3F, 9])
    (s.advance 5).controlNow 1 96 3 = some (descriptor [0x3F, 9]) ∧ (s.advance 5).waitUnmet 1 96 = false ∧
    (after (.qctlClear 5 1 96) s).counter 1 9 = 0 := by decide +kernel

/-! ## Vector engines -/

/-- A one-row, one-element vector descriptor of a kernel, on queue 97 of quarter 1: SRC0 at 0x1000 holds 1, SRC1 at 0x1040 holds 2,
VEC0 at 0x1080 holds 3, DST is at 0x10C0, STAT at 0x1100, AUX0 at 0x1140, AUX1 at 0x1180. -/
def vecDesc (k a0 a1 : Nat) : Desc :=
  descriptor [16 * k, 0x30000, 0, 0x1000, 0, 0x1040, 0, 0x1080, 0x10C0, 0, 0x1100, 0x3F800000, 0x40000000, a0, a1, 0x90000]

/-- The state in which it waits. -/
def vecState (k a0 a1 : Nat) : State :=
  let s := ((up.writeNat (foldBase 1 + 0x1000) 2 0x3F80).writeNat (foldBase 1 + 0x1040) 2 0x4000).writeNat (foldBase 1 + 0x1080) 2 0x4040
  s.setQueue 1 97 { window := [{ desc := vecDesc k a0 a1 }] }

/-- Does the state meet what the statements ask? -/
def vecReady (k a0 a1 : Nat) : Bool :=
  let s := vecState k a0 a1
  decide (Clean ((s.advance 5).upset [])) && (s.advance 5).startable 1 97 == some (0, { desc := vecDesc k a0 a1 }) &&
  decide (df (vecDesc k a0 a1) 0 4 8 = k ∧ df (vecDesc k a0 a1) 2 0 24 = 0)

/-- What the descriptor leaves at a Fold offset, and whether it is done, where the state is ready. -/
def vecResult (c : Instr) (k a0 a1 off : Nat) : Option (Nat × Bool) :=
  let u := after c (vecState k a0 a1)
  if vecReady k a0 a1 then
    some (word16 u.mem (foldBase 1 + off), ((u.queue 1 97).window.map (·.status)) == [.done])
  else none

theorem test_vec_add : vecResult (.vecAdd 5 1 1 []) 1 0 0 0x10C0 = some (0x4040, true) := by decide +kernel

theorem test_vec_sub : vecResult (.vecSub 5 1 1 []) 2 0 0 0x10C0 = some (0xBF80, true) := by decide +kernel

theorem test_vec_mul : vecResult (.vecMul 5 1 1 []) 3 0 0 0x10C0 = some (0x4000, true) := by decide +kernel

theorem test_vec_fma : vecResult (.vecFma 5 1 1 []) 4 0 0 0x10C0 = some (0x40A0, true) := by decide +kernel

theorem test_vec_max : vecResult (.vecMax 5 1 1 []) 5 0 0 0x10C0 = some (0x4000, true) := by decide +kernel

theorem test_vec_min : vecResult (.vecMin 5 1 1 []) 6 0 0 0x10C0 = some (0x3F80, true) := by decide +kernel

theorem test_vec_axpb : vecResult (.vecAxpb 5 1 1 []) 7 0 0 0x10C0 = some (0x4040, true) := by decide +kernel

theorem test_vec_activation : vecResult (.vecActivation 5 1 1 []) 0x13 0 0 0x10C0 = some (0x3F80, true) := by decide +kernel

theorem test_vec_recip : vecResult (.vecRecip 5 1 1 []) 0x1A 0 0 0x10C0 = some (0x3F80, true) := by decide +kernel

theorem test_vec_activation_backward : vecResult (.vecActivationBackward 5 1 1 []) 0x23 0 0 0x10C0 = some (0x4000, true) := by decide +kernel

theorem test_vec_row_sum : vecResult (.vecRowSum 5 1 1 []) 0x30 0 0 0x1100 = some (0x3F80, true) := by decide +kernel

theorem test_vec_row_max : vecResult (.vecRowMax 5 1 1 []) 0x31 0 0 0x1100 = some (0x3F80, true) := by decide +kernel

theorem test_vec_row_sumsq : vecResult (.vecRowSumsq 5 1 1 []) 0x32 0 0 0x1100 = some (0x3F80, true) := by decide +kernel

theorem test_vec_row_dot : vecResult (.vecRowDot 5 1 1 []) 0x33 0 0 0x1100 = some (0x4000, true) := by decide +kernel

theorem test_vec_rsqrt_ready : vecReady 0x1B 0 0 = true := by decide +kernel

theorem test_vec_log_ready : vecReady 0x1C 0 0 = true := by decide +kernel

theorem test_vec_row_lse_ready : vecReady 0x34 0 0 = true := by decide +kernel

theorem test_vec_ln_fwd_ready : vecReady 0x40 0x1140 0 = true := by decide +kernel

theorem test_vec_rms_fwd_ready : vecReady 0x41 0 0 = true := by decide +kernel

theorem test_vec_softmax_fwd_ready : vecReady 0x42 0 0 = true := by decide +kernel

theorem test_vec_ln_bwd : (vecResult (.vecLnBwd 5 1 1 []) 0x48 0x1140 0x1180 0x10C0).map Prod.snd = some true := by decide +kernel

theorem test_vec_rms_bwd : (vecResult (.vecRmsBwd 5 1 1 []) 0x49 0x1140 0 0x10C0).map Prod.snd = some true := by decide +kernel

theorem test_vec_softmax_bwd : (vecResult (.vecSoftmaxBwd 5 1 1 []) 0x4A 0 0 0x10C0).map Prod.snd = some true := by decide +kernel

theorem test_vec_softmax_bwd_l_ready : vecReady 0x4B 0 0 = true := by decide +kernel

theorem test_vec_ln_bwd_rc_ready : vecReady 0x4C 0x1140 0x1180 = true := by decide +kernel

theorem test_vec_rms_bwd_rc_ready : vecReady 0x4D 0x1140 0 = true := by decide +kernel

theorem test_vec_softmax_bwd_rc_ready : vecReady 0x4E 0 0 = true := by decide +kernel

theorem test_vec_other_kernel :
    after (.vecAdd 5 1 1 []) (vecState 2 0 0) = (vecState 2 0 0).advance 5 := by decide +kernel

/-! ## Engines -/

/-- The descriptor of queue n of quarter 1 waits, on memory that holds 1, 2, 3 … in BF16 from Fold offset 0x1000. -/
def engineWaits (n : Nat) (d : Desc) : State :=
  let s := up.writeBytes (foldBase 1 + 0x1000) ([0x3F80, 0x4000, 0x4040, 0x4080, 0x40A0, 0x40C0, 0x40E0, 0x4100, 0x3F80, 0, 0, 0, 0, 0, 0, 0].flatMap
    (leBytes 2))
  s.setQueue 1 n { window := [{ desc := d }] }

/-- Convert three elements from BF16 to binary16. -/
def toHalf : Desc := descriptor [0x201, 2, 0, 0x1000, 0, 0, 0, 0x2000, 0, 0, 0, 0, 0, 0, 0, 0x90000]

theorem test_convert :
    let s := engineWaits 113 toHalf
    let u := after (.convert 5 1 1 []) s
    (Clean ((s.advance 5).upset []) ∧ (s.advance 5).startable 1 113 = some (0, { desc := toHalf })) ∧
    fmtOf (df toHalf 0 4 4) = some .bf16 ∧ fmtOf (df toHalf 0 9 4) = some .fp16 ∧
    (List.range 3).map (fun j => word16 u.mem (foldBase 1 + 0x2000 + 2 * j)) = [0x3C00, 0x4000, 0x4200] ∧
    (u.queue 1 113).window.map (fun w => (w.status, w.waitUntil)) = [(.done, 5 + 2 * 25)] := by decide +kernel

/-- Convert one block of 16 elements from BF16 to SQ8e4 in LOCAL mode. -/
def toBlock : Desc := descriptor [0x2401, 15, 0, 0x1000, 0, 0, 0, 0x2000, 0, 0x3000, 0, 0, 0, 0, 0, 0x90000]

theorem test_convert_block :
    let s := engineWaits 113 toBlock
    let u := after (.convert 5 1 1 []) s
    Clean ((s.advance 5).upset []) ∧ (s.advance 5).startable 1 113 = some (0, { desc := toBlock }) ∧
    df toBlock 1 0 16 + 1 = blockLen (db toBlock 0 13) ∧ memGet u.mem (foldBase 1 + 0x3000) = 122 ∧
    leNat (memBytes u.mem (foldBase 1 + 0x2000) 2) = 0x6860 := by decide +kernel

/-- A handoff of 32 rows of carries from slot 2, array 1. -/
def handed (w12 smode : Nat) : Desc :=
  descriptor [0x40001 + smode, 31, 31, 34, 0, 0, 0, 0x2000, 64, 0x3000, 64, 0, w12, 0, 0, 0x90000]

/-- The tile's carries wait: 1 in row 1, column 2. -/
def carriesWait (d : Desc) : State :=
  let s := up.setQueue 1 114 { window := [{ desc := d }] }
  let l : List (Option Machine.Num) := List.replicate 34 none ++ [some (.fin false 1 0)] ++ List.replicate 989 none
  s.setArray 1 (s.physOf 1 2) 1 { handoff := some { ce := 2, carries := l } }

theorem test_convert_handoff :
    let s := carriesWait (handed 0 0)
    let u := after (.convertHandoff 5 1 2 [] []) s
    (s.advance 5).startable 1 114 = some (0, { desc := handed 0 0 }) ∧ (u.array 1 (s.physOf 1 2) 1).handoff = none ∧
    word16 u.mem (foldBase 1 + 0x2000 + 64 + 4) = 0x3F80 ∧ u.mem.length = 2 := by decide +kernel

theorem test_convert_handoff_spill :
    let d := handed 0 0x8400
    let s := carriesWait d
    let u := after (.convertHandoff 5 1 2 [] []) s
    convSpills d ((s.advance 5).delayed 1 (df d 11 16 16)).ready = true ∧ dw d 12 = 0 ∧
    (u.queue 1 114).halt = some .refused ∧ u.num (qPage .ce 1 2) Reg.ENG_ERR_INFO = 0x12 := by decide +kernel

/-- Transpose a 32 by 32 matrix. -/
def flipIt : Desc := descriptor [0x01, 0, 0, 0x1000, 64, 0x4000, 64, 0, 0, 0, 0, 0, 0, 0, 0, 0x90000]

theorem test_transpose :
    let s := (engineWaits 123 flipIt).setMangles 1 { busy := [{ mangle := 3, who := 99, at_ := 1, until_ := 99 }], served := [(99, 1)] }
    let u := after (.transpose 5 1 3 []) s
    (s.advance 5).startable 1 123 = some (0, { desc := flipIt }) ∧ ((s.advance 5).mangles 1).served.any (fun e => e.1 == 99) = true ∧
    df flipIt 1 0 16 = 0 ∧ 2 * 32 ≤ dw flipIt 6 ∧ (u.queue 1 123).window.map (·.status) = [.done] := by decide +kernel

/-- Dump and clear IDs 4 and 5. -/
def dumpIt : Desc := descriptor [0x11, 0, 4 + 65536 * 5, 0x5000, 0, 0, 0, 0, 0, 0, 0, 0, 0, 0, 0, 0x90000]

theorem test_sorter_dump :
    let s := (up.setQueue 1 129 { window := [{ desc := dumpIt }] }).countBins 1 1 5 [67, 67]
    let u := after (.sorterDump 5 1 1) s
    (s.advance 5).startable 1 129 = some (0, { desc := dumpIt }) ∧
    leNat (memBytes u.mem (foldBase 1 + 0x5000 + 544 + 8 * 67) 8) = 2 ∧ u.bin 1 1 5 67 = 0 := by decide +kernel

/-- Digest 2 bytes of the Fold of quarter 1 into accumulator 7. -/
def digestIt : Desc := descriptor [0x01, 0, foldBase 1 % 2 ^ 32 + 0x1000, foldBase 1 / 2 ^ 32, 2, 0, 0, 7, 0, 0, 0, 0, 0, 0, 0, 0x90000]

theorem test_digest :
    let s := (engineWaits 131 digestIt).setNum (qPage .dg 1 1) (Reg.DG_ACC_LO + 56) 5
    let u := after (.digest 5 1 1 []) s
    Clean ((s.advance 5).upset []) ∧ (s.advance 5).startable 1 131 = some (0, { desc := digestIt }) ∧
    (s.advance 5).train.ueLines = [] ∧
    u.num64 (qPage .dg 1 1) (Reg.DG_ACC_LO + 56) (Reg.DG_ACC_HI + 56) = (5 + (crc64 [0, 0, 0, 0, 0, 0, 0, 0, 0x80, 0x3F]).toNat) % 2 ^ 64 := by
  decide +kernel

/-- Compress two blocks of 16 elements, keeping one. -/
def wringIt : Desc :=
  descriptor [0x521, 0, 2, foldBase 1 % 2 ^ 32 + 0x1000, foldBase 1 / 2 ^ 32, foldBase 1 % 2 ^ 32 + 0x6000, foldBase 1 / 2 ^ 32,
    0x7000, 0x7100, 0x7200, 1, 0x7300, 0, 0, 0, 0x90000]

theorem test_compress :
    let s := engineWaits 133 wringIt
    let u := after (.compress 5 1 1 []) s
    Clean ((s.advance 5).upset []) ∧ (s.advance 5).startable 1 133 = some (0, { desc := wringIt }) ∧
    leNat (memBytes u.mem (foldBase 1 + 0x7300) 4) = 1 ∧ memGet u.mem (foldBase 1 + 0x7100) = 122 := by decide +kernel

/-! ## Streamers and the exporter -/

/-- A streamer descriptor: OP, bytes of a row, rows, source and destination. -/
def moveIt (op n rows src dst : Nat) : Desc :=
  descriptor [op, 0, src % 2 ^ 32, src / 2 ^ 32, dst % 2 ^ 32, dst / 2 ^ 32, n, rows - 1, 64, 128, 0, 0, 0, 0, 0, 0x90000]

/-- Streamer 2 of quarter 1 holds a descriptor, on memory that holds 5, 6, 7 at its source. -/
def streams (w : WinEntry) : State :=
  (up.writeBytes (foldBase 1 + 0x1000) [5, 6, 7]).setQueue 1 138 { window := [w] }

theorem test_streamer_start :
    let d := moveIt 1 16 2 (foldBase 1 + 0x1000) (foldBase 1 + 0x8000)
    let a := (streams { desc := d }).advance 5
    let u := after (.streamerCopy 5 1 2) (streams { desc := d })
    a.startable 1 138 = some (0, { desc := d }) ∧ 0 < dw d 6 ∧ a.opsOf 1 138 + (a.moves d).count ≤ 4 ∧
    (∀ j, j < (a.moves d).count → a.resolve ((a.moves d).ends d j).1 = .here (foldBase 1 + 0x1000 + 64 * j)) ∧
    (∀ j, j < (a.moves d).count → a.resolve ((a.moves d).ends d j).2.1 = .here (foldBase 1 + 0x8000 + 128 * j)) ∧
    (u.queue 1 138).window.map (fun w => (w.status, w.open_)) = [(.running, [0, 1])] := by decide +kernel

theorem test_streamer_fill :
    let d := moveIt 2 32 1 0 (foldBase 1 + 0x1000)
    let a := (streams { desc := d }).advance 5
    let u := after (.streamerFill 5 1 2) (streams { desc := d })
    a.startable 1 138 = some (0, { desc := d }) ∧ a.opsOf 1 138 + (a.moves d).count ≤ 4 ∧
    (u.queue 1 138).window.map (fun w => (w.status, w.open_)) = [(.running, [0])] := by decide +kernel

theorem test_streamer_segment :
    let d := moveIt 1 16 1 (foldBase 1 + 0x1000) (foldBase 1 + 0x8000)
    let w : WinEntry := { desc := d, status := .running, seq := 9, next := 1, open_ := [0] }
    let a := (streams w).advance 5
    let u := after (.streamerSegmentComplete 5 1 2 9 0 none false []) (streams w)
    (a.moves d).ends d 0 = (foldBase 1 + 0x1000, foldBase 1 + 0x8000, 16) ∧
    a.resolve (foldBase 1 + 0x8000) = .here (foldBase 1 + 0x8000) ∧ a.resolve (foldBase 1 + 0x1000) = .here (foldBase 1 + 0x1000) ∧
    populated (foldBase 1 + 0x8000) 16 = true ∧ touchesReserved (foldBase 1 + 0x8000) 16 = false ∧
    a.writeWaits (foldBase 1 + 0x8000) 16 = false ∧ Clean a ∧ a.segOf 1 138 9 0 = none ∧
    memBytes u.mem (foldBase 1 + 0x8000) 4 = [5, 6, 7, 0] ∧
    (u.queue 1 138).window.map (fun w => (w.status, w.open_)) = [(.done, [])] := by decide +kernel

/-- A remote write of streamer 2 waits for its answer. -/
def remoteWrite (code : Nat) : State :=
  let s := streams { desc := moveIt 2 16 1 0 (2 ^ 45 + 0x1000), status := .running, seq := 9, next := 1, open_ := [0] }
  { s with fabric := { segs := [{ id := 3, q := 1, n := 138, seq := 9, index := 0, kind := .write, chip := some 1,
                                  answer := some (code, []) }] } }

theorem test_streamer_answer :
    let a := (remoteWrite 0).advance 5
    let u := after (.streamerSegmentComplete 5 1 2 9 0 none false []) (remoteWrite 0)
    let v := after (.streamerSegmentComplete 5 1 2 9 0 none true []) (remoteWrite 0)
    (a.segOf 1 138 9 0).map (·.kind) = some .write ∧ ((a.queue 1 138).window.map (fun w => (a.moves w.desc).count)) = [1] ∧
    ¬ (a.train.aborted = true ∧ a.stepState = 4) ∧ (u.queue 1 138).window.map (·.status) = [.done] ∧ u.fabric.segs = [] ∧
    (v.queue 1 138).halt = some .runtime ∧ v.num (qPage .st 1 2) Reg.ENG_ERR_INFO = 0x21 := by decide +kernel

/-- EX0 of quarter 1 holds a descriptor with a ring at Fold offset 0x10000, whose PROD and CONS are 64. -/
def exports_ (w : WinEntry) : State :=
  let s := (up.writeNat (foldBase 1 + 0x10000) 8 64).writeNat (foldBase 1 + 0x10008) 8 64
  s.setQueue 1 152 { window := [w] }

/-- A SHIP_STEP of attempt 1, or a SHIP_FULL of 24 bytes. -/
def shipIt (op : Nat) : Desc :=
  descriptor [op, 0, 0, 0, (foldBase 1 + 0x10000) % 2 ^ 32, (foldBase 1 + 0x10000) / 2 ^ 32, 65536 + 64,
    (foldBase 1 + 0x1000) % 2 ^ 32, (foldBase 1 + 0x1000) / 2 ^ 32, 20, 0, 0, 0, 0, 0, 0x90000]

theorem test_ship_step :
    let d := shipIt 1
    let a := (exports_ { desc := d }).advance 5
    let u := after (.shipStep 5 1) (exports_ { desc := d })
    a.exRunning 1 = none ∧ a.startable 1 152 = some (0, { desc := d }) ∧ a.resolve (dq d 4) = .here (foldBase 1 + 0x10000) ∧
    populated (foldBase 1 + 0x10000) 64 = true ∧ Clean a ∧
    (u.shipping 1).map (fun x => (x.prod, x.cons, x.began, x.readAt)) = some (64, 64, true, some 5) := by decide +kernel

/-- A skipped attempt has closed and EX0 has read its ring. -/
def shipping_ (next : Nat) : State :=
  let s := exports_ { desc := shipIt 1, status := .running }
  let c : Closed := { attempt := 0, committed := 7, time := 0, skip := true, active := false, parity := 0, chg := [], exceeds := [] }
  { s.setShipping 1 (some { prod := 64, cons := 64, began := true, next := next, readAt := some 2 }) with train := { closed := [c] } }

theorem test_ship_send :
    let a := (shipping_ 0).advance 5
    let u := after (.shipStepSend 5 1 [] []) (shipping_ 0)
    (a.shipClosed 1).isSome = true ∧ (a.exRunning 1).isSome = true ∧ populated (foldBase 1 + 0x10000) (65536 + 64) = true ∧
    a.writeWaits (foldBase 1 + 0x10040) 64 = false ∧ memBytes u.mem (foldBase 1 + 0x10080) 9 = [1, 1, 0, 0, 64, 0, 0, 0, 0] ∧
    memGet u.mem (foldBase 1 + 0x10080 + 16) = 7 ∧ memBytes u.mem (foldBase 1 + 0x10080 + 64) 5 = [3, 0, 0, 0, 32] ∧
    leNat (memBytes u.mem (foldBase 1 + 0x10000) 8) = 64 + 96 := by decide +kernel

theorem test_ship_done :
    let s := shipping_ 1
    let a := s.advance 5
    let u := after (.shipStepDone 5 1 []) s
    (a.shipping 1).map (fun x => (x.next, x.records)) = some (1, []) ∧ a.writesOpen 1 152 0 = false ∧ (a.shipClosed 1).isSome = true ∧
    u.nextShip 1 = 1 ∧ u.shipping 1 = none ∧ (u.queue 1 152).window.map (·.status) = [.done] := by decide +kernel

theorem test_ship_full :
    let d := shipIt 2
    let s := (exports_ { desc := d }).writeBytes (foldBase 1 + 0x1000) [5, 6, 7]
    let a := s.advance 5
    let u := after (.shipFull 5 1 [] []) s
    a.startable 1 152 = some (0, { desc := d }) ∧ dq d 7 = foldBase 1 + 0x1000 ∧ dw d 9 = 20 ∧ a.writesOpen 1 152 0 = false ∧
    touchesReserved (foldBase 1 + 0x10000) (65536 + 64) = false ∧ memBytes u.mem (foldBase 1 + 0x10080) 5 = [4, 8, 0, 0, 56] ∧
    memBytes u.mem (foldBase 1 + 0x10080 + 32) 3 = [5, 6, 7] ∧ (u.queue 1 152).window.map (·.status) = [.done] := by decide +kernel

theorem test_export_reread :
    let w : WinEntry := { desc := shipIt 1, status := .running }
    let x : Shipping := { prod := 65600, cons := 64, began := true, next := 1, readAt := some 2, records := [[(1, false)]] }
    let s := (exports_ w).setShipping 1 (some x)
    let a := s.advance 180002
    let u := after (.exportConsReread 180002 1 []) s
    a.shipBlocked 1 w = true ∧ (a.exRunning 1).isSome = true ∧ a.fabric.segs = [] ∧ (a.nextRecord w x).isSome = true ∧
    (u.shipping 1).map (fun y => (y.cons, y.readAt)) = some (64, some 180002) := by decide +kernel

/-! ## Collectives -/

/-- Two modules along X; this one is chip 0, and the port Q0.X+ is up. -/
def pair : State :=
  let s := ((up.setNum (mPage .coll) Reg.COLL_SHAPE 1).setNum (mPage .coll) Reg.COLL_NEIGHi 1).setNum (mPage .coll)
    (Reg.COLL_NEIGHi + 4) 1
  let s := ((s.setNum (qPage .fport 0 0) Reg.FPORT_PORT_STS 1).setNum (mPage .coll) Reg.COLL_TREE 0).setNum
    (mPage .pod) Reg.POD_LEAD_ID (2 ^ 31 + 1)
  { s with fabric := { ports := s.fabric.ports, pod := { cut := [(0, 0), (1, 0)] } } }

/-- Plan 0 of quarter 0 names dimension X: SHARD, STAGE and SCRATCH in the Fold. -/
def planned (s : State) : State :=
  let b := foldBase 0
  let s := s.setNum64 (mPage .coll) Reg.COLL_PLANq_LO Reg.COLL_PLANq_HI (b + 0x100)
  s.writeBytes (b + 0x100) (leBytes 8 (b + 0x20000) ++ leBytes 8 (b + 0x30000) ++ leBytes 8 (b + 0x40000) ++ leBytes 4 0x100000 ++ [0x20])

/-- A collective of 4 lines from Fold offset 0x1000, in BF16, with tag 5. -/
def exchange (op : Nat) : Desc :=
  descriptor [op, 0, 5, (foldBase 0 + 0x1000) % 2 ^ 32, (foldBase 0 + 0x1000) / 2 ^ 32, 256, 0, 3, 0, 0, 0, 0, 0, 0, 0, 0x90000]

/-- CS0 of quarter 0 holds it. -/
def collects (s : State) (op : Nat) : State :=
  ((planned s).writeBytes (foldBase 0 + 0x1000) [0x80, 0x3F]).setQueue 0 153 { window := [{ desc := exchange op }] }

theorem test_coll_alone :
    let s := collects up 1
    let a := s.advance 5
    let o : CollOp := { q := 0, seq := 0, desc := exchange 1, epoch := 0, attempt := a.attempt, streams := [] }
    let u := after (.reduceScatter 5 0 []) s
    let v := after (.allGather 5 0 []) (collects up 2)
    a.startable 0 153 = some (0, { desc := exchange 1 }) ∧ a.collRegions o = true ∧ Clean a ∧ (a.plan 0 0).ldig = false ∧
    (∀ e, e < 3 → a.ringSize e = 1 ∧ a.ringPos e = 0) ∧ Apart (a.plan 0 0).shard 256 (foldBase 0 + 0x1000) 256 ∧
    memBytes u.mem (foldBase 0 + 0x20000) 2 = [0x80, 0x3F] ∧ (u.queue 0 153).window.map (·.status) = [.done] ∧
    (v.queue 0 153).window.map (·.status) = [.done] ∧ v.mem = ((collects up 2).advance 5).mem := by decide +kernel

theorem test_coll_pair :
    let s := collects pair 1
    let a := s.advance 5
    let o : CollOp := { q := 0, seq := 0, desc := exchange 1, epoch := 0, attempt := a.attempt, streams := [] }
    let u := after (.reduceScatter 5 0 []) s
    let v := after (.allGather 5 0 []) (collects pair 2)
    a.collRegions o = true ∧ planDims (a.plan 0 0) = [0] ∧ a.ringSize 0 = 2 ∧ 2 * 1 * 2 ≤ dw (exchange 1) 5 / 64 ∧
    ((u.collOp 0 5).bind (·.stream 0 0)).map (fun x => (x.phase, x.out.map (·.off))) = some (0, [64]) ∧
    ((v.collOp 0 5).bind (·.stream 0 1)).map (fun x => (x.phase, x.out.map (·.off))) = some (0, [128]) ∧
    (u.port 0 0).waiting.map (·.frame.dst) = [2 ^ 45 + foldBase 0] ∧ (u.port 0 1).waiting.map (·.frame.dst) = [2 ^ 45 + foldBase 0] := by
  decide +kernel

/-- A running operation with stream (0, 0): it has sent or still holds segment `out`, and received `got` bytes. -/
def running (op : Nat) (out : List CSeg) : State :=
  let s := collects pair op
  let o : CollOp := { q := 0, seq := 0, desc := exchange op, epoch := 0, attempt := 0
                      streams := [{ part := 0, dir := 0, phase := 0, ready := [0], out := out }, { part := 0, dir := 1, phase := 0 }] }
  { s.setQueue 0 153 { window := [{ desc := exchange op, status := .running }] } with coll := { ops := [o] } }

/-- A frame in order at Q0.X+ for this module. -/
def fromNext : RxHdr :=
  { q := 0, d := 0, vl := 0, cls := 0, lseq := 0, lack := 0, credit := none, src := 1, srcQ := 0, dst := 0, route := 0 }

theorem test_coll_ready :
    let c : CollHdr := { tag := 5, attempt := 0, epoch := 0, part := 0, direction := 1, phase := 0, step := 0, off := 0 }
    let a := (running 1 []).advance 5
    let u := after (.collReadyReceive 5 fromNext c) (running 1 [])
    let v := after (.collReadyReceive 5 fromNext { c with tag := 6 }) (running 1 [])
    Delivered a fromNext (.ready c) false ∧ ((a.collOp 0 5).bind (·.stream 0 1)).isSome = true ∧
    ((u.collOp 0 5).bind (·.stream 0 1)).map (·.ready) = some [0] ∧ v.coll.readies.map (fun e => e.2.tag) = [6] := by decide +kernel

theorem test_coll_send :
    let g : CSeg := { phase := 0, step := 0, off := 64, bytes := [1, 2] }
    let s := running 1 [g]
    let a := s.advance 5
    let u := after (.collSegmentSend 5 0 5 0 0) s
    (a.collOp 0 5).map (fun o => (a.planOf o).ldig) = some false ∧
    (a.collOp 0 5).map (fun o => a.phaseBytes o 0 0 0) = some 64 ∧ a.canTrack 0 153 = true ∧
    ((u.collOp 0 5).bind (·.stream 0 0)).map (·.out) = some [] ∧ (u.port 0 0).waiting.map (·.frame.dst) = [2 ^ 45 + foldBase 0] := by
  decide +kernel

theorem test_coll_receive :
    let c : CollHdr := { tag := 5, attempt := 0, epoch := 0, part := 0, direction := 0, phase := 0, step := 0, off := 0 }
    let a := (running 1 []).advance 5
    let u := after (.collSegmentReceive 5 fromNext c [0x80, 0x3F] []) (running 1 [])
    let v := after (.collSegmentReceive 5 fromNext c [0x80, 0x3F] []) (running 2 [])
    let w := after (.collSegmentReceive 5 fromNext { c with tag := 6 } [] []) (running 2 [])
    Delivered a fromNext (.coll c [0x80, 0x3F]) false ∧ (a.collOp 0 5).map (fun o => a.phaseBytes o 0 0 0) = some 64 ∧
    (a.collOp 0 5).map (fun o => (a.phaseRing o 0 0).2.1) = some 2 ∧ a.writeWaits (foldBase 0 + 0x40000) 2 = false ∧
    word16 u.mem (foldBase 0 + 0x40000) = 0x4000 ∧ memBytes v.mem (foldBase 0 + 0x30000) 2 = [0x80, 0x3F] ∧
    w.num (mPage .coll) Reg.COLL_STRAY = 1 := by decide +kernel

theorem test_coll_wait :
    let s := (running 1 []).setNum (mPage .coll) Reg.COLL_WAIT_WARN 2
    let a := s.advance 16
    let u := after (.collWait 16 0 5 0 1) s
    ((a.collOp 0 5).bind (·.stream 0 1)).map (fun x => (x.done_, x.warned)) = some (false, false) ∧ 0 + 2 < a.podCount ∧
    u.num (mPage .coll) Reg.COLL_WAIT_TAG = 5 ∧ u.num (mPage .coll) Reg.COLL_WAIT_INFO = 0 := by decide +kernel

/-- What it awaits is READY. -/
theorem test_coll_wait_ready :
    let g : CSeg := { phase := 0, step := 0, off := 64, bytes := [1, 2] }
    let s := ((running 1 []).setNum (mPage .coll) Reg.COLL_WAIT_WARN 2)
    let o : CollOp := { q := 0, seq := 0, desc := exchange 1, epoch := 0, attempt := 0
                        streams := [{ part := 0, dir := 0, phase := 0, out := [g] }] }
    let s : State := { s with coll := { ops := [o] } }
    let u := after (.collWait 16 0 5 0 0) s
    (((s.advance 16).collOp 0 5).bind (·.stream 0 0)).map (fun x => (x.ready, x.warnedReady, x.asked)) = some ([], false, 0) ∧
    u.num (mPage .coll) Reg.COLL_WAIT_TAG = 5 ∧ u.num (mPage .coll) Reg.COLL_WAIT_INFO = 0 ∧
    ((u.collOp 0 5).bind (·.stream 0 0)).map (·.warnedReady) = some true := by decide +kernel

/-- A TREE header of the present term. -/
def term0 : TreeHdr := { term := 0, origin := 1, attempt := 7 }

theorem test_check_down :
    let s := pair.setNum (mPage .coll) Reg.COLL_TREE 0x101
    let a := s.advance 5
    let u := after (.checkLinks 5 (some (fromNext, term0)) [] false) s
    Heard a fromNext term0 .check ∧ a.treeChildren = [0] ∧ u.coll.checking = some 7 ∧ (u.port 0 0).waiting.map (·.frame.vl) = [7] := by decide +kernel

theorem test_check_starts :
    let s := (pair.setNum (mPage .coll) Reg.COLL_TREE 0x107).setNum (mPage .pod) Reg.POD_ROLE 2
    let u := after (.checkLinks 5 none [] true) s
    (s.advance 5).isLead = true ∧ u.coll.checking = some 0 ∧ u.coll.checkLeft = 2 ∧ u.bit (mPage .coll) Reg.COLL_CHECK_STS 0 = true ∧
    (u.port 0 0).waiting.map (·.frame.body) = [.tree s.treeHdr .check] := by decide +kernel

theorem test_check_report :
    let d : LinkDigest := { tag := 5, quarter := 0, direction := 0, epoch := 0, value := 9 }
    let s : State := { pair with coll := { checking := some 7 } }
    let a := s.advance 5
    let u := after (.checkLinks 5 none [d] false) s
    a.isLead = false ∧ a.treeParent < 6 ∧ u.coll.checking = none ∧ u.bit (mPage .coll) Reg.COLL_CHECK_STS 1 = true ∧
    (u.port 0 0).waiting.map (·.frame.vl) = [7] := by decide +kernel

theorem test_mismatch :
    let lead : State := { pair.setNum (mPage .pod) Reg.POD_ROLE 2 with coll := { checkLeft := 1 } }
    let e : Mismatch := { tag := 5, quarter := 0, direction := 1, epoch := 0, receiver := 1 }
    let u := after (.mismatchUp 5 fromNext term0 1 [e]) lead
    let v := after (.mismatchUp 5 fromNext term0 1 [e]) pair
    (lead.advance 5).isLead = true ∧ Heard (lead.advance 5) fromNext term0 (.mismatchUp 1 [e]) ∧ Heard (pair.advance 5) fromNext term0 (.mismatchUp 1 [e]) ∧
    u.num (mPage .coll) Reg.COLL_MISMATCHES = 1 ∧ u.num (mPage .coll) Reg.COLL_LAST_MISMATCH = 1 + 2 ^ 18 ∧
    (v.port 0 0).waiting.map (·.frame.vl) = [7] := by decide +kernel

/-! ## The step -/

/-- In a step state. -/
def inStep (k : Nat) (s : State) : State := s.setNum (mPage .step) Reg.STEP_STEP_STS k

/-- The descriptor of a VERDICT over one entry at Fold offset 0x1000 of quarter 0. -/
def verdictIt : Desc :=
  descriptor [3, 0, 0x40000000, (foldBase 0 + 0x1000) % 2 ^ 32, (foldBase 0 + 0x1000) / 2 ^ 32, 4, 0, 0, 0, 0, 0, 0, 0, 0, 0, 0x90000]

theorem test_verdict_op :
    let s := inStep 1 ((up.writeBytes (foldBase 0 + 0x1000) [0x80, 0x3F, 0x80, 0x3C]).setQueue 0 153 { window := [{ desc := verdictIt }] })
    let a := s.advance 5
    let u := after (.verdictOp 5 0 []) s
    a.startable 0 153 = some (0, { desc := verdictIt }) ∧ Clean a ∧ a.isSpare = false ∧ touchesReserved (foldBase 0 + 0x1000) 4 = false ∧
    u.train.quarters = [(0, { nf := false, force := false, contrib := 1, sumsq := 0x3F820000 })] ∧ u.stepState = 2 := by decide +kernel

/-- Every quarter's record is there; module 1 is the child or the parent in direction X+. -/
def records (tree : Nat) : State :=
  let r : VRec := { nf := false, force := false, contrib := 1, sumsq := 0x3F800000 }
  { inStep 2 (pair.setNum (mPage .coll) Reg.COLL_TREE tree) with train := { quarters := [(0, r), (1, r), (2, r), (3, r)] } }

/-- A TREE header of module 1 for attempt 0. -/
def now0 : TreeHdr := { term := 0, origin := 1, attempt := 0 }

theorem test_verdict_up :
    let s := records 0x100
    let lead := (records 0x107).setNum (mPage .pod) Reg.POD_ROLE 2
    let u := after (.verdictUp 5 fromNext now0 false false 1 0x40800000) s
    let v := after (.verdictUp 5 fromNext now0 false false 1 0x40A00000) lead
    let w := after (.verdictUp 5 fromNext now0 false true 1 0) lead
    Heard (s.advance 5) fromNext now0 (.verdictUp false false 1 0x40800000) ∧ (s.advance 5).heard [1] = true ∧ (s.advance 5).isChild 1 = true ∧
    (s.advance 5).treeParent < 6 ∧ u.train.sentUp = true ∧ (u.port 0 0).waiting.length = 1 ∧ (lead.advance 5).isLead = true ∧
    v.num (mPage .step) Reg.STEP_VERDICT = 1 ∧ v.num (mPage .step) Reg.STEP_VNORM = 0x40400000 ∧ v.stepState = 3 ∧
    w.num (mPage .step) Reg.STEP_VERDICT = 0x12 ∧ w.stepState = 4 := by decide +kernel

theorem test_verdict_down :
    let s := records 0x100
    let u := after (.verdictDown 5 fromNext now0 2 7 8) s
    let v := after (.verdictDown 5 fromNext { now0 with attempt := 3 } 1 7 8) s
    u.stepState = 4 ∧ u.num (mPage .step) Reg.STEP_SKIPPED = 1 ∧ u.counter 3 4094 = 1 ∧ v.fabric.pod.selfCut = true ∧
    v.bit (mPage .step) Reg.STEP_STEP_STS 4 = true ∧ v.stepState = 2 := by decide +kernel

theorem test_lead_decides :
    decideVerdict 2 0 0x3F800000 { nf := false, force := false, contrib := 1, sumsq := 0x40800000 } = (1, 0x40000000, 0x3F000000) ∧
    decideVerdict 1 0x3F800000 0 { nf := true, force := false, contrib := 1, sumsq := 0x40800000 } = (0x82, 0x40000000, 0x3F800000) := by
  decide +kernel

theorem test_boundary :
    let s := (inStep 7 (up.setNum (mPage .step) Reg.STEP_STEP_CTL 3)).setNum (mPage .boot) Reg.BOOT_BOOT_STS 9
    let u := after (.stepBoundary 5) s
    (s.advance 5).boundaryReady = true ∧ (s.advance 5).train.ueLines = [] ∧ u.stepState = 1 ∧ u.attempt = 1 ∧ u.counter 2 4095 = 1 ∧
    u.num (mPage .step) Reg.STEP_CLIP = 0x3F800000 ∧ u.bit (mPage .step) Reg.STEP_STEP_CTL 1 = false ∧
    ((inStep 3 s).advance 5).boundaryReady = false := by decide +kernel

theorem test_prepared :
    let s := inStep 3 (pair.setNum (mPage .coll) Reg.COLL_TREE 0)
    let alone := inStep 3 (((up.setNum (mPage .step) Reg.STEP_DIGEST_EVERY 0).setNum (mPage .coll) Reg.COLL_TREE 7).setNum (mPage .pod) Reg.POD_ROLE 2)
    let u := after (.modulePrepared 5) s
    let v := after (.modulePrepared 5) alone
    (s.advance 5).partDone 0 153 = true ∧ (s.advance 5).treeChildren = [] ∧ u.stepState = 5 ∧ (u.port 0 0).waiting.length = 1 ∧
    (alone.advance 5).podModules = 1 ∧ (alone.advance 5).isLead = true ∧ v.stepState = 7 ∧ v.committed = 1 := by decide +kernel

theorem test_prepared_up :
    let s := inStep 5 (records 0x100)
    let own : PrepRec := { child := 0, count := 1, present := 1, nz := 0 }
    let t : State := { s with train := { prepared := some own } }
    let u := after (.preparedUp 5 fromNext now0 1 6 4) s
    let v := after (.preparedUp 5 fromNext now0 1 6 4) t
    Heard (t.advance 5) fromNext now0 (.preparedUp 1 6 4) ∧ (t.advance 5).heard [1] = true ∧ u.train.prepKids.map (·.present) = [6] ∧
    v.train.prepSent = true ∧ (v.port 0 0).waiting.map (fun f => f.frame.body) = [.tree { term := 0, origin := 0, attempt := 0 } (.preparedUp 2 7 4)] := by
  decide +kernel

/-- A gathered lane of 4 lines at Fold offset 0x8000, staged at Fold offset 0x30000. -/
def gathered : State :=
  let s := inStep 5 ((planned (pair.setNum (mPage .step) Reg.STEP_DIGEST_EVERY 0)).writeBytes (foldBase 0 + 0x30000 + 64) [9, 8])
  { s with train := { buckets := [{ q := 0, desc := descriptor [2, 0, 0x80000005, 0x8000, 0x200, 256], gather := true }] } }

theorem test_commit_down :
    let a := gathered.advance 5
    let u := after (.commitDown 5 fromNext now0 9 0 0) gathered
    let v := after (.commitDown 6 { fromNext with lseq := 1 } now0 9 0 0) u
    Heard a fromNext now0 (.commitDown 9 0 0) ∧ Clean a ∧ a.field (mPage .step) Reg.STEP_DIGEST_EVERY 0 16 = 0 ∧ a.stepState = 5 ∧ a.ownedAt [0] a.ringPos 4 = [(0, 1), (2, 3)] ∧
    a.writeWaits (foldBase 0 + 0x8040) 64 = false ∧ u.stepState = 7 ∧ u.committed = 1 ∧ u.counter 1 4093 = 1 ∧
    memBytes u.mem (foldBase 0 + 0x8040) 2 = [9, 8] ∧ v.committed = 1 := by decide +kernel

/-- In COMMITTING with the digest of one layer. -/
def digested (tree : Nat) : State :=
  { inStep 6 (records tree) with train := { stage := .digests, layers := [{ layer := 4, count := 1, holder := 0, digest := 77 }] } }

theorem test_digests :
    let s := digested 0x100
    let lead := (digested 0x107).setNum (mPage .pod) Reg.POD_ROLE 2
    let y : LayerEntry := { layer := 4, count := 2, holder := 1, digest := 77 }
    let m : MajorityEntry := { layer := 4, split := false, holder := 1, digest := 78 }
    let u := after (.digestUp 5 fromNext now0 [y]) s
    let v := after (.digestUp 5 fromNext now0 [y]) lead
    let w := after (.digestDown 5 fromNext now0 [m]) s
    (s.advance 5).heard [1] = true ∧ u.train.digestSent = true ∧
    (u.port 0 0).waiting.map (fun f => f.frame.body) =
      [.tree { term := 0, origin := 0, attempt := 0 } (.digestUp [{ layer := 4, count := 3, holder := 0, digest := 77 }])] ∧
    v.stepState = 7 ∧ w.stepState = 6 ∧ w.train.copies.map (·.digest) = [some 78] := by decide +kernel

theorem test_replica_mend :
    let c : LayerCopy := { index := 0, layer := 4, holder := some 1, digest := some (digest 0 []).toNat }
    let s : State := { digested 0x100 with train := { stage := .digests, copies := [c] } }
    let bad : State := { s with train := { stage := .digests, copies := [{ c with digest := some 5 }] } }
    let u := after (.replicaMendDone 5 0 [] []) s
    let v := after (.replicaMendDone 5 0 [] []) bad
    (s.advance 5).writeWaits 0 0 = false ∧ populated 0 0 = true ∧ u.train.copies = [] ∧ u.stepState = 7 ∧
    u.num (mPage .fault) Reg.FAULT_REPLICA_MENDS = 1 ∧ v.train.copies.map (·.copies) = [1] := by decide +kernel

theorem test_page_mend :
    let cw := 0x1000000005
    let s : State := { up with ecc := [(cw, poisonMark)], train := { mends := [{ page := 0, holder := some 1 }] } }
    let u := after (.pageMendDone 5 0 [(1, List.replicate 64 3)]) s
    16 * cw - 0x10000000000 = 80 ∧ (s.advance 5).writeWaits 0x10000000000 0x10000 = false ∧ u.ecc = [] ∧ u.train.mends = [] ∧
    memGet u.mem 0x10000000040 = 3 ∧ u.num (mPage .fault) Reg.FAULT_PAGE_MENDS = 1 := by decide +kernel

/-- Lease 3 is claimed over weight page 1, and two writes wait. -/
def leased : State :=
  let s := ((up.setNum (mPage .lease) (leaseReg Reg.LEASE_Ln_CTL 3) 1).setNum (mPage .lease) (leaseReg Reg.LEASE_Ln_BASE 3) 1).setNum
    (mPage .lease) (leaseReg Reg.LEASE_Ln_COUNT 3) 1
  { s with leases := { writes := [{ addr := 0x10000010000, bytes := [(1, false)] }, { addr := 0x10000020000, bytes := [(2, false)] }] } }

theorem test_leases :
    let a := leased.advance 5
    let u := after (.leaseGrant 5 3) leased
    let v := after (.leaseWriteAccept 5) leased
    a.writesUnder 3 = false ∧ (u.lease 3).granted = true ∧ (u.lease 3).mixed = false ∧
    a.leaseCovers 0x10000010000 1 = true ∧ a.leaseCovers 0x10000020000 1 = false ∧
    sharePage 0x10000010000 1 0x10000020000 1 = false ∧ Clean a ∧ v.leases.writes.map (·.addr) = [0x10000010000] ∧
    memGet v.mem 0x10000020000 = 2 := by decide +kernel

theorem test_lease_stale :
    let s : State := { up with leases := { writes := [{ addr := 0x10000010000, bytes := [(1, false)] }] } }
    let u := after (.leaseStale 0xFFFFFFFF) s
    weightPages 0x10000010000 1 = some (1, 2) ∧ 0 + s.num (mPage .step) Reg.STEP_LEASE_WARN ≤ (s.advance 0xFFFFFFFF).podCount ∧
    u.num (mPage .step) Reg.STEP_STALE_PAGE = 1 ∧ u.leases.writes.map (·.stale) = [true] := by decide +kernel

/-! ## Updates -/

/-- An update program of one weight: the record at Fold offset 0x1000, weights, gradient, moments 0x1000 apart. -/
def updateIt (prog : Nat) : Desc :=
  descriptor [1 + 16 * prog, 5, 0x20001000, 0x200, 0x20004000, 0x200, 0x20006000, 0x200, 0x20008000, 0x200, 0x2000A000, 0x200, 0, 0, 0, 0x90000]

/-- A parameter record: strides 64, β 0, an ε, λ 0, gradient scale 1, and one learning rate. -/
def record (rows cols eps : Nat) : List Byte :=
  leBytes 4 rows ++ leBytes 4 cols ++ leBytes 4 64 ++ leBytes 4 64 ++ leBytes 8 0 ++ leBytes 4 eps ++ leBytes 4 0 ++
    leBytes 4 0x3F800000 ++ leBytes 4 1 ++ leBytes 8 0x20020002000 ++ leBytes 16 0

/-- UE 1 of quarter 2 holds a program, in GO: weights 1, gradients 1 in two rows of two, learning rate 1. -/
def updates (w : WinEntry) : State :=
  let one : List Byte := [0x80, 0x3F, 0x80, 0x3F]
  let s := (up.writeBytes 0x20020002000 (leBytes 4 0x3F800000)).writeBytes 0x20020004000 (one ++ List.replicate 60 0 ++ one)
  let s := s.writeBytes 0x20020006000 (one ++ List.replicate 60 0 ++ one)
  ((inStep 3 s).setNum (mPage .opt) Reg.OPT_OPT_CTL 0).setQueue 2 161 { window := [w] }

/-- The entry of a program as its fetch leaves it. -/
def fetched (prog rows cols eps : Nat) (code : List Nat) : WinEntry :=
  { desc := updateIt prog, got := record rows cols eps ++ code.flatMap (leBytes 4) }

/-- It has started, and waits for its image. -/
def held : WinEntry := { fetched 3 1 1 0 [] with status := .running, next := 1, got := padTo 256 0 (record 1 1 0) ++ leBytes 4 0x3F800000 }

theorem test_update_waits :
    let a := (updates held).advance 0xFFFFFFFF
    let v := after (.exportLag 0xFFFFFFFF 2 1) (updates held)
    a.waitsImage 2 1 = some (0, held) ∧ held.waitPod + a.num (mPage .step) Reg.STEP_LEASE_WARN ≤ a.podCount ∧
    v.bit (mPage .exp) Reg.EXP_EXP_STS 1 = true ∧ (v.queue 2 161).window.map (·.waitUntil) = [1] := by decide +kernel

theorem test_update_resumes :
    let s := ((updates held).setBit (mPage .exp) Reg.EXP_EXP_STS 1 true).setNum (mPage .step) Reg.STEP_CLIP 0x3F000000
    let a := s.advance 5
    let u := after (.updateParityResume 5 2 1) s
    a.waitsImage 2 1 = some (0, held) ∧ a.exportActive = false ∧ Clean a ∧ a.train.ueLines = [] ∧
    word16 u.mem 0x20020004000 = 0x3F00 ∧ u.bit (mPage .exp) Reg.EXP_EXP_STS 1 = false ∧
    (u.queue 2 161).window.map (fun w => (w.status, w.waitUntil)) = [(.done, 5 + 3 * 97)] := by decide +kernel

/-- Where no lease is held and no write waits, a write of any range goes on at once. -/
theorem no_waits (s : State) (hw : s.leases.writes = []) (hs : s.stackUnits = []) (h : ∀ i, i < 240 → s.leaseHeld (i + 1) = false)
    (y m : Nat) : s.writeWaits y m = false := by
  simp only [State.writeWaits, State.keptShares, hw, hs, List.any_nil, Bool.or_false]
  unfold State.leaseCovers
  split
  · rfl
  · rw [List.any_eq_false]
    intro i hi
    rw [h i (List.mem_range.mp hi)]
    simp

theorem test_no_waits (y m : Nat) : ((updates held).advance 5).writeWaits y m = false :=
  no_waits _ (by decide +kernel) (by decide +kernel) (by decide +kernel) y m

theorem test_update_starts :
    let w := fetched 3 1 1 0 []
    let a := (updates w).advance 5
    let p := (a.programOf 2 (a.startsUpdate 2 w)).p
    (p.rows, p.cols, p.wstride) = (1, 1, 64) ∧ a.startable 2 161 = some (0, w) ∧ a.stepState = 3 ∧ df w.desc 0 4 4 = 3 ∧
    Clean a ∧ a.train.ueLines = [] ∧ a.train.takeUp = none ∧ (a.queue 2 161).pathEnd ≤ a.now ∧
    Apart (dq w.desc 4) (2 * p.cols) (dq w.desc 8) (layoutSize 1 p.cols) ∧ a.bit (mPage .opt) Reg.OPT_OPT_CTL 0 = false := by decide +kernel

theorem test_sgdm :
    let u := after (.updateSgdm 5 2 1 []) ((updates (fetched 3 1 1 0 [])).setNum (mPage .step) Reg.STEP_CLIP 0x3F000000)
    word16 u.mem 0x20020004000 = 0x3F00 ∧ u.train.present = 2 ^ 5 ∧
    (u.queue 2 161).window.map (fun w => (w.status, w.waitUntil)) = [(.done, 5 + 3 * 97)] := by decide +kernel

theorem test_adamw :
    let u := after (.updateAdamw 5 2 1 []) (updates (fetched 1 1 1 0x40000000 []))
    word16 u.mem 0x20020004000 = 0x3F2B ∧ (u.queue 2 161).window.map (·.status) = [.done] := by decide +kernel

theorem test_adamw_fact :
    let w := fetched 2 2 2 0x40000000 []
    let p := (((updates w).advance 5).programOf 2 (((updates w).advance 5).startsUpdate 2 w)).p
    let u := after (.updateAdamwFact 5 2 1 []) (updates w)
    let x (i : Nat) : Nat := word16 u.mem (0x20020004000 + i)
    2 * p.cols ≤ p.wstride ∧ Apart 0x20020004000 68 0x20020008000 (layoutSize 2 2) ∧
    Apart 0x20020004000 68 0x2002000A000 (layoutSize 1 2 + layoutSize 1 2) ∧
    [x 0, x 2, x 64, x 66].all (fun c => decide (c = 0x3F2A ∨ c = 0x3F2B)) = true ∧
    (u.queue 2 161).window.map (fun w => (w.status, w.waitUntil)) = [(.done, 5 + 3 * 147)] := by decide +kernel

/-- The code stores f0 - G in W, which is +0 - 1. -/
theorem test_custom :
    let w := fetched 15 1 1 0 [0x41, 0x4009 + 0x80, 0x400802]
    let u := after (.updateCustom 5 2 1 []) (updates w)
    ((updates w).advance 5).startable 2 161 = some (0, w) ∧ word16 u.mem 0x20020004000 = 0xBF80 ∧
    (u.queue 2 161).window.map (·.status) = [.done] := by decide +kernel

/-! ## Links -/

theorem test_remote_write :
    let h := { fromNext with dst := foldBase 0 + 0x100 }
    let a := pair.advance 5
    let l : List (Byte × Bool) := (7, false) :: List.replicate 15 (8, false)
    let u := after (.frameWrite 5 h 4 false l) pair
    let v := after (.frameWrite 5 { h with dst := 0x2FFFFFFFFF0 } 4 false l) pair
    Delivered a h (.write 4 false l) false ∧ Delivered a { h with dst := 0x2FFFFFFFFF0 } (.write 4 false l) false ∧
    a.leadOrigin h = none ∧ Clean a ∧ memReach (foldBase 0 + 0x100) 16 = true ∧ a.writeWaits (foldBase 0 + 0x100) 16 = false ∧
    memReach 0x2FFFFFFFFF0 16 = false ∧ memBytes u.mem (foldBase 0 + 0x100) 3 = [7, 8, 8] ∧
    (u.port 0 0).waiting.map (·.frame.body) = [.readResp 4 false []] ∧ (v.port 0 0).waiting.map (·.frame.body) = [.readResp 4 true []] := by decide +kernel

theorem test_remote_write_waits :
    let h := { fromNext with dst := 0x10000010000 }
    let s : State := { leased with fabric := pair.fabric, regs := mapSet regDefault leased.regs ((qPage .fport 0 0).reg Reg.FPORT_PORT_STS) 1 }
    let l : List (Byte × Bool) := List.replicate 16 (7, false)
    let u := after (.frameWrite 5 h 4 false l) s
    Delivered (s.advance 5) h (.write 4 false l) false ∧ memReach 0x10000010000 16 = true ∧ (s.advance 5).writeWaits 0x10000010000 16 = true ∧
    u.leases.writes.length = 3 := by decide +kernel

theorem test_remote_read :
    let s := pair.writeBytes (foldBase 0 + 0x100) [9]
    let h := { fromNext with dst := foldBase 0 + 0x100 }
    let u := after (.frameReadReq 5 h 4 1 (2 ^ 45 + 64) []) s
    Delivered (s.advance 5) h (.readReq 4 1 (2 ^ 45 + 64)) false ∧ memReach (foldBase 0 + 0x100) 1 = true ∧
    (u.port 0 0).waiting.map (fun f => (f.frame.dst, f.frame.body)) = [(2 ^ 45 + 64, .readResp 4 false [(9, false)])] := by decide +kernel

theorem test_remote_answer :
    let s : State := { pair with fabric := { pair.fabric with segs := [{ id := 3, q := 1, n := 138, seq := 9, index := 0, kind := .read,
                                                                         chip := some 1 }] } }
    let u := after (.frameReadResp 5 fromNext 3 true []) s
    let v := after (.frameSig 5 fromNext 17 2 3) pair
    Delivered (s.advance 5) fromNext (.readResp 3 true []) false ∧ u.fabric.segs.map (·.answer) = [some (0x20, [])] ∧ v.counter 2 17 = 3 := by decide +kernel

theorem test_site_request :
    let s := pair.setNum (mPage .pod) Reg.POD_ROLE 0
    let a := s.advance 5
    let addr := foldBase 0 + 0x100
    let u := after (.migrationQpRequest 5 1 2 7 0 addr (.write [(7, false)]) []) s
    let v := after (.migrationQpRequest 5 1 2 7 0 addr (.read 1) []) s
    let w := after (.migrationQpRequest 5 1 2 7 0 addr (.sig 17 3) []) s
    let x := after (.migrationQpRequest 5 1 2 7 0 addr (.fetchAdd 9) []) s
    let y := after (.migrationQpRequest 5 1 2 7 0 0x2FFFFFFFFF0 (.read 1) []) s
    a.resolve 0x2FFFFFFFFF0 = .here 0x2FFFFFFFFF0 ∧ memReach 0x2FFFFFFFFF0 1 = false ∧ .siteAnswer 1 2 7 0x20 [] ∈ y.out ∧ memReach addr 8 = true ∧ addr % 8 = 0 ∧
    memGet x.mem addr = 9 ∧ .siteAnswer 1 2 7 0 (List.replicate 8 (0, false)) ∈ x.out ∧ a.field (mPage .pod) Reg.POD_ROLE 2 2 = 0 ∧ 2 ≠ a.ownSite ∧ a.resolve addr = .here addr ∧ memGet u.mem addr = 7 ∧
    .siteAnswer 1 2 7 0 [] ∈ u.out ∧ .siteAnswer 1 2 7 0 [(0, false)] ∈ v.out ∧ w.counter 3 17 = 1 := by decide +kernel

/-- A frame of a lane for module 1. -/
def frameFor (vl : Nat) : Frame :=
  { vl := vl, cls := 0, src := 0, srcQ := 0, dst := 2 ^ 45, route := 0, body := .sig 17 0 1 }

/-- Port Q0.X+ with frames and full credits. -/
def port00 (waiting : List Frame) (replay : List Replay) (owed : List (Nat × Nat)) : State :=
  let full := (List.range 24).map (fun k => (k, fullCredits (k / 3) (k % 3)))
  pair.setPort 0 0 { waiting := waiting.map (fun f => { frame := f }), replay := replay, owed := owed, credits := full, txSeq := 5, rxSeq := 9 }

theorem test_frame_send :
    let s := port00 [frameFor 2, frameFor 6, frameFor 7] [] []
    let t := port00 [frameFor 2] [] []
    let a := s.advance 5
    let u := after (.frameSend 5 0 0) s
    let v := after (.frameSend 5 0 0) t
    (a.port 0 0).head a.now 7 = some (2, { frame := frameFor 7 }) ∧ a.portUp 0 0 = true ∧ a.bit (qPage .fport 0 0) Reg.HDR_PAGE_CTL 1 = false ∧
    (t.advance 5).fabric.pod.selfCut = false ∧ ((t.advance 5).port 0 0).affords (frameFor 2) = true ∧ (frameFor 2).size ≤ 4160 ∧
    u.out = [.frame 0 0 5 8 none (frameFor 7)] ∧ (u.port 0 0).txSeq = 6 ∧ (u.port 0 0).replay.map (·.lseq) = [5] ∧
    mapGet (fun _ => 0) (u.port 0 0).credits 21 = 255 ∧ v.out = [.frame 0 0 5 8 none (frameFor 2)] := by decide +kernel

/-- The frame with LSEQ 4 is not acknowledged. -/
def unacked4 (n : Nat) : State := port00 [] [{ lseq := 4, frame := frameFor 2, sentAt := 0, resends := n }] []

theorem test_frame_ctrl :
    let h := { fromNext with lack := 4, credit := some (2, 0, 1) }
    let u := after (.frameCtrl 5 h none) ((unacked4 0).setPort 0 0 { (unacked4 0).port 0 0 with credits := [(6, 700)] })
    let v := after (.frameCtrl 5 { fromNext with lack := 3 } (some 4)) (unacked4 0)
    ((unacked4 0).advance 5).isLead = false ∧ (u.port 0 0).replay = [] ∧ (u.port 0 0).credits = [(6, 701)] ∧
    2 ^ 31 ≤ (3 + 2 ^ 32 - (4 + (frameFor 2).body.frames - 1)) % 2 ^ 32 ∧ (v.port 0 0).replay.map (·.resends) = [1] ∧
    v.out = [.frame 0 0 4 8 none (frameFor 2)] ∧ v.num (qPage .fport 0 0) Reg.FPORT_RETRIES = 1 := by decide +kernel

theorem test_link_timers :
    let u := after (.replayTimeout 28800 0 0) (unacked4 3)
    let v := after (.replayTimeout 28800 0 0) (unacked4 15)
    let w := after (.creditReturnTimer 5 0 0) (port00 [] [] [(7, 3)])
    let x := after (.ctrlKeepaliveSend 5 0 0) (port00 [] [] [])
    (u.port 0 0).replay.map (·.resends) = [4] ∧ v.portUp 0 0 = false ∧ (w.port 0 0).owed = [] ∧ w.out.length = 1 ∧
    (x.port 0 0).lastCtrl = 5 ∧ (after (.linkIdleTimeout 360000 0 0) pair).portUp 0 0 = false ∧
    (after (.pcsAlignLost 5 0 0) pair).portUp 0 0 = false := by decide +kernel

theorem test_time_ask :
    let t := 0x100000
    let u := after (.podTimeSyncTimer t) pair
    let v := after (.linkDelayTimer t) pair
    (pair.advance t).isLead = false ∧ (pair.advance t).treeParent < 6 ∧ 65536 ≤ (pair.advance t).podCount ∧
    (pair.advance t).bit (mPage .pod) Reg.POD_PT_STS 1 = false ∧ u.fabric.pod.syncSeq = 1 ∧ (u.port 0 0).waiting.length = 1 ∧
    (v.port 0 0).waiting.length = 1 := by decide +kernel

theorem test_time_answer :
    let u := after (.syncReq 5 fromNext 7 3 8) pair
    let v := after (.linkReq 5 fromNext 7 3 0) pair
    Delivered (pair.advance 5) fromNext (.time { kind := 2, ta := 7, tb := 0, tc := 0, seq := 3, state := 0 }) true ∧
    (u.port 0 0).waiting.map (·.frame.body) = [.time { kind := 4, ta := 7, tb := (pair.advance 5).pod.count64, tc := 0, seq := 3, state := 0 }] ∧
    (v.port 0 0).waiting.map (·.frame.body) = [.time { kind := 3, ta := 7, tb := (pair.advance 5).pod.count64, tc := 0, seq := 3, state := 0 }] := by
  decide +kernel

theorem test_time_steer :
    let n := (pair.advance 5).pod.count64
    let joining : State := { pair with pod := { joining := true } }
    let u := after (.syncResp 5 fromNext n (n + 1000) (n + 1000) 0 0) pair
    let v := after (.joinResp 5 fromNext n (n + 1000) (n + 1000) 0 0) joining
    let w := after (.linkResp 5 fromNext (n - 20) 100 104 0 0) pair
    (pair.advance 5).fabric.pod.syncSeq = 0 ∧ u.reg (mPage .pod) Reg.POD_PT_OFFSET = 1000 ∧
    u.bit (mPage .pod) Reg.POD_PT_STS 0 = false ∧ v.pod.count64 = n + 1000 ∧ v.pod.joining = false ∧
    w.num (qPage .fport 0 0) Reg.FPORT_LINK_DELAY = 8 := by decide +kernel

/-! ## The lead -/

/-- This module leads the pair; module 1 is its child and its standby. -/
def leads : State :=
  let s := ((pair.setNum (mPage .pod) Reg.POD_ROLE 2).setNum (mPage .pod) Reg.POD_LEAD_ID (2 ^ 31)).setNum (mPage .coll) Reg.COLL_TREE 0x107
  s.setNum (mPage .pod) Reg.POD_STANDBY_ID (2 ^ 31 + 1)

/-- Bodies that wait at port Q0.X+. -/
def bodies (s : State) : List Body := (s.port 0 0).waiting.map (·.frame.body)

theorem test_heartbeat_send :
    let a := leads.advance 400000000
    let u := after (.leadHeartbeatTimer 400000000) leads
    a.isLead = true ∧ a.boot.unpick = none ∧ 0 + a.num (mPage .pod) Reg.POD_LEAD_TIMEOUT / 4 ≤ a.podCount ∧
    u.fabric.pod.lastBeat = a.podCount ∧ bodies u = [.tree a.treeHdr (.heartbeat a.podCount)] := by decide +kernel

theorem test_heartbeat :
    let s := leads.setNum (mPage .pod) Reg.POD_LEAD_TERM 3
    let u := after (.heartbeat 5 fromNext { now0 with term := 3 } 9) s
    let v := after (.heartbeat 5 fromNext { now0 with term := 2 } 9) s
    let w := after (.heartbeat 5 fromNext { now0 with term := 4 } 9) s
    Delivered (s.advance 5) fromNext (.tree { now0 with term := 3 } (.heartbeat 9)) false ∧ u.leadId = some 1 ∧ u.fabric.pod.heartbeat.isSome = true ∧ v.fabric.pod.heartbeat = none ∧
    v.leadId = some 0 ∧ w.num (mPage .pod) Reg.POD_LEAD_TERM = 4 ∧ w.isLead = false := by decide +kernel

/-- A pod of three along X, led by module 1; this module, chip 0, is the standby. -/
def standby : State :=
  let s := pair.setNum (mPage .pod) Reg.POD_ROLE 1
  s.setPod { s.fabric.pod with cut := [(0, 0), (1, 0), (2, 0)] }

theorem test_probe :
    let t := 0xFFFFFFFF
    let a := standby.advance t
    let u := after (.standbyLeadTimeout t) standby
    let v := after (.leadProbe t fromNext 7) standby
    let p : Probe := { since := 0, asked := [2], silent := [] }
    let s := standby.setPod { standby.fabric.pod with probe := some p }
    let w := after (.probeAnswer t { fromNext with src := 2 } 7 0 true) s
    Delivered a fromNext (.disc (.leadProbe 7)) false ∧ a.leadId = some 1 ∧ a.isStandby = true ∧ a.leadSilent = true ∧ a.physNeighbours 1 = [2] ∧
    u.fabric.pod.probe.map (fun x => (x.asked, x.silent)) = some ([2], []) ∧
    Delivered (s.advance t) { fromNext with src := 2 } (.disc (.probeAnswer 7 0 true)) false ∧ bodies v = [.disc (.probeAnswer 0 0 true)] ∧
    w.fabric.pod.probe.map (·.silent) = some [2] := by decide +kernel

theorem test_probe_window :
    let s (n : List Nat) : State := standby.setPod { standby.fabric.pod with probe := some { since := 0, asked := [2, 0], silent := n } }
    let t := 0xFFFFFFFF
    let a := (s [2, 0]).advance t
    let u := after (.probeWindowExpire t) (s [2, 0])
    let v := after (.probeWindowExpire t) (s [2])
    0 + a.num (mPage .pod) Reg.POD_LEAD_TIMEOUT ≤ a.podCount ∧ Still a ∧ a.isStandby = true ∧ u.isLead = true ∧
    u.num (mPage .pod) Reg.POD_LEAD_TERM = 1 ∧ v.isLead = false ∧ v.isStandby = true ∧ v.fabric.pod.probe = none := by decide +kernel

theorem test_report_up :
    let u := after (.reportUp 5 fromNext now0 4 1 2) (leads.setPod { leads.fabric.pod with cut := [(0, 0), (1, 0)] })
    let s := (leads.setNum (mPage .pod) Reg.POD_STANDBY_ID 0).setPod { leads.fabric.pod with cut := [(0, 1), (1, 0)] }
    let v := after (.reportUp 5 fromNext now0 5 1 0) s
    let w := after (.reportUp 5 fromNext now0 4 1 2) pair
    Heard (leads.advance 5) fromNext now0 (.reportUp 4 1 2) ∧ Heard (pair.advance 5) fromNext now0 (.reportUp 4 1 2) ∧ pair.isLead = false ∧ pair.treeParent < 6 ∧
    bodies u = [.tree leads.treeHdr (.leadAnswer 4 false 1 0)] ∧ s.standbyId ≠ some 1 ∧
    v.fabric.pod.adopting = some (1, 0) ∧ bodies v = [.tree s.treeHdr (.leadAnswer 5 false 1 0)] ∧
    bodies w = [.tree now0 (.reportUp 4 1 2)] := by decide +kernel

theorem test_lead_answer :
    let x : Unpick := { regions := [] }
    let s : State := { pair with train := { asked := [7, 8], mends := [{ page := 7 }] }, boot := { unpick := some x } }
    let u := after (.leadAnswer 5 fromNext now0 4 false 0 1) s
    let v := after (.leadAnswer 5 fromNext now0 5 false 0 1) s
    let w := after (.leadAnswer 5 fromNext now0 5 true 0 0) s
    Heard (s.advance 5) fromNext now0 (.leadAnswer 4 false 0 1) ∧ u.train.mends = [{ page := 7, holder := some 1 }] ∧ u.train.asked = [8] ∧
    v.num (mPage .boot) Reg.BOOT_ADOPTER = 2 ^ 31 + 1 ∧ w.boot.unpick = none ∧ w.phase = 9 := by decide +kernel

theorem test_buckets :
    let e (k : Nat) : BucketEntry := { tag := 0x80000005, quarter := 2, state := k }
    let s : State := { pair with train := { buckets := [{ q := 2, desc := descriptor [1, 0, 0x80000005], gather := true }] } }
    let mid : State := { s.setNum (mPage .coll) Reg.COLL_TREE 0x100 with coll := {} }
    let top : State := { leads with train := s.train }
    let u := after (.bucketQuery 5 fromNext now0) s
    let v := after (.bucketStateUp 5 fromNext now0 [e 1]) mid
    let w := after (.bucketStateUp 5 fromNext now0 [e 1]) top
    s.treeChildren = [] ∧ s.treeParent = 0 ∧ bodies u = [.tree s.treeHdr (.bucketStateUp [e 2])] ∧
    Heard (mid.advance 5) fromNext now0 (.bucketStateUp [e 1]) ∧ mid.heard [1] = true ∧ mid.isChild 1 = true ∧ top.heard [1] = true ∧ top.isChild 1 = true ∧
    bodies v = [.tree mid.treeHdr (.bucketStateUp [e 1])] ∧ bodies w = [.tree top.treeHdr (.regen 0 0)] := by decide +kernel

theorem test_regen_site :
    let u := after (.regen 5 fromNext now0 9 1) leads
    let v := after (.siteDown 5 fromNext now0 3 2 false 0 0) leads
    Heard (leads.advance 5) fromNext now0 (.regen 9 1) ∧ u.num (mPage .fault) Reg.FAULT_RECOVERIES = 1 ∧
    u.frecs.map (fun r => (r.kind, r.subject)) = [(11, 9)] ∧ bodies u = [.tree now0 (.regen 9 1)] ∧
    leads.bit (mPage .mig) Reg.MIG_MIG_STS 0 = false ∧ v.siteState 3 = 2 ∧ v.siteState 2 = leads.siteState 2 := by decide +kernel

/-! ## Discovery -/

/-- Discovery is at a stage, with keys and tables. -/
def at_ (s : State) (x : Stage) (keys : List (Nat × Nat)) (tables : List NeighTable) : State :=
  s.setPod { s.fabric.pod with stage := x, keys := keys, tables := tables }

theorem test_trained :
    let page := qPage .fport 1 1
    let s := at_ (pair.setNum page Reg.FPORT_PORT_CTL 9) .election [] []
    let u := after (.linkTrained 5 1 1 15) s
    let v := after (.linkTrained 5 1 1 3) s
    (s.advance 5).portUp 1 1 = false ∧ (s.advance 5).bit page Reg.FPORT_PORT_CTL 0 = true ∧ s.field page Reg.FPORT_PORT_CTL 1 2 < 2 ∧
    (s.advance 5).physSize 0 = 2 ∧
    u.portUp 1 1 = true ∧ u.bit page Reg.FPORT_PORT_STS 1 = false ∧ mapGet (fun _ => 0) (u.port 1 1).credits 6 = fullCredits 2 0 ∧
    (u.port 1 1).waiting.map (·.frame.body) = [.disc (.hello 0 1 1 false false 0)] ∧ v.bit page Reg.FPORT_PORT_STS 1 = true ∧
    v.field page Reg.FPORT_PORT_STS 5 4 = 3 := by decide +kernel

theorem test_hello :
    let s := (pair.setNum (mPage .boot) Reg.BOOT_BOOT_STS 7).setNum (mPage .pod) Reg.POD_ROLE 12
    let u := after (.hello 5 fromNext 1 0 1 false true 6) s
    let v := after (.hello 5 fromNext 1 0 2 false false 6) (pair.setNum (mPage .pod) Reg.POD_ROLE 0)
    Delivered (s.advance 5) fromNext (.disc (.hello 1 0 1 false true 6)) true ∧ s.fabric.pod.stored = none ∧ u.fabric.pod.tacking = true ∧
    v.num (qPage .fport 0 0) Reg.FPORT_NEIGH_ID = 1 + 2 * 2 ^ 20 + 2 ^ 31 ∧ v.bit (qPage .fport 0 0) Reg.FPORT_PORT_STS 2 = true ∧
    v.num (mPage .pod) Reg.POD_LEAD_TERM = 6 ∧ bodies v = [.disc (.hello 0 0 0 false true 6)] := by decide +kernel

theorem test_candidate :
    let s := at_ (pair.setNum (qPage .fport 1 2) Reg.FPORT_PORT_STS 1) .election [(5, 3), (5, 4)] []
    let u := after (.candidate 5 fromNext 5 2) s
    let v := after (.candidate 5 fromNext 4 2) s
    Delivered (s.advance 5) fromNext (.disc (.candidate 5 2)) true ∧ u.fabric.pod.keys = [(5, 3), (5, 4), (5, 2)] ∧
    (u.port 1 2).waiting.map (·.frame.body) = [.disc (.candidate 5 2)] ∧ bodies u = [] ∧ (v.port 1 2).waiting = [] ∧
    (after (.candidate 5 fromNext 5 2) pair).fabric.pod.early = [(5, 2)] := by decide +kernel

theorem test_election :
    let keys := [(5, 0), (4, 1)]
    let s := at_ pair .election keys []
    let t := 0x200000000
    let a := s.advance t
    let u := after (.electionClose t) s
    let w := after (.electionClose t) (at_ pair .election [] [])
    0 + a.num (mPage .pod) Reg.POD_ELECT_QUIET ≤ a.podCount ∧ bestKey keys = some (5, 0) ∧
    (∀ k ∈ keys, k ≠ (5, 0) → k.1 < (5, 0).1 ∨ (k.1 = (5, 0).1 ∧ (5, 0).2 < k.2)) ∧ a.stageOver = true ∧ u.fabric.pod.stage = .tables ∧
    w.fabric.pod.stage = .idle := by decide +kernel

/-- A neighbour table. -/
def table (id : Nat) (spare : Bool) : NeighTable := { sender := id, spare := spare, ids := [], sig := 9 }

/-- The table of chip 0, whose port Q0.X+ has chip 1 behind it. -/
def firstTable : NeighTable := { table 0 false with ids := [2 ^ 31 + 2 ^ 20 + 1] }

theorem test_table :
    let s := at_ leads .tables [] [table 0 false, table 1 true]
    let u := after (.neighTable 5 fromNext 1 false [] 9) s
    Delivered (s.advance 5) fromNext (.disc (.neighTable 1 false [] 9)) false ∧ s.isLead = true ∧ u.fabric.pod.tables = [table 0 false, table 1 false] := by decide +kernel

/-- At the deadline the tables fit: module 1 is a spare. -/
def fits : State := at_ leads .tables [] [firstTable, table 1 true]

theorem test_deadline_meets :
    let a := fits.advance 5
    a.isLead = true ∧ a.tablesFit a.fabric.pod.tables = true ∧ Still a ∧ a.fabric.pod.setArmed = false ∧
    a.bit (mPage .pod) Reg.POD_POD_CTL 9 = false ∧ (a.fabric.pod.tables.map (·.sender)).Nodup := by decide +kernel

theorem test_deadline :
    let u := after (.neighTableDeadline 5) fits
    u.cutOf 0 = 0 ∧ u.cutOf 1 = 1 ∧ u.cutOf 2 = 3 ∧ u.fabric.pod.stage = .idle := by decide +kernel

theorem test_deadline_tells :
    let u := after (.neighTableDeadline 5) fits
    (bodies u).head? = some (.disc (.config (u.configFor 1 true))) := by decide +kernel

theorem test_deadline_bad :
    let bad := at_ leads .tables [] [table 0 false, table 1 false]
    let v := after (.neighTableDeadline 5) bad
    (bad.advance 5).tablesFit bad.fabric.pod.tables = false ∧ v.fabric.pod.stage = .idle ∧ bodies v = [] ∧ v.cutOf 1 = 0 := by
  decide +kernel

theorem test_config :
    let c : ConfigRec := { role := 1, shape := 1, pos := 2, neigh := [7, 8], tree := 0x102, attempt := 9, committed := 8, skipped := 1
                           time := 0, aliasClear := false, countsValid := true }
    let u := after (.config 5 fromNext c) pair
    let v := after (.config 5 fromNext { c with countsValid := false }) pair
    Delivered (pair.advance 5) fromNext (.disc (.config c)) false ∧ (pair.advance 5).obeys 1 = true ∧ Still (pair.advance 5) ∧ u.num (mPage .pod) Reg.POD_ROLE = 1 ∧ u.leadId = some 1 ∧
    u.standbyId = some 0 ∧ u.num (mPage .coll) Reg.COLL_SHAPE = 1 ∧ u.num (mPage .coll) Reg.COLL_TREE = 0x102 ∧
    u.num (mPage .coll) (Reg.COLL_NEIGHi + 4) = 8 ∧ u.attempt = 9 ∧ u.committed = 8 ∧ v.attempt = 0 := by decide +kernel

/-- The lead, with position 1 in a state of the cut table. -/
def cutAt (k : Nat) : State := leads.setPod { leads.fabric.pod with cut := [(0, 0), (1, k)] }

theorem test_tack_passed :
    Delivered (pair.advance 5) fromNext (.disc (.tack 1 9)) false ∧ pair.leadId = some 1 ∧ pair.isLead = false ∧
    bodies (after (.tack 5 fromNext 1 9) pair) = [.disc (.tack 1 9)] := by decide +kernel

theorem test_tack_meets :
    let a := (cutAt 2).advance 5
    Delivered a fromNext (.disc (.tack 1 9)) false ∧ a.isLead = true ∧ Still a ∧ a.fabric.pod.following = false ∧ (∀ k, k < 3 → coord 1 k < a.physSize k) ∧ a.cutOf 1 = 2 ∧ a.selfId = 0 := by
  decide +kernel

theorem test_tack_accepted : (after (.tack 5 fromNext 1 9) (cutAt 2)).cutOf 1 = 1 := by decide +kernel

theorem test_tack_told : .disc (.tackReply false) ∈ bodies (after (.tack 5 fromNext 1 9) (cutAt 2)) := by decide +kernel

theorem test_tack_refused : bodies (after (.tack 5 fromNext 1 9) (cutAt 0)) = [.disc (.tackReply true)] := by decide +kernel

theorem test_tack_reply :
    let s := pair.setPod { pair.fabric.pod with tacking := true }
    let u := after (.tackReply 5 fromNext true) s
    Delivered (s.advance 5) fromNext (.disc (.tackReply true)) false ∧ u.fabric.pod.selfCut = true ∧ u.fabric.pod.tacking = false := by decide +kernel

theorem test_confirm :
    let stored (lead : Nat) : StoredPod := { sig := 9, pod := [(Reg.POD_LEAD_ID, 2 ^ 31 + lead)], coll := [], cut := [(0, 0), (1, 0), (2, 1)] }
    let s (lead : Nat) : State := pair.setPod { pair.fabric.pod with stored := some (stored lead), stage := .confirm, confirms := [(0, true), (2, true)] }
    let u := after (.topoConfirm 5 fromNext 9 true) (s 0)
    let v := after (.topoConfirm 5 fromNext 9 true) (s 1)
    let w := after (.topoConfirm 5 fromNext 9 false) (s 1)
    Delivered ((s 0).advance 5) fromNext (.disc (.topoConfirm 9 true)) false ∧ (s 0).selfId = 0 ∧ (s 0).podId 2 = 2 ∧ u.fabric.pod.stage = .idle ∧ u.leadId = some 0 ∧
    u.cutOf 2 = 1 ∧ u.bit (mPage .boot) Reg.BOOT_SKIP_MASK 3 = true ∧ v.fabric.pod.stage = .idle ∧ w.fabric.pod.stage = .election := by
  decide +kernel

/-! ## Mends -/

/-- A record of a type. -/

theorem test_mark :
    let page := qPage .fport 0 0
    let s := pair.setNum page Reg.FPORT_NEIGH_ID (2 ^ 31 + 1)
    let g : Seg := { id := 3, q := 1, n := 138, seq := 9, index := 0, kind := .read, chip := some 1 }
    let s : State := { s with fabric := { s.fabric with segs := [g] } }
    let u := after (.markCut 5 fromNext 1 [mendRec 2 1 0 2]) s
    let v := after (.markCut 5 fromNext 2 [mendRec 2 1 0 2]) s
    Delivered (s.advance 5) fromNext (.mend 1 [mendRec 2 1 0 2]) false ∧ 1 = s.num (mPage .pod) Reg.POD_MEND_EPOCH + 1 ∧ u.cutOf 1 = 2 ∧ u.cutOf 0 = 0 ∧
    u.fabric.segs.map (·.answer.isSome) = [true] ∧ u.bit page Reg.FPORT_PORT_STS 4 = true ∧ v.cutOf 1 = 0 := by decide +kernel

theorem test_alias :
    let u := after (.aliasChip 5 fromNext 1 [mendRec 3 1 2 255]) pair
    let v := after (.aliasChip 6 { fromNext with lseq := 1 } 1 [{ mendRec 3 1 2 255 with flags := 1 }]) u
    u.num (mPage .pod) (Reg.POD_ALIASn_FROM + 8 * 255) = 2 ^ 31 + 1 ∧ u.num (mPage .pod) (Reg.POD_ALIASn_TO + 8 * 255) = 2 ∧
    u.num (mPage .pod) Reg.POD_ALIASn_FROM = 0 ∧ v.num (mPage .pod) (Reg.POD_ALIASn_FROM + 8 * 255) = 0 := by decide +kernel

theorem test_assign :
    let s := (((pair.setNum (mPage .pod) Reg.POD_ROLE 4).setNum (mPage .fault) Reg.FAULT_LTAB_COUNT 1).setNum64 (mPage .fault)
      Reg.FAULT_LTAB_LO Reg.FAULT_LTAB_HI (foldBase 0 + 0x100)).writeBytes (foldBase 0 + 0x100) (leBytes 8 0x10000050000 ++ [4, 0, 0, 0, 9])
    let u := after (.assignSpare 5 fromNext 1 [mendRec 4 1 0 0]) s
    (s.advance 5).isLead = false ∧ (s.advance 5).selfId = 0 ∧ u.field (mPage .pod) Reg.POD_ROLE 2 2 = 0 ∧ u.train.asked = [5] ∧
    u.train.takeUp.map (fun x => (x.lost, x.layers.map (·.layer))) = some (1, [9]) := by decide +kernel

theorem test_epoch_end :
    let u := after (.epochEnd 5 fromNext 1 [mendRec 7 0 0 1]) pair
    Still (pair.advance 5) ∧ u.num (mPage .pod) Reg.POD_MEND_EPOCH = 1 ∧ u.fabric.pod.stored.map (·.cut) = some [(0, 0), (1, 0)] := by
  decide +kernel

/-- Records that follow a CONFIG fill a table of their own, which EPOCH_END puts into effect. -/
theorem test_following :
    let s := pair.setPod { pair.fabric.pod with following := true, incoming := [(0, 0)] }
    let u := after (.markCut 5 fromNext 9 [mendRec 2 1 0 1]) s
    let v := after (.epochEnd 6 { fromNext with lseq := 1 } 9 [mendRec 7 0 0 1]) u
    Delivered (s.advance 5) fromNext (.mend 9 [mendRec 2 1 0 1]) false ∧ s.leadId = some 1 ∧ u.fabric.pod.cut = [(0, 0), (1, 0)] ∧
    u.fabric.pod.incoming = [(0, 0), (1, 1)] ∧ v.fabric.pod.cut = [(0, 0), (1, 1)] ∧ v.fabric.pod.following = false ∧
    v.num (mPage .pod) Reg.POD_MEND_EPOCH = 9 := by decide +kernel

theorem test_cut :
    let u := after (.cutSelf 5 fromNext 1 [mendRec 1 0 0 0]) pair
    let x : Unpick := { regions := [], done_ := true }
    let s : State := { pair with boot := { unpick := some x }, power := { state := 3 } }
    let v := after (.cutSelf 5 fromNext 1 [mendRec 1 0 0 0]) s
    u.field (mPage .pod) Reg.POD_ROLE 2 2 = 2 ∧ u.fabric.pod.selfCut = true ∧ s.boot.warmAfter = false ∧ v.boot.unpick = none ∧
    v.power.state = 4 := by decide +kernel

/-- The lead of a pod of two modules and a spare, chip 2. -/
def mends (said : List (Nat × Nat)) : State := leads.setPod { leads.fabric.pod with cut := [(0, 0), (1, 0), (2, 1)], unreachable := said }

theorem test_mend_meets :
    let a := (mends [(1, 0)]).advance 5
    Delivered a { fromNext with src := 2 } (.mend 0 [mendRec 5 1 0 0]) false ∧ a.fabric.pod.following = false ∧ Still a ∧ a.leadId = some a.selfId ∧ 1 ≠ a.selfId ∧ a.cutOf 1 < 2 ∧ a.fabric.pod.adopting = none ∧
    a.nearestSpare 1 = some 2 ∧ a.aliasSlot 1 = some 0 ∧ a.bit (mPage .pod) Reg.POD_ALIASn_FROM 31 = false := by decide +kernel

theorem test_lost :
    let u := after (.lostSelf 5 fromNext 0 [mendRec 6 1 0 0]) (mends [])
    u.cutOf 1 = 2 ∧ u.cutOf 2 = 0 ∧ u.num (mPage .fault) Reg.FAULT_LAST_LOST = 2 ^ 31 + 1 ∧
    u.num (mPage .pod) Reg.POD_ALIASn_FROM = 2 ^ 31 + 1 ∧ u.num (mPage .pod) Reg.POD_ALIASn_TO = 2 := by decide +kernel

theorem test_unreachable :
    let u := after (.unreachable 5 { fromNext with src := 2 } 0 [mendRec 5 1 0 0]) (mends [(1, 0)])
    let v := after (.unreachable 5 { fromNext with src := 2 } 0 [mendRec 5 1 0 0]) (mends [])
    u.cutOf 1 = 2 ∧ u.num (mPage .pod) Reg.POD_MEND_EPOCH = 1 ∧ v.cutOf 1 = 0 ∧ v.fabric.pod.unreachable = [(1, 2)] := by decide +kernel

/-- An unpick of 4,160 bytes of D-tier memory. -/
def unpicks (x : Unpick) : State :=
  { pair.setNum (mPage .boot) Reg.BOOT_ADOPTER (2 ^ 31 + 1) with boot := { unpick := some { x with regions := [(0x10000000000, 4160)], asked := true } } }

theorem test_unpick_drain :
    let s : State := { unpicks { regions := [] } with boot := { unpick := some { regions := [], asked := true } } }
    let u := after (.unpickDrainDone 5 []) s
    s.stepState = 0 ∧ Clean (s.advance 5) ∧ s.train.ueLines = [] ∧ regionParts (0x10000000000, 4160) = [(0x10000000000, 4096), (0x10000001000, 64)] ∧
    u.boot.unpick.map (·.drained) = some true ∧ u.fabric.segs = [] := by decide +kernel

theorem test_unpick_transfer :
    let g (k : Nat) : Seg := { id := 3, q := 0, n := unpickQueue, seq := 0, index := 0, kind := .write, chip := some 1, answer := some (k, []) }
    let s (k : Nat) : State := { unpicks { regions := [], drained := true } with fabric := { pair.fabric with segs := [g k] } }
    let u := after (.unpickTransferDone 5) (s 0)
    let v := after (.unpickTransferDone 5) (s 0x20)
    (s 0).allShipped = true ∧ (s 0).isLead = false ∧ (s 0).treeParent < 6 ∧ u.boot.unpick.map (·.done_) = some true ∧
    bodies u = [.tree u.treeHdr (.reportUp 6 0 0)] ∧ v.boot.unpick.map (·.drained) = some false := by decide +kernel

/-! ## Stacks -/

/-- A line of stack F2 of quarter 1: pseudo-channel 3, bank 5. -/
def fLine : Nat := placeAddr 1 2 3 5 77

/-- A request for it. -/
def req (isWrite : Bool) (sent : Option Nat) : MemReq :=
  { addr := fLine, port := 0, lead := 12, isWrite := isWrite, write := if isWrite then [(3, 9)] else [], path := 56, slot := 60, way := 0,
    arrived := 10, sent := sent }

/-- Stack F2 of quarter 1 as given; patrol is off. -/
def withStack (x : Stack) : State := (up.setNum (qPage .bgnd 1 0) Reg.BGND_RINSE_CTL 0).setStack 1 2 x

theorem test_mem_request :
    let s := withStack { trained := true }
    let u := after (.memRequest 30 1 0 (fLine + 5) true [(3, 9)]) s
    let v := after (.memRequest 30 1 0 fLine false []) up
    let w := after (.memRequest 30 1 0 0x20000000040 false []) up
    let x := after (.memRequest 30 1 0 0x30000000000 false []) up
    (stackPlace (fLine + 5)).map (fun p => (p.quarter, p.slot, p.pc, p.bank)) = some (1, 2, 3, 5) ∧
    (u.stack 1 2).reqs.map (fun r => (r.addr, r.isWrite, r.lead, r.path, r.sent)) = [(fLine, true, 12, 56, none)] ∧
    (∀ r ∈ (u.stack 1 2).reqs, 10 + 8 + 12 ≤ r.slot) ∧ (v.stack 1 2).reqs = [] ∧ (v.stack 1 2).waiting.map (·.addr) = [fLine] ∧
    stackPlace 0x20000000040 = none ∧ (up.advance 30).pulses = [] ∧ w.bit (qPage .fold 0 0) Reg.HDR_EVT_STS 2 = true ∧
    stackPlace 0x30000000000 = none ∧ x = up.advance 30 := by
  decide +kernel

theorem test_mem_accept :
    let s (w : Bool) : State := withStack { trained := true, reqs := [req w none] }
    let u := after (.memAccept 150 fLine) (s false)
    let v := after (.memAccept 150 fLine) (s true)
    ((s false).advance 150).keptBack (req false none) = false ∧ ((s true).advance 150).keptBack (req true none) = false ∧
    60 ≤ ((s true).advance 150).mclk + 12 ∧
    (u.stack 1 2).reqs.map (·.sent) = [some 48] ∧ u.num (qPage .nmem 1 2) Reg.NMEM_ACCEPTED = 1 ∧
    u.num (qPage .nmem 1 2) Reg.NMEM_SLOT_WAIT = 38 ∧ (v.stack 1 2).reqs.map (·.sent) = [some 48] := by decide +kernel

theorem test_mem_accept_leased :
    let a := 0x10000010000
    let s := leased
    let r : MemReq := { req true none with addr := a }
    let at_ (p : StackPlace) : State := s.setStack p.quarter p.slot { trained := true, reqs := [r] }
    let t := ((stackPlace a).map at_).getD s
    let kept (s : State) : List (Option Nat × Option Nat) := s.stackUnits.flatMap (fun e => e.2.reqs.map (fun r => (r.sent, r.kept)))
    (stackPlace a).isSome = true ∧ (t.advance 150).leaseCovers a 64 = true ∧
    kept (after (.memAccept 150 a) t) = [(none, some (t.advance 150).podCount)] := by decide +kernel

/-- A write that a lease held back takes a new slot once none does. -/
theorem test_mem_accept_later :
    let r : MemReq := { req true none with kept := some 2 }
    let s := withStack { trained := true, reqs := [r] }
    let u := after (.memAccept 900 fLine) s
    (s.advance 900).keptBack r = false ∧ r.slot - r.lead < (s.advance 900).mclk ∧
    (u.stack 1 2).reqs.map (fun r => (r.sent == some (r.slot - r.lead), decide (300 + 12 ≤ r.slot))) = [(true, true)] ∧
    u.num (qPage .nmem 1 2) Reg.NMEM_ACCEPTED = 1 := by decide +kernel

theorem test_mem_complete :
    let s (w : Bool) : State := withStack { trained := true, reqs := [req w (some 48)] }
    let u := after (.memAccessComplete 400 fLine []) (s false)
    let v := after (.memAccessComplete 400 fLine []) (s true)
    48 + 56 ≤ ((s true).advance 400).mclk ∧ ((s true).advance 400).ecc = [] ∧ (s true).train.ueLines = [] ∧ (u.stack 1 2).reqs = [] ∧ u.mem = [] ∧
    (v.stack 1 2).reqs = [] ∧ v.mem = [(fLine + 3, 9)] := by decide +kernel

theorem test_repair_copied :
    let r : Repair := { pc := 3, bank := 5, unit := 4, spare := 0, lines := 16, copied := false }
    let u := after (.repairCopyDone 5 1 2) (withStack { repairs := [r] })
    (u.stack 1 2).repairs = [{ r with copied := true }] := by decide +kernel

theorem test_refresh :
    let s := withStack { trained := true, trainedAt := 2 }
    let u := after (.refreshSlot 390 1 2 3) s
    ((s.advance 390).mclk - 2) % 64 = 0 ∧ mapGet (fun _ => 0) (u.stack 1 2).busy (64 * 3 + 16) = 150 ∧
    mapGet (fun _ => 0) (u.stack 1 2).busy (64 * 3 + 23) = 150 ∧ mapGet (fun _ => 0) (u.stack 1 2).busy (64 * 3 + 24) = 0 := by decide +kernel

theorem test_rinse :
    let cw := fLine / 16
    let t := 3 * 96
    let bad := 9 * 2 ^ 12 ^^^ 9 * 2 ^ 28
    let s : State := { withStack { trained := true, rewrites := [cw] } with ecc := [(cw, bad)] }
    let clean := after (.rinseSlot t 1 2 3 []) (withStack { trained := true, rewrites := [cw] })
    let w : State := { withStack { trained := true, writeBacks := [fLine] } with ecc := [(cw, 1)] }
    let u := after (.rinseSlot t 1 2 3 []) s
    let v := after (.rinseSlot t 1 2 3 []) w
    ((s.advance t).mclk - 0) % 64 = 32 ∧ 96 / 64 % 16 ≠ 15 ∧ (s.advance t).bit (qPage .bgnd 1 0) Reg.BGND_RINSE_CTL 1 = false ∧
    (stackPlace (16 * cw)).map (·.pc) = some 3 ∧ (stackPlace fLine).map (·.pc) = some 3 ∧ (s.advance t).check cw = .uncorrectable ∧
    (s.stack 1 2).busy = [] ∧ (s.stack 1 2).reqs = [] ∧ u.ecc = [(cw, poisonMark)] ∧ clean.ecc = [] ∧
    (u.stack 1 2).rewrites = [] ∧ (w.advance t).check cw = .fix 0 1 ∧ v.ecc = [] ∧ (v.stack 1 2).writeBacks = [] := by decide +kernel

theorem test_patrol :
    let s := (withStack { trained := true }).setNum (qPage .bgnd 1 0) Reg.BGND_RINSE_CTL 2
    let u := after (.rinseSlot 96 1 2 7 []) s
    (s.advance 96).mclk = 32 ∧ (s.advance 96).bit (qPage .bgnd 1 0) Reg.BGND_RINSE_CTL 1 = true ∧
    (s.advance 96).field (qPage .bgnd 1 0) Reg.BGND_RINSE_CTL 6 4 = 0 ∧ s.ecc = [] ∧ 0 + stackWays 2 < stackBanks 2 * stackLines 2 ∧
    mapGet (fun _ => 0) (u.stack 1 2).patrol 7 = 3 ∧ u.mem = [] := by decide +kernel

theorem test_press :
    let t := 3 * (64 * 15 + 32)
    let p := qPage .nmem 1 2
    let b := qPage .bgnd 1 0
    let s (l : Option Lane) : State := (((withStack { trained := true, pins := [(47, l)] }).setNum b Reg.BGND_MARGIN_LIMIT 9).setNum b
      Reg.BGND_PRESS_CTL 1).setNum p Reg.NMEM_MEM_CTL 2
    let u := after (.pressSlot t 1 2 7 5 4 [9, 8]) (s none)
    let v := after (.pressSlot t 1 2 7 5 0 [8]) (s (some { pin := 1 }))
    let w := after (.pressSlot t 1 2 7 5 0 [9, 8]) (s (some { pin := 1 }))
    ((s none).advance t).mclk % 64 = 32 ∧ ((s none).advance t).mclk / 64 % 16 = 15 ∧ (s none).pulses = [] ∧
    (s none).field b Reg.BGND_MARGIN_LIMIT 0 8 = 9 ∧ (s none).bit p Reg.NMEM_MEM_CTL 1 = true ∧
    (u.stack 1 2).lane 7 5 = some { pin := 1 } ∧ u.bit p Reg.HDR_EVT_STS 6 = true ∧ u.num b Reg.BGND_PRESS_ADJ = 4 ∧
    (v.stack 1 2).lane 7 5 = some { pin := 1, degraded := true } ∧ v.bit (mPage .fault) Reg.FAULT_ADVISE 0 = true ∧
    w.stack 1 2 = (s (some { pin := 1 })).stack 1 2 := by decide +kernel

theorem test_retain :
    let s := up.setStack 2 7 { sref := true, retainOk := true }
    ((after (.retainBreak 5 2 1) s).stack 2 7) = { sref := true, retainOk := false } := by decide +kernel

/-! ## Clocks and seams -/

/-- Quarter 1 tracks a reference; the qualified references are bits 1 and 2 of the given status. -/
def refs (sts : Nat) : State := up.setNum (mPage .clkdir) (pllReg 1) sts

theorem test_ref_lost :
    let u := after (.refLost 5 1 0) (refs 7)
    let v := after (.refLost 5 1 0) (refs 3)
    let w := after (.refLost 5 1 0) (refs 15)
    ((refs 7).advance 5).refOk 1 0 = true ∧ u.tracking 1 = 1 ∧ u.refOk 1 0 = false ∧ u.bit (mPage .clkdir) (pllReg 1) 4 = false ∧
    v.tracking 1 = 0 ∧ v.bit (mPage .clkdir) (pllReg 1) 4 = true ∧ (refs 15).tracking 1 = 1 ∧ w.tracking 1 = 1 := by decide +kernel

theorem test_ref_qualified :
    let u := after (.refQualified 5 1 1) (refs 17)
    let s := (refs 15).setNum (mPage .clkdir) (Reg.CLKDIR_QREF_CTLq + 4) 2
    let v := after (.refRevert 36000000000 1) s
    let w := after (.refRevert 35999999999 1) s
    ((refs 17).advance 5).refOk 1 1 = false ∧ u.refOk 1 1 = true ∧ u.tracking 1 = 1 ∧ u.bit (mPage .clkdir) (pllReg 1) 4 = false ∧
    s.refOk 1 (s.preferred 1) = true ∧ s.tracking 1 ≠ s.preferred 1 ∧ v.tracking 1 = 0 ∧ w.tracking 1 = 1 := by decide +kernel

theorem test_pll :
    let s := (refs 7).setNum (mPage .modid) Reg.MODID_QUARTERS 15
    let u := after (.pllFail 5 1) s
    (s.advance 5).bit (mPage .clkdir) (pllReg 1) 0 = true ∧ u.island 1 109 = 6 ∧ u.island 2 0 = 0 ∧
    u.num (mPage .modid) Reg.MODID_QUARTERS = 13 ∧ u.fabric.pod.selfCut = true := by decide +kernel

/-- A command for island 7 of quarter 1 is under way. -/
def commanded (stop : Bool) : State :=
  { up.setIsland 1 7 (if stop then 2 else 4) with
    clk := { (up.setIsland 1 7 (if stop then 2 else 4)).clk with cmds := [{ quarter := 1, island := 7, stop := stop, since := 10 }] } }

theorem test_island_cmd :
    let u := after (.islandStopped 266) (commanded true)
    let v := after (.islandStopped 265) (commanded true)
    let w := after (.islandRun 730) (commanded false)
    u.island 1 7 = 3 ∧ u.clk.cmds = [] ∧ u.island 1 8 = 0 ∧ v.island 1 7 = 2 ∧ (commanded false).clk.held = [] ∧ w.island 1 7 = 0 ∧
    w.clk.cmds = [] := by decide +kernel

theorem test_seams :
    let s := up.setSeam 5 { resends := 15 }
    let u := after (.seamFlitReceive 5 5 true) s
    let v := after (.seamFlitReceive 5 5 true) up
    let w := after (.seamFlitReceive 5 5 false) s
    let x := after (.seamIdleFlit 5 5 (-3)) s
    (s.advance 5).bit (mPage .fault) Reg.FAULT_SEAM_STS 5 = false ∧ u.bit (mPage .fault) Reg.FAULT_SEAM_STS 5 = true ∧
    v.bit (mPage .fault) Reg.FAULT_SEAM_STS 5 = false ∧ v.num (mPage .fault) Reg.FAULT_SEAM_RETRIES = 1 ∧ (w.seam 5).resends = 0 ∧
    x.seam 5 = { resends := 15, depth := -2 } := by decide +kernel

/-! ## Journals and watchdogs -/

/-- A journal entry. -/
def entry (seq time : Nat) : JEntry :=
  { time := time, seq := seq, origin := host, page := qPage .bgnd 1 0, off := 0x100, code := 0, setWon := false, doorbell := false,
    held := false, rsvNz := false, old := 0, new := 1 }

theorem test_flash_program :
    let s := up.setJournal 1 { ring := [entry 0 0, entry 1 9], flashSeq := none }
    let t := 0x1000000
    let u := after (.journalFlashProgram t 1) s
    let v := after (.journalFlashProgram 5 1) s
    0 + 900000 ≤ (s.advance t).podCount ∧ (s.advance 5).podCount < 900000 ∧ (s.advance 5).power.state ≠ 4 ∧
    (u.journal 1).program.map (·.entries) = some [entry 0 0, entry 1 9] ∧ (v.journal 1).program = none := by decide +kernel

theorem test_flash_done :
    let p : FlashProgram := { entries := [entry 0 0, entry 1 9], started := 0 }
    let s := up.setJournal 1 { ring := [entry 0 0, entry 1 9, entry 2 9], program := some p }
    let u := after (.journalFlashDone 5 1 true) s
    let v := after (.journalFlashDone 5 1 false) s
    (s.advance 5).journalRingOn 1 = false ∧ (u.journal 1).flashSeq = some 1 ∧ (u.journal 1).ring = [entry 2 9] ∧ (u.journal 1).program = none ∧
    (u.journal 1).flash.length = 2 ∧ (v.journal 1).program = some { p with started := 5 } ∧ (v.journal 1).ring.length = 3 := by decide +kernel

/-- A held write of quarter 1's BGND page. -/
def heldWrite : RegAccess := { origin := host, page := qPage .bgnd 1 0, off := Reg.BGND_MARGIN_LIMIT, write := some 5, held := true, since := 0 }

theorem test_held :
    let s := up.setJournal 1 { held := [heldWrite] }
    let t := 0x1000000
    let u := after (.journalHoldTimeout t 1) s
    let v := after (.journalHoldRelease 5 1) s
    (s.advance t).journalOf heldWrite.page = 1 ∧ heldWrite.byLead = false ∧ 900000 ≤ (s.advance t).podCount ∧ s.clk.stalled = [] ∧
    (u.journal 1).held = [] ∧ (u.journal 1).ring.map (fun e => (e.code, e.held)) = [(1, true)] ∧
    u.num (qPage .jrnl 1 0) Reg.JRNL_REFUSED = 1 ∧ (s.advance 5).journalRoom heldWrite = true ∧
    v.num (qPage .bgnd 1 0) Reg.BGND_MARGIN_LIMIT = 5 ∧ (v.journal 1).ring.map (·.code) = [0] := by decide +kernel

/-- Watchdogs are on: tiles and engines may take 2 and 3 CCLK. -/
def watched : State :=
  ((up.setNum (mPage .fault) Reg.FAULT_TILE_WDOG 2).setNum (mPage .fault) Reg.FAULT_ENG_WDOG 3).setNum (mPage .fault) Reg.FAULT_FLT_CTL 1

theorem test_tile_watchdog :
    let x : Tile := { desc := 0, kind := 0, at_ := 1, salt := 0, a := [], b := [], c := [], cBad := [], reads := [] }
    let s := watched.setArray 1 2 1 { tiles := [x] }
    let u := after (.tileWatchdog 9 1 2 1) s
    let v := after (.tileWatchdog 8 1 2 1) s
    (s.advance 9).wdogOn = true ∧ (s.advance 9).failedTriad 1 2 = false ∧ u.failedTriad 1 2 = true ∧
    u.frecs.map (fun r => (r.kind, r.quarter, r.unit)) = [(1, 1, 2)] ∧ v.failedTriad 1 2 = false := by decide +kernel

theorem test_engine_watchdog :
    let w : WinEntry := { desc := 0, status := .running, startedAt := 1 }
    let s := watched.setQueue 1 96 { window := [w] }
    let u := after (.engineWatchdog 14 1 96 1) s
    let v := after (.engineWatchdog 13 1 96 1) s
    (s.advance 14).accounted 1 96 w = false ∧ (engineOf 96).isSome = true ∧ u.fabric.pod.selfCut = true ∧
    (2, 1, 96) ∈ u.frecs.map (fun r => (r.kind, r.quarter, r.unit)) ∧ v.fabric.pod.selfCut = false := by decide +kernel

theorem test_service :
    let s := up.setNum (mPage .modid) Reg.MODID_SVC 4
    let u := after (.serviceHeartbeatTimer 360000) s
    let v := after (.serviceFailover 7200000 false) s
    let w := after (.serviceFailover 5 true) (up.setNum (mPage .modid) Reg.MODID_SVC 0)
    (s.advance 5).service = 0 ∧ (s.advance 5).island 0 108 ≤ 1 ∧ u.cores.beatAt = 360000 ∧ (s.advance 5).bit (mPage .modid) Reg.MODID_SVC 2 = true ∧
    v.service = 1 ∧ v.frecs.map (·.kind) = [5] ∧ w.service = 0 ∧ w.fabric.pod.selfCut = true := by decide +kernel

theorem test_cp_watchdog :
    let page := qPage .cp 2 3
    let s := (up.setNum page Reg.CP_CP_WDOG 5).setNum page Reg.CP_CP_CTL 1
    let again : State := { s with cores := { harts := [(11, { expired := some 0 })] } }
    let u := after (.cpWatchdog 20 2 3) s
    let v := after (.cpWatchdog 20 2 3) again
    let w := after (.cpWatchdogKick 20 2 3) s
    (s.advance 20).hartHeld 2 3 = false ∧ (s.advance 20).attempt = 0 ∧ (u.hart 2 3).expired = some 0 ∧ u.bit page Reg.CP_CP_STS 3 = true ∧
    u.fabric.pod.selfCut = false ∧ v.fabric.pod.selfCut = true ∧ w.hart 2 3 = { kicked := 20 } ∧
    after (.cpWatchdog 19 2 3) s = s.advance 19 := by decide +kernel

/-! ## Sites -/

/-- Site 0 of two sites, 0 and 3; migration is as the status says. -/
def sites (sts : Nat) : State :=
  ((pair.setNum (mPage .mig) Reg.MIG_SITES 9).setNum (mPage .mig) Reg.MIG_MIG_STS sts).setSite 3 2 false

/-- A header of round 4 without data. -/
def header : ShardHeader :=
  { round := 4, srcT := 0, ptpTx := 100, site := 3, quarter := 1, sel := false, catchup := false, nblk := 0, nemit := 0, crc := 0, common := 0 }

theorem test_header :
    let s := sites 0
    let held : State := { s with mig := { held := [{ q := 1, site := 3, round := 12, catchup := false }] } }
    let u := after (.shardHeaderArrive 5 header 130 []) s
    let v := after (.shardHeaderArrive 5 { header with crc := 1 } 130 []) s
    let w := after (.shardHeaderArrive 5 header 130 []) held
    let b := (s.advance 5).writeBytes ((s.advance 5).headerAddr 1 3 4) (headerBytes header)
    Clean (s.advance 5) ∧ s.isLead = false ∧ (s.advance 5).bit (mPage .mig) Reg.MIG_MIG_STS 0 = false ∧ s.mig.joinFrom = none ∧
    b.slotCrc 1 3 4 0 false = 0 ∧ u.mig.held = [{ q := 1, site := 3, round := 4, catchup := false }] ∧
    u.num (mPage .mig) (Reg.MIG_SITEs_ROUND + 48) = 4 ∧ u.num (mPage .mig) (Reg.MIG_SITEs_OWD + 48) = 30 ∧
    memGet u.mem (u.headerAddr 1 3 4) = 4 ∧ v.num (mPage .mig) Reg.MIG_BAD = 1 ∧ v.mig.held = [] ∧
    w.num (mPage .mig) Reg.MIG_DROPPED = 1 ∧ w.mig.held.map (·.round) = [12] := by decide +kernel

theorem test_round_deadline :
    let s : State := { sites 1 with mig := { openAt := some 0, deadline := 5 } }
    let u := after (.roundDeadline 24) s
    5 ≤ (s.advance 24).podCount ∧ s.stepState ≠ 4 ∧ (s.advance 24).bit (mPage .mig) Reg.MIG_MIG_STS 4 = false ∧ u.bit (mPage .mig) Reg.MIG_MIG_STS 4 = true ∧ u.mig.readyRound = some (s.roundNumber) ∧
    u.counter 3 4091 = 1 ∧ after (.roundDeadline 4) s = s.advance 4 := by decide +kernel

theorem test_rtt :
    let reg := Reg.MIG_SITEs_SRTT + 48
    let s := (sites 0).setNum (mPage .mig) reg 800
    let odd : State := { s with mig := { odd := [(3, [4000, 2000])] } }
    let u := after (.rttSample 5 3 700) s
    let v := after (.rttSample 5 3 3000) odd
    let w := after (.rttSample 5 3 1700) s
    u.num (mPage .mig) reg = 787 ∧ u.mig.odd = [] ∧ v.num (mPage .mig) reg = 3000 ∧ v.num (mPage .mig) Reg.MIG_RTT_JUMPS = 1 ∧
    w.mig.odd = [(3, [1700])] := by decide +kernel

theorem test_keepalives :
    let t := 0x20000000
    let s : State := { sites 0 with mig := { repeats := [{ kind := 2, dest := 3, q := 1, site := 0, chip := 0, round := 0, common := 0, time := 0
                                                           qpn := 9, sites := 0, side := 0 }] } }
    let z := s.setNum (mPage .pod) Reg.POD_ROLE 0
    let u := after (.migKeepaliveTimer t) z
    let v := after (.migDatagramRepeat t) s
    90000000 ≤ (s.advance t).podCount ∧ (z.advance t).field (mPage .pod) Reg.POD_ROLE 2 2 = 0 ∧ s.otherSites = [3] ∧ u.out.length = 1 ∧
    u.mig.keepAt = (s.advance t).podCount ∧ v.out.length = 1 ∧ v.mig.repeatAt = (s.advance t).podCount := by decide +kernel

/-- A datagram of site 3. -/
def from3 : DgramHdr := { site := 3, q := 1, chip := 0, round := 0, common := 0, time := 0 }

theorem test_contact :
    let t := 0xFFFFFFFF00
    let s := sites 0
    let told : State := { s with mig := { told := [3] } }
    let u := after (.siteContactTimeout t 3) s
    let v := after (.keepalive 5 from3) told
    (s.advance t).siteState 3 = 2 ∧ 0 + (s.advance t).separation ≤ (s.advance t).podCount ∧ s.isLead = false ∧ s.treeParent < 6 ∧
    u.mig.told = [3] ∧ bodies u = [.tree s.treeHdr (.reportUp 2 0 3)] ∧ v.mig.told = [] ∧
    mapGet (fun _ => 0) v.mig.contact 3 = (told.advance 5).podCount := by decide +kernel

theorem test_reset_qp :
    let u := after (.migQpError 5 1 3) (sites 0)
    let v := after (.resetQp 5 from3 0x100001) (sites 0)
    3 ∈ (sites 0).otherSites ∧ (sites 0).isLead = false ∧ u.mig.repeats.map (fun d => (d.kind, d.dest, d.qpn)) = [(2, 3, 0x100031)] ∧
    v.out = [.slots 1 3 [0] false] := by decide +kernel

theorem test_sites_meet :
    let s := sites 0
    let split := leads.setSite 3 3 false
    let two := split.setSite 5 2 false
    let u := after (.siteState 5 from3 8 1) s
    let v := after (.siteState 5 from3 8 1) two
    let w := after (.joinAnnounce 5 from3) (leads.setSite 3 4 false)
    let x := after (.joinAnnounce 5 from3) s
    bodies u = [.tree s.treeHdr (.siteUp 3 from3 8 1)] ∧ bodies x = [.tree s.treeHdr (.siteUp 4 from3 0 0)] ∧ u.out = [] ∧ (two.advance 5).siteState 3 = 3 ∧ 1 < ((two.advance 5).ownSite :: (two.advance 5).linkedSites).length ∧
    two.num (mPage .mig) Reg.MIG_ROUND = 0 ∧ v.siteState 3 = 2 ∧ bodies v = [.tree two.treeHdr (.siteDown 3 2 false 0 0)] ∧
    two.bit (mPage .mig) Reg.MIG_MIG_STS 0 = false ∧ two.ownSite ≠ 3 ∧ w.mig.joiners = [3] ∧ w.out.length = 1 := by decide +kernel

theorem test_ptp :
    let s := (sites 0).setNum (mPage .mig) Reg.MIG_PTP_CTL (1 + 256 * 7)
    let u := after (.ptpSync 5 7 (-1000)) s
    let v := after (.ptpSync 5 7 1001) s
    let w := after (.ptpSecond 5 77) s
    let t := 0x1000000000
    let old : State := { s with mig := { lastSync := some 0 } }
    let x := after (.ptpSyncTimeout t) (old.setNum (mPage .mig) Reg.MIG_PTP_STS 1)
    (s.advance 5).field (mPage .mig) Reg.MIG_PTP_CTL 8 8 = 7 ∧ u.num (mPage .mig) Reg.MIG_PTP_OFFSET = 2 ^ 32 - 1000 ∧
    u.bit (mPage .mig) Reg.MIG_PTP_STS 0 = true ∧ v.bit (mPage .mig) Reg.MIG_PTP_STS 0 = false ∧
    w.num (mPage .mig) Reg.MIG_MAP_SEC_LO = 77 ∧ 0 + 3600000000 ≤ (old.advance t).podCount ∧ x.mig.lastSync = none ∧
    x.bit (mPage .mig) Reg.MIG_PTP_STS 0 = false := by decide +kernel

/-! ## Host requests -/

/-- The register window's address of a register. -/
def regAddr (p : Page) (off : Nat) : Nat := windowBase + 2 ^ 24 * p.win + 4096 * p.slot + off

theorem test_host_write :
    let b := foldBase 0 + 0x100
    let u := after (.hostMemWrite 5 0 0 0 memKey b [7, 8] false) up
    let v := after (.hostMemWrite 5 0 0 0 regKey b [7, 8] false) up
    let w := after (.hostMemWrite 6 0 0 0 memKey b [9] false) u
    InTurn (up.advance 5) 0 0 0 controlQp ∧ Clean (up.advance 5) ∧ controlQp.mayMem true = true ∧ memReach b 2 = true ∧
    (up.advance 5).writeWaits b 2 = false ∧ memBytes u.mem b 2 = [7, 8] ∧ u.out = [.hostReply 0 0 .ack] ∧
    (u.hostQp 0).map (·.psn) = some 1 ∧ v.out = [.hostReply 0 0 .nakAccess] ∧ v.num (mPage .host) Reg.HOST_ACC_ERR = 1 ∧
    2 ^ 23 ≤ (0 + 2 ^ 24 - 1) % 2 ^ 24 ∧ w.mem = u.mem ∧ w.out.length = 2 := by decide +kernel

theorem test_host_write_waits :
    let s : State := { leased with leases := { leased.leases with writes := [] } }
    let b := 0x10000010000
    let u := after (.hostMemWrite 5 0 0 0 memKey b [7] false) s
    InTurn (s.advance 5) 0 0 0 controlQp ∧ memReach b 1 = true ∧ (s.advance 5).writeWaits b 1 = true ∧
    u.leases.writes.map (fun w => (w.addr, w.reply)) = [(b, some (.host 0 0))] ∧ u.out = [] ∧ u.mem = [] := by decide +kernel

theorem test_host_read :
    let b := foldBase 0 + 0x100
    let s := up.writeBytes b [9, 255]
    let u := after (.hostMemRead 5 0 0 0 memKey b 2 false []) s
    let v := after (.hostFetchAdd 5 0 0 0 memKey b 2 false []) s
    InTurn (s.advance 5) 0 0 0 controlQp ∧ Clean (s.advance 5) ∧ controlQp.mayMem false = true ∧ memReach b 8 = true ∧ b % 8 = 0 ∧
    (s.advance 5).writeWaits b 8 = false ∧ u.out = [.hostReply 0 0 (.data [(9, false), (255, false)])] ∧
    memBytes v.mem b 3 = [11, 255, 0] ∧ v.out.length = 1 := by decide +kernel

theorem test_host_reg :
    let p := qPage .bgnd 1 0
    let off := Reg.BGND_MARGIN_LIMIT
    let s := up.setNum p off 9
    let u := after (.hostRegRead 5 0 0 0 regKey (regAddr p off) 4 false) s
    let v := after (.hostRegWrite 5 0 0 0 regKey (regAddr p off) [6, 0, 0, 1] false) s
    addrPage (regAddr p off) = p ∧ regAddr p off % 4096 = off ∧ InTurn (s.advance 5) 0 0 0 controlQp ∧
    controlQp.mayReg (regAddr p off) 4 false = true ∧ controlQp.mayReg (regAddr p off) 4 true = true ∧ (s.advance 5).reachable p = true ∧
    Granted (s.advance 5) (.host 0 0) p off ∧ rangeOk .bgnd off 0x01000006 = true ∧
    u.out = [.hostReply 0 0 (.data [(9, false), (0, false), (0, false), (0, false)])] ∧ v.num p off = 6 ∧
    v.out = [.hostReply 0 0 .ack] := by decide +kernel

theorem test_host_doorbell :
    let s := up.setQueue 1 5 { head := 0, tail := 0, base := 16, log2 := 4 }
    let u := after (.hostDoorbell 5 0 0 0 memKey (foldBase 0) [] (BitVec.ofNat 32 (2 ^ 30 + 5 * 2 ^ 22 + 7)) false) s
    let v := after (.hostDoorbell 5 0 0 0 memKey (foldBase 0) [] (BitVec.ofNat 32 (2 ^ 30 + 5 * 2 ^ 22 + 2 ^ 16 + 7)) false) s
    let w := after (.hostDoorbell 5 0 0 0 memKey (foldBase 0) [] (BitVec.ofNat 32 (2 ^ 30 + 90 * 2 ^ 22 + 7)) false) s
    foldBase 0 ≤ windowBase ∧ Granted (s.advance 5) (.host 0 0) (qPage .qring 1 0) (ringSlotReg 5 4) ∧ queueExists 5 = true ∧
    queueExists 90 = false ∧ (u.queue 1 5).tail = 7 ∧ u.out = [.hostReply 0 0 .ack] ∧ (v.queue 1 5).tail = 0 ∧
    (v.journal 1).ring.map (fun e => (e.code, e.doorbell)) = [(2, true)] ∧ (w.journal 1).ring.map (·.code) = [2] := by decide +kernel

theorem test_host_qp_error :
    let u := after (.hostQpError 5 0 0) up
    u.host.qps = [] ∧ u.num (mPage .host) Reg.HOST_QP_ERR = 1 ∧ u.out = [.cmGone 0] := by decide +kernel

theorem test_sideband :
    let s : State := { up with power := { regAddr := Reg.PWR_P_CAP } }
    let down := s.setIsland 0 108 5
    let u := after (.smbRegRead 5) s
    let v := after (.smbRegWrite 5 3000 true) s
    let w := after (.smbRegWrite 5 3000 false) s
    let x := after (.smbRegRead 5) down
    Calm (s.advance 5) ∧ (s.advance 5).clk.got = [] ∧ (s.advance 5).busUp = true ∧ u.out.length = 1 ∧ v.out = [.smbAck] ∧
    v.num (mPage .pwr) Reg.PWR_P_CAP = 3000 ∧ (v.journal 0).ring.map (·.origin) = [.sideband] ∧ w.out = [.smbNak] ∧
    (down.advance 5).busUp = false ∧ x.out = [.smbNak] := by decide +kernel

/-! ## Site ports -/

/-- Site port 1 is up, connections are allowed, and the module is not owned. -/
def portUp : State := (up.setNum (mPage .host) Reg.HOST_HOST_STS 4).setNum (mPage .host) Reg.HOST_HOST_CTL 3

theorem test_connect :
    let a := portUp.advance 5
    let u := after (.cmConnectRequest 5 1 3 0 4096 (2 ^ 24 + 9) 7 1 2 3 true) portUp
    let v := after (.cmConnectRequest 5 1 0 4 4096 9 7 1 2 3 true) portUp
    let w := after (.cmConnectRequest 5 1 3 0 512 9 7 1 2 3 true) portUp
    a.sitePortUp 1 = true ∧ a.roleOk 3 0 = (true, false) ∧ a.roleOk 0 4 = (false, false) ∧ a.hostQp (qpKey 1 0) = none ∧
    u.out = [.cmAccept 1 0x110] ∧ (u.hostQp 16).map (fun x => (x.role, x.psn, x.peer)) = some (3, 9, 7) ∧ v.out = [.cmReject 1 28] ∧
    w.out.length = 1 ∧ w.host = portUp.host := by decide +kernel

theorem test_disconnect :
    let u := after (.cmDisconnectRequest 5 0 0) up
    Calm (up.advance 5) ∧ u.hostQp 0 = none ∧ u.out = [.cmGone 0] := by decide +kernel

theorem test_datagrams :
    let a := portUp.advance 5
    let u := after (.neighborSolicit 5 1 (0xFE80 * 2 ^ 112 + a.interfaceId 1) false) portUp
    let v := after (.routerAdvertisement 5 1 77) portUp
    let w := after (.dhcpv4Reply 5 1 88) portUp
    let x := after (.identify 5 1 1 9) portUp
    a.sitePortUp 1 = true ∧ u.out = [.neighbor 1 (0xFE80 * 2 ^ 112 + a.interfaceId 1) 0x020100000001] ∧
    v.num (mPage .host) (Reg.HOST_HPFX_Sq_LO + 8) = 77 ∧ w.num (mPage .host) (Reg.HOST_IPV4_Sq + 4) = 88 ∧ x.out.length = 1 ∧
    (a.identifyBytes 9).length = 64 := by decide +kernel

theorem test_pfc :
    let s := portUp.setNum (mPage .host) Reg.HOST_QOS_PFC 0x2F
    let u := after (.pfcPauseFrame 5 1 0x70) s
    u.priorityPaused 1 5 = true ∧ u.priorityPaused 1 4 = false ∧ u.priorityPaused 1 6 = false := by decide +kernel

theorem test_site_link :
    let u := after (.sitePortLinkUp 5 2) up
    let v := after (.sitePortLinkDown 5 1) { portUp with host := { portUp.host with paused := [(1, 32)] } }
    (up.advance 5).island 2 95 ≤ 1 ∧ u.sitePortUp 2 = true ∧ v.sitePortUp 1 = false ∧ v.priorityPaused 1 5 = false := by decide +kernel

theorem test_ecn :
    let s := up.setNum (mPage .host) Reg.HOST_ECN_CTL 3
    let u := after (.cnpReceive 5 0 0 false true) s
    let v := after (.ecnRateTimer 198005 0 0) u
    (s.advance 5).hostQp 0 = some controlQp ∧ (u.hostQp 0).map (fun x => (x.alpha, x.rate)) = some ({ m := 17, e := 5 }, { m := 1175, e := 3 }) ∧
    u.out = [.cnp 0] ∧ (v.hostQp 0).map (fun x => (x.alpha, x.rate)) = some ({ m := 527, e := 10 }, { m := 1215, e := 3 }) := by decide +kernel

/-- An owned module whose ring n of a class is enabled with 2¹⁶ bytes on an EVENT queue pair, number 16 of port 1. -/
def evRing (cls : Nat) : State :=
  let h := mPage .host
  let s := ((up.setNum h Reg.HOST_HOST_STS 5).setNum h (ringReg Reg.HOST_EVRn_CFG 7) (2 ^ 31 + 32 * cls + 256 * 1 + 16)).setNum h
    (ringReg Reg.HOST_EVRn_QPN 7) 0x110
  { s with host := { qps := [(16, { controlQp with role := 1 })] } }

/-- An alarm. -/
def alarm : Alarm := { page := mPage .evq, bit := 0, first := 1, last := 2, count := 3, forced := false, pageOvf := false, sts := 1 }

theorem test_ring_send :
    let s : State := { evRing 0 with events := { alarms := [alarm] } }
    let full := s.setRing 7 { prod := 2 ^ 16, cons := 0 }
    let u := after (.eventRecordSend 5 7) s
    let v := after (.eventRecordSend 5 7) full
    (s.advance 5).ringOn 7 = true ∧ (s.advance 5).ringIsDown 7 = false ∧ (s.advance 5).ringQp 7 = some 16 ∧
    bitsOf ((s.advance 5).ringCfg 7) 5 3 = 0 ∧ 2 ^ bitsOf ((s.advance 5).ringCfg 7) 0 5 = 2 ^ 16 ∧ (s.advance 5).priorityPaused 1 5 = false ∧
    u.events.alarms = [] ∧ (u.ring 7).prod = 32 ∧ u.out = [.hostWrite 16 64 0 alarm.bytes, .hostWrite 16 0 0 (leBytes 8 32)] ∧
    (v.ring 7).full = true ∧ v.out = [] := by decide +kernel

theorem test_ring_reread :
    let s := (evRing 0).setRing 7 { prod := 64, full := true }
    let u := after (.eventConsReread 5 7 none) s
    let v := after (.eventConsReread 6 7 (some 64)) u
    let w := after (.eventQpDown 5 7) s
    u.out = [.hostRead 16 8 0 8] ∧ (u.ring 7).rereading = true ∧ (v.ring 7).cons = 64 ∧ (v.ring 7).rereading = false ∧
    w.ringIsDown 7 = true := by decide +kernel

theorem test_ring_ack :
    let x : RingRec := { bytes := [], seq := some 4 }
    let s := ((evRing 1).setRing 7 { prod := 32, unacked := [(x, 32)] }).setJournal 1 { ring := [entry 4 0, entry 5 0], flashSeq := some 5 }
    let u := after (.eventProdAck 5 7 32) s
    bitsOf (s.ringCfg 7) 5 3 = 1 ∧ bitsOf (s.ringCfg 7) 8 2 = 1 ∧ (u.ring 7).acked = 32 ∧ (u.ring 7).unacked = [] ∧
    (u.journal 1).hostSeq = some 4 ∧ (u.journal 1).ring = [entry 5 0] := by decide +kernel

/-! ## Trust -/

/-- A MGMT queue pair is established, with a session. -/
def managed (x : Session) : State :=
  { up with host := { qps := [(0, { controlQp with role := 3 })] }, sec := { up.sec with sessions := [x], vca := [(0, 3)] } }

/-- A session that has not finished. -/
def session1 : Session := { id := 1, qp := 0 }

theorem test_spdm :
    let s := managed session1
    let early : State := { s with sec := { s.sec with vca := [] } }
    let full : State := { s with sec := { s.sec with sessions := List.replicate 4 session1 } }
    let u := after (.spdmGetVersion 5 0 0) early
    let v := after (.spdmGetDigests 5 0 0 0x13) early
    let w := after (.spdmGetDigests 5 0 0 0x12) s
    let x := after (.spdmKeyExchange 5 0 0 0x13 0 []) s
    let y := after (.spdmKeyExchange 5 0 0 0x13 0 []) full
    s.mgmtQp 0 0 = true ∧ s.vcaOf 0 = 3 ∧ early.vcaOf 0 = 0 ∧ u.vcaOf 0 = 1 ∧ u.out.length = 1 ∧ v.out = [.spdmError 0 4] ∧
    w.out = [.spdmError 0 0x41] ∧ x.sec.sessions.length = 2 ∧ y.out = [.spdmError 0 0x0A] := by decide +kernel

theorem test_spdm_steps :
    let s (n : Nat) : State := { managed session1 with sec := { (managed session1).sec with vca := [(0, n)] } }
    let u := after (.spdmGetCapabilities 5 0 0 0x13) (s 1)
    let v := after (.spdmNegotiateAlgorithms 5 0 0 0x13 true) (s 2)
    let w := after (.spdmGetMeasurements 5 0 0 0x13 0xFF true []) (s 3)
    let x := after (.spdmChallenge 5 0 0 0x13 0 []) (s 2)
    let y := after (.spdmGetCertificate 5 0 0 0x13 0 0 64) (s 3)
    u.vcaOf 0 = 2 ∧ v.vcaOf 0 = 3 ∧ w.out.length = 1 ∧ x.out = [.spdmError 0 4] ∧ y.out.length = 1 := by decide +kernel

theorem test_session :
    let o : Session := { session1 with open_ := true }
    let u := after (.spdmFinish 5 1 (some 7) true) (managed session1)
    let v := after (.spdmFinish 5 1 none false) (managed session1)
    let w := after (.spdmHeartbeat 9 1) (managed o)
    let x := after (.spdmHeartbeatTimeout 36000000000 1) (managed o)
    let y := after (.spdmHeartbeatTimeout 35999999999 1) (managed o)
    let z := after (.spdmKeyUpdate 5 1 1) (managed o)
    u.sec.sessions = [{ session1 with open_ := true, owner := some 7, beatAt := 5 }] ∧ v.sec.sessions = [] ∧
    v.num (mPage .sec) Reg.SEC_SPDM_FAILS = 1 ∧ w.sec.sessions.map (·.beatAt) = [9] ∧ x.sec.sessions = [] ∧ y.sec.sessions = [o] ∧
    z.out.length = 1 ∧ (after (.spdmEndSession 5 1) (managed o)).sec.sessions = [] := by decide +kernel

/-- An open session of the requester with digest 7; the module is owned by digest n, or by none. -/
def claimed7 (n : Option (BitVec 384)) : State :=
  let s := managed { session1 with open_ := true, owner := some 7 }
  match n with
  | none => s
  | some d => (s.setOwnerDig d).setBit (mPage .host) Reg.HOST_HOST_STS 0 true

theorem test_owner :
    let u := after (.claimOwner 5 1) (claimed7 none)
    let v := after (.claimOwner 5 1) (claimed7 (some 8))
    let w := after (.releaseOwner 5 1) (claimed7 (some 7))
    let x := after (.releaseOwner 5 1) (claimed7 (some 8))
    let y := after (.getReport 5 1 77) (claimed7 none)
    Calm ((claimed7 (some 7)).advance 5) ∧ ((claimed7 (some 7)).advance 5).busUp = true ∧ (claimed7 none).sec.mrs.length = 7 ∧
    u.owned = true ∧ u.ownerDig = 7 ∧ u.out = [.message 1 0x81 0 []] ∧ v.ownerDig = 8 ∧ v.out = [.message 1 0x81 0x0A []] ∧
    w.owned = false ∧ w.host.qps = [] ∧ x.owned = true ∧ (x.journal 0).ring.map (·.code) = [2] ∧ y.out.length = 1 := by decide +kernel

/-- The start of an image of class 1, SVN 2, version 3. -/
def image : State :=
  ((claimed7 (some 7)).writeBytes (foldBase 0) [1, 0, 0, 0, 1, 0, 0, 0, 2, 0, 0, 0, 3]).setNum (mPage .boot) Reg.BOOT_BOOT_STS 9

theorem test_stage_meets :
    let a := image.advance 5
    a.phase = 9 ∧ foldBase 0 % 64 = 0 ∧ memReach (foldBase 0) 0x4200 = true ∧ Clean a ∧ a.train.ueLines = [] ∧
    a.ownerSession { session1 with open_ := true, owner := some 7 } = true ∧ a.sec.classes.length = 5 ∧
    leNat (memBytes a.mem (foldBase 0 + 4) 1) = 1 ∧ a.imageReason 1 0 2 true true true true = 0 := by decide +kernel

theorem test_stage_refused :
    let u := after (.fwStage 5 1 (foldBase 0) 0x4200 true true true true []) (claimed7 (some 8))
    (claimed7 (some 8)).recovering = false ∧ u.out = [.message 1 0x84 0x0A []] ∧ u.num (mPage .sec) Reg.SEC_FW_REJECTS = 1 := by decide +kernel

theorem test_floor :
    let u := after (.fwRaiseFloor 5 1 1 1 true) image
    let v := after (.fwRaiseFloor 5 1 1 2 true) image
    (u.fw 1).floor0 = 1 ∧ u.out = [.message 1 0x85 0 []] ∧ v.out = [.message 1 0x85 9 []] := by decide +kernel

/-- A module in recovery: any session stages, and CLAIM, RELEASE and FW_RAISE_FLOOR have no answer. -/
theorem test_recovering :
    let s := (((claimed7 none).writeBytes (foldBase 0) [1, 0, 0, 0, 1, 0, 0, 0, 2, 0, 0, 0, 3])).setBit (mPage .sec) Reg.SEC_SEC_STS 1 true
    let a := s.advance 5
    a.recovering = true ∧ after (.claimOwner 5 1) s = a ∧ after (.releaseOwner 5 1) s = a ∧ after (.fwRaiseFloor 5 1 1 1 true) s = a ∧
    Clean a ∧ a.sec.classes.length = 5 ∧ a.imageReason 1 0 2 true true true true = 0 := by decide +kernel

/-! ## Background work -/

/-- What a quarter senses. -/
def sense : QuarterSense := { die := List.replicate 64 160, dram := List.replicate 8 320, pCore := 5, pMem := 6, vCore := 7, vStack := 8 }

theorem test_tally :
    let t := 0x1000000
    let qs := List.replicate 4 sense
    let s := up.setNum (mPage .evq) Reg.EVQ_EVQ_CTL 0
    let u := after (.tallySample t qs) s
    (s.advance t).bgnd.samples = 0 ∧ u.bgnd.samples = 1 ∧ u.bgnd.sampleAt = 3600000 ∧ u.events.telemetry = [] ∧
    u.num (qPage .hk 3 0) Reg.HK_P_CORE = 5 ∧ u.num (qPage .hk 3 0) Reg.HK_V_CORE = 7 := by decide +kernel

theorem test_tally_records :
    let t := 0x1000000
    let s := up.setNum (mPage .evq) Reg.EVQ_EVQ_CTL 1
    let u := after (.tallySample t (List.replicate 4 sense)) s
    (s.advance t).telStaged = 0 ∧ u.events.telemetry.map List.length = [256, 256, 256, 256, 64] := by decide +kernel

theorem test_margins :
    let s := up.setNum (qPage .bgnd 2 0) Reg.BGND_PRESS_CTL 2
    let u := after (.pressLinkMonitor 5 2 [9, 8, 7]) s
    (s.advance 5).bit (qPage .bgnd 2 0) Reg.BGND_PRESS_CTL 1 = true ∧ u.bgnd.margins = [(64, 9), (65, 8), (66, 7)] := by decide +kernel

theorem test_thermal :
    let s := up.setNum (qPage .bgnd 2 0) Reg.BGND_PRESS_CTL 4
    let raw := [100, 165, 35] ++ List.replicate 61 100
    let u := after (.pressThermal 5 2 raw 100 100) s
    let v := after (.pressThermal 5 2 raw 100 104) s
    u.bgnd.excluded = [129, 130] ∧ u.num (qPage .tally 2 0) Reg.TALLY_SENSORS_OUT = 2 ∧ v.bgnd.excluded = [130] := by decide +kernel

theorem test_calibration :
    let s := up.setStack 2 7 { trained := true }
    let u := after (.pressCalRecord 5 2 [1, 1, 1, 1, 1, 1, 1, 500]) s
    (s.stack 2 7).trained = true ∧ (s.stack 2 6).trained = false ∧ u.boot.cal.map (fun e => (e.1, e.2.temp, e.2.valid)) = [(23, 500, true)] := by
  decide +kernel

theorem test_aging :
    let b := qPage .bgnd 0 0
    let s := (up.setNum b Reg.BGND_DARN_CTL 2).setNum b Reg.BGND_AGE_FAIL 40
    let u := after (.darnAging 5 0 [40, 41] 7 2000 3 0) s
    let v := after (.darnAging 5 0 [40, 41] 7 2000 3 0) (s.setNum b Reg.BGND_DARN_CTL 0)
    (s.advance 5).bit b Reg.BGND_DARN_CTL 1 = true ∧ u.loss 0 1 = 41 ∧ u.failedTriad 0 1 = true ∧ u.failedTriad 0 0 = false ∧
    u.num b Reg.BGND_DARN_CPU = 7 ∧ u.num b Reg.BGND_FLASH_LIFE = 1023 + 65536 * 3 ∧ v.failedTriad 0 1 = false := by decide +kernel

/-! ## Power -/

/-- The module in a power state; islands 0 of quarter 0 and 109 of quarter 3 run. -/
def powered (k : Nat) : State := { up with power := { state := k }, clk := { islands := [(0, 0), (493, 0)] } }

theorem test_contact_ :
    let dark : State := { up with power := { state := 0, aon := false } }
    let u := after (.powerContact 5 0x40005) dark
    let v := after (.powerContact 5 0x00005) dark
    u.selfId = 5 ∧ u.power.aon = true ∧ u.power.straps = 0x40005 ∧ v.selfId = 0 := by decide +kernel

theorem test_power_loss :
    let u := after (.aonPowerLoss 5) (powered 2)
    u.power.aon = false ∧ u.island 3 109 = 5 ∧ u.host = {} ∧ u.field (mPage .boot) Reg.BOOT_BOOT_STS 5 4 = 0 := by decide +kernel

theorem test_shutdown :
    let u := after (.pwrEnLow 5) (powered 2)
    let v := after (.shutdownComplete 6) u
    let w := after (.shutdownComplete 5) ((powered 4).setJournal 1 { ring := [entry 0 0] })
    let x := after (.tripRelease 5) (powered 5)
    u.power.state = 4 ∧ u.num (mPage .pwr) Reg.PWR_TRIP_INFO = 8 ∧ (∀ e ∈ u.journals, e.2.waiting = []) ∧ v.power.state = 0 ∧
    v.island 0 0 = 5 ∧ w.power.state = 4 ∧ x.power.state = 0 := by decide +kernel

theorem test_interlock :
    let u := after (.rampInterlockFail 5 599 720 4800 true true) (powered 1)
    let v := after (.rampInterlockFail 5 600 720 5800 true true) (powered 1)
    u.power.state = 0 ∧ u.island 0 0 = 5 ∧ v.power.state = 1 ∧ v.island 0 0 = 0 := by decide +kernel

theorem test_throttle :
    let s := (powered 2).setNum (mPage .pwr) Reg.PWR_P_CAP 1000
    let u := after (.throttleUpdate 5 5400 1 981) s
    let v := after (.throttleUpdate 6 5400 1 939) u
    let w := after (.throttleUpdate 5 5400 1 980) s
    u.num (mPage .pwr) Reg.PWR_P_LIMIT = 1000 ∧ u.field (mPage .pwr) Reg.PWR_PWR_STS 10 6 = 1 ∧
    u.field (mPage .pwr) Reg.PWR_PWR_STS 7 3 = 1 ∧ u.power.alert = true ∧ u.field (qPage .hk 3 0) Reg.HK_HK_STS 1 6 = 1 ∧
    v.field (mPage .pwr) Reg.PWR_PWR_STS 7 9 = 0 ∧ w.field (mPage .pwr) Reg.PWR_PWR_STS 10 6 = 0 := by decide +kernel

theorem test_inputs :
    let low : State := { up with power := { flowLow := some 0 } }
    let t := 3600000000
    let u := after (.coolantSample t 759 100 200) low
    let v := after (.coolantSample t 760 100 200) low
    (after (.vRange 5 4799) up).power.alert = true ∧ (after (.vRange 5 4800) up).power.alert = false ∧ u.power.flowTold = true ∧
    u.power.alert = true ∧ v.power.flowLow = none ∧ u.num (mPage .pwr) Reg.PWR_FLOW = 759 := by decide +kernel

theorem test_heat :
    let h := qPage .hk 1 0
    let s := ((up.setNum h Reg.HK_T_WARN 1000).setNum (mPage .pwr) Reg.PWR_P_THERM 4000)
    let u := after (.thermalLimitUpdate 5 [0, 1001, 0, 0] [0, 0, 0, 0]) s
    let v := after (.thermalLimitUpdate 6 [0, 953, 0, 0] [0, 0, 0, 0]) u
    let w := after (.thermalLimitUpdate 6 [0, 952, 0, 0] [0, 0, 0, 0]) u
    u.bit h Reg.HK_HK_STS 7 = true ∧ u.num (mPage .pwr) Reg.PWR_P_THERM = 3916 ∧ v.num (mPage .pwr) Reg.PWR_P_THERM = 3832 ∧
    w.bit h Reg.HK_HK_STS 7 = false ∧ w.num (mPage .pwr) Reg.PWR_P_THERM = 3958 := by decide +kernel

theorem test_smbus :
    let s : State := { up with power := { alert := true, regAddr := 8 } }
    (after (.smbPstat 5) s).power.alert = false ∧ (after (.smbRegAddr 5 0xFFC true) s).power.regAddr = 0xFFC ∧
    (after (.smbRegAddr 5 0x1000 true) s).out = [.smbNak] ∧ (after (.smbRegAddr 5 4 false) s).power.regAddr = 8 ∧
    (after (.smbAlertResponse 5) s).out = [.smb [0x60]] ∧ (after (.smbAlertResponse 5) up).out = [] ∧
    (after (.smbClockLowReset 5) s).power.regAddr = 0 := by decide +kernel

/-! ## Starts -/

/-- The module in a power state and phase, with a bank of registers of a start. -/
def inPhase (state phase : Nat) : State := (powered state).setNum (mPage .boot) Reg.BOOT_BOOT_STS phase

theorem test_start :
    let s := inPhase 0 9
    let u := after (.rampStart 5 0x40000 600 720 5000) s
    let v := after (.rampStart 5 0x40000 600 721 5000) s
    s.power.aon = true ∧ s.boot.next = none ∧ u.power.state = 1 ∧ u.phase = 0 ∧ u.num (mPage .boot) Reg.BOOT_STARTS = 1 ∧
    u.island 3 109 = 5 ∧ v.power.state = 0 ∧ v.island 3 109 = 0 := by decide +kernel

/-- Nothing is found. -/
def found : StartFound := { triads := [], corrupt := [], temps := [], badCrc := [] }

theorem test_phases :
    let u := after (.startPhaseComplete 36000000 found) (inPhase 1 0)
    let clear := (inPhase 2 6).writeBytes (foldBase 0) [1]
    let v := after (.startPhaseComplete 5 found) clear
    let w := after (.startPhaseComplete 36000000 found) (inPhase 2 8)
    let late := 20 * 360000000 + 1
    let x := after (.startPhaseComplete late found) (inPhase 2 5)
    u.power.state = 2 ∧ u.phase = 1 ∧ u.num (mPage .boot) Reg.BOOT_PHASE_MSp = 10 ∧ clear.warmStart = false ∧ clear.mem.length = 1 ∧
    v.mem = [] ∧ v.phase = 7 ∧ w.phase = 9 ∧ w.num (mPage .boot) Reg.BOOT_START_MS = 10 ∧ x.power.state = 0 ∧
    x.num (mPage .boot) Reg.BOOT_FAIL_INFO = 81 ∧ x.boot.next.isSome = true := by decide +kernel

theorem test_start_fails :
    let u := after (.startPhaseFail 5 3 2 7) (inPhase 2 3)
    let twice := (inPhase 2 3).setField (mPage .boot) Reg.BOOT_BOOT_STS 7 2 2
    let v := after (.startPhaseFail 5 3 2 7) twice
    let warm := (inPhase 3 3).setBit (mPage .boot) Reg.BOOT_BOOT_STS 4 true
    let w := after (.startPhaseFail 5 7 2 7) warm
    u.num (mPage .boot) Reg.BOOT_FAIL_INFO = 3 + 48 + 1024 + 7 * 2048 ∧ u.power.state = 0 ∧
    u.boot.next = some { at_ := 3600000005, kind := .cold } ∧ v.boot.next.map (·.kind) = some .park ∧ w.power.state = 3 ∧
    w.boot.next.map (·.kind) = some .cold := by decide +kernel

/-- The interlock is met and a start is to come. -/
def comes (k : NextKind) : State :=
  let s := ((inPhase 3 3).setNum (mPage .pwr) Reg.PWR_FLOW 600).setNum (mPage .pwr) Reg.PWR_V_IN 5000
  { s.setNum (mPage .step) Reg.STEP_ATTEMPT_LO 6 with boot := { next := some { at_ := 5, kind := k } } }

theorem test_retry :
    let u := after (.startRetry 5 true true) (comes .warm)
    let v := after (.startRetry 5 true true) (comes .cold)
    ((comes .warm).advance 5).interlock = true ∧ u.phase = 0 ∧ u.warmStart = true ∧ u.attempt = 6 ∧ u.power.state = 3 ∧
    v.warmStart = false ∧ v.attempt = 0 ∧ v.power.state = 1 := by decide +kernel

theorem test_park :
    let u := after (.startRetry 5 false true) (comes .park)
    let v := after (.startRetry 5 false false) (comes .park)
    u.phase = 10 ∧ u.service = 1 ∧ u.num (mPage .modid) Reg.MODID_QUARTERS = 2 ∧ u.island 1 108 = 0 ∧ v.power.state = 0 ∧
    v.boot.next = none := by decide +kernel

theorem test_trip :
    let s := (inPhase 2 9).setStack 1 6 { sref := true, retainOk := true }
    let u := after (.trip 5 4 1 63) s
    let v := after (.trip 5 4 1 63) (inPhase 2 3)
    u.power.state = 5 ∧ u.num (mPage .pwr) Reg.PWR_TRIP_INFO = 4 + 16 + 64 * 63 ∧ (u.stack 1 6).sref = false ∧ u.island 2 5 = 5 ∧
    u.boot.next = none ∧ v.boot.next.isSome = true := by decide +kernel

/-- In STANDBY a condition changes nothing; of two causes in one CCLK the lower is stored. -/
theorem test_trip_corners :
    let s := after (.trip 5 4 1 63) (inPhase 2 9)
    let u := after (.trip 6 2 3 1) s
    let v := after (.trip 8 2 3 1) s
    let info (s : State) : Nat := s.num (mPage .pwr) Reg.PWR_TRIP_INFO
    after (.trip 5 4 1 63) (inPhase 0 9) = (inPhase 0 9).advance 5 ∧ (s.advance 6).power.causeAt / 4 = 1 ∧
    (s.advance 6).field (mPage .pwr) Reg.PWR_TRIP_INFO 0 4 = 4 ∧ info u = 2 + 48 + 64 ∧ info v = info s := by decide +kernel

/-! ## Places and codes -/

theorem test_places :
    foldPlace (64 * (7 + 64 * 5 + 4096 * 3 + 262144 * 2)) = { bank := 7 ^^^ 5 ^^^ 3 ^^^ 2, sub := 1, index := 1 + 16 * 3 + 1024 * 2 } ∧
    fPlace 1 (64 * (48 * 65 + 47)) = { dTier := false, quarter := 1, stack := 5, pc := 7, bank := 0, index := 1 } ∧
    dPlace 2 (64 * (16 * 33 + 3)) = { dTier := true, quarter := 2, stack := 0, pc := 0, bank := 0, index := 1 } := by decide +kernel

theorem test_code :
    eccDecode (syndrome (eccEncode 5 ^^^ 9 * 2 ^ (4 * 35))) = .fix 35 9 ∧
    eccDecode (syndrome (eccEncode 5 ^^^ 9 * 2 ^ (4 * 3) ^^^ 9 * 2 ^ (4 * 7))) = .uncorrectable ∧
    eccDecode (syndrome (eccEncode 5 ^^^ poisonMark)) = .poisoned := by decide +kernel

/-! ## Ill-formed commands -/

theorem test_ill_formed_registers :
    ([.registerWrite 0 host 5 0 0 0 false, .registerWrite 0 host 0 4096 0 0 false, .registerWrite 0 host 0 0 4096 0 false,
      .evtStsClear 0 host 5 0 0 0, .pageEnable 0 host 0 4096, .ringTailWrite 0 host 4 0 0, .ringCfgWrite 0 host 0 164 0,
      .signalCounterWrite 0 host 0 4096 0, .stepCountWrite 0 host 4 0, .leaseClaim 0 host 0, .leaseClaim 0 host 241,
      .collTopologyWrite 0 host 0x120 0, .collTopologyWrite 0 host 0x148 0, .eventRingEnable 0 host 8 0] : List Instr).all
      (fun i => !i.wf) = true := by decide +kernel

theorem test_ill_formed_units :
    ([.tileAccept 0 4 0 0 [] [] [], .tileAccept 0 0 30 0 [] [] [], .tileAccept 0 0 0 3 [] [] [], .arrayResume 0 host 0 32 0,
      .mangleStreamDone 0 0 8, .foldAccessGrant 0 0 64 0 [] [], .foldAccessGrant 0 0 0 4 [] [], .queueFetch 0 0 164, .vecAdd 0 0 16 [],
      .convert 0 0 8 [], .sorterDump 0 0 2, .digest 0 0 2 [], .streamerCopy 0 0 16, .updateSgdm 0 0 4 [], .collSegmentSend 0 0 0 3 0,
      .collSegmentSend 0 0 0 0 2, .repairGo 0 host 0 8, .retainBreak 0 0 2, .seamFlitReceive 0 6 false, .tileWatchdog 0 0 32 0,
      .cpWatchdog 0 0 4, .islandStop 0 host 0 110, .refLost 0 0 2, .pllFail 0 4] : List Instr).all (fun i => !i.wf) = true := by
  decide +kernel

theorem test_ill_formed_links :
    ([.collReadyReceive 0 { fromNext with q := 4 } { tag := 0, attempt := 0, epoch := 0, part := 0, direction := 0, phase := 0, step := 0, off := 0 },
      .candidate 0 { fromNext with d := 6 } 0 0, .candidate 0 { fromNext with vl := 8 } 0 0, .candidate 0 { fromNext with srcQ := 4 } 0 0,
      .candidate 0 { fromNext with lseq := 2 ^ 32 } 0 0, .candidate 0 { fromNext with lack := 2 ^ 32 } 0 0,
      .candidate 0 { fromNext with src := 2 ^ 18 } 0 0, .candidate 0 { fromNext with dst := 2 ^ 64 } 0 0,
      .candidate 0 { fromNext with route := 16 } 0 0, .siteDown 0 fromNext now0 8 0 false 0 0, .frameWrite 0 fromNext 0 false [(0, false)],
      .frameSig 0 fromNext 0 4 0, .hello 0 fromNext 0 0 6 false false 0, .frameSend 0 0 6, .rttSample 0 8 0, .migQpError 0 0 8,
      .hostMemWrite 0 4 0 0 0 0 [] false, .hostMemWrite 0 0 16 0 0 0 [] false, .identify 0 4 0 0, .trip 0 0 0 0, .trip 0 8 0 0,
      .startPhaseFail 0 10 0 0, .fwRaiseFloor 0 0 5 0 false] : List Instr).all (fun i => !i.wf) = true := by decide +kernel

theorem test_well_formed :
    ([.registerWrite 0 host 4 4095 4095 0 false, .tileAccept 0 3 29 2 [] [] [], .candidate 0 fromNext 1 1, .leaseClaim 0 host 240,
      .trip 0 7 3 0, .hostMemWrite 0 3 15 0 0 0 [] false] : List Instr).all Instr.wf = true := by decide +kernel

end Sys2Proof.Tests
end

section
/-! PROOFS. The scope of the block: every step keeps a sound state sound, reserved places read 0, and a granted write of a register
stores, or clears, what its rule says and is journalled. -/

namespace Sys2Proof.Proofs
open Sys2Proof Sys2Proof.Machine Sys2Proof.Laws

/-! ## What every command keeps

A command brings the state to its stamp and works by the operations of `Laws`, each of which keeps what `Keeps` says. There is one
lemma for a command: it cuts the command's rule into its cases, and each case is a chain of operations. -/

section Operations
variable {s₀ s : State}

/-- What a state with the registers of another one keeps, where both keep it. -/
@[simp] theorem keeps_fields_of_regs {u : State} (h : Keeps s₀ s) (hu : Keeps s₀ u)
    (ca cy ec pu po cl jo ev co st le fr fa tr cl' mi ho pw bo bg cr se) :
    Keeps s₀ (State.mk s.pending s.now s.free u.regs ca cy s.mem ec pu po cl jo ev co st le fr fa tr cl' mi ho pw bo bg cr se
      s.out s.outAt) :=
  ⟨h.pending, h.now, h.free, h.out, h.outAt, fun k => ⟨(h.sound k).1, (hu.sound k).2⟩⟩

@[simp] theorem keeps_freshFree (hk : Keeps s₀ s) : Keeps s₀ s.freshFree.2 := keeps_free 1 hk

@[simp] theorem keeps_addLate (n q tag : Nat) (hk : Keeps s₀ s) : Keeps s₀ (State.addLate n q tag s) := by
  induction n generalizing s with
  | zero => exact hk
  | succ n ih =>
    unfold State.addLate
    split
    · exact hk
    · split
      · exact ih (by simp [hk])
      · exact hk

/-- What an operation keeps, it keeps at any time. -/
theorem keeps_atTime (h : Keeps s₀ s) (n : Nat) (p : PodTime) : Keeps { s₀ with now := n } { s with now := n, pod := p } :=
  ⟨h.pending, rfl, h.free, h.out, h.outAt, h.sound⟩

/-- A state brought to a stamp keeps all but the time. -/
theorem keeps_advance (s : State) (t : Nat) : Keeps { s with now := max s.now t } (s.advance t) := by
  unfold State.advance
  refine keeps_raiseSpills _ (keeps_atTime (keeps_countLag _ (keeps_foldl _ (fun u c => keeps_addSat _ _ _ (.refl u))
    (keeps_foldl _ (fun u c => keeps_addSat _ _ _ (.refl u)) (keeps_countArrays _ (keeps_closeEntries _ (.refl s)))))) _ _)

end Operations

/-! ### Queues -/

theorem answers_foldAccessGrant (t q bank sub : Nat) (arrivals : List FoldArrival) (flips : List (Nat × Nat)) (s : State) :
    Answers (s.advance t) (execFoldAccessGrant t q bank sub arrivals flips s) := by
  unfold execFoldAccessGrant
  dsimp only
  (repeat' split) <;> simp (maxDischargeDepth := 50)

theorem answers_foldRequestPromote (t q off num : Nat) (s : State) :
    Answers (s.advance t) (execFoldRequestPromote t q off num s) := by
  unfold execFoldRequestPromote
  simp (maxDischargeDepth := 50)

theorem answers_foldReadComplete (t q off : Nat) (s : State) : Answers (s.advance t) (execFoldReadComplete t q off s) := by
  unfold execFoldReadComplete
  dsimp only
  (repeat' split) <;> simp (maxDischargeDepth := 50)

theorem answers_foldScrubCycle (t q bank sub : Nat) (flips : List (Nat × Nat)) (s : State) :
    Answers (s.advance t) (execFoldScrubCycle t q bank sub flips s) := by
  unfold execFoldScrubCycle
  dsimp only
  split
  · simp
  · split
    · refine answers_done (keeps_foldl _ (fun u i => ?_) (keeps_setFold _ (.refl _)))
      split <;> simp
    · simp (maxDischargeDepth := 50)

theorem answers_queueFetch (t q n : Nat) (s : State) : Answers (s.advance t) (execQueueFetch t q n s) := by
  unfold execQueueFetch
  simp (maxDischargeDepth := 50)

theorem answers_queueFetchArrive (t q n : Nat) (s : State) : Answers (s.advance t) (execQueueFetchArrive t q n s) := by
  unfold execQueueFetchArrive
  simp (maxDischargeDepth := 50)

theorem answers_qctlWaitGe (t q n : Nat) (s : State) : Answers (s.advance t) (execQctlWaitGe t q n s) := by
  unfold execQctlWaitGe
  dsimp only
  split <;> simp (maxDischargeDepth := 50)

theorem answers_qctlTake (t q n : Nat) (s : State) : Answers (s.advance t) (execQctlTake t q n s) := by
  unfold execQctlTake
  dsimp only
  split <;> simp (maxDischargeDepth := 50)

theorem answers_qctlAdd (t q n : Nat) (s : State) : Answers (s.advance t) (execQctlAdd t q n s) := by
  unfold execQctlAdd
  dsimp only
  split <;> simp (maxDischargeDepth := 50)

theorem answers_qctlClear (t q n : Nat) (s : State) : Answers (s.advance t) (execQctlClear t q n s) := by
  unfold execQctlClear
  dsimp only
  split <;> simp (maxDischargeDepth := 50)

theorem answers_descriptorSignal (t q n : Nat) (s : State) : Answers (s.advance t) (execDescriptorSignal t q n s) := by
  unfold execDescriptorSignal
  dsimp only
  split <;> simp (maxDischargeDepth := 50)

/-! ### Arrays and mangles -/

theorem answers_tileAccept (t q slot arr : Nat) (late : List (Nat × Nat × Nat)) (drains : List Nat)
    (flips : List (Nat × Nat)) (s : State) :
    Answers (s.advance t) (execTileAccept t q slot arr late drains flips s) := by
  unfold execTileAccept
  dsimp only
  split
  · simp
  · simp (maxDischargeDepth := 50) [keeps_free]

theorem answers_tileComplete (t q slot arr : Nat) (corrected : Nat) (badRows badCols badLines : List Nat) (badA badB : Nat)
    (s : State) :
    Answers (s.advance t) (execTileComplete t q slot arr corrected badRows badCols badLines badA badB s) := by
  unfold execTileComplete
  dsimp only
  split
  · have taken (c : Prop) [Decidable c] :
        Keeps (s.advance t) (if c then { s.advance t with free := (s.advance t).free + 4096 } else s.advance t) :=
      keeps_ite (fun _ => keeps_free 4096 (.refl _)) (fun _ => .refl _)
    refine answers_ite (fun _ => by simp) (fun _ => answers_done (keeps_drain _ _ (keeps_traceEvent _ _ _ _ _ (keeps_incCounter _ _ _
      (keeps_setQueue _ _ _ (keeps_addWrap _ _ _ (keeps_setNum _ _ _ (keeps_setNum _ _ _ (keeps_raiseIf _ _ _ (keeps_addSat _ _ _
      (keeps_raiseIf _ _ _ (keeps_addSat _ _ _ (keeps_raiseIf _ _ _ (keeps_raiseIf _ _ _ ?_))))))))))))))
    exact keeps_ite (fun _ => keeps_setArray _ _ _ _ (taken _)) (fun _ => keeps_putTile _ _ _ (keeps_setArray _ _ _ _ (taken _)))
  · simp

theorem answers_mangleClaimGrant (t q : Nat) (s : State) : Answers (s.advance t) (execMangleClaimGrant t q s) := by
  unfold execMangleClaimGrant
  dsimp only
  split <;> simp (maxDischargeDepth := 50)

theorem answers_mangleStreamDone (t q m : Nat) (s : State) : Answers (s.advance t) (execMangleStreamDone t q m s) := by
  unfold execMangleStreamDone
  simp (maxDischargeDepth := 50)

/-! ### Convert, transpose, sorters, digests and wringers -/

theorem answers_convert (t q e : Nat) (flips : List (Nat × Nat)) (s : State) :
    Answers (s.advance t) (execConvert t q e flips s) := by
  unfold execConvert
  dsimp only
  split <;> simp (maxDischargeDepth := 50)

theorem answers_convertHandoff (t q e : Nat) (between : List (Nat × Byte)) (flips : List (Nat × Nat)) (s : State) :
    Answers (s.advance t) (execConvertHandoff t q e between flips s) := by
  unfold execConvertHandoff
  dsimp only
  (repeat' split) <;> simp (maxDischargeDepth := 50)

theorem answers_transpose (t q m : Nat) (flips : List (Nat × Nat)) (s : State) :
    Answers (s.advance t) (execTranspose t q m flips s) := by
  unfold execTranspose
  dsimp only
  split <;> simp (maxDischargeDepth := 50)

theorem answers_sorterDump (t q so : Nat) (s : State) : Answers (s.advance t) (execSorterDump t q so s) := by
  unfold execSorterDump
  dsimp only
  split <;> simp (maxDischargeDepth := 50)

theorem answers_digest (t q g : Nat) (flips : List (Nat × Nat)) (s : State) :
    Answers (s.advance t) (execDigest t q g flips s) := by
  unfold execDigest
  dsimp only
  split <;> simp (maxDischargeDepth := 50)

theorem answers_compress (t q g : Nat) (flips : List (Nat × Nat)) (s : State) :
    Answers (s.advance t) (execCompress t q g flips s) := by
  unfold execCompress
  dsimp only
  split <;> simp (maxDischargeDepth := 50)

/-! ### The Fold and the stacks -/

theorem answers_memRequest (t pq port addr : Nat) (isWrite : Bool) (bytes : List (Nat × Byte)) (s : State) :
    Answers (s.advance t) (execMemRequest t pq port addr isWrite bytes s) := by
  unfold execMemRequest
  split <;> simp (maxDischargeDepth := 50)

theorem answers_memAccept (t addr : Nat) (s : State) : Answers (s.advance t) (execMemAccept t addr s) := by
  unfold execMemAccept
  dsimp only
  (repeat' split) <;> simp (maxDischargeDepth := 50)

theorem answers_memAccessComplete (t addr : Nat) (flips : List (Nat × Nat)) (s : State) :
    Answers (s.advance t) (execMemAccessComplete t addr flips s) := by
  unfold execMemAccessComplete
  dsimp only
  (repeat' split) <;> simp (maxDischargeDepth := 50)

theorem answers_refreshSlot (t q slot pc : Nat) (s : State) : Answers (s.advance t) (execRefreshSlot t q slot pc s) := by
  unfold execRefreshSlot
  simp (maxDischargeDepth := 50)

theorem answers_rinseSlot (t q slot pc : Nat) (flips : List (Nat × Nat)) (s : State) :
    Answers (s.advance t) (execRinseSlot t q slot pc flips s) := by
  unfold execRinseSlot
  simp (maxDischargeDepth := 50)

theorem answers_pressSlot (t q slot pc grp moves : Nat) (margins : List Nat) (s : State) :
    Answers (s.advance t) (execPressSlot t q slot pc grp moves margins s) := by
  unfold execPressSlot
  dsimp only
  (repeat' split) <;> simp (maxDischargeDepth := 50)

theorem answers_repairCopyDone (t q slot : Nat) (s : State) : Answers (s.advance t) (execRepairCopyDone t q slot s) := by
  unfold execRepairCopyDone
  simp (maxDischargeDepth := 50)

theorem answers_retainBreak (t q d : Nat) (s : State) : Answers (s.advance t) (execRetainBreak t q d s) := by
  unfold execRetainBreak
  simp (maxDischargeDepth := 50)

/-! ### Streamers -/

theorem answers_streamerCopy (t q e : Nat) (s : State) : Answers (s.advance t) (execStreamerCopy t q e s) := by
  unfold execStreamerCopy
  simp (maxDischargeDepth := 50)

theorem answers_streamerFill (t q e : Nat) (s : State) : Answers (s.advance t) (execStreamerFill t q e s) := by
  unfold execStreamerFill
  simp (maxDischargeDepth := 50)

theorem answers_streamerSegmentComplete (t q e seq i : Nat) (site : Option (Nat × List (Byte × Bool))) (lost : Bool) (flips : List
    (Nat × Nat)) (s : State) :
    Answers (s.advance t) (execStreamerSegmentComplete t q e seq i site lost flips s) := by
  unfold execStreamerSegmentComplete
  dsimp only
  (repeat' split) <;> simp (maxDischargeDepth := 50)

/-! ### Link checks -/

theorem answers_checkLinks (t : Nat) (from_ : Option (RxHdr × TreeHdr)) (arrived : List LinkDigest) (elsewhere : Bool) (s : State)
    :
    Answers (s.advance t) (execCheckLinks t from_ arrived elsewhere s) := by
  unfold execCheckLinks
  dsimp only
  (repeat' split) <;> simp (maxDischargeDepth := 50)

theorem answers_mismatchUp (t : Nat) (h : RxHdr) (th : TreeHdr) (total : Nat) (entries : List Mismatch) (s : State) :
    Answers (s.advance t) (execMismatchUp t h th total entries s) := by
  unfold execMismatchUp
  simp (maxDischargeDepth := 50)

/-! ### The step -/

theorem answers_stepBoundary (t : Nat) (s : State) : Answers (s.advance t) (execStepBoundary t s) := by
  unfold execStepBoundary
  simp (maxDischargeDepth := 50)

theorem answers_verdictOp (t q : Nat) (flips : List (Nat × Nat)) (s : State) :
    Answers (s.advance t) (execVerdictOp t q flips s) := by
  unfold execVerdictOp
  dsimp only
  split <;> simp (maxDischargeDepth := 50)

theorem answers_verdictUp (t : Nat) (h : RxHdr) (th : TreeHdr) (nf force : Bool) (contrib : Nat) (sumsq : Word) (s : State) :
    Answers (s.advance t) (execVerdictUp t h th nf force contrib sumsq s) := by
  unfold execVerdictUp
  simp (maxDischargeDepth := 50)

theorem answers_verdictDown (t : Nat) (h : RxHdr) (th : TreeHdr) (verdict : Nat) (vnorm clip : Word) (s : State) :
    Answers (s.advance t) (execVerdictDown t h th verdict vnorm clip s) := by
  unfold execVerdictDown
  simp (maxDischargeDepth := 50)

theorem answers_modulePrepared (t : Nat) (s : State) : Answers (s.advance t) (execModulePrepared t s) := by
  unfold execModulePrepared
  simp (maxDischargeDepth := 50)

theorem answers_preparedUp (t : Nat) (h : RxHdr) (th : TreeHdr) (count present nz : Nat) (s : State) :
    Answers (s.advance t) (execPreparedUp t h th count present nz s) := by
  unfold execPreparedUp
  simp (maxDischargeDepth := 50)

theorem answers_commitDown (t : Nat) (h : RxHdr) (th : TreeHdr) (time present nz : Nat) (s : State) :
    Answers (s.advance t) (execCommitDown t h th time present nz s) := by
  unfold execCommitDown
  simp (maxDischargeDepth := 50)

theorem answers_digestUp (t : Nat) (h : RxHdr) (th : TreeHdr) (entries : List LayerEntry) (s : State) :
    Answers (s.advance t) (execDigestUp t h th entries s) := by
  unfold execDigestUp
  simp (maxDischargeDepth := 50)

theorem answers_digestDown (t : Nat) (h : RxHdr) (th : TreeHdr) (entries : List MajorityEntry) (s : State) :
    Answers (s.advance t) (execDigestDown t h th entries s) := by
  unfold execDigestDown
  simp (maxDischargeDepth := 50)

theorem answers_replicaMendDone (t index : Nat) (bytes : List Byte) (outer : List OuterRange) (s : State) :
    Answers (s.advance t) (execReplicaMendDone t index bytes outer s) := by
  unfold execReplicaMendDone
  simp (maxDischargeDepth := 50)

theorem answers_leaseGrant (t n : Nat) (s : State) : Answers (s.advance t) (execLeaseGrant t n s) := by
  unfold execLeaseGrant
  simp (maxDischargeDepth := 50)

theorem answers_leaseStale (t : Nat) (s : State) : Answers (s.advance t) (execLeaseStale t s) := by
  unfold execLeaseStale
  dsimp only
  (repeat' split) <;> simp (maxDischargeDepth := 50)

/-! ### Update programs -/

theorem answers_updateParityResume (t q u : Nat) (s : State) : Answers (s.advance t) (execUpdateParityResume t q u s) := by
  unfold execUpdateParityResume
  dsimp only
  split <;> simp (maxDischargeDepth := 50)

theorem answers_exportLag (t q u : Nat) (s : State) : Answers (s.advance t) (execExportLag t q u s) := by
  unfold execExportLag
  dsimp only
  split <;> simp (maxDischargeDepth := 50)

theorem answers_pageMendDone (t page : Nat) (lines : List (Nat × List Byte)) (s : State) :
    Answers (s.advance t) (execPageMendDone t page lines s) := by
  unfold execPageMendDone
  simp (maxDischargeDepth := 50)

/-! ### The exporter -/

theorem answers_shipStep (t q : Nat) (s : State) : Answers (s.advance t) (execShipStep t q s) := by
  unfold execShipStep
  simp (maxDischargeDepth := 50)

theorem answers_shipStepSend (t q : Nat) (site : List (Nat × Nat × List (Byte × Bool))) (flips : List (Nat × Nat)) (s : State) :
    Answers (s.advance t) (execShipStepSend t q site flips s) := by
  unfold execShipStepSend
  dsimp only
  (repeat' split) <;> simp (maxDischargeDepth := 50)

theorem answers_shipStepDone (t q : Nat) (site : List (Nat × Nat × List (Byte × Bool))) (s : State) :
    Answers (s.advance t) (execShipStepDone t q site s) := by
  unfold execShipStepDone
  dsimp only
  (repeat' split) <;> simp (maxDischargeDepth := 50)

theorem answers_shipFull (t q : Nat) (site : List (Nat × Nat × List (Byte × Bool))) (flips : List (Nat × Nat)) (s : State) :
    Answers (s.advance t) (execShipFull t q site flips s) := by
  unfold execShipFull
  dsimp only
  (repeat' split) <;> simp (maxDischargeDepth := 50)

theorem answers_exportConsReread (t q : Nat) (site : List (Nat × Nat × List (Byte × Bool))) (s : State) :
    Answers (s.advance t) (execExportConsReread t q site s) := by
  unfold execExportConsReread
  dsimp only
  (repeat' split) <;> simp (maxDischargeDepth := 50)

/-! ### Collectives -/

theorem answers_collReadyReceive (t : Nat) (h : RxHdr) (c : CollHdr) (s : State) :
    Answers (s.advance t) (execCollReadyReceive t h c s) := by
  unfold execCollReadyReceive
  dsimp only
  (repeat' split) <;> simp (maxDischargeDepth := 50)

theorem answers_collSegmentSend (t q tag part dir : Nat) (s : State) :
    Answers (s.advance t) (execCollSegmentSend t q tag part dir s) := by
  unfold execCollSegmentSend
  dsimp only
  (repeat' split) <;> simp (maxDischargeDepth := 50)

theorem answers_collSegmentReceive (t : Nat) (h : RxHdr) (c : CollHdr) (bytes : List Byte) (flips : List (Nat × Nat)) (s : State)
    :
    Answers (s.advance t) (execCollSegmentReceive t h c bytes flips s) := by
  unfold execCollSegmentReceive
  dsimp only
  (repeat' split) <;> simp (maxDischargeDepth := 50)

theorem answers_collWait (t q tag part dir : Nat) (s : State) : Answers (s.advance t) (execCollWait t q tag part dir s) := by
  unfold execCollWait
  dsimp only
  (repeat' split) <;> simp (maxDischargeDepth := 50)

/-! ### Frames -/

theorem answers_frameSend (t q d : Nat) (s : State) : Answers (s.advance t) (execFrameSend t q d s) := by
  unfold execFrameSend
  dsimp only
  (repeat' split) <;> simp (maxDischargeDepth := 50)

theorem answers_frameReadResp (t : Nat) (h : RxHdr) (seg : Nat) (error : Bool) (bytes : List (Byte × Bool)) (s : State) :
    Answers (s.advance t) (execFrameReadResp t h seg error bytes s) := by
  unfold execFrameReadResp
  simp (maxDischargeDepth := 50)

theorem answers_frameSig (t : Nat) (h : RxHdr) (counter quarter amount : Nat) (s : State) :
    Answers (s.advance t) (execFrameSig t h counter quarter amount s) := by
  unfold execFrameSig
  simp (maxDischargeDepth := 50)

theorem answers_creditReturnTimer (t q d : Nat) (s : State) : Answers (s.advance t) (execCreditReturnTimer t q d s) := by
  unfold execCreditReturnTimer
  simp (maxDischargeDepth := 50)

theorem answers_ctrlKeepaliveSend (t q d : Nat) (s : State) : Answers (s.advance t) (execCtrlKeepaliveSend t q d s) := by
  unfold execCtrlKeepaliveSend
  simp (maxDischargeDepth := 50)

theorem answers_podTimeSyncTimer (t : Nat) (s : State) : Answers (s.advance t) (execPodTimeSyncTimer t s) := by
  unfold execPodTimeSyncTimer
  simp (maxDischargeDepth := 50)

theorem answers_linkDelayTimer (t : Nat) (s : State) : Answers (s.advance t) (execLinkDelayTimer t s) := by
  unfold execLinkDelayTimer
  simp (maxDischargeDepth := 50)

theorem answers_syncReq (t : Nat) (h : RxHdr) (ta seq state : Nat) (s : State) :
    Answers (s.advance t) (execSyncReq t h ta seq state s) := by
  unfold execSyncReq
  simp (maxDischargeDepth := 50)

theorem answers_linkReq (t : Nat) (h : RxHdr) (ta seq state : Nat) (s : State) :
    Answers (s.advance t) (execLinkReq t h ta seq state s) := by
  unfold execLinkReq
  simp (maxDischargeDepth := 50)

theorem answers_linkResp (t : Nat) (h : RxHdr) (ta tb tc seq state : Nat) (s : State) :
    Answers (s.advance t) (execLinkResp t h ta tb tc seq state s) := by
  unfold execLinkResp
  simp (maxDischargeDepth := 50)

theorem answers_syncResp (t : Nat) (h : RxHdr) (ta tb tc seq state : Nat) (s : State) :
    Answers (s.advance t) (execSyncResp t h ta tb tc seq state s) := by
  unfold execSyncResp
  simp (maxDischargeDepth := 50)

theorem answers_joinResp (t : Nat) (h : RxHdr) (ta tb tc seq state : Nat) (s : State) :
    Answers (s.advance t) (execJoinResp t h ta tb tc seq state s) := by
  unfold execJoinResp
  simp (maxDischargeDepth := 50)

/-! ### The pod -/

theorem answers_leadHeartbeatTimer (t : Nat) (s : State) : Answers (s.advance t) (execLeadHeartbeatTimer t s) := by
  unfold execLeadHeartbeatTimer
  simp (maxDischargeDepth := 50)

theorem answers_heartbeat (t : Nat) (h : RxHdr) (th : TreeHdr) (time : Nat) (s : State) :
    Answers (s.advance t) (execHeartbeat t h th time s) := by
  unfold execHeartbeat
  simp (maxDischargeDepth := 50)

theorem answers_standbyLeadTimeout (t : Nat) (s : State) : Answers (s.advance t) (execStandbyLeadTimeout t s) := by
  unfold execStandbyLeadTimeout
  dsimp only
  split <;> simp (maxDischargeDepth := 50)

theorem answers_leadProbe (t : Nat) (h : RxHdr) (term : Nat) (s : State) : Answers (s.advance t) (execLeadProbe t h term s) := by
  unfold execLeadProbe
  simp (maxDischargeDepth := 50)

theorem answers_probeAnswer (t : Nat) (h : RxHdr) (term last : Nat) (none_ : Bool) (s : State) :
    Answers (s.advance t) (execProbeAnswer t h term last none_ s) := by
  unfold execProbeAnswer
  dsimp only
  split <;> simp (maxDischargeDepth := 50)

theorem answers_probeWindowExpire (t : Nat) (s : State) : Answers (s.advance t) (execProbeWindowExpire t s) := by
  unfold execProbeWindowExpire
  dsimp only
  split <;> simp (maxDischargeDepth := 50)

theorem answers_hello (t : Nat) (h : RxHdr) (id quarter direction : Nat) (spare inPod : Bool) (term : Nat) (s : State) :
    Answers (s.advance t) (execHello t h id quarter direction spare inPod term s) := by
  unfold execHello
  simp (maxDischargeDepth := 50)

theorem answers_linkTrained (t q d lanes : Nat) (s : State) : Answers (s.advance t) (execLinkTrained t q d lanes s) := by
  unfold execLinkTrained
  simp (maxDischargeDepth := 50)

theorem answers_candidate (t : Nat) (h : RxHdr) (prio id : Nat) (s : State) :
    Answers (s.advance t) (execCandidate t h prio id s) := by
  unfold execCandidate
  simp (maxDischargeDepth := 50)

theorem answers_electionClose (t : Nat) (s : State) : Answers (s.advance t) (execElectionClose t s) := by
  unfold execElectionClose
  dsimp only
  (repeat' split) <;> simp (maxDischargeDepth := 50)

theorem answers_neighTable (t : Nat) (h : RxHdr) (sender : Nat) (spare : Bool) (ids : List Nat) (sig : Nat) (s : State) :
    Answers (s.advance t) (execNeighTable t h sender spare ids sig s) := by
  unfold execNeighTable
  simp (maxDischargeDepth := 50)

theorem answers_neighTableDeadline (t : Nat) (s : State) : Answers (s.advance t) (execNeighTableDeadline t s) := by
  unfold execNeighTableDeadline
  simp (maxDischargeDepth := 50)

theorem answers_config (t : Nat) (h : RxHdr) (c : ConfigRec) (s : State) : Answers (s.advance t) (execConfig t h c s) := by
  unfold execConfig
  simp (maxDischargeDepth := 50)

theorem answers_tack (t : Nat) (h : RxHdr) (id sig : Nat) (s : State) : Answers (s.advance t) (execTack t h id sig s) := by
  unfold execTack
  dsimp only
  (repeat' split) <;> simp (maxDischargeDepth := 50)

theorem answers_tackReply (t : Nat) (h : RxHdr) (refused : Bool) (s : State) :
    Answers (s.advance t) (execTackReply t h refused s) := by
  unfold execTackReply
  simp (maxDischargeDepth := 50)

theorem answers_topoConfirm (t : Nat) (h : RxHdr) (sig : Nat) (agree : Bool) (s : State) :
    Answers (s.advance t) (execTopoConfirm t h sig agree s) := by
  unfold execTopoConfirm
  dsimp only
  split <;> simp (maxDischargeDepth := 50)

theorem answers_markCut (t : Nat) (h : RxHdr) (epoch : Nat) (recs : List MendRec) (s : State) :
    Answers (s.advance t) (execMarkCut t h epoch recs s) := by
  unfold execMarkCut
  simp (maxDischargeDepth := 50)

theorem answers_aliasChip (t : Nat) (h : RxHdr) (epoch : Nat) (recs : List MendRec) (s : State) :
    Answers (s.advance t) (execAliasChip t h epoch recs s) := by
  unfold execAliasChip
  simp (maxDischargeDepth := 50)

theorem answers_assignSpare (t : Nat) (h : RxHdr) (epoch : Nat) (recs : List MendRec) (s : State) :
    Answers (s.advance t) (execAssignSpare t h epoch recs s) := by
  unfold execAssignSpare
  simp (maxDischargeDepth := 50)

theorem answers_unreachable (t : Nat) (h : RxHdr) (epoch : Nat) (recs : List MendRec) (s : State) :
    Answers (s.advance t) (execUnreachable t h epoch recs s) := by
  unfold execUnreachable
  simp (maxDischargeDepth := 50)

theorem answers_lostSelf (t : Nat) (h : RxHdr) (epoch : Nat) (recs : List MendRec) (s : State) :
    Answers (s.advance t) (execLostSelf t h epoch recs s) := by
  unfold execLostSelf
  simp (maxDischargeDepth := 50)

theorem answers_epochEnd (t : Nat) (h : RxHdr) (epoch : Nat) (recs : List MendRec) (s : State) :
    Answers (s.advance t) (execEpochEnd t h epoch recs s) := by
  unfold execEpochEnd
  simp (maxDischargeDepth := 50)

theorem answers_bucketQuery (t : Nat) (h : RxHdr) (th : TreeHdr) (s : State) :
    Answers (s.advance t) (execBucketQuery t h th s) := by
  unfold execBucketQuery
  simp (maxDischargeDepth := 50)

theorem answers_bucketStateUp (t : Nat) (h : RxHdr) (th : TreeHdr) (entries : List BucketEntry) (s : State) :
    Answers (s.advance t) (execBucketStateUp t h th entries s) := by
  unfold execBucketStateUp
  simp (maxDischargeDepth := 50)

theorem answers_regen (t : Nat) (h : RxHdr) (th : TreeHdr) (lost adopter : Nat) (s : State) :
    Answers (s.advance t) (execRegen t h th lost adopter s) := by
  unfold execRegen
  simp (maxDischargeDepth := 50)

/-! ### Ports -/

theorem answers_frameCtrl (t : Nat) (h : RxHdr) (nak : Option Nat) (s : State) :
    Answers (s.advance t) (execFrameCtrl t h nak s) := by
  unfold execFrameCtrl
  (repeat' split) <;> simp (maxDischargeDepth := 50)

theorem answers_replayTimeout (t q d : Nat) (s : State) : Answers (s.advance t) (execReplayTimeout t q d s) := by
  unfold execReplayTimeout
  dsimp only
  split <;> simp (maxDischargeDepth := 50)

theorem answers_linkIdleTimeout (t q d : Nat) (s : State) : Answers (s.advance t) (execLinkIdleTimeout t q d s) := by
  unfold execLinkIdleTimeout
  simp (maxDischargeDepth := 50)

theorem answers_pcsAlignLost (t q d : Nat) (s : State) : Answers (s.advance t) (execPcsAlignLost t q d s) := by
  unfold execPcsAlignLost
  simp (maxDischargeDepth := 50)

/-! ### Sites -/

theorem answers_shardHeaderArrive (t : Nat) (h : ShardHeader) (ptp : Nat) (flips : List (Nat × Nat)) (s : State) :
    Answers (s.advance t) (execShardHeaderArrive t h ptp flips s) := by
  unfold execShardHeaderArrive
  simp (maxDischargeDepth := 50)

theorem answers_roundDeadline (t : Nat) (s : State) : Answers (s.advance t) (execRoundDeadline t s) := by
  unfold execRoundDeadline
  simp (maxDischargeDepth := 50)

theorem answers_rttSample (t site sample : Nat) (s : State) : Answers (s.advance t) (execRttSample t site sample s) := by
  unfold execRttSample
  dsimp only
  split <;> simp (maxDischargeDepth := 50)

theorem answers_migKeepaliveTimer (t : Nat) (s : State) : Answers (s.advance t) (execMigKeepaliveTimer t s) := by
  unfold execMigKeepaliveTimer
  simp (maxDischargeDepth := 50)

theorem answers_siteContactTimeout (t site : Nat) (s : State) : Answers (s.advance t) (execSiteContactTimeout t site s) := by
  unfold execSiteContactTimeout
  simp (maxDischargeDepth := 50)

theorem answers_migDatagramRepeat (t : Nat) (s : State) : Answers (s.advance t) (execMigDatagramRepeat t s) := by
  unfold execMigDatagramRepeat
  simp (maxDischargeDepth := 50)

theorem answers_keepalive (t : Nat) (d : DgramHdr) (s : State) : Answers (s.advance t) (execKeepalive t d s) := by
  unfold execKeepalive
  simp (maxDischargeDepth := 50)

theorem answers_migQpError (t q site : Nat) (s : State) : Answers (s.advance t) (execMigQpError t q site s) := by
  unfold execMigQpError
  simp (maxDischargeDepth := 50)

theorem answers_resetQp (t : Nat) (d : DgramHdr) (qpn : Nat) (s : State) : Answers (s.advance t) (execResetQp t d qpn s) := by
  unfold execResetQp
  simp (maxDischargeDepth := 50)

theorem answers_siteState (t : Nat) (d : DgramHdr) (sites side : Nat) (s : State) :
    Answers (s.advance t) (execSiteState t d sites side s) := by
  unfold execSiteState
  simp (maxDischargeDepth := 50)

theorem answers_joinAnnounce (t : Nat) (d : DgramHdr) (s : State) : Answers (s.advance t) (execJoinAnnounce t d s) := by
  unfold execJoinAnnounce
  simp (maxDischargeDepth := 50)

theorem answers_siteDown (t : Nat) (h : RxHdr) (th : TreeHdr) (site state : Nat) (lagging : Bool) (mode round : Nat) (s : State) :
    Answers (s.advance t) (execSiteDown t h th site state lagging mode round s) := by
  unfold execSiteDown
  simp (maxDischargeDepth := 50)

theorem answers_ptpSync (t domain : Nat) (offset : Int) (s : State) : Answers (s.advance t) (execPtpSync t domain offset s) := by
  unfold execPtpSync
  simp (maxDischargeDepth := 50)

theorem answers_ptpSecond (t seconds : Nat) (s : State) : Answers (s.advance t) (execPtpSecond t seconds s) := by
  unfold execPtpSecond
  simp (maxDischargeDepth := 50)

theorem answers_ptpSyncTimeout (t : Nat) (s : State) : Answers (s.advance t) (execPtpSyncTimeout t s) := by
  unfold execPtpSyncTimeout
  dsimp only
  split <;> simp (maxDischargeDepth := 50)

/-! ### Clocks, seams and journals -/

theorem answers_refLost (t q r : Nat) (s : State) : Answers (s.advance t) (execRefLost t q r s) := by
  unfold execRefLost
  simp (maxDischargeDepth := 50)

theorem answers_refQualified (t q r : Nat) (s : State) : Answers (s.advance t) (execRefQualified t q r s) := by
  unfold execRefQualified
  simp (maxDischargeDepth := 50)

theorem answers_refRevert (t q : Nat) (s : State) : Answers (s.advance t) (execRefRevert t q s) := by
  unfold execRefRevert
  simp (maxDischargeDepth := 50)

theorem answers_pllFail (t q : Nat) (s : State) : Answers (s.advance t) (execPllFail t q s) := by
  unfold execPllFail
  simp (maxDischargeDepth := 50)

theorem answers_islandStopped (t : Nat) (s : State) : Answers (s.advance t) (execIslandStopped t s) := by
  unfold execIslandStopped
  simp (maxDischargeDepth := 50)

theorem answers_seamFlitReceive (t i : Nat) (bad : Bool) (s : State) : Answers (s.advance t) (execSeamFlitReceive t i bad s) := by
  unfold execSeamFlitReceive
  simp (maxDischargeDepth := 50)

theorem answers_seamIdleFlit (t i : Nat) (depth : Int) (s : State) : Answers (s.advance t) (execSeamIdleFlit t i depth s) := by
  unfold execSeamIdleFlit
  simp (maxDischargeDepth := 50)

theorem answers_journalFlashProgram (t q : Nat) (s : State) : Answers (s.advance t) (execJournalFlashProgram t q s) := by
  unfold execJournalFlashProgram
  simp (maxDischargeDepth := 50)

theorem answers_journalFlashDone (t q : Nat) (ok : Bool) (s : State) : Answers (s.advance t) (execJournalFlashDone t q ok s) := by
  unfold execJournalFlashDone
  dsimp only
  split <;> simp (maxDischargeDepth := 50)

/-! ### Background work -/

theorem answers_tallySample (t : Nat) (qs : List QuarterSense) (s : State) : Answers (s.advance t) (execTallySample t qs s) := by
  unfold execTallySample
  simp (maxDischargeDepth := 50)

theorem answers_pressLinkMonitor (t q : Nat) (margins : List Nat) (s : State) :
    Answers (s.advance t) (execPressLinkMonitor t q margins s) := by
  unfold execPressLinkMonitor
  simp (maxDischargeDepth := 50)

theorem answers_pressThermal (t q : Nat) (raw : List Int) (ref1 ref2 : Int) (s : State) :
    Answers (s.advance t) (execPressThermal t q raw ref1 ref2 s) := by
  unfold execPressThermal
  simp (maxDischargeDepth := 50)

theorem answers_pressCalRecord (t q : Nat) (temps : List Int) (s : State) :
    Answers (s.advance t) (execPressCalRecord t q temps s) := by
  unfold execPressCalRecord
  simp (maxDischargeDepth := 50)

theorem answers_darnAging (t q : Nat) (losses : List Nat) (cpu life spare erases : Nat) (s : State) :
    Answers (s.advance t) (execDarnAging t q losses cpu life spare erases s) := by
  unfold execDarnAging
  simp (maxDischargeDepth := 50)

/-! ### Power -/

theorem answers_powerContact (t straps : Nat) (s : State) : Answers (s.advance t) (execPowerContact t straps s) := by
  unfold execPowerContact
  simp (maxDischargeDepth := 50)

theorem answers_aonPowerLoss (t : Nat) (s : State) : Answers (s.advance t) (execAonPowerLoss t s) := by
  unfold execAonPowerLoss
  simp (maxDischargeDepth := 50)

theorem answers_pwrEnLow (t : Nat) (s : State) : Answers (s.advance t) (execPwrEnLow t s) := by
  unfold execPwrEnLow
  simp (maxDischargeDepth := 50)

theorem answers_shutdownComplete (t : Nat) (s : State) : Answers (s.advance t) (execShutdownComplete t s) := by
  unfold execShutdownComplete
  simp (maxDischargeDepth := 50)

theorem answers_rampInterlockFail (t flow : Nat) (tInlet : Int) (vin : Nat) (supply return_ : Bool) (s : State) :
    Answers (s.advance t) (execRampInterlockFail t flow tInlet vin supply return_ s) := by
  unfold execRampInterlockFail
  simp (maxDischargeDepth := 50)

theorem answers_tripRelease (t : Nat) (s : State) : Answers (s.advance t) (execTripRelease t s) := by
  unfold execTripRelease
  simp (maxDischargeDepth := 50)

theorem answers_throttleUpdate (t vin iin pavg : Nat) (s : State) :
    Answers (s.advance t) (execThrottleUpdate t vin iin pavg s) := by
  unfold execThrottleUpdate
  simp (maxDischargeDepth := 50)

theorem answers_vRange (t vin : Nat) (s : State) : Answers (s.advance t) (execVRange t vin s) := by
  unfold execVRange
  simp (maxDischargeDepth := 50)

theorem answers_coolantSample (t flow : Nat) (tInlet tOutlet : Int) (s : State) :
    Answers (s.advance t) (execCoolantSample t flow tInlet tOutlet s) := by
  unfold execCoolantSample
  simp (maxDischargeDepth := 50)

theorem answers_thermalLimitUpdate (t : Nat) (die dram : List Int) (s : State) :
    Answers (s.advance t) (execThermalLimitUpdate t die dram s) := by
  unfold execThermalLimitUpdate
  simp (maxDischargeDepth := 50)

theorem answers_smbPstat (t : Nat) (s : State) : Answers (s.advance t) (execSmbPstat t s) := by
  unfold execSmbPstat
  simp (maxDischargeDepth := 50)

theorem answers_smbRegAddr (t v : Nat) (pec : Bool) (s : State) : Answers (s.advance t) (execSmbRegAddr t v pec s) := by
  unfold execSmbRegAddr
  simp (maxDischargeDepth := 50)

theorem answers_smbAlertResponse (t : Nat) (s : State) : Answers (s.advance t) (execSmbAlertResponse t s) := by
  unfold execSmbAlertResponse
  simp (maxDischargeDepth := 50)

theorem answers_smbClockLowReset (t : Nat) (s : State) : Answers (s.advance t) (execSmbClockLowReset t s) := by
  unfold execSmbClockLowReset
  simp (maxDischargeDepth := 50)

/-! ### Starts -/

theorem answers_startPhaseFail (t cause q unit : Nat) (s : State) :
    Answers (s.advance t) (execStartPhaseFail t cause q unit s) := by
  unfold execStartPhaseFail
  simp (maxDischargeDepth := 50)

theorem answers_rampStart (t straps flow : Nat) (tInlet : Int) (vin : Nat) (s : State) :
    Answers (s.advance t) (execRampStart t straps flow tInlet vin s) := by
  unfold execRampStart
  simp (maxDischargeDepth := 50)

theorem answers_startRetry (t : Nat) (up0 up1 : Bool) (s : State) : Answers (s.advance t) (execStartRetry t up0 up1 s) := by
  unfold execStartRetry
  dsimp only
  (repeat' split) <;> simp (maxDischargeDepth := 50)

theorem answers_trip (t cause q unit : Nat) (s : State) : Answers (s.advance t) (execTrip t cause q unit s) := by
  unfold execTrip
  simp (maxDischargeDepth := 50)

theorem answers_unpickDrainDone (t : Nat) (flips : List (Nat × Nat)) (s : State) :
    Answers (s.advance t) (execUnpickDrainDone t flips s) := by
  unfold execUnpickDrainDone
  dsimp only
  split <;> simp (maxDischargeDepth := 50)

theorem answers_unpickTransferDone (t : Nat) (s : State) : Answers (s.advance t) (execUnpickTransferDone t s) := by
  unfold execUnpickTransferDone
  dsimp only
  split <;> simp (maxDischargeDepth := 50)

theorem answers_cutSelf (t : Nat) (h : RxHdr) (epoch : Nat) (recs : List MendRec) (s : State) :
    Answers (s.advance t) (execCutSelf t h epoch recs s) := by
  unfold execCutSelf
  simp (maxDischargeDepth := 50)

theorem answers_reportUp (t : Nat) (h : RxHdr) (th : TreeHdr) (kind subject value : Nat) (s : State) :
    Answers (s.advance t) (execReportUp t h th kind subject value s) := by
  unfold execReportUp
  simp (maxDischargeDepth := 50)

theorem answers_leadAnswer (t : Nat) (h : RxHdr) (th : TreeHdr) (kind : Nat) (refused : Bool) (subject answer : Nat) (s : State) :
    Answers (s.advance t) (execLeadAnswer t h th kind refused subject answer s) := by
  unfold execLeadAnswer
  dsimp only
  (repeat' split) <;> simp (maxDischargeDepth := 50)

/-! ### Service cores and harts -/

theorem answers_tileWatchdog (t q p a : Nat) (s : State) : Answers (s.advance t) (execTileWatchdog t q p a s) := by
  unfold execTileWatchdog
  dsimp only
  split <;> simp (maxDischargeDepth := 50)

theorem answers_engineWatchdog (t q n paused : Nat) (s : State) : Answers (s.advance t) (execEngineWatchdog t q n paused s) := by
  unfold execEngineWatchdog
  dsimp only
  split <;> simp (maxDischargeDepth := 50)

theorem answers_serviceHeartbeatTimer (t : Nat) (s : State) : Answers (s.advance t) (execServiceHeartbeatTimer t s) := by
  unfold execServiceHeartbeatTimer
  simp (maxDischargeDepth := 50)

theorem answers_cpWatchdog (t q i : Nat) (s : State) : Answers (s.advance t) (execCpWatchdog t q i s) := by
  unfold execCpWatchdog
  simp (maxDischargeDepth := 50)

theorem answers_cpWatchdogKick (t q i : Nat) (s : State) : Answers (s.advance t) (execCpWatchdogKick t q i s) := by
  unfold execCpWatchdogKick
  simp (maxDischargeDepth := 50)

/-! ### Waiting accesses -/

theorem answers_islandRun (t : Nat) (s : State) : Answers (s.advance t) (execIslandRun t s) := by
  unfold execIslandRun
  simp (maxDischargeDepth := 50)

theorem answers_startPhaseComplete (t : Nat) (x : StartFound) (s : State) :
    Answers (s.advance t) (execStartPhaseComplete t x s) := by
  unfold execStartPhaseComplete
  simp (maxDischargeDepth := 50)

theorem answers_journalHoldTimeout (t q : Nat) (s : State) : Answers (s.advance t) (execJournalHoldTimeout t q s) := by
  unfold execJournalHoldTimeout
  dsimp only
  split <;> simp (maxDischargeDepth := 50)

theorem answers_journalHoldRelease (t q : Nat) (s : State) : Answers (s.advance t) (execJournalHoldRelease t q s) := by
  unfold execJournalHoldRelease
  dsimp only
  split <;> simp (maxDischargeDepth := 50)

theorem answers_leaseWriteAccept (t : Nat) (s : State) : Answers (s.advance t) (execLeaseWriteAccept t s) := by
  unfold execLeaseWriteAccept
  dsimp only
  split <;> simp (maxDischargeDepth := 50)

theorem answers_serviceFailover (t : Nat) (failed : Bool) (s : State) :
    Answers (s.advance t) (execServiceFailover t failed s) := by
  unfold execServiceFailover
  simp (maxDischargeDepth := 50)

/-! ### Remote accesses -/

theorem answers_frameWrite (t : Nat) (h : RxHdr) (seg : Nat) (rsig : Bool) (bytes : List (Byte × Bool)) (s : State) :
    Answers (s.advance t) (execFrameWrite t h seg rsig bytes s) := by
  unfold execFrameWrite
  dsimp only
  (repeat' split) <;> simp (maxDischargeDepth := 50)

theorem answers_frameReadReq (t : Nat) (h : RxHdr) (seg len ret : Nat) (flips : List (Nat × Nat)) (s : State) :
    Answers (s.advance t) (execFrameReadReq t h seg len ret flips s) := by
  unfold execFrameReadReq
  dsimp only
  (repeat' split) <;> simp (maxDischargeDepth := 50)

theorem answers_migrationQpRequest (t q site seg vl addr : Nat) (req : SiteRequest) (flips : List (Nat × Nat)) (s : State) :
    Answers (s.advance t) (execMigrationQpRequest t q site seg vl addr req flips s) := by
  unfold execMigrationQpRequest
  dsimp only
  (repeat' split) <;> simp (maxDischargeDepth := 50)

/-! ### Hosts -/

theorem answers_hostMemWrite (t port i psn rkey a : Nat) (bytes : List Byte) (ce : Bool) (s : State) :
    Answers (s.advance t) (execHostMemWrite t port i psn rkey a bytes ce s) := by
  unfold execHostMemWrite
  simp (maxDischargeDepth := 50)

theorem answers_hostMemRead (t port i psn rkey a len : Nat) (ce : Bool) (flips : List (Nat × Nat)) (s : State) :
    Answers (s.advance t) (execHostMemRead t port i psn rkey a len ce flips s) := by
  unfold execHostMemRead
  simp (maxDischargeDepth := 50)

theorem answers_hostRegWrite (t port i psn rkey a : Nat) (bytes : List Byte) (ce : Bool) (s : State) :
    Answers (s.advance t) (execHostRegWrite t port i psn rkey a bytes ce s) := by
  unfold execHostRegWrite
  simp (maxDischargeDepth := 50)

theorem answers_hostRegRead (t port i psn rkey a len : Nat) (ce : Bool) (s : State) :
    Answers (s.advance t) (execHostRegRead t port i psn rkey a len ce s) := by
  unfold execHostRegRead
  simp (maxDischargeDepth := 50)

theorem answers_hostFetchAdd (t port i psn rkey a v : Nat) (ce : Bool) (flips : List (Nat × Nat)) (s : State) :
    Answers (s.advance t) (execHostFetchAdd t port i psn rkey a v ce flips s) := by
  unfold execHostFetchAdd
  simp (maxDischargeDepth := 50)

theorem answers_hostDoorbell (t port i psn rkey a : Nat) (bytes : List Byte) (imm : Word) (ce : Bool) (s : State) :
    Answers (s.advance t) (execHostDoorbell t port i psn rkey a bytes imm ce s) := by
  unfold execHostDoorbell
  simp (maxDischargeDepth := 50)

theorem answers_hostQpError (t port i : Nat) (s : State) : Answers (s.advance t) (execHostQpError t port i s) := by
  unfold execHostQpError
  simp (maxDischargeDepth := 50)

theorem answers_cmConnectRequest (t port role session mtu psn peer timeout retries rnr : Nat) (zero : Bool) (s : State) :
    Answers (s.advance t) (execCmConnectRequest t port role session mtu psn peer timeout retries rnr zero s) := by
  unfold execCmConnectRequest
  dsimp only
  (repeat' split) <;> simp (maxDischargeDepth := 50)

theorem answers_cmDisconnectRequest (t port i : Nat) (s : State) :
    Answers (s.advance t) (execCmDisconnectRequest t port i s) := by
  unfold execCmDisconnectRequest
  simp (maxDischargeDepth := 50)

theorem answers_identify (t port code nonce : Nat) (s : State) : Answers (s.advance t) (execIdentify t port code nonce s) := by
  unfold execIdentify
  simp (maxDischargeDepth := 50)

theorem answers_neighborSolicit (t port addr : Nat) (v4 : Bool) (s : State) :
    Answers (s.advance t) (execNeighborSolicit t port addr v4 s) := by
  unfold execNeighborSolicit
  simp (maxDischargeDepth := 50)

theorem answers_routerAdvertisement (t port net : Nat) (s : State) :
    Answers (s.advance t) (execRouterAdvertisement t port net s) := by
  unfold execRouterAdvertisement
  simp (maxDischargeDepth := 50)

theorem answers_dhcpv4Reply (t port addr : Nat) (s : State) : Answers (s.advance t) (execDhcpv4Reply t port addr s) := by
  unfold execDhcpv4Reply
  simp (maxDischargeDepth := 50)

theorem answers_sitePortLinkUp (t port : Nat) (s : State) : Answers (s.advance t) (execSitePortLinkUp t port s) := by
  unfold execSitePortLinkUp
  simp (maxDischargeDepth := 50)

theorem answers_sitePortLinkDown (t port : Nat) (s : State) : Answers (s.advance t) (execSitePortLinkDown t port s) := by
  unfold execSitePortLinkDown
  simp (maxDischargeDepth := 50)

theorem answers_pfcPauseFrame (t port mask : Nat) (s : State) : Answers (s.advance t) (execPfcPauseFrame t port mask s) := by
  unfold execPfcPauseFrame
  simp (maxDischargeDepth := 50)

theorem answers_cnpReceive (t port i : Nat) (within ce : Bool) (s : State) :
    Answers (s.advance t) (execCnpReceive t port i within ce s) := by
  unfold execCnpReceive
  dsimp only
  (repeat' split) <;> simp (maxDischargeDepth := 50)

theorem answers_ecnRateTimer (t port i : Nat) (s : State) : Answers (s.advance t) (execEcnRateTimer t port i s) := by
  unfold execEcnRateTimer
  dsimp only
  split <;> simp (maxDischargeDepth := 50)

theorem answers_eventRecordSend (t n : Nat) (s : State) : Answers (s.advance t) (execEventRecordSend t n s) := by
  unfold execEventRecordSend
  dsimp only
  (repeat' split) <;> simp (maxDischargeDepth := 50)

theorem answers_eventProdAck (t n prod : Nat) (s : State) : Answers (s.advance t) (execEventProdAck t n prod s) := by
  unfold execEventProdAck
  dsimp only
  (repeat' split) <;> simp (maxDischargeDepth := 50)

theorem answers_eventConsReread (t n : Nat) (answer : Option Nat) (s : State) :
    Answers (s.advance t) (execEventConsReread t n answer s) := by
  unfold execEventConsReread
  dsimp only
  (repeat' split) <;> simp (maxDischargeDepth := 50)

theorem answers_eventQpDown (t n : Nat) (s : State) : Answers (s.advance t) (execEventQpDown t n s) := by
  unfold execEventQpDown
  simp (maxDischargeDepth := 50)

theorem answers_smbRegRead (t : Nat) (s : State) : Answers (s.advance t) (execSmbRegRead t s) := by
  unfold execSmbRegRead
  simp (maxDischargeDepth := 50)

theorem answers_smbRegWrite (t : Nat) (v : Word) (pec : Bool) (s : State) :
    Answers (s.advance t) (execSmbRegWrite t v pec s) := by
  unfold execSmbRegWrite
  simp (maxDischargeDepth := 50)

/-! ### Sessions -/

theorem answers_spdmGetVersion (t port i : Nat) (s : State) : Answers (s.advance t) (execSpdmGetVersion t port i s) := by
  unfold execSpdmGetVersion
  simp (maxDischargeDepth := 50)

theorem answers_spdmGetCapabilities (t port i ver : Nat) (s : State) :
    Answers (s.advance t) (execSpdmGetCapabilities t port i ver s) := by
  unfold execSpdmGetCapabilities
  simp (maxDischargeDepth := 50)

theorem answers_spdmNegotiateAlgorithms (t port i ver : Nat) (offered : Bool) (s : State) :
    Answers (s.advance t) (execSpdmNegotiateAlgorithms t port i ver offered s) := by
  unfold execSpdmNegotiateAlgorithms
  simp (maxDischargeDepth := 50)

theorem answers_spdmGetDigests (t port i ver : Nat) (s : State) : Answers (s.advance t) (execSpdmGetDigests t port i ver s) := by
  unfold execSpdmGetDigests
  simp (maxDischargeDepth := 50)

theorem answers_spdmGetCertificate (t port i ver slot offset length : Nat) (s : State) :
    Answers (s.advance t) (execSpdmGetCertificate t port i ver slot offset length s) := by
  unfold execSpdmGetCertificate
  simp (maxDischargeDepth := 50)

theorem answers_spdmChallenge (t port i ver slot : Nat) (nonce : List Byte) (s : State) :
    Answers (s.advance t) (execSpdmChallenge t port i ver slot nonce s) := by
  unfold execSpdmChallenge
  simp (maxDischargeDepth := 50)

theorem answers_spdmGetMeasurements (t port i ver index : Nat) (signed : Bool) (nonce : List Byte) (s : State) :
    Answers (s.advance t) (execSpdmGetMeasurements t port i ver index signed nonce s) := by
  unfold execSpdmGetMeasurements
  simp (maxDischargeDepth := 50)

theorem answers_spdmKeyExchange (t port i ver slot : Nat) (request : List Byte) (s : State) :
    Answers (s.advance t) (execSpdmKeyExchange t port i ver slot request s) := by
  unfold execSpdmKeyExchange
  simp (maxDischargeDepth := 50)

theorem answers_spdmFinish (t session : Nat) (leaf : Option (BitVec 384)) (ok : Bool) (s : State) :
    Answers (s.advance t) (execSpdmFinish t session leaf ok s) := by
  unfold execSpdmFinish
  dsimp only
  split <;> simp (maxDischargeDepth := 50)

theorem answers_spdmHeartbeat (t session : Nat) (s : State) : Answers (s.advance t) (execSpdmHeartbeat t session s) := by
  unfold execSpdmHeartbeat
  simp (maxDischargeDepth := 50)

theorem answers_spdmKeyUpdate (t session op : Nat) (s : State) : Answers (s.advance t) (execSpdmKeyUpdate t session op s) := by
  unfold execSpdmKeyUpdate
  simp (maxDischargeDepth := 50)

theorem answers_spdmEndSession (t session : Nat) (s : State) : Answers (s.advance t) (execSpdmEndSession t session s) := by
  unfold execSpdmEndSession
  simp (maxDischargeDepth := 50)

theorem answers_spdmHeartbeatTimeout (t session : Nat) (s : State) :
    Answers (s.advance t) (execSpdmHeartbeatTimeout t session s) := by
  unfold execSpdmHeartbeatTimeout
  simp (maxDischargeDepth := 50)

theorem answers_claimOwner (t session : Nat) (s : State) : Answers (s.advance t) (execClaimOwner t session s) := by
  unfold execClaimOwner
  refine answers_done (keeps_inSession _ _ (fun x u => ?_) (.refl _))
  (repeat' split) <;> simp (maxDischargeDepth := 50)

theorem answers_releaseOwner (t session : Nat) (s : State) : Answers (s.advance t) (execReleaseOwner t session s) := by
  unfold execReleaseOwner
  simp (maxDischargeDepth := 50)

theorem answers_getReport (t session nonce : Nat) (s : State) : Answers (s.advance t) (execGetReport t session nonce s) := by
  unfold execGetReport
  simp (maxDischargeDepth := 50)

theorem answers_fwStage (t session a len : Nat) (rsa slh digest written : Bool) (flips : List (Nat × Nat)) (s : State) :
    Answers (s.advance t) (execFwStage t session a len rsa slh digest written flips s) := by
  unfold execFwStage
  simp (maxDischargeDepth := 50)

theorem answers_fwRaiseFloor (t session cls floor : Nat) (written : Bool) (s : State) :
    Answers (s.advance t) (execFwRaiseFloor t session cls floor written s) := by
  unfold execFwRaiseFloor
  simp (maxDischargeDepth := 50)

/-! ### All commands -/

/-- Whatever command runs, its answer keeps what the state brought to its stamp held. -/
theorem answers_exec (c : Instr) (s : State) : Answers (s.advance c.stamp) (exec c s) := by
  cases c with
  | registerWrite | evtStsClear | evtForce | evtEnWrite | pageQuiesce | pageEnable | pageDisable | arrayResume | ringTailWrite |
    ringCfgWrite | signalCounterWrite | engineResume | engineRetry | stepCountWrite | leaseClaim | leaseRelease | leaseRangeWrite
    | collTopologyWrite | linkCheckStart | repairGo | portDisable | discoveryStart | ptApply | podCmdCut | eventRingEnable |
    eventRingQpnWrite | islandStop | islandStart | pwrOff | bootCold | bootWarm | bootUnpick | cpHalt | cpReset =>
    exact answers_writeRow _ _ _ _ _ _ _ (.refl _)
  | vecAdd | vecSub | vecMul | vecFma | vecMax | vecMin | vecAxpb | vecActivation | vecRecip | vecRsqrt | vecLog |
    vecActivationBackward | vecRowSum | vecRowMax | vecRowSumsq | vecRowDot | vecRowLse | vecLnFwd | vecRmsFwd | vecSoftmaxFwd |
    vecLnBwd | vecRmsBwd | vecSoftmaxBwd | vecSoftmaxBwdL | vecLnBwdRc | vecRmsBwdRc | vecSoftmaxBwdRc =>
    exact answers_done (keeps_runVec _ _ _ _ (.refl _))
  | updateAdamw | updateAdamwFact | updateSgdm | updateCustom =>
    exact answers_done (keeps_runUpdate _ _ _ (keeps_upset _ (.refl _)))
  | reduceScatter | allGather =>
    exact answers_done (keeps_runColl _ _ _ (.refl _))
  | tileAccept t q slot arr late drains flips => exact answers_tileAccept t q slot arr late drains flips s
  | tileComplete t q slot arr corrected badRows badCols badLines badA badB =>
    exact answers_tileComplete t q slot arr corrected badRows badCols badLines badA badB s
  | mangleClaimGrant t q => exact answers_mangleClaimGrant t q s
  | mangleStreamDone t q m => exact answers_mangleStreamDone t q m s
  | foldAccessGrant t q bank sub arrivals flips => exact answers_foldAccessGrant t q bank sub arrivals flips s
  | foldRequestPromote t q off num => exact answers_foldRequestPromote t q off num s
  | foldReadComplete t q off => exact answers_foldReadComplete t q off s
  | foldScrubCycle t q bank sub flips => exact answers_foldScrubCycle t q bank sub flips s
  | queueFetch t q n => exact answers_queueFetch t q n s
  | queueFetchArrive t q n => exact answers_queueFetchArrive t q n s
  | qctlWaitGe t q n => exact answers_qctlWaitGe t q n s
  | qctlTake t q n => exact answers_qctlTake t q n s
  | qctlAdd t q n => exact answers_qctlAdd t q n s
  | qctlClear t q n => exact answers_qctlClear t q n s
  | descriptorSignal t q n => exact answers_descriptorSignal t q n s
  | convert t q e flips => exact answers_convert t q e flips s
  | convertHandoff t q e between flips => exact answers_convertHandoff t q e between flips s
  | transpose t q m flips => exact answers_transpose t q m flips s
  | sorterDump t q so => exact answers_sorterDump t q so s
  | digest t q g flips => exact answers_digest t q g flips s
  | compress t q g flips => exact answers_compress t q g flips s
  | streamerCopy t q e => exact answers_streamerCopy t q e s
  | streamerFill t q e => exact answers_streamerFill t q e s
  | streamerSegmentComplete t q e seq idx site lost flips => exact answers_streamerSegmentComplete t q e seq idx site lost flips s
  | shipStep t q => exact answers_shipStep t q s
  | shipStepSend t q site flips => exact answers_shipStepSend t q site flips s
  | shipStepDone t q site => exact answers_shipStepDone t q site s
  | shipFull t q site flips => exact answers_shipFull t q site flips s
  | exportConsReread t q site => exact answers_exportConsReread t q site s
  | verdictOp t q flips => exact answers_verdictOp t q flips s
  | stepBoundary t => exact answers_stepBoundary t s
  | verdictUp t h th nf force contrib sumsq => exact answers_verdictUp t h th nf force contrib sumsq s
  | verdictDown t h th verdict vnorm clip => exact answers_verdictDown t h th verdict vnorm clip s
  | updateParityResume t q u => exact answers_updateParityResume t q u s
  | exportLag t q u => exact answers_exportLag t q u s
  | modulePrepared t => exact answers_modulePrepared t s
  | preparedUp t h th count present nz => exact answers_preparedUp t h th count present nz s
  | commitDown t h th time present nz => exact answers_commitDown t h th time present nz s
  | digestUp t h th entries => exact answers_digestUp t h th entries s
  | digestDown t h th entries => exact answers_digestDown t h th entries s
  | replicaMendDone t index bytes outer => exact answers_replicaMendDone t index bytes outer s
  | leaseGrant t n => exact answers_leaseGrant t n s
  | leaseWriteAccept t => exact answers_leaseWriteAccept t s
  | leaseStale t => exact answers_leaseStale t s
  | collReadyReceive t h c => exact answers_collReadyReceive t h c s
  | collSegmentSend t q tag part dir => exact answers_collSegmentSend t q tag part dir s
  | collSegmentReceive t h c bytes flips => exact answers_collSegmentReceive t h c bytes flips s
  | collWait t q tag part dir => exact answers_collWait t q tag part dir s
  | checkLinks t from_ arrived elsewhere => exact answers_checkLinks t from_ arrived elsewhere s
  | mismatchUp t h th total entries => exact answers_mismatchUp t h th total entries s
  | heartbeat t h th time => exact answers_heartbeat t h th time s
  | regen t h th lost adopter => exact answers_regen t h th lost adopter s
  | bucketQuery t h th => exact answers_bucketQuery t h th s
  | bucketStateUp t h th entries => exact answers_bucketStateUp t h th entries s
  | reportUp t h th kind subject value => exact answers_reportUp t h th kind subject value s
  | leadAnswer t h th kind refused subject answer => exact answers_leadAnswer t h th kind refused subject answer s
  | siteDown t h th site state lagging mode round => exact answers_siteDown t h th site state lagging mode round s
  | memRequest t pq port addr isWrite bytes => exact answers_memRequest t pq port addr isWrite bytes s
  | memAccept t addr => exact answers_memAccept t addr s
  | memAccessComplete t addr flips => exact answers_memAccessComplete t addr flips s
  | pageMendDone t page lines => exact answers_pageMendDone t page lines s
  | repairCopyDone t q slot => exact answers_repairCopyDone t q slot s
  | refreshSlot t q slot pc => exact answers_refreshSlot t q slot pc s
  | rinseSlot t q slot pc flips => exact answers_rinseSlot t q slot pc flips s
  | pressSlot t q slot pc grp moves margins => exact answers_pressSlot t q slot pc grp moves margins s
  | retainBreak t q d => exact answers_retainBreak t q d s
  | seamFlitReceive t idx bad => exact answers_seamFlitReceive t idx bad s
  | seamIdleFlit t idx depth => exact answers_seamIdleFlit t idx depth s
  | frameSend t q d => exact answers_frameSend t q d s
  | frameWrite t h seg rsig bytes => exact answers_frameWrite t h seg rsig bytes s
  | frameReadReq t h seg len ret flips => exact answers_frameReadReq t h seg len ret flips s
  | frameReadResp t h seg error bytes => exact answers_frameReadResp t h seg error bytes s
  | frameSig t h counter quarter amount => exact answers_frameSig t h counter quarter amount s
  | frameCtrl t h nak => exact answers_frameCtrl t h nak s
  | creditReturnTimer t q d => exact answers_creditReturnTimer t q d s
  | ctrlKeepaliveSend t q d => exact answers_ctrlKeepaliveSend t q d s
  | replayTimeout t q d => exact answers_replayTimeout t q d s
  | linkIdleTimeout t q d => exact answers_linkIdleTimeout t q d s
  | pcsAlignLost t q d => exact answers_pcsAlignLost t q d s
  | linkTrained t q d lanes => exact answers_linkTrained t q d lanes s
  | podTimeSyncTimer t => exact answers_podTimeSyncTimer t s
  | linkDelayTimer t => exact answers_linkDelayTimer t s
  | syncReq t h ta seq state => exact answers_syncReq t h ta seq state s
  | syncResp t h ta tb tc seq state => exact answers_syncResp t h ta tb tc seq state s
  | linkReq t h ta seq state => exact answers_linkReq t h ta seq state s
  | linkResp t h ta tb tc seq state => exact answers_linkResp t h ta tb tc seq state s
  | joinResp t h ta tb tc seq state => exact answers_joinResp t h ta tb tc seq state s
  | hello t h id quarter direction spare inPod term => exact answers_hello t h id quarter direction spare inPod term s
  | candidate t h prio id => exact answers_candidate t h prio id s
  | electionClose t => exact answers_electionClose t s
  | neighTable t h sender spare ids sig => exact answers_neighTable t h sender spare ids sig s
  | config t h c => exact answers_config t h c s
  | tack t h id sig => exact answers_tack t h id sig s
  | tackReply t h refused => exact answers_tackReply t h refused s
  | topoConfirm t h sig agree => exact answers_topoConfirm t h sig agree s
  | leadProbe t h term => exact answers_leadProbe t h term s
  | probeAnswer t h term last none_ => exact answers_probeAnswer t h term last none_ s
  | leadHeartbeatTimer t => exact answers_leadHeartbeatTimer t s
  | standbyLeadTimeout t => exact answers_standbyLeadTimeout t s
  | probeWindowExpire t => exact answers_probeWindowExpire t s
  | cutSelf t h epoch recs => exact answers_cutSelf t h epoch recs s
  | markCut t h epoch recs => exact answers_markCut t h epoch recs s
  | aliasChip t h epoch recs => exact answers_aliasChip t h epoch recs s
  | assignSpare t h epoch recs => exact answers_assignSpare t h epoch recs s
  | unreachable t h epoch recs => exact answers_unreachable t h epoch recs s
  | lostSelf t h epoch recs => exact answers_lostSelf t h epoch recs s
  | epochEnd t h epoch recs => exact answers_epochEnd t h epoch recs s
  | shardHeaderArrive t h ptp flips => exact answers_shardHeaderArrive t h ptp flips s
  | roundDeadline t => exact answers_roundDeadline t s
  | rttSample t site sample => exact answers_rttSample t site sample s
  | migKeepaliveTimer t => exact answers_migKeepaliveTimer t s
  | siteContactTimeout t site => exact answers_siteContactTimeout t site s
  | migDatagramRepeat t => exact answers_migDatagramRepeat t s
  | keepalive t d => exact answers_keepalive t d s
  | migQpError t q site => exact answers_migQpError t q site s
  | resetQp t d qpn => exact answers_resetQp t d qpn s
  | siteState t d sites side => exact answers_siteState t d sites side s
  | joinAnnounce t d => exact answers_joinAnnounce t d s
  | ptpSync t domain offset => exact answers_ptpSync t domain offset s
  | ptpSecond t seconds => exact answers_ptpSecond t seconds s
  | ptpSyncTimeout t => exact answers_ptpSyncTimeout t s
  | cmConnectRequest t port role session mtu psn peer timeout retries rnr zero =>
    exact answers_cmConnectRequest t port role session mtu psn peer timeout retries rnr zero s
  | claimOwner t session => exact answers_claimOwner t session s
  | releaseOwner t session => exact answers_releaseOwner t session s
  | hostMemWrite t port idx psn rkey a bytes ce => exact answers_hostMemWrite t port idx psn rkey a bytes ce s
  | hostMemRead t port idx psn rkey a len ce flips => exact answers_hostMemRead t port idx psn rkey a len ce flips s
  | hostRegWrite t port idx psn rkey a bytes ce => exact answers_hostRegWrite t port idx psn rkey a bytes ce s
  | hostRegRead t port idx psn rkey a len ce => exact answers_hostRegRead t port idx psn rkey a len ce s
  | hostFetchAdd t port idx psn rkey a v ce flips => exact answers_hostFetchAdd t port idx psn rkey a v ce flips s
  | hostDoorbell t port idx psn rkey a bytes imm ce => exact answers_hostDoorbell t port idx psn rkey a bytes imm ce s
  | hostQpError t port idx => exact answers_hostQpError t port idx s
  | identify t port code nonce => exact answers_identify t port code nonce s
  | neighborSolicit t port addr v4 => exact answers_neighborSolicit t port addr v4 s
  | cnpReceive t port idx within ce => exact answers_cnpReceive t port idx within ce s
  | ecnRateTimer t port idx => exact answers_ecnRateTimer t port idx s
  | eventRecordSend t n => exact answers_eventRecordSend t n s
  | eventProdAck t n prod => exact answers_eventProdAck t n prod s
  | eventConsReread t n answer => exact answers_eventConsReread t n answer s
  | eventQpDown t n => exact answers_eventQpDown t n s
  | refLost t q r => exact answers_refLost t q r s
  | refQualified t q r => exact answers_refQualified t q r s
  | refRevert t q => exact answers_refRevert t q s
  | pllFail t q => exact answers_pllFail t q s
  | islandStopped t => exact answers_islandStopped t s
  | islandRun t => exact answers_islandRun t s
  | journalFlashProgram t q => exact answers_journalFlashProgram t q s
  | journalFlashDone t q ok => exact answers_journalFlashDone t q ok s
  | journalHoldTimeout t q => exact answers_journalHoldTimeout t q s
  | journalHoldRelease t q => exact answers_journalHoldRelease t q s
  | tallySample t qs => exact answers_tallySample t qs s
  | pressLinkMonitor t q margins => exact answers_pressLinkMonitor t q margins s
  | pressThermal t q raw ref1 ref2 => exact answers_pressThermal t q raw ref1 ref2 s
  | pressCalRecord t q temps => exact answers_pressCalRecord t q temps s
  | darnAging t q losses cpu life spare erases => exact answers_darnAging t q losses cpu life spare erases s
  | powerContact t straps => exact answers_powerContact t straps s
  | rampStart t straps flow tInlet vin => exact answers_rampStart t straps flow tInlet vin s
  | rampInterlockFail t flow tInlet vin supply return_ => exact answers_rampInterlockFail t flow tInlet vin supply return_ s
  | pwrEnLow t => exact answers_pwrEnLow t s
  | shutdownComplete t => exact answers_shutdownComplete t s
  | throttleUpdate t vin iin pavg => exact answers_throttleUpdate t vin iin pavg s
  | vRange t vin => exact answers_vRange t vin s
  | coolantSample t flow tInlet tOutlet => exact answers_coolantSample t flow tInlet tOutlet s
  | thermalLimitUpdate t die dram => exact answers_thermalLimitUpdate t die dram s
  | trip t cause q unit => exact answers_trip t cause q unit s
  | tripRelease t => exact answers_tripRelease t s
  | smbPstat t => exact answers_smbPstat t s
  | smbRegAddr t v pec => exact answers_smbRegAddr t v pec s
  | smbRegRead t => exact answers_smbRegRead t s
  | smbRegWrite t v pec => exact answers_smbRegWrite t v pec s
  | smbAlertResponse t => exact answers_smbAlertResponse t s
  | smbClockLowReset t => exact answers_smbClockLowReset t s
  | unpickDrainDone t flips => exact answers_unpickDrainDone t flips s
  | unpickTransferDone t => exact answers_unpickTransferDone t s
  | startPhaseComplete t x => exact answers_startPhaseComplete t x s
  | startPhaseFail t cause q unit => exact answers_startPhaseFail t cause q unit s
  | startRetry t up0 up1 => exact answers_startRetry t up0 up1 s
  | tileWatchdog t q p a => exact answers_tileWatchdog t q p a s
  | engineWatchdog t q n paused => exact answers_engineWatchdog t q n paused s
  | serviceHeartbeatTimer t => exact answers_serviceHeartbeatTimer t s
  | serviceFailover t failed => exact answers_serviceFailover t failed s
  | cpWatchdog t q idx => exact answers_cpWatchdog t q idx s
  | cpWatchdogKick t q idx => exact answers_cpWatchdogKick t q idx s
  | spdmGetVersion t port idx => exact answers_spdmGetVersion t port idx s
  | spdmGetCapabilities t port idx ver => exact answers_spdmGetCapabilities t port idx ver s
  | spdmNegotiateAlgorithms t port idx ver offered => exact answers_spdmNegotiateAlgorithms t port idx ver offered s
  | spdmGetDigests t port idx ver => exact answers_spdmGetDigests t port idx ver s
  | spdmGetCertificate t port idx ver slot offset length => exact answers_spdmGetCertificate t port idx ver slot offset length s
  | spdmChallenge t port idx ver slot nonce => exact answers_spdmChallenge t port idx ver slot nonce s
  | spdmGetMeasurements t port idx ver index signed nonce => exact answers_spdmGetMeasurements t port idx ver index signed nonce s
  | spdmKeyExchange t port idx ver slot request => exact answers_spdmKeyExchange t port idx ver slot request s
  | spdmFinish t session leaf ok => exact answers_spdmFinish t session leaf ok s
  | spdmHeartbeat t session => exact answers_spdmHeartbeat t session s
  | spdmKeyUpdate t session op => exact answers_spdmKeyUpdate t session op s
  | spdmEndSession t session => exact answers_spdmEndSession t session s
  | spdmHeartbeatTimeout t session => exact answers_spdmHeartbeatTimeout t session s
  | getReport t session nonce => exact answers_getReport t session nonce s
  | fwStage t session a len rsa slh digest written flips => exact answers_fwStage t session a len rsa slh digest written flips s
  | fwRaiseFloor t session cls floor written => exact answers_fwRaiseFloor t session cls floor written s
  | sitePortLinkDown t port => exact answers_sitePortLinkDown t port s
  | sitePortLinkUp t port => exact answers_sitePortLinkUp t port s
  | routerAdvertisement t port net => exact answers_routerAdvertisement t port net s
  | dhcpv4Reply t port addr => exact answers_dhcpv4Reply t port addr s
  | migrationQpRequest t q site seg vl addr req flips => exact answers_migrationQpRequest t q site seg vl addr req flips s
  | pfcPauseFrame t port mask => exact answers_pfcPauseFrame t port mask s
  | cmDisconnectRequest t port idx => exact answers_cmDisconnectRequest t port idx s
  | neighTableDeadline t => exact answers_neighTableDeadline t s
  | aonPowerLoss t => exact answers_aonPowerLoss t s

/-- Whatever next state a command answers, it keeps what the state it ran on held, at the later of the command's stamp and the
state's time. -/
theorem exec_keeps {c : Instr} {s u : State} (h : exec c s = .next u) : Keeps { s with now := max s.now c.stamp } u :=
  (keeps_advance s c.stamp).trans (answers_exec c s u h)

/-- Settles O5: a step idles, or runs a command, which keeps soundness. -/
theorem stepsKeepSound : Obligations.StepsKeepSound := by
  intro s u hs h
  unfold step at h
  split at h
  · obtain rfl : s = u := by simpa using h
    exact hs
  · exact (exec_keeps h).sound hs

/-! ## Reads of reserved places (R8, R351) -/

theorem value_of_no_spec (s : State) {p : Page} {off : Nat} (h : p.specAt off = none) : s.value p off = 0 := by
  unfold State.value
  split
  · simp_all
  · rfl

theorem regAt_isSome_of_covers {k : PageKind} {off : Nat} {r : RegSpec} (h : 0x100 ≤ off) (hr : r ∈ k.specs)
    (hc : r.covers off = true) : (k.regAt off).isSome = true := by
  rw [PageKind.regAt, if_neg (by omega), List.find?_isSome]
  exact ⟨r, hr, hc⟩

/-- What the read of a *_LO half captures are registers of the page (R7). -/
theorem regAt_isSome_of_mem_captures {k : PageKind} {lo off : Nat} (h : off ∈ k.captures lo) : (k.regAt off).isSome = true := by
  cases k with
  | dg =>
    simp [PageKind.captures] at h
    obtain ⟨hlo, rfl⟩ := h
    exact regAt_isSome_of_covers (r := { off := 0x204, rw := 0xFFFFFFFF, stride := 8, count := 64 }) (by omega)
      (by decide) (by simp [RegSpec.covers]; omega)
  | exp =>
    simp [PageKind.captures, Reg.EXP_Qq_NEXT_LO, Reg.EXP_LAG_TIME] at h
    obtain ⟨hlo, rfl⟩ := h
    exact regAt_isSome_of_covers (r := { off := 0x10C, ro := 0xFFFFFFFF, stride := 8, count := 4 }) (by omega)
      (by decide) (by simp [RegSpec.covers]; omega)
  | host =>
    simp [PageKind.captures] at h
    obtain ⟨hlo, rfl⟩ := h
    exact regAt_isSome_of_covers (r := { off := 0x218, ro := 0xFFFFFFFF, stride := 32, count := 8 }) (by omega)
      (by decide) (by simp [RegSpec.covers]; omega)
  | step =>
    simp [PageKind.captures] at h
    obtain ⟨⟨hlo, h8⟩ | rfl | rfl | rfl | rfl, rfl⟩ := h
    · by_cases h16 : lo % 16 = 0
      · exact regAt_isSome_of_covers (r := { off := 0x184, ro := 0xFFFFFFFF, stride := 16, count := 8 })
          (by omega) (by decide) (by simp [RegSpec.covers]; omega)
      · exact regAt_isSome_of_covers (r := { off := 0x18C, ro := 0xFFFFFFFF, stride := 16, count := 8 })
          (by omega) (by decide) (by simp [RegSpec.covers]; omega)
    all_goals decide
  | nmem =>
    simp only [PageKind.captures] at h
    split at h
    · simp at h
      obtain rfl | rfl := h <;> decide
    · simp at h
      obtain ⟨-, rfl | rfl⟩ := h <;> decide
  | mig =>
    simp [PageKind.captures] at h
    obtain ⟨-, rfl | rfl | rfl⟩ := h <;> decide
  | pod | tally | cp | fault =>
    simp [PageKind.captures] at h
    obtain ⟨-, rfl⟩ := h
    decide
  | jrnl =>
    simp [PageKind.captures] at h
    obtain ⟨(rfl | rfl) | rfl, rfl⟩ := h <;> decide
  | _ => simp [PageKind.captures] at h

theorem regAt_isSome_of_captured {k : PageKind} {off : Nat} (h : k.captured off = true) : (k.regAt off).isSome = true := by
  unfold PageKind.captured at h
  obtain ⟨d, -, hd⟩ := List.any_eq_true.1 h
  simp only [Bool.and_eq_true, List.contains_iff_mem] at hd
  exact regAt_isSome_of_mem_captures hd.2

/-- An offset without a register is never read from a capture (R7, R112). -/
theorem not_captured_of_no_spec {p : Page} {k : PageKind} {off : Nat} (hk : p.kind = some k) (h : p.specAt off = none) :
    k.captured off = false := by
  rw [Bool.eq_false_iff]
  intro hc
  cases k with
  | qring => simp [PageKind.captured, PageKind.captures] at hc
  | _ =>
    have := regAt_isSome_of_captured hc
    simp_all [Page.specAt]

/-- Settles O8: the value there is 0, and nothing captured stands in for it. -/
theorem reservedPlacesReadZero : Obligations.ReservedPlacesReadZero := by
  intro s p off _ h
  unfold State.readReg
  split
  · rfl
  · rename_i k hk
    have hs : p.specAt off = none := h.resolve_left (by simp [hk])
    simp [hs, not_captured_of_no_spec hk hs, value_of_no_spec]

/-! ## Registers by their numbers, and bits of registers -/

/-- Registers of different pages, or of different offsets, have different numbers (R347). -/
theorem page_reg_inj {p p' : Page} {off off' : Nat} (hp : p.slot < 4096) (hp' : p'.slot < 4096) (ho : off < 4096)
    (ho' : off' < 4096) (h : p.reg off = p'.reg off') : p = p' ∧ off = off' := by
  unfold Page.reg at h
  obtain ⟨win, slot⟩ := p
  obtain ⟨win', slot'⟩ := p'
  simp only at *
  obtain ⟨rfl, rfl, rfl⟩ : win = win' ∧ slot = slot' ∧ off = off' := by omega
  exact ⟨rfl, rfl⟩

theorem page_reg_ne_of_off {p : Page} {off off' : Nat} (h : off ≠ off') : p.reg off ≠ p.reg off' := by
  unfold Page.reg
  omega

theorem mPage_slot_lt (k : PageKind) : (mPage k).slot < 4096 := by cases k <;> decide

theorem page_reg_ne_of_page {p p' : Page} {off off' : Nat} (hp : p.slot < 4096) (hp' : p'.slot < 4096) (ho : off < 4096)
    (ho' : off' < 4096) (h : p ≠ p') : p.reg off ≠ p'.reg off' :=
  fun e => h (page_reg_inj hp hp' ho ho' e).1

theorem bitAt_eq_testBit (v i : Nat) : bitAt v i = v.testBit i := by
  rw [Nat.testBit_eq_decide_div_mod_eq]; rfl

theorem bit_eq_getLsbD (s : State) (p : Page) (off i : Nat) : s.bit p off i = (s.reg p off).getLsbD i := bitAt_eq_testBit _ _

/-- A number with a field replaced, in its three parts. -/
theorem putBits_eq (v lo w x : Nat) :
    putBits v lo w x = 2 ^ lo * (2 ^ w * (v / 2 ^ lo / 2 ^ w) + x % 2 ^ w) + v % 2 ^ lo := by
  have hsplit : v = 2 ^ lo * (2 ^ w * (v / 2 ^ lo / 2 ^ w)) + v / 2 ^ lo % 2 ^ w * 2 ^ lo + v % 2 ^ lo := by
    conv_lhs => rw [← Nat.div_add_mod v (2 ^ lo), ← Nat.div_add_mod (v / 2 ^ lo) (2 ^ w)]
    ring
  have hrest : v - v / 2 ^ lo % 2 ^ w * 2 ^ lo = 2 ^ lo * (2 ^ w * (v / 2 ^ lo / 2 ^ w)) + v % 2 ^ lo := by omega
  rw [putBits, bitsOf, hrest]
  ring

/-- The bits of a number with a field replaced: those of the field inside it, and the old ones outside. -/
theorem bitAt_putBits (v lo w x j : Nat) :
    bitAt (putBits v lo w x) j = if lo ≤ j ∧ j < lo + w then bitAt x (j - lo) else bitAt v j := by
  simp only [bitAt_eq_testBit]
  rw [putBits_eq, Nat.testBit_two_pow_mul_add _ (Nat.mod_lt _ (Nat.two_pow_pos _))]
  by_cases hlo : j < lo
  · rw [if_pos hlo, if_neg (by omega), Nat.testBit_mod_two_pow, decide_eq_true hlo, Bool.true_and]
  · rw [if_neg hlo, Nat.testBit_two_pow_mul_add _ (Nat.mod_lt _ (Nat.two_pow_pos _))]
    by_cases hw : j - lo < w
    · rw [if_pos hw, if_pos (by omega), Nat.testBit_mod_two_pow, decide_eq_true hw, Bool.true_and]
    · rw [if_neg hw, if_neg (by omega), Nat.testBit_div_two_pow, Nat.testBit_div_two_pow]
      congr 1
      omega

/-- A bit of a register after a bit of it was stored. -/
theorem bit_setBit_same_reg (s : State) (p : Page) (off i j : Nat) (b : Bool) (hi : i < 32) :
    (s.setBit p off i b).bit p off j = if j = i then b else s.bit p off j := by
  rw [State.bit, State.setBit, State.setField, num_setNum, Nat.mod_eq_of_lt (putBits_lt _ _ _ _ (num_lt s p off) (by omega)),
    bitAt_putBits]
  by_cases hj : j = i
  · subst hj
    cases b <;> simp [bitAt]
  · rw [if_neg (by omega), if_neg hj]
    rfl

/-! ## The journal: an entry is appended, and its page shows its number (R359, R375) -/

@[simp] theorem journal_setReg (s : State) (p : Page) (off : Nat) (v : Word) (q : Nat) :
    (s.setReg p off v).journal q = s.journal q := by rw [State.journal, setReg_journals, ← State.journal]

@[simp] theorem journal_setNum (s : State) (p : Page) (off v q : Nat) : (s.setNum p off v).journal q = s.journal q := by
  rw [State.journal, setNum_journals, ← State.journal]

section Journal
variable (s : State) (e : JEntry)

/-- An appended entry changes journals and a register. -/
theorem journalAdd_fields :
    s.journalAdd e = { s with regs := (s.journalAdd e).regs, journals := (s.journalAdd e).journals } := by
  unfold State.journalAdd
  split
  · simp [State.setNum, State.setReg, State.setJournal]
  · simp [State.setJournal]

@[simp] theorem journalAdd_clk : (s.journalAdd e).clk = s.clk := by rw [journalAdd_fields]
@[simp] theorem journalAdd_train : (s.journalAdd e).train = s.train := by rw [journalAdd_fields]
@[simp] theorem journalAdd_cycle : (s.journalAdd e).cycle = s.cycle := by rw [journalAdd_fields]
@[simp] theorem journalAdd_events : (s.journalAdd e).events = s.events := by rw [journalAdd_fields]

/-- The entry takes the next number of its quarter's journal. -/
theorem journal_journalAdd {q : Nat} (hq : s.journalOf e.page = q) {j : Journal} (hj : s.journal q = j) :
    (s.journalAdd e).journal q = { j with seq := (j.seq + 1) % 2 ^ 40, ring := j.ring ++ [{ e with seq := j.seq }] } := by
  subst hq hj
  unfold State.journalAdd
  split
  · rw [journal_setNum, journal_setJournal_same]
  · rw [journal_setJournal_same]

theorem reg_journalAdd_other (p : Page) (off : Nat) (h : p.reg off ≠ e.page.reg Reg.HDR_JRNL_SEQ) :
    (s.journalAdd e).reg p off = s.reg p off := by
  unfold State.journalAdd
  split
  · exact reg_setReg_other _ _ _ _ _ _ h
  · rfl

theorem bit_journalAdd_other (p : Page) (off i : Nat) (h : p.reg off ≠ e.page.reg Reg.HDR_JRNL_SEQ) :
    (s.journalAdd e).bit p off i = s.bit p off i := by
  rw [bit_eq_getLsbD, bit_eq_getLsbD, reg_journalAdd_other s e p off h]

end Journal

/-! ## Granted writes: what is granted is performed now (R304, R318, R378) -/

section Granted
variable {a : State} {o : Origin} {p : Page} {off : Nat}

theorem mapGet_mem_or_default {α : Type} (d : Nat → α) (m : List (Nat × α)) (k : Nat) :
    mapGet d m k = d k ∨ ∃ e ∈ m, e.2 = mapGet d m k := by
  induction m with
  | nil => exact .inl rfl
  | cons e m ih =>
    simp only [mapGet]
    split
    · exact .inr ⟨e, by simp, rfl⟩
    · exact ih.imp id (fun ⟨e', he, h⟩ => ⟨e', by simp [he], h⟩)

theorem journal_held_of_calm (h : Calm a) (q : Nat) : (a.journal q).held = [] := by
  obtain ⟨-, -, -, -, hj⟩ := h
  obtain hd | ⟨e, he, hq⟩ := mapGet_mem_or_default (fun _ => ({} : Journal)) a.journals q
  · rw [State.journal, hd]
  · rw [State.journal, ← hq, hj e he]

theorem blocked_of_calm (h : Calm a) (o : Origin) : a.blocked o = false := by
  obtain ⟨hheld, hstalled, hwrites, -, hj⟩ := h
  simp +contextual [State.blocked, hheld, hstalled, hwrites, hj]

theorem proceed_of_no_stalled (h : a.clk.stalled = []) : a.proceed = a := by
  have hs : ({ a with clk := { a.clk with stalled := [] } } : State) = a := by rw [← h]
  simp [State.proceed, h, hs]

theorem settled_of_no_ueLines (h : a.train.ueLines = []) : settled a = .next a := by
  simp [settled, done, h]

theorem journalRoom_of_granted (hg : Granted a o p off) (x : RegAccess) (hx : x.page = p) : a.journalRoom x = true := by
  obtain ⟨-, -, -, -, hroom, -⟩ := hg
  simp only [State.journalRoom, hx, decide_eq_true_eq]
  split <;> omega

/-- A granted write is performed at once. -/
theorem access_of_granted (hg : Granted a o p off) (x : RegAccess) (v : Word) (ho : x.origin = o) (hp : x.page = p)
    (hw : x.write = some v) : a.access x = a.performWrite x v := by
  have hroom := journalRoom_of_granted hg x hp
  obtain ⟨hcalm, -, hside, hreach, -⟩ := hg
  have hstray : x.astray = false := by
    simp only [RegAccess.astray, ho, hp, Bool.and_eq_false_iff, bne_eq_false_iff_eq, beq_eq_false_iff_ne]
    exact or_iff_not_imp_left.2 (fun h => hside (not_not.1 h))
  have hgate : a.journalGate x v = a.performWrite x v := by
    simp [State.journalGate, hroom, journal_held_of_calm hcalm]
  simp [State.access, hstray, hp, hreach, hw, hgate]

theorem writeRow_of_granted (hg : Granted a o p off) (v hw : Word) (narrow : Bool) (hn : narrow = true → ∃ q i, o = .cp q i) :
    writeRow a o true p off v hw narrow = settled
      (a.performWrite { origin := o, page := p, off := off, write := some v, narrow := narrow, hw := hw } v).proceed := by
  obtain ⟨hcalm, hadmits, -, -, -, hwin, hslot, hoff, h4⟩ := id hg
  have hdiv : off / 4 * 4 = off := by omega
  have hrequest (x : RegAccess) (ho : x.origin = o) (hp : x.page = p) (hw : x.write = some v) :
      a.request [.reg x] = (a.performWrite x v).proceed := by
    simp [State.request, State.submit, blocked_of_calm hcalm, State.perform, access_of_granted hg x v ho hp hw]
  cases narrow with
  | false => simp [writeRow, hwin, hslot, hoff, hadmits, h4, hdiv, hrequest]
  | true =>
    obtain ⟨q, i, rfl⟩ := hn rfl
    simp [writeRow, hwin, hslot, hoff, hadmits, hdiv, hrequest]

/-- What a granted write performs is its answer, where that leaves nothing waiting. -/
theorem writeRow_completes (hg : Granted a o p off) (v hw : Word) (narrow : Bool) (hn : narrow = true → ∃ q i, o = .cp q i)
    {u : State} (hu : a.performWrite { origin := o, page := p, off := off, write := some v, narrow := narrow, hw := hw } v = u)
    (hclk : u.clk = a.clk) (htrain : u.train = a.train) : writeRow a o true p off v hw narrow = .next u := by
  rw [writeRow_of_granted hg v hw narrow hn, hu]
  obtain ⟨-, hstalled, -, hlines, -⟩ := hg.1
  rw [proceed_of_no_stalled (by rw [hclk, hstalled]), settled_of_no_ueLines (by rw [htrain, hlines])]

end Granted

/-! ## Events: what setting them touches (R356 to R358, R381) -/

/-- From `s` to `t`, only registers under numbers in `K` change, and with them what hardware did to registers and the pending
alarms and records. -/
structure Touches (K : Nat → Prop) (s t : State) : Prop where
  fields : ∃ rs cy ev, t = { s with regs := rs, cycle := cy, events := ev }
  reg : ∀ p off, ¬ K (p.reg off) → t.reg p off = s.reg p off

section Touches
variable {K : Nat → Prop} {s t u : State}

theorem Touches.refl (K : Nat → Prop) (s : State) : Touches K s s := ⟨⟨_, _, _, rfl⟩, fun _ _ _ => rfl⟩

theorem Touches.trans (h : Touches K s t) (g : Touches K t u) : Touches K s u := by
  obtain ⟨⟨_, _, _, rfl⟩, hr⟩ := h
  obtain ⟨⟨_, _, _, rfl⟩, gr⟩ := g
  exact ⟨⟨_, _, _, rfl⟩, fun p off hk => (gr p off hk).trans (hr p off hk)⟩

theorem touches_foldl {α : Type} {f : State → α → State} (l : List α) (hf : ∀ t x, Touches K t (f t x)) (s : State) :
    Touches K s (l.foldl f s) := by
  induction l generalizing s with
  | nil => exact .refl K s
  | cons x l ih => exact (hf s x).trans (ih _)

theorem touches_setReg (s : State) {p : Page} {off : Nat} (v : Word) (hk : K (p.reg off)) : Touches K s (s.setReg p off v) := by
  refine ⟨⟨_, _, _, rfl⟩, fun p' off' h => ?_⟩
  exact reg_setReg_other s p p' off off' v (fun e => h (by rwa [e]))

theorem touches_setNum (s : State) {p : Page} {off : Nat} (v : Nat) (hk : K (p.reg off)) : Touches K s (s.setNum p off v) :=
  touches_setReg s _ hk

theorem touches_note (s : State) (p : Page) (off add set : Nat) : Touches K s (s.note p off add set) :=
  ⟨⟨_, _, _, rfl⟩, fun _ _ _ => rfl⟩

theorem touches_addSat (s : State) {p : Page} {off : Nat} (n : Nat) (hk : K (p.reg off)) : Touches K s (s.addSat p off n) := by
  unfold State.addSat
  split
  · exact touches_setNum s _ hk
  · exact (touches_note s p off n 0).trans (touches_setNum _ _ hk)

theorem touches_placeAlarm (s : State) (p : Page) (bit : Nat) (forced : Bool) (hc : K ((mPage .evq).reg Reg.EVQ_ALARM_COALESCED))
    (ho : K ((mPage .evq).reg Reg.EVQ_ALARM_PAGE_OVF)) : Touches K s (s.placeAlarm p bit forced).1 := by
  have hput (l : List Alarm) : Touches K s { s with events := { s.events with alarms := l } } := ⟨⟨_, _, _, rfl⟩, fun _ _ _ => rfl⟩
  unfold State.placeAlarm
  dsimp only
  split
  · exact (hput _).trans (touches_addSat _ 1 hc)
  · split
    · exact hput _
    · split
      · exact ((hput _).trans (touches_addSat _ 1 hc)).trans (touches_addSat _ 1 ho)
      · exact (hput _).trans (touches_addSat _ 1 ho)

end Touches

/-- An event bit is set and counted (R356, R358). -/
def eventSet (s : State) (p : Page) (bit : Nat) : State :=
  ((s.note p Reg.HDR_EVT_STS 0 (2 ^ bit)).setBit p Reg.HDR_EVT_STS bit true).addSat p Reg.HDR_EVT_COUNT 1

/-- An alarm is placed, with the event of a page key taken (R381, R385). -/
def alarmPlaced (s : State) (p : Page) (bit : Nat) (forced : Bool) : State :=
  let r := s.placeAlarm p bit forced
  if r.2 then (r.1.setEvent (mPage .evq) 0 false).1 else r.1

theorem setEvent_eq (s : State) (p : Page) (bit : Nat) (forced : Bool) : s.setEvent p bit forced =
    if !s.bit p Reg.HDR_EVT_STS bit && (eventSet s p bit).bit p Reg.HDR_EVT_EN bit then (eventSet s p bit).placeAlarm p bit forced
    else (eventSet s p bit, false) := rfl

/-- Events of a mask are all set and counted before their alarms are placed. -/
theorem setMask_eq (s : State) (p : Page) (k : PageKind) (v : Nat) (forced : Bool) : s.setMask p k v forced =
    ((((List.range k.evtBits).filter (fun b => bitAt v b && bitAt k.evtMask b)).filter
      (fun b => !s.bit p Reg.HDR_EVT_STS b && s.bit p Reg.HDR_EVT_EN b)).foldl (alarmPlaced · p · forced)
        (((List.range k.evtBits).filter (fun b => bitAt v b && bitAt k.evtMask b)).foldl (eventSet · p ·) s)) := rfl

/-- The registers that setting events of a page touches: its EVT_STS and EVT_COUNT, and those of EVQ that tell of alarms. -/
def eventKey (p : Page) (k : Nat) : Prop :=
  k = p.reg Reg.HDR_EVT_STS ∨ k = p.reg Reg.HDR_EVT_COUNT ∨
  k = (mPage .evq).reg Reg.HDR_EVT_STS ∨ k = (mPage .evq).reg Reg.HDR_EVT_COUNT ∨
  k = (mPage .evq).reg Reg.EVQ_ALARM_COALESCED ∨ k = (mPage .evq).reg Reg.EVQ_ALARM_PAGE_OVF

theorem Touches.of_evq {s t : State} {p : Page} (h : Touches (eventKey (mPage .evq)) s t) : Touches (eventKey p) s t := by
  refine ⟨h.fields, fun p' off hk => h.reg p' off (fun e => hk ?_)⟩
  unfold eventKey at e ⊢
  exact .inr (.inr (by omega))

section Events
variable (s : State) (p : Page) (bit : Nat) (forced : Bool)

theorem touches_eventSet {K : Nat → Prop} (hs : K (p.reg Reg.HDR_EVT_STS)) (hc : K (p.reg Reg.HDR_EVT_COUNT)) :
    Touches K s (eventSet s p bit) :=
  ((touches_note s _ _ _ _).trans (touches_setNum _ _ hs)).trans (touches_addSat _ 1 hc)

theorem touches_setEvent : Touches (eventKey p) s (s.setEvent p bit forced).1 := by
  have h : Touches (eventKey p) s (eventSet s p bit) := touches_eventSet s p bit (by simp [eventKey]) (by simp [eventKey])
  rw [setEvent_eq]
  split
  · exact h.trans (touches_placeAlarm _ _ _ _ (by simp [eventKey]) (by simp [eventKey]))
  · exact h

theorem touches_alarmPlaced : Touches (eventKey p) s (alarmPlaced s p bit forced) := by
  have h : Touches (eventKey p) s (s.placeAlarm p bit forced).1 :=
    touches_placeAlarm _ _ _ _ (by simp [eventKey]) (by simp [eventKey])
  unfold alarmPlaced
  dsimp only
  split
  · exact h.trans (touches_setEvent _ _ 0 false).of_evq
  · exact h

theorem touches_setEvents : Touches (eventKey p) s (s.setEvents p bit forced) := by
  unfold State.setEvents
  dsimp only
  split
  · exact (touches_setEvent s p bit forced).trans (touches_setEvent _ _ 0 false).of_evq
  · exact touches_setEvent s p bit forced

theorem touches_setMask (k : PageKind) (v : Nat) : Touches (eventKey p) s (s.setMask p k v forced) := by
  rw [setMask_eq]
  exact (touches_foldl _ (fun t b => touches_eventSet t p b (by simp [eventKey]) (by simp [eventKey])) s).trans
    (touches_foldl _ (fun t b => touches_alarmPlaced t p b forced) _)

/-- A raised bit touches the pulses besides (R324). -/
theorem touches_raise : ∃ pu, Touches (eventKey p) { s with pulses := pu } (s.raise p bit) := by
  unfold State.raise
  dsimp only
  split
  · exact ⟨_, .refl _ _⟩
  · exact ⟨_, touches_setEvents _ p bit false⟩

@[simp] theorem raise_clk : (s.raise p bit).clk = s.clk := by
  obtain ⟨_, ⟨_, _, _, h⟩, -⟩ := touches_raise s p bit
  rw [h]

@[simp] theorem raise_train : (s.raise p bit).train = s.train := by
  obtain ⟨_, ⟨_, _, _, h⟩, -⟩ := touches_raise s p bit
  rw [h]

@[simp] theorem journal_raise (q : Nat) : (s.raise p bit).journal q = s.journal q := by
  obtain ⟨_, ⟨_, _, _, h⟩, -⟩ := touches_raise s p bit
  rw [h]
  rfl

theorem reg_raise_other {p' : Page} {off : Nat} (h : ¬ eventKey p (p'.reg off)) :
    (s.raise p bit).reg p' off = s.reg p' off := by
  obtain ⟨_, -, hreg⟩ := touches_raise s p bit
  exact hreg p' off h

end Events

/-! ## The bits of EVT_STS -/

section EventBits
variable (s : State) (p : Page) (bit j : Nat) (forced : Bool)

theorem bit_eventSet (hb : bit < 32) :
    (eventSet s p bit).bit p Reg.HDR_EVT_STS j = (decide (j = bit) || s.bit p Reg.HDR_EVT_STS j) := by
  have hcount : (eventSet s p bit).reg p Reg.HDR_EVT_STS =
      ((s.note p Reg.HDR_EVT_STS 0 (2 ^ bit)).setBit p Reg.HDR_EVT_STS bit true).reg p Reg.HDR_EVT_STS :=
    (touches_addSat (K := (· = p.reg Reg.HDR_EVT_COUNT)) _ 1 rfl).reg p _ (page_reg_ne_of_off (by decide))
  rw [bit_eq_getLsbD, hcount, ← bit_eq_getLsbD, bit_setBit_same_reg _ _ _ _ _ _ hb]
  by_cases hj : j = bit
  · simp [hj]
  · simp only [hj, if_false, decide_false, Bool.false_or]
    rfl

/-- An alarm leaves the bits of EVT_STS, but for EVQ's bit 0. -/
theorem bit_alarmPlaced {p' : Page} (hp : p'.slot < 4096) (hj : p' = mPage .evq → j ≠ 0) :
    (alarmPlaced s p bit forced).bit p' Reg.HDR_EVT_STS j = s.bit p' Reg.HDR_EVT_STS j := by
  have hplace (t : State) (q : Page) (b : Nat) (f : Bool) :
      (t.placeAlarm q b f).1.reg p' Reg.HDR_EVT_STS = t.reg p' Reg.HDR_EVT_STS := by
    refine (touches_placeAlarm (K := fun k => ∃ off, 0x100 ≤ off ∧ off < 4096 ∧ k = (mPage .evq).reg off) t q b f
      ⟨_, by decide, by decide, rfl⟩ ⟨_, by decide, by decide, rfl⟩).reg p' _ ?_
    rintro ⟨off, hlo, hhi, he⟩
    obtain ⟨-, rfl⟩ := page_reg_inj hp (mPage_slot_lt _) (by decide) hhi he
    exact absurd hlo (by decide)
  have hset (t : State) : (eventSet t (mPage .evq) 0).bit p' Reg.HDR_EVT_STS j = t.bit p' Reg.HDR_EVT_STS j := by
    by_cases he : p' = mPage .evq
    · subst he
      simp [bit_eventSet _ _ _ _ (by decide : 0 < 32), hj rfl]
    · have := (touches_eventSet (K := fun k => ∃ off, off < 4096 ∧ k = (mPage .evq).reg off) t (mPage .evq) 0
        ⟨_, by decide, rfl⟩ ⟨_, by decide, rfl⟩).reg p' Reg.HDR_EVT_STS
        (fun ⟨off, ho, e⟩ => page_reg_ne_of_page hp (mPage_slot_lt _) (by decide) ho he e)
      rw [bit_eq_getLsbD, bit_eq_getLsbD, this]
  unfold alarmPlaced
  dsimp only
  split
  · rw [setEvent_eq]
    split
    · rw [bit_eq_getLsbD, hplace, ← bit_eq_getLsbD, hset, bit_eq_getLsbD, hplace, ← bit_eq_getLsbD]
    · rw [hset, bit_eq_getLsbD, hplace, ← bit_eq_getLsbD]
  · rw [bit_eq_getLsbD, hplace, ← bit_eq_getLsbD]

theorem bit_foldl_eventSet (l : List Nat) (hl : ∀ b ∈ l, b < 32) :
    (l.foldl (eventSet · p ·) s).bit p Reg.HDR_EVT_STS j = (decide (j ∈ l) || s.bit p Reg.HDR_EVT_STS j) := by
  induction l generalizing s with
  | nil => simp
  | cons b l ih =>
    rw [List.foldl_cons, ih _ (fun b' hb' => hl b' (by simp [hb'])), bit_eventSet _ _ _ _ (hl b (by simp))]
    simp only [List.mem_cons, Bool.decide_or]
    cases decide (j = b) <;> cases decide (j ∈ l) <;> rfl

theorem bit_foldl_alarmPlaced (l : List Nat) {p' : Page} (hp : p'.slot < 4096) (hj : p' = mPage .evq → j ≠ 0) :
    (l.foldl (alarmPlaced · p · forced) s).bit p' Reg.HDR_EVT_STS j = s.bit p' Reg.HDR_EVT_STS j := by
  induction l generalizing s with
  | nil => rfl
  | cons b l ih => rw [List.foldl_cons, ih, bit_alarmPlaced s p b j forced hp hj]

theorem evtBits_le (k : PageKind) : k.evtBits ≤ 32 := by cases k <;> decide

theorem evtMask_lt (k : PageKind) : k.evtMask < 2 ^ k.evtBits := by cases k <;> decide

theorem lt_evtBits_of_evtMask {k : PageKind} {b : Nat} (h : bitAt k.evtMask b = true) : b < k.evtBits := by
  rw [bitAt_eq_testBit] at h
  by_contra hb
  exact absurd (Nat.ge_two_pow_of_testBit h) (by have := evtMask_lt k; have := Nat.pow_le_pow_right (n := 2) (by decide) (not_lt.1 hb); omega)

/-- The events of a mask are set on the page, among the bits it defines. -/
theorem bit_setMask (k : PageKind) (v : Nat) (hp : p.slot < 4096) (hj : p = mPage .evq → j ≠ 0) :
    (s.setMask p k v forced).bit p Reg.HDR_EVT_STS j =
      ((bitAt v j && bitAt k.evtMask j) || s.bit p Reg.HDR_EVT_STS j) := by
  rw [setMask_eq, bit_foldl_alarmPlaced _ _ _ _ _ hp hj, bit_foldl_eventSet]
  · congr 1
    rw [Bool.eq_iff_iff]
    simp only [List.mem_filter, List.mem_range, Bool.and_eq_true, decide_eq_true_eq]
    exact ⟨fun h => h.2, fun h => ⟨lt_evtBits_of_evtMask h.2, h⟩⟩
  · intro b hb
    simp only [List.mem_filter, List.mem_range] at hb
    exact lt_of_lt_of_le hb.1 (evtBits_le k)

end EventBits

/-! ## What becomes of a write (R5, R6, R374) -/

section Writes
variable {a : State} {x : RegAccess} {k : PageKind} {v : Word}

/-- A write that its page performs, and that begins no command, is journalled with CODE 0 (R371 to R374). -/
theorem performWrite_of_done {t : State} {won : Bool} (hk : x.page.kind = some k) (hn : x.narrow = false)
    (hd : a.decideWrite x k v = (t, 0, won)) (hafter : ∀ u : State, u.afterWrite x.page x.off v.toNat = u) :
    ∃ e : JEntry, a.performWrite x v = t.journalAdd e ∧ e.origin = x.origin ∧ e.page = x.page ∧ e.off = x.off ∧ e.code = 0 ∧
      e.old = a.value x.page x.off := by
  unfold State.performWrite
  simp only [hn, hk, hd, Bool.false_eq_true, if_false, if_true, hafter]
  exact ⟨_, rfl, rfl, rfl, rfl, rfl, rfl⟩

theorem afterWrite_of_kind {p : Page} (off n : Nat) (hboot : p.kind ≠ some .boot) (hpwr : p.kind ≠ some .pwr) (u : State) :
    u.afterWrite p off n = u := by
  have hb : p ≠ mPage .boot := fun h => hboot (by rw [h]; decide)
  have hp : p ≠ mPage .pwr := fun h => hpwr (by rw [h]; decide)
  simp [State.afterWrite, hb, hp]

theorem afterWrite_of_header {p : Page} {off : Nat} (n : Nat) (h : off < 0x100) (u : State) : u.afterWrite p off n = u := by
  have hcmd : off ≠ 0x100 := by omega
  simp [State.afterWrite, Reg.BOOT_BOOT_CMD, Reg.PWR_PWR_CMD, hcmd]

theorem specAt_header {p : Page} {off : Nat} (hk : p.kind = some k) (h : off < 0x100) :
    p.specAt off = specsHDR.find? (fun r => r.covers off) := by
  have hq : ¬ 0x100 ≤ off := by omega
  have hi : ¬ 0x900 ≤ off := by omega
  cases k <;> simp [Page.specAt, hk, PageKind.regAt, h, hq, hi]

/-- What a clearing write of EVT_STS does (R6): the events that hardware sets are set, and the bits written that hardware has
not set in this CCLK are cleared. -/
theorem decideWrite_evtSts (hk : x.page.kind = some k) (hoff : x.off = Reg.HDR_EVT_STS) (hr : x.refuse = false)
    (hside : x.origin = .sideband → k = .pwr) (hlead : ¬ (k = .sec ∧ ∃ id, x.origin = .lead id)) : ∃ won,
    a.decideWrite x k v = ((a.setMask x.page k x.hw.toNat false).setReg x.page Reg.HDR_EVT_STS
      ((a.setMask x.page k x.hw.toNat false).reg x.page Reg.HDR_EVT_STS &&&
        ~~~(v &&& ~~~(x.hw ||| BitVec.ofNat 32 (((a.change x.page Reg.HDR_EVT_STS).map (·.set)).getD 0)))), 0, won) := by
  have hspec := specAt_header hk (show x.off < 0x100 by rw [hoff]; decide)
  rw [hoff] at hspec
  have hg : ¬ (x.refuse = true ∨ (x.origin = .sideband ∧ k ≠ .pwr)) := by simp [hr]; exact hside
  unfold State.decideWrite
  rw [if_neg hg, if_neg (by intro h; cases ho : x.origin <;> simp_all)]
  simp only [hoff, hspec]
  exact ⟨_, rfl⟩

end Writes

/-! ## Granted writes of EVT_STS, and of registers that only store -/

section Stores
variable {a : State} {o : Origin} {p : Page} {off : Nat} {k : PageKind}

theorem kind_of_sideband (hg : Granted a o p off) (hk : p.kind = some k) (ho : o = .sideband) : k = .pwr := by
  obtain ⟨-, -, hside, -⟩ := hg
  rw [hside ho, show (mPage .pwr).kind = some .pwr by decide] at hk
  exact (Option.some.inj hk).symm

/-- A granted write of EVT_STS clears what it names, except what hardware has set in this CCLK or sets with it (R6). -/
theorem evtStsWrite_completes (v hw : Word) (hg : Granted a o p Reg.HDR_EVT_STS) (hk : p.kind = some k)
    (hlead : ¬ (k = .sec ∧ ∃ id, o = .lead id)) : ∃ u, writeRow a o true p Reg.HDR_EVT_STS v hw = .next u ∧
      (∀ b, bitAt k.evtMask b = true → (p = mPage .evq → b ≠ 0) → u.bit p Reg.HDR_EVT_STS b = (bitAt hw.toNat b ||
        (a.bit p Reg.HDR_EVT_STS b &&
          (!bitAt v.toNat b || bitAt (((a.change p Reg.HDR_EVT_STS).map (·.set)).getD 0) b)))) ∧
      u = { a with regs := u.regs, cycle := u.cycle, journals := u.journals, events := u.events } := by
  obtain ⟨won, hd⟩ := decideWrite_evtSts (a := a) (v := v)
    (x := { origin := o, page := p, off := Reg.HDR_EVT_STS, write := some v, hw := hw }) hk rfl rfl (kind_of_sideband hg hk) hlead
  obtain ⟨e, hperf, -, hpage, -⟩ := performWrite_of_done hk rfl hd (afterWrite_of_header v.toNat (by decide : Reg.HDR_EVT_STS < 256))
  obtain ⟨rs, cy, ev, hm⟩ := (touches_setMask a p false k hw.toNat).fields
  refine ⟨_, writeRow_completes hg v hw false (by simp) hperf (by simp [hm]) (by simp [hm]), fun b hb hevq => ?_, ?_⟩
  · have hb32 : b < 32 := (lt_evtBits_of_evtMask hb).trans_le (evtBits_le k)
    obtain ⟨-, -, -, -, -, -, hslot, -⟩ := hg
    have hmask := bit_setMask a p b false k hw.toNat hslot hevq
    rw [bit_eq_getLsbD, hb, Bool.and_true] at hmask
    rw [bit_journalAdd_other _ _ _ _ _ (by rw [hpage]; exact page_reg_ne_of_off (by decide)), bit_eq_getLsbD, reg_setReg_same]
    simp only [BitVec.getLsbD_and, BitVec.getLsbD_not, BitVec.getLsbD_or, BitVec.getLsbD_ofNat, hmask, hb32, decide_true,
      Bool.true_and, bitAt_eq_testBit, BitVec.testBit_toNat]
    cases hw.getLsbD b <;> cases v.getLsbD b <;> simp
  · conv_lhs => rw [journalAdd_fields]
    simp [hm]

/-- The quarter that keeps a page's journal is named by MODID.SVC alone (R371). -/
theorem journalOf_of_reg {s t : State} (h : t.reg (mPage .modid) Reg.MODID_SVC = s.reg (mPage .modid) Reg.MODID_SVC) (p : Page) :
    t.journalOf p = s.journalOf p := by
  unfold State.journalOf State.service State.field State.num
  rw [h]

theorem not_eventKey {p' : Page} (hp : p.slot < 4096) (hp' : p'.slot < 4096) (ho : off < 4096) (hsts : off ≠ Reg.HDR_EVT_STS)
    (hcount : off ≠ Reg.HDR_EVT_COUNT) (hevq : p' ≠ mPage .evq) : ¬ eventKey p (p'.reg off) := by
  have hne {n : Nat} (hn : n < 4096) : p'.reg off ≠ (mPage .evq).reg n := page_reg_ne_of_page hp' (mPage_slot_lt _) ho hn hevq
  rintro (h | h | h | h | h | h)
  · exact hsts (page_reg_inj hp' hp ho (by decide) h).2
  · exact hcount (page_reg_inj hp' hp ho (by decide) h).2
  · exact hne (by decide) h
  · exact hne (by decide) h
  · exact hne (by decide) h
  · exact hne (by decide) h

/-- The pages whose registers act on nothing but themselves. -/
def storingKinds : List PageKind := [.rng, .bgnd, .tally, .hk, .exp, .opt, .evq, .jrnl, .fold]

theorem writeBlock_of_storing (hp : k ∈ storingKinds) (r : RegSpec) (v : Word) :
    ∃ cy, a.writeBlock o p k off r v = (({ a with cycle := cy } : State).store p off r v, true) := by
  by_cases hsalt : k = .rng ∧ Reg.RNG_SALT_Qq ≤ off
  · obtain ⟨rfl, hs⟩ := hsalt
    exact ⟨_, by simp only [State.writeBlock, if_pos hs]; rfl⟩
  · refine ⟨a.cycle, ?_⟩
    simp only [storingKinds, List.mem_cons, List.not_mem_nil, or_false] at hp
    obtain rfl | rfl | rfl | rfl | rfl | rfl | rfl | rfl | rfl := hp
    · simp only [State.writeBlock]
      rw [if_neg (fun h => hsalt ⟨rfl, h⟩)]
    all_goals simp [State.writeBlock, PageKind.isEngine]

/-- A write in range to such a page stores the RW bits, and is performed. -/
theorem decideWrite_of_storing {x : RegAccess} {r : RegSpec} {v : Word} (hk : k ∈ storingKinds) (hoff : 0x100 ≤ x.off)
    (hspec : x.page.specAt x.off = some r) (hrw : r.rw ≠ 0) (hrange : rangeOk k x.off v.toNat = true) (hr : x.refuse = false)
    (hside : x.origin ≠ .sideband) : ∃ cy, a.decideWrite x k v = (({ a with cycle := cy } : State).store x.page x.off r v, 0, false) := by
  obtain ⟨cy, hblock⟩ := writeBlock_of_storing (a := a) (o := x.origin) (p := x.page) (off := x.off) hk r v
  have hidle : a.idleOk k x.off = true := by
    simp only [storingKinds, List.mem_cons, List.not_mem_nil, or_false] at hk
    obtain rfl | rfl | rfl | rfl | rfl | rfl | rfl | rfl | rfl := hk <;> simp [State.idleOk]
  have hsec : (k == .sec) = false := (by decide : ∀ k ∈ storingKinds, (k == .sec) = false) k hk
  refine ⟨cy, ?_⟩
  have h8 : x.off ≠ 0x008 := by omega
  have h10 : x.off ≠ 0x010 := by omega
  have h14 : x.off ≠ 0x014 := by omega
  have h18 : x.off ≠ 0x018 := by omega
  unfold State.decideWrite
  simp [hr, hside, hsec, hspec, h8, h10, h14, h18, hrw, hrange, hidle, hblock, hoff]

/-- A granted write to such a page stores and is journalled, and changes nothing else (R5, R371, R372, R374). -/
theorem storingWrite_completes {r : RegSpec} (v : Word) (hg : Granted a o p off) (hk : p.kind = some k) (hs : k ∈ storingKinds)
    (hoff : 0x100 ≤ off) (hspec : p.specAt off = some r) (hrw : r.rw ≠ 0) (hrange : rangeOk k off v.toNat = true) :
    ∃ u, writeRow a o true p off v = .next u ∧
      u.reg p off = (a.reg p off &&& ~~~(BitVec.ofNat 32 r.rw)) ||| (v &&& BitVec.ofNat 32 r.rw) ∧
      (∃ e, (u.journal (a.journalOf p)).ring = (a.journal (a.journalOf p)).ring ++ [e] ∧ e.origin = o ∧ e.page = p ∧
        e.off = off ∧ e.code = 0 ∧ e.old = a.value p off ∧ e.seq = (a.journal (a.journalOf p)).seq) ∧
      (∀ p' off', p'.reg off' ≠ p.reg off → p'.reg off' ≠ p.reg Reg.HDR_JRNL_SEQ → u.reg p' off' = a.reg p' off') ∧
      u = { a with regs := u.regs, cycle := u.cycle, journals := u.journals } := by
  have hkinds : ∀ k ∈ storingKinds, k ≠ .pwr ∧ k ≠ .boot ∧ k ≠ .modid := by decide
  obtain ⟨hpwr, hboot, hmodid⟩ := hkinds k hs
  obtain ⟨cy, hd⟩ := decideWrite_of_storing (a := a) (x := { origin := o, page := p, off := off, write := some v }) hs hoff hspec hrw
    hrange rfl (fun h => hpwr (kind_of_sideband hg hk h))
  obtain ⟨e, hperf, ho, hpage, heoff, hcode, hold⟩ := performWrite_of_done hk rfl hd
    (afterWrite_of_kind off v.toNat (by simp [hk, hboot]) (by simp [hk, hpwr]))
  obtain ⟨-, -, -, -, -, -, hslot, hoff', -⟩ := id hg
  have hseq : p.reg off ≠ e.page.reg Reg.HDR_JRNL_SEQ := by
    rw [hpage]; exact page_reg_ne_of_off (fun h => absurd hoff (by rw [h]; decide))
  have hne : p ≠ mPage .modid := fun h => hmodid (by rw [h] at hk; exact (Option.some.inj hk).symm)
  have hsvc : (({ a with cycle := cy } : State).store p off r v).journalOf p = a.journalOf p :=
    journalOf_of_reg (reg_setReg_other _ _ _ _ _ _ (page_reg_ne_of_page (mPage_slot_lt _) hslot (by decide) hoff' hne.symm)) p
  have hjournal := journal_journalAdd _ e (by rw [hpage]; exact hsvc) (journal_setReg _ p off _ (a.journalOf p))
  refine ⟨_, writeRow_completes hg v 0 false (by simp) hperf (by simp [State.store]) (by simp [State.store]), ?_,
    ⟨{ e with seq := (a.journal (a.journalOf p)).seq }, ?_, ho, hpage, heoff, hcode, hold, rfl⟩, fun p' off' hreg hjrnl => ?_, ?_⟩
  · rw [reg_journalAdd_other _ _ _ _ hseq, State.store, reg_setReg_same]
    rfl
  · rw [State.store, hjournal]
    rfl
  · rw [reg_journalAdd_other _ _ _ _ (by rw [hpage]; exact hjrnl), State.store, reg_setReg_other _ _ _ _ _ _ hreg]
    rfl
  · conv_lhs => rw [journalAdd_fields]
    simp [State.store]

/-- A narrow write of a hart stores nothing: it raises the hart's access fault and is journalled with CODE 4 (R361, R374). -/
theorem narrowWrite_completes {q i : Nat} (v : Word) (hg : Granted a (.cp q i) p off) (hevq : p ≠ mPage .evq)
    (hseq : off ≠ Reg.HDR_JRNL_SEQ) (hsts : off ≠ Reg.HDR_EVT_STS) (hcount : off ≠ Reg.HDR_EVT_COUNT) :
    ∃ u, writeRow a (.cp q i) true p off v 0 true = .next u ∧ u.reg p off = a.reg p off ∧
      ∃ e, (u.journal (a.journalOf p)).ring = (a.journal (a.journalOf p)).ring ++ [e] ∧ e.code = 4 ∧ e.old = e.new ∧
        e.origin = .cp q i := by
  obtain ⟨-, hadmits, -, -, -, -, hslot, hoff, -⟩ := id hg
  have hcp : (qPage .cp q i).slot < 4096 := by
    simp only [State.admits, Bool.and_eq_true, decide_eq_true_eq] at hadmits
    obtain ⟨⟨-, hi, -⟩, -⟩ := hadmits
    simp only [qPage, PageKind.slotBase]
    omega
  have hsvc : (a.raise (qPage .cp q i) 2).journalOf p = a.journalOf p :=
    journalOf_of_reg (reg_raise_other _ _ _ (not_eventKey hcp (mPage_slot_lt _) (by decide) (by decide) (by decide) (by decide))) p
  obtain ⟨e, hperf, hpage, hcode, hold, ho⟩ : ∃ e : JEntry,
      a.performWrite { origin := .cp q i, page := p, off := off, write := some v, narrow := true } v =
        (a.raise (qPage .cp q i) 2).journalAdd e ∧ e.page = p ∧ e.code = 4 ∧ e.old = e.new ∧ e.origin = .cp q i :=
    ⟨_, rfl, rfl, rfl, rfl, rfl⟩
  have hjournal := journal_journalAdd (q := a.journalOf p) _ e (by rw [hpage, hsvc]) (journal_raise a (qPage .cp q i) 2 _)
  refine ⟨_, writeRow_completes hg v 0 true (fun _ => ⟨q, i, rfl⟩) hperf (by simp) (by simp), ?_,
    _, congrArg Journal.ring hjournal, hcode, hold, ho⟩
  rw [reg_journalAdd_other _ _ _ _ (by rw [hpage]; exact page_reg_ne_of_off hseq)]
  exact reg_raise_other _ _ _ (not_eventKey hcp hslot hoff hsts hcount hevq)

end Stores

/-- Settles O9, each half by the write that it speaks of. -/
theorem writesStoreAndAreJournalled : Obligations.WritesStoreAndAreJournalled := by
  constructor
  · intro t o win slot off v k r s a p j hg hk hs hoff hspec hrw hrange
    obtain ⟨u, hu, h⟩ := storingWrite_completes v hg hk hs hoff hspec hrw hrange
    exact ⟨u, hu, h⟩
  · intro t q i win slot off v k s a p j hg _ hevq hseq hsts hcount
    obtain ⟨u, hu, h⟩ := narrowWrite_completes v hg hevq hseq hsts hcount
    exact ⟨u, hu, h⟩

/-- Settles O10: the events that hardware sets are set first, and then only what it has not set is cleared. -/
theorem clearingLosesToSets : Obligations.ClearingLosesToSets := by
  intro t o win slot v hw k s a p set hg hk hlead
  obtain ⟨u, hu, h⟩ := evtStsWrite_completes v hw hg hk hlead
  exact ⟨u, hu, h⟩

end Sys2Proof.Proofs
end

section
/-! PROOFS. The ground of an engine's run: what the operations that record its reads, errors and events leave. -/

namespace Sys2Proof.Proofs
open Sys2Proof Sys2Proof.Machine Sys2Proof.Laws

/-! ## The ground of an engine's run

An engine's run records what it finds in registers, events and the schedulers' notes, and writes memory. What it leaves is the
ground: an operation that records nothing but notes leaves all of it, and one that writes leaves its units. -/

/-- The time, and the units that a run changes by its queue entry and its array alone. -/
structure Units where
  now : Nat
  queues : List (Nat × Queue)
  arrays : List (Nat × ArrayState)
  scales : List (Nat × DelayedScale)

/-- The units, and memory with its errors. -/
structure Ground where
  units : Units
  mem : List Host.Cell
  ecc : List (Nat × Nat)

/-- The ground of a state. -/
def ground (s : State) : Ground := ⟨⟨s.now, s.compute.queues, s.compute.arrays, s.compute.scales⟩, s.mem, s.ecc⟩

/-- What every step of a fold leaves, the fold leaves. -/
theorem foldl_same {σ α β : Type} (v : σ → β) {f : σ → α → σ} {l : List α} (h : ∀ t, ∀ x ∈ l, v (f t x) = v t)
    (s : σ) : v (l.foldl f s) = v s := by
  induction l generalizing s with
  | nil => rfl
  | cons x l ih => exact (ih (fun t y hy => h t y (by simp [hy])) _).trans (h s x (by simp))

section Ground
variable (s : State)

/-! ### Operations that leave all of it -/

@[simp] theorem ground_ite {c : Prop} [Decidable c] (t u : State) :
    ground (if c then t else u) = if c then ground t else ground u := apply_ite ground c t u

@[simp] theorem ground_setNum (p : Page) (off v : Nat) : ground (s.setNum p off v) = ground s := by simp [ground]
@[simp] theorem ground_setBit (p : Page) (off i : Nat) (b : Bool) : ground (s.setBit p off i b) = ground s := by simp [ground]
@[simp] theorem ground_addSat (p : Page) (off n : Nat) : ground (s.addSat p off n) = ground s := by simp [ground]
@[simp] theorem ground_setFold (x : FoldSched) : ground (s.setFold x) = ground s := by simp [ground, State.setFold]
@[simp] theorem ground_setStack (q n : Nat) (x : Stack) : ground (s.setStack q n x) = ground s := by simp [ground]
theorem ground_train (x : Train) : ground { s with train := x } = ground s := rfl
theorem ground_mig (x : Mig) : ground { s with mig := x } = ground s := rfl
theorem ground_events (x : Events) : ground { s with events := x } = ground s := rfl

@[simp] theorem ground_raise (p : Page) (bit : Nat) : ground (s.raise p bit) = ground s := by
  obtain ⟨_, ⟨_, _, _, h⟩, -⟩ := touches_raise s p bit
  rw [h]
  rfl

@[simp] theorem ground_raiseIf (c : Bool) (p : Page) (bit : Nat) : ground (s.raiseIf c p bit) = ground s := by
  simp [State.raiseIf]

@[simp] theorem ground_traceEvent (q n event code tag : Nat) : ground (s.traceEvent q n event code tag) = ground s := by
  simp [State.traceEvent, ↓ground_events]

@[simp] theorem ground_phaseStart (p : Nat) : ground (s.phaseStart p) = ground s := by
  simp [State.phaseStart, State.setNum64]

@[simp] theorem ground_openRound (n : Nat) (d : Desc) : ground (s.openRound n d) = ground s := by
  simp [State.openRound, ↓ground_mig]

@[simp] theorem ground_softRepair (a : Nat) : ground (s.softRepair a) = ground s := by
  unfold State.softRepair
  split <;> simp

@[simp] theorem ground_stackCe (p : StackPlace) (line c way j e : Nat) (queue : Bool) :
    ground (s.stackCe p line c way j e queue) = ground s := by
  simp [State.stackCe]

@[simp] theorem ground_stackUe (p : StackPlace) (line c cw : Nat) (rewrite : Bool) :
    ground (s.stackUe p line c cw rewrite) = ground s := by
  simp only [State.stackUe, ground_ite, ground_softRepair, ground_train, ground_raise, ground_setNum, ground_addSat, ground_setStack,
    ite_self]

@[simp] theorem ground_noteCodewordBy (cw : Nat) (way : Option Nat) (queue : Bool) :
    ground (s.noteCodewordBy cw way queue) = ground s := by
  unfold State.noteCodewordBy
  dsimp only
  (repeat' split) <;> simp

@[simp] theorem ground_noteLine (line : Nat) (way : Option Nat) : ground (s.noteLine line way) = ground s :=
  foldl_same ground (by simp) s

@[simp] theorem ground_lineAccess (via : Option (Nat × Nat)) (write merge : Bool) (line : Nat) :
    ground (s.lineAccess via write merge line).1 = ground s := by
  unfold State.lineAccess
  split
  · rfl
  · dsimp only
    split <;> simp

@[simp] theorem ground_dropWriteBacks (a n : Nat) : ground (s.dropWriteBacks a n) = ground s := by
  unfold State.dropWriteBacks
  dsimp only
  split
  · rfl
  · split
    · simp
    · refine foldl_same ground (fun t i _ => ?_) s
      split <;> simp

@[simp] theorem ground_countBins (q sorter id : Nat) (bins : List Nat) : ground (s.countBins q sorter id bins) = ground s := by
  simp [ground, State.countBins]

@[simp] theorem ground_mergeAmax (q id : Nat) (vs : List Machine.Num) : ground (s.mergeAmax q id vs) = ground s := by
  unfold State.mergeAmax
  split <;> simp [ground]

@[simp] theorem ground_countConv (q e : Nat) (d : Desc) (rows : List ConvRow) (vals : List Machine.Num) :
    ground (s.countConv q e d rows vals) = ground s := by
  simp [State.countConv]

/-! ### Operations that leave the units -/

@[simp] theorem units_setEcc (c v : Nat) : (ground (s.setEcc c v)).units = (ground s).units := by simp [ground]
@[simp] theorem units_mem (m : List Host.Cell) : (ground { s with mem := m }).units = (ground s).units := rfl

@[simp] theorem units_upset (flips : List (Nat × Nat)) : (ground (s.upset flips)).units = (ground s).units :=
  foldl_same (fun t => (ground t).units) (by simp) s

@[simp] theorem units_absorb (c : Nat) : (ground (s.absorb c)).units = (ground s).units := by
  unfold State.absorb
  split <;> simp

@[simp] theorem units_settleCodeword (way : Option Nat) (c cover : Nat) (merge : Bool) :
    (ground (s.settleCodeword way c cover merge)).units = (ground s).units := by
  unfold State.settleCodeword
  dsimp only
  (repeat' split) <;> simp

@[simp] theorem units_settleLine (way : Option Nat) (line : Nat) (cover : Nat → Nat) :
    (ground (s.settleLine way line cover)).units = (ground s).units :=
  foldl_same (fun t => (ground t).units) (by simp) s

@[simp] theorem units_writeLanes (way : Option Nat) (line : Nat) (ws : List (Nat × Byte)) :
    (ground (s.writeLanes way line ws)).units = (ground s).units := by
  unfold State.writeLanes
  dsimp only
  rw [units_mem, units_settleLine]
  refine foldl_same (fun t => (ground t).units) (fun t c _ => ?_) s
  split <;> simp

@[simp] theorem units_performReq (r : MemReq) : (ground (s.performReq r)).units = (ground s).units := by
  unfold State.performReq
  split <;> simp

@[simp] theorem units_flushLine (line : Nat) : (ground (s.flushLine line)).units = (ground s).units := by
  unfold State.flushLine
  split
  · rfl
  · dsimp only
    split
    · exact (foldl_same (fun t => (ground t).units) (by simp) _).trans (by simp)
    · rfl

@[simp] theorem units_flush (a n : Nat) : (ground (s.flush a n)).units = (ground s).units := by
  unfold State.flush
  split
  · rfl
  · exact foldl_same (fun t => (ground t).units) (by simp) s

@[simp] theorem units_noteReadBy (via : Option (Nat × Nat)) (a n : Nat) :
    (ground (s.noteReadBy via a n)).units = (ground s).units :=
  (foldl_same (fun t => (ground t).units) (by simp) _).trans (by simp)

@[simp] theorem units_engineReads (p : Page) (l : List (Nat × Nat)) :
    (ground (s.engineReads p l)).units = (ground s).units := by
  unfold State.engineReads
  rw [ground_raiseIf]
  exact foldl_same (fun t => (ground t).units) (by simp) s

@[simp] theorem units_writeBytes (a : Nat) (bs : List Byte) : (ground (s.writeBytes a bs)).units = (ground s).units := by
  unfold State.writeBytes State.writeBytesBy
  dsimp only
  rw [units_mem, ground_dropWriteBacks]
  exact (foldl_same (fun t => (ground t).units) (by simp) _).trans (by simp)

@[simp] theorem units_writeNat (a n v : Nat) : (ground (s.writeNat a n v)).units = (ground s).units := units_writeBytes s a _

@[simp] theorem units_putRow16 (a : Nat) (codes : List (Option Nat)) :
    (ground (s.putRow16 a codes)).units = (ground s).units := by
  unfold State.putRow16
  split
  · simp
  · refine foldl_same (fun t => (ground t).units) (fun t c _ => ?_) s
    split <;> simp

@[simp] theorem units_putBlock (f : Fmt) (len elem scale b : Nat) (o : BlockOut) :
    (ground (s.putBlock f len elem scale b o)).units = (ground s).units := by
  unfold State.putBlock
  simp

@[simp] theorem units_putConvRow (m : ConvMode) (elem scale : Nat) (r : ConvRow) :
    (ground (s.putConvRow m elem scale r)).units = (ground s).units := by
  unfold State.putConvRow
  split
  · refine foldl_same (fun t => (ground t).units) (fun t b _ => ?_) s
    split <;> simp
  · simp

end Ground

end Sys2Proof.Proofs
end

section
/-! PROOFS. Memory of the Fold: what a read finds, and what bytes, words and blocks are there once they are written. -/

namespace Sys2Proof.Proofs
open Sys2Proof Sys2Proof.Machine Sys2Proof.Laws

/-! ## Memory of the Fold

Addresses from the first Fold on name no stack: no access of a stack waits there, and a write is the bytes written. -/

/-- The Fold windows and all above them (R208). -/
abbrev AboveStacks (a : Nat) : Prop := 0x20000000000 ≤ a

theorem aboveStacks_foldBase (q n : Nat) : AboveStacks (foldBase q + n) := by
  unfold AboveStacks foldBase
  omega

theorem regionOf_aboveStacks {a : Nat} (h : AboveStacks a) :
    regionOf a = .none ∨ (∃ q o, regionOf a = .fold q o) ∨ ∃ o, regionOf a = .window o := by
  have hf : ¬ a < 4 * fSize := by unfold fSize; omega
  have hg : ¬ a < 0x10000000000 := by omega
  have hd : ¬ a < 0x20000000000 := by omega
  simp only [regionOf, hf, hg, hd, if_false]
  (repeat' split) <;> simp

theorem stackPlace_aboveStacks {a : Nat} (h : AboveStacks a) : stackPlace a = none := by
  obtain hr | ⟨q, o, hr⟩ | ⟨o, hr⟩ := regionOf_aboveStacks h <;> simp [stackPlace, hr]

theorem aboveStacks_of_mem_linesOf {a n l : Nat} (h : AboveStacks a) (hl : l ∈ linesOf a n) : AboveStacks l := by
  unfold linesOf at hl
  split at hl
  · simp at hl
  · obtain ⟨i, -, rfl⟩ := List.mem_map.1 hl
    omega

section Fold
variable (s : State) {a : Nat}

/-- Nothing waits at a line above the stacks. -/
theorem flush_aboveStacks (n : Nat) (h : AboveStacks a) : s.flush a n = s := by
  unfold State.flush
  split
  · rfl
  · refine foldl_same id (fun t l hl => ?_) s
    simp [State.flushLine, stackPlace_aboveStacks (aboveStacks_of_mem_linesOf h hl)]

theorem ground_noteReadBy (via : Option (Nat × Nat)) (n : Nat) (h : AboveStacks a) :
    ground (s.noteReadBy via a n) = ground s := by
  unfold State.noteReadBy
  rw [flush_aboveStacks s n h]
  exact foldl_same ground (by simp) s

/-- An engine's reads of the Fold note what they find and leave the rest. -/
theorem ground_engineReads (p : Page) {l : List (Nat × Nat)} (h : ∀ r ∈ l, AboveStacks r.1) :
    ground (s.engineReads p l) = ground s := by
  unfold State.engineReads
  rw [ground_raiseIf]
  exact foldl_same ground (fun t r hr => ground_noteReadBy t _ r.2 (h r hr)) s

theorem mem_settleCodeword (way : Option Nat) (c cover : Nat) (merge : Bool) (h : AboveStacks (16 * c)) :
    (s.settleCodeword way c cover merge).mem = s.mem := by
  unfold State.settleCodeword
  obtain hr | ⟨q, o, hr⟩ | ⟨o, hr⟩ := regionOf_aboveStacks h
  · simp [hr]
  · simp only [hr]
    (repeat' split) <;> simp
  · simp [hr]

theorem mem_settleLine (way : Option Nat) {line : Nat} (cover : Nat → Nat) (h : AboveStacks line) (h16 : line % 16 = 0) :
    (s.settleLine way line cover).mem = s.mem :=
  foldl_same State.mem (fun t i _ => mem_settleCodeword t _ _ _ _ (by omega)) s

/-- Bytes written above the stacks are what memory then holds, and no other byte changes. -/
theorem mem_writeBytes (bs : List Byte) (h : AboveStacks a) : (s.writeBytes a bs).mem = memPut s.mem a bs := by
  unfold State.writeBytes State.writeBytesBy
  dsimp only
  rw [flush_aboveStacks s _ h]
  congr 1
  refine foldl_same State.mem (fun t l hl => ?_) s
  refine mem_settleLine t _ _ (aboveStacks_of_mem_linesOf h hl) ?_
  unfold linesOf at hl
  split at hl
  · simp at hl
  · obtain ⟨i, -, rfl⟩ := List.mem_map.1 hl
    omega

theorem mem_writeNat (n v : Nat) (h : AboveStacks a) : (s.writeNat a n v).mem = memPut s.mem a (leBytes n v) :=
  mem_writeBytes s _ h

end Fold

/-! ### Reads of memory without errors -/

section Clean
variable {s : State} {a : Nat}

theorem linePoisoned_of_no_ecc (h : s.ecc = []) (a : Nat) : s.linePoisoned a = false := by
  simp [State.linePoisoned, State.poisonedAt, State.check, State.eccAt, h, mapGet]

theorem codeword_of_no_ecc (h : s.ecc = []) (c : Nat) : s.codeword c = memBytes s.mem (16 * c) 16 := by
  simp [State.codeword, State.eccAt, h, mapGet]

theorem memBytes_add (m : List Host.Cell) (a j k : Nat) : memBytes m a (j + k) = memBytes m a j ++ memBytes m (a + j) k := by
  simp [memBytes, List.range_add, Nat.add_assoc]

theorem drop_memBytes (m : List Host.Cell) (a j k : Nat) : (memBytes m a (j + k)).drop j = memBytes m (a + j) k := by
  rw [memBytes_add, List.drop_left' (by simp [memBytes])]

theorem take_memBytes (m : List Host.Cell) (a j k : Nat) : (memBytes m a (j + k)).take j = memBytes m a j := by
  rw [memBytes_add, List.take_left' (by simp [memBytes])]

/-- Codewords in a row are the bytes from the first one on. -/
theorem flatMap_codewords (m : List Host.Cell) (c k : Nat) :
    ((List.range k).map (c + ·)).flatMap (fun x => memBytes m (16 * x) 16) = memBytes m (16 * c) (16 * k) := by
  induction k with
  | zero => simp [memBytes]
  | succ k ih => simp [List.range_succ, ih, Nat.mul_add, memBytes_add]

/-- A read of memory without errors, above the stacks, delivers the bytes that are there. -/
theorem readBytes_of_no_ecc (n : Nat) (h : AboveStacks a) (he : s.ecc = []) : s.readBytes a n = memBytes s.mem a n := by
  unfold State.readBytes State.readMarked
  rw [flush_aboveStacks s n h]
  obtain rfl | hn := Nat.eq_zero_or_pos n
  · simp [memBytes]
  · have hlen : 16 * ((a + n - 1) / 16 + 1 - a / 16) = a % 16 + (n + (16 * ((a + n - 1) / 16 + 1) - (a + n))) := by omega
    have haddr : 16 * (a / 16) + a % 16 = a := by omega
    simp only [codewordsOf, hn.ne', if_false, List.map_take, List.map_drop, List.map_flatMap, List.map_map, Function.comp_def,
      List.map_id', codeword_of_no_ecc he]
    rw [flatMap_codewords, hlen, drop_memBytes, haddr, take_memBytes]

theorem rowValues_of_no_ecc (f : Fmt) (n : Nat) (h : AboveStacks a) (he : s.ecc = []) :
    s.rowValues f a n = (List.range n).map (fun i => decodeElem f (word16 s.mem (a + 2 * i))) := by
  simp only [State.rowValues, State.row16, List.map_map]
  refine List.map_congr_left (fun i _ => ?_)
  have hi : AboveStacks (a + 2 * i) := Nat.le_add_right_of_le h
  simp [linePoisoned_of_no_ecc he, State.readNat, readBytes_of_no_ecc 2 hi he, word16]

end Clean

/-! ### Bytes of numbers, and rows of 16-bit words -/

@[simp] theorem leBytes_length (n v : Nat) : (leBytes n v).length = n := by
  induction n generalizing v with
  | zero => rfl
  | succ n ih => simp [leBytes, ih]

theorem leNat_leBytes (n v : Nat) : leNat (leBytes n v) = v % 2 ^ (8 * n) := by
  induction n generalizing v with
  | zero => simp [leBytes, leNat, Nat.mod_one]
  | succ n ih =>
    rw [leBytes, leNat, ih, BitVec.toNat_ofNat, show 8 * (n + 1) = 8 + 8 * n by omega, Nat.pow_add, Nat.mod_mul]

/-- Bytes that were written read back. -/
theorem memBytes_memPut (m : List Host.Cell) (a : Nat) (bs : List Byte) : memBytes (memPut m a bs) a bs.length = bs := by
  refine List.ext_getElem (by simp [memBytes]) (fun i _ hi => ?_)
  simp [memBytes, memGet_put_same m a i bs hi]

/-- Bytes apart from those written read as before. -/
theorem memBytes_memPut_other (m : List Host.Cell) (a x n : Nat) (bs : List Byte) (h : Apart x n a bs.length) :
    memBytes (memPut m a bs) x n = memBytes m x n := by
  refine List.map_congr_left (fun i hi => memGet_put_other m a (x + i) bs ?_)
  have := List.mem_range.1 hi
  omega

theorem word16_memPut (m : List Host.Cell) (a c : Nat) : word16 (memPut m a (leBytes 2 c)) a = c % 65536 := by
  have h := memBytes_memPut m a (leBytes 2 c)
  rw [leBytes_length] at h
  rw [word16, h, leNat_leBytes]
  rfl

theorem word16_of_memGet {m m' : List Host.Cell} {x : Nat} (h : ∀ y, x ≤ y → y < x + 2 → memGet m' y = memGet m y) :
    word16 m' x = word16 m x := by
  unfold word16 memBytes
  rw [List.map_congr_left]
  intro i hi
  have := List.mem_range.1 hi
  exact h _ (by omega) (by omega)

/-- Memory after one 16-bit code was written; `none` leaves it. -/
def putWord (m : List Host.Cell) (a : Nat) : Option Nat → List Host.Cell
  | none => m
  | some c => memPut m a (leBytes 2 c)

/-- Memory after a row of 16-bit codes was written. -/
def putWords (m : List Host.Cell) (a : Nat) : List (Option Nat) → List Host.Cell
  | [] => m
  | c :: cs => putWords (putWord m a c) (a + 2) cs

theorem memGet_putWord_other (m : List Host.Cell) (a y : Nat) (c : Option Nat) (h : Apart y 1 a 2) :
    memGet (putWord m a c) y = memGet m y := by
  cases c with
  | none => rfl
  | some c => exact memGet_put_other _ _ _ _ (by rw [leBytes_length]; omega)

theorem memGet_putWords_other (m : List Host.Cell) (a y : Nat) (cs : List (Option Nat)) (h : Apart y 1 a (2 * cs.length)) :
    memGet (putWords m a cs) y = memGet m y := by
  induction cs generalizing m a with
  | nil => rfl
  | cons c cs ih =>
    simp only [List.length_cons] at h
    rw [putWords, ih _ _ (by omega), memGet_putWord_other _ _ _ _ (by omega)]

theorem word16_putWords (m : List Host.Cell) (a j c : Nat) (cs : List (Option Nat)) (h : cs[j]? = some (some c)) :
    word16 (putWords m a cs) (a + 2 * j) = c % 65536 := by
  induction cs generalizing m a j with
  | nil => simp at h
  | cons d cs ih =>
    rw [putWords]
    cases j with
    | zero =>
      obtain rfl : d = some c := by simpa using h
      rw [word16_of_memGet (fun y _ _ => memGet_putWords_other _ _ _ _ (by omega))]
      exact word16_memPut m a c
    | succ j =>
      rw [show a + 2 * (j + 1) = a + 2 + 2 * j by omega]
      exact ih _ _ j (by simpa using h)

theorem memPut_append (m : List Host.Cell) (a : Nat) (bs cs : List Byte) :
    memPut m a (bs ++ cs) = memPut (memPut m a bs) (a + bs.length) cs := by
  induction bs generalizing m a with
  | nil => rfl
  | cons b bs ih => simp [memPut, ih, Nat.add_assoc, Nat.add_comm]

theorem memPut_words (m : List Host.Cell) (a : Nat) (cs : List (Option Nat)) (h : cs.all Option.isSome = true) :
    memPut m a (cs.flatMap (fun c => leBytes 2 (c.getD 0))) = putWords m a cs := by
  induction cs generalizing m a with
  | nil => rfl
  | cons c cs ih =>
    obtain ⟨c, rfl⟩ := Option.isSome_iff_exists.1 (List.all_eq_true.1 h c (by simp))
    rw [List.flatMap_cons, memPut_append, leBytes_length]
    exact ih _ _ (by simpa using h)

/-- A fold that writes one code of a row after the other. -/
theorem mem_foldl_putWord {f : State → Option Nat × Nat → State} {a : Nat}
    (hf : ∀ s c k, (f s (c, k)).mem = putWord s.mem (a + 2 * k) c) (s : State) (cs : List (Option Nat)) (k : Nat) :
    ((cs.zipIdx k).foldl f s).mem = putWords s.mem (a + 2 * k) cs := by
  induction cs generalizing s k with
  | nil => rfl
  | cons c cs ih => rw [List.zipIdx_cons, List.foldl_cons, ih, hf, putWords, Nat.mul_add, Nat.add_assoc]

/-- A row of codes written above the stacks. -/
theorem mem_putRow16 (s : State) {a : Nat} (cs : List (Option Nat)) (h : AboveStacks a) :
    (s.putRow16 a cs).mem = putWords s.mem a cs := by
  unfold State.putRow16
  split
  · next hall => rw [mem_writeBytes s _ h, memPut_words _ _ _ hall]
  · refine mem_foldl_putWord (fun t c k => ?_) s cs 0
    cases c with
    | none => rfl
    | some c => exact mem_writeNat t _ _ (Nat.le_add_right_of_le h)

/-- A block written above the stacks: its elements, then its scale byte. -/
theorem mem_putBlock (s : State) (f : Fmt) (len b : Nat) {elem scale : Nat} (o : BlockOut) (he : AboveStacks elem)
    (hs : AboveStacks scale) :
    (s.putBlock f len elem scale b o).mem =
      memPut (memPut s.mem (elem + b * fieldBytes f len)
        (leBytes (fieldBytes f len) (packElems f.width (padTo len 0 o.codes)))) (scale + b) (leBytes 1 o.scale) := by
  unfold State.putBlock
  rw [mem_writeNat _ _ _ (Nat.le_add_right_of_le hs), mem_writeNat _ _ _ (Nat.le_add_right_of_le he)]

end Sys2Proof.Proofs
end

section
/-! PROOFS. A conversion engine's entry: what its start and its end leave, and what its refusal records. -/

namespace Sys2Proof.Proofs
open Sys2Proof Sys2Proof.Machine Sys2Proof.Laws

/-! ## Registers that no trace record touches (R364, R381 to R383) -/

/-- What a register holds, with what hardware did to it in the present CCLK. -/
def seen (s : State) (p : Page) (off : Nat) : Word × Option RegChange := (s.reg p off, s.change p off)

theorem change_key {s : State} {p : Page} {off : Nat} {c : RegChange} (h : s.change p off = some c) : c.key = p.reg off := by
  have := List.find?_some h
  simp only [Bool.and_eq_true, beq_iff_eq] at this
  exact this.1

section Seen
variable (s : State) {p p' : Page} {off off' : Nat}

theorem seen_setNum_other (v : Nat) (h : p.reg off ≠ p'.reg off') : seen (s.setNum p' off' v) p off = seen s p off := by
  unfold seen State.change State.setNum
  rw [reg_setReg_other _ _ _ _ _ _ h, setReg_cycle, setReg_now]

theorem seen_setBit_other (i : Nat) (b : Bool) (h : p.reg off ≠ p'.reg off') :
    seen (s.setBit p' off' i b) p off = seen s p off := seen_setNum_other s _ h

theorem seen_note_other (add set : Nat) (h : p.reg off ≠ p'.reg off') : seen (s.note p' off' add set) p off = seen s p off := by
  have hkey : ((s.change p' off').getD { key := p'.reg off', at_ := s.now, before := s.num p' off' }).key ≠ p.reg off := by
    cases hc : s.change p' off' with
    | none => exact h.symm
    | some c => simpa [change_key hc] using h.symm
  refine Prod.ext rfl ?_
  simp only [seen, State.note]
  generalize (s.change p' off').getD _ = last at hkey ⊢
  simp only [State.change, List.find?_append, List.find?_filter]
  rw [List.find?_singleton, if_neg (by simp [hkey]), Option.or_none]
  refine congrArg (List.find? · s.cycle) (funext fun c => ?_)
  by_cases hc : c.key = p.reg off
  · simp [hc, h, beq_eq_decide]
  · simp [hc]

theorem seen_addSat_other (n : Nat) (h : p.reg off ≠ p'.reg off') : seen (s.addSat p' off' n) p off = seen s p off := by
  unfold State.addSat
  rw [seen_setNum_other _ _ h]
  split
  · rfl
  · exact seen_note_other s n 0 h

/-- A register of another page than EVQ. -/
abbrev OffEvq (p : Page) (off : Nat) : Prop := ∀ o < 4096, p.reg off ≠ (mPage .evq).reg o

theorem offEvq_of_page (hp : p.slot < 4096) (ho : off < 4096) (h : p ≠ mPage .evq) : OffEvq p off :=
  fun _ hq => page_reg_ne_of_page hp (mPage_slot_lt _) ho hq h

theorem seen_placeAlarm (bit : Nat) (forced : Bool) (h : OffEvq p off) :
    seen (s.placeAlarm p' bit forced).1 p off = seen s p off := by
  have hc := h Reg.EVQ_ALARM_COALESCED (by decide)
  have ho := h Reg.EVQ_ALARM_PAGE_OVF (by decide)
  unfold State.placeAlarm
  dsimp only
  split
  · exact seen_addSat_other _ _ hc
  · split
    · rfl
    · split
      · exact (seen_addSat_other _ _ ho).trans (seen_addSat_other _ _ hc)
      · exact seen_addSat_other _ _ ho

theorem seen_setEvent_evq (bit : Nat) (forced : Bool) (h : OffEvq p off) :
    seen (s.setEvent (mPage .evq) bit forced).1 p off = seen s p off := by
  have hset : seen (eventSet s (mPage .evq) bit) p off = seen s p off :=
    (seen_addSat_other _ _ (h _ (by decide))).trans
      ((seen_setBit_other _ _ _ (h _ (by decide))).trans (seen_note_other s _ _ (h _ (by decide))))
  rw [setEvent_eq]
  split
  · exact (seen_placeAlarm _ _ _ h).trans hset
  · exact hset

theorem seen_setEvents_evq (bit : Nat) (forced : Bool) (h : OffEvq p off) :
    seen (s.setEvents (mPage .evq) bit forced) p off = seen s p off := by
  unfold State.setEvents
  dsimp only
  split
  · exact (seen_setEvent_evq _ _ _ h).trans (seen_setEvent_evq _ _ _ h)
  · exact seen_setEvent_evq _ _ _ h

theorem seen_raise_evq (bit : Nat) (h : OffEvq p off) : seen (s.raise (mPage .evq) bit) p off = seen s p off := by
  unfold State.raise
  dsimp only
  split
  · rfl
  · exact seen_setEvents_evq _ _ _ h

theorem seen_traceEvent (q n event code tag : Nat) (h : OffEvq p off) :
    seen (s.traceEvent q n event code tag) p off = seen s p off := by
  unfold State.traceEvent
  dsimp only
  split
  · split
    · rfl
    · exact (seen_raise_evq _ _ h).trans (seen_addSat_other _ _ (h _ (by decide)))
  · rfl

end Seen

/-! ## A descriptor starts, and is done -/

section Entries
variable {a s t : State} {q n e i : Nat} {w : WinEntry}

theorem startable_eq (h : s.startable q n = some (i, w)) :
    s.working (s.queuePage q n) = true ∧ (s.queue q n).window[i]? = some w := by
  unfold State.startable at h
  dsimp only at h
  split at h
  · simp at h
  · next hw =>
    simp only [Option.map_eq_some_iff, Prod.mk.injEq] at h
    obtain ⟨w', hi, hfound, rfl⟩ := h
    simp only [Bool.or_eq_true, Bool.not_eq_true', not_or] at hw
    exact ⟨by simpa using hw.2, by rw [← hfound]; exact hi⟩

theorem queuePage_ce (s : State) (q : Nat) (he : e < 8) : s.queuePage q (112 + e) = qPage .ce q e := by
  have hengine : engineOf (112 + e) = some (.ce, e) := by
    simp only [engineOf]
    rw [if_neg (by omega), if_neg (by omega), if_pos (by omega), Nat.add_sub_cancel_left]
  simp [State.queuePage, hengine]

/-- Only the four quarters have conversion engines. -/
theorem quarter_of_startable_ce (he : e < 8) (h : s.startable q (112 + e) = some (i, w)) : q < 4 := by
  obtain ⟨hwork, -⟩ := startable_eq h
  rw [queuePage_ce s q he] at hwork
  by_contra hq
  have hkind : (qPage .ce q e).kind = none := by
    unfold Page.kind
    rw [if_neg (show ¬ (qPage .ce q e).win < 4 from hq)]
    by_cases h4 : (qPage .ce q e).win = 4
    · rw [if_pos h4]
      interval_cases e <;> rfl
    · rw [if_neg h4]
  simp [State.working, hkind] at hwork

theorem queue_of_units (h : (ground t).units = (ground s).units) (q n : Nat) : t.queue q n = s.queue q n :=
  congrArg (fun u : Units => mapGet (fun _ => ({} : Queue)) u.queues (256 * q + n)) h

theorem array_of_units (h : (ground t).units = (ground s).units) (q p x : Nat) : t.array q p x = s.array q p x :=
  congrArg (fun u : Units => mapGet (fun _ => ({} : ArrayState)) u.arrays (96 * q + 3 * p + x)) h

theorem delayed_of_units (h : (ground t).units = (ground s).units) (q id : Nat) : t.delayed q id = s.delayed q id :=
  congrArg (fun u : Units => mapGet (fun _ => ({} : DelayedScale)) u.scales (65536 * q + id)) h

theorem now_of_units (h : (ground t).units = (ground s).units) : t.now = s.now := congrArg Units.now h

/-- The window entry of a descriptor that starts. -/
def started (s : State) (q : Nat) (w : WinEntry) : WinEntry :=
  { w with status := .running, startedAt := s.now, salt := s.salt q, attempt := s.attempt }

theorem ground_startEntry (s : State) (q n i : Nat) (w : WinEntry) :
    ground (s.startEntry q n i w) = ground (s.setEntry q n i (started s q w)) := by
  unfold State.startEntry
  rw [ground_traceEvent, ground_openRound]
  rfl

theorem queue_setEntry (s : State) (q n i : Nat) (w : WinEntry) :
    (s.setEntry q n i w).queue q n = { s.queue q n with window := (s.queue q n).window.set i w } :=
  queue_setQueue_same s q n _

@[simp] theorem mem_setEntry (s : State) (q n i : Nat) (w : WinEntry) : (s.setEntry q n i w).mem = s.mem := rfl
@[simp] theorem ecc_setEntry (s : State) (q n i : Nat) (w : WinEntry) : (s.setEntry q n i w).ecc = s.ecc := rfl

theorem mem_of_ground (h : ground t = ground s) : t.mem = s.mem := congrArg Ground.mem h
theorem ecc_of_ground (h : ground t = ground s) : t.ecc = s.ecc := congrArg Ground.ecc h

theorem mem_startEntry (s : State) (q n i : Nat) (w : WinEntry) : (s.startEntry q n i w).mem = s.mem :=
  (mem_of_ground (ground_startEntry s q n i w)).trans (mem_setEntry ..)

theorem ecc_startEntry (s : State) (q n i : Nat) (w : WinEntry) : (s.startEntry q n i w).ecc = s.ecc :=
  (ecc_of_ground (ground_startEntry s q n i w)).trans (ecc_setEntry ..)

theorem now_startEntry (s : State) (q n i : Nat) (w : WinEntry) : (s.startEntry q n i w).now = s.now :=
  now_of_units (s := s.setEntry q n i (started s q w)) (congrArg Ground.units (ground_startEntry s q n i w))

theorem array_startEntry (s : State) (q n i : Nat) (w : WinEntry) (q' p x : Nat) :
    (s.startEntry q n i w).array q' p x = s.array q' p x :=
  array_of_units (s := s.setEntry q n i (started s q w)) (congrArg Ground.units (ground_startEntry s q n i w)) q' p x

theorem delayed_startEntry (s : State) (q n i : Nat) (w : WinEntry) (q' id : Nat) :
    (s.startEntry q n i w).delayed q' id = s.delayed q' id :=
  delayed_of_units (s := s.setEntry q n i (started s q w)) (congrArg Ground.units (ground_startEntry s q n i w)) q' id

@[simp] theorem mem_finishEntry (s : State) (q n i stop : Nat) : (s.finishEntry q n i stop).mem = s.mem := by
  unfold State.finishEntry
  split <;> rfl

theorem array_finishEntry (s : State) (q n i stop q' p x : Nat) : (s.finishEntry q n i stop).array q' p x = s.array q' p x := by
  unfold State.finishEntry
  split <;> rfl

/-- What started, and was left alone since, is run when it is finished. -/
theorem ran_finishEntry (hw : (a.queue q n).window[i]? = some w)
    (ht : (ground t).units = (ground (a.startEntry q n i w)).units) (stop : Nat) :
    Ran a (t.finishEntry q n i stop) q n i w stop := by
  have hq : t.queue q n = { a.queue q n with window := (a.queue q n).window.set i (started a q w) } := by
    rw [queue_of_units ht, queue_of_units (congrArg Ground.units (ground_startEntry a q n i w)), queue_setEntry]
  have hi : i < (a.queue q n).window.length := (List.getElem?_eq_some_iff.1 hw).1
  have hfound : (t.queue q n).window[i]? = some (started a q w) := by
    rw [hq]
    exact List.getElem?_set_self hi
  unfold State.finishEntry
  simp only [hfound]
  rw [Ran, queue_setEntry, hq]
  simp only [List.set_set]
  rfl

/-- What a start touches beside its window entry: MIG_STS, the start of MIGRATE, and EVQ. -/
theorem seen_startEntry (s : State) (q n i : Nat) (w : WinEntry) {p : Page} {off : Nat} (hp : p.slot < 4096) (ho : off < 4096)
    (h : p = mPage .rng ∨ (p = mPage .step ∧ off < Reg.STEP_PTp_START_LO)) :
    seen (s.startEntry q n i w) p off = seen s p off := by
  have hevq : OffEvq p off := offEvq_of_page hp ho (by rcases h with rfl | ⟨rfl, -⟩ <;> decide)
  have hmig : p.reg off ≠ (mPage .mig).reg Reg.MIG_MIG_STS :=
    page_reg_ne_of_page hp (mPage_slot_lt _) ho (by decide) (by rcases h with rfl | ⟨rfl, -⟩ <;> decide)
  have hstep (o : Nat) (h4 : o < 4096) (hlo : Reg.STEP_PTp_START_LO ≤ o) : p.reg off ≠ (mPage .step).reg o := by
    rcases h with rfl | ⟨rfl, hlt⟩
    · exact page_reg_ne_of_page hp (mPage_slot_lt _) ho h4 (by decide)
    · exact page_reg_ne_of_off (by omega)
  have hphase (t : State) : seen (t.phaseStart 7) p off = seen t p off := by
    unfold State.phaseStart State.setNum64
    dsimp only
    split
    · exact (seen_setNum_other _ _ (hstep _ (by decide) (by decide))).trans
        (seen_setNum_other _ _ (hstep _ (by decide) (by decide)))
    · rfl
  unfold State.startEntry
  rw [seen_traceEvent _ _ _ _ _ _ hevq]
  unfold State.openRound
  split
  · exact (hphase _).trans (seen_setBit_other _ _ _ hmig)
  · rfl

/-- A start leaves its descriptor's draws as they were (R119, R120). -/
theorem drawsOf_startEntry (hq : q < 4) : (s.startEntry q n i w).drawsOf q w = s.drawsOf q w := by
  have hrng (o : Nat) (ho : o < 4096) : seen (s.startEntry q n i w) (mPage .rng) o = seen s (mPage .rng) o :=
    seen_startEntry s q n i w (mPage_slot_lt _) ho (.inl rfl)
  have hstep (o : Nat) (ho : o < Reg.STEP_PTp_START_LO) : seen (s.startEntry q n i w) (mPage .step) o = seen s (mPage .step) o :=
    seen_startEntry s q n i w (mPage_slot_lt _) (Nat.lt_trans ho (by decide)) (.inr ⟨rfl, ho⟩)
  have hreg {p : Page} {o : Nat} (h : seen (s.startEntry q n i w) p o = seen s p o) :
      (s.startEntry q n i w).num p o = s.num p o := congrArg (fun x => x.1.toNat) h
  have hsalt : (s.startEntry q n i w).salt q = s.salt q := by
    have h := hrng (Reg.RNG_SALT_Qq + 4 * q) (by unfold Reg.RNG_SALT_Qq; omega)
    unfold State.salt State.field
    rw [hreg h, show (s.startEntry q n i w).change _ _ = _ from congrArg Prod.snd h]
    rfl
  simp only [State.drawsOf, State.keyOfEntry, State.num64, State.attempt, hsalt, hreg (hrng Reg.RNG_SEED_LO (by decide)),
    hreg (hrng Reg.RNG_SEED_HI (by decide)), hreg (hstep Reg.STEP_ATTEMPT_LO (by decide)),
    hreg (hstep Reg.STEP_ATTEMPT_HI (by decide))]

/-- A conversion descriptor refused at its start: the queue halts, ERR_INFO holds the code and the tag, and memory is as it was. -/
theorem refuseStart_ce (s : State) (i code : Nat) (w : WinEntry) (hq : q < 4) (he : e < 8) (hc : code < 2 ^ 16) :
    ((s.refuseStart q (112 + e) i code w false).queue q (112 + e)).halt = some .refused ∧
    (s.refuseStart q (112 + e) i code w false).num (qPage .ce q e) Reg.ENG_ERR_INFO = code + 65536 * dTag w.desc ∧
    (s.refuseStart q (112 + e) i code w false).mem = s.mem := by
  have hslot : (qPage .ce q e).slot < 4096 := by simp only [qPage, PageKind.slotBase]; omega
  have hpage : qPage .ce q e ≠ mPage .evq := fun h => absurd (congrArg Page.win h) (by simp only [qPage, mPage]; omega)
  have htag : dTag w.desc < 2 ^ 16 := Nat.mod_lt _ (by decide)
  simp only [State.refuseStart, State.refuse, queuePage_ce _ q he, queueReg, show ¬ 112 + e < 96 by omega,
    show ¬ 160 ≤ 112 + e by omega, if_false, State.raiseIf, Bool.false_eq_true]
  generalize hu : State.setQueue (State.setQueue s _ _ _) _ _ _ = u
  refine ⟨?_, ?_, ?_⟩
  · rw [queue_of_units (s := u) (by simp), ← hu, queue_setQueue_same]
  · have hseen := congrArg (fun x => x.1.toNat) (seen_traceEvent
      ((u.setNum (qPage .ce q e) Reg.ENG_ERR_INFO (code + 65536 * dTag w.desc)).raise (qPage .ce q e) 0)
      q (112 + e) 2 code (dTag w.desc) (offEvq_of_page (off := Reg.ENG_ERR_INFO) hslot (by decide) hpage))
    refine hseen.trans ?_
    have hevent := not_eventKey hslot hslot (by decide : Reg.ENG_ERR_INFO < 4096) (by decide) (by decide) hpage
    refine (congrArg BitVec.toNat (reg_raise_other _ _ 0 hevent)).trans ?_
    rw [← State.num, num_setNum, Nat.mod_eq_of_lt (by omega)]
  · rw [mem_of_ground (s := u) (by simp), ← hu]
    rfl

end Entries

end Sys2Proof.Proofs
end

section
/-! PROOFS. Conversions: what a converted row holds, and what CONVERT and CONVERT_HANDOFF do. -/

namespace Sys2Proof.Proofs
open Sys2Proof Sys2Proof.Machine Sys2Proof.Laws

/-! ## Rows of values and their conversion -/

section Chunks
variable {α : Type} {n : Nat}

theorem getElem?_chunksFuel (hn : 0 < n) (k r : Nat) (l : List α) (hk : l.length ≤ k) :
    (chunksFuel n k l)[r]? = if n * r < l.length then some ((l.drop (n * r)).take n) else none := by
  induction k generalizing l r with
  | zero => simp [chunksFuel, List.eq_nil_of_length_eq_zero (Nat.le_zero.1 hk)]
  | succ k ih =>
    cases l with
    | nil => simp [chunksFuel]
    | cons x l =>
      rw [chunksFuel]
      cases r with
      | zero => simp
      | succ r =>
        rw [List.getElem?_cons_succ, ih r _ (by simp only [List.length_drop, List.length_cons] at hk ⊢; omega),
          List.drop_drop, List.length_drop, Nat.mul_succ, Nat.add_comm n]
        exact if_congr (by omega) rfl rfl

/-- Piece r of a list cut into pieces of n. -/
theorem getElem?_chunks (hn : 0 < n) (r : Nat) (l : List α) :
    (chunks n l)[r]? = if n * r < l.length then some ((l.drop (n * r)).take n) else none :=
  getElem?_chunksFuel hn _ r l le_rfl

theorem chunks_length_le (hn : 0 < n) (l : List α) : (chunks n l).length ≤ (l.length + n - 1) / n := by
  rw [← List.getElem?_eq_none_iff, getElem?_chunks hn, if_neg]
  have := Nat.lt_mul_div_succ (l.length + n - 1) hn
  rw [Nat.mul_succ] at this
  omega

theorem length_le_of_mem_chunks (hn : 0 < n) {l c : List α} (h : c ∈ chunks n l) : c.length ≤ n := by
  obtain ⟨r, hr⟩ := List.mem_iff_getElem?.1 h
  rw [getElem?_chunks hn] at hr
  split at hr
  · rw [← Option.some.inj hr, List.length_take]
    omega
  · simp at hr

theorem chunks_of_length {l : List α} (hn : 0 < n) (h : l.length = n) : chunks n l = [l] := by
  refine List.ext_getElem? (fun r => ?_)
  rw [getElem?_chunks hn, h]
  cases r with
  | zero => simp [hn, List.take_of_length_le h.le]
  | succ r => simp [Nat.mul_succ]

end Chunks

theorem blockLen_pos (b : Bool) : 0 < blockLen b := by cases b <;> decide

theorem padTo_of_length {α : Type} {n : Nat} (d : α) {l : List α} (h : l.length = n) : padTo n d l = l := by simp [padTo, h]

/-! ### The length of a row read in any format (R20 to R22) -/

theorem decodeBlock_length (f : Fmt) (scale : Nat) (codes : List Nat) : (decodeBlock f scale codes).length = codes.length := by
  unfold decodeBlock
  dsimp only
  split <;> simp

theorem blockValues_length (s : State) (f : Fmt) (len elem scale n b : Nat) :
    (s.blockValues f len elem scale n b).length = len := by
  unfold State.blockValues
  dsimp only
  split <;> simp [decodeBlock_length, unpadded, unpackElems]

theorem formatRow_length (s : State) (f : Fmt) (bsz : Bool) (elem scale n : Nat) :
    (s.formatRow f bsz elem scale n).length = n := by
  unfold State.formatRow
  split
  · have hlen := blockLen_pos bsz
    have := Nat.lt_mul_div_succ (n + blockLen bsz - 1) hlen
    rw [Nat.mul_succ, Nat.mul_comm] at this
    simp only [State.blockRowValues, List.length_take, List.length_flatMap, blockValues_length, List.map_const', List.length_range,
      List.sum_replicate, smul_eq_mul]
    omega
  · simp [State.rowValues, State.row16]

/-! ### One converted row (R30, R119) -/

section Row
variable {m : ConvMode} (key : DrawKey) (r : Nat) (vs : List (Option Machine.Num))

/-- A 16-bit row gives each element rounded once, under the draw of its position. -/
theorem convRow_elems (h : m.f.isBlock = false) : (convRow m key r vs).elems =
    vs.zipIdx.map (fun p => p.1.map (fun v => convert16 m.f (roundAt m.sr key (vs.length * r + p.2)) v)) := by
  simp [convRow, h]

theorem convRow_elems_length (h : m.f.isBlock = false) : (convRow m key r vs).elems.length = vs.length := by
  simp [convRow_elems key r vs h]

theorem convRow_blocks_length (h : m.f.isBlock = true) :
    (convRow m key r vs).blocks.length ≤ (vs.length + blockLen m.bsz - 1) / blockLen m.bsz := by
  simpa [convRow, h] using chunks_length_le (blockLen_pos m.bsz) vs

theorem convertBlock_codes_length (f : Fmt) (code : Nat) (rnd : Nat → Rnd) (vs : List Machine.Num) :
    (convertBlock f code rnd vs).codes.length = vs.length := by
  unfold convertBlock
  dsimp only
  (repeat' split) <;> simp

/-- The first row of one block of values, in LOCAL mode. -/
theorem convRow_blocks_local {vs : List Machine.Num} (h : m.f.isBlock = true) (hc : m.code = none)
    (hl : vs.length = blockLen m.bsz) : (convRow m key 0 (vs.map some)).blocks =
      [some (convertLocal m.f m.headroom m.infTop (roundAt m.sr key) vs)] := by
  have hlen : (vs.map some).length = blockLen m.bsz := by simpa using hl
  have hpos := blockLen_pos m.bsz
  have hsome : (vs.map some).all Option.isNone = false := by
    cases vs with
    | nil => simp at hl; omega
    | cons v vs => simp
  have hvals : padTo (blockLen m.bsz) Machine.Num.zero ((vs.map some).map (fun v => v.getD .zero)) = vs := by
    rw [padTo_of_length _ (by simpa using hl)]
    simp [Function.comp_def]
  simp only [convRow, h, if_true, chunks_of_length hpos hlen, List.zipIdx_singleton, List.map_singleton, hsome, Bool.false_eq_true,
    if_false, hvals, hc, Nat.zero_mul, Nat.mul_zero, Nat.zero_add]

end Row

/-! ### One row written (R20, R21) -/

section PutRow
variable (s : State) {m : ConvMode} {elem scale : Nat}

/-- A written row of blocks changes no byte outside its element fields and its scale bytes. -/
theorem memGet_putConvRow_block {n y : Nat} {c : ConvRow} (hf : m.f.isBlock = true) (he : AboveStacks elem) (hs : AboveStacks scale)
    (hn : c.blocks.length ≤ n) (hy : Apart y 1 elem (n * fieldBytes m.f (blockLen m.bsz))) (hz : Apart y 1 scale n) :
    memGet (s.putConvRow m elem scale c).mem y = memGet s.mem y := by
  unfold State.putConvRow
  rw [if_pos hf]
  refine foldl_same (fun t => memGet t.mem y) (fun t p hp => ?_) s
  have hlt : p.2 < n := Nat.lt_of_lt_of_le (List.snd_lt_of_mem_zipIdx hp) hn
  have hmul : (p.2 + 1) * fieldBytes m.f (blockLen m.bsz) ≤ n * fieldBytes m.f (blockLen m.bsz) := Nat.mul_le_mul_right _ hlt
  rw [Nat.succ_mul] at hmul
  split
  · rfl
  · rw [mem_putBlock t m.f _ _ _ he hs, memGet_put_other _ _ _ _ (by rw [leBytes_length]; omega),
      memGet_put_other _ _ _ _ (by rw [leBytes_length]; omega)]

theorem mem_putConvRow_scalar (c : ConvRow) (hf : m.f.isBlock = false) (he : AboveStacks elem) :
    (s.putConvRow m elem scale c).mem = putWords s.mem elem (c.elems.map (fun c => c.map Conv.code)) := by
  unfold State.putConvRow
  rw [if_neg (by simp [hf]), mem_putRow16 s _ he]

/-- A converted row changes no byte outside the elements, blocks and scales of its destination. -/
theorem memGet_putConvRow_other {y : Nat} (key : DrawKey) (r : Nat) (vs : List (Option Machine.Num)) (he : AboveStacks elem)
    (hs : AboveStacks scale)
    (hy : Apart y 1 elem (if m.f.isBlock then (vs.length + blockLen m.bsz - 1) / blockLen m.bsz * fieldBytes m.f (blockLen m.bsz)
      else 2 * vs.length))
    (hz : m.f.isBlock = true → Apart y 1 scale ((vs.length + blockLen m.bsz - 1) / blockLen m.bsz)) :
    memGet (s.putConvRow m elem scale (convRow m key r vs)).mem y = memGet s.mem y := by
  cases hf : m.f.isBlock with
  | true =>
    rw [if_pos hf] at hy
    exact memGet_putConvRow_block s hf he hs (convRow_blocks_length key r vs hf) hy (hz hf)
  | false =>
    rw [if_neg (by simp [hf])] at hy
    rw [mem_putConvRow_scalar s _ hf he]
    exact memGet_putWords_other _ _ _ _ (by rwa [List.length_map, convRow_elems_length key r vs hf])

/-- Each element of a 16-bit row is written as it is rounded. -/
theorem word16_putConvRow (key : DrawKey) (r j : Nat) {vs : List (Option Machine.Num)} {v : Machine.Num} (hf : m.f.isBlock = false)
    (he : AboveStacks elem) (hv : vs[j]? = some (some v)) :
    word16 (s.putConvRow m elem scale (convRow m key r vs)).mem (elem + 2 * j) =
      (convert16 m.f (roundAt m.sr key (vs.length * r + j)) v).code % 65536 := by
  rw [mem_putConvRow_scalar s _ hf he]
  exact word16_putWords _ _ _ _ _ (by simp [convRow_elems key r vs hf, hv])

/-- A row of one block is written as its element field and its scale byte. -/
theorem mem_putConvRow_one {c : ConvRow} {o : BlockOut} (hf : m.f.isBlock = true) (hc : c.blocks = [some o]) (he : AboveStacks elem)
    (hs : AboveStacks scale) (ho : o.codes.length = blockLen m.bsz) :
    (s.putConvRow m elem scale c).mem =
      memPut (memPut s.mem elem (leBytes (fieldBytes m.f (blockLen m.bsz)) (packElems m.f.width o.codes))) scale
        (leBytes 1 o.scale) := by
  unfold State.putConvRow
  rw [if_pos hf, hc]
  refine (mem_putBlock s m.f (blockLen m.bsz) 0 o he hs).trans ?_
  rw [padTo_of_length 0 ho, Nat.zero_mul, Nat.add_zero, Nat.add_zero]

end PutRow

/-! ## CONVERT: a Fold source, row by row (R30, R127, R129) -/

/-- Where the elements, or the scales, of row r lie: words i and i + 1 of a descriptor are their base and their stride (R127). -/
def rowAt (q : Nat) (d : Desc) (i r : Nat) : Nat := foldBase q + dw d i + r * dw d (i + 1)

theorem aboveStacks_rowAt (q : Nat) (d : Desc) (i r : Nat) : AboveStacks (rowAt q d i r) := by
  unfold AboveStacks rowAt foldBase
  omega

/-- The values of row r of the source. -/
def sourceRow (s : State) (fs : Fmt) (q : Nat) (d : Desc) (r : Nat) : List Machine.Num :=
  s.formatRow fs (db d 0 8) (rowAt q d 3 r) (rowAt q d 5 r) (df d 1 0 16 + 1)

/-- What a conversion reads of its source. -/
def sourceReads (fs : Fmt) (q : Nat) (d : Desc) : List (Nat × Nat) :=
  let n := df d 1 0 16 + 1
  let len := blockLen (db d 0 8)
  (List.range (df d 2 0 24 + 1)).flatMap (fun r =>
    if fs.isBlock then [(rowAt q d 3 r, (n + len - 1) / len * fieldBytes fs len), (rowAt q d 5 r, (n + len - 1) / len)]
    else [(rowAt q d 3 r, 2 * n)])

theorem aboveStacks_sourceReads {fs : Fmt} {q : Nat} {d : Desc} : ∀ x ∈ sourceReads fs q d, AboveStacks x.1 := by
  intro x hx
  obtain ⟨r, -, hr⟩ := List.mem_flatMap.1 hx
  split at hr
  · obtain rfl | hr := List.mem_cons.1 hr
    · exact aboveStacks_rowAt q d 3 r
    · rw [List.mem_singleton.1 hr]
      exact aboveStacks_rowAt q d 5 r
  · rw [List.mem_singleton.1 hr]
    exact aboveStacks_rowAt q d 3 r

/-- The values of all rows of the source. -/
def sourceValues (s : State) (fs : Fmt) (q : Nat) (d : Desc) : List Machine.Num :=
  ((List.range (df d 2 0 24 + 1)).map (sourceRow s fs q d)).flatten

/-- The state once the reads of the source are noted: a two-pass conversion reads it twice. -/
def sourceNoted (s : State) (p : Page) (fs : Fmt) (q : Nat) (d : Desc) (two : Bool) : State :=
  if two then (s.engineReads p (sourceReads fs q d)).engineReads p (sourceReads fs q d) else s.engineReads p (sourceReads fs q d)

theorem ground_sourceNoted (s : State) (p : Page) (fs : Fmt) (q : Nat) (d : Desc) (two : Bool) :
    ground (sourceNoted s p fs q d two) = ground s := by
  unfold sourceNoted
  rw [ground_ite, ground_engineReads _ _ aboveStacks_sourceReads, ground_engineReads _ _ aboveStacks_sourceReads, ite_self]

/-- Row r of a conversion: its values are read, and the row is written; the rows done are kept. -/
def convertRow (m : ConvMode) (key : DrawKey) (fs : Fmt) (q : Nat) (d : Desc) (x : State × List ConvRow) (r : Nat) :
    State × List ConvRow :=
  let c := convRow m key r ((sourceRow x.1 fs q d r).map some)
  (x.1.putConvRow m (rowAt q d 7 r) (rowAt q d 9 r) c, x.2 ++ [c])

/-- All rows of a conversion, one after the other. -/
def convertRows (m : ConvMode) (key : DrawKey) (fs : Fmt) (q : Nat) (d : Desc) (s : State) : State × List ConvRow :=
  (List.range (df d 2 0 24 + 1)).foldl (convertRow m key fs q d) (s, [])

section Rows
variable (m : ConvMode) (key : DrawKey) (fs : Fmt) (q : Nat) (d : Desc) (s : State)

theorem units_convertRows : (ground (convertRows m key fs q d s).1).units = (ground s).units :=
  foldl_same (fun x : State × List ConvRow => (ground x.1).units) (fun _ _ _ => units_putConvRow ..) (s, [])

/-- A conversion changes no byte outside its destination rows. -/
theorem memGet_convertRows_other {y : Nat} (hy : ∀ r < df d 2 0 24 + 1,
      Apart y 1 (rowAt q d 7 r) (if m.f.isBlock then
        (df d 1 0 16 + 1 + blockLen m.bsz - 1) / blockLen m.bsz * fieldBytes m.f (blockLen m.bsz) else 2 * (df d 1 0 16 + 1)) ∧
      (m.f.isBlock = true → Apart y 1 (rowAt q d 9 r) ((df d 1 0 16 + 1 + blockLen m.bsz - 1) / blockLen m.bsz))) :
    memGet (convertRows m key fs q d s).1.mem y = memGet s.mem y := by
  refine foldl_same (fun x : State × List ConvRow => memGet x.1.mem y) (fun x r hr => ?_) (s, [])
  obtain ⟨helem, hscale⟩ := hy r (List.mem_range.1 hr)
  have hlen : ((sourceRow x.1 fs q d r).map some).length = df d 1 0 16 + 1 := by simp [sourceRow, formatRow_length]
  refine memGet_putConvRow_other x.1 key r _ (aboveStacks_rowAt q d 7 r) (aboveStacks_rowAt q d 9 r) ?_ ?_
  · rwa [hlen]
  · rwa [hlen]

theorem mem_convertRows_one (h : df d 2 0 24 + 1 = 1) : (convertRows m key fs q d s).1.mem =
    (s.putConvRow m (foldBase q + dw d 7) (foldBase q + dw d 9) (convRow m key 0 ((sourceRow s fs q d 0).map some))).mem := by
  simp [convertRows, h, convertRow, rowAt]

end Rows

/-- Element j of a 16-bit source row. -/
def sourceElem (mem : List Host.Cell) (fs : Fmt) (q : Nat) (d : Desc) (j : Nat) : Machine.Num :=
  decodeElem fs (word16 mem (foldBase q + dw d 3 + 2 * j))

/-- The row of a 16-bit source, on memory without errors. -/
theorem sourceRow_of_no_ecc {s : State} {fs : Fmt} (q : Nat) (d : Desc) (hf : fs.isBlock = false) (he : s.ecc = []) :
    sourceRow s fs q d 0 = (List.range (df d 1 0 16 + 1)).map (sourceElem s.mem fs q d) := by
  unfold sourceRow State.formatRow
  rw [if_neg (by simp [hf]), rowValues_of_no_ecc fs _ (aboveStacks_rowAt q d 3 0) he]
  simp [rowAt, sourceElem]

section OneRow
variable {m : ConvMode} (key : DrawKey) {fs : Fmt} (q : Nat) {d : Desc} {s : State} {mem : List Host.Cell}
  (hm : s.mem = mem) (he : s.ecc = []) (h1 : df d 2 0 24 + 1 = 1) (hs : fs.isBlock = false)
include hm he h1 hs

/-- One row from a 16-bit format to another: each element is rounded once, under its own draw. -/
theorem word16_convertRows {j : Nat} (hf : m.f.isBlock = false) (hj : j < df d 1 0 16 + 1) :
    word16 (convertRows m key fs q d s).1.mem (foldBase q + dw d 7 + 2 * j) =
      (convert16 m.f (roundAt m.sr key j) (sourceElem mem fs q d j)).code % 65536 := by
  subst hm
  rw [mem_convertRows_one m key fs q d s h1, sourceRow_of_no_ecc q d hs he,
    word16_putConvRow (v := sourceElem s.mem fs q d j) s key 0 j hf (aboveStacks_foldBase q _) (by simp [hj]),
    Nat.mul_zero, Nat.zero_add]

/-- One block from a 16-bit format, in LOCAL mode: its scale byte and its codes, where the one lies apart from the others. -/
theorem convertRows_local_block (hf : m.f.isBlock = true) (hc : m.code = none) (hlen : df d 1 0 16 + 1 = blockLen m.bsz)
    (ha : Apart (dw d 7) (fieldBytes m.f (blockLen m.bsz)) (dw d 9) 1) :
    let b := convertLocal m.f m.headroom m.infTop (roundAt m.sr key) ((List.range (blockLen m.bsz)).map (sourceElem mem fs q d))
    let bytes := fieldBytes m.f (blockLen m.bsz)
    memGet (convertRows m key fs q d s).1.mem (foldBase q + dw d 9) = BitVec.ofNat 8 b.scale ∧
    leNat (memBytes (convertRows m key fs q d s).1.mem (foldBase q + dw d 7) bytes) =
      packElems m.f.width b.codes % 2 ^ (8 * bytes) := by
  intro b bytes
  subst hm
  have hblocks := convRow_blocks_local key hf hc (vs := (List.range (blockLen m.bsz)).map (sourceElem s.mem fs q d)) (by simp)
  have hcodes : b.codes.length = blockLen m.bsz := (convertBlock_codes_length ..).trans (by simp)
  have hrows : (convertRows m key fs q d s).1.mem =
      memPut (memPut s.mem (foldBase q + dw d 7) (leBytes bytes (packElems m.f.width b.codes))) (foldBase q + dw d 9)
        (leBytes 1 b.scale) := by
    rw [mem_convertRows_one m key fs q d s h1, sourceRow_of_no_ecc q d hs he, hlen,
      mem_putConvRow_one s hf hblocks (aboveStacks_foldBase q _) (aboveStacks_foldBase q _) hcodes]
  rw [hrows]
  constructor
  · exact memGet_put_same _ _ 0 (leBytes 1 b.scale) (by simp)
  · have hread := memBytes_memPut s.mem (foldBase q + dw d 7) (leBytes bytes (packElems m.f.width b.codes))
    rw [leBytes_length] at hread
    rw [memBytes_memPut_other _ _ _ _ _ (by rw [leBytes_length]; omega), hread, leNat_leBytes]

end OneRow

/-- What CONVERT does: from a state that has noted the reads of its source, it converts the rows, counts, and is done at its
path time. -/
theorem exec_convert {t q e i : Nat} {flips : List (Nat × Nat)} {w : WinEntry} {fs : Fmt} {s : State}
    (he : e < 8) (hstart : (s.advance t).startable q (112 + e) = some (i, w)) (h18 : db w.desc 0 18 = false)
    (hfs : fmtOf (df w.desc 0 4 4) = some fs) :
    let d := w.desc
    let b := ((s.advance t).upset flips).startEntry q (112 + e) i w
    let g := (df d 2 0 24 + 1) * ((df d 1 0 16 + 1 + 63) / 64)
    ∃ (vals : List Machine.Num) (c : State), ground c = ground b ∧
      let m := b.convMode q d fs.infAmax vals
      let out := convertRows m.1 (b.drawsOf q w) fs q d c
      exec (.convert t q e flips) s = .next ((out.1.countConv q e d out.2 vals).finishEntry q (112 + e) i
        (c.now + 2 * (if m.2 then 36 + 2 * g else 24 + g))) := by
  intro d b g
  refine ⟨sourceValues b fs q d, sourceNoted b (qPage .ce q e) fs q d (b.convMode q d fs.infAmax (sourceValues b fs q d)).2,
    ground_sourceNoted .., ?_⟩
  show execConvert t q e flips s = _
  unfold execConvert
  simp only [he, if_true, hstart, h18, Bool.false_eq_true, if_false, hfs, Option.getD_some, List.length_range]
  rfl

/-- The mode of a conversion, as its descriptor gives it. -/
theorem convMode_eq {d : Desc} {fd : Fmt} (s : State) (q : Nat) (top : Machine.Num) (vals : List Machine.Num)
    (hfd : fmtOf (df d 0 9 4) = some fd) :
    ∃ code : Option Nat, (db d 0 15 = false → code = none) ∧
      (s.convMode q d top vals).1 =
        { f := fd, bsz := db d 0 13, sr := db d 0 14, headroom := df d 0 16 2, infTop := top, code := code } ∧
      (s.convMode q d top vals).2 = (fd.isBlock && db d 0 15 && !(db d 0 21 && (s.delayed q (df d 11 16 16)).ready)) := by
  refine ⟨(s.convMode q d top vals).1.code, fun h => ?_, ?_, ?_⟩
  · simp [State.convMode, h]
  · simp [State.convMode, hfd]
  · simp [State.convMode, hfd]

/-- What is counted and finished at a conversion's end leaves memory. -/
theorem mem_counted (s : State) (q e n i stop : Nat) (d : Desc) (rows : List ConvRow) (vals : List Machine.Num) :
    ((s.countConv q e d rows vals).finishEntry q n i stop).mem = s.mem := by
  rw [mem_finishEntry, mem_of_ground (ground_countConv ..)]

/-! ## CONVERT_HANDOFF: the carries of a tile (R61, R128) -/

/-- What one step of a numbered fold brings about, and the steps of other numbers keep, holds at its end. -/
theorem foldl_zipIdx_holds {σ α : Type} {P : σ → Prop} {f : σ → α × Nat → σ} {l : List α} {x : α} {r k₀ : Nat}
    (hx : l[r]? = some x) (hset : ∀ t, P (f t (x, k₀ + r)))
    (hkeep : ∀ t, ∀ p ∈ l.zipIdx k₀, p.2 ≠ k₀ + r → P t → P (f t p)) (s : σ) : P ((l.zipIdx k₀).foldl f s) := by
  induction l generalizing r k₀ s with
  | nil => simp at hx
  | cons y l ih =>
    rw [List.zipIdx_cons, List.foldl_cons]
    cases r with
    | zero =>
      obtain rfl : y = x := by simpa using hx
      refine List.foldlRecOn _ f (hset s) (fun t ht p hp => hkeep t p (by simp [hp]) ?_ ht)
      have := List.le_snd_of_mem_zipIdx hp
      omega
    | succ r =>
      have hr : k₀ + (r + 1) = k₀ + 1 + r := by omega
      rw [hr] at hset hkeep
      exact ih (by simpa using hx) hset (fun t p hp => hkeep t p (by simp [hp])) _

/-- The rows of a tile's carries, or with bit 19 its columns (R128). -/
def carryRows (d : Desc) (carries : List (Option Machine.Num)) : List (List (Option Machine.Num)) :=
  if db d 0 19 then (List.range 32).map (fun j => (chunks 32 carries).map (fun r => (r[j]?).getD none)) else chunks 32 carries

/-- The converted rows of a tile. -/
def convCarries (m : ConvMode) (key : DrawKey) (d : Desc) (carries : List (Option Machine.Num)) : List ConvRow :=
  (carryRows d carries).zipIdx.map (fun r => convRow m key r.2 r.1)

/-- Converted rows are written, each at its place. -/
def putConvRows (m : ConvMode) (q : Nat) (d : Desc) (cs : List ConvRow) (s : State) : State :=
  cs.zipIdx.foldl (fun s c => s.putConvRow m (rowAt q d 7 c.2) (rowAt q d 9 c.2) c.1) s

theorem units_putConvRows (m : ConvMode) (q : Nat) (d : Desc) (cs : List ConvRow) (s : State) :
    (ground (putConvRows m q d cs s)).units = (ground s).units :=
  foldl_same (fun t => (ground t).units) (fun _ _ _ => units_putConvRow ..) s

theorem units_putCounted {s : State} {g : Units} (h : (ground s).units = g) (m : ConvMode) (q e : Nat) (d : Desc)
    (cs : List ConvRow) (vals : List Machine.Num) :
    (ground ((putConvRows m q d cs s).countConv q e d cs vals)).units = g := by
  rw [ground_countConv, units_putConvRows, h]

theorem getElem?_convCarries (m : ConvMode) (key : DrawKey) {d : Desc} (h : db d 0 19 = false)
    (carries : List (Option Machine.Num)) (r : Nat) :
    (convCarries m key d carries)[r]? = ((chunks 32 carries)[r]?).map (convRow m key r) := by
  simp [convCarries, carryRows, h, Function.comp_def]

/-- Rows of 32 elements, 64 bytes or more apart: each carry is written as it is rounded under its own draw. -/
theorem word16_putConvRows {m : ConvMode} (key : DrawKey) (q : Nat) {d : Desc} {carries : List (Option Machine.Num)}
    {v : Machine.Num} {r j : Nat} (s : State) (hf : m.f.isBlock = false) (h19 : db d 0 19 = false)
    (hlen : carries.length = 1024) (hd : 64 ≤ dw d 8) (hr : r < 32) (hj : j < 32) (hv : carries[32 * r + j]? = some (some v)) :
    word16 (putConvRows m q d (convCarries m key d carries) s).mem (rowAt q d 7 r + 2 * j) =
      (convert16 m.f (roundAt m.sr key (32 * r + j)) v).code % 65536 := by
  have hchunk : (chunks 32 carries)[r]? = some ((carries.drop (32 * r)).take 32) := by
    rw [getElem?_chunks (by decide), if_pos (by omega)]
  have hrow : ((carries.drop (32 * r)).take 32)[j]? = some (some v) := by
    rw [List.getElem?_take_of_lt hj, List.getElem?_drop, hv]
  have hwidth : ((carries.drop (32 * r)).take 32).length = 32 := by simp [hlen]; omega
  refine foldl_zipIdx_holds (P := fun t : State => word16 t.mem (rowAt q d 7 r + 2 * j) = _) (r := r)
    (by rw [getElem?_convCarries m key h19, hchunk]; rfl) (fun t => ?_) (fun t p hp hne ht => ?_) s
  · simp only [Nat.zero_add]
    rw [word16_putConvRow t key r j hf (aboveStacks_rowAt q d 7 r) hrow, hwidth]
  · obtain ⟨c, k⟩ := p
    rw [List.mem_zipIdx_iff_getElem?, getElem?_convCarries m key h19] at hp
    obtain ⟨vs, hvs, hc⟩ := Option.map_eq_some_iff.1 hp
    obtain rfl : convRow m key k vs = c := hc
    have hshort : vs.length ≤ 32 := length_le_of_mem_chunks (by decide) (List.mem_of_getElem? hvs)
    refine (word16_of_memGet (fun y hy hy' => ?_)).trans ht
    rw [mem_putConvRow_scalar t _ hf (aboveStacks_rowAt q d 7 k)]
    refine memGet_putWords_other _ _ _ _ ?_
    rw [List.length_map, convRow_elems_length key k vs hf]
    have hplace : k * dw d 8 + 64 ≤ r * dw d 8 ∨ r * dw d 8 + 64 ≤ k * dw d 8 := by
      obtain hlt | hgt := Nat.lt_or_gt_of_ne (show k ≠ r by simpa using hne)
      · have := Nat.mul_le_mul_right (dw d 8) (show k + 1 ≤ r from hlt)
        rw [Nat.succ_mul] at this
        omega
      · have := Nat.mul_le_mul_right (dw d 8) (show r + 1 ≤ k from hgt)
        rw [Nat.succ_mul] at this
        omega
    simp only [rowAt, Nat.reduceAdd] at hy hy' ⊢
    omega

/-- The array that a handoff descriptor names has given its buffer up, which is free at `stop` (R61). -/
def emptied (a : State) (q : Nat) (d : Desc) (stop : Nat) : State :=
  let x := a.array q (a.physOf q (df d 3 0 5)) (df d 3 5 2)
  a.setArray q (a.physOf q (df d 3 0 5)) (df d 3 5 2) { x with handoff := none, handFree := stop }

theorem handoff_emptied (a : State) (q : Nat) (d : Desc) (stop : Nat) :
    ((emptied a q d stop).array q (a.physOf q (df d 3 0 5)) (df d 3 5 2)).handoff = none := by
  unfold emptied
  rw [array_setArray_same]

/-- What took its buffer and started, and was left alone since, is run when it is finished. -/
theorem ran_finishEntry_emptied {a t : State} {q n i stop' : Nat} {d : Desc} {w : WinEntry}
    (hw : (a.queue q n).window[i]? = some w) (ht : (ground t).units = (ground ((emptied a q d stop').startEntry q n i w)).units)
    (stop : Nat) : Ran a (t.finishEntry q n i stop) q n i w stop :=
  ran_finishEntry (a := emptied a q d stop') hw ht stop

theorem drawsOf_emptied (a : State) (q : Nat) (d : Desc) (stop : Nat) (w : WinEntry) :
    (emptied a q d stop).drawsOf q w = a.drawsOf q w := rfl

theorem convSpills_of_scalar {d : Desc} (ready : Bool) (h : ((fmtOf (df d 0 9 4)).getD .bf16).isBlock = false) :
    convSpills d ready = false := by simp [convSpills, h]

/-- The state after a spill of carries to `area`, with what other requesters write and the errors that arise before the second
read (R116, R128). -/
def spilledTo (b : State) (p : Page) (area : Nat) (carries : List (Option Machine.Num)) (between : List (Nat × Byte))
    (flips : List (Nat × Nat)) : State :=
  ((between.foldl (fun s x => s.writeBytes x.1 [x.2])
    (b.writeBytes area (carries.flatMap (fun c => leBytes 8 (spillWord c))))).upset flips).engineReads p [(area, 8192)]

theorem units_spilledTo (b : State) (p : Page) (area : Nat) (carries : List (Option Machine.Num)) (between : List (Nat × Byte))
    (flips : List (Nat × Nat)) : (ground (spilledTo b p area carries between flips)).units = (ground b).units := by
  unfold spilledTo
  rw [units_engineReads, units_upset, foldl_same (fun t => (ground t).units) (fun _ _ _ => units_writeBytes ..), units_writeBytes]

/-- What CONVERT_HANDOFF does where it takes the buffer: it spills where it must, converts the carries, counts, and is done at
its path time. -/
theorem exec_convertHandoff {t q e i : Nat} {between : List (Nat × Byte)} {flips : List (Nat × Nat)} {w : WinEntry} {h : Handoff}
    {s : State} (he : e < 8) (hstart : (s.advance t).startable q (112 + e) = some (i, w)) (h18 : db w.desc 0 18 = true)
    (hspill : ¬ (convSpills w.desc ((s.advance t).delayed q (df w.desc 11 16 16)).ready = true ∧ dw w.desc 12 = 0))
    (hhand : ((s.advance t).array q ((s.advance t).physOf q (df w.desc 3 0 5)) (df w.desc 3 5 2)).handoff = some h)
    (hce : h.ce = e) :
    let a := s.advance t
    let d := w.desc
    let spills := convSpills d (a.delayed q (df d 11 16 16)).ready
    let stop := a.now + 2 * (if spills then 68 else 40)
    let b := (emptied a q d stop).startEntry q (112 + e) i w
    ∃ (c : State) (carries : List (Option Machine.Num)), (ground c).units = (ground b).units ∧
      (spills = false → carries = h.carries) ∧
      let m := c.convMode q d carryInfAmax (carries.filterMap id)
      let cs := convCarries m.1 (b.drawsOf q w) d carries
      exec (.convertHandoff t q e between flips) s =
        .next (((putConvRows m.1 q d cs c).countConv q e d cs (carries.filterMap id)).finishEntry q (112 + e) i stop) := by
  intro a d spills stop b
  have hexec : exec (.convertHandoff t q e between flips) s = execConvertHandoff t q e between flips s := rfl
  have hrefuse : (convSpills w.desc ((s.advance t).delayed q (df w.desc 11 16 16)).ready && dw w.desc 12 == 0) = false := by
    simpa using hspill
  unfold execConvertHandoff at hexec
  simp only [he, if_true, hstart, h18, Bool.not_true, Bool.false_eq_true, if_false, hrefuse, hhand, hce, ne_eq, not_true_eq_false]
    at hexec
  generalize hb : State.startEntry _ _ _ _ _ = b' at hexec
  obtain rfl : b' = b := hb.symm
  cases hs : convSpills w.desc ((s.advance t).delayed q (df w.desc 11 16 16)).ready with
  | true =>
    have hstop : stop = a.now + 2 * 68 := by simp [stop, spills, a, d, hs]
    simp only [hs, if_true] at hexec
    refine ⟨spilledTo b (qPage .ce q e) (foldBase q + dw d 12) h.carries between flips,
      (spilledTo b (qPage .ce q e) (foldBase q + dw d 12) h.carries between flips).spilled (foldBase q + dw d 12) h.carries,
      units_spilledTo .., fun hno => absurd (hs.symm.trans hno) (by decide), ?_⟩
    rw [hstop]
    exact hexec
  | false =>
    have hstop : stop = a.now + 2 * 40 := by simp [stop, spills, a, d, hs]
    simp only [hs, Bool.false_eq_true, if_false] at hexec
    refine ⟨b, h.carries, rfl, fun _ => rfl, ?_⟩
    rw [hstop]
    exact hexec

/-- A handoff conversion that must spill without a SPILL area is refused when it starts (R128). -/
theorem exec_convertHandoff_refused {t q e i : Nat} {between : List (Nat × Byte)} {flips : List (Nat × Nat)} {w : WinEntry}
    {s : State} (he : e < 8) (hstart : (s.advance t).startable q (112 + e) = some (i, w)) (h18 : db w.desc 0 18 = true)
    (hspill : convSpills w.desc ((s.advance t).delayed q (df w.desc 11 16 16)).ready = true) (h12 : dw w.desc 12 = 0) :
    exec (.convertHandoff t q e between flips) s = .next ((s.advance t).refuseStart q (112 + e) i 0x12 w false) := by
  show execConvertHandoff t q e between flips s = _
  simp [execConvertHandoff, he, hstart, h18, hspill, h12, done]

/-- Settles O27: CONVERT by its reads, which leave the ground, and its rows, each written as it is rounded; CONVERT_HANDOFF by
the carries that it takes, and its refusal at the start. -/
theorem conversionsRunAndRoundOnce : Obligations.ConversionsRunAndRoundOnce := by
  constructor
  · intro t q e i flips w fs fd s a d cols rows base key len blocks two g x b bytes he hstart h18 hfs hfd
    obtain ⟨vals, c, hc, hexec⟩ := exec_convert (flips := flips) he hstart h18 hfs
    have hmem : c.mem = a.mem := (mem_of_ground hc).trans (mem_startEntry ..)
    have hecc (hclean : Clean a) : c.ecc = [] := ((ecc_of_ground hc).trans (ecc_startEntry ..)).trans hclean.1
    have hnow : c.now = a.now := (now_of_units (congrArg Ground.units hc)).trans (now_startEntry ..)
    obtain ⟨code, hlocal, hmode, htwo⟩ := convMode_eq (a.startEntry q (112 + e) i w) q fs.infAmax vals hfd
    have hkey : (a.startEntry q (112 + e) i w).drawsOf q w = key := drawsOf_startEntry (quarter_of_startable_ce he hstart)
    dsimp only at hexec
    rw [hmode, htwo, hkey, delayed_startEntry, hnow] at hexec
    refine ⟨_, hexec, ran_finishEntry ?_ ?_ _, fun y hy => ?_, fun hclean h1 hs hf j hj => ?_,
      fun hclean h1 hs hf h15 hcols ha => ?_⟩
    · rw [queue_of_units (units_upset _ flips)]
      exact (startable_eq hstart).2
    · rw [ground_countConv, units_convertRows, hc]
    · rw [mem_counted, ← hmem]
      exact memGet_convertRows_other _ key fs q d c hy
    · rw [mem_counted]
      exact word16_convertRows key q hmem (hecc hclean) h1 hs hf hj
    · rw [mem_counted]
      exact convertRows_local_block key q hmem (hecc hclean) h1 hs hf (hlocal h15) hcols ha
  · intro t q e i between flips w h s a d p arr spills base fd he hstart h18
    have hq := quarter_of_startable_ce he hstart
    refine ⟨fun hspill h12 => ?_, fun hspill hhand hce => ?_⟩
    · exact ⟨_, exec_convertHandoff_refused he hstart h18 hspill h12, refuseStart_ce a i 0x12 w hq he (by decide)⟩
    obtain ⟨c, carries, hc, hcarries, hexec⟩ :=
      exec_convertHandoff (between := between) (flips := flips) he hstart h18 hspill hhand hce
    dsimp only at hexec
    rw [drawsOf_startEntry hq, drawsOf_emptied] at hexec
    refine ⟨_, hexec, ?_, ?_, fun hf h19 hlen hd r j v hr hj hv => ?_⟩
    · exact ran_finishEntry_emptied (startable_eq hstart).2 (units_putCounted hc ..) _
    · rw [array_finishEntry, array_of_units (units_putCounted hc ..), array_startEntry]
      exact handoff_emptied ..
    · rw [mem_counted, hcarries (convSpills_of_scalar _ hf)]
      exact word16_putConvRows (a.drawsOf q w) q c hf h19 hlen hd hr hj hv

end Sys2Proof.Proofs
end

section
/-! PROOFS. The elementwise vector kernels: what a descriptor of one row reads, computes and writes. -/

namespace Sys2Proof.Proofs
open Sys2Proof Sys2Proof.Machine Sys2Proof.Laws

/-! ## Vector descriptors of one row (R105, R122, R123) -/

section Vector
variable {s c : State} {q e i n : Nat} {w : WinEntry} {d : Desc}

theorem queuePage_ve (s : State) (q : Nat) (he : e < 16) : s.queuePage q (96 + e) = qPage .ve q e := by
  have hengine : engineOf (96 + e) = some (.ve, e) := by
    simp only [engineOf]
    rw [if_neg (by omega), if_pos (by omega), Nat.add_sub_cancel_left]
  simp [State.queuePage, hengine]

/-- Only the four quarters have vector engines. -/
theorem quarter_of_startable_ve (he : e < 16) (h : s.startable q (96 + e) = some (i, w)) : q < 4 := by
  obtain ⟨hwork, -⟩ := startable_eq h
  rw [queuePage_ve s q he] at hwork
  by_contra hq
  have hkind : (qPage .ve q e).kind = none := by
    unfold Page.kind
    rw [if_neg (show ¬ (qPage .ve q e).win < 4 from hq)]
    split
    · interval_cases e <;> rfl
    · rfl
  simp [State.working, hkind] at hwork

/-- A row of a scalar format in memory, element by element. -/
def rowElem (m : List Host.Cell) (f : Fmt) (a j : Nat) : Machine.Num := decodeElem f (word16 m (a + 2 * j))

theorem rowValues_eq_rowElem (f : Fmt) (x n : Nat) (he : c.ecc = []) :
    c.rowValues f (foldBase q + x) n = (List.range n).map (rowElem c.mem f (foldBase q + x)) :=
  rowValues_of_no_ecc f n (aboveStacks_foldBase q x) he

/-- All that a vector descriptor reads is in the Fold. -/
theorem aboveStacks_vecReads : ∀ r ∈ vecReads q d, AboveStacks r.1 := by
  intro r hr
  have hrow (x : Nat) {n : Nat} : AboveStacks (foldBase q + x + n) := Nat.le_add_right_of_le (aboveStacks_foldBase q x)
  have hpick {p : Bool} {l : List (Nat × Nat)} (h : r ∈ (if p then l else [])) : r ∈ l := by
    split at h
    · exact h
    · simp at h
  simp only [vecReads, List.mem_append] at hr
  obtain (((((hr | hr) | hr) | hr) | hr) | hr) | hr := hr
  · obtain ⟨k, -, rfl⟩ := List.mem_map.1 hr
    exact hrow _
  · obtain ⟨k, -, rfl⟩ := List.mem_map.1 (hpick hr)
    exact hrow _
  · obtain rfl := List.mem_singleton.1 (hpick hr)
    exact aboveStacks_foldBase ..
  · obtain rfl := List.mem_singleton.1 (hpick hr)
    exact aboveStacks_foldBase ..
  · obtain rfl := List.mem_singleton.1 (hpick hr)
    exact aboveStacks_foldBase ..
  · obtain rfl := List.mem_singleton.1 (hpick hr)
    exact aboveStacks_foldBase ..
  · obtain ⟨k, -, rfl⟩ := List.mem_map.1 (hpick hr)
    exact hrow _

@[simp] theorem ground_noteConvs (s : State) (p : Page) (cs : List Conv) : ground (s.noteConvs p cs) = ground s := by
  simp [State.noteConvs]

/-- A descriptor that has started, once its reads are noted. -/
def vecRead (s : State) (q e i : Nat) (w : WinEntry) : State :=
  (s.startEntry q (96 + e) i w).engineReads (qPage .ve q e) (vecReads q w.desc)

theorem ground_vecRead (s : State) (q e i : Nat) (w : WinEntry) :
    ground (vecRead s q e i w) = ground (s.startEntry q (96 + e) i w) :=
  ground_engineReads _ _ aboveStacks_vecReads

/-- A kernel without gradients runs its one row, under the draws of its start. -/
theorem runVec_one {kernels : List Nat} {flips : List (Nat × Nat)} (he : e < 16)
    (hstart : s.startable q (96 + e) = some (i, w)) (hk : df w.desc 0 4 8 ∈ kernels) (hone : df w.desc 2 0 24 = 0)
    (h0 : kernelAux0 (df w.desc 0 4 8) = false) (h1 : kernelAux1 (df w.desc 0 4 8) = false) : ∃ stop,
    s.runVec q e kernels flips = ((vecRead (s.upset flips) q e i w).vecDoRow q w.desc ((s.upset flips).drawsOf q w)
      (qPage .ve q e) 0).1.finishEntry q (96 + e) i stop := by
  rw [← drawsOf_startEntry (n := 96 + e) (i := i) (quarter_of_startable_ve he hstart)]
  apply Exists.intro
  unfold State.runVec
  simp only [he, if_true, hstart, List.contains_iff_mem.2 hk, Bool.not_true, Bool.false_eq_true, if_false, hone, h0, h1,
    Bool.false_and, Nat.zero_add, List.range_one, List.foldl_cons, List.foldl_nil]
  rfl

/-- The codes that a row's values are rounded to, each under its own draw (R60). -/
def rowCodes (d : Desc) (key : DrawKey) (vs : List Machine.Num) : List (Option Nat) :=
  vs.zipIdx.map (fun p => some
    (convert16 (fmt16 (db d 0 13)) (if db d 0 14 then .sr (draw key p.2) else .rne) p.1).code)

/-- The one row of a kernel that stores no statistics is what memory then holds at DST. -/
theorem mem_vecDoRow (c : State) (key : DrawKey) (page : Page) (hdst : kernelDst (df d 0 4 8) = true)
    (hstats : (vecRow (df d 0 4 8) (c.vecIn q d 0)).stats = []) :
    (c.vecDoRow q d key page 0).1.mem =
      putWords c.mem (foldBase q + dw d 8) (rowCodes d key (vecRow (df d 0 4 8) (c.vecIn q d 0)).d) := by
  simp only [State.vecDoRow, hstats, hdst, if_true, List.flatMap_nil, List.isEmpty_nil, mem_of_ground (ground_noteConvs ..),
    Nat.zero_mul, Nat.add_zero, Nat.zero_add, mem_putRow16 _ _ (aboveStacks_foldBase q _), List.map_map]
  rfl

/-! ## Kernels that work element by element (R86, R123) -/

/-- A kernel whose row is a function of the elements at each position, and that stores no statistics. -/
def ComputesEach (k : Nat) (p0 p1 : Machine.Num) (f : Machine.Num → Machine.Num → Machine.Num → Machine.Num) : Prop :=
  ∀ (v : VecIn) (n : Nat) (x y z : Nat → Machine.Num), v.s0 = (List.range n).map x →
    (kernelSrc1 k = true → v.s1 = (List.range n).map y) → (kernelVec0 k = true → v.v0 = (List.range n).map z) →
    v.p0 = p0 → v.p1 = p1 →
    (vecRow k v).d = (List.range n).map (fun j => f (x j) (y j) (z j)) ∧ (vecRow k v).stats = []

/-- The exact kernels of two sources. -/
theorem computesEach_pair {k : Nat} {g : Machine.Num → Machine.Num → Machine.Num} (hk : kernelSrc1 k = true)
    (hrow : ∀ v, vecRow k v = { d := v.s0.zipWith g v.s1 }) (p0 p1 : Machine.Num) :
    ComputesEach k p0 p1 (fun x y _ => g x y) := by
  intro v n x y z hx hy _ _ _
  simp [hrow, hx, hy hk]

/-- The kernels of one source. -/
theorem computesEach_map {k : Nat} {p0 p1 : Machine.Num} {g : Machine.Num → Machine.Num}
    (hrow : ∀ v, v.p0 = p0 → v.p1 = p1 → vecRow k v = { d := v.s0.map g }) : ComputesEach k p0 p1 (fun x _ _ => g x) := by
  intro v n x y z hx _ _ h0 h1
  rw [hrow v h0 h1, hx, List.map_map]
  exact ⟨rfl, rfl⟩

theorem computesEach_fma (p0 p1 : Machine.Num) : ComputesEach 4 p0 p1 (fun x y z => (x.mul y).add z) := by
  intro v n x y z hx hy hz _ _
  simp [vecRow, hx, hy (by decide), hz (by decide)]

theorem computesEach_activation {k : Nat} (h : 0x10 ≤ k ∧ k ≤ 0x19) (p0 p1 : Machine.Num) :
    ComputesEach k p0 p1 (fun x _ _ => activation (k - 0x10) p0 p1 x) := by
  obtain ⟨hlo, hhi⟩ := h
  refine computesEach_map (fun v h0 h1 => ?_)
  have hsmall (j : Nat) (hj : j < 0x10) : k ≠ j := by omega
  simp only [vecRow, hsmall, Nat.reduceLT, if_false, show k < 0x1A by omega, if_true, h0, h1]

theorem computesEach_backward {k : Nat} (h : 0x20 ≤ k ∧ k ≤ 0x29) (p0 p1 : Machine.Num) :
    ComputesEach k p0 p1 (fun x y _ => fMul y (derivative (k - 0x20) p0 p1 x)) := by
  obtain ⟨hlo, hhi⟩ := h
  intro v n x y z hx hy _ h0 h1
  have hsmall (j : Nat) (hj : j < 0x20) : k ≠ j := by omega
  have hsrc : kernelSrc1 k = true := by simp only [kernelSrc1, decide_eq_true_eq]; omega
  simp [vecRow, hsmall, show ¬ k < 0x1A by omega, show k < 0x30 by omega, h0, h1, hx, hy hsrc]

/-- Such a kernel's row over memory without errors, each element rounded once under its own draw. -/
theorem word16_vecDoRow {f : Machine.Num → Machine.Num → Machine.Num → Machine.Num} (key : DrawKey) (page : Page)
    (hf : ComputesEach (df d 0 4 8) (dF32 d 11) (dF32 d 12) f) (hdst : kernelDst (df d 0 4 8) = true) (hecc : c.ecc = [])
    {j : Nat} (hj : j < df d 1 0 16 + 1) :
    let x (off : Nat) : Machine.Num := rowElem c.mem (fmt16 (db d 0 12)) (foldBase q + off) j
    word16 (c.vecDoRow q d key page 0).1.mem (foldBase q + dw d 8 + 2 * j) =
      (convert16 (fmt16 (db d 0 13)) (if db d 0 14 then .sr (draw key j) else .rne)
        (f (x (dw d 3)) (x (dw d 5)) (x (dw d 7)))).code % 65536 := by
  intro x
  obtain ⟨hd, hstats⟩ := hf (c.vecIn q d 0) (df d 1 0 16 + 1) (rowElem c.mem (fmt16 (db d 0 12)) (foldBase q + dw d 3))
    (rowElem c.mem (fmt16 (db d 0 12)) (foldBase q + dw d 5)) (rowElem c.mem (fmt16 (db d 0 12)) (foldBase q + dw d 7))
    (by simp only [State.vecIn, Nat.zero_mul, Nat.add_zero, rowValues_eq_rowElem _ _ _ hecc])
    (fun h => by simp only [State.vecIn, h, if_true, Nat.zero_mul, Nat.add_zero, rowValues_eq_rowElem _ _ _ hecc])
    (fun h => by simp only [State.vecIn, h, if_true, rowValues_eq_rowElem _ _ _ hecc]) rfl rfl
  rw [mem_vecDoRow c key page hdst hstats, hd]
  refine word16_putWords _ _ j _ _ ?_
  simp [rowCodes, hj, x]

/-- A command that runs such a kernel writes it. -/
theorem elementwise_completes {t : Nat} {flips : List (Nat × Nat)} {cmd : Instr} {kernels : List Nat}
    {f : Machine.Num → Machine.Num → Machine.Num → Machine.Num} (he : e < 16)
    (hexec : exec cmd s = .next ((s.advance t).runVec q e kernels flips))
    (hstart : (s.advance t).startable q (96 + e) = some (i, w)) (hone : df w.desc 2 0 24 = 0)
    (hclean : Clean ((s.advance t).upset flips)) (hk : df w.desc 0 4 8 ∈ kernels) (hlt : df w.desc 0 4 8 < 0x30)
    (hf : ComputesEach (df w.desc 0 4 8) (dF32 w.desc 11) (dF32 w.desc 12) f) :
    let a := (s.advance t).upset flips
    let d := w.desc
    let x (off j : Nat) : Machine.Num := rowElem a.mem (fmt16 (db d 0 12)) (foldBase q + off) j
    Completes cmd s (fun u => ∀ j, j < df d 1 0 16 + 1 →
      word16 u.mem (foldBase q + dw d 8 + 2 * j) = (convert16 (fmt16 (db d 0 13))
        (if db d 0 14 then .sr (draw (a.drawsOf q w) j) else .rne) (f (x (dw d 3) j) (x (dw d 5) j) (x (dw d 7) j))).code % 65536) := by
  intro a d x
  have hdst : kernelDst (df w.desc 0 4 8) = true := by simp [kernelDst]; omega
  have h0 : kernelAux0 (df w.desc 0 4 8) = false := by simp [kernelAux0]; omega
  have h1 : kernelAux1 (df w.desc 0 4 8) = false := by simp [kernelAux1]; omega
  obtain ⟨stop, hrun⟩ := runVec_one (flips := flips) he hstart hk hone h0 h1
  have hground := ground_vecRead a q e i w
  refine ⟨_, hexec.trans (congrArg _ hrun), fun j hj => ?_⟩
  rw [mem_finishEntry, word16_vecDoRow _ _ hf hdst (by rw [ecc_of_ground hground, ecc_startEntry, hclean.1]) hj,
    mem_of_ground hground, mem_startEntry]

end Vector

/-- Settles O25: each command by the kernels that it runs, and each kernel by its function of one position. -/
theorem elementwiseKernelsComputeTheirFunctions : Obligations.ElementwiseKernelsComputeTheirFunctions := by
  intro t q e flips cmd f k i w s a d m n x p hmem hm he hstart hone hclean
  have hrun {kernels : List Nat} (hexec : exec cmd s = .next ((s.advance t).runVec q e kernels flips))
      (hk : m ∈ kernels) (hlt : m < 0x30) (hf : ComputesEach m (p 11) (p 12) f) :=
    elementwise_completes he hexec hstart hone hclean hk hlt hf
  have hself (h10 : k ≠ 0x10) (h20 : k ≠ 0x20) : m = k := by omega
  simp only [List.mem_cons, Prod.mk.injEq, List.not_mem_nil, or_false] at hmem
  obtain ⟨rfl, rfl, rfl⟩ | ⟨rfl, rfl, rfl⟩ | ⟨rfl, rfl, rfl⟩ | ⟨rfl, rfl, rfl⟩ | ⟨rfl, rfl, rfl⟩ | ⟨rfl, rfl, rfl⟩ |
    ⟨rfl, rfl, rfl⟩ | ⟨rfl, rfl, rfl⟩ | ⟨rfl, rfl, rfl⟩ | ⟨rfl, rfl, rfl⟩ | ⟨rfl, rfl, rfl⟩ | ⟨rfl, rfl, rfl⟩ := hmem
  case inr.inr.inr.inr.inr.inr.inr.inl =>
    have h : 0x10 ≤ m ∧ m ≤ 0x19 := by omega
    exact hrun rfl (by simp only [List.mem_cons]; omega) (by omega) (computesEach_activation h _ _)
  case inr.inr.inr.inr.inr.inr.inr.inr.inr.inr.inr =>
    have h : 0x20 ≤ m ∧ m ≤ 0x29 := by omega
    exact hrun rfl (by simp only [List.mem_cons]; omega) (by omega) (computesEach_backward h _ _)
  all_goals
    have hk := hself (by decide) (by decide)
    rw [hk] at hrun
    refine hrun rfl (List.mem_singleton_self _) (by decide) ?_
  · exact computesEach_pair (by decide) (fun _ => rfl) _ _
  · exact computesEach_pair (by decide) (fun _ => rfl) _ _
  · exact computesEach_pair (by decide) (fun _ => rfl) _ _
  · exact computesEach_fma _ _
  · exact computesEach_pair (by decide) (fun _ => rfl) _ _
  · exact computesEach_pair (by decide) (fun _ => rfl) _ _
  · exact computesEach_map (fun v h0 h1 => by rw [← h0, ← h1]; rfl)
  · exact computesEach_map (fun _ _ _ => rfl)
  · exact computesEach_map (fun _ _ _ => rfl)
  · exact computesEach_map (fun _ _ _ => rfl)

end Sys2Proof.Proofs
end

section
/-! PROOFS. A completing tile of "quarter 4", whose array registers are registers of STEP. -/

namespace Sys2Proof.Proofs
open Sys2Proof Sys2Proof.Machine Sys2Proof.Laws

/-! ## The counterexample to O20

No hypothesis bounds the quarter. Window 4 is the module's (R347), so the ARRAY page of triad 2 of "quarter 4" is STEP, and
LAST_TAG of its third array is the first word of PT1_START, which the signal on counter 4,092 then starts (R143, R162). -/

/-- A descriptor that hands its carries off (WB = 2) and signals on counter 4,092; its tag is 0 and its masks are empty. -/
def handingDesc : Desc := 0x0FFC0000#32 ++ 0#448 ++ 0x00010000#32

/-- Its tile, accepted at ACLK 0. -/
def handingTile : Tile :=
  { desc := handingDesc, kind := 0, at_ := 0, salt := 0, a := [], b := [], c := [], cBad := [], reads := [] }

/-- Its window entry. -/
def handingEntry : WinEntry := { desc := handingDesc, status := .running }

/-- A step runs, the quarters have marked counter 4,092, slot 0 of "quarter 4" is on triad 2, and the tile runs there on array 2,
past its last cycle; TILES_DONE of the array, which is also PT0_END, is about to wrap to 0. -/
def handingState : State :=
  { now := 100
    pod := { count64 := 64 }
    regs := [((mPage .step).reg Reg.STEP_STEP_STS, 1), ((mPage .step).reg Reg.STEP_PTp_END_HI, 0xFFFFFFFF),
      ((qPage .tslot 4 0).reg Reg.TSLOT_SLOTn, 2)]
    compute :=
      { queues := [(256 * 4 + 2, { window := [handingEntry] })]
        counters := (List.range 4).map (fun q => (4096 * q + 4092, 1))
        arrays := [(96 * 4 + 3 * 2 + 2, { tiles := [handingTile] })] } }

/-- LAST_TAG of array 2 of triad 2 of "quarter 4" in the state that an outcome answers. -/
def lastTagIn : Host.Outcome State Fault Refusal → Option Nat
  | .next u => some (u.num (qPage .array 4 2) (Reg.ARRAY_LAST_TAG + 0x40 * 2))
  | _ => none

/-- LAST_TAG shows the pod time at which BWD began, not the tag. -/
theorem lastTagIn_handingState : lastTagIn (exec (.tileComplete 0 4 0 2 0 [] [] [] 0 0) handingState) = some 1 := by
  decide +kernel

/-- Refutes O20: in "quarter 4" LAST_TAG is a word of STEP, and the start of BWD overwrites the tag 0 with the pod time 1. -/
theorem not_tilesWriteTheirLinesAndSignal : ¬ Obligations.TilesWriteTheirLinesAndSignal := by
  intro h
  obtain ⟨u, hu, -, -, -, -, htag, -⟩ := h 0 4 0 2 0 [] [] [] 0 0 handingTile [] handingEntry [] handingState (by decide)
    (by decide) (by decide +kernel) (by decide +kernel) rfl (by decide +kernel) (by decide +kernel) (by decide +kernel)
  have hphys : (handingState.advance 0).physOf 4 0 = 2 := by decide +kernel
  have hzero : dTag handingTile.desc = 0 := by decide +kernel
  have hshown := lastTagIn_handingState
  rw [hu, lastTagIn] at hshown
  rw [hphys, hzero] at htag
  rw [htag] at hshown
  exact absurd hshown (by decide)

end Sys2Proof.Proofs
end

section
/-! PROOFS. Halted queues: what RESUME and RETRY leave of a queue, and the writes of ARR_CTL and ENG_CTL that ask for them. -/

namespace Sys2Proof.Proofs
open Sys2Proof Sys2Proof.Machine Sys2Proof.Laws

/-! ## Granted writes of control registers (R5, R374) -/

section Control
variable {a t : State} {o : Origin} {p : Page} {off : Nat} {k : PageKind}

@[simp] theorem journalAdd_mem (s : State) (e : JEntry) : (s.journalAdd e).mem = s.mem := by rw [journalAdd_fields]
@[simp] theorem journalAdd_ecc (s : State) (e : JEntry) : (s.journalAdd e).ecc = s.ecc := by rw [journalAdd_fields]
@[simp] theorem journalAdd_queue (s : State) (e : JEntry) (q n : Nat) : (s.journalAdd e).queue q n = s.queue q n := by
  rw [journalAdd_fields]
  rfl

/-- A granted write that its page performs answers what the page makes of it, journalled. -/
theorem writeRow_of_done {v : Word} (hg : Granted a o p off) (hk : p.kind = some k) (hboot : k ≠ .boot) (hpwr : k ≠ .pwr)
    (hd : a.decideWrite { origin := o, page := p, off := off, write := some v } k v = (t, 0, false))
    (hclk : t.clk = a.clk) (htrain : t.train = a.train) : ∃ e, writeRow a o true p off v = .next (t.journalAdd e) := by
  obtain ⟨e, hperf, -⟩ := performWrite_of_done hk rfl hd
    (afterWrite_of_kind off v.toNat (by simp [hk, hboot]) (by simp [hk, hpwr]))
  exact ⟨e, writeRow_completes hg v 0 false (by simp) hperf (by simp [hclk]) (by simp [htrain])⟩

/-- Arrays and engines take any value at any time (R6, R142). -/
theorem decideWrite_of_control {r : RegSpec} {v : Word} (hk : k = .array ∨ k.isEngine = true) (hoff : 0x100 ≤ off)
    (hspec : p.specAt off = some r) (hwo : r.wo ≠ 0) (hside : o ≠ .sideband)
    (hblock : a.writeBlock o p k off r v = (t, true)) :
    a.decideWrite { origin := o, page := p, off := off, write := some v } k v = (t, 0, false) := by
  have hfree : (k == .sec) = false ∧ rangeOk k off v.toNat = true ∧ a.idleOk k off = true := by
    cases k <;> simp [PageKind.isEngine] at hk <;> simp [rangeOk, State.idleOk]
  obtain ⟨hsec, hrange, hidle⟩ := hfree
  have h8 : off ≠ 0x008 := by omega
  have h10 : off ≠ 0x010 := by omega
  have h14 : off ≠ 0x014 := by omega
  have h18 : off ≠ 0x018 := by omega
  unfold State.decideWrite
  simp [hside, hsec, hspec, h8, h10, h14, h18, hwo, hrange, hidle, hblock, hoff]

end Control

/-! ## What RESUME and RETRY make of a halted queue (R65, R115, R460) -/

section Halted
variable {s : State} {q n : Nat}

/-- A queue runs again with a window, and what a write of a register answers for is left: its time, memory, and what waits. -/
structure Released (s t : State) (q n : Nat) (l : List WinEntry) : Prop where
  queue : t.queue q n = { s.queue q n with halt := none, window := l }
  mem : t.mem = s.mem
  ecc : t.ecc = s.ecc
  clk : t.clk = s.clk
  train : t.train = s.train

@[simp] theorem queue_setMangles (s : State) (q' : Nat) (x : Mangles) : (s.setMangles q' x).queue q n = s.queue q n := rfl

/-- Nothing fetched can enter the window: only the claim of the descriptor that is next is made. -/
theorem drain_of_no_fetches (hf : (s.queue q n).fetches = []) : s.drain q n = s.claimNext q n := by
  simp [State.drain, State.drainFuel, hf]

theorem released_claimNext {l : List WinEntry} {t : State} (h : Released s t q n l) : Released s (t.claimNext q n) q n l := by
  unfold State.claimNext
  split
  · exact h
  · dsimp only
    split
    · exact h
    · exact ⟨by simp [h.queue], by simp [h.mem], by simp [h.ecc], by simp [h.clk], by simp [h.train]⟩

theorem released_journalAdd {l : List WinEntry} {t : State} (e : JEntry) (h : Released s t q n l) :
    Released s (t.journalAdd e) q n l :=
  ⟨by rw [journalAdd_queue, h.queue], by rw [journalAdd_mem, h.mem], by rw [journalAdd_ecc, h.ecc], by rw [journalAdd_clk, h.clk],
    by rw [journalAdd_train, h.train]⟩

@[simp] theorem traceEvent_clk (s : State) (q n event code tag : Nat) : (s.traceEvent q n event code tag).clk = s.clk := by
  simp [State.traceEvent, apply_ite State.clk]

@[simp] theorem traceEvent_train (s : State) (q n event code tag : Nat) : (s.traceEvent q n event code tag).train = s.train := by
  simp [State.traceEvent, apply_ite State.train]

theorem released_traceEvent {l : List WinEntry} {t : State} (event code tag : Nat) (h : Released s t q n l) :
    Released s (t.traceEvent q n event code tag) q n l :=
  ⟨by rw [queue_of_units (congrArg Ground.units (ground_traceEvent ..)), h.queue],
    by rw [mem_of_ground (ground_traceEvent ..), h.mem], by rw [ecc_of_ground (ground_traceEvent ..), h.ecc],
    by simp [h.clk], by simp [h.train]⟩

/-- Entries of an update engine that skip-complete stay in its window, done. -/
theorem released_skipEntries {p : WinEntry → Bool} (hn : 160 ≤ n) :
    Released s ((s.setQueue q n { s.queue q n with halt := none }).skipEntries q n p) q n
      ((s.queue q n).window.map (fun w => if p w then { w with status := .done, skip := true, waitUntil := 0 } else w)) := by
  have hmangle : (decide (n < 90) || (120 ≤ n && decide (n < 128))) = false := by simp; omega
  unfold State.skipEntries
  simp only [hmangle, Bool.and_false, Bool.false_eq_true, if_false]
  exact List.foldlRecOn (motive := fun t => Released s t q n _) _ _ ⟨by simp, by simp, by simp, by simp, by simp⟩
    (fun t ht w _ => released_traceEvent _ _ _ ht)

/-- The window that RESUME leaves: a failed entry is gone, or done and skipped on an update engine. -/
def resumedWindow (n : Nat) (l : List WinEntry) : List WinEntry :=
  if 160 ≤ n then l.map (fun w => if w.status == .failed then { w with status := .done, skip := true, waitUntil := 0 } else w)
  else l.filter (fun w => !(w.status == .failed))

/-- RESUME before anything fetched is processed: the halt has ended, and the failed entries are discarded. -/
def discarded (s : State) (q n : Nat) : State :=
  let t := s.setQueue q n { s.queue q n with halt := none }
  if 160 ≤ n then t.skipEntries q n (fun w => w.status == .failed)
  else t.setQueue q n { s.queue q n with halt := none, window := (s.queue q n).window.filter (fun w => !(w.status == .failed)) }

theorem released_discarded : Released s (discarded s q n) q n (resumedWindow n (s.queue q n).window) := by
  unfold discarded resumedWindow
  dsimp only
  split
  · next hn => exact released_skipEntries hn
  · exact ⟨queue_setQueue_same .., by simp, by simp, by simp, by simp⟩

theorem resume_of_halted (hh : (s.queue q n).halt = some .refused ∨ (s.queue q n).halt = some .runtime) :
    s.resume q n = (discarded s q n).drain q n := by
  unfold State.resume
  obtain h | h := hh <;> simp only [h] <;> rfl

theorem released_resume (hh : (s.queue q n).halt = some .refused ∨ (s.queue q n).halt = some .runtime)
    (hf : (s.queue q n).fetches = []) :
    Released s (s.resume q n) q n (resumedWindow n (s.queue q n).window) := by
  have hreleased := released_discarded (s := s) (q := q) (n := n)
  rw [resume_of_halted hh, drain_of_no_fetches (by rw [hreleased.queue, hf])]
  exact released_claimNext hreleased

/-- The window that RETRY leaves: a failed entry waits again from its first segment, a collective with the next epoch. -/
def retriedWindow (n : Nat) (l : List WinEntry) : List WinEntry :=
  l.map (fun w => if w.status == .failed then
    { w with status := .waiting, next := if n = 153 then w.next + 1 else 0, open_ := [], err := 0 } else w)

theorem retry_of_runtime (hh : (s.queue q n).halt = some .runtime) :
    s.retry q n = s.setQueue q n { s.queue q n with halt := none, window := retriedWindow n (s.queue q n).window } := by
  simp [State.retry, hh, retriedWindow]

/-- What RETRY leaves, once it is journalled. -/
theorem retry_journalAdd (e : JEntry) (hh : (s.queue q n).halt = some .runtime) :
    let u := (s.retry q n).journalAdd e
    (u.queue q n).halt = none ∧ (u.queue q n).window = retriedWindow n (s.queue q n).window ∧
      u = { s with regs := u.regs, cycle := u.cycle, journals := u.journals, compute := u.compute } := by
  intro u
  have hqueue : u.queue q n = { s.queue q n with halt := none, window := retriedWindow n (s.queue q n).window } := by
    rw [journalAdd_queue, retry_of_runtime hh, queue_setQueue_same]
  have hfields : u = { s.retry q n with regs := u.regs, journals := u.journals } := journalAdd_fields _ _
  refine ⟨by rw [hqueue], by rw [hqueue], ?_⟩
  rw [retry_of_runtime hh] at hfields
  rw [hfields]
  rfl

end Halted

/-! ## The pages of arrays and engines (R101, R348) -/

section Pages
variable {a : State} {o : Origin} {q n i p : Nat} {k : PageKind}

@[simp] theorem qPage_win (k : PageKind) (q i : Nat) : (qPage k q i).win = q := rfl

theorem kind_qPage_array (hq : q < 4) (hp : p < 32) : (qPage .array q p).kind = some .array ∧ (qPage .array q p).inst = p := by
  have hslot : quarterPage p = some (.array, p) := by simp [quarterPage, hp]
  simp [Page.kind, Page.inst, qPage, hq, PageKind.slotBase, hslot]

/-- The queues of the page of a mapped triad, by array. -/
theorem pageQueues_array (hq : q < 4) (hp : p < 32) (hi : i < 3)
    (hmap : (List.range 30).find? (fun m => a.physOf q m == p) = some n) :
    (a.pageQueues (qPage .array q p))[i]? = some (3 * n + i) := by
  obtain ⟨hkind, hinst⟩ := kind_qPage_array hq hp
  have hfind : (List.range 30).find? (fun m => a.physOf (qPage .array q p).win m == p) = some n := hmap
  simp only [State.pageQueues, hkind, hinst, hfind]
  interval_cases i <;> rfl

theorem specAt_arrCtl (hq : q < 4) (hp : p < 32) (hi : i < 3) : (qPage .array q p).specAt (Reg.ARRAY_ARR_CTL + 0x40 * i) =
    some { off := Reg.ARRAY_ARR_CTL, wo := 0x1, stride := 64, count := 3 } := by
  simp only [Page.specAt, (kind_qPage_array hq hp).1]
  interval_cases i <;> rfl

/-- A write of 1 to ARR_CTL of an array is RESUME of its queue (R65). -/
theorem writeBlock_arrCtl {r : RegSpec} (hq : q < 4) (hp : p < 32) (hi : i < 3)
    (hmap : (List.range 30).find? (fun m => a.physOf q m == p) = some n) :
    a.writeBlock o (qPage .array q p) .array (Reg.ARRAY_ARR_CTL + 0x40 * i) r 1 = (a.resume q (3 * n + i), true) := by
  have hplace : (Reg.ARRAY_ARR_CTL + 0x40 * i - 0x100) / 0x40 = i := by unfold Reg.ARRAY_ARR_CTL; omega
  have hbit : bitAt (1 : Word).toNat 0 = true := by decide
  simp only [State.writeBlock, State.writeArray, hplace, pageQueues_array hq hp hi hmap, hbit, if_true, qPage_win]

/-- The engines' queue numbers and pages, one by one. -/
theorem engine_table : ∀ n < 164, (engineOf n).all (fun e => e.1.isEngine && quarterPage (e.1.slotBase + e.2) == some e &&
    engineQueue e.1 e.2 == n && (e.1.regAt Reg.ENG_ENG_CTL).any (fun r => r.wo == (if 136 ≤ n ∧ n < 154 then 3 else 1))) = true := by
  decide +kernel

theorem lt_of_engineOf (h : engineOf n = some (k, i)) : n < 164 := by
  by_contra hn
  simp [engineOf, show ¬ n < 96 by omega, show ¬ n < 112 by omega, show ¬ n < 120 by omega, show ¬ n < 128 by omega,
    show ¬ n < 130 by omega, show ¬ n < 132 by omega, show ¬ n < 134 by omega, show ¬ n < 136 by omega, show ¬ n < 152 by omega,
    show n ≠ 152 by omega, show n ≠ 153 by omega, show ¬ n < 160 by omega, hn] at h

/-- The page of an engine, its queue, and its ENG_CTL: RESUME in bit 0, and RETRY in bit 1 where the engine has one (R117). -/
theorem engine_page (hq : q < 4) (h : engineOf n = some (k, i)) : k.isEngine = true ∧ (enginePage q n).kind = some k ∧
    (enginePage q n).win = q ∧ engineQueue k (enginePage q n).inst = n ∧
    ∃ r, (enginePage q n).specAt Reg.ENG_ENG_CTL = some r ∧ r.wo = if 136 ≤ n ∧ n < 154 then 3 else 1 := by
  have htable := engine_table n (lt_of_engineOf h)
  rw [h] at htable
  simp only [Option.all_some, Bool.and_eq_true, beq_iff_eq, Option.any_eq_true] at htable
  obtain ⟨⟨⟨hengine, hslot⟩, hqueue⟩, r, hr, hwo⟩ := htable
  have hkind : (enginePage q n).kind = some k := by simp [enginePage, h, Page.kind, qPage, hq, hslot]
  have hinst : (enginePage q n).inst = i := by simp [enginePage, h, Page.inst, qPage, hq, hslot]
  refine ⟨hengine, hkind, by simp [enginePage, h, qPage], by rw [hinst, hqueue], r, ?_, hwo⟩
  rw [← hr]
  cases k <;> simp [PageKind.isEngine] at hengine <;> simp [Page.specAt, hkind]

/-- A write of ENG_CTL is the engine's (R115). -/
theorem writeBlock_engCtl {pg : Page} {r : RegSpec} {v : Word} (hk : k.isEngine = true) :
    a.writeBlock o pg k Reg.ENG_ENG_CTL r v = a.writeEngine pg k r v.toNat := by
  cases k <;> simp [PageKind.isEngine] at hk <;> simp [State.writeBlock, PageKind.isEngine, Reg.DG_ACC_LO, Reg.ENG_ENG_CTL]

end Pages

/-! ## RESUME and RETRY, asked for by a granted write -/

section Writes
variable {s : State} {t q n i p : Nat} {o : Origin} {k : PageKind}

theorem exec_arrayResume (hq : q < 4) (hp : p < 32) (hi : i < 3)
    (hg : Granted (s.advance t) o (qPage .array q p) (Reg.ARRAY_ARR_CTL + 0x40 * i))
    (hmap : (List.range 30).find? (fun m => (s.advance t).physOf q m == p) = some n)
    (hclk : ((s.advance t).resume q (3 * n + i)).clk = (s.advance t).clk)
    (htrain : ((s.advance t).resume q (3 * n + i)).train = (s.advance t).train) :
    ∃ e, exec (.arrayResume t o q p i) s = .next (((s.advance t).resume q (3 * n + i)).journalAdd e) := by
  have hkind := (kind_qPage_array hq hp).1
  have hside : o ≠ .sideband := fun ho => by simpa using kind_of_sideband hg hkind ho
  show ∃ e, writeRow (s.advance t) o (decide (q < 4 ∧ p < 32 ∧ i < 3)) _ _ 1 = _
  rw [decide_eq_true ⟨hq, hp, hi⟩]
  refine writeRow_of_done hg hkind (by decide) (by decide) (decideWrite_of_control (.inl rfl) (Nat.le_add_right _ _)
    (specAt_arrCtl hq hp hi) (by decide) hside ?_) hclk htrain
  exact writeBlock_arrCtl hq hp hi hmap

/-- A granted write of ENG_CTL answers what the engine makes of it, journalled. -/
theorem writeRow_engCtl {a u : State} {v : Word} (hq : q < 4) (hn : engineOf n = some (k, i))
    (hg : Granted a o (enginePage q n) Reg.ENG_ENG_CTL)
    (hdo : ∀ r : RegSpec, (r.wo = if 136 ≤ n ∧ n < 154 then 3 else 1) →
      a.writeEngine (enginePage q n) k r v.toNat = (u, true)) (hclk : u.clk = a.clk) (htrain : u.train = a.train) :
    ∃ e, writeRow a o (decide (q < 4) && (engineOf n).isSome) (enginePage q n) Reg.ENG_ENG_CTL v = .next (u.journalAdd e) := by
  obtain ⟨hengine, hkind, -, -, r, hspec, hwo⟩ := engine_page hq hn
  have hnot {k' : PageKind} (h' : k'.isEngine = false) : k ≠ k' := fun h => by simp [h, h'] at hengine
  have hside : o ≠ .sideband := fun ho => hnot rfl (kind_of_sideband hg hkind ho)
  rw [decide_eq_true hq, hn]
  exact writeRow_of_done hg hkind (hnot rfl) (hnot rfl) (decideWrite_of_control (.inr hengine) (by decide) hspec
    (by rw [hwo]; split <;> decide) hside ((writeBlock_engCtl hengine).trans (hdo r hwo))) hclk htrain

theorem exec_engineResume (hq : q < 4) (hn : engineOf n = some (k, i))
    (hg : Granted (s.advance t) o (enginePage q n) Reg.ENG_ENG_CTL)
    (hclk : ((s.advance t).resume q n).clk = (s.advance t).clk) (htrain : ((s.advance t).resume q n).train = (s.advance t).train) :
    ∃ e, exec (.engineResume t o q n) s = .next (((s.advance t).resume q n).journalAdd e) := by
  obtain ⟨-, -, hwin, hqueue, -⟩ := engine_page hq hn
  exact writeRow_engCtl hq hn hg (fun r _ => by simp [State.writeEngine, hwin, hqueue, bitAt]) hclk htrain

/-- RETRY of a streamer, the exporter or the collective sequencer. -/
theorem exec_engineRetry (hq : q < 4) (hlo : 136 ≤ n) (hhi : n < 154)
    (hg : Granted (s.advance t) o (enginePage q n) Reg.ENG_ENG_CTL)
    (hclk : ((s.advance t).retry q n).clk = (s.advance t).clk) (htrain : ((s.advance t).retry q n).train = (s.advance t).train) :
    ∃ e, exec (.engineRetry t o q n) s = .next (((s.advance t).retry q n).journalAdd e) := by
  obtain ⟨k, i, hn⟩ : ∃ k i, engineOf n = some (k, i) := by interval_cases n <;> exact ⟨_, _, rfl⟩
  obtain ⟨-, -, hwin, hqueue, -⟩ := engine_page hq hn
  refine writeRow_engCtl hq hn hg (fun r hwo => ?_) hclk htrain
  rw [if_pos ⟨hlo, hhi⟩] at hwo
  simp [State.writeEngine, hwin, hqueue, hwo, bitAt]

end Writes

/-- Settles O14: each command is the granted write that its page performs, and leaves its queue released. -/
theorem haltedQueuesResumeAndRetry : Obligations.HaltedQueuesResumeAndRetry := by
  refine ⟨?_, ?_, ?_⟩
  · intro t o q p i n s
    dsimp only
    intro hq hp hi hg hmap hh hf
    have hn : n < 30 := List.mem_range.1 (List.mem_of_find?_eq_some hmap)
    have hr := released_resume (.inl hh) hf
    obtain ⟨e, he⟩ := exec_arrayResume hq hp hi hg hmap hr.clk hr.train
    have hu := released_journalAdd e hr
    exact ⟨_, he, by rw [hu.queue], by rw [hu.queue]; exact if_neg (by omega), hu.mem, hu.ecc⟩
  · intro t o q n k i s
    dsimp only
    intro hq hn hg hh hf
    have hr := released_resume hh hf
    obtain ⟨e, he⟩ := exec_engineResume hq hn hg hr.clk hr.train
    have hu := released_journalAdd e hr
    exact ⟨_, he, by rw [hu.queue], hu.mem, hu.ecc, by rw [hu.queue, resumedWindow]⟩
  · intro t o q n s
    dsimp only
    intro hq hlo hhi hg hh
    have hretry := retry_of_runtime hh
    obtain ⟨e, he⟩ := exec_engineRetry hq hlo hhi hg (by rw [hretry, setQueue_clk]) (by rw [hretry, setQueue_train])
    exact ⟨_, he, retry_journalAdd e hh⟩

end Sys2Proof.Proofs
end

section
/-! PROOFS. Tiles and mangles: what an array takes when it accepts its next tile, and how the mangles' claims are granted. -/

namespace Sys2Proof.Proofs
open Sys2Proof Sys2Proof.Machine Sys2Proof.Laws

/-! ## Registers that an engine's reads leave (R98, R120, R364) -/

section Seen
variable {s t : State} {p p' : Page} {off : Nat}

/-- A register of another page than a given one, and than EVQ. -/
structure Beside (p' p : Page) (off : Nat) : Prop where
  page : ∀ o < 4096, p.reg off ≠ p'.reg o
  evq : OffEvq p off

theorem seen_setEvent_beside (s : State) (bit : Nat) (forced : Bool) (h : Beside p' p off) :
    seen (s.setEvent p' bit forced).1 p off = seen s p off := by
  have hset : seen (eventSet s p' bit) p off = seen s p off :=
    (seen_addSat_other _ _ (h.page _ (by decide))).trans
      ((seen_setBit_other _ _ _ (h.page _ (by decide))).trans (seen_note_other s _ _ (h.page _ (by decide))))
  rw [setEvent_eq]
  split
  · exact (seen_placeAlarm _ _ _ h.evq).trans hset
  · exact hset

theorem seen_setEvents_beside (s : State) (bit : Nat) (forced : Bool) (h : Beside p' p off) :
    seen (s.setEvents p' bit forced) p off = seen s p off := by
  unfold State.setEvents
  dsimp only
  split
  · exact (seen_setEvent_evq _ _ _ h.evq).trans (seen_setEvent_beside _ _ _ h)
  · exact seen_setEvent_beside _ _ _ h

theorem seen_raise_beside (s : State) (bit : Nat) (h : Beside p' p off) : seen (s.raise p' bit) p off = seen s p off := by
  unfold State.raise
  dsimp only
  split
  · rfl
  · exact seen_setEvents_beside _ _ _ h

theorem seen_upset (s : State) (flips : List (Nat × Nat)) : seen (s.upset flips) p off = seen s p off := by
  unfold State.upset
  refine foldl_same (fun t => seen t p off) (fun t f _ => ?_) s
  rfl

theorem quarter_of_fold {a q o : Nat} (h : regionOf a = .fold q o) : q < 4 := by
  unfold regionOf at h
  (repeat' split at h) <;> simp at h
  omega

/-- The registers of a module page other than EVQ are beside the page of a Fold. -/
theorem beside_fold {k : PageKind} {q : Nat} (hk : mPage k ≠ mPage .evq) (hoff : off < 4096) (hq : q < 4) :
    Beside (qPage .fold q 0) (mPage k) off where
  page _ ho := page_reg_ne_of_page (mPage_slot_lt _) (by decide : PageKind.fold.slotBase + 0 < 4096) hoff ho
    (fun h => by have : 4 = q := congrArg Page.win h; omega)
  evq := offEvq_of_page (mPage_slot_lt _) hoff hk

section Reads
variable {k : PageKind} (hk : mPage k ≠ mPage .evq) (hoff : off < 4096)
include hk hoff

/-- What a codeword of the Fold counts is in the page of the Fold, and what it raises there and in EVQ. -/
theorem seen_noteCodewordBy (s : State) (way : Option Nat) (queue : Bool) {cw : Nat} (h : AboveStacks (16 * cw / 64 * 64)) :
    seen (s.noteCodewordBy cw way queue) (mPage k) off = seen s (mPage k) off := by
  unfold State.noteCodewordBy
  split
  · rfl
  · dsimp only
    split
    · next q o hr =>
      have hb := beside_fold hk hoff (quarter_of_fold hr)
      split
      · rfl
      · have hraise : seen ((((s.addSat (qPage .fold q 0) Reg.FOLD_ECC_CE 1).setNum (qPage .fold q 0) Reg.FOLD_CE_ADDR o)).raise
            (qPage .fold q 0) 0) (mPage k) off = seen s (mPage k) off :=
          (seen_raise_beside _ _ hb).trans ((seen_setNum_other _ _ (hb.page _ (by decide))).trans
            (seen_addSat_other _ _ (hb.page _ (by decide))))
        split
        · exact hraise
        · exact hraise
      · exact (seen_raise_beside _ _ hb).trans (seen_addSat_other _ _ (hb.page _ (by decide)))
      · exact (seen_raise_beside _ _ hb).trans ((seen_setNum_other _ _ (hb.page _ (by decide))).trans
          (seen_addSat_other _ _ (hb.page _ (by decide))))
    · rw [stackPlace_aboveStacks h]

theorem seen_noteReadBy (s : State) (via : Option (Nat × Nat)) {a : Nat} (n : Nat) (h : AboveStacks a) :
    seen (s.noteReadBy via a n) (mPage k) off = seen s (mPage k) off := by
  unfold State.noteReadBy
  rw [flush_aboveStacks s n h]
  refine foldl_same (fun t => seen t (mPage k) off) (fun t l hl => ?_) s
  have hline := aboveStacks_of_mem_linesOf h hl
  have haccess : (t.lineAccess via false false l).1 = t := by simp [State.lineAccess, stackPlace_aboveStacks hline]
  dsimp only
  unfold State.noteLine
  rw [haccess]
  exact foldl_same (fun t => seen t (mPage k) off) (fun u c _ => seen_noteCodewordBy hk hoff u _ _ (by omega)) t

end Reads

/-- The SALT of a quarter and ATTEMPT are read of RNG and STEP alone (R120). -/
theorem salt_attempt_of_seen {q : Nat} (hq : q < 5)
    (h : ∀ k off, k = .rng ∨ k = .step → off < 4096 → seen t (mPage k) off = seen s (mPage k) off) :
    t.salt q = s.salt q ∧ t.attempt = s.attempt := by
  have hnum {k : PageKind} {o : Nat} (hk : k = .rng ∨ k = .step) (ho : o < 4096) : t.num (mPage k) o = s.num (mPage k) o :=
    congrArg (fun x => x.1.toNat) (h k o hk ho)
  have hoff : Reg.RNG_SALT_Qq + 4 * q < 4096 := by unfold Reg.RNG_SALT_Qq; omega
  constructor
  · unfold State.salt State.field
    rw [hnum (.inl rfl) hoff, show t.change _ _ = _ from congrArg Prod.snd (h .rng _ (.inl rfl) hoff)]
    rfl
  · simp only [State.attempt, State.num64, hnum (.inr rfl) (by decide : Reg.STEP_ATTEMPT_LO < 4096),
      hnum (.inr rfl) (by decide : Reg.STEP_ATTEMPT_HI < 4096)]

end Seen

/-! ## What a tile reads (R63, R72 to R75) -/

section Reads
variable {s : State} {q : Nat}

theorem aboveStacks_sideData {d : Desc} {x : TileSide} {keep : Option Keep} :
    ∀ r ∈ (s.sideData q d x keep).regions, AboveStacks r.1 := by
  intro r hr
  have hrow (i j : Nat) : AboveStacks (foldBase q + i + j) := Nat.le_add_right_of_le (aboveStacks_foldBase q i)
  unfold State.sideData at hr
  dsimp only at hr
  split at hr
  · simp at hr
  · split at hr
    · simp only [List.mem_flatMap, List.mem_append, List.mem_singleton] at hr
      obtain ⟨i, -, rfl | hscale⟩ := hr
      · exact hrow _ _
      · split at hscale
        · obtain rfl := List.mem_singleton.1 hscale
          exact hrow _ _
        · simp at hscale
    · split at hr
      · simp at hr
      · obtain ⟨i, -, rfl⟩ := List.mem_map.1 hr
        exact hrow _ _
    · obtain ⟨i, -, rfl⟩ := List.mem_map.1 hr
      exact hrow _ _

/-- The reads of a tile are noted. -/
def readsNoted (s : State) (q : Nat) (reads : List (Nat × Nat)) : State :=
  reads.foldl (fun s r => s.noteReadBy (some (q, 0)) r.1 r.2) s

variable {reads : List (Nat × Nat)} (h : ∀ r ∈ reads, AboveStacks r.1)
include h

theorem ground_readsNoted (s : State) (q : Nat) : ground (readsNoted s q reads) = ground s :=
  foldl_same ground (fun t r hr => ground_noteReadBy t _ r.2 (h r hr)) s

theorem seen_readsNoted (s : State) (q : Nat) {k : PageKind} {off : Nat} (hk : mPage k ≠ mPage .evq) (hoff : off < 4096) :
    seen (readsNoted s q reads) (mPage k) off = seen s (mPage k) off :=
  foldl_same (fun t => seen t (mPage k) off) (fun t r hr => seen_noteReadBy hk hoff t _ r.2 (h r hr)) s

end Reads

/-! ## Arrays keep their tiles in number when an overlap is marked (R66) -/

section Arrays

theorem length_markTiles (other : Bool) (out : List (Nat × Nat)) (q : Nat) (l : List Tile) :
    (markTiles other out q l).length = l.length := by
  have hgrow (done : List Tile) : ∀ l : List Tile, (l.foldl (fun done t =>
      let bad := t.undef || overlap out t.reads || t.inherits (done.filter (·.undef))
      let clash := if other then out.filter (fun r => overlap [r] (outRegions q t.desc)) else []
      done ++ [{ t with undef := bad, clash := t.clash ++ clash }]) done).length = done.length + l.length := by
    intro l
    induction l generalizing done with
    | nil => rfl
    | cons t l ih => rw [List.foldl_cons, ih]; simp; omega
  simpa [markTiles] using hgrow [] l

/-- What a map over the entries of a table keeps of each value, it keeps of what every key finds. -/
theorem mapGet_map_holds {α : Type} {P : α → α → Prop} (d : Nat → α) {f : Nat × α → Nat × α} (hd : ∀ k, P (d k) (d k))
    (hkey : ∀ e, (f e).1 = e.1) (hP : ∀ e, P e.2 (f e).2) (m : List (Nat × α)) (k : Nat) :
    P (mapGet d m k) (mapGet d (m.map f) k) := by
  induction m with
  | nil => exact hd k
  | cons e m ih =>
    simp only [List.map_cons, mapGet, hkey]
    split
    · exact hP e
    · exact ih

/-- Two states of an array hold as many tiles, and have taken as many kinds. -/
def SameCounts (x y : ArrayState) : Prop := y.tiles.length = x.tiles.length ∧ y.kinds = x.kinds

theorem sameCounts_markOverlaps (s : State) (q k : Nat) (out : List (Nat × Nat)) (q' p x : Nat) :
    SameCounts (s.array q' p x) ((s.markOverlaps q k out).array q' p x) := by
  unfold State.markOverlaps State.array
  refine mapGet_map_holds _ (fun _ => ⟨rfl, rfl⟩) (fun e => ?_) (fun e => ?_) _ _
  · split <;> rfl
  · split
    · exact ⟨length_markTiles .., rfl⟩
    · exact ⟨rfl, rfl⟩

end Arrays

/-! ## Acceptance of a tile (R47, R49, R334, R417) -/

section Accept
variable {a s u : State} {q p slot arr i : Nat} {w : WinEntry} {tile : Tile} {keepA keepB : List (Nat × Keep)}

/-- The array has taken a tile, which it holds as its newest. -/
def tileTaken (s : State) (q p arr : Nat) (d : Desc) (tile : Tile) (keepA keepB : List (Nat × Keep)) : State :=
  let s := s.markOverlaps q (96 * q + 3 * p + arr) (outRegions q d)
  let x := s.array q p arr
  ({ s with free := s.free + 2 ^ 35 } : State).setArray q p arr
    { x with tiles := x.tiles ++ [tile], lastAccept := some (s.now, max (descBeats d + 2) 32, descBeats d)
             kinds := x.kinds + 1, keepA := keepA, keepB := keepB }

theorem tileTaken_array (s : State) (q p arr : Nat) (d : Desc) (tile : Tile) (keepA keepB : List (Nat × Keep)) :
    let y := (tileTaken s q p arr d tile keepA keepB).array q p arr
    y.tiles.length = (s.array q p arr).tiles.length + 1 ∧ y.kinds = (s.array q p arr).kinds + 1 ∧
      y.lastAccept = some (s.now, max (descBeats d + 2) 32, descBeats d) ∧ y.tiles.getLast? = some tile := by
  obtain ⟨htiles, hkinds⟩ := sameCounts_markOverlaps s q (96 * q + 3 * p + arr) (outRegions q d) q p arr
  unfold tileTaken
  dsimp only
  rw [array_setArray_same]
  exact ⟨by simp [htiles], by simp [hkinds], rfl, by simp⟩

/-- The entry of a taken tile starts, its mangles are given to it, and the next descriptor may claim its own. -/
def tileStarted (s : State) (q n i : Nat) (w : WinEntry) (ms : Mangles) (page : Page) (sat nan poison : Bool) : State :=
  (((((s.setMangles q ms).startEntry q n i w).raiseIf sat page 3).raiseIf nan page 4).raiseIf poison page 8).claimNext q n

theorem ground_claimNext (s : State) (q n : Nat) : ground (s.claimNext q n) = ground s := by
  unfold State.claimNext
  split
  · rfl
  · dsimp only
    split <;> rfl

theorem ground_tileStarted (s : State) (q n i : Nat) (w : WinEntry) (ms : Mangles) (page : Page) (sat nan poison : Bool) :
    ground (tileStarted s q n i w ms page sat nan poison) = ground (s.setEntry q n i (started s q w)) := by
  unfold tileStarted
  rw [ground_claimNext, ground_raiseIf, ground_raiseIf, ground_raiseIf, ground_startEntry]
  rfl

/-- Only the window of the module and the four quarters' have pages. -/
theorem quarter_of_startable {n : Nat} (hn : engineOf n = none) (h : s.startable q n = some (i, w)) : q < 5 := by
  obtain ⟨hwork, -⟩ := startable_eq h
  by_contra hq
  have hkind : (qPage .array q (s.physOf q (n / 3))).kind = none := by
    simp [Page.kind, qPage, show ¬ q < 4 by omega, show ¬ q = 4 by omega]
  simp [State.working, State.queuePage, hn, hkind] at hwork

/-- The interval of the array's last acceptance has passed (R49). -/
def Paced (x : ArrayState) (now : Nat) : Prop := ∀ e, x.lastAccept = some e → e.1 + e.2.1 ≤ now

theorem engineOf_array (hs : slot < 30) (ha : arr < 3) : engineOf (3 * slot + arr) = none := by
  rw [engineOf, if_pos (by omega)]

/-- An accepted tile reads its operands, is taken, and starts. -/
theorem exec_tileAccept {t : Nat} {late : List (Nat × Nat × Nat)} {drains : List Nat} {flips : List (Nat × Nat)} :
    let a := s.advance t
    let n := 3 * slot + arr
    let p := a.physOf q slot
    let x := a.array q p arr
    let granted := (a.mangles q).served.find? (fun e => e.1 == a.claimant q n)
    slot < 30 → arr < 3 → a.startable q n = some (i, w) → a.blockedWindow = false → Paced x a.now →
    (streamsOf n w.desc = [] ∨ granted.isSome = true) →
    x.ready a.now w.fetchedAt ((granted.map Prod.snd).getD 0) w.desc late = true →
    ∃ (reads : List (Nat × Nat)) (tile : Tile) (keepA keepB : List (Nat × Keep)) (ms : Mangles) (page : Page) (sat nan poison : Bool),
      (∀ r ∈ reads, AboveStacks r.1) ∧
      let b := readsNoted (a.upset flips) q reads
      (tile.desc = w.desc ∧ tile.at_ = b.now ∧ tile.salt = b.salt q) ∧
      exec (.tileAccept t q slot arr late drains flips) s =
        .next (tileStarted (tileTaken b q p arr w.desc tile keepA keepB) q n i w ms page sat nan poison) := by
  dsimp only
  intro hs ha hstart hopen hpaced hstreams hready
  have hmangles : (!(streamsOf (3 * slot + arr) w.desc).isEmpty &&
      (((s.advance t).mangles q).served.find? (fun e => e.1 == (s.advance t).claimant q (3 * slot + arr))).isNone) = false := by
    obtain h | h := hstreams <;> simp [h]
  have hplace : decide (30 ≤ slot ∨ 3 ≤ arr) = false := decide_eq_false (by omega)
  have hexec : exec (.tileAccept t q slot arr late drains flips) s = execTileAccept t q slot arr late drains flips s := rfl
  unfold execTileAccept at hexec
  simp only [hstart, hplace, hopen, hmangles, hready, Bool.not_true, Bool.or_false, Bool.false_or] at hexec
  refine ⟨_, _, _, _, _, _, _, _, _, ?_, ?_, hexec.trans (if_neg fun hg => ?_)⟩
  · intro r hr
    rw [List.mem_append, List.mem_append] at hr
    obtain (hr | hr) | hr := hr
    · exact aboveStacks_sideData r hr
    · exact aboveStacks_sideData r hr
    · obtain ⟨k, -, rfl⟩ := List.mem_map.1 hr
      exact Nat.le_add_right_of_le (aboveStacks_foldBase ..)
  · exact ⟨rfl, rfl, rfl⟩
  · rw [Bool.not_eq_true'] at hg
    split at hg
    · simp at hg
    · next e hl => exact absurd (hpaced _ hl) (of_decide_eq_false hg)

theorem mem_upset (s : State) (flips : List (Nat × Nat)) : (s.upset flips).mem = s.mem := by
  unfold State.upset
  refine foldl_same State.mem (fun t f _ => ?_) s
  rfl

theorem array_tileStarted (b : State) (q n i q' p' x : Nat) (w : WinEntry) (ms : Mangles) (page : Page) (sat nan poison : Bool) :
    (tileStarted b q n i w ms page sat nan poison).array q' p' x = b.array q' p' x := by
  rw [array_of_units (congrArg Ground.units (ground_tileStarted ..))]
  rfl

section Taken
variable {flips reads : List (Nat × Nat)} {n : Nat} (hreads : ∀ r ∈ reads, AboveStacks r.1)
include hreads

theorem units_operandsRead : (ground (readsNoted (a.upset flips) q reads)).units = (ground a).units := by
  rw [ground_readsNoted hreads, units_upset]

/-- A tile's reads leave the SALT and ATTEMPT that it starts under. -/
theorem salt_attempt_operandsRead (hq : q < 5) : (readsNoted (a.upset flips) q reads).salt q = a.salt q ∧
    (readsNoted (a.upset flips) q reads).attempt = a.attempt := by
  refine salt_attempt_of_seen hq (fun k off hk hoff => ?_)
  rw [seen_readsNoted hreads _ _ (by obtain rfl | rfl := hk <;> decide) hoff, seen_upset]

/-- The entry of an accepted tile runs from now, under the present SALT and ATTEMPT. -/
theorem queue_tileStarted (hq : q < 5) (d : Desc) (ms : Mangles) (page : Page) (sat nan poison : Bool) :
    let c := tileTaken (readsNoted (a.upset flips) q reads) q p arr d tile keepA keepB
    (tileStarted c q n i w ms page sat nan poison).queue q n = { a.queue q n with
      window := (a.queue q n).window.set i
        { w with status := .running, startedAt := a.now, salt := a.salt q, attempt := a.attempt } } := by
  intro c
  obtain ⟨hsalt, hattempt⟩ := salt_attempt_operandsRead (a := a) (flips := flips) hreads hq
  have hunits := units_operandsRead (a := a) (flips := flips) (q := q) hreads
  have hqueue : c.queue q n = a.queue q n := queue_of_units hunits q n
  rw [queue_of_units (congrArg Ground.units (ground_tileStarted ..)), queue_setEntry, hqueue, ← hsalt, ← hattempt,
    ← now_of_units hunits]
  rfl

theorem mem_tileStarted (d : Desc) (ms : Mangles) (page : Page) (sat nan poison : Bool) :
    let c := tileTaken (readsNoted (a.upset flips) q reads) q p arr d tile keepA keepB
    (tileStarted c q n i w ms page sat nan poison).mem = a.mem := by
  intro c
  have hmem : c.mem = (readsNoted (a.upset flips) q reads).mem := rfl
  rw [mem_of_ground (ground_tileStarted ..), mem_setEntry, hmem, mem_of_ground (ground_readsNoted hreads _ _), mem_upset]

end Taken

end Accept

/-! ## No tile is accepted (R47, R49, R417) -/

/-- An array accepts nothing in a blocked window, within its interval, or where it is not ready. -/
theorem exec_tileAccept_refused {t q slot arr : Nat} {late : List (Nat × Nat × Nat)} {drains : List Nat} {flips : List (Nat × Nat)}
    {s : State} :
    let a := s.advance t
    let n := 3 * slot + arr
    let x := a.array q (a.physOf q slot) arr
    let granted := (a.mangles q).served.find? (fun e => e.1 == a.claimant q n)
    (a.blockedWindow = true ∨ (∃ e, x.lastAccept = some e ∧ a.now < e.1 + e.2.1) ∨ (∀ i w, a.startable q n = some (i, w) →
      x.ready a.now w.fetchedAt ((granted.map Prod.snd).getD 0) w.desc late = false)) →
    exec (.tileAccept t q slot arr late drains flips) s = .next a := by
  dsimp only
  intro h
  have hexec : exec (.tileAccept t q slot arr late drains flips) s = execTileAccept t q slot arr late drains flips s := rfl
  unfold execTileAccept at hexec
  cases hstart : (s.advance t).startable q (3 * slot + arr) with
  | none =>
    simp only [hstart] at hexec
    exact hexec
  | some e =>
    obtain ⟨i, w⟩ := e
    simp only [hstart] at hexec
    refine hexec.trans (if_pos ?_)
    obtain hblocked | ⟨e, hl, hlate⟩ | hready := h
    · simp only [hblocked, Bool.or_true, Bool.true_or]
    · rw [hl]
      have hpace : decide (e.1 + e.2.1 ≤ (s.advance t).now) = false := decide_eq_false (by omega)
      simp only [hpace, Bool.not_false, Bool.or_true, Bool.true_or]
    · simp only [hready i w hstart, Bool.not_false, Bool.or_true]

/-! ## The mangles (R77, R334) -/

section Mangles
variable {l : List MangleClaim} {c : MangleClaim} {busy : List MangleUse}

@[simp] theorem mangles_setMangles_same (s : State) (q : Nat) (x : Mangles) : (s.setMangles q x).mangles q = x :=
  mapGet_set_same _ _ _ _

theorem mangles_setMangles_other (s : State) {q q' : Nat} (x : Mangles) (h : q' ≠ q) :
    (s.setMangles q x).mangles q' = s.mangles q' := mapGet_set_other _ _ _ _ _ h

theorem setMangles_fields (s : State) (q : Nat) (x : Mangles) :
    s.setMangles q x = { s with compute := { s.compute with mangles := (s.setMangles q x).compute.mangles } } := rfl

theorem older_iff {b c : MangleClaim} : execMangleClaimGrant.older b c = true ↔ b.at_ < c.at_ ∨ b.at_ = c.at_ ∧ b.who < c.who := by
  simp [execMangleClaimGrant.older]

/-- A choice that an element wins from any other, and never loses, is made for that element. -/
theorem foldl_eq_of_wins {α : Type} {f : Option α → α → Option α} {c : α} {l₀ : List α} (hsel : ∀ b x, f b x = some x ∨ f b x = b)
    (hwin : ∀ b : Option α, (∀ d, b = some d → d ∈ l₀) → f b c = some c) (hstay : ∀ x ∈ l₀, f (some c) x = some c) {l : List α}
    (hl : ∀ x ∈ l, x ∈ l₀) {b : Option α} (hb : ∀ d, b = some d → d ∈ l₀) (hc : c ∈ l ∨ b = some c) : l.foldl f b = some c := by
  induction l generalizing b with
  | nil => simpa using hc
  | cons x l ih =>
    have hx : x ∈ l₀ := hl x (by simp)
    refine ih (fun y hy => hl y (by simp [hy])) (fun d hd => ?_) ?_
    · obtain h | h := hsel b x
      · obtain rfl : x = d := by simpa [h] using hd
        exact hx
      · exact hb d (h ▸ hd)
    · obtain hc | rfl := hc
      · obtain rfl | hc := List.mem_cons.1 hc
        · exact .inr (hwin b hb)
        · exact .inl hc
      · exact .inr (hstay x hx)

/-- A claim older than all others, whose mangles are free, is granted. -/
theorem pick_oldest (hc : c ∈ l) (hfree : ∀ b ∈ busy, ∀ m ∈ c.streams, b.mangle ≠ m.1)
    (hold : ∀ o ∈ l, o ≠ c → c.at_ < o.at_ ∨ (c.at_ = o.at_ ∧ c.who < o.who)) :
    execMangleClaimGrant.pick l busy = some c := by
  have hnone (o : MangleClaim) (ho : o ∈ l) : execMangleClaimGrant.older o c = false := by
    rw [Bool.eq_false_iff, ne_eq, older_iff]
    by_cases h : o = c
    · subst h; omega
    · have := hold o ho h; omega
  unfold execMangleClaimGrant.pick
  dsimp only
  refine foldl_eq_of_wins (l₀ := l) (fun b x => ?_) (fun b hb => ?_) (fun x hx => ?_) (fun x hx => (List.mem_filter.1 hx).1)
    (by simp) (.inl (List.mem_filter.2 ⟨hc, ?_⟩))
  · cases b with
    | none => exact .inl rfl
    | some d => dsimp only; split <;> simp
  · cases b with
    | none => rfl
    | some d =>
      by_cases hd : d = c
      · subst hd; simp
      · exact if_pos (older_iff.2 (hold d (hb d rfl) hd))
  · simp [hnone x hx]
  · simp only [List.all_eq_true, Bool.and_eq_true, bne_iff_ne, ne_eq]
    exact fun m hm => ⟨fun b hb => hfree b hb m hm, fun o ho => by simp [hnone o ho]⟩

end Mangles

/-- Settles O19: an acceptance by what it reads, takes and starts; a refusal by its reason; and the mangles' claims and uses by
the lists that hold them. -/
theorem tilesAreAcceptedOnFreeArrays : Obligations.TilesAreAcceptedOnFreeArrays := by
  refine ⟨?_, ?_, ?_, ?_⟩
  · intro t q slot arr i late drains flips w s
    dsimp only
    intro hs ha hstart hopen hpaced hstreams hready
    have hq := quarter_of_startable (engineOf_array hs ha) hstart
    obtain ⟨reads, tile, keepA, keepB, ms, page, sat, nan, poison, hreads, ⟨hdesc, hat, hsalt⟩, hexec⟩ :=
      exec_tileAccept (drains := drains) (flips := flips) hs ha hstart hopen hpaced hstreams hready
    have hunits := units_operandsRead (a := s.advance t) (flips := flips) (q := q) hreads
    obtain ⟨htiles, hkinds, hlast, hnewest⟩ := tileTaken_array (readsNoted ((s.advance t).upset flips) q reads) q
      ((s.advance t).physOf q slot) arr w.desc tile keepA keepB
    rw [array_of_units hunits] at htiles hkinds
    rw [now_of_units hunits] at hlast hat
    rw [(salt_attempt_operandsRead hreads hq).1] at hsalt
    refine ⟨_, hexec, queue_tileStarted hreads hq .., ?_, ?_, ?_, ?_, mem_tileStarted hreads ..⟩
    · rw [array_tileStarted, htiles]
    · rw [array_tileStarted, hkinds]
    · rw [array_tileStarted, hlast]
    · rw [array_tileStarted, hnewest, Option.map_some, hdesc, hat, hsalt]
  · intro t q slot arr late drains flips s
    exact exec_tileAccept_refused
  · intro t q c s
    dsimp only
    intro hc hfree hold
    have hexec : exec (.mangleClaimGrant t q) s = execMangleClaimGrant t q s := rfl
    unfold execMangleClaimGrant at hexec
    simp only [pick_oldest hc hfree hold] at hexec
    exact ⟨_, hexec, mangles_setMangles_same .., fun q' h => mangles_setMangles_other _ _ h, setMangles_fields ..⟩
  · intro t q m s
    dsimp only
    refine ⟨_, rfl, ?_, ?_, fun b => ?_, setMangles_fields ..⟩
    · rw [mangles_setMangles_same]
    · rw [mangles_setMangles_same]
    · rw [mangles_setMangles_same]
      simp [imp_iff_not_or]

end Sys2Proof.Proofs
end

section
/-! PROOFS. Darn and press: what marks a failed triad, what is noted of a loss, of a margin, of a sensor and of a calibration. -/

namespace Sys2Proof.Proofs
open Sys2Proof Sys2Proof.Machine Sys2Proof.Laws

/-! ## Tables filled from a list (R391 to R396) -/

section Tables
variable {α : Type} [DecidableEq α] (d : Nat → α) (base : Nat)

/-- Element i of a list is stored under key base + k₀ + i. -/
theorem mapGet_foldl_mapSet {l : List α} {i k₀ : Nat} {v : α} (h : l[i]? = some v) (m : List (Nat × α)) :
    mapGet d ((l.zipIdx k₀).foldl (fun m e => mapSet d m (base + e.2) e.1) m) (base + (k₀ + i)) = v :=
  foldl_zipIdx_holds (P := fun m => mapGet d m (base + (k₀ + i)) = v) h (fun m => mapGet_set_same _ _ _ _)
    (fun m e _ hne hm => (mapGet_set_other _ _ _ _ _ (by omega)).trans hm) m

/-- The other keys keep what they hold. -/
theorem mapGet_foldl_mapSet_other {l : List α} {j : Nat} (h : ∀ i < l.length, j ≠ base + i) (m : List (Nat × α)) :
    mapGet d (l.zipIdx.foldl (fun m e => mapSet d m (base + e.2) e.1) m) j = mapGet d m j :=
  foldl_same (fun m => mapGet d m j)
    (fun m e he => mapGet_set_other _ _ _ _ _ (h e.2 (by have := List.snd_lt_of_mem_zipIdx he; omega))) m

end Tables

/-! ## What darn's writes and events leave (R321, R395 to R397) -/

section Darn
variable {q : Nat} {s t u : State}

theorem raise_fields (s : State) (p : Page) (bit : Nat) :
    ∃ rs cy ev pu, s.raise p bit = { s with regs := rs, cycle := cy, events := ev, pulses := pu } := by
  obtain ⟨pu, ⟨rs, cy, ev, h⟩, -⟩ := touches_raise s p bit
  exact ⟨rs, cy, ev, pu, h⟩

@[simp] theorem raise_bgnd (s : State) (p : Page) (bit : Nat) : (s.raise p bit).bgnd = s.bgnd := by
  obtain ⟨_, _, _, _, h⟩ := raise_fields s p bit
  rw [h]

@[simp] theorem raise_mem (s : State) (p : Page) (bit : Nat) : (s.raise p bit).mem = s.mem := mem_of_ground (ground_raise ..)

@[simp] theorem raiseIf_bgnd (s : State) (c : Bool) (p : Page) (bit : Nat) : (s.raiseIf c p bit).bgnd = s.bgnd := by
  unfold State.raiseIf
  split <;> simp

@[simp] theorem raiseIf_mem (s : State) (c : Bool) (p : Page) (bit : Nat) : (s.raiseIf c p bit).mem = s.mem :=
  mem_of_ground (ground_raiseIf ..)

/-- A raised bit leaves the registers of a quarter's pages behind their headers. -/
theorem reg_raise_quarter (s : State) (p : Page) (bit : Nat) (hp : p.slot < 4096) {k : PageKind} {i off : Nat} (hq : q < 4)
    (hslot : k.slotBase + i < 4096) (hlo : 0x100 ≤ off) (hhi : off < 4096) :
    (s.raise p bit).reg (qPage k q i) off = s.reg (qPage k q i) off :=
  reg_raise_other _ _ _ (not_eventKey hp hslot hhi (fun h => absurd hlo (by rw [h]; decide)) (fun h => absurd hlo (by rw [h]; decide))
    (fun h => by have : q = 4 := congrArg Page.win h; omega))

theorem reg_raiseIf_quarter (s : State) (c : Bool) (p : Page) (bit : Nat) (hp : p.slot < 4096) {k : PageKind} {i off : Nat} (hq : q < 4)
    (hslot : k.slotBase + i < 4096) (hlo : 0x100 ≤ off) (hhi : off < 4096) :
    (s.raiseIf c p bit).reg (qPage k q i) off = s.reg (qPage k q i) off := by
  unfold State.raiseIf
  split
  · exact reg_raise_quarter s p bit hp hq hslot hlo hhi
  · rfl

/-- From `s` to `t`, memory, darn's notes and the registers of a quarter's BGND page stay, and no triad of the quarter is whole
again. -/
structure Keeping (q : Nat) (s t : State) : Prop where
  mem : t.mem = s.mem
  bgnd : t.bgnd = s.bgnd
  reg : ∀ off, 0x100 ≤ off → off < 4096 → t.reg (qPage .bgnd q 0) off = s.reg (qPage .bgnd q 0) off
  failed : ∀ p, s.failedTriad q p = true → t.failedTriad q p = true

theorem Keeping.refl (q : Nat) (s : State) : Keeping q s s := ⟨rfl, rfl, fun _ _ _ => rfl, fun _ h => h⟩

theorem Keeping.trans (h : Keeping q s t) (g : Keeping q t u) : Keeping q s u :=
  ⟨g.mem.trans h.mem, g.bgnd.trans h.bgnd, fun off hlo hhi => (g.reg off hlo hhi).trans (h.reg off hlo hhi),
    fun p hp => g.failed p (h.failed p hp)⟩

theorem failedTriad_of_reg {p : Nat} (h : t.reg (qPage .tslot q 0) Reg.TSLOT_FAILED_MAP = s.reg (qPage .tslot q 0) Reg.TSLOT_FAILED_MAP) :
    t.failedTriad q p = s.failedTriad q p := by
  rw [State.failedTriad, State.failedTriad, bit_eq_getLsbD, bit_eq_getLsbD, h]

theorem keeping_raise (s : State) (p : Page) (bit : Nat) (hq : q < 4) (hp : p.slot < 4096) : Keeping q s (s.raise p bit) where
  mem := raise_mem ..
  bgnd := raise_bgnd ..
  reg _ hlo hhi := reg_raise_quarter s p bit hp hq (by decide) hlo hhi
  failed _ h := by rwa [failedTriad_of_reg (reg_raise_quarter s p bit hp hq (by decide) (by decide) (by decide))]

theorem keeping_raiseIf (s : State) (c : Bool) (p : Page) (bit : Nat) (hq : q < 4) (hp : p.slot < 4096) :
    Keeping q s (s.raiseIf c p bit) := by
  unfold State.raiseIf
  split
  · exact keeping_raise s p bit hq hp
  · exact .refl q s

/-- A journalled change of the slot map is in its register and in the page's number of the entry. -/
theorem reg_journalled_other {o : Origin} {p p' : Page} {off off' : Nat} {v : Word} (h : p'.reg off' ≠ p.reg off)
    (hseq : p'.reg off' ≠ p.reg Reg.HDR_JRNL_SEQ) : (s.journalled o p off v).reg p' off' = s.reg p' off' :=
  (reg_journalAdd_other (s.setReg p off v) (s.entry o p off 0 (s.reg p off) v) p' off' hseq).trans
    (reg_setReg_other s p p' off off' v h)

theorem reg_journalled_same {o : Origin} {p : Page} {off : Nat} {v : Word} (hseq : off ≠ Reg.HDR_JRNL_SEQ) :
    (s.journalled o p off v).reg p off = v :=
  (reg_journalAdd_other (s.setReg p off v) (s.entry o p off 0 (s.reg p off) v) p off (page_reg_ne_of_off hseq)).trans
    (reg_setReg_same s p off v)

theorem bgnd_slot_lt (q : Nat) : (qPage .bgnd q 0).slot < 4096 := (by decide : PageKind.bgnd.slotBase + 0 < 4096)
theorem tslot_slot_lt (q : Nat) : (qPage .tslot q 0).slot < 4096 := (by decide : PageKind.tslot.slotBase + 0 < 4096)

theorem bgnd_reg_ne_tslot (q : Nat) {off off' : Nat} (h : off < 4096) (h' : off' < 4096) :
    (qPage .bgnd q 0).reg off ≠ (qPage .tslot q 0).reg off' :=
  page_reg_ne_of_page (bgnd_slot_lt q) (tslot_slot_lt q) h h'
    (fun he => (by decide : ¬ PageKind.bgnd.slotBase + 0 = PageKind.tslot.slotBase + 0) (congrArg Page.slot he))

theorem keeping_journalled {o : Origin} {off : Nat} {v : Word} (hoff : off < 4096)
    (hfailed : ∀ p, s.failedTriad q p = true → (s.journalled o (qPage .tslot q 0) off v).failedTriad q p = true) :
    Keeping q s (s.journalled o (qPage .tslot q 0) off v) where
  mem := by unfold State.journalled; rw [journalAdd_fields]; simp
  bgnd := by unfold State.journalled; rw [journalAdd_fields]; simp
  reg _ _ hhi := reg_journalled_other (bgnd_reg_ne_tslot q hhi hoff) (bgnd_reg_ne_tslot q hhi (by decide))
  failed := hfailed

theorem keeping_darnNext (s : State) {n : Nat} (p : Nat) (hn : n < 30) : Keeping q s (s.darnNext q n p) := by
  have hmap : Reg.TSLOT_FAILED_MAP ≠ Reg.TSLOT_SLOTn + 4 * n := by unfold Reg.TSLOT_FAILED_MAP Reg.TSLOT_SLOTn; omega
  refine keeping_journalled (by unfold Reg.TSLOT_SLOTn; omega) (fun j hj => ?_)
  rwa [failedTriad_of_reg (reg_journalled_other (page_reg_ne_of_off hmap) (page_reg_ne_of_off (by decide)))]

theorem keeping_foldl {α : Type} {f : State → α → State} {l : List α} (h : ∀ t, ∀ x ∈ l, Keeping q t (f t x)) (s : State) :
    Keeping q s (l.foldl f s) :=
  List.foldlRecOn (motive := Keeping q s) l f (.refl q s) (fun t ht x hx => ht.trans (h t x hx))

theorem keeping_prepareMap (s : State) : Keeping q s (s.prepareMap q) := by
  refine keeping_foldl (fun t n hn => ?_) s
  split
  · split
    · exact .refl q t
    · exact keeping_darnNext t _ (List.mem_range.1 hn)
  · exact .refl q t

/-- A fold that picks elements of its list answers one of them. -/
theorem mem_of_foldl_pick {α : Type} {f : Option α → α → Option α} {l : List α} (hf : ∀ b x, f b x = some x ∨ f b x = b) {x : α}
    (h : l.foldl f none = some x) : x ∈ l := by
  refine List.foldlRecOn (motive := fun b => ∀ x, b = some x → x ∈ l) l f (by simp) (fun b hb y hy x hx => ?_) x h
  obtain hsome | hsame := hf b y
  · rw [hsome] at hx
    exact Option.some.inj hx ▸ hy
  · exact hb x (hsame ▸ hx)

theorem keeping_autoMove (s : State) (hq : q < 4) : Keeping q s (s.autoMove q) := by
  unfold State.autoMove
  dsimp only
  split
  · exact .refl q s
  · split
    · next n p hn hp =>
      have hmem := mem_of_foldl_pick (fun b x => by
        cases b with
        | none => exact .inl rfl
        | some k => dsimp only; split <;> simp) hn
      exact (keeping_darnNext s p (List.mem_range.1 (List.mem_filter.1 hmem).1)).trans (keeping_raise _ _ _ hq (bgnd_slot_lt q))
    · exact .refl q s

/-- A triad that darn marks is failed, and those that were failed stay so (R43, R396). -/
theorem failedTriad_journalled_map (s : State) {p : Nat} (hp : p < 32) (j : Nat) :
    (s.journalled (.cp q 3) (qPage .tslot q 0) Reg.TSLOT_FAILED_MAP
      (BitVec.ofNat 32 (putBits (s.num (qPage .tslot q 0) Reg.TSLOT_FAILED_MAP) p 1 1))).failedTriad q j =
      if j = p then true else s.failedTriad q j := by
  have hlt := putBits_lt _ p 1 1 (num_lt s (qPage .tslot q 0) Reg.TSLOT_FAILED_MAP) (by omega)
  unfold State.failedTriad State.bit
  rw [State.num, reg_journalled_same (by decide), BitVec.toNat_ofNat, Nat.mod_eq_of_lt hlt, bitAt_putBits]
  by_cases h : j = p
  · subst h
    simp [bitAt]
  · rw [if_neg (by omega), if_neg h]

theorem keeping_markFailed (s : State) (hq : q < 4) {p : Nat} (hp : p < 32) :
    Keeping q s (s.markFailed q p) ∧ (s.markFailed q p).failedTriad q p = true := by
  unfold State.markFailed
  split
  · next h => exact ⟨.refl q s, h⟩
  · dsimp only
    have hmap := failedTriad_journalled_map (q := q) s hp
    have hjournal : Keeping q s (s.journalled (.cp q 3) (qPage .tslot q 0) Reg.TSLOT_FAILED_MAP
        (BitVec.ofNat 32 (putBits (s.num (qPage .tslot q 0) Reg.TSLOT_FAILED_MAP) p 1 1))) :=
      keeping_journalled (by decide) (fun j hj => by rw [hmap, hj, ite_self])
    have hrest (c : Bool) (t : State) : Keeping q t ((t.raiseIf c (qPage .tslot q 0) 2).prepareMap q) :=
      (keeping_raiseIf t c _ _ hq (tslot_slot_lt q)).trans (keeping_prepareMap _)
    exact ⟨hjournal.trans (hrest _ _), (hrest _ _).failed p (by rw [hmap, if_pos rfl])⟩

/-! ### A second's losses (R396) -/

/-- From `s` to `t`, darn notes limits passed under keys in `K`, and keeps all else of `Keeping`, the losses included. -/
structure Noting (q : Nat) (K : Nat → Prop) (s t : State) : Prop where
  mem : t.mem = s.mem
  aging : t.bgnd.aging = s.bgnd.aging
  passed : ∀ k ∈ t.bgnd.passed, k ∈ s.bgnd.passed ∨ K k
  reg : ∀ off, 0x100 ≤ off → off < 4096 → t.reg (qPage .bgnd q 0) off = s.reg (qPage .bgnd q 0) off
  failed : ∀ p, s.failedTriad q p = true → t.failedTriad q p = true

section Noting
variable {K : Nat → Prop}

theorem Keeping.noting (h : Keeping q s t) : Noting q K s t :=
  ⟨h.mem, by rw [h.bgnd], fun k hk => .inl (by rwa [← h.bgnd]), h.reg, h.failed⟩

theorem Noting.trans (h : Noting q K s t) (g : Noting q K t u) : Noting q K s u :=
  ⟨g.mem.trans h.mem, g.aging.trans h.aging, fun k hk => (g.passed k hk).elim (h.passed k) .inr,
    fun off hlo hhi => (g.reg off hlo hhi).trans (h.reg off hlo hhi), fun p hp => g.failed p (h.failed p hp)⟩

theorem noting_passLimit (s : State) {k : Nat} (c : Bool) (hk : K k) : Noting q K s (s.passLimit k c).1 := by
  unfold State.passLimit
  split
  · refine ⟨rfl, rfl, fun j hj => ?_, fun _ _ _ => rfl, fun _ h => h⟩
    exact (List.mem_append.1 hj).imp id (fun h => by rwa [List.mem_singleton.1 h])
  · exact (Keeping.refl q s).noting

end Noting

theorem passLimit_snd (s : State) (k : Nat) (c : Bool) : (s.passLimit k c).2 = (c && !s.bgnd.passed.contains k) := by
  unfold State.passLimit
  split
  · next h => exact h.symm
  · next h => exact (Bool.eq_false_iff.2 h).symm

/-- What darn notes of the loss of one triad. -/
def noteLoss (q : Nat) (s : State) (e : Nat × Nat) : State :=
  let b := qPage .bgnd q 0
  let k := 2 * (32 * q + e.2)
  let w := s.passLimit k (decide (s.num b Reg.BGND_AGE_WARN < e.1))
  let f := (w.1.raiseIf w.2 b 2).passLimit (k + 1) (decide (s.num b Reg.BGND_AGE_FAIL < e.1))
  if f.2 then (f.1.markFailed q e.2).raise b 3 else f.1

/-- The keys of a triad's two limits. -/
def limitKeys (q p k : Nat) : Prop := k = 2 * (32 * q + p) ∨ k = 2 * (32 * q + p) + 1

/-- The state in which a loss is compared with AGE_FAIL. -/
def warned (q : Nat) (s : State) (e : Nat × Nat) : State :=
  let w := s.passLimit (2 * (32 * q + e.2)) (decide (s.num (qPage .bgnd q 0) Reg.BGND_AGE_WARN < e.1))
  w.1.raiseIf w.2 (qPage .bgnd q 0) 2

theorem noting_warned (s : State) (e : Nat × Nat) (hq : q < 4) :
    Noting q (fun k => k = 2 * (32 * q + e.2)) s (warned q s e) :=
  (noting_passLimit (K := fun k => k = 2 * (32 * q + e.2)) s _ rfl).trans (keeping_raiseIf _ _ _ _ hq (bgnd_slot_lt q)).noting

theorem Noting.mono {K K' : Nat → Prop} (h : Noting q K s t) (hK : ∀ k, K k → K' k) : Noting q K' s t :=
  ⟨h.mem, h.aging, fun k hk => (h.passed k hk).imp id (hK k), h.reg, h.failed⟩

/-- The loss of a triad is noted under the triad's keys; one that passes AGE_FAIL for the first time fails the triad. -/
theorem noteLoss_spec (s : State) {e : Nat × Nat} (hq : q < 4) (he : e.2 < 32) :
    Noting q (limitKeys q e.2) s (noteLoss q s e) ∧
      (s.num (qPage .bgnd q 0) Reg.BGND_AGE_FAIL < e.1 → 2 * (32 * q + e.2) + 1 ∉ s.bgnd.passed →
        (noteLoss q s e).failedTriad q e.2 = true) := by
  have hwarned := noting_warned s e hq
  have hlimit : Noting q (limitKeys q e.2) s
      ((warned q s e).passLimit (2 * (32 * q + e.2) + 1) (decide (s.num (qPage .bgnd q 0) Reg.BGND_AGE_FAIL < e.1))).1 :=
    (hwarned.mono fun k => .inl).trans (noting_passLimit _ _ (.inr rfl))
  have hstep : noteLoss q s e =
      let f := (warned q s e).passLimit (2 * (32 * q + e.2) + 1) (decide (s.num (qPage .bgnd q 0) Reg.BGND_AGE_FAIL < e.1))
      if f.2 then (f.1.markFailed q e.2).raise (qPage .bgnd q 0) 3 else f.1 := rfl
  rw [hstep]
  dsimp only
  split
  · obtain ⟨hmark, hfailed⟩ := keeping_markFailed
      ((warned q s e).passLimit (2 * (32 * q + e.2) + 1) (decide (s.num (qPage .bgnd q 0) Reg.BGND_AGE_FAIL < e.1))).1 hq he
    have hraise := fun t => keeping_raise t (qPage .bgnd q 0) 3 hq (bgnd_slot_lt q)
    exact ⟨hlimit.trans (hmark.trans (hraise _)).noting, fun _ _ => (hraise _).failed _ hfailed⟩
  · next hpass =>
    refine ⟨hlimit, fun hlt hnew => absurd ?_ hpass⟩
    have hfirst : 2 * (32 * q + e.2) + 1 ∉ (warned q s e).bgnd.passed :=
      fun h => (hwarned.passed _ h).elim hnew (fun h => by omega)
    simp [passLimit_snd, hlt, hfirst]

theorem noting_foldl_noteLoss {l : List (Nat × Nat)} (hq : q < 4) (hl : ∀ e ∈ l, e.2 < 32) (s : State) :
    Noting q (fun _ => True) s (l.foldl (noteLoss q) s) :=
  List.foldlRecOn (motive := Noting q (fun _ => True) s) l (noteLoss q) (Keeping.refl q s).noting
    (fun t ht e he => ht.trans ((noteLoss_spec t hq (hl e he)).1.mono (fun _ _ => trivial)))

/-- Of a second's losses, each that passes AGE_FAIL for the first time fails its triad. -/
theorem failedTriad_foldl_noteLoss {l : List Nat} {i k₀ v : Nat} (hq : q < 4) (hlen : k₀ + l.length ≤ 32) (hv : l[i]? = some v) (s : State)
    (hlt : s.num (qPage .bgnd q 0) Reg.BGND_AGE_FAIL < v) (hnew : 2 * (32 * q + (k₀ + i)) + 1 ∉ s.bgnd.passed) :
    ((l.zipIdx k₀).foldl (noteLoss q) s).failedTriad q (k₀ + i) = true := by
  induction l generalizing i k₀ s with
  | nil => simp at hv
  | cons y l ih =>
    rw [List.length_cons] at hlen
    obtain ⟨hnoting, hfails⟩ := noteLoss_spec (e := (y, k₀)) s hq (show k₀ < 32 by omega)
    rw [List.zipIdx_cons, List.foldl_cons]
    cases i with
    | zero =>
      obtain rfl : y = v := by simpa using hv
      refine (noting_foldl_noteLoss hq (fun e he => ?_) _).failed _ (hfails hlt hnew)
      have := List.snd_lt_of_mem_zipIdx he
      omega
    | succ i =>
      have hreg := hnoting.reg Reg.BGND_AGE_FAIL (by decide) (by decide)
      rw [show k₀ + (i + 1) = k₀ + 1 + i by omega] at hnew ⊢
      refine ih (by omega) (by simpa using hv) _ (by rwa [State.num, hreg]) (fun h => ?_)
      obtain h | h | h := hnoting.passed _ h
      · exact hnew h
      · dsimp only at h; omega
      · dsimp only at h; omega

/-! ### A second of darn (R395 to R398) -/

/-- What a second's losses leave, where they are kept (R396). -/
def lossesKept (q : Nat) (losses : List Nat) (s : State) : State :=
  let l := (losses.take 32).zipIdx
  let s : State := { s with bgnd := { s.bgnd with
    aging := l.foldl (fun m (e : Nat × Nat) => mapSet (fun _ => 0) m (32 * q + e.2) e.1) s.bgnd.aging } }
  l.foldl (noteLoss q) (s.logAging q)

theorem logAging_fields (s : State) (q : Nat) : ∃ days log, s.logAging q = { s with bgnd := { s.bgnd with
    ageDays := days, ageLog := log } } := by
  unfold State.logAging
  dsimp only
  split <;> exact ⟨_, _, rfl⟩

theorem lt_of_mem_take_zipIdx {l : List Nat} {e : Nat × Nat} (h : e ∈ (l.take 32).zipIdx) : e.2 < 32 := by
  have := List.snd_lt_of_mem_zipIdx h
  rw [List.length_take] at this
  omega

theorem getElem?_take_of_some {α : Type} {l : List α} {i n : Nat} {v : α} (hi : i < n) (h : l[i]? = some v) : (l.take n)[i]? = some v := by
  rw [List.getElem?_take_of_lt hi, h]

/-- Losses that are kept can be read back, and one that passes AGE_FAIL for the first time has failed its triad. -/
theorem lossesKept_spec (losses : List Nat) (s : State) (hq : q < 4) :
    (lossesKept q losses s).mem = s.mem ∧
      (∀ off, 0x100 ≤ off → off < 4096 → (lossesKept q losses s).reg (qPage .bgnd q 0) off = s.reg (qPage .bgnd q 0) off) ∧
      ∀ i v, i < 32 → losses[i]? = some v → (lossesKept q losses s).loss q i = v ∧
        (s.num (qPage .bgnd q 0) Reg.BGND_AGE_FAIL < v → 2 * (32 * q + i) + 1 ∉ s.bgnd.passed →
          (lossesKept q losses s).failedTriad q i = true) := by
  unfold lossesKept
  dsimp only
  obtain ⟨days, log, hlog⟩ := logAging_fields ({ s with bgnd := { s.bgnd with
    aging := (losses.take 32).zipIdx.foldl (fun m (e : Nat × Nat) => mapSet (fun _ => 0) m (32 * q + e.2) e.1) s.bgnd.aging } }) q
  rw [hlog]
  have hnoting := fun t => noting_foldl_noteLoss hq (fun e => lt_of_mem_take_zipIdx (l := losses)) t
  refine ⟨(hnoting _).mem, (hnoting _).reg, fun i v hi hv => ?_⟩
  have hv := getElem?_take_of_some hi hv
  constructor
  · rw [State.loss, (hnoting _).aging]
    simpa using mapGet_foldl_mapSet (fun _ => 0) (32 * q) (k₀ := 0) hv s.bgnd.aging
  · intro hlt hnew
    have hfails := fun t => failedTriad_foldl_noteLoss (k₀ := 0) hq (by simp) hv t
    simp only [Nat.zero_add] at hfails
    exact hfails _ hlt hnew

/-- The flash figures of Q0 (R398). -/
def flashPublished (s : State) (life spare erases : Nat) : State :=
  let b := qPage .bgnd 0 0
  let worn := decide (life < 200) && (decide (200 ≤ s.num b Reg.BGND_FLASH_LIFE % 1024) || !s.bit (mPage .fault) Reg.FAULT_ADVISE 2)
  let s := (s.setNum b Reg.BGND_FLASH_LIFE (min life 1023 + 65536 * min spare 2047)).setNum b Reg.BGND_FLASH_ERASES erases
  if worn then (s.raise b 5).setBit (mPage .fault) Reg.FAULT_ADVISE 2 true else s

theorem reg_setNum_other (s : State) (p p' : Page) (off off' v : Nat) (h : p'.reg off' ≠ p.reg off) :
    (s.setNum p off v).reg p' off' = s.reg p' off' := reg_setReg_other s p p' off off' _ h

/-- What the flash figures leave: all of Q0's pages but the two registers. -/
theorem reg_flashPublished (s : State) (life spare erases : Nat) {k : PageKind} {off : Nat} (hslot : k.slotBase + 0 < 4096)
    (hlo : 0x100 ≤ off) (hhi : off < 4096) :
    (flashPublished s life spare erases).reg (qPage k 0 0) off =
      ((s.setNum (qPage .bgnd 0 0) Reg.BGND_FLASH_LIFE (min life 1023 + 65536 * min spare 2047)).setNum (qPage .bgnd 0 0)
        Reg.BGND_FLASH_ERASES erases).reg (qPage k 0 0) off := by
  unfold flashPublished
  dsimp only
  split
  · unfold State.setBit State.setField
    rw [reg_setNum_other _ _ _ _ _ _ (page_reg_ne_of_page hslot (mPage_slot_lt _) hhi (by decide)
        (fun h => (by decide : ¬ 0 = 4) (congrArg Page.win h))),
      reg_raise_quarter _ _ _ (bgnd_slot_lt 0) (by decide) hslot hlo hhi]
  · rfl

theorem flashPublished_spec (s : State) (life spare erases : Nat) :
    let u := flashPublished s life spare erases
    u.mem = s.mem ∧ u.bgnd = s.bgnd ∧ u.num (qPage .bgnd 0 0) Reg.BGND_DARN_CPU = s.num (qPage .bgnd 0 0) Reg.BGND_DARN_CPU ∧
      u.num (qPage .bgnd 0 0) Reg.BGND_FLASH_LIFE = min life 1023 + 65536 * min spare 2047 ∧
      ∀ p, u.failedTriad 0 p = s.failedTriad 0 p := by
  intro u
  have hreg {k : PageKind} {off : Nat} (hslot : k.slotBase + 0 < 4096) (hlo : 0x100 ≤ off) (hhi : off < 4096) :
    u.reg (qPage k 0 0) off = _ := reg_flashPublished s life spare erases hslot hlo hhi
  refine ⟨?_, ?_, ?_, ?_, fun p => failedTriad_of_reg ?_⟩
  · simp only [u, flashPublished, apply_ite State.mem, setBit_mem, raise_mem, setNum_mem, ite_self]
  · simp only [u, flashPublished, apply_ite State.bgnd, setBit_bgnd, raise_bgnd, setNum_bgnd, ite_self]
  · rw [State.num, hreg (by decide) (by decide) (by decide), reg_setNum_other _ _ _ _ _ _ (page_reg_ne_of_off (by decide)),
      reg_setNum_other _ _ _ _ _ _ (page_reg_ne_of_off (by decide)), State.num]
  · rw [State.num, hreg (by decide) (by decide) (by decide), reg_setNum_other _ _ _ _ _ _ (page_reg_ne_of_off (by decide)),
      ← State.num, num_setNum]
    omega
  · rw [hreg (by decide) (by decide) (by decide), reg_setNum_other _ _ _ _ _ _ (bgnd_reg_ne_tslot 0 (by decide) (by decide)).symm,
      reg_setNum_other _ _ _ _ _ _ (bgnd_reg_ne_tslot 0 (by decide) (by decide)).symm]

/-- A second of darn: its CCLK is counted, the losses are kept where the control is set, and the slot map follows. -/
def darned (q : Nat) (losses : List Nat) (cpu : Nat) (a : State) : State :=
  let s := a.addSat (qPage .bgnd q 0) Reg.BGND_DARN_CPU cpu
  let s := if !s.bit (qPage .bgnd q 0) Reg.BGND_DARN_CTL 1 then s else lossesKept q losses s
  (s.prepareMap q).autoMove q

theorem exec_darnAging {t cpu life spare erases : Nat} {losses : List Nat} (hq : q < 4) :
    exec (.darnAging t q losses cpu life spare erases) s = .next (if q ≠ 0 then darned q losses cpu (s.advance t)
      else flashPublished (darned q losses cpu (s.advance t)) life spare erases) := by
  show execDarnAging t q losses cpu life spare erases s = _
  unfold execDarnAging
  dsimp only
  rw [if_neg (by omega)]
  split
  · rfl
  · next h =>
    obtain rfl : q = 0 := not_not.1 h
    rfl

theorem darned_spec (losses : List Nat) (cpu : Nat) (a : State) (hq : q < 4) :
    let u := darned q losses cpu a
    let b := qPage .bgnd q 0
    u.mem = a.mem ∧ u.num b Reg.BGND_DARN_CPU = min 0xFFFFFFFF (a.num b Reg.BGND_DARN_CPU + cpu) ∧
      (a.bit b Reg.BGND_DARN_CTL 1 = true → ∀ i v, i < 32 → losses[i]? = some v → u.loss q i = v ∧
        (a.num b Reg.BGND_AGE_FAIL < v → 2 * (32 * q + i) + 1 ∉ a.bgnd.passed → u.failedTriad q i = true)) ∧
      (a.bit b Reg.BGND_DARN_CTL 1 = false → u.bgnd = a.bgnd) := by
  intro u b
  have hother {off : Nat} (h : off ≠ Reg.BGND_DARN_CPU) : (a.addSat b Reg.BGND_DARN_CPU cpu).reg b off = a.reg b off :=
    congrArg Prod.fst (seen_addSat_other a cpu (page_reg_ne_of_off h))
  have hcpu := num_addSat a b Reg.BGND_DARN_CPU cpu
  have hctl : (a.addSat b Reg.BGND_DARN_CPU cpu).bit b Reg.BGND_DARN_CTL 1 = a.bit b Reg.BGND_DARN_CTL 1 := by
    rw [bit_eq_getLsbD, bit_eq_getLsbD, hother (by decide)]
  have hmap := fun t => (keeping_prepareMap (q := q) t).trans (keeping_autoMove (t.prepareMap q) hq)
  have hu : u = ((if !a.bit b Reg.BGND_DARN_CTL 1 then a.addSat b Reg.BGND_DARN_CPU cpu
      else lossesKept q losses (a.addSat b Reg.BGND_DARN_CPU cpu)).prepareMap q).autoMove q := by
    rw [← hctl]
    rfl
  cases hbit : a.bit b Reg.BGND_DARN_CTL 1 with
  | false =>
    rw [hbit, Bool.not_false, if_pos rfl] at hu
    have hkeep := hmap (a.addSat b Reg.BGND_DARN_CPU cpu)
    rw [← hu] at hkeep
    refine ⟨by rw [hkeep.mem, addSat_mem], ?_, by simp, fun _ => by rw [hkeep.bgnd, addSat_bgnd]⟩
    rw [State.num, hkeep.reg _ (by decide) (by decide), ← hcpu, State.num]
  | true =>
    rw [hbit, Bool.not_true, if_neg (by decide)] at hu
    have hkeep := hmap (lossesKept q losses (a.addSat b Reg.BGND_DARN_CPU cpu))
    rw [← hu] at hkeep
    obtain ⟨hmem, hreg, hkept⟩ := lossesKept_spec losses (a.addSat b Reg.BGND_DARN_CPU cpu) hq
    refine ⟨by rw [hkeep.mem, hmem, addSat_mem], ?_, fun _ i v hi hv => ?_, by simp⟩
    · rw [State.num, hkeep.reg _ (by decide) (by decide), hreg _ (by decide) (by decide), ← hcpu, State.num]
    · obtain ⟨hloss, hfails⟩ := hkept i v hi hv
      refine ⟨by rw [State.loss, hkeep.bgnd, ← State.loss, hloss], fun hlt hnew => hkeep.failed _ (hfails ?_ ?_)⟩
      · rwa [State.num, hother (by decide)]
      · rwa [addSat_bgnd]

end Darn

/-! ## Press (R391 to R394) -/

section Press
variable {q t : Nat} {s : State}

/-- The margins of a quarter's lanes are noted. -/
def marginsNoted (a : State) (q : Nat) (margins : List Nat) (low : Bool) : State :=
  ({ a with bgnd := { a.bgnd with
    margins := (margins.take 26).zipIdx.foldl (fun m e => mapSet (fun _ => 0) m (32 * q + e.2) e.1) a.bgnd.margins } } : State).raiseIf
      low (qPage .bgnd q 0) 1

theorem exec_pressLinkMonitor {margins : List Nat} (hq : q < 4)
    (hon : (s.advance t).bit (qPage .bgnd q 0) Reg.BGND_PRESS_CTL 1 = true) :
    ∃ low, exec (.pressLinkMonitor t q margins) s = .next (marginsNoted (s.advance t) q margins low) := by
  have hexec : exec (.pressLinkMonitor t q margins) s = execPressLinkMonitor t q margins s := rfl
  unfold execPressLinkMonitor at hexec
  exact ⟨_, hexec.trans (if_neg (by simp [hon, hq]))⟩

theorem marginsNoted_spec (a : State) (margins : List Nat) (low : Bool) :
    let u := marginsNoted a q margins low
    (∀ i m, i < 26 → margins[i]? = some m → mapGet (fun _ => 0) u.bgnd.margins (32 * q + i) = m) ∧
      (∀ k, k / 32 ≠ q → mapGet (fun _ => 0) u.bgnd.margins k = mapGet (fun _ => 0) a.bgnd.margins k) ∧ u.mem = a.mem := by
  dsimp only
  refine ⟨fun i m hi hm => ?_, fun k hk => ?_, by rw [marginsNoted, raiseIf_mem]⟩
  · rw [marginsNoted, raiseIf_bgnd]
    simpa using mapGet_foldl_mapSet (fun _ => 0) (32 * q) (k₀ := 0) (getElem?_take_of_some hi hm) a.bgnd.margins
  · rw [marginsNoted, raiseIf_bgnd]
    refine mapGet_foldl_mapSet_other _ _ (fun i hi => ?_) _
    rw [List.length_take] at hi
    omega

/-- Is a sensor's reading more than 4 °C from a reference diode (R393)? -/
def farFrom (v r : Int) : Bool := decide (64 < v - r ∨ 64 < r - v)

/-- The sensors of a quarter that differ from both reference diodes. -/
def badSensors (a : State) (q : Nat) (raw : List Int) (ref1 ref2 : Int) : List Nat :=
  let off (i : Nat) : Int := mapGet (fun _ => 0) a.bgnd.offsets (64 * q + i)
  ((raw.take 64).zipIdx.filter (fun e => farFrom (e.1 + off e.2) ref1 && farFrom (e.1 + off e.2) ref2)).map (fun e => 64 * q + e.2)

theorem mem_badSensors {a : State} {raw : List Int} {ref1 ref2 : Int} {k : Nat} : k ∈ badSensors a q raw ref1 ref2 ↔
    ∃ i v, i < 64 ∧ k = 64 * q + i ∧ raw[i]? = some v ∧
      farFrom (v + mapGet (fun _ => 0) a.bgnd.offsets k) ref1 = true ∧ farFrom (v + mapGet (fun _ => 0) a.bgnd.offsets k) ref2 = true := by
  simp only [badSensors, List.mem_map, List.mem_filter, Bool.and_eq_true, Prod.exists, List.mem_zipIdx_iff_getElem?]
  constructor
  · rintro ⟨v, i, ⟨hv, hfar⟩, rfl⟩
    have hi : i < 64 := by
      have := (List.getElem?_eq_some_iff.1 hv).1
      rw [List.length_take] at this
      omega
    exact ⟨i, v, hi, rfl, by rwa [List.getElem?_take_of_lt hi] at hv, hfar⟩
  · rintro ⟨i, v, hi, rfl, hv, hfar⟩
    exact ⟨v, i, ⟨getElem?_take_of_some hi hv, hfar⟩, rfl⟩

/-- The excluded sensors after a comparison: those that were, and the new ones. -/
def sensorsOut (a : State) (q : Nat) (raw : List Int) (ref1 ref2 : Int) : List Nat :=
  a.bgnd.excluded ++ (badSensors a q raw ref1 ref2).filter (fun k => !a.bgnd.excluded.contains k)

theorem mem_sensorsOut {a : State} {raw : List Int} {ref1 ref2 : Int} {k : Nat} :
    k ∈ sensorsOut a q raw ref1 ref2 ↔ k ∈ a.bgnd.excluded ∨ k ∈ badSensors a q raw ref1 ref2 := by
  simp only [sensorsOut, List.mem_append, List.mem_filter, Bool.not_eq_true', List.contains_eq_mem, decide_eq_false_iff_not]
  tauto

/-- The excluded sensors are noted and counted. -/
def sensorsNoted (a : State) (q : Nat) (offsets : List (Nat × Int)) (out : List Nat) (new : Bool) : State :=
  (({ a with bgnd := { a.bgnd with offsets := offsets, excluded := out } } : State).setNum (qPage .tally q 0) Reg.TALLY_SENSORS_OUT
    (out.filter (fun k => k / 64 == q)).length).raiseIf new (qPage .tally q 0) 0

theorem sensorsNoted_spec (a : State) (offsets : List (Nat × Int)) (out : List Nat) (new : Bool) (hq : q < 4) :
    let u := sensorsNoted a q offsets out new
    u.bgnd.excluded = out ∧ u.num (qPage .tally q 0) Reg.TALLY_SENSORS_OUT = (out.filter (fun k => k / 64 == q)).length % 2 ^ 32 ∧
      u.mem = a.mem := by
  intro u
  refine ⟨?_, ?_, ?_⟩
  · simp only [u, sensorsNoted, raiseIf_bgnd, setNum_bgnd]
  · have hreg : u.reg (qPage .tally q 0) Reg.TALLY_SENSORS_OUT = _ :=
      reg_raiseIf_quarter _ _ _ _ (by decide : PageKind.tally.slotBase + 0 < 4096) hq (by decide) (by decide) (by decide)
    rw [State.num, hreg, ← State.num, num_setNum]
  · simp only [u, sensorsNoted, raiseIf_mem, setNum_mem]

theorem exec_pressThermal {raw : List Int} {ref1 ref2 : Int} (hq : q < 4)
    (hon : (s.advance t).bit (qPage .bgnd q 0) Reg.BGND_PRESS_CTL 2 = true) :
    ∃ offsets new, exec (.pressThermal t q raw ref1 ref2) s =
      .next (sensorsNoted (s.advance t) q offsets (sensorsOut (s.advance t) q raw ref1 ref2) new) := by
  have hexec : exec (.pressThermal t q raw ref1 ref2) s = execPressThermal t q raw ref1 ref2 s := rfl
  unfold execPressThermal at hexec
  exact ⟨_, _, hexec.trans (if_neg (by simp [hon, hq]))⟩

/-! ### Calibration records (R394) -/

/-- A stack without a record. -/
def noCal : CalRec := { temp := 0, valid := false, at_ := 0 }

/-- The record of a stack at a junction temperature. -/
def calOf (a : State) (q slot : Nat) (temp : Int) : CalRec :=
  { temp := temp, valid := true, at_ := a.podCount, pins := (a.stack q slot).pins }

/-- The records after a list of temperatures, of the trained stacks alone. -/
def calsAfter (a : State) (q : Nat) (cal : List (Nat × CalRec)) (l : List (Int × Nat)) : List (Nat × CalRec) :=
  l.foldl (fun m e => if (a.stack q e.2).trained then mapSet (fun _ => noCal) m (8 * q + e.2) (calOf a q e.2 e.1) else m) cal

theorem foldl_recordCal (a : State) (q : Nat) (l : List (Int × Nat)) (cal : List (Nat × CalRec)) :
    l.foldl (fun s e => if (s.stack q e.2).trained then s.recordCal q e.2 e.1 else s) { a with boot := { a.boot with cal := cal } } =
      { a with boot := { a.boot with cal := calsAfter a q cal l } } := by
  induction l generalizing cal with
  | nil => rfl
  | cons e l ih =>
    rw [List.foldl_cons, calsAfter, List.foldl_cons, ← calsAfter]
    have hstack : ({ a with boot := { a.boot with cal := cal } } : State).stack q e.2 = a.stack q e.2 := rfl
    rw [hstack]
    split
    · exact ih _
    · exact ih _

theorem mapGet_calsAfter (a : State) (q : Nat) {temps : List Int} {i : Nat} {v : Int} (cal : List (Nat × CalRec))
    (hv : temps[i]? = some v) : mapGet (fun _ => noCal) (calsAfter a q cal temps.zipIdx) (8 * q + i) =
      if (a.stack q i).trained then calOf a q i v else mapGet (fun _ => noCal) cal (8 * q + i) := by
  have hkeep (m : List (Nat × CalRec)) (e : Int × Nat) (he : e.2 ≠ i) : mapGet (fun _ => noCal)
      (if (a.stack q e.2).trained then mapSet (fun _ => noCal) m (8 * q + e.2) (calOf a q e.2 e.1) else m) (8 * q + i) =
        mapGet (fun _ => noCal) m (8 * q + i) := by
    split
    · exact mapGet_set_other _ _ _ _ _ (by omega)
    · rfl
  split
  · next htrained =>
    refine foldl_zipIdx_holds (k₀ := 0) (P := fun m => mapGet (fun _ => noCal) m (8 * q + i) = calOf a q i v) hv (fun m => ?_)
      (fun m e _ hne hm => (hkeep m e (by omega)).trans hm) cal
    simp [htrained]
  · next htrained =>
    refine foldl_same (fun m => mapGet (fun _ => noCal) m (8 * q + i)) (fun m e _ => ?_) cal
    by_cases he : e.2 = i
    · rw [he, if_neg htrained]
    · exact hkeep m e he

theorem mapGet_calsAfter_other (a : State) (q : Nat) {temps : List Int} {k : Nat} (cal : List (Nat × CalRec)) (hlen : temps.length ≤ 8)
    (hk : k / 8 ≠ q) : mapGet (fun _ => noCal) (calsAfter a q cal temps.zipIdx) k = mapGet (fun _ => noCal) cal k := by
  refine foldl_same (fun m => mapGet (fun _ => noCal) m k) (fun m e he => ?_) cal
  have := List.snd_lt_of_mem_zipIdx he
  split
  · exact mapGet_set_other _ _ _ _ _ (by omega)
  · rfl

/-- The records of a quarter's trained stacks are written. -/
def calsNoted (a : State) (q : Nat) (l : List (Int × Nat)) : State :=
  { a with boot := { a.boot with cal := calsAfter a q a.boot.cal l } }

theorem foldl_recordCal_self (a : State) (q : Nat) (l : List (Int × Nat)) :
    l.foldl (fun s e => if (s.stack q e.2).trained then s.recordCal q e.2 e.1 else s) a = calsNoted a q l :=
  foldl_recordCal a q l a.boot.cal

theorem exec_pressCalRecord {temps : List Int} (hq : q < 4) :
    exec (.pressCalRecord t q temps) s = .next (calsNoted (s.advance t) q (temps.take 8).zipIdx) := by
  have hexec : exec (.pressCalRecord t q temps) s = execPressCalRecord t q temps s := rfl
  unfold execPressCalRecord at hexec
  rw [← foldl_recordCal_self]
  exact hexec.trans (if_neg (by omega))

theorem calsNoted_spec (a : State) (q : Nat) (temps : List Int) :
    let u := calsNoted a q (temps.take 8).zipIdx
    u = { a with boot := { a.boot with cal := u.boot.cal } } ∧
      (∀ i v, i < 8 → temps[i]? = some v → mapGet (fun _ => noCal) u.boot.cal (8 * q + i) =
        if (a.stack q i).trained then calOf a q i v else mapGet (fun _ => noCal) a.boot.cal (8 * q + i)) ∧
      ∀ k, k / 8 ≠ q → mapGet (fun _ => noCal) u.boot.cal k = mapGet (fun _ => noCal) a.boot.cal k :=
  ⟨rfl, fun _ _ hi hv => mapGet_calsAfter a q _ (getElem?_take_of_some hi hv),
    fun _ hk => mapGet_calsAfter_other a q _ (by rw [List.length_take]; omega) hk⟩

end Press

/-! ## Tally (R399 to R403) -/

section Tally
variable {s : State} {q t : Nat}

/-! ### The records (R400, R401) -/

@[simp] theorem s16_length (v : Int) : (s16 v).length = 2 := leBytes_length ..

/-- A quarter's record is 256 bytes. -/
theorem quarterRecord_length (s : State) (q time seq : Nat) (x : QuarterSense) (site : Nat) :
    (s.quarterRecord q time seq x site).length = 256 := by
  unfold State.quarterRecord
  simp only [List.length_append, List.length_flatMap, leBytes_length, s16_length, List.length_replicate]
  decide

/-- The module's record is 64 bytes. -/
theorem moduleRecord_length (s : State) (time seq : Nat) : (s.moduleRecord time seq).length = 64 := by
  simp [State.moduleRecord]

/-! ### Staging (R382) -/

section Staging
variable {p : Page} {off : Nat}

theorem ground_makeRoom (s : State) (n k : Nat) : ground (s.makeRoom n k) = ground s := by
  induction k generalizing s with
  | zero => rfl
  | succ k ih =>
    unfold State.makeRoom
    split
    · rfl
    · rw [ih, ground_raise, ground_addSat]
      rfl

theorem seen_makeRoom (s : State) (n k : Nat) (h : OffEvq p off) : seen (s.makeRoom n k) p off = seen s p off := by
  induction k generalizing s with
  | zero => rfl
  | succ k ih =>
    unfold State.makeRoom
    split
    · rfl
    · rw [ih, seen_raise_evq _ _ h, seen_addSat_other _ _ (h _ (by decide))]
      rfl

theorem mem_stage (s : State) (r : List Byte) : (s.stage r).mem = s.mem := mem_of_ground (ground_makeRoom ..)

theorem reg_stage (s : State) (r : List Byte) (h : OffEvq p off) : (s.stage r).reg p off = s.reg p off :=
  congrArg Prod.fst (seen_makeRoom s _ _ h)

/-- A record that fits is staged behind the others. -/
theorem stage_of_room (s : State) {r : List Byte} (h : s.telStaged + r.length ≤ 0x100000) :
    (s.stage r).events = { s.events with telemetry := s.events.telemetry ++ [r] } := by
  have hroom (k : Nat) : s.makeRoom r.length k = s := by
    cases k with
    | zero => rfl
    | succ k => exact if_pos h
  unfold State.stage
  rw [hroom]

theorem telStaged_of_events {t u : State} (h : t.events = u.events) : t.telStaged = u.telStaged := by
  rw [State.telStaged, State.telStaged, h]

theorem telStaged_stage (s : State) {r : List Byte} (h : s.telStaged + r.length ≤ 0x100000) :
    (s.stage r).telStaged = s.telStaged + r.length := by
  rw [State.telStaged, stage_of_room s h, List.foldl_append]
  rfl

end Staging

/-! ### A sample (R399, R403) -/

/-- The quarter's record of a sample is staged, with a free count of its site port (R400). -/
def recordStaged (time seq : Nat) (s : State) (e : QuarterSense × Nat) : State :=
  s.freshFree.2.stage (s.freshFree.2.quarterRecord e.2 time seq e.1 s.freshFree.1)

theorem recordStaged_of_room (time seq : Nat) (s : State) (e : QuarterSense × Nat) (h : s.telStaged + 256 ≤ 0x100000) :
    ∃ r : List Byte, r.length = 256 ∧
      (recordStaged time seq s e).events = { s.events with telemetry := s.events.telemetry ++ [r] } ∧
      (recordStaged time seq s e).telStaged = s.telStaged + 256 := by
  have hlen := quarterRecord_length s.freshFree.2 e.2 time seq e.1 s.freshFree.1
  unfold recordStaged
  generalize s.freshFree.2.quarterRecord e.2 time seq e.1 s.freshFree.1 = r at hlen ⊢
  have hroom : s.freshFree.2.telStaged + r.length ≤ 0x100000 := by rw [hlen]; exact h
  exact ⟨r, hlen, stage_of_room _ hroom, by rw [telStaged_stage _ hroom, hlen]; rfl⟩

theorem events_foldl_recordStaged (time seq : Nat) (l : List (QuarterSense × Nat)) (s : State)
    (h : s.telStaged + 256 * l.length ≤ 0x100000) : ∃ rs, (l.foldl (recordStaged time seq) s).events =
      { s.events with telemetry := s.events.telemetry ++ rs } ∧ rs.map List.length = List.replicate l.length 256 ∧
      (l.foldl (recordStaged time seq) s).telStaged = s.telStaged + 256 * l.length := by
  induction l generalizing s with
  | nil => exact ⟨[], by simp, rfl, rfl⟩
  | cons e l ih =>
    rw [List.length_cons] at h ⊢
    rw [Nat.mul_succ, Nat.add_comm (256 * l.length), ← Nat.add_assoc] at h ⊢
    obtain ⟨r, hlen, hevent, hstage⟩ := recordStaged_of_room time seq s e (Nat.le_of_add_right_le h)
    obtain ⟨rs, hevents, hlens, hbytes⟩ := ih (recordStaged time seq s e) (by rwa [hstage])
    refine ⟨r :: rs, ?_, ?_, ?_⟩
    · rw [List.foldl_cons, hevents, hevent]
      simp
    · rw [List.map_cons, hlens, hlen, List.replicate_succ]
    · rw [List.foldl_cons, hbytes, hstage]

/-- All records of a sample are staged. -/
def recordsStaged (qs : List QuarterSense) (time seq : Nat) (s : State) : State :=
  let s := qs.zipIdx.foldl (recordStaged time seq) s
  s.stage (s.moduleRecord time seq)

theorem recordsStaged_events {qs : List QuarterSense} (time seq : Nat) (s : State) (hqs : qs.length = 4)
    (h : s.telStaged + 1088 ≤ 0x100000) : ∃ l, (recordsStaged qs time seq s).events =
      { s.events with telemetry := s.events.telemetry ++ l } ∧ l.map List.length = [256, 256, 256, 256, 64] := by
  have hzip : qs.zipIdx.length = 4 := by rw [List.length_zipIdx, hqs]
  obtain ⟨rs, hevents, hlens, hbytes⟩ := events_foldl_recordStaged time seq qs.zipIdx s (by omega)
  have hmodule := moduleRecord_length (qs.zipIdx.foldl (recordStaged time seq) s) time seq
  refine ⟨rs ++ [(qs.zipIdx.foldl (recordStaged time seq) s).moduleRecord time seq], ?_, ?_⟩
  · rw [recordsStaged, stage_of_room _ (by rw [hmodule, hbytes]; omega), hevents]
    simp
  · rw [List.map_append, hlens, hzip, List.map_singleton, hmodule]
    rfl

theorem mem_recordsStaged (qs : List QuarterSense) (time seq : Nat) (s : State) : (recordsStaged qs time seq s).mem = s.mem :=
  (mem_stage _ _).trans (foldl_same State.mem (fun t _ _ => mem_stage t.freshFree.2 _) s)

theorem reg_recordsStaged (qs : List QuarterSense) (time seq : Nat) (s : State) {p : Page} {off : Nat} (h : OffEvq p off) :
    (recordsStaged qs time seq s).reg p off = s.reg p off :=
  (reg_stage _ _ h).trans (foldl_same (State.reg · p off) (fun t _ _ => reg_stage t.freshFree.2 _ h) s)

/-- What one step of a fold establishes and the others keep holds after it. -/
theorem holds_foldl_of_mem {σ α : Type} {P : σ → Prop} {f : σ → α → σ} {l : List α} {x : α} (hx : x ∈ l) (hset : ∀ t, P (f t x))
    (hkeep : ∀ t y, y ≠ x → P t → P (f t y)) (s : σ) : P (l.foldl f s) := by
  induction l generalizing s with
  | nil => cases hx
  | cons y l ih =>
    rw [List.foldl_cons]
    by_cases hmem : x ∈ l
    · exact ih hmem _
    · obtain rfl : x = y := (List.mem_cons.1 hx).resolve_right hmem
      exact List.foldlRecOn (motive := P) l f (hset s) (fun t ht y hy => hkeep t y (fun h => hmem (h ▸ hy)) ht)

/-! #### The sensors and supplies (R403, R428) -/

/-- The sensors and supplies of a sample are noted. -/
def sensed (qs : List QuarterSense) (a : State) : State := qs.zipIdx.foldl (fun s e => s.senseQuarter e.2 e.1) a

theorem senseQuarter_fields (s : State) (q : Nat) (x : QuarterSense) : ∃ temps rs cy, s.senseQuarter q x =
    { s with bgnd := { s.bgnd with temps := temps }, regs := rs, cycle := cy } := by
  unfold State.senseQuarter State.setNum State.setReg
  exact ⟨_, _, _, rfl⟩

theorem hk_slot_lt (q : Nat) : (qPage .hk q 0).slot < 4096 := (by decide : PageKind.hk.slotBase + 0 < 4096)
theorem tally_slot_lt (q : Nat) : (qPage .tally q 0).slot < 4096 := (by decide : PageKind.tally.slotBase + 0 < 4096)

/-- A quarter's sample writes its housekeeping page alone. -/
theorem reg_senseQuarter_other (s : State) (q : Nat) (x : QuarterSense) {p : Page} {off : Nat} (hp : p.slot < 4096) (ho : off < 4096)
    (h : p ≠ qPage .hk q 0) : (s.senseQuarter q x).reg p off = s.reg p off := by
  have hother {off' : Nat} (ho' : off' < 4096) : p.reg off ≠ (qPage .hk q 0).reg off' :=
    page_reg_ne_of_page hp (hk_slot_lt q) ho ho' h
  unfold State.senseQuarter
  dsimp only
  rw [reg_setNum_other _ _ _ _ _ _ (hother (by decide)), reg_setNum_other _ _ _ _ _ _ (hother (by decide)),
    reg_setNum_other _ _ _ _ _ _ (hother (by decide)), reg_setNum_other _ _ _ _ _ _ (hother (by decide))]
  rfl

theorem num_senseQuarter (s : State) (q : Nat) (x : QuarterSense) :
    (s.senseQuarter q x).num (qPage .hk q 0) Reg.HK_P_CORE = x.pCore % 65536 ∧
      (s.senseQuarter q x).num (qPage .hk q 0) Reg.HK_V_CORE = x.vCore % 65536 := by
  unfold State.senseQuarter
  dsimp only
  constructor
  · rw [num_setNum_other _ _ _ _ _ _ (page_reg_ne_of_off (by decide)), num_setNum]
    omega
  · rw [num_setNum_other _ _ _ _ _ _ (page_reg_ne_of_off (by decide)), num_setNum_other _ _ _ _ _ _ (page_reg_ne_of_off (by decide)),
      num_setNum_other _ _ _ _ _ _ (page_reg_ne_of_off (by decide)), num_setNum]
    omega

theorem num_of_reg {s t : State} {p : Page} {off : Nat} (h : t.reg p off = s.reg p off) : t.num p off = s.num p off := by
  rw [State.num, State.num, h]

/-- Each quarter's supplies can be read back. -/
theorem num_sensed {qs : List QuarterSense} {x : QuarterSense} (hx : qs[q]? = some x) (a : State) :
    (sensed qs a).num (qPage .hk q 0) Reg.HK_P_CORE = x.pCore % 65536 ∧
      (sensed qs a).num (qPage .hk q 0) Reg.HK_V_CORE = x.vCore % 65536 := by
  refine foldl_zipIdx_holds (k₀ := 0) (P := fun s => s.num (qPage .hk q 0) Reg.HK_P_CORE = x.pCore % 65536 ∧
    s.num (qPage .hk q 0) Reg.HK_V_CORE = x.vCore % 65536) hx (fun s => ?_) (fun s e _ hne hs => ?_) a
  · rw [Nat.zero_add]
    exact num_senseQuarter s q x
  · have hpage : qPage .hk q 0 ≠ qPage .hk e.2 0 := fun h => hne (by rw [Nat.zero_add]; exact (congrArg Page.win h).symm)
    rw [num_of_reg (reg_senseQuarter_other s e.2 e.1 (hk_slot_lt q) (by decide) hpage),
      num_of_reg (reg_senseQuarter_other s e.2 e.1 (hk_slot_lt q) (by decide) hpage)]
    exact hs

/-- A sample's readings change the noted temperatures and the housekeeping pages alone. -/
theorem sensed_keeps (qs : List QuarterSense) (a : State) : (sensed qs a).mem = a.mem ∧ (sensed qs a).events = a.events ∧
    (sensed qs a).reg (mPage .evq) Reg.EVQ_EVQ_CTL = a.reg (mPage .evq) Reg.EVQ_EVQ_CTL := by
  have hfields := senseQuarter_fields
  refine ⟨foldl_same State.mem (fun s e _ => ?_) a, foldl_same State.events (fun s e _ => ?_) a,
    foldl_same (State.reg · (mPage .evq) Reg.EVQ_EVQ_CTL) (fun s e _ => ?_) a⟩
  · obtain ⟨_, _, _, h⟩ := hfields s e.2 e.1
    rw [h]
  · obtain ⟨_, _, _, h⟩ := hfields s e.2 e.1
    rw [h]
  · exact reg_senseQuarter_other s e.2 e.1 (mPage_slot_lt _) (by decide)
      (fun h => (by decide : ¬ (mPage .evq).slot = PageKind.hk.slotBase + 0) (congrArg Page.slot h))

/-! #### The number and the time (R399) -/

/-- The sample's number and time, in a quarter's TALLY page. -/
def numberedIn (time seq : Nat) (s : State) (q : Nat) : State :=
  (s.setNum (qPage .tally q 0) Reg.TALLY_SEQ seq).setNum64 (qPage .tally q 0) Reg.TALLY_LAST_TIME_LO Reg.TALLY_LAST_TIME_HI time

/-- The sample's number and time, in each quarter's TALLY page. -/
def numbered (time seq : Nat) (s : State) : State := (List.range 4).foldl (numberedIn time seq) s

theorem reg_numberedIn_other (time seq : Nat) (s : State) {p : Page} {off : Nat} (hp : p.slot < 4096) (ho : off < 4096)
    (h : p ≠ qPage .tally q 0) : (numberedIn time seq s q).reg p off = s.reg p off := by
  have hother {off' : Nat} (ho' : off' < 4096) : p.reg off ≠ (qPage .tally q 0).reg off' :=
    page_reg_ne_of_page hp (tally_slot_lt q) ho ho' h
  unfold numberedIn State.setNum64
  rw [reg_setNum_other _ _ _ _ _ _ (hother (by decide)), reg_setNum_other _ _ _ _ _ _ (hother (by decide)),
    reg_setNum_other _ _ _ _ _ _ (hother (by decide))]

theorem num64_setNum64 (s : State) (p : Page) {lo hi : Nat} (v : Nat) (h : lo ≠ hi) :
    (s.setNum64 p lo hi v).num64 p lo hi = v % 2 ^ 64 := by
  rw [State.num64, State.setNum64, num_setNum, num_setNum_other _ _ _ _ _ _ (page_reg_ne_of_off h), num_setNum]
  omega

/-- Number and time of the sample, as a quarter's TALLY page shows them. -/
def Numbered (time seq q : Nat) (s : State) : Prop := s.num (qPage .tally q 0) Reg.TALLY_SEQ = seq % 2 ^ 32 ∧
  s.num64 (qPage .tally q 0) Reg.TALLY_LAST_TIME_LO Reg.TALLY_LAST_TIME_HI = time % 2 ^ 64

theorem Numbered.of_reg {time seq : Nat} {s u : State} (h : Numbered time seq q s)
    (hreg : ∀ off, off < 4096 → u.reg (qPage .tally q 0) off = s.reg (qPage .tally q 0) off) : Numbered time seq q u := by
  unfold Numbered State.num64 at *
  rwa [num_of_reg (hreg _ (by decide)), num_of_reg (hreg _ (by decide)), num_of_reg (hreg _ (by decide))]

theorem numbered_numberedIn (time seq : Nat) (s : State) : Numbered time seq q (numberedIn time seq s q) := by
  refine ⟨?_, num64_setNum64 _ _ _ (by decide)⟩
  unfold numberedIn State.setNum64
  rw [num_setNum_other _ _ _ _ _ _ (page_reg_ne_of_off (by decide)), num_setNum_other _ _ _ _ _ _ (page_reg_ne_of_off (by decide)),
    num_setNum]

theorem numbered_spec (time seq : Nat) (s : State) (hq : q < 4) : Numbered time seq q (numbered time seq s) :=
  holds_foldl_of_mem (P := Numbered time seq q) (List.mem_range.2 hq) (numbered_numberedIn time seq)
    (fun t _ hne ht => ht.of_reg (fun _ ho => reg_numberedIn_other time seq t (tally_slot_lt q) ho
      (fun h => hne (congrArg Page.win h).symm))) s

/-- Numbering a sample changes TALLY pages alone. -/
theorem reg_numbered_other (time seq : Nat) (s : State) {p : Page} {off : Nat} (hp : p.slot < 4096) (ho : off < 4096)
    (h : p.slot ≠ PageKind.tally.slotBase) : (numbered time seq s).reg p off = s.reg p off :=
  foldl_same (State.reg · p off) (fun t _ _ => reg_numberedIn_other time seq t hp ho (fun he => h (congrArg Page.slot he))) s

theorem numbered_keeps (time seq : Nat) (s : State) :
    (numbered time seq s).mem = s.mem ∧ (numbered time seq s).events = s.events :=
  ⟨foldl_same State.mem (fun _ _ _ => by rw [numberedIn, setNum64_mem, setNum_mem]) s,
    foldl_same State.events (fun _ _ _ => by rw [numberedIn, setNum64_events, setNum_events]) s⟩

/-! #### The whole sample -/

/-- The records of a sample are staged where TEL_EN is set. -/
def stagedWhere (tel : Bool) (qs : List QuarterSense) (time seq : Nat) (s : State) : State :=
  if tel then recordsStaged qs time seq s else s

theorem stagedWhere_keeps (tel : Bool) (qs : List QuarterSense) (time seq : Nat) (s : State) :
    (stagedWhere tel qs time seq s).mem = s.mem ∧
      ∀ p off, OffEvq p off → (stagedWhere tel qs time seq s).reg p off = s.reg p off := by
  cases tel with
  | false => exact ⟨rfl, fun _ _ _ => rfl⟩
  | true => exact ⟨mem_recordsStaged qs time seq s, fun _ _ h => reg_recordsStaged qs time seq s h⟩

/-- The sample's number and time are taken. -/
def sampledAt (time seq : Nat) (s : State) : State :=
  { s.keepTotals with bgnd := { s.keepTotals.bgnd with samples := seq + 1, sampleAt := time } }

theorem keepTotals_fields (s : State) : ∃ sampled, s.keepTotals = { s with bgnd := { s.bgnd with sampled := sampled } } :=
  ⟨_, rfl⟩

theorem sampledAt_spec (time seq : Nat) (s : State) : (sampledAt time seq s).bgnd.samples = seq + 1 ∧
    (sampledAt time seq s).bgnd.sampleAt = time ∧ (sampledAt time seq s).mem = s.mem ∧ (sampledAt time seq s).events = s.events ∧
    ∀ p off, (sampledAt time seq s).reg p off = s.reg p off := by
  obtain ⟨_, h⟩ := keepTotals_fields s
  unfold sampledAt
  rw [h]
  exact ⟨rfl, rfl, rfl, rfl, fun _ _ => rfl⟩

/-- A sample at a time, with its number. -/
def tallied (qs : List QuarterSense) (time seq : Nat) (a : State) : State :=
  let s := numbered time seq (sensed qs a)
  sampledAt time seq (stagedWhere (s.bit (mPage .evq) Reg.EVQ_EVQ_CTL 0) qs time seq s)

theorem exec_tallySample {qs : List QuarterSense} (hqs : qs.length = 4) (hnew : (s.advance t).bgnd.samples = 0 ∨
    (s.advance t).bgnd.sampleAt < (s.advance t).podCount / 900000 * 900000) :
    exec (.tallySample t qs) s =
      .next (tallied qs ((s.advance t).podCount / 900000 * 900000) (s.advance t).bgnd.samples (s.advance t)) := by
  have hexec : exec (.tallySample t qs) s = execTallySample t qs s := rfl
  unfold execTallySample at hexec
  exact hexec.trans (if_neg (by simp only [hqs]; omega))

theorem tallied_spec {qs : List QuarterSense} (time seq : Nat) (a : State) (hqs : qs.length = 4) :
    let u := tallied qs time seq a
    let tel := a.bit (mPage .evq) Reg.EVQ_EVQ_CTL 0
    u.bgnd.samples = seq + 1 ∧ u.bgnd.sampleAt = time ∧ u.mem = a.mem ∧ (∀ q, q < 4 → Numbered time seq q u) ∧
      (∀ q x, q < 4 → qs[q]? = some x → u.num (qPage .hk q 0) Reg.HK_P_CORE = x.pCore % 65536 ∧
        u.num (qPage .hk q 0) Reg.HK_V_CORE = x.vCore % 65536) ∧
      (tel = false → u.events = a.events) ∧
      (tel = true → a.telStaged + 1088 ≤ 0x100000 → ∃ l, u.events = { a.events with telemetry := a.events.telemetry ++ l } ∧
        l.map List.length = [256, 256, 256, 256, 64]) := by
  intro u tel
  obtain ⟨hmem, hevents, hctl⟩ := sensed_keeps qs a
  obtain ⟨hmem', hevents'⟩ := numbered_keeps time seq (sensed qs a)
  have htel : (numbered time seq (sensed qs a)).bit (mPage .evq) Reg.EVQ_EVQ_CTL 0 = tel := by
    rw [bit_eq_getLsbD, reg_numbered_other _ _ _ (mPage_slot_lt _) (by decide) (by decide), hctl, ← bit_eq_getLsbD]
  have hu : u = sampledAt time seq (stagedWhere tel qs time seq (numbered time seq (sensed qs a))) := by
    rw [← htel]
    rfl
  obtain ⟨hstagedMem, hstagedReg⟩ := stagedWhere_keeps tel qs time seq (numbered time seq (sensed qs a))
  obtain ⟨hsamples, hat, hsampledMem, hsampledEvents, hsampledReg⟩ :=
    sampledAt_spec time seq (stagedWhere tel qs time seq (numbered time seq (sensed qs a)))
  rw [← hu] at hsamples hat hsampledMem hsampledEvents hsampledReg
  have hreg {k : PageKind} {q off : Nat} (hslot : (qPage k q 0).slot < 4096) (ho : off < 4096) (hq : q < 4) :=
    (hsampledReg (qPage k q 0) off).trans (hstagedReg (qPage k q 0) off
      (offEvq_of_page hslot ho (fun h => by have : q = 4 := congrArg Page.win h; omega)))
  have hsame := hevents'.trans hevents
  refine ⟨hsamples, hat, hsampledMem.trans (hstagedMem.trans (hmem'.trans hmem)), fun q hq => ?_, fun q x hq hx => ?_, fun h => ?_,
    fun h hroom => ?_⟩
  · exact (numbered_spec time seq (sensed qs a) hq).of_reg (fun off ho => hreg (tally_slot_lt q) ho hq)
  · have hhk {off : Nat} (ho : off < 4096) := (hreg (hk_slot_lt q) ho hq).trans (reg_numbered_other time seq (sensed qs a)
      (hk_slot_lt q) ho (by decide : ¬ PageKind.hk.slotBase + 0 = PageKind.tally.slotBase))
    obtain ⟨hp, hv⟩ := num_sensed hx a
    exact ⟨(num_of_reg (hhk (by decide))).trans hp, (num_of_reg (hhk (by decide))).trans hv⟩
  · rw [hsampledEvents, h]
    exact hsame
  · obtain ⟨l, hl, hlens⟩ := recordsStaged_events time seq (numbered time seq (sensed qs a)) hqs
      (by rwa [telStaged_of_events hsame])
    rw [hsampledEvents, h]
    exact ⟨l, by rw [← hsame]; exact hl, hlens⟩

end Tally

/-! ## The statement -/

/-- Settles O55: tally, press and darn one command at a time, each by its equation and what its result holds. -/
theorem tallyPressAndDarnRecordTheirFindings : Obligations.TallyPressAndDarnRecordTheirFindings := by
  unfold Obligations.TallyPressAndDarnRecordTheirFindings
  refine ⟨?_, ?_, ?_, ?_, ?_⟩
  · intro t qs s
    dsimp only
    intro hqs hnew
    exact ⟨_, exec_tallySample hqs hnew, tallied_spec _ _ _ hqs⟩
  · intro t q margins s
    dsimp only
    intro hq hon
    obtain ⟨low, hexec⟩ := exec_pressLinkMonitor (margins := margins) hq hon
    exact ⟨_, hexec, marginsNoted_spec _ margins low⟩
  · intro t q raw ref1 ref2 s
    dsimp only
    intro hq hon
    obtain ⟨offsets, new, hexec⟩ := exec_pressThermal (raw := raw) (ref1 := ref1) (ref2 := ref2) hq hon
    obtain ⟨hout, hcount, hmem⟩ := sensorsNoted_spec (s.advance t) offsets (sensorsOut (s.advance t) q raw ref1 ref2) new hq
    refine ⟨_, hexec, fun k => ?_, ?_, hmem⟩
    · rw [hout, mem_sensorsOut, mem_badSensors]
      simp only [farFrom, decide_eq_true_eq]
    · rw [hcount, hout]
  · intro t q temps s
    dsimp only
    intro hq
    exact ⟨_, exec_pressCalRecord hq, calsNoted_spec _ q temps⟩
  · intro t q cpu life spare erases losses s
    dsimp only
    intro hq
    refine ⟨_, exec_darnAging hq, ?_⟩
    obtain ⟨hmem, hcpu, hon, hoff⟩ := darned_spec losses cpu (s.advance t) hq
    split
    · next h => exact ⟨hmem, hcpu, hon, hoff, fun h0 => absurd h0 h⟩
    · next h =>
      obtain rfl : q = 0 := not_not.1 h
      obtain ⟨hmem', hbgnd, hcpu', hlife, hfailed⟩ := flashPublished_spec (darned 0 losses cpu (s.advance t)) life spare erases
      refine ⟨hmem'.trans hmem, hcpu'.trans hcpu, fun hctl i v hi hv => ?_, fun hctl => hbgnd.trans (hoff hctl), fun _ => hlife⟩
      obtain ⟨hloss, hfails⟩ := hon hctl i v hi hv
      exact ⟨by rw [State.loss, hbgnd, ← State.loss, hloss], fun hlt hnew => (hfailed i).trans (hfails hlt hnew)⟩

end Sys2Proof.Proofs
end

section
/-! PROOFS. Memory without errors: its reads and writes settle nothing, so that a write is the bytes written. -/

namespace Sys2Proof.Proofs
open Sys2Proof Sys2Proof.Machine Sys2Proof.Laws

/-! ## Writes of memory without errors (R98, R215) -/

section NoErrors
variable {s : State} {a : Nat} (he : s.ecc = [])
include he

theorem eccAt_of_no_ecc (c : Nat) : s.eccAt c = 0 := by simp [State.eccAt, he, mapGet]

theorem settleCodeword_of_no_ecc (way : Option Nat) (c cover : Nat) (merge : Bool) : s.settleCodeword way c cover merge = s := by
  rw [State.settleCodeword, if_pos (eccAt_of_no_ecc he c)]

theorem settleLine_of_no_ecc (way : Option Nat) (line : Nat) (cover : Nat → Nat) : s.settleLine way line cover = s := by
  unfold State.settleLine
  exact List.foldlRecOn (motive := (· = s)) _ _ rfl (fun t ht i _ => by subst ht; exact settleCodeword_of_no_ecc he ..)

theorem noteCodewordBy_of_no_ecc (c : Nat) (way : Option Nat) (queue : Bool) : s.noteCodewordBy c way queue = s := by
  rw [State.noteCodewordBy, if_pos (eccAt_of_no_ecc he c)]

theorem noteLine_of_no_ecc (line : Nat) (way : Option Nat) : s.noteLine line way = s := by
  unfold State.noteLine
  exact List.foldlRecOn (motive := (· = s)) _ _ rfl (fun t ht i _ => by subst ht; exact noteCodewordBy_of_no_ecc he ..)

/-- A write that performs no other access is the bytes written, and the corrections that they replace are dropped. -/
theorem writeBytesBy_of_no_ecc (ways : List (Nat × Option Nat)) (bs : List Byte) (hf : s.flush a bs.length = s) :
    s.writeBytesBy ways a bs = { s.dropWriteBacks a bs.length with mem := memPut s.mem a bs } := by
  have hsettle (l : List Nat) (cover : Nat → Nat → Nat) :
      l.foldl (fun s l => s.settleLine (mapGet (fun _ => none) ways l) l (cover l)) s = s :=
    List.foldlRecOn (motive := (· = s)) _ _ rfl (fun t ht i _ => by subst ht; exact settleLine_of_no_ecc he ..)
  unfold State.writeBytesBy
  dsimp only
  rw [hf, hsettle]

theorem ecc_writeBytes_of_no_ecc (bs : List Byte) (h : AboveStacks a) : (s.writeBytes a bs).ecc = [] := by
  rw [State.writeBytes, writeBytesBy_of_no_ecc he _ _ (flush_aboveStacks s _ h)]
  exact (ecc_of_ground (ground_dropWriteBacks ..)).trans he

theorem ecc_putRow16_of_no_ecc (codes : List (Option Nat)) (h : AboveStacks a) : (s.putRow16 a codes).ecc = [] := by
  unfold State.putRow16
  split
  · exact ecc_writeBytes_of_no_ecc he _ h
  · refine List.foldlRecOn (motive := fun t : State => t.ecc = []) _ _ he (fun t ht c _ => ?_)
    split
    · exact ht
    · exact ecc_writeBytes_of_no_ecc ht _ (Nat.le_add_right_of_le h)

theorem readNat_of_no_ecc (n : Nat) (h : AboveStacks a) : s.readNat a n = leNat (memBytes s.mem a n) := by
  rw [State.readNat, readBytes_of_no_ecc n h he]

end NoErrors

/-- Words apart from those written read as before. -/
theorem word16_putWords_other (m : List Host.Cell) (a x : Nat) (cs : List (Option Nat)) (h : Apart x 2 a (2 * cs.length)) :
    word16 (putWords m a cs) x = word16 m x :=
  word16_of_memGet (fun y _ _ => memGet_putWords_other m a y cs (by omega))

end Sys2Proof.Proofs
end

section
/-! PROOFS. The row kernels: what they take of a row, and the statistics, rows and gradient sums that they store. -/

namespace Sys2Proof.Proofs
open Sys2Proof Sys2Proof.Machine Sys2Proof.Laws

/-! ## What a row kernel takes, and how much it gives (R88 to R91, R123) -/

section Taken
variable {s t : State} {q k n : Nat} {d : Desc} {v : VecIn}

theorem splitAt_of_no_ecc {a : Nat} (h : AboveStacks a) (he : s.ecc = []) :
    s.splitAt a = splitValue (word16 s.mem a) (word16 s.mem (a + 2)) := by
  simp [State.splitAt, linePoisoned_of_no_ecc he, readNat_of_no_ecc he 2 h,
    readNat_of_no_ecc he 2 (show AboveStacks (a + 2) from Nat.le_add_right_of_le h), word16]

/-- Without errors, what a kernel takes of a row is given by memory alone. -/
theorem vecIn_of_mem (hs : s.ecc = []) (ht : t.ecc = []) (hm : t.mem = s.mem) (q : Nat) (d : Desc) (r : Nat) :
    t.vecIn q d r = s.vecIn q d r := by
  have hrow (f : Fmt) (x y n : Nat) : t.rowValues f (foldBase q + x + y) n = s.rowValues f (foldBase q + x + y) n := by
    have h : AboveStacks (foldBase q + x + y) := Nat.le_add_right_of_le (aboveStacks_foldBase q x)
    rw [rowValues_of_no_ecc f n h ht, rowValues_of_no_ecc f n h hs, hm]
  have hvec (f : Fmt) (x n : Nat) : t.rowValues f (foldBase q + x) n = s.rowValues f (foldBase q + x) n := hrow f x 0 n
  have hsplit (x y : Nat) : t.splitAt (foldBase q + x + y) = s.splitAt (foldBase q + x + y) := by
    have h : AboveStacks (foldBase q + x + y) := Nat.le_add_right_of_le (aboveStacks_foldBase q x)
    rw [splitAt_of_no_ecc h ht, splitAt_of_no_ecc h hs, hm]
  have hsplit4 (x y : Nat) : t.splitAt (foldBase q + x + y + 4) = s.splitAt (foldBase q + x + y + 4) := hsplit x (y + 4)
  have hmask (r n : Nat) : t.vecMask (foldBase q) d r n = s.vecMask (foldBase q) d r n := by
    have hbyte (x y : Nat) : t.readNat (foldBase q + x + y) 1 = s.readNat (foldBase q + x + y) 1 := by
      have h : AboveStacks (foldBase q + x + y) := Nat.le_add_right_of_le (aboveStacks_foldBase q x)
      rw [readNat_of_no_ecc ht 1 h, readNat_of_no_ecc hs 1 h, hm]
    have hbit (x y z : Nat) : t.readNat (foldBase q + x + y + z) 1 = s.readNat (foldBase q + x + y + z) 1 := by
      rw [Nat.add_assoc (foldBase q + x), hbyte]
    simp only [State.vecMask, hbit]
  simp only [State.vecIn, hrow, hvec, hsplit, hsplit4, hmask]

theorem rowValues_length (s : State) (f : Fmt) (a n : Nat) : (s.rowValues f a n).length = n := by simp [State.rowValues, State.row16]

theorem vecMask_length (s : State) (base : Nat) (d : Desc) (r n : Nat) : (s.vecMask base d r n).length = n := by
  unfold State.vecMask
  split <;> simp

/-- The lists that kernel k takes hold the n elements of a row. -/
structure RowSized (k n : Nat) (v : VecIn) : Prop where
  s0 : v.s0.length = n
  s1 : kernelSrc1 k = true → v.s1.length = n
  v0 : kernelVec0 k = true → v.v0.length = n
  x0 : k = 0x40 → v.x0.length = n
  mask : v.mask.length = n

theorem rowSized_vecIn (s : State) (q : Nat) (d : Desc) (r : Nat) : RowSized (df d 0 4 8) (df d 1 0 16 + 1) (s.vecIn q d r) where
  s0 := rowValues_length ..
  s1 h := by simp only [State.vecIn, h, if_true, rowValues_length]
  v0 h := by simp only [State.vecIn, h, if_true, rowValues_length]
  x0 h := by simp only [State.vecIn, h, if_true, rowValues_length]
  mask := vecMask_length ..

/-- The kernels that normalise a row or take its softmax, and those backward. -/
abbrev rowKernels : List Nat := [0x40, 0x41, 0x42, 0x48, 0x49, 0x4A, 0x4B, 0x4C, 0x4D, 0x4E]

theorem kernelDst_of_rowKernel (hk : k ∈ rowKernels) : kernelDst k = true := by
  have hall : ∀ k ∈ rowKernels, kernelDst k = true := by decide
  exact hall k hk

theorem normBwd_length {rms : Bool} {rho : Machine.Num} {xh g gamma : List Machine.Num} (hx : xh.length = n) (hg : g.length = n)
    (hw : gamma.length = n) : (normBwd rms rho xh g gamma).d.length = n ∧ (normBwd rms rho xh g gamma).gScale.length = n ∧
      (rms = false → (normBwd rms rho xh g gamma).gBias.length = n) := by
  refine ⟨by simp [normBwd, hx, hg, hw], by simp [normBwd, hx, hg], fun h => by simp [normBwd, h, hg]⟩

theorem softmaxBwd_length {mask : List Bool} {y g : List Machine.Num} (hm : mask.length = n) (hy : y.length = n) (hg : g.length = n) :
    (softmaxBwd mask y g).d.length = n := by
  simp [softmaxBwd, hm, hy, hg]

/-- What a kernel gives has the size of its row: the row itself, its statistics record, and the terms of its gradients. -/
structure RowGiven (k n : Nat) (o : VecRow) : Prop where
  d : o.d.length = n
  stats : o.stats = [] ∨ kernelStat k = true ∧ 4 * o.stats.length = statBytes k ∧ (kernelAux0 k = true → k = 0x40) ∧ kernelAux1 k = false
  gScale : kernelAux0 k = true → k ≠ 0x40 → o.gScale.length = n
  gBias : kernelAux1 k = true → o.gBias.length = n

/-- A kernel that adds to gradients stores no statistics. -/
theorem RowGiven.stats_of_aux0 {o : VecRow} (h : RowGiven k n o) (h0 : kernelAux0 k = true) (h40 : k ≠ 0x40) : o.stats = [] := by
  obtain hnil | ⟨-, -, haux, -⟩ := h.stats
  · exact hnil
  · exact absurd (haux h0) h40

theorem RowGiven.aux_of_stats {o : VecRow} {j : Nat} (h : RowGiven k n o) (hv : o.stats[j]? = some x) :
    (kernelAux0 k = true → k = 0x40) ∧ kernelAux1 k = false := by
  obtain hnil | ⟨-, -, haux⟩ := h.stats
  · simp [hnil] at hv
  · exact haux

theorem rowGiven_normBwd {rms : Bool} {rho : Machine.Num} {xh g gamma : List Machine.Num} (hx : xh.length = n) (hg : g.length = n)
    (hw : gamma.length = n) (hbias : kernelAux1 k = true → rms = false) : RowGiven k n (normBwd rms rho xh g gamma) := by
  obtain ⟨hd, hscale, hb⟩ := normBwd_length (rms := rms) (rho := rho) hx hg hw
  exact ⟨hd, .inl rfl, fun _ _ => hscale, fun h => hb (hbias h)⟩

theorem rowGiven_softmaxBwd {mask : List Bool} {y g : List Machine.Num} (hm : mask.length = n) (hy : y.length = n)
    (hg : g.length = n) (h0 : kernelAux0 k = false) (h1 : kernelAux1 k = false) : RowGiven k n (softmaxBwd mask y g) :=
  ⟨softmaxBwd_length hm hy hg, .inl rfl, fun h => absurd (h0.symm.trans h) (by decide), fun h => absurd (h1.symm.trans h) (by decide)⟩

theorem rowGiven_vecRow (hk : k ∈ rowKernels) (h : RowSized k n v) : RowGiven k n (vecRow k v) := by
  obtain ⟨hs0, hs1, hv0, hx0, hmask⟩ := h
  simp only [List.mem_cons, List.not_mem_nil, or_false] at hk
  obtain rfl | rfl | rfl | rfl | rfl | rfl | rfl | rfl | rfl | rfl := hk
  · exact ⟨by simp [vecRow, hs0, hv0 (by decide), hx0 rfl], .inr ⟨by decide, rfl, fun _ => rfl, by decide⟩, fun _ h => absurd rfl h,
      fun h => absurd h (by decide)⟩
  · exact ⟨by simp [vecRow, hs0, hv0 (by decide)], .inr ⟨by decide, rfl, fun h => absurd h (by decide), by decide⟩, fun h => absurd h (by decide), fun h => absurd h (by decide)⟩
  · exact ⟨by simp [vecRow, hs0, hmask], .inr ⟨by decide, rfl, fun h => absurd h (by decide), by decide⟩, fun h => absurd h (by decide), fun h => absurd h (by decide)⟩
  · exact rowGiven_normBwd (by simpa using hs0) (hs1 (by decide)) (hv0 (by decide)) (fun _ => rfl)
  · exact rowGiven_normBwd (by simpa using hs0) (hs1 (by decide)) (hv0 (by decide)) (fun h => absurd h (by decide))
  · exact rowGiven_softmaxBwd hmask hs0 (hs1 (by decide)) (by decide) (by decide)
  · exact rowGiven_softmaxBwd hmask (by simpa using hs0) (hs1 (by decide)) (by decide) (by decide)
  · exact rowGiven_normBwd (by simpa using hs0) (hs1 (by decide)) (hv0 (by decide)) (fun _ => rfl)
  · exact rowGiven_normBwd (by simpa using hs0) (hs1 (by decide)) (hv0 (by decide)) (fun h => absurd h (by decide))
  · exact rowGiven_softmaxBwd hmask (by simpa using hs0) (hs1 (by decide)) (by decide) (by decide)

end Taken

/-! ## The row and its statistics (R88, R123) -/

/-- The codes of a statistics record: each value as a split pair. -/
def statCodes (vs : List Machine.Num) : List (Option Nat) :=
  vs.flatMap (fun v => [some (splitPair v).1, some (splitPair v).2])

theorem statCodes_length (vs : List Machine.Num) : (statCodes vs).length = 2 * vs.length := by
  simp [statCodes, List.length_flatMap, Nat.mul_comm]

theorem getElem?_statCodes {vs : List Machine.Num} {j : Nat} {v : Machine.Num} (h : vs[j]? = some v) :
    (statCodes vs)[2 * j]? = some (some (splitPair v).1) ∧ (statCodes vs)[2 * j + 1]? = some (some (splitPair v).2) := by
  induction vs generalizing j with
  | nil => simp at h
  | cons x vs ih =>
    cases j with
    | zero =>
      obtain rfl : x = v := by simpa using h
      exact ⟨rfl, rfl⟩
    | succ j => exact ih (by simpa using h)

section Row
variable {c : State} {q : Nat} {d : Desc} (key : DrawKey) (page : Page)

/-- What memory holds after the one row of a kernel: its row at DST, where it writes one, and then its record at STAT. -/
theorem mem_vecDoRow_stats (c : State) (q : Nat) (d : Desc) :
    let o := vecRow (df d 0 4 8) (c.vecIn q d 0)
    (c.vecDoRow q d key page 0).1.mem =
      putWords (if kernelDst (df d 0 4 8) then putWords c.mem (foldBase q + dw d 8) (rowCodes d key o.d) else c.mem)
        (foldBase q + dw d 10) (statCodes o.stats) := by
  intro o
  have hrow : (if kernelDst (df d 0 4 8) then c.putRow16 (foldBase q + dw d 8) (rowCodes d key o.d) else c).mem =
      if kernelDst (df d 0 4 8) then putWords c.mem (foldBase q + dw d 8) (rowCodes d key o.d) else c.mem := by
    rw [apply_ite State.mem, mem_putRow16 _ _ (aboveStacks_foldBase q _)]
  have hrecord (t : State) : (if (statCodes o.stats).isEmpty then t else t.putRow16 (foldBase q + dw d 10) (statCodes o.stats)).mem =
      putWords t.mem (foldBase q + dw d 10) (statCodes o.stats) := by
    split
    · next h => rw [List.isEmpty_iff.1 h]; rfl
    · exact mem_putRow16 _ _ (aboveStacks_foldBase q _)
  rw [← hrow, ← hrecord]
  simp only [State.vecDoRow, Nat.zero_mul, Nat.add_zero, Nat.zero_add, mem_of_ground (ground_noteConvs ..), List.map_map]
  rfl

theorem ecc_vecDoRow (he : c.ecc = []) : (c.vecDoRow q d key page 0).1.ecc = [] := by
  have hput {t : State} {b : Bool} {x : Nat} (ht : t.ecc = []) (codes : List (Option Nat)) :
      (if b then t.putRow16 (foldBase q + x) codes else t).ecc = [] := by
    split
    · exact ecc_putRow16_of_no_ecc ht _ (aboveStacks_foldBase q _)
    · exact ht
  simp only [State.vecDoRow, Nat.zero_mul, Nat.add_zero, ecc_of_ground (ground_noteConvs ..)]
  split
  · exact hput he _
  · exact ecc_putRow16_of_no_ecc (hput he _) _ (aboveStacks_foldBase q _)

/-- Statistics are stored as split pairs, one after the other. -/
theorem splitPair_stored (m : List Host.Cell) (a : Nat) {vs : List Machine.Num} {j : Nat} {v : Machine.Num} (h : vs[j]? = some v) :
    word16 (putWords m a (statCodes vs)) (a + 4 * j) = (splitPair v).1 % 65536 ∧
    word16 (putWords m a (statCodes vs)) (a + 4 * j + 2) = (splitPair v).2 % 65536 := by
  obtain ⟨hhi, hlo⟩ := getElem?_statCodes h
  constructor
  · rw [show a + 4 * j = a + 2 * (2 * j) by omega]
    exact word16_putWords _ _ _ _ _ hhi
  · rw [show a + 4 * j + 2 = a + 2 * (2 * j + 1) by omega]
    exact word16_putWords _ _ _ _ _ hlo

theorem rowCodes_length (d : Desc) (key : DrawKey) (vs : List Machine.Num) : (rowCodes d key vs).length = vs.length := by
  simp [rowCodes]

theorem getElem?_rowCodes (d : Desc) (key : DrawKey) {vs : List Machine.Num} {j : Nat} (hj : j < vs.length) :
    (rowCodes d key vs)[j]? = some (some
      (convert16 (fmt16 (db d 0 13)) (if db d 0 14 then .sr (draw key j) else .rne) (vs.getD j .zero)).code) := by
  simp [rowCodes, hj]

/-- Words apart from the row and its record read as before. -/
theorem word16_vecDoRow_other {n x : Nat} (hg : RowGiven (df d 0 4 8) n (vecRow (df d 0 4 8) (c.vecIn q d 0)))
    (hd : Apart x 2 (foldBase q + dw d 8) (2 * n)) (hs : (vecRow (df d 0 4 8) (c.vecIn q d 0)).stats = []) :
    word16 (c.vecDoRow q d key page 0).1.mem x = word16 c.mem x := by
  rw [mem_vecDoRow_stats, hs]
  show word16 (if _ then _ else _) x = _
  split
  · exact word16_putWords_other _ _ _ _ (by rwa [rowCodes_length, hg.d])
  · rfl

/-- The row is written as it is rounded, where its record lies apart from it. -/
theorem word16_vecDoRow_row {n j : Nat} (hdst : kernelDst (df d 0 4 8) = true)
    (hg : RowGiven (df d 0 4 8) n (vecRow (df d 0 4 8) (c.vecIn q d 0)))
    (hs : kernelStat (df d 0 4 8) = true → Apart (dw d 8) (2 * n) (dw d 10) (statBytes (df d 0 4 8))) (hj : j < n) :
    word16 (c.vecDoRow q d key page 0).1.mem (foldBase q + dw d 8 + 2 * j) =
      (convert16 (fmt16 (db d 0 13)) (if db d 0 14 then .sr (draw key j) else .rne)
        ((vecRow (df d 0 4 8) (c.vecIn q d 0)).d.getD j .zero)).code % 65536 := by
  obtain ⟨hlen, hstats, -, -⟩ := hg
  have hrow := word16_putWords c.mem (foldBase q + dw d 8) j _ _ (getElem?_rowCodes d key (hlen.symm ▸ hj))
  rw [mem_vecDoRow_stats, if_pos hdst]
  obtain hnil | ⟨hstat, hrecord, -, -⟩ := hstats
  · rw [hnil]
    exact hrow
  · rw [word16_putWords_other _ _ _ _ (by have := hs hstat; rw [statCodes_length]; omega)]
    exact hrow

end Row

/-! ## The gradient sums (R125) -/

/-- The sums of one row's terms, from +0. -/
theorem getElem?_gradSums {g : List Machine.Num} {n j : Nat} (hg : g.length = n) (hj : j < n) :
    (gradSums n [g])[j]? = some (fAdd .zero (g.getD j .zero)) := by
  subst hg
  simp [gradSums, hj]

theorem gradSums_length_le (n : Nat) (g : List Machine.Num) : (gradSums n [g]).length ≤ n := by simp [gradSums]

/-- The codes of a buffer of gradient sums after an addition. -/
def gradCodes (s : State) (q off : Nat) (d : Desc) (sums : List Machine.Num) : List (Option Nat) :=
  (sums.zip (s.rowValues (fmt16 (db d 0 13)) (foldBase q + off) sums.length)).zipIdx.map (fun p => some
    (convert16 (fmt16 (db d 0 13)) (if db d 0 14 then .sr (Config.freeNat (s.free + p.2) % 65536) else .rne)
      (p.1.2.add p.1.1)).code)

section Grads
variable {s : State} {q off : Nat} {d : Desc} {page : Page} {sums : List Machine.Num}

theorem gradCodes_length : (gradCodes s q off d sums).length = sums.length := by simp [gradCodes, rowValues_length]

theorem mem_addGrads : (s.addGrads q off d page sums).mem = putWords s.mem (foldBase q + off) (gradCodes s q off d sums) := by
  simp only [State.addGrads, mem_of_ground (ground_noteConvs ..), List.map_map]
  exact mem_putRow16 s _ (aboveStacks_foldBase q off)

theorem ecc_addGrads (he : s.ecc = []) : (s.addGrads q off d page sums).ecc = [] := by
  simp only [State.addGrads, ecc_of_ground (ground_noteConvs ..)]
  exact ecc_putRow16_of_no_ecc he _ (aboveStacks_foldBase q off)

/-- An addition leaves what lies apart from its buffer of n elements. -/
theorem word16_addGrads_other {n x : Nat} (hn : sums.length ≤ n) (h : Apart x 2 (foldBase q + off) (2 * n)) :
    word16 (s.addGrads q off d page sums).mem x = word16 s.mem x := by
  rw [mem_addGrads]
  exact word16_putWords_other _ _ _ _ (by rw [gradCodes_length]; omega)

/-- A sum is added to its element of the buffer with one rounding. -/
theorem word16_addGrads {j : Nat} {v : Machine.Num} (he : s.ecc = []) (hsr : db d 0 14 = false) (hv : sums[j]? = some v) :
    word16 (s.addGrads q off d page sums).mem (foldBase q + off + 2 * j) =
      (convert16 (fmt16 (db d 0 13)) .rne
        ((decodeElem (fmt16 (db d 0 13)) (word16 s.mem (foldBase q + off + 2 * j))).add v)).code % 65536 := by
  obtain ⟨hj, rfl⟩ := List.getElem?_eq_some_iff.1 hv
  rw [mem_addGrads]
  refine word16_putWords _ _ j _ _ ?_
  rw [gradCodes, rowValues_of_no_ecc _ _ (aboveStacks_foldBase q off) he]
  simp [hsr, hj, List.zip]

end Grads

/-- A row's gradient terms are added into the buffers of its kernel. -/
def gradsAdded (q : Nat) (d : Desc) (page : Page) (s : State) (o : VecRow) : State :=
  let k := df d 0 4 8
  let n := df d 1 0 16 + 1
  let s := if kernelAux0 k && k != 0x40 then s.addGrads q (dw d 13) d page (gradSums n [o.gScale]) else s
  if kernelAux1 k then s.addGrads q (dw d 14) d page (gradSums n [o.gBias]) else s

section Added
variable {s : State} {q : Nat} {d : Desc} {page : Page} {o : VecRow}

theorem kernelAux0_of_kernelAux1 {k : Nat} (h : kernelAux1 k = true) : kernelAux0 k = true ∧ k ≠ 0x40 := by
  simp only [kernelAux1, kernelAux0, decide_eq_true_eq] at h ⊢
  omega

theorem word16_gradsAdded_other {x : Nat}
    (h0 : kernelAux0 (df d 0 4 8) = true → df d 0 4 8 ≠ 0x40 → Apart x 2 (foldBase q + dw d 13) (2 * (df d 1 0 16 + 1)))
    (h1 : kernelAux1 (df d 0 4 8) = true → Apart x 2 (foldBase q + dw d 14) (2 * (df d 1 0 16 + 1))) :
    word16 (gradsAdded q d page s o).mem x = word16 s.mem x := by
  have hscale : word16 (if kernelAux0 (df d 0 4 8) && df d 0 4 8 != 0x40 then
      s.addGrads q (dw d 13) d page (gradSums (df d 1 0 16 + 1) [o.gScale]) else s).mem x = word16 s.mem x := by
    split
    · next h =>
      simp only [Bool.and_eq_true, bne_iff_ne, ne_eq] at h
      exact word16_addGrads_other (gradSums_length_le ..) (h0 h.1 h.2)
    · rfl
  unfold gradsAdded
  dsimp only
  split
  · next h => exact (word16_addGrads_other (gradSums_length_le ..) (h1 h)).trans hscale
  · exact hscale

variable {j : Nat} (he : s.ecc = []) (hg : RowGiven (df d 0 4 8) (df d 1 0 16 + 1) o) (hsr : db d 0 14 = false)
  (hj : j < df d 1 0 16 + 1)
include he hg hsr hj

/-- The scale gradient takes the row's terms. -/
theorem word16_gradsAdded_scale (h0 : kernelAux0 (df d 0 4 8) = true) (h40 : df d 0 4 8 ≠ 0x40)
    (h1 : kernelAux1 (df d 0 4 8) = true → Apart (dw d 13) (2 * (df d 1 0 16 + 1)) (dw d 14) (2 * (df d 1 0 16 + 1))) :
    word16 (gradsAdded q d page s o).mem (foldBase q + dw d 13 + 2 * j) = (convert16 (fmt16 (db d 0 13)) .rne
      ((decodeElem (fmt16 (db d 0 13)) (word16 s.mem (foldBase q + dw d 13 + 2 * j))).add
        (fAdd .zero (o.gScale.getD j .zero)))).code % 65536 := by
  have hadd := word16_addGrads (q := q) (off := dw d 13) (page := page) he hsr (getElem?_gradSums (hg.gScale h0 h40) hj)
  unfold gradsAdded
  simp only [h0, bne_iff_ne.2 h40, Bool.and_self, if_true]
  split
  · next h =>
    refine (word16_addGrads_other (gradSums_length_le ..) ?_).trans hadd
    have := h1 h
    omega
  · exact hadd

/-- The bias gradient takes the row's terms. -/
theorem word16_gradsAdded_bias (h1 : kernelAux1 (df d 0 4 8) = true)
    (ha : Apart (dw d 13) (2 * (df d 1 0 16 + 1)) (dw d 14) (2 * (df d 1 0 16 + 1))) :
    word16 (gradsAdded q d page s o).mem (foldBase q + dw d 14 + 2 * j) = (convert16 (fmt16 (db d 0 13)) .rne
      ((decodeElem (fmt16 (db d 0 13)) (word16 s.mem (foldBase q + dw d 14 + 2 * j))).add
        (fAdd .zero (o.gBias.getD j .zero)))).code % 65536 := by
  obtain ⟨h0, h40⟩ := kernelAux0_of_kernelAux1 h1
  unfold gradsAdded
  simp only [h0, bne_iff_ne.2 h40, Bool.and_self, if_true, h1]
  rw [word16_addGrads (ecc_addGrads he) hsr (getElem?_gradSums (hg.gBias h1) hj),
    word16_addGrads_other (gradSums_length_le ..) (by omega)]

end Added

/-! ## One row with its gradients -/

/-- The state after the one row of a kernel, with its gradient terms added. -/
def rowDone (c : State) (q : Nat) (d : Desc) (key : DrawKey) (page : Page) : State :=
  gradsAdded q d page (c.vecDoRow q d key page 0).1 (vecRow (df d 0 4 8) (c.vecIn q d 0))

section Done
variable {c : State} {q j : Nat} {d : Desc} {key : DrawKey} {page : Page} (hrow : df d 0 4 8 ∈ rowKernels)
include hrow

/-- The row stands at DST, where STAT and the gradient buffers lie apart from it. -/
theorem word16_rowDone_row
    (hs : kernelStat (df d 0 4 8) = true → Apart (dw d 8) (2 * (df d 1 0 16 + 1)) (dw d 10) (statBytes (df d 0 4 8)))
    (h0 : kernelAux0 (df d 0 4 8) = true → df d 0 4 8 ≠ 0x40 →
      Apart (dw d 8) (2 * (df d 1 0 16 + 1)) (dw d 13) (2 * (df d 1 0 16 + 1)))
    (h1 : kernelAux1 (df d 0 4 8) = true → Apart (dw d 8) (2 * (df d 1 0 16 + 1)) (dw d 14) (2 * (df d 1 0 16 + 1)))
    (hj : j < df d 1 0 16 + 1) :
    word16 (rowDone c q d key page).mem (foldBase q + dw d 8 + 2 * j) =
      (convert16 (fmt16 (db d 0 13)) (if db d 0 14 then .sr (draw key j) else .rne)
        ((vecRow (df d 0 4 8) (c.vecIn q d 0)).d.getD j .zero)).code % 65536 := by
  rw [rowDone, word16_gradsAdded_other (fun ha hne => by have := h0 ha hne; omega) (fun ha => by have := h1 ha; omega)]
  exact word16_vecDoRow_row key page (kernelDst_of_rowKernel hrow) (rowGiven_vecRow hrow (rowSized_vecIn ..)) hs hj

/-- The statistics stand at STAT: a kernel that stores any adds to no gradient. -/
theorem word16_rowDone_stats {v : Machine.Num} (hv : (vecRow (df d 0 4 8) (c.vecIn q d 0)).stats[j]? = some v) :
    word16 (rowDone c q d key page).mem (foldBase q + dw d 10 + 4 * j) = (splitPair v).1 % 65536 ∧
    word16 (rowDone c q d key page).mem (foldBase q + dw d 10 + 4 * j + 2) = (splitPair v).2 % 65536 := by
  obtain ⟨h0, h1⟩ := (rowGiven_vecRow hrow (rowSized_vecIn c q d 0)).aux_of_stats hv
  have hother (x : Nat) : word16 (rowDone c q d key page).mem x = word16 (c.vecDoRow q d key page 0).1.mem x :=
    word16_gradsAdded_other (fun ha hne => absurd (h0 ha) hne) (fun ha => absurd (h1.symm.trans ha) (by decide))
  rw [hother, hother, mem_vecDoRow_stats]
  exact splitPair_stored _ _ hv

/-- The row and its statistics leave a gradient buffer apart from DST. -/
theorem word16_buffer {x : Nat} (h0 : kernelAux0 (df d 0 4 8) = true) (h40 : df d 0 4 8 ≠ 0x40)
    (hx : Apart (dw d 8) (2 * (df d 1 0 16 + 1)) x (2 * (df d 1 0 16 + 1))) (hj : j < df d 1 0 16 + 1) :
    word16 (c.vecDoRow q d key page 0).1.mem (foldBase q + x + 2 * j) = word16 c.mem (foldBase q + x + 2 * j) := by
  have hgiven := rowGiven_vecRow hrow (rowSized_vecIn c q d 0)
  exact word16_vecDoRow_other key page hgiven (by omega) (hgiven.stats_of_aux0 h0 h40)

variable (he : c.ecc = []) (hsr : db d 0 14 = false) (hj : j < df d 1 0 16 + 1)
include he hsr hj

theorem word16_rowDone_scale (h0 : kernelAux0 (df d 0 4 8) = true) (h40 : df d 0 4 8 ≠ 0x40)
    (hx : Apart (dw d 8) (2 * (df d 1 0 16 + 1)) (dw d 13) (2 * (df d 1 0 16 + 1)))
    (h1 : kernelAux1 (df d 0 4 8) = true → Apart (dw d 13) (2 * (df d 1 0 16 + 1)) (dw d 14) (2 * (df d 1 0 16 + 1))) :
    word16 (rowDone c q d key page).mem (foldBase q + dw d 13 + 2 * j) = (convert16 (fmt16 (db d 0 13)) .rne
      ((decodeElem (fmt16 (db d 0 13)) (word16 c.mem (foldBase q + dw d 13 + 2 * j))).add
        (fAdd .zero ((vecRow (df d 0 4 8) (c.vecIn q d 0)).gScale.getD j .zero)))).code % 65536 := by
  rw [rowDone, word16_gradsAdded_scale (ecc_vecDoRow _ _ he) (rowGiven_vecRow hrow (rowSized_vecIn ..)) hsr hj h0 h40 h1,
    word16_buffer hrow h0 h40 hx hj]

theorem word16_rowDone_bias (h1 : kernelAux1 (df d 0 4 8) = true)
    (hx : Apart (dw d 8) (2 * (df d 1 0 16 + 1)) (dw d 14) (2 * (df d 1 0 16 + 1)))
    (ha : Apart (dw d 13) (2 * (df d 1 0 16 + 1)) (dw d 14) (2 * (df d 1 0 16 + 1))) :
    word16 (rowDone c q d key page).mem (foldBase q + dw d 14 + 2 * j) = (convert16 (fmt16 (db d 0 13)) .rne
      ((decodeElem (fmt16 (db d 0 13)) (word16 c.mem (foldBase q + dw d 14 + 2 * j))).add
        (fAdd .zero ((vecRow (df d 0 4 8) (c.vecIn q d 0)).gBias.getD j .zero)))).code % 65536 := by
  obtain ⟨h0, h40⟩ := kernelAux0_of_kernelAux1 h1
  rw [rowDone, word16_gradsAdded_bias (ecc_vecDoRow _ _ he) (rowGiven_vecRow hrow (rowSized_vecIn ..)) hsr hj h1 ha,
    word16_buffer hrow h0 h40 hx hj]

end Done

/-! ## Descriptors of one row (R105, R123) -/

section Run
variable {s : State} {q e i : Nat} {w : WinEntry}

/-- A kernel runs its one row, under the draws of its start, and adds its gradient terms. -/
theorem runVec_row {kernels : List Nat} {flips : List (Nat × Nat)} (he : e < 16)
    (hstart : s.startable q (96 + e) = some (i, w)) (hk : df w.desc 0 4 8 ∈ kernels) (hone : df w.desc 2 0 24 = 0) :
    ∃ stop, s.runVec q e kernels flips = (rowDone (vecRead (s.upset flips) q e i w) q w.desc ((s.upset flips).drawsOf q w)
      (qPage .ve q e)).finishEntry q (96 + e) i stop := by
  rw [← drawsOf_startEntry (n := 96 + e) (i := i) (quarter_of_startable_ve he hstart)]
  apply Exists.intro
  unfold State.runVec
  simp only [he, if_true, hstart, List.contains_iff_mem.2 hk, Bool.not_true, Bool.false_eq_true, if_false, hone,
    Nat.zero_add, List.range_one, List.foldl_cons, List.foldl_nil, List.nil_append, List.map_singleton]
  rfl

theorem mem_vecRead (s : State) (q e i : Nat) (w : WinEntry) : (vecRead s q e i w).mem = s.mem :=
  (mem_of_ground (ground_vecRead s q e i w)).trans (mem_startEntry ..)

theorem ecc_vecRead (s : State) (q e i : Nat) (w : WinEntry) : (vecRead s q e i w).ecc = s.ecc :=
  (ecc_of_ground (ground_vecRead s q e i w)).trans (ecc_startEntry ..)

/-- On memory without errors a kernel takes of its row what stands there at its start. -/
theorem vecIn_vecRead (he : s.ecc = []) (d : Desc) : (vecRead s q e i w).vecIn q d 0 = s.vecIn q d 0 :=
  vecIn_of_mem he ((ecc_vecRead ..).trans he) (mem_vecRead ..) q d 0

end Run

/-- The row sources, and the mask, that a kernel takes on memory without errors. -/
theorem vecIn_s0 {a : State} (he : a.ecc = []) (q : Nat) (d : Desc) :
    (a.vecIn q d 0).s0 = (List.range (df d 1 0 16 + 1)).map (rowElem a.mem (fmt16 (db d 0 12)) (foldBase q + dw d 3)) := by
  simp only [State.vecIn, Nat.zero_mul, Nat.add_zero, rowValues_eq_rowElem _ _ _ he]

@[inherit_doc vecIn_s0] theorem vecIn_s1 {a : State} (he : a.ecc = []) (q : Nat) {d : Desc} (h : kernelSrc1 (df d 0 4 8) = true) :
    (a.vecIn q d 0).s1 = (List.range (df d 1 0 16 + 1)).map (rowElem a.mem (fmt16 (db d 0 12)) (foldBase q + dw d 5)) := by
  simp only [State.vecIn, h, if_true, Nat.zero_mul, Nat.add_zero, rowValues_eq_rowElem _ _ _ he]

@[inherit_doc vecIn_s0] theorem vecIn_mask (a : State) (q : Nat) {d : Desc} (h : kernelSoftmax (df d 0 4 8) = false) :
    (a.vecIn q d 0).mask = List.replicate (df d 1 0 16 + 1) true := by
  simp only [State.vecIn, State.vecMask, h, Bool.false_and, Bool.false_eq_true, if_false]

/-- The one value that a reduction gives (R123). -/
theorem stats_rowSum (v : VecIn) : (vecRow 0x30 v).stats = [rowSum v.s0] := rfl
@[inherit_doc stats_rowSum] theorem stats_rowMax (v : VecIn) : (vecRow 0x31 v).stats = [rowMax v.s0] := rfl
@[inherit_doc stats_rowSum] theorem stats_rowSumsq (v : VecIn) :
    (vecRow 0x32 v).stats = [rowSum (v.s0.map (fun x => fMul x x))] := rfl
@[inherit_doc stats_rowSum] theorem stats_rowDot (v : VecIn) : (vecRow 0x33 v).stats = [rowSum (v.s0.zipWith fMul v.s1)] := rfl
@[inherit_doc stats_rowSum] theorem stats_rowLse (v : VecIn) : (vecRow 0x34 v).stats = [lse (rowLse v.mask v.s0)] := rfl

section Commands
variable {t q e i : Nat} {flips : List (Nat × Nat)} {cmd : Instr} {kernels : List Nat} {w : WinEntry} {s : State} (he : e < 16)
  (hexec : exec cmd s = .next ((s.advance t).runVec q e kernels flips)) (hk : df w.desc 0 4 8 ∈ kernels)
  (hstart : (s.advance t).startable q (96 + e) = some (i, w)) (hone : df w.desc 2 0 24 = 0)
  (hclean : Clean ((s.advance t).upset flips))
include he hexec hk hstart hone hclean

/-- A command that runs a reduction stores its one value as a split pair. -/
theorem reduction_completes {v : Machine.Num} (h0 : kernelAux0 (df w.desc 0 4 8) = false) (h1 : kernelAux1 (df w.desc 0 4 8) = false)
    (hv : (vecRow (df w.desc 0 4 8) (((s.advance t).upset flips).vecIn q w.desc 0)).stats = [v]) :
    Completes cmd s (fun u =>
      word16 u.mem (foldBase q + dw w.desc 10) = (splitPair v).1 % 65536 ∧
      word16 u.mem (foldBase q + dw w.desc 10 + 2) = (splitPair v).2 % 65536) := by
  obtain ⟨stop, hrun⟩ := runVec_one (flips := flips) he hstart hk hone h0 h1
  refine ⟨_, hexec.trans (congrArg _ hrun), ?_⟩
  simp only [mem_finishEntry, mem_vecDoRow_stats, vecIn_vecRead hclean.1]
  exact splitPair_stored (j := 0) _ _ (by rw [hv]; rfl)

/-- A command that runs a row kernel leaves what its row, its statistics and its gradients are. -/
theorem rowKernel_completes :
    let a := (s.advance t).upset flips
    ∃ c : State, c.mem = a.mem ∧ c.ecc = [] ∧ c.vecIn q w.desc 0 = a.vecIn q w.desc 0 ∧
      Completes cmd s (fun u => u.mem = (rowDone c q w.desc (a.drawsOf q w) (qPage .ve q e)).mem) := by
  intro a
  obtain ⟨stop, hrun⟩ := runVec_row (flips := flips) he hstart hk hone
  exact ⟨vecRead a q e i w, mem_vecRead .., (ecc_vecRead ..).trans hclean.1, vecIn_vecRead hclean.1 _,
    _, hexec.trans (congrArg _ hrun), mem_finishEntry ..⟩

end Commands

/-- Settles O26: a reduction by the one value that its kernel gives, and a row kernel by its row, its record and its sums. -/
theorem rowKernelsStoreStatisticsAndGradients : Obligations.RowKernelsStoreStatisticsAndGradients := by
  constructor
  · intro t q e flips cmd k i w s a d n x v hmem hk he hstart hone hclean
    have hrow (hlo : 0x30 ≤ k) (hhi : k ≤ 0x34) (hexec : exec cmd s = .next ((s.advance t).runVec q e [k] flips))
        (hv : (vecRow k (a.vecIn q d 0)).stats = [v]) :=
      reduction_completes he hexec (by rw [hk]; exact List.mem_singleton_self k) hstart hone hclean
        (by rw [hk]; simp [kernelAux0]; omega) (by rw [hk]; simp [kernelAux1]; omega) (by rw [hk]; exact hv)
    have hs0 : (a.vecIn q d 0).s0 = x (dw d 3) := vecIn_s0 hclean.1 q d
    simp only [List.mem_cons, Prod.mk.injEq, List.not_mem_nil, or_false] at hmem
    obtain ⟨rfl, rfl⟩ | ⟨rfl, rfl⟩ | ⟨rfl, rfl⟩ | ⟨rfl, rfl⟩ | ⟨rfl, rfl⟩ := hmem
    · exact hrow (by decide) (by decide) rfl (by rw [stats_rowSum, hs0]; rfl)
    · exact hrow (by decide) (by decide) rfl (by rw [stats_rowMax, hs0]; rfl)
    · exact hrow (by decide) (by decide) rfl (by rw [stats_rowSumsq, hs0]; rfl)
    · have hs1 : (a.vecIn q d 0).s1 = x (dw d 5) := vecIn_s1 hclean.1 q (by rw [hk]; decide)
      exact hrow (by decide) (by decide) rfl (by rw [stats_rowDot, hs0, hs1]; rfl)
    · have hmask : (a.vecIn q d 0).mask = List.replicate n true := vecIn_mask a q (by rw [hk]; decide)
      exact hrow (by decide) (by decide) rfl (by rw [stats_rowLse, hs0, hmask]; rfl)
  · intro t q e flips cmd k i w s a d n base o fo hmem hk he hstart hone hclean hstat haux0 haux1
    have hcmd : exec cmd s = .next ((s.advance t).runVec q e [k] flips) ∧ k ∈ rowKernels := by
      simp only [List.mem_cons, Prod.mk.injEq, List.not_mem_nil, or_false] at hmem
      obtain ⟨rfl, rfl⟩ | ⟨rfl, rfl⟩ | ⟨rfl, rfl⟩ | ⟨rfl, rfl⟩ | ⟨rfl, rfl⟩ | ⟨rfl, rfl⟩ | ⟨rfl, rfl⟩ | ⟨rfl, rfl⟩ |
        ⟨rfl, rfl⟩ | ⟨rfl, rfl⟩ := hmem <;> exact ⟨rfl, by decide⟩
    obtain ⟨hexec, hrow⟩ := hcmd
    subst hk
    obtain ⟨c, hmem, hecc, hin, u, hu, hdone⟩ :=
      rowKernel_completes he hexec (List.mem_singleton_self _) hstart hone hclean
    refine ⟨u, hu, ?_, ?_, ?_, ?_⟩
    · intro j hj
      rw [hdone, word16_rowDone_row hrow hstat haux0 (fun h => (haux1 h).1) hj, hin]
    · intro j v hv
      rw [hdone]
      exact word16_rowDone_stats hrow (by rw [hin]; exact hv)
    · intro h0 h40 hsr j hj
      rw [hdone, word16_rowDone_scale hrow hecc hsr hj h0 h40 (haux0 h0 h40) (fun h => (haux1 h).2), hin, hmem]
    · intro h1 hsr j hj
      obtain ⟨hx, ha⟩ := haux1 h1
      rw [hdone, word16_rowDone_bias hrow hecc hsr hj h1 hx ha, hin, hmem]

end Sys2Proof.Proofs
end

section
/-! PROOFS. What an engine's run leaves beside its ground, and the stacks while nothing waits at them. -/

namespace Sys2Proof.Proofs
open Sys2Proof Sys2Proof.Machine Sys2Proof.Laws

/-! ## What a run in the Fold leaves beside the ground

An engine's start and end, its records, and its reads and writes of the Fold leave all of the quarters' tables but the queues
and the Fold's scheduler, and they leave the stacks and what training keeps. -/

/-- The quarters' tables but the queues and the Fold's scheduler, what training keeps, and the stacks. -/
structure Rest where
  tables : Compute
  train : Train
  stackUnits : List (Nat × Stack)

/-- The rest of a state. -/
def rest (s : State) : Rest := ⟨{ s.compute with queues := [], fold := {} }, s.train, s.stackUnits⟩

section Rest
variable (s : State)

theorem rest_regs (rs : List (Nat × Word)) : rest { s with regs := rs } = rest s := rfl
theorem rest_events (x : Events) : rest { s with events := x } = rest s := rfl
theorem rest_mig (x : Mig) : rest { s with mig := x } = rest s := rfl
theorem rest_mem (m : List Host.Cell) : rest { s with mem := m } = rest s := rfl

@[simp] theorem rest_ite {c : Prop} [Decidable c] (t u : State) : rest (if c then t else u) = if c then rest t else rest u :=
  apply_ite rest c t u

@[simp] theorem rest_setNum (p : Page) (off v : Nat) : rest (s.setNum p off v) = rest s := by simp [rest]
@[simp] theorem rest_setBit (p : Page) (off i : Nat) (b : Bool) : rest (s.setBit p off i b) = rest s := by simp [rest]
@[simp] theorem rest_setNum64 (p : Page) (lo hi v : Nat) : rest (s.setNum64 p lo hi v) = rest s := by simp [rest]
@[simp] theorem rest_addSat (p : Page) (off n : Nat) : rest (s.addSat p off n) = rest s := by simp [rest]
@[simp] theorem rest_setFold (x : FoldSched) : rest (s.setFold x) = rest s := rfl
@[simp] theorem rest_setEcc (c v : Nat) : rest (s.setEcc c v) = rest s := rfl
@[simp] theorem rest_setEntry (q n i : Nat) (w : WinEntry) : rest (s.setEntry q n i w) = rest s := rfl

@[simp] theorem rest_raise (p : Page) (bit : Nat) : rest (s.raise p bit) = rest s := by
  obtain ⟨_, _, _, _, h⟩ := raise_fields s p bit
  rw [h]
  rfl

@[simp] theorem rest_raiseIf (c : Bool) (p : Page) (bit : Nat) : rest (s.raiseIf c p bit) = rest s := by simp [State.raiseIf]

@[simp] theorem rest_traceEvent (q n event code tag : Nat) : rest (s.traceEvent q n event code tag) = rest s := by
  simp [State.traceEvent, ↓rest_events]

@[simp] theorem rest_openRound (n : Nat) (d : Desc) : rest (s.openRound n d) = rest s := by
  simp [State.openRound, State.phaseStart, ↓rest_mig]

@[simp] theorem rest_startEntry (q n i : Nat) (w : WinEntry) : rest (s.startEntry q n i w) = rest s := by
  simp [State.startEntry]

@[simp] theorem rest_finishEntry (q n i stop : Nat) : rest (s.finishEntry q n i stop) = rest s := by
  unfold State.finishEntry
  split
  · rfl
  · rfl

@[simp] theorem rest_upset (flips : List (Nat × Nat)) : rest (s.upset flips) = rest s := by
  unfold State.upset
  exact foldl_same rest (fun t f _ => rest_setEcc t _ _) s

variable {a : Nat}

theorem rest_settleCodeword (way : Option Nat) (c cover : Nat) (merge : Bool) (h : AboveStacks (16 * c)) :
    rest (s.settleCodeword way c cover merge) = rest s := by
  unfold State.settleCodeword
  obtain hr | ⟨q, o, hr⟩ | ⟨o, hr⟩ := regionOf_aboveStacks h
  · simp [hr]
  · simp [hr]
  · simp [hr]

theorem rest_dropWriteBacks (n : Nat) (h : AboveStacks a) : rest (s.dropWriteBacks a n) = rest s := by
  have hline : stackPlace (a / 64 * 64) = none := stackPlace_aboveStacks (show AboveStacks _ by omega)
  unfold State.dropWriteBacks
  dsimp only
  split
  · rfl
  · split
    · simp
    · exact foldl_same rest (fun t i _ => by simp [hline]) s

/-- Bytes written above the stacks leave the rest. -/
theorem rest_writeBytes (bs : List Byte) (h : AboveStacks a) : rest (s.writeBytes a bs) = rest s := by
  unfold State.writeBytes State.writeBytesBy
  dsimp only
  rw [rest_mem, rest_dropWriteBacks _ _ h, flush_aboveStacks s _ h]
  refine foldl_same rest (fun t l hl => ?_) s
  have hl' := aboveStacks_of_mem_linesOf h hl
  exact foldl_same rest (fun u i _ => rest_settleCodeword u _ _ _ _ (by omega)) t

theorem rest_writeNat (n v : Nat) (h : AboveStacks a) : rest (s.writeNat a n v) = rest s := rest_writeBytes s _ h

theorem rest_putRow16 (codes : List (Option Nat)) (h : AboveStacks a) : rest (s.putRow16 a codes) = rest s := by
  unfold State.putRow16
  split
  · exact rest_writeBytes s _ h
  · refine foldl_same rest (fun t c _ => ?_) s
    split
    · rfl
    · exact rest_writeNat t _ _ (Nat.le_add_right_of_le h)

theorem rest_putBlock (f : Fmt) (len b : Nat) {elem scale : Nat} (o : BlockOut) (he : AboveStacks elem) (hs : AboveStacks scale) :
    rest (s.putBlock f len elem scale b o) = rest s := by
  unfold State.putBlock
  exact (rest_writeNat _ _ _ (Nat.le_add_right_of_le hs)).trans (rest_writeNat _ _ _ (Nat.le_add_right_of_le he))

theorem rest_putConvRow (m : ConvMode) {elem scale : Nat} (r : ConvRow) (he : AboveStacks elem) (hs : AboveStacks scale) :
    rest (s.putConvRow m elem scale r) = rest s := by
  unfold State.putConvRow
  split
  · refine foldl_same rest (fun t b _ => ?_) s
    split
    · rfl
    · exact rest_putBlock t _ _ _ _ he hs
  · exact rest_putRow16 s _ he

theorem rest_noteCodewordBy (cw : Nat) (way : Option Nat) (queue : Bool) (h : AboveStacks (16 * cw / 64 * 64)) :
    rest (s.noteCodewordBy cw way queue) = rest s := by
  unfold State.noteCodewordBy
  split
  · rfl
  · dsimp only
    split
    · split
      · rfl
      · split <;> simp
      · simp
      · simp
    · rw [stackPlace_aboveStacks h]

/-- An engine's reads of the Fold leave the rest. -/
theorem rest_engineReads (p : Page) {l : List (Nat × Nat)} (h : ∀ r ∈ l, AboveStacks r.1) :
    rest (s.engineReads p l) = rest s := by
  unfold State.engineReads
  rw [rest_raiseIf]
  refine foldl_same rest (fun t r hr => ?_) s
  unfold State.noteReadBy
  rw [flush_aboveStacks t _ (h r hr)]
  refine foldl_same rest (fun u l hl => ?_) t
  have hline := aboveStacks_of_mem_linesOf (h r hr) hl
  have haccess : (u.lineAccess (some (p.win, 0)) false false l).1 = u := by simp [State.lineAccess, stackPlace_aboveStacks hline]
  dsimp only
  rw [haccess]
  exact foldl_same rest (fun v c _ => rest_noteCodewordBy v _ _ _ (by omega)) u

end Rest

theorem mangles_of_rest {s t : State} (h : rest t = rest s) (q : Nat) : t.mangles q = s.mangles q :=
  congrArg (fun r : Rest => mapGet (fun _ => ({} : Mangles)) r.tables.mangles q) h

theorem bins_of_rest {s t : State} (h : rest t = rest s) : t.compute.bins = s.compute.bins := congrArg (fun r => r.tables.bins) h

theorem bin_of_rest {s t : State} (h : rest t = rest s) (q so id b : Nat) : t.bin q so id b = s.bin q so id b := by
  rw [State.bin, bins_of_rest h, ← State.bin]

theorem ueLines_of_rest {s t : State} (h : rest t = rest s) : t.train.ueLines = s.train.ueLines :=
  congrArg (fun r => r.train.ueLines) h

/-! ## The stacks while nothing waits at them (R213 to R215, R219) -/

/-- No error is stored, no line waits for its page mend, and every access assigned at a stack is performed. -/
structure Quiet (s : State) : Prop where
  ecc : s.ecc = []
  ueLines : s.train.ueLines = []
  reqs : ∀ e ∈ s.stackUnits, ∀ r ∈ e.2.reqs, r.done_ = true

theorem quiet_of_clean {s : State} (h : Clean s) (hu : s.train.ueLines = []) : Quiet s where
  ecc := h.1
  ueLines := hu
  reqs e he r hr := by
    have hnone : e.2.reqs = [] := (h.2.2 e he).2.1
    simp [hnone] at hr

/-- What leaves the errors and the rest keeps a state quiet. -/
theorem Quiet.of_rest {s t : State} (hq : Quiet s) (hecc : t.ecc = s.ecc) (h : rest t = rest s) : Quiet t where
  ecc := hecc.trans hq.ecc
  ueLines := (ueLines_of_rest h).trans hq.ueLines
  reqs := by
    have hunits : t.stackUnits = s.stackUnits := congrArg Rest.stackUnits h
    rw [hunits]
    exact hq.reqs

theorem mapGet_holds {α : Type} {P : α → Prop} {d : Nat → α} {m : List (Nat × α)} (hd : ∀ k, P (d k)) (hm : ∀ e ∈ m, P e.2) (k : Nat) :
    P (mapGet d m k) := by
  induction m with
  | nil => exact hd k
  | cons e m ih =>
    rw [mapGet]
    split
    · exact hm e (by simp)
    · exact ih (fun x hx => hm x (by simp [hx]))

theorem mapSet_holds {α : Type} [DecidableEq α] {P : α → Prop} {d : Nat → α} {m : List (Nat × α)} {k : Nat} {v : α}
    (hm : ∀ e ∈ m, P e.2) (hv : P v) : ∀ e ∈ mapSet d m k v, P e.2 := by
  have herase : ∀ e ∈ mapErase m k, P e.2 := fun e he => hm e (List.mem_of_mem_filter he)
  unfold mapSet
  split
  · exact herase
  · intro e he
    obtain rfl | he := (mapInsert_mem _ k v e).1 he
    · exact hv
    · exact herase e he

theorem assign_performed {x : Stack} (hx : ∀ r ∈ x.reqs, r.done_ = true) (p : StackPlace) (now first : Nat) {r : MemReq}
    (hr : r.done_ = true) : ∀ o ∈ (x.assign p now first r).2.1.reqs, o.done_ = true := by
  intro o ho
  simp only [Stack.assign, List.mem_append, List.mem_singleton] at ho
  obtain ho | rfl := ho
  · exact hx o (List.mem_of_mem_filter ho)
  · exact hr

section Quiet
variable {s : State} (hq : Quiet s)
include hq

theorem Quiet.stack (q n : Nat) : ∀ r ∈ (s.stack q n).reqs, r.done_ = true :=
  mapGet_holds (P := fun x : Stack => ∀ r ∈ x.reqs, r.done_ = true) (fun _ r hr => by simp at hr) hq.reqs _

/-- A stack may be replaced by one whose accesses are performed. -/
theorem Quiet.setStack (q n : Nat) {x : Stack} (hx : ∀ r ∈ x.reqs, r.done_ = true) : Quiet (s.setStack q n x) :=
  ⟨hq.ecc, hq.ueLines, by
    show ∀ e ∈ mapSet (fun _ => ({} : Stack)) s.stackUnits (8 * q + n) x, ∀ r ∈ e.2.reqs, r.done_ = true
    exact mapSet_holds (P := fun x : Stack => ∀ r ∈ x.reqs, r.done_ = true) hq.reqs hx⟩

theorem Quiet.setStack_of_reqs (q n : Nat) {x : Stack} (hx : x.reqs = (s.stack q n).reqs) : Quiet (s.setStack q n x) :=
  hq.setStack q n (by rw [hx]; exact hq.stack q n)

theorem Quiet.ite {c : Prop} [Decidable c] {t : State} (ht : Quiet t) : Quiet (if c then t else s) := by
  split
  · exact ht
  · exact hq

theorem Quiet.setFold (x : FoldSched) : Quiet (s.setFold x) := hq.of_rest rfl rfl

theorem Quiet.addSat (p : Page) (off n : Nat) : Quiet (s.addSat p off n) := hq.of_rest (by simp) (by simp)

theorem Quiet.raiseIf (c : Bool) (p : Page) (bit : Nat) : Quiet (s.raiseIf c p bit) :=
  hq.of_rest (ecc_of_ground (ground_raiseIf ..)) (by simp)

theorem quiet_startEntry (q n i : Nat) (w : WinEntry) : Quiet (s.startEntry q n i w) :=
  hq.of_rest (ecc_startEntry ..) (rest_startEntry ..)

/-- No page mend starts at the end of an entry. -/
theorem settled_finishEntry (q n i stop : Nat) : settled (s.finishEntry q n i stop) = .next (s.finishEntry q n i stop) :=
  settled_of_no_ueLines ((ueLines_of_rest (rest_finishEntry ..)).trans hq.ueLines)

/-- Nothing waits, so nothing is performed. -/
theorem flush_of_quiet (a n : Nat) : s.flush a n = s := by
  unfold State.flush
  split
  · rfl
  · refine List.foldlRecOn (motive := (· = s)) _ _ rfl (fun t ht l _ => ?_)
    subst ht
    unfold State.flushLine
    split
    · rfl
    · next p _ =>
      dsimp only
      refine if_neg (fun h => ?_)
      obtain ⟨r, hr, hmine⟩ := List.any_eq_true.1 h
      simp [State.mayPerform, hq.stack _ _ r hr] at hmine

theorem quiet_lineAccess (via : Option (Nat × Nat)) (write merge : Bool) (line : Nat) : Quiet (s.lineAccess via write merge line).1 := by
  unfold State.lineAccess
  split
  · exact hq
  · dsimp only
    split
    · exact hq
    · refine Quiet.addSat (Quiet.addSat (Quiet.addSat (hq.setStack _ _ ?_) _ _ _) _ _ _) _ _ _
      intro r hr
      obtain ⟨o, ho, rfl⟩ := List.mem_map.1 hr
      have hdone : o.done_ = true := by
        refine assign_performed ?_ _ _ _ ?_ o ho
        · exact hq.stack _ _
        · rfl
      exact (apply_ite MemReq.done_ _ _ _).trans ((ite_self _).trans hdone)

theorem quiet_noteReadBy (via : Option (Nat × Nat)) (a n : Nat) : Quiet (s.noteReadBy via a n) := by
  unfold State.noteReadBy
  rw [flush_of_quiet hq]
  refine List.foldlRecOn (motive := Quiet) _ _ hq (fun t ht l _ => ?_)
  have h := quiet_lineAccess ht via false false l
  dsimp only
  rwa [noteLine_of_no_ecc h.ecc]

theorem quiet_engineReads (p : Page) (l : List (Nat × Nat)) : Quiet (s.engineReads p l) := by
  unfold State.engineReads
  exact Quiet.raiseIf (List.foldlRecOn (motive := Quiet) _ _ hq (fun t ht r _ => quiet_noteReadBy ht _ _ _)) _ _ _

theorem ground_noteReadBy_of_quiet (via : Option (Nat × Nat)) (a n : Nat) : ground (s.noteReadBy via a n) = ground s := by
  unfold State.noteReadBy
  rw [flush_of_quiet hq]
  exact foldl_same ground (by simp) s

theorem ground_engineReads_of_quiet (p : Page) (l : List (Nat × Nat)) : ground (s.engineReads p l) = ground s := by
  unfold State.engineReads
  rw [ground_raiseIf]
  exact (List.foldlRecOn (motive := fun t => Quiet t ∧ ground t = ground s) l _ ⟨hq, rfl⟩
    (fun t ht r _ => ⟨quiet_noteReadBy ht.1 _ _ _, (ground_noteReadBy_of_quiet ht.1 _ _ _).trans ht.2⟩)).2

/-- A read while nothing waits delivers the bytes that are there. -/
theorem readBytes_of_quiet (a n : Nat) : s.readBytes a n = memBytes s.mem a n := by
  unfold State.readBytes State.readMarked
  rw [flush_of_quiet hq]
  obtain rfl | hn := Nat.eq_zero_or_pos n
  · simp [memBytes]
  · have hlen : 16 * ((a + n - 1) / 16 + 1 - a / 16) = a % 16 + (n + (16 * ((a + n - 1) / 16 + 1) - (a + n))) := by omega
    have haddr : 16 * (a / 16) + a % 16 = a := by omega
    simp only [codewordsOf, hn.ne', if_false, List.map_take, List.map_drop, List.map_flatMap, List.map_map, Function.comp_def,
      List.map_id', codeword_of_no_ecc hq.ecc]
    rw [flatMap_codewords, hlen, drop_memBytes, haddr, take_memBytes]

theorem quiet_dropWriteBacks (a n : Nat) : Quiet (s.dropWriteBacks a n) := by
  unfold State.dropWriteBacks
  dsimp only
  split
  · exact hq
  · split
    · split
      · exact hq
      · exact (hq.setFold _).addSat _ _ _
    · refine List.foldlRecOn (motive := Quiet) _ _ hq (fun t ht i _ => ?_)
      split
      · exact ht
      · generalize hu : (if List.any _ _ = true then t.setStack _ _ _ else t) = u
        have hquiet : Quiet u := by
          rw [← hu]
          exact ht.ite (ht.setStack_of_reqs _ _ rfl)
        split
        · exact hquiet
        · refine Quiet.addSat (hquiet.setStack_of_reqs _ _ ?_) _ _ _
          rfl

/-- A write while nothing waits is the bytes written. -/
theorem mem_writeBytesBy_of_quiet (ways : List (Nat × Option Nat)) (a : Nat) (bs : List Byte) :
    (s.writeBytesBy ways a bs).mem = memPut s.mem a bs := by
  rw [writeBytesBy_of_no_ecc hq.ecc _ _ (flush_of_quiet hq ..)]

theorem quiet_writeBytesBy (ways : List (Nat × Option Nat)) (a : Nat) (bs : List Byte) : Quiet (s.writeBytesBy ways a bs) := by
  rw [writeBytesBy_of_no_ecc hq.ecc _ _ (flush_of_quiet hq ..)]
  exact (quiet_dropWriteBacks hq a bs.length).of_rest rfl rfl

theorem quiet_countWrites (via : Option (Nat × Nat)) (a n : Nat) :
    Quiet (s.countWrites via a n).1 ∧ ground (s.countWrites via a n).1 = ground s := by
  unfold State.countWrites
  rw [flush_of_quiet hq]
  exact List.foldlRecOn (motive := fun r : State × List (Nat × Option Nat) => Quiet r.1 ∧ ground r.1 = ground s) _ _ ⟨hq, rfl⟩
    (fun r hr l _ => ⟨quiet_lineAccess hr.1 _ _ _ _, (ground_lineAccess ..).trans hr.2⟩)

end Quiet

/-- Bytes without marks mark no codeword. -/
theorem markPoison_unmarked (s : State) (a : Nat) (bs : List Byte) : s.markPoison a (bs.map (fun b => (b, false))) = s := by
  unfold State.markPoison
  refine List.foldlRecOn (motive := (· = s)) _ _ rfl (fun t ht p hp => ?_)
  obtain ⟨b, -, hb⟩ := List.mem_map.1 (List.mem_zipIdx_iff_getElem?.1 hp |> List.mem_of_getElem?)
  rw [← hb]
  exact ht

/-! ## What an engine's writes leave -/

/-- From a quiet state on, the units are left, and every byte of which P holds. -/
structure Leaves (P : Nat → Prop) (s t : State) : Prop where
  quiet : Quiet t
  units : (ground t).units = (ground s).units
  mem : ∀ y, P y → memGet t.mem y = memGet s.mem y

section Leaves
variable {P : Nat → Prop} {s t : State}

theorem Leaves.refl (hq : Quiet s) : Leaves P s s := ⟨hq, rfl, fun _ _ => rfl⟩

theorem Leaves.foldl {α : Type} {f : State → α → State} {l : List α} (hf : ∀ u, Leaves P s u → ∀ x ∈ l, Leaves P s (f u x))
    (h : Leaves P s t) : Leaves P s (l.foldl f t) :=
  List.foldlRecOn (motive := Leaves P s) l f h hf

variable (h : Leaves P s t)
include h

/-- What leaves the ground and the rest. -/
theorem Leaves.of_ground {u : State} (hg : ground u = ground t) (hr : rest u = rest t) : Leaves P s u :=
  ⟨h.quiet.of_rest (ecc_of_ground hg) hr, (congrArg Ground.units hg).trans h.units, fun y hy => by rw [mem_of_ground hg, h.mem y hy]⟩

theorem Leaves.engineReads (p : Page) (l : List (Nat × Nat)) : Leaves P s (t.engineReads p l) where
  quiet := quiet_engineReads h.quiet p l
  units := (units_engineReads ..).trans h.units
  mem y hy := by rw [mem_of_ground (ground_engineReads_of_quiet h.quiet p l), h.mem y hy]

theorem Leaves.writeBytesBy (ways : List (Nat × Option Nat)) {a : Nat} {bs : List Byte} (hP : ∀ y, P y → Apart y 1 a bs.length) :
    Leaves P s (t.writeBytesBy ways a bs) where
  quiet := quiet_writeBytesBy h.quiet ways a bs
  units := by
    rw [writeBytesBy_of_no_ecc h.quiet.ecc _ _ (flush_of_quiet h.quiet ..), units_mem, ground_dropWriteBacks, h.units]
  mem y hy := by rw [mem_writeBytesBy_of_quiet h.quiet, memGet_put_other _ _ _ _ (by have := hP y hy; omega), h.mem y hy]

theorem Leaves.writeBytes {a : Nat} {bs : List Byte} (hP : ∀ y, P y → Apart y 1 a bs.length) : Leaves P s (t.writeBytes a bs) :=
  h.writeBytesBy [] hP

theorem Leaves.writeNat {a n : Nat} (v : Nat) (hP : ∀ y, P y → Apart y 1 a n) : Leaves P s (t.writeNat a n v) :=
  h.writeBytes (by rwa [leBytes_length])

theorem Leaves.putBlock {f : Fmt} {len elem scale b : Nat} (o : BlockOut)
    (hP : ∀ y, P y → Apart y 1 (elem + b * fieldBytes f len) (fieldBytes f len) ∧ Apart y 1 (scale + b) 1) :
    Leaves P s (t.putBlock f len elem scale b o) :=
  (h.writeNat _ (fun y hy => (hP y hy).1)).writeNat _ (fun y hy => (hP y hy).2)

/-- A write of an engine to any address is made at once, or waits for a lease (R158). -/
theorem Leaves.memPutBytes {o : Nat × Nat × Nat} (ho : o.2.1 < 160) {a : Nat} {bs : List Byte}
    (hP : ∀ y, P y → Apart y 1 a bs.length) : Leaves P s (t.memPutBytes (some o) a bs) := by
  have hown : byProgram (some o) = false := by simp [byProgram, ho]
  unfold State.memPutBytes State.memWrite
  split
  · exact h.of_ground rfl rfl
  · have hfst : (bs.map (fun b => (b, false))).map Prod.fst = bs := by simp [Function.comp_def]
    unfold State.putWrite State.writeMarkedBy
    dsimp only
    rw [hown, if_neg (by decide), markPoison_unmarked, hfst]
    obtain ⟨hquiet, hground⟩ := quiet_countWrites h.quiet
      ((some o).bind (fun o => if o.1 < 4 then some (portOf o.1 o.2.1) else none)) a (bs.map (fun b => (b, false))).length
    refine Leaves.writeBytesBy ?_ _ hP
    exact ⟨hquiet, by rw [hground, h.units], fun y hy => by rw [mem_of_ground hground, h.mem y hy]⟩

end Leaves

end Sys2Proof.Proofs
end

section
/-! PROOFS. Mangles and sorters: a matrix written by its columns, and histograms written bin by bin. -/

namespace Sys2Proof.Proofs
open Sys2Proof Sys2Proof.Machine Sys2Proof.Laws

/-! ## A transposed matrix (R77, R130) -/

/-- Row j of the transpose of the 16-bit codes of a matrix, none where their line is poisoned. -/
def transposedRow (cells : List (List (Option Nat))) (m : ConvMode) (src : Fmt) (key : DrawKey) (j : Nat) : ConvRow :=
  let column := cells.map (fun row => (row[j]?).getD none)
  if m.f.isBlock then convRow m key j (column.map (fun v => some ((v.map (decodeElem src)).getD .nan)))
  else { elems := column.map (fun v => some (match v with
          | some code => { code := code }
          | none => { code := src.nanCode, nan := true })) }

/-- The rows of a transpose, each written at its place. -/
def putTransposed (m : ConvMode) (q : Nat) (d : Desc) (rows : List ConvRow) (s : State) : State :=
  rows.zipIdx.foldl (fun s o => s.putConvRow m (rowAt q d 5 o.2) (rowAt q d 7 o.2) o.1) s

section Transposed
variable {m : ConvMode} {q : Nat} {d : Desc} {rows : List ConvRow} {s : State}

theorem units_putTransposed : (ground (putTransposed m q d rows s)).units = (ground s).units :=
  foldl_same (fun t => (ground t).units) (fun _ _ _ => units_putConvRow ..) s

theorem rest_putTransposed : rest (putTransposed m q d rows s) = rest s :=
  foldl_same rest (fun t o _ => rest_putConvRow t m o.1 (aboveStacks_rowAt q d 5 o.2) (aboveStacks_rowAt q d 7 o.2)) s

/-- Rows of n 16-bit elements, at least their length apart: each element is written at its place. -/
theorem word16_putTransposed {n j k : Nat} {c : ConvRow} {v : Conv} (hf : m.f.isBlock = false)
    (hlen : ∀ c ∈ rows, c.elems.length = n) (hd : 2 * n ≤ dw d 6) (hrow : rows[j]? = some c) (hv : c.elems[k]? = some (some v))
    (hk : k < n) : word16 (putTransposed m q d rows s).mem (rowAt q d 5 j + 2 * k) = v.code % 65536 := by
  refine foldl_zipIdx_holds (P := fun t : State => word16 t.mem (rowAt q d 5 j + 2 * k) = _) hrow (fun t => ?_)
    (fun t p hp hne ht => ?_) s
  · rw [Nat.zero_add, mem_putConvRow_scalar t c hf (aboveStacks_rowAt q d 5 j)]
    exact word16_putWords _ _ _ _ _ (by simp [hv])
  · have hmem : p.1 ∈ rows := List.mem_of_getElem? (List.mem_zipIdx_iff_getElem?.1 hp)
    rw [mem_putConvRow_scalar t p.1 hf (aboveStacks_rowAt q d 5 p.2), word16_putWords_other]
    · exact ht
    · have hplace : p.2 * dw d 6 + 2 * n ≤ j * dw d 6 ∨ j * dw d 6 + 2 * n ≤ p.2 * dw d 6 := by
        obtain hlt | hgt := Nat.lt_or_gt_of_ne (show p.2 ≠ j by simpa using hne)
        · have := Nat.mul_le_mul_right (dw d 6) (show p.2 + 1 ≤ j from hlt)
          rw [Nat.succ_mul] at this
          omega
        · have := Nat.mul_le_mul_right (dw d 6) (show j + 1 ≤ p.2 from hgt)
          rw [Nat.succ_mul] at this
          omega
      rw [List.length_map, hlen _ hmem]
      simp only [rowAt, Nat.reduceAdd]
      omega

end Transposed

theorem word16_lt (m : List Host.Cell) (x : Nat) : word16 m x < 65536 := by
  have h0 := (memGet m x).isLt
  have h1 := (memGet m (x + 1)).isLt
  simp only [word16, memBytes, List.range_succ, List.range_zero, List.nil_append, List.cons_append, List.map_cons, List.map_nil, leNat,
    Nat.add_zero, Nat.mul_zero]
  omega

/-- The codes of a row of memory without errors. -/
theorem row16_of_no_ecc {s : State} {a : Nat} (n : Nat) (h : AboveStacks a) (he : s.ecc = []) :
    s.row16 a n = (List.range n).map (fun i => some (word16 s.mem (a + 2 * i))) := by
  refine List.map_congr_left (fun i _ => ?_)
  simp [linePoisoned_of_no_ecc he, readNat_of_no_ecc he 2 (show AboveStacks (a + 2 * i) from Nat.le_add_right_of_le h), word16]

/-- Rows and columns of the matrix of a transpose descriptor (R130). -/
abbrev matrixRows (d : Desc) : Nat := 32 * (df d 1 0 16 + 1)
@[inherit_doc matrixRows] abbrev matrixCols (d : Desc) : Nat := 32 * (df d 2 0 16 + 1)

/-- The mode of a transpose: LOCAL blocks without headroom, to the nearest (R130). -/
def transposeMode (d : Desc) : ConvMode :=
  { f := (fmtOf (df d 0 5 4)).getD .bf16, bsz := db d 0 9, sr := false, headroom := 0, infTop := (fmt16 (db d 0 4)).infAmax,
    code := none }

/-- The rows that a transpose writes, from the codes that it reads. -/
def transposedRows (s : State) (q : Nat) (d : Desc) : List ConvRow :=
  let cells := (List.range (matrixRows d)).map (fun k => s.row16 (rowAt q d 3 k) (matrixCols d))
  (List.range (matrixCols d)).map
    (transposedRow cells (transposeMode d) (fmt16 (db d 0 4)) { seed := 0, streamTag := 0, step := 0, salt := 0 })

/-- A column of the source, as the elements of a row that is not converted. -/
def columnElems (m : List Host.Cell) (q : Nat) (d : Desc) (j : Nat) : List (Option Conv) :=
  (List.range (matrixRows d)).map (fun k => some { code := word16 m (rowAt q d 3 k + 2 * j) })

/-- Row j of the transpose of 16-bit memory without errors is column j. -/
theorem getElem?_transposedRows {s : State} {q : Nat} {d : Desc} {j : Nat} (hf : (transposeMode d).f.isBlock = false) (he : s.ecc = [])
    (hj : j < matrixCols d) : (transposedRows s q d)[j]? = some { elems := columnElems s.mem q d j } := by
  simp only [transposedRows, List.getElem?_map, List.getElem?_range hj, Option.map_some, transposedRow, hf, Bool.false_eq_true,
    if_false, columnElems, List.map_map]
  refine congrArg (fun l => some ({ elems := l } : ConvRow)) (List.map_congr_left (fun k _ => ?_))
  simp [row16_of_no_ecc (matrixCols d) (aboveStacks_rowAt q d 3 k) he, hj]

theorem transposedRows_length (s : State) (q : Nat) (d : Desc) : (transposedRows s q d).length = matrixCols d := by simp [transposedRows]

/-- The mangle's claim is given up; the mangle is busy up to `stop`. -/
def claimDropped (s : State) (q who stop : Nat) : State :=
  let ms := s.mangles q
  s.setMangles q { ms with served := ms.served.filter (fun e => e.1 != who)
                           busy := ms.busy.map (fun u => if u.who = who then { u with until_ := stop } else u) }

theorem served_claimDropped (s : State) (q who stop : Nat) :
    ((claimDropped s q who stop).mangles q).served.any (fun e => e.1 == who) = false := by
  rw [claimDropped, mangles_setMangles_same]
  simp

theorem served_claimNext (s : State) (q n : Nat) : ((s.claimNext q n).mangles q).served = (s.mangles q).served := by
  unfold State.claimNext
  split
  · rfl
  · dsimp only
    split
    · rfl
    · rw [mangles_setMangles_same]

/-- The state that a transpose has written, from the one at which its errors were found. -/
def transposed (a : State) (q m i : Nat) (w : WinEntry) (stop : Nat) : State :=
  let b := (claimDropped a q (96 + m) stop).startEntry q (120 + m) i w
  putTransposed (transposeMode w.desc) q w.desc (transposedRows b q w.desc) (b.engineReads (qPage .mg q m)
    ((List.range (matrixRows w.desc)).map (fun k => (rowAt q w.desc 3 k, 2 * matrixCols w.desc))))

section Transpose
variable {a s : State} {t q m i stop : Nat} {flips : List (Nat × Nat)} {w : WinEntry}

theorem aboveStacks_matrixReads {q : Nat} {d : Desc} {r c : Nat} :
    ∀ x ∈ (List.range r).map (fun k => (rowAt q d 3 k, c)), AboveStacks x.1 := by
  intro x hx
  obtain ⟨k, -, rfl⟩ := List.mem_map.1 hx
  exact aboveStacks_rowAt q d 3 k

theorem units_transposed : (ground (transposed a q m i w stop)).units =
    (ground ((claimDropped a q (96 + m) stop).startEntry q (120 + m) i w)).units := by
  unfold transposed
  dsimp only
  rw [units_putTransposed, ground_engineReads _ _ aboveStacks_matrixReads]

theorem now_transposed : (transposed a q m i w stop).now = a.now :=
  (now_of_units units_transposed).trans (now_startEntry ..)

theorem mangles_transposed : (transposed a q m i w stop).mangles q = (claimDropped a q (96 + m) stop).mangles q := by
  refine mangles_of_rest ?_ q
  unfold transposed
  dsimp only
  rw [rest_putTransposed, rest_engineReads _ _ aboveStacks_matrixReads, rest_startEntry]

/-- On memory without errors the element of row j and column k is what was that of row k and column j. -/
theorem word16_transposed {j k : Nat} (he : a.ecc = []) (hf : (transposeMode w.desc).f.isBlock = false)
    (hd : 2 * matrixRows w.desc ≤ dw w.desc 6) (hk : k < matrixRows w.desc) (hj : j < matrixCols w.desc) :
    word16 (transposed a q m i w stop).mem (rowAt q w.desc 5 j + 2 * k) = word16 a.mem (rowAt q w.desc 3 k + 2 * j) := by
  have hrow {j : Nat} (hj : j < matrixCols w.desc) :
      (transposedRows ((claimDropped a q (96 + m) stop).startEntry q (120 + m) i w) q w.desc)[j]? =
        some { elems := columnElems a.mem q w.desc j } := by
    have hecc : ((claimDropped a q (96 + m) stop).startEntry q (120 + m) i w).ecc = [] := (ecc_startEntry ..).trans he
    rw [getElem?_transposedRows hf hecc hj, mem_startEntry]
    rfl
  have helem : (columnElems a.mem q w.desc j)[k]? = some (some { code := word16 a.mem (rowAt q w.desc 3 k + 2 * j) }) := by
    simp [columnElems, hk]
  refine (word16_putTransposed hf (fun c hc => ?_) hd (hrow hj) helem hk).trans (Nat.mod_eq_of_lt (word16_lt _ _))
  obtain ⟨j, hc⟩ := List.mem_iff_getElem?.1 hc
  have hj : j < matrixCols w.desc := by
    have := (List.getElem?_eq_some_iff.1 hc).1
    rwa [transposedRows_length] at this
  rw [hrow hj] at hc
  simp [← Option.some.inj hc, columnElems]

/-- What TRANSPOSE does: the claim is given up, the rows are read, and their transpose is written. -/
theorem exec_transpose (hm : m < 8) (hstart : (s.advance t).startable q (120 + m) = some (i, w))
    (hserved : (((s.advance t).upset flips).mangles q).served.any (fun e => e.1 == 96 + m) = true)
    (hstop : stop = ((s.advance t).upset flips).now + 2 * (36 + matrixRows w.desc * matrixCols w.desc / 256)) :
    let u := transposed ((s.advance t).upset flips) q m i w stop
    ∃ sat nan : Bool, exec (.transpose t q m flips) s =
      .next (((((u.raiseIf sat (qPage .mg q m) 1).raiseIf nan (qPage .mg q m) 2).finishEntry q (120 + m) i stop)).claimNext q
        (120 + m)) := by
  intro u
  have hms : (s.advance t).mangles q = ((s.advance t).upset flips).mangles q := (mangles_of_rest (rest_upset ..) q).symm
  have hnow : (s.advance t).now = ((s.advance t).upset flips).now := (now_of_units (units_upset ..)).symm
  have hend (sat nan : Bool) : ((u.raiseIf sat (qPage .mg q m) 1).raiseIf nan (qPage .mg q m) 2).now +
      2 * (36 + matrixRows w.desc * matrixCols w.desc / 256) = stop := by
    rw [now_of_units (s := u) (by simp), now_transposed, ← hstop]
  have hexec : exec (.transpose t q m flips) s = execTranspose t q m flips s := rfl
  unfold execTranspose at hexec
  simp only [hm, if_true, hstart, hms, hserved, Bool.not_true, Bool.false_eq_true, if_false, hnow, ← hstop] at hexec
  exact ⟨_, _, hexec.trans (congrArg (fun x => Host.Outcome.next (State.claimNext x q (120 + m)))
    (congrArg (State.finishEntry _ q (120 + m) i) (hend _ _)))⟩

end Transpose

/-! ## Bins of histograms (R39, R131) -/

theorem memBytes_of_memBytes {m m' : List Host.Cell} {a n x k : Nat} (h : memBytes m a n = memBytes m' a n) (hlo : a ≤ x)
    (hhi : x + k ≤ a + n) : memBytes m x k = memBytes m' x k := by
  refine List.map_congr_left (fun i hi => ?_)
  have hi := List.mem_range.1 hi
  have hbyte := List.map_inj_left.1 h (x - a + i) (List.mem_range.2 (by omega))
  rwa [show a + (x - a + i) = x + i by omega] at hbyte

/-- Pieces of one length, written in a row, each read back at its place. -/
theorem memBytes_memPut_pieces {f : Nat → List Byte} {n k : Nat} (hf : ∀ i, (f i).length = n) (m : List Host.Cell) (a : Nat) {count : Nat}
    (hk : k < count) : memBytes (memPut m a ((List.range count).flatMap f)) (a + n * k) n = f k := by
  induction count with
  | zero => omega
  | succ count ih =>
    have hlen : ((List.range count).flatMap f).length = n * count := by simp [List.length_flatMap, hf, Nat.mul_comm]
    rw [List.range_succ, List.flatMap_append, memPut_append, List.flatMap_singleton, hlen]
    obtain hlt | rfl := Nat.lt_succ_iff_lt_or_eq.1 hk
    · have hplace : n * k + n ≤ n * count := by
        rw [← Nat.mul_succ]
        exact Nat.mul_le_mul_left n hlt
      rw [memBytes_memPut_other _ _ _ _ _ (by omega), ih hlt]
    · have hread := memBytes_memPut (memPut m a ((List.range k).flatMap f)) (a + n * k) (f k)
      rwa [hf] at hread

/-- A table's entries under keys that are kept. -/
theorem mapGet_filter {α : Type} (d : Nat → α) (keep : Nat → Bool) (m : List (Nat × α)) (k : Nat) :
    mapGet d (m.filter (fun e => keep e.1)) k = if keep k then mapGet d m k else d k := by
  induction m with
  | nil => simp [mapGet]
  | cons e m ih =>
    by_cases hk : e.1 = k
    · subst hk
      cases hkeep : keep e.1
      · simpa [List.filter_cons, hkeep] using ih
      · simp [hkeep, mapGet]
    · have hskip : mapGet d (e :: m) k = mapGet d m k := by simp [mapGet, hk]
      rw [hskip, ← ih, List.filter_cons]
      split
      · simp [mapGet, hk]
      · rfl

/-- The bytes of one histogram, and of a range of them. -/
def binBytes (s : State) (q so id : Nat) : List Byte := (List.range 68).flatMap (fun b => leBytes 8 (s.bin q so id b))
@[inherit_doc binBytes] def dumpBytes (s : State) (q so first count : Nat) : List Byte :=
  (List.range count).flatMap (fun k => binBytes s q so (first + k))

/-- The histograms of a range of IDs are forgotten. -/
def binsCleared (s : State) (q so first count : Nat) : State :=
  let lo := ((2 * q + so) * 4096 + first) * 68
  { s with compute := { s.compute with bins := s.compute.bins.filter (fun e => decide (e.1 < lo ∨ lo + 68 * count ≤ e.1)) } }

section Dump
variable {s : State} {t q so first count i k b : Nat} {w : WinEntry}

theorem binBytes_length (s : State) (q so id : Nat) : (binBytes s q so id).length = 544 := by
  simp [binBytes, List.length_flatMap]

theorem dumpBytes_length : (dumpBytes s q so first count).length = 544 * count := by
  simp [dumpBytes, List.length_flatMap, binBytes_length, Nat.mul_comm]

/-- A dumped bin reads back as 64 bits. -/
theorem leNat_dumped (m : List Host.Cell) (a : Nat) (hk : k < count) (hb : b < 68) :
    leNat (memBytes (memPut m a (dumpBytes s q so first count)) (a + 544 * k + 8 * b) 8) = s.bin q so (first + k) b % 2 ^ 64 := by
  have houter := memBytes_memPut_pieces (f := fun k => binBytes s q so (first + k)) (fun i => binBytes_length ..) m a hk
  have hself := memBytes_memPut m (a + 544 * k) (binBytes s q so (first + k))
  rw [binBytes_length] at hself
  have hinner := memBytes_memPut_pieces (f := fun b => leBytes 8 (s.bin q so (first + k) b)) (fun i => leBytes_length ..) m
    (a + 544 * k) hb
  rw [dumpBytes, memBytes_of_memBytes (houter.trans hself.symm) (by omega) (by omega), binBytes, hinner, leNat_leBytes]

theorem bin_binsCleared (hk : k < count) (hb : b < 68) : (binsCleared s q so first count).bin q so (first + k) b = 0 := by
  unfold binsCleared State.bin
  dsimp only
  rw [mapGet_filter _ (fun x => decide (x < ((2 * q + so) * 4096 + first) * 68 ∨ ((2 * q + so) * 4096 + first) * 68 + 68 * count ≤ x)),
    if_neg]
  simp only [decide_eq_true_eq]
  omega

/-- What SORTER_DUMP does: its bins are written, and with CLEAR forgotten. -/
theorem exec_sorterDump (hso : so < 2) (hstart : (s.advance t).startable q (128 + so) = some (i, w)) :
    let d := w.desc
    let first := df d 2 0 12
    let count := df d 2 16 12 + 1 - first
    let b := (s.advance t).startEntry q (128 + so) i w
    let u := b.writeBytes (foldBase q + dw d 3) (dumpBytes b q so first count)
    exec (.sorterDump t q so) s = .next ((if db d 0 4 then binsCleared u q so first count else u).finishEntry q (128 + so) i
      ((s.advance t).now + 2 * (16 + 9 * count))) := by
  intro d first count b u
  have hexec : exec (.sorterDump t q so) s = execSorterDump t q so s := rfl
  unfold execSorterDump at hexec
  simp only [hso, if_true, hstart] at hexec
  have hnow : (if db d 0 4 then binsCleared u q so first count else u).now = (s.advance t).now := by
    rw [apply_ite State.now, show (binsCleared u q so first count).now = u.now from rfl, ite_self,
      now_of_units (units_writeBytes ..), now_startEntry]
  rw [← hnow]
  exact hexec

end Dump

end Sys2Proof.Proofs
end

section
/-! PROOFS. Digests: the bytes that are read, and the accumulator that takes their digest. -/

namespace Sys2Proof.Proofs
open Sys2Proof Sys2Proof.Machine Sys2Proof.Laws

/-! ## Registers that an engine's start and its reads leave -/

section Seen
variable {s : State} {p : Page} {off : Nat}

/-- A start touches no page of a quarter. -/
theorem seen_startEntry_quarter (s : State) (q n i : Nat) (w : WinEntry) (hp : p.slot < 4096) (ho : off < 4096) (hwin : p.win < 4) :
    seen (s.startEntry q n i w) p off = seen s p off := by
  have hne (k : PageKind) : p ≠ mPage k := fun h => absurd (congrArg Page.win h) (Nat.ne_of_lt hwin)
  have hmodule (k : PageKind) (o : Nat) (ho' : o < 4096) : p.reg off ≠ (mPage k).reg o :=
    page_reg_ne_of_page hp (mPage_slot_lt k) ho ho' (hne k)
  have hphase (t : State) : seen (t.phaseStart 7) p off = seen t p off := by
    unfold State.phaseStart State.setNum64
    dsimp only
    split
    · exact (seen_setNum_other _ _ (hmodule _ _ (by decide))).trans (seen_setNum_other _ _ (hmodule _ _ (by decide)))
    · rfl
  unfold State.startEntry
  rw [seen_traceEvent _ _ _ _ _ _ (offEvq_of_page hp ho (hne _))]
  unfold State.openRound
  split
  · exact (hphase _).trans (seen_setBit_other _ _ _ (hmodule _ _ (by decide)))
  · rfl

theorem slot_lt_of_stackPlace {a : Nat} {x : StackPlace} (h : stackPlace a = some x) : x.slot < 8 := by
  unfold stackPlace at h
  split at h
  · rw [← Option.some.inj h]
    simp only [StackPlace.slot, fPlace, Bool.false_eq_true, if_false]
    omega
  · rw [← Option.some.inj h]
    simp only [StackPlace.slot, dPlace, if_true]
    omega
  · simp at h

/-- What an access counts is in the page of its stack. -/
theorem seen_lineAccess (s : State) (via : Option (Nat × Nat)) (write merge : Bool) (line : Nat)
    (hn : ∀ q n o, n < 8 → o < 4096 → p.reg off ≠ (qPage .nmem q n).reg o) :
    seen (s.lineAccess via write merge line).1 p off = seen s p off := by
  unfold State.lineAccess
  split
  · rfl
  · next x hx =>
    have hreg (o : Nat) (ho : o < 4096) := hn x.quarter x.slot o (slot_lt_of_stackPlace hx) ho
    dsimp only
    split
    · rfl
    · exact (seen_addSat_other _ _ (hreg _ (by decide))).trans ((seen_addSat_other _ _ (hreg _ (by decide))).trans
        (seen_addSat_other _ _ (hreg _ (by decide))))

/-- Reads while nothing waits touch no page but those of the stacks. -/
theorem seen_engineReads_of_quiet (hq : Quiet s) (page : Page) (l : List (Nat × Nat))
    (hn : ∀ q n o, n < 8 → o < 4096 → p.reg off ≠ (qPage .nmem q n).reg o) :
    seen (s.engineReads page l) p off = seen s p off := by
  have hclean : l.any (fun r => s.regionPoisoned r.1 r.2) = false := by
    simp [State.regionPoisoned, linePoisoned_of_no_ecc hq.ecc]
  have hread {t : State} (ht : Quiet t) (via : Option (Nat × Nat)) (a n : Nat) :
      seen (t.noteReadBy via a n) p off = seen t p off := by
    unfold State.noteReadBy
    rw [flush_of_quiet ht]
    refine (List.foldlRecOn (motive := fun u => Quiet u ∧ seen u p off = seen t p off) _ _ ⟨ht, rfl⟩ (fun u hu x _ => ?_)).2
    have hx := quiet_lineAccess hu.1 via false false x
    dsimp only
    rw [noteLine_of_no_ecc hx.ecc]
    exact ⟨hx, (seen_lineAccess u via false false x hn).trans hu.2⟩
  unfold State.engineReads
  dsimp only
  rw [hclean]
  exact (List.foldlRecOn (motive := fun u => Quiet u ∧ seen u p off = seen s p off) l _ ⟨hq, rfl⟩
    (fun u hu r _ => ⟨quiet_noteReadBy hu.1 _ _ _, (hread hu.1 _ _ _).trans hu.2⟩)).2

end Seen

/-! ## The accumulators of a digest engine (R132, R133) -/

theorem num64_finishEntry (s : State) (q n i stop : Nat) (p : Page) (lo hi : Nat) :
    (s.finishEntry q n i stop).num64 p lo hi = s.num64 p lo hi := by
  unfold State.finishEntry
  split <;> rfl

theorem num64_of_seen {s t : State} {p : Page} {lo hi : Nat} (hlo : seen t p lo = seen s p lo) (hhi : seen t p hi = seen s p hi) :
    t.num64 p lo hi = s.num64 p lo hi := by
  have hnum {o : Nat} (h : seen t p o = seen s p o) : t.num p o = s.num p o := congrArg (fun x => x.1.toNat) h
  rw [State.num64, hnum hlo, hnum hhi, State.num64]

section Accumulators
variable (s : State) (q g acc v : Nat)

/-- The low and the high half of accumulator `acc`. -/
abbrev accLo (acc : Nat) : Nat := Reg.DG_ACC_LO + 8 * acc
@[inherit_doc accLo] abbrev accHi (acc : Nat) : Nat := Reg.DG_ACC_HI + 8 * acc

theorem ground_clearDigest : ground (s.clearDigest q g acc) = ground s := by simp [State.clearDigest, State.setNum64, ground]
theorem rest_clearDigest : rest (s.clearDigest q g acc) = rest s := by simp [State.clearDigest, rest]

theorem ground_addDigest : ground (s.addDigest q g acc v) = ground s := by
  simp only [State.addDigest, State.setNum64, ground_setNum]
  split <;> rfl

theorem rest_addDigest : rest (s.addDigest q g acc v) = rest s := by
  simp only [State.addDigest, rest_setNum64]
  split <;> rfl

theorem accLo_ne_accHi : accLo acc ≠ accHi acc := by
  unfold accLo accHi Reg.DG_ACC_LO Reg.DG_ACC_HI
  omega

theorem num64_clearDigest : (s.clearDigest q g acc).num64 (qPage .dg q g) (accLo acc) (accHi acc) = 0 :=
  num64_setNum64 _ _ 0 (accLo_ne_accHi acc)

theorem num64_addDigest : (s.addDigest q g acc v).num64 (qPage .dg q g) (accLo acc) (accHi acc) =
    (s.num64 (qPage .dg q g) (accLo acc) (accHi acc) + v) % 2 ^ 64 := by
  refine (num64_setNum64 _ _ _ (accLo_ne_accHi acc)).trans ((Nat.mod_mod _ _).trans ?_)
  split <;> rfl

end Accumulators

/-! ## A digest (R132, R133) -/

section Digest
variable {a s : State} {t q g i : Nat} {flips : List (Nat × Nat)} {w : WinEntry}

theorem queuePage_dg (s : State) (q : Nat) (hg : g < 2) : s.queuePage q (130 + g) = qPage .dg q g := by
  have hengine : engineOf (130 + g) = some (.dg, g) := by interval_cases g <;> rfl
  simp [State.queuePage, hengine]

/-- Only the four quarters have digest engines. -/
theorem quarter_of_startable_dg (hg : g < 2) (h : s.startable q (130 + g) = some (i, w)) : q < 4 := by
  obtain ⟨hwork, -⟩ := startable_eq h
  rw [queuePage_dg s q hg] at hwork
  by_contra hq
  have hkind : (qPage .dg q g).kind = none := by
    unfold Page.kind
    rw [if_neg (show ¬ (qPage .dg q g).win < 4 from hq)]
    split
    · interval_cases g <;> rfl
    · rfl
  simp [State.working, hkind] at hwork

/-- The state that a digest has read its bytes in. -/
def digestRead (a : State) (q g i : Nat) (w : WinEntry) : State :=
  (a.startEntry q (130 + g) i w).engineReads (qPage .dg q g) [(dq w.desc 2, dw w.desc 4)]

/-- The accumulator has taken the digest of the bytes read. -/
def digestAdded (a : State) (q g i : Nat) (w : WinEntry) (v : Nat) : State :=
  let c := digestRead a q g i w
  (if db w.desc 0 4 then c.clearDigest q g (df w.desc 7 0 6) else c).addDigest q g (df w.desc 7 0 6) v

theorem quiet_digestRead (hq : Quiet a) : Quiet (digestRead a q g i w) := quiet_engineReads (quiet_startEntry hq ..) _ _

theorem ground_digestAdded (hq : Quiet a) (v : Nat) :
    ground (digestAdded a q g i w v) = ground (a.startEntry q (130 + g) i w) := by
  unfold digestAdded
  dsimp only
  rw [ground_addDigest, ground_ite, ground_clearDigest, ite_self]
  exact ground_engineReads_of_quiet (quiet_startEntry hq ..) _ _

theorem quiet_digestAdded (hq : Quiet a) (v : Nat) : Quiet (digestAdded a q g i w v) := by
  refine (quiet_digestRead (q := q) (g := g) (i := i) (w := w) hq).of_rest ?_ ?_
  · exact (ecc_of_ground (ground_digestAdded hq v)).trans (ecc_of_ground (ground_engineReads_of_quiet (quiet_startEntry hq ..) _ _)).symm
  · unfold digestAdded
    dsimp only
    rw [rest_addDigest, rest_ite, rest_clearDigest, ite_self]

theorem num64_digestRead (hq : Quiet a) (h4 : q < 4) (hg : g < 2) (acc : Nat) (hacc : acc < 64) :
    (digestRead a q g i w).num64 (qPage .dg q g) (accLo acc) (accHi acc) = a.num64 (qPage .dg q g) (accLo acc) (accHi acc) := by
  have hslot : (qPage .dg q g).slot < 4096 := by simp only [qPage, PageKind.slotBase]; omega
  have hseen {off : Nat} (ho : off < 4096) : seen (digestRead a q g i w) (qPage .dg q g) off = seen a (qPage .dg q g) off := by
    refine (seen_engineReads_of_quiet (quiet_startEntry hq ..) _ _ (fun q' n o hn ho' => ?_)).trans
      (seen_startEntry_quarter a _ _ _ w hslot ho h4)
    refine page_reg_ne_of_page hslot ?_ ho ho' (fun h => ?_)
    · simp only [qPage, PageKind.slotBase]; omega
    · have := congrArg Page.slot h
      simp only [qPage, PageKind.slotBase] at this
      omega
  exact num64_of_seen (hseen (by unfold accLo Reg.DG_ACC_LO; omega)) (hseen (by unfold accHi Reg.DG_ACC_HI; omega))

theorem num64_digestAdded (hq : Quiet a) (h4 : q < 4) (hg : g < 2) (v : Nat) :
    let p := qPage .dg q g
    let lo := accLo (df w.desc 7 0 6)
    let hi := accHi (df w.desc 7 0 6)
    (digestAdded a q g i w v).num64 p lo hi = ((if db w.desc 0 4 then 0 else a.num64 p lo hi) + v) % 2 ^ 64 := by
  have hacc : df w.desc 7 0 6 < 64 := Nat.mod_lt _ (by decide)
  intro p lo hi
  unfold digestAdded
  dsimp only
  rw [num64_addDigest]
  split
  · rw [num64_clearDigest]
  · rw [num64_digestRead hq h4 hg _ hacc]

/-- What DIGEST does on memory without errors. -/
theorem exec_digest (hg : g < 2) (hstart : (s.advance t).startable q (130 + g) = some (i, w))
    (hq : Quiet ((s.advance t).upset flips)) :
    let a := (s.advance t).upset flips
    exec (.digest t q g flips) s =
      .next ((digestAdded a q g i w (digest (dq w.desc 5) (memBytes a.mem (dq w.desc 2) (dw w.desc 4))).toNat).finishEntry q (130 + g) i
        (a.now + 2 * (40 + (dw w.desc 4 + 255) / 256))) := by
  intro a
  have hbytes : (a.startEntry q (130 + g) i w).readBytes (dq w.desc 2) (dw w.desc 4) = memBytes a.mem (dq w.desc 2) (dw w.desc 4) := by
    rw [readBytes_of_quiet (quiet_startEntry hq ..), mem_startEntry]
  have hnow : (if db w.desc 0 4 then (digestRead a q g i w).clearDigest q g (df w.desc 7 0 6) else digestRead a q g i w).now = a.now := by
    refine (now_of_units (s := a.startEntry q (130 + g) i w) (congrArg Ground.units ?_)).trans (now_startEntry ..)
    rw [ground_ite, ground_clearDigest, ite_self]
    exact ground_engineReads_of_quiet (quiet_startEntry hq ..) _ _
  have hexec : exec (.digest t q g flips) s = execDigest t q g flips s := rfl
  unfold execDigest at hexec
  simp only [hg, if_true, hstart, hbytes, a] at hexec
  rw [← hnow]
  exact hexec.trans (settled_finishEntry (quiet_digestAdded hq _) ..)

end Digest

end Sys2Proof.Proofs
end

section
/-! PROOFS. Wrings: how many blocks are emitted, and what a wring writes. -/

namespace Sys2Proof.Proofs
open Sys2Proof Sys2Proof.Machine Sys2Proof.Laws

/-! ## How many blocks are emitted (R134) -/

theorem length_filter_or {α : Type} {p r : α → Bool} {l : List α} (h : ∀ x ∈ l, p x = true → r x = false) :
    (l.filter (fun x => p x || r x)).length = (l.filter p).length + (l.filter r).length := by
  induction l with
  | nil => rfl
  | cons x l ih =>
    have ih := ih (fun y hy => h y (by simp [hy]))
    simp only [List.filter_cons]
    cases hp : p x with
    | true =>
      have hr := h x (by simp) hp
      simp only [hr, Bool.or_false, if_true, Bool.false_eq_true, if_false, List.length_cons, ih]
      omega
    | false =>
      cases hr : r x with
      | true => simp only [Bool.or_true, if_true, Bool.false_eq_true, if_false, List.length_cons, ih]; omega
      | false => simpa using ih

/-- The last number below n that a test finds, where it finds 0. -/
theorem last_range_filter {p : Nat → Bool} (h0 : p 0 = true) {n : Nat} (hn : 0 < n) :
    let x := ((List.range n).filter p).getLast?.getD 0
    p x = true ∧ ∀ y < n, x < y → p y = false := by
  induction n with
  | zero => omega
  | succ n ih =>
    rw [List.range_succ, List.filter_append]
    cases hp : p n with
    | true =>
      simp only [List.filter_cons, hp, if_true, List.filter_nil, List.getLast?_concat, Option.getD_some]
      exact ⟨trivial, fun y hy hlt => by omega⟩
    | false =>
      simp only [List.filter_cons, hp, Bool.false_eq_true, if_false, List.filter_nil, List.append_nil]
      obtain rfl | hpos := Nat.eq_zero_or_pos n
      · exact absurd (hp.symm.trans h0) (by decide)
      · obtain ⟨hx, hlast⟩ := ih hpos
        refine ⟨hx, fun y hy hlt => ?_⟩
        obtain hy | rfl := Nat.lt_succ_iff_lt_or_eq.1 hy
        · exact hlast y hy hlt
        · exact hp

/-- Positions whose code passes a test are as many as the codes that pass it. -/
theorem length_filter_positions (p : Nat → Bool) (codes : List Nat) :
    ((List.range codes.length).filter (fun b => p (codes.getD b 0))).length = (codes.filter p).length := by
  have hcodes : (List.range codes.length).map (fun b => codes.getD b 0) = codes :=
    List.ext_getElem (by simp) (fun i _ hi => by simp [hi])
  conv_rhs => rw [← hcodes, List.filter_map, List.length_map]
  rfl

/-- The positions of a part of a range. -/
theorem length_filter_contains {n : Nat} {l : List Nat} (hl : l.Sublist (List.range n)) :
    ((List.range n).filter (fun b => l.contains b)).length = l.length := by
  refine List.Perm.length_eq ((List.perm_ext_iff_of_nodup (List.nodup_range.filter _) (List.nodup_range.sublist hl)).2 (fun x => ?_))
  simp only [List.mem_filter, List.contains_iff_mem]
  exact ⟨fun h => h.2, fun h => ⟨hl.subset h, h⟩⟩

/-- A wring with SEL emits KEEP blocks where there are more, and else all. -/
theorem emittedBlocks_length {codes : List Nat} (sel : Bool) (keep : Nat) (hcodes : ∀ c ∈ codes, c < 256) :
    (emittedBlocks sel keep codes).length = if sel then min codes.length keep else codes.length := by
  unfold emittedBlocks
  dsimp only
  split
  · next h =>
    simp only [Bool.or_eq_true, Bool.not_eq_true', decide_eq_true_eq] at h
    rw [List.length_range]
    split
    · obtain h | h := h
      · simp_all
      · omega
    · rfl
  · next h =>
    simp only [Bool.or_eq_true, Bool.not_eq_true', decide_eq_true_eq, not_or, Bool.not_eq_false] at h
    obtain ⟨hsel, hmore⟩ := h
    obtain ⟨hat, hlast⟩ := last_range_filter (n := 256) (p := fun c => decide (keep ≤ (codes.filter (fun x => decide (c ≤ x))).length))
      (by simp; omega) (by decide)
    generalize ((List.range 256).filter (fun c => decide (keep ≤ (codes.filter (fun x => decide (c ≤ x))).length))).getLast?.getD 0 =
      star at hat hlast ⊢
    have habove : (codes.filter (fun x => decide (star < x))).length ≤ keep := by
      by_cases hstar : star + 1 < 256
      · have hnext := hlast (star + 1) hstar (by omega)
        simp only [decide_eq_false_iff_not] at hnext
        exact (Nat.lt_of_not_le hnext).le
      · rw [List.filter_eq_nil_iff.2 (fun c hc => by have := hcodes c hc; simp; omega)]
        exact Nat.zero_le _
    have hsplit : (codes.filter (fun x => decide (star ≤ x))).length =
        (codes.filter (fun x => decide (star < x))).length + (codes.filter (fun x => x == star)).length := by
      rw [← length_filter_or (fun x _ hx => by simp at hx ⊢; omega)]
      refine congrArg List.length (List.filter_congr (fun x _ => ?_))
      rw [Bool.eq_iff_iff]
      simp
      omega
    have hlong := of_decide_eq_true hat
    have hsub (k : Nat) : (((List.range codes.length).filter (fun b => codes.getD b 0 == star)).take k).Sublist
        (List.range codes.length) := (List.take_sublist ..).trans List.filter_sublist
    rw [length_filter_or (fun b _ hb => ?_), length_filter_positions (fun c => decide (star < c)), length_filter_contains (hsub _),
      List.length_take, length_filter_positions (fun c => c == star), if_pos hsel]
    · omega
    · rw [Bool.eq_false_iff, ne_eq, List.contains_iff_mem]
      intro hmem
      have heq := (List.mem_filter.1 (List.mem_of_mem_take hmem)).2
      simp only [decide_eq_true_eq, beq_iff_eq] at hb heq
      omega

/-! ## The block codes of a wring (R28, R134) -/

theorem scaleCode_lt (f : Fmt) (headroom : Nat) (x : Machine.Num) : scaleCode f headroom x < 256 := by
  unfold scaleCode scaleCodeOf
  split
  · decide
  · omega

theorem chunks_length {α : Type} {n k : Nat} (hn : 0 < n) {l : List α} (hl : l.length = n * k) : (chunks n l).length = k := by
  apply Nat.le_antisymm
  · refine (chunks_length_le hn l).trans ?_
    rw [hl]
    exact Nat.lt_succ_iff.1 ((Nat.div_lt_iff_lt_mul hn).2 (by rw [Nat.succ_mul, Nat.mul_comm]; omega))
  · obtain rfl | hk := Nat.eq_zero_or_pos k
    · exact Nat.zero_le _
    · have hsome := getElem?_chunks hn (k - 1) l
      rw [hl, if_pos (Nat.mul_lt_mul_of_pos_left (by omega) hn)] at hsome
      have := (List.getElem?_eq_some_iff.1 hsome).1
      omega

/-! ## What a wring writes (R134, R135) -/

/-- Elements of a block, and the elements' format, of a wring descriptor. -/
abbrev wringLen (d : Desc) : Nat := blockLen (db d 0 8)
@[inherit_doc wringLen] abbrev wringFmt (d : Desc) : Fmt := (fmtOf (df d 0 4 4)).getD .sq8e4

/-- The delta and the residuals are read, twice where SEL chooses the blocks. -/
def wringRead (b : State) (page : Page) (d : Desc) : State :=
  let reads := [(dq d 3, 2 * wringLen d * dw d 2), (dq d 5, 2 * wringLen d * dw d 2)]
  let s := b.engineReads page reads
  if db d 0 10 then s.engineReads page reads else s

/-- The blocks are written, then the residuals, the indices where SEL is set, and the number of blocks. -/
def wringWritten (c : State) (q n seq : Nat) (d : Desc) (outs : List (Nat × BlockOut)) (resid : List Byte) (idx : List Nat) : State :=
  let base := foldBase q
  let s := outs.zipIdx.foldl (fun s o => s.putBlock (wringFmt d) (wringLen d) (base + dw d 7) (base + dw d 8) o.2 o.1.2) c
  let s := s.memPutBytes (some (q, n, seq)) (dq d 5) resid
  let s := if db d 0 10 then s.writeBytes (base + dw d 9) (idx.flatMap (leBytes 4)) else s
  s.writeNat (base + dw d 11) 4 idx.length

section Wring
variable {b c : State} {q n seq : Nat} {d : Desc} {outs : List (Nat × BlockOut)} {resid : List Byte} {idx : List Nat}

/-- A byte apart from the outputs of a wring, and from its residuals. -/
structure ApartFromWring (q : Nat) (d : Desc) (y : Nat) : Prop where
  elems : Apart y 1 (foldBase q + dw d 7) (dw d 2 * fieldBytes (wringFmt d) (wringLen d))
  scales : Apart y 1 (foldBase q + dw d 8) (dw d 2)
  indices : db d 0 10 = true → Apart y 1 (foldBase q + dw d 9) (4 * dw d 2)
  count : Apart y 1 (foldBase q + dw d 11) 4
  resid : Apart y 1 (dq d 5) (2 * wringLen d * dw d 2)

theorem leaves_wringRead {P : Nat → Prop} (hq : Quiet b) (page : Page) : Leaves P b (wringRead b page d) := by
  have hread := (Leaves.refl (P := P) hq).engineReads page [(dq d 3, 2 * wringLen d * dw d 2), (dq d 5, 2 * wringLen d * dw d 2)]
  unfold wringRead
  dsimp only
  split
  · exact hread.engineReads page _
  · exact hread

/-- A wring writes its outputs and its residuals, and no other byte. -/
theorem leaves_wringWritten {P : Nat → Prop} (hP : ∀ y, P y → ApartFromWring q d y) (h : Leaves P b c) (hn : n < 160)
    (houts : outs.length ≤ dw d 2) (hresid : resid.length ≤ 2 * wringLen d * dw d 2) (hidx : idx.length ≤ dw d 2) :
    Leaves P b (wringWritten c q n seq d outs resid idx) := by
  have hblocks := Leaves.foldl (l := outs.zipIdx) (f := fun s o =>
      s.putBlock (wringFmt d) (wringLen d) (foldBase q + dw d 7) (foldBase q + dw d 8) o.2 o.1.2) (fun u hu o ho => by
    have hlt : o.2 + 1 ≤ dw d 2 := Nat.lt_of_lt_of_le (List.snd_lt_of_mem_zipIdx ho) houts
    have hmul := Nat.mul_le_mul_right (fieldBytes (wringFmt d) (wringLen d)) hlt
    rw [Nat.succ_mul] at hmul
    refine hu.putBlock o.1.2 (fun y hy => ?_)
    obtain ⟨helems, hscales, -, -, -⟩ := hP y hy
    omega) h
  have hres := hblocks.memPutBytes (o := (q, n, seq)) hn (a := dq d 5) (bs := resid) (fun y hy => by
    have := (hP y hy).resid
    omega)
  have hlen : (idx.flatMap (leBytes 4)).length = 4 * idx.length := by simp [List.length_flatMap, Nat.mul_comm]
  unfold wringWritten
  dsimp only
  refine Leaves.writeNat ?_ _ (fun y hy => (hP y hy).count)
  split
  · next hsel =>
    refine hres.writeBytes (fun y hy => ?_)
    have := (hP y hy).indices hsel
    rw [hlen]
    omega
  · exact hres

/-- The number of blocks is the last that is written. -/
theorem leNat_wringWritten (hidx : idx.length < 2 ^ 32) :
    leNat (memBytes (wringWritten c q n seq d outs resid idx).mem (foldBase q + dw d 11) 4) = idx.length := by
  unfold wringWritten
  dsimp only
  rw [mem_writeNat _ _ _ (aboveStacks_foldBase ..)]
  have hread (m : List Host.Cell) := memBytes_memPut m (foldBase q + dw d 11) (leBytes 4 idx.length)
  simp only [leBytes_length] at hread
  rw [hread, leNat_leBytes, Nat.mod_eq_of_lt hidx]

end Wring

/-! ## What a wring emits (R134, R135) -/

/-- The blocks of a wring: the delta and the residuals added. -/
def wringSums (s : State) (d : Desc) : List (List Machine.Num) :=
  let resid := (s.row16 (dq d 5) (wringLen d * dw d 2)).map (fun c => match c with
    | none => Machine.Num.zero
    | some c => decodeElem .bf16 c)
  chunks (wringLen d) ((s.rowValues .bf16 (dq d 3) (wringLen d * dw d 2)).zipWith Machine.Num.add resid)

/-- The blocks that are emitted, by their scale codes. -/
def wringIdx (d : Desc) (e : List (List Machine.Num)) : List Nat :=
  emittedBlocks (db d 0 10) (dw d 10) (e.map (fun b => if b.any Machine.Num.isNan then 0xFF else if b.all Machine.Num.isZero then 0
    else scaleCode (wringFmt d) 0 (amaxOf Fmt.bf16.infAmax b)))

/-- The emitted blocks, converted. -/
def wringOuts (d : Desc) (key : DrawKey) (e : List (List Machine.Num)) : List (Nat × BlockOut) :=
  (wringIdx d e).zipIdx.map (fun p => (p.1, convertLocal (wringFmt d) 0 Fmt.bf16.infAmax
    (fun k => roundAt (db d 0 9) key (wringLen d * p.2 + k)) (e.getD p.1 [])))

/-- What is left of block b. -/
def newResid (outs : List (Nat × BlockOut)) (f : Fmt) (b : Nat) (vs : List Machine.Num) : List Machine.Num :=
  if vs.any Machine.Num.isNan then vs.map (fun _ => .zero)
  else match outs.find? (fun o => o.1 == b) with
    | none => vs
    | some o => vs.zipWith Machine.Num.sub (decodeBlock f o.2.scale o.2.codes)

/-- The bytes of the new residuals, up to the module-reserved area (R167). -/
def residBytes (d : Desc) (outs : List (Nat × BlockOut)) (e : List (List Machine.Num)) : List Byte :=
  let bytes := e.zipIdx.flatMap (fun p => (newResid outs (wringFmt d) p.2 p.1).flatMap (fun v => leBytes 2 (convert16 .bf16 .rne v).code))
  if touchesReserved (dq d 5) bytes.length then bytes.take (reservedBase - dq d 5) else bytes

section Emitted
variable {d : Desc} {e : List (List Machine.Num)} {outs : List (Nat × BlockOut)}

theorem wringSums_length (s : State) (d : Desc) : (wringSums s d).length = dw d 2 :=
  chunks_length (blockLen_pos _) (by simp [State.rowValues, State.row16])

theorem length_le_of_mem_wringSums {s : State} {b : List Machine.Num} (h : b ∈ wringSums s d) : b.length ≤ wringLen d :=
  length_le_of_mem_chunks (blockLen_pos _) h

theorem wringIdx_length (d : Desc) (e : List (List Machine.Num)) :
    (wringIdx d e).length = if db d 0 10 then min e.length (dw d 10) else e.length := by
  rw [wringIdx, emittedBlocks_length _ _ (fun c hc => ?_), List.length_map]
  obtain ⟨b, -, rfl⟩ := List.mem_map.1 hc
  split
  · decide
  · split
    · decide
    · exact scaleCode_lt ..

theorem wringOuts_length (key : DrawKey) : (wringOuts d key e).length = (wringIdx d e).length := by simp [wringOuts]

theorem newResid_length_le (f : Fmt) (b : Nat) (vs : List Machine.Num) : (newResid outs f b vs).length ≤ vs.length := by
  unfold newResid
  split
  · simp
  · split
    · exact le_rfl
    · simp

theorem residBytes_length_le {len : Nat} (he : ∀ b ∈ e, b.length ≤ len) : (residBytes d outs e).length ≤ 2 * len * e.length := by
  have hblock (p : List Machine.Num × Nat) (hp : p ∈ e.zipIdx) :
      ((newResid outs (wringFmt d) p.2 p.1).flatMap (fun v => leBytes 2 (convert16 .bf16 .rne v).code)).length ≤ 2 * len := by
    have hvs := he p.1 (List.mem_of_getElem? (List.mem_zipIdx_iff_getElem?.1 hp))
    have hnew := newResid_length_le (outs := outs) (wringFmt d) p.2 p.1
    simp only [List.length_flatMap, leBytes_length, List.map_const', List.sum_replicate, smul_eq_mul]
    omega
  have hall : (e.zipIdx.flatMap (fun p => (newResid outs (wringFmt d) p.2 p.1).flatMap
      (fun v => leBytes 2 (convert16 .bf16 .rne v).code))).length ≤ 2 * len * e.length := by
    rw [List.length_flatMap]
    refine (List.sum_le_card_nsmul _ (2 * len) (fun n hn => ?_)).trans (by simp [Nat.mul_comm])
    obtain ⟨p, hp, rfl⟩ := List.mem_map.1 hn
    exact hblock p hp
  unfold residBytes
  dsimp only
  split
  · rw [List.length_take]
    omega
  · exact hall

end Emitted

section Compress
variable {a s : State} {t q g i : Nat} {flips : List (Nat × Nat)} {w : WinEntry}

/-- The state that a wring has written, from the one at which its errors were found. -/
def wrung (a : State) (q g i : Nat) (w : WinEntry) (key : DrawKey) : State :=
  let b := a.startEntry q (132 + g) i w
  let e := wringSums b w.desc
  wringWritten (wringRead b (qPage .wg q g) w.desc) q (132 + g) w.seq w.desc (wringOuts w.desc key e)
    (residBytes w.desc (wringOuts w.desc key e) e) (wringIdx w.desc e)

theorem wringIdx_wringSums_length (s : State) (d : Desc) :
    (wringIdx d (wringSums s d)).length = if db d 0 10 then min (dw d 2) (dw d 10) else dw d 2 := by
  rw [wringIdx_length, wringSums_length]

theorem leaves_wrung {P : Nat → Prop} (hP : ∀ y, P y → ApartFromWring q w.desc y) (hq : Quiet a) (hg : g < 2) (key : DrawKey) :
    Leaves P (a.startEntry q (132 + g) i w) (wrung a q g i w key) := by
  have hidx : (wringIdx w.desc (wringSums (a.startEntry q (132 + g) i w) w.desc)).length ≤ dw w.desc 2 := by
    rw [wringIdx_wringSums_length]
    split
    · exact min_le_left ..
    · exact le_rfl
  refine leaves_wringWritten hP (leaves_wringRead (quiet_startEntry hq ..) _) (by omega) ?_ ?_ hidx
  · rwa [wringOuts_length]
  · have hlen := residBytes_length_le (d := w.desc) (outs := wringOuts w.desc key (wringSums (a.startEntry q (132 + g) i w) w.desc))
      (fun b hb => length_le_of_mem_wringSums (s := a.startEntry q (132 + g) i w) (d := w.desc) hb)
    rwa [wringSums_length] at hlen

/-- The number of blocks stands at word 11 of the descriptor. -/
theorem leNat_wrung (key : DrawKey) : leNat (memBytes (wrung a q g i w key).mem (foldBase q + dw w.desc 11) 4) =
    if db w.desc 0 10 then min (dw w.desc 2) (dw w.desc 10) else dw w.desc 2 := by
  have hnb : dw w.desc 2 < 2 ^ 32 := Nat.mod_lt _ (by decide)
  rw [wrung, leNat_wringWritten, wringIdx_wringSums_length]
  rw [wringIdx_wringSums_length]
  split <;> omega

/-- What COMPRESS does: it reads, writes what it emits and the new residuals, and is done at its path time. -/
theorem exec_compress (hg : g < 2) (hstart : (s.advance t).startable q (132 + g) = some (i, w))
    (hq : Quiet ((s.advance t).upset flips)) :
    let a := (s.advance t).upset flips
    let g64 := (wringLen w.desc * dw w.desc 2 + 63) / 64
    ∃ (key : DrawKey) (sat nan : Bool), exec (.compress t q g flips) s =
      .next ((((wrung a q g i w key).raiseIf sat (qPage .wg q g) 1).raiseIf nan (qPage .wg q g) 2).finishEntry q (132 + g) i
        (a.now + 2 * (if db w.desc 0 10 then 56 + 2 * g64 else 32 + g64))) := by
  intro a g64
  have hquiet (key : DrawKey) (sat nan : Bool) :
      Quiet (((wrung a q g i w key).raiseIf sat (qPage .wg q g) 1).raiseIf nan (qPage .wg q g) 2) :=
    Quiet.raiseIf (Quiet.raiseIf (leaves_wrung (P := fun _ => False) (fun _ h => h.elim) hq hg key).quiet _ _ _) _ _ _
  have hnow (key : DrawKey) (sat nan : Bool) :
      (((wrung a q g i w key).raiseIf sat (qPage .wg q g) 1).raiseIf nan (qPage .wg q g) 2).now = a.now := by
    rw [now_of_units (s := wrung a q g i w key) (by simp),
      now_of_units (leaves_wrung (P := fun _ => False) (fun _ h => h.elim) hq hg key).units, now_startEntry]
  have hexec : exec (.compress t q g flips) s = execCompress t q g flips s := rfl
  unfold execCompress at hexec
  simp only [hg, if_true, hstart] at hexec
  exact ⟨_, _, _, hexec.trans ((settled_finishEntry (hquiet _ _ _) ..).trans
    (congrArg (fun x => Host.Outcome.next (State.finishEntry _ q (132 + g) i (x + 2 * (if db w.desc 0 10 then 56 + 2 * g64 else 32 + g64))))
      (hnow _ _ _)))⟩

end Compress

/-! ## Mangles, sorters, digest engines and wrings -/

section Settled
variable {s : State} {t q i : Nat} {flips : List (Nat × Nat)} {w : WinEntry}

/-- The entry of a state that has found upsets is that of the state before. -/
theorem entry_of_startable {n : Nat} (h : s.startable q n = some (i, w)) (flips : List (Nat × Nat)) :
    ((s.upset flips).queue q n).window[i]? = some w := by
  rw [queue_of_units (units_upset s flips)]
  exact (startable_eq h).2

theorem transpose_runs {m : Nat} (hm : m < 8) (hstart : (s.advance t).startable q (120 + m) = some (i, w))
    (hserved : (((s.advance t).upset flips).mangles q).served.any (fun e => e.1 == 96 + m) = true) :
    let a := (s.advance t).upset flips
    let d := w.desc
    Completes (.transpose t q m flips) s (fun u =>
      Ran a u q (120 + m) i w (a.now + 2 * (36 + matrixRows d * matrixCols d / 256)) ∧
      (u.mangles q).served.any (fun e => e.1 == 96 + m) = false ∧
      (Clean a → (transposeMode d).f.isBlock = false → 2 * matrixRows d ≤ dw d 6 → ∀ k j, k < matrixRows d → j < matrixCols d →
        word16 u.mem (rowAt q d 5 j + 2 * k) = word16 a.mem (rowAt q d 3 k + 2 * j))) := by
  intro a d
  obtain ⟨sat, nan, hexec⟩ := exec_transpose hm hstart hserved rfl
  generalize hstop : a.now + 2 * (36 + matrixRows d * matrixCols d / 256) = stop at hexec
  have hunits (sat nan : Bool) : (ground (((transposed a q m i w stop).raiseIf sat (qPage .mg q m) 1).raiseIf nan
      (qPage .mg q m) 2)).units = (ground ((claimDropped a q (96 + m) stop).startEntry q (120 + m) i w)).units := by
    rw [ground_raiseIf, ground_raiseIf, units_transposed]
  refine ⟨_, hexec, ?_, ?_, fun hclean hf hd k j hk hj => ?_⟩
  · rw [Ran, queue_of_units (congrArg Ground.units (ground_claimNext ..))]
    exact ran_finishEntry (a := claimDropped a q (96 + m) stop) (entry_of_startable hstart flips) (hunits sat nan) stop
  · rw [served_claimNext, mangles_of_rest (s := transposed a q m i w stop) (by simp [a]), mangles_transposed]
    exact served_claimDropped ..
  · rw [mem_of_ground (ground_claimNext ..), mem_finishEntry, raiseIf_mem, raiseIf_mem]
    exact word16_transposed hclean.1 hf hd hk hj

theorem sorterDump_runs {so : Nat} (hso : so < 2) (hstart : (s.advance t).startable q (128 + so) = some (i, w)) :
    let a := s.advance t
    let d := w.desc
    let first := df d 2 0 12
    let count := df d 2 16 12 + 1 - first
    Completes (.sorterDump t q so) s (fun u =>
      Ran a u q (128 + so) i w (a.now + 2 * (16 + 9 * count)) ∧
      (∀ k b, k < count → b < 68 →
        leNat (memBytes u.mem (foldBase q + dw d 3 + 544 * k + 8 * b) 8) = a.bin q so (first + k) b % 2 ^ 64 ∧
        u.bin q so (first + k) b = (if db d 0 4 then 0 else a.bin q so (first + k) b)) ∧
      ∀ y, Apart y 1 (foldBase q + dw d 3) (544 * count) → memGet u.mem y = memGet a.mem y) := by
  intro a d first count
  have hbin (id b : Nat) : (a.startEntry q (128 + so) i w).bin q so id b = a.bin q so id b := bin_of_rest (rest_startEntry ..) ..
  have hput := mem_writeBytes (a.startEntry q (128 + so) i w) (dumpBytes (a.startEntry q (128 + so) i w) q so first count)
    (aboveStacks_foldBase q (dw d 3))
  rw [mem_startEntry] at hput
  have hmem (u : State) : (if db d 0 4 then binsCleared u q so first count else u).mem = u.mem := by
    split <;> rfl
  refine ⟨_, exec_sorterDump hso hstart, ran_finishEntry (startable_eq hstart).2 ?_ _, fun k b hk hb => ⟨?_, ?_⟩, fun y hy => ?_⟩
  · rw [show ∀ u : State, (ground (if db d 0 4 then binsCleared u q so first count else u)).units = (ground u).units from
      fun u => by split <;> rfl]
    exact units_writeBytes ..
  · rw [mem_finishEntry, hmem, hput, leNat_dumped _ _ hk hb, hbin]
  · rw [bin_of_rest (rest_finishEntry ..)]
    split
    · exact bin_binsCleared hk hb
    · rw [bin_of_rest (rest_writeBytes _ _ (aboveStacks_foldBase ..)), hbin]
  · rw [mem_finishEntry, hmem, hput, memGet_put_other _ _ _ _ (by rw [dumpBytes_length]; omega)]

theorem digest_runs {g : Nat} (hg : g < 2) (hstart : (s.advance t).startable q (130 + g) = some (i, w))
    (hq : Quiet ((s.advance t).upset flips)) :
    let a := (s.advance t).upset flips
    let d := w.desc
    let p := qPage .dg q g
    let lo := accLo (df d 7 0 6)
    let hi := accHi (df d 7 0 6)
    Completes (.digest t q g flips) s (fun u =>
      Ran a u q (130 + g) i w (a.now + 2 * (40 + (dw d 4 + 255) / 256)) ∧ u.mem = a.mem ∧
      u.num64 p lo hi = ((if db d 0 4 then 0 else a.num64 p lo hi) +
        (digest (dq d 5) (memBytes a.mem (dq d 2) (dw d 4))).toNat) % 2 ^ 64) := by
  intro a d p lo hi
  refine ⟨_, exec_digest hg hstart hq, ran_finishEntry (entry_of_startable hstart flips) ?_ _, ?_, ?_⟩
  · rw [ground_digestAdded hq]
  · rw [mem_finishEntry, mem_of_ground (ground_digestAdded hq _), mem_startEntry]
  · rw [num64_finishEntry]
    exact num64_digestAdded hq (quarter_of_startable_dg hg hstart) hg _

theorem compress_runs {g : Nat} (hg : g < 2) (hstart : (s.advance t).startable q (132 + g) = some (i, w))
    (hq : Quiet ((s.advance t).upset flips)) :
    let a := (s.advance t).upset flips
    let d := w.desc
    let g64 := (wringLen d * dw d 2 + 63) / 64
    Completes (.compress t q g flips) s (fun u =>
      Ran a u q (132 + g) i w (a.now + 2 * (if db d 0 10 then 56 + 2 * g64 else 32 + g64)) ∧
      leNat (memBytes u.mem (foldBase q + dw d 11) 4) = (if db d 0 10 then min (dw d 2) (dw d 10) else dw d 2) ∧
      ∀ y, ApartFromWring q d y → memGet u.mem y = memGet a.mem y) := by
  intro a d g64
  obtain ⟨key, sat, nan, hexec⟩ := exec_compress hg hstart hq
  have hleaves := leaves_wrung (P := ApartFromWring q d) (i := i) (fun _ h => h) hq hg key
  refine ⟨_, hexec, ran_finishEntry (entry_of_startable hstart flips) ?_ _, ?_, fun y hy => ?_⟩
  · rw [ground_raiseIf, ground_raiseIf, hleaves.units]
  · rw [mem_finishEntry, raiseIf_mem, raiseIf_mem]
    exact leNat_wrung key
  · rw [mem_finishEntry, raiseIf_mem, raiseIf_mem, hleaves.mem y hy, mem_startEntry]

end Settled

/-- Settles O28: each engine by what its command does from the start of its entry to its end. -/
theorem manglesSortersDigestsAndWringsRun : Obligations.ManglesSortersDigestsAndWringsRun := by
  refine ⟨fun t q m i flips w s => transpose_runs, fun t q so i w s => sorterDump_runs, ?_, ?_⟩
  · intro t q g i flips w s a d p lo hi hg hstart hclean hlines
    exact digest_runs hg hstart (quiet_of_clean hclean hlines)
  · intro t q g i flips w s a d f len nb base hg hstart hclean hlines
    obtain ⟨u, hexec, hran, hcount, hother⟩ := compress_runs hg hstart (quiet_of_clean hclean hlines)
    exact ⟨u, hexec, hran, hcount, fun y helems hscales hindices hc hresid => hother y ⟨helems, hscales, hindices, hc, hresid⟩⟩

end Sys2Proof.Proofs
end

section
/-! PROOFS. The places of the lines of a Fold. -/

namespace Sys2Proof.Proofs
open Sys2Proof Sys2Proof.Machine Sys2Proof.Laws

/-! ## The places of the lines of a Fold (R94) -/

/-- What the bank of line 64·h + i adds to i, by R94: the other three fields of the line. -/
def bankTwist (h : Nat) : Nat := bitsOf h 0 6 ^^^ bitsOf h 6 6 ^^^ bitsOf h 12 4

theorem bankTwist_lt (h : Nat) : bankTwist h < 64 :=
  Nat.xor_lt_two_pow (n := 6) (Nat.xor_lt_two_pow (Nat.mod_lt _ (by decide)) (Nat.mod_lt _ (by decide)))
    (Nat.lt_of_lt_of_le (Nat.mod_lt _ (by decide)) (by decide : 2 ^ 4 ≤ 2 ^ 6))

theorem foldPlace_line (h : Nat) {i : Nat} (hi : i < 64) :
    foldPlace (64 * (64 * h + i)) = { bank := i ^^^ bankTwist h, sub := h % 4, index := h / 4 % 2 ^ 14 } := by
  have field (n : Nat) (w : Nat) : bitsOf (64 * h + i) (6 + n) w = bitsOf h n w := by
    unfold bitsOf
    rw [Nat.pow_add, ← Nat.div_div_eq_div_mul, show (64 * h + i) / 2 ^ 6 = h by omega]
  have low : bitsOf (64 * h + i) 0 6 = i := by unfold bitsOf; omega
  unfold foldPlace
  rw [Nat.mul_div_cancel_left _ (by decide : 0 < 64)]
  simp only [low, field 0 6, field 6 6, field 12 4, field 0 2, field 2 14, bankTwist, Nat.xor_assoc]
  simp [bitsOf]

theorem foldPlace_offset (o : Nat) : foldPlace o = foldPlace (64 * (64 * (o / 4096) + o / 64 % 64)) := by
  have h : 64 * (64 * (o / 4096) + o / 64 % 64) / 64 = o / 64 := by omega
  unfold foldPlace
  rw [h]

/-- Settles O58: line 64·h + i has the bank i ^^^ bankTwist h, so that i and h, and the place, determine one another. -/
theorem foldLinesHaveOnePlaceEach : Obligations.FoldLinesHaveOnePlaceEach := by
  refine ⟨fun o ho => ⟨rfl, ?_⟩, fun bank sub index hb hs hi => ?_, fun h i j hi hj hij => ?_⟩
  · rw [foldPlace_offset, foldPlace_line _ (Nat.mod_lt _ (by decide))]
    exact ⟨Nat.xor_lt_two_pow (n := 6) (Nat.mod_lt _ (by decide)) (bankTwist_lt _), by dsimp only; omega, by dsimp only; omega⟩
  · have hlt : bank ^^^ bankTwist (4 * index + sub) < 64 := Nat.xor_lt_two_pow (n := 6) hb (bankTwist_lt _)
    refine ⟨64 * (4 * index + sub) + (bank ^^^ bankTwist (4 * index + sub)), by omega, ?_, fun k hk hplace => ?_⟩
    · rw [foldPlace_line _ hlt, Nat.xor_assoc, Nat.xor_self, Nat.xor_zero]
      simp only [FoldPlace.mk.injEq, true_and]
      omega
    · rw [show k = 64 * (k / 64) + k % 64 by omega, foldPlace_line _ (Nat.mod_lt _ (by decide))] at hplace
      obtain ⟨hbank, hsub, hindex⟩ := FoldPlace.mk.inj hplace
      have hh : k / 64 = 4 * index + sub := by omega
      rw [hh] at hbank
      rw [← hbank, Nat.xor_assoc, Nat.xor_self, Nat.xor_zero]
      omega
  · rw [foldPlace_line _ hi, foldPlace_line _ hj]
    exact fun he => hij (Nat.xor_left_inj.1 he)

end Sys2Proof.Proofs
end

section
/-! PROOFS. Rings and completion counters: the granted writes of TAIL, RING_CFG, a counter, ATTEMPT and COMMITTED. -/

namespace Sys2Proof.Proofs
open Sys2Proof Sys2Proof.Machine Sys2Proof.Laws

/-! ## Granted writes that a page performs or refuses (R5, R374) -/

section Blocks
variable {a t : State} {o : Origin} {p : Page} {off c : Nat} {k : PageKind} {v : Word}

/-- A write is journalled with the code that its page gives, where nothing follows it. -/
theorem performWrite_journalled {x : RegAccess} {won : Bool} (hk : x.page.kind = some k) (hn : x.narrow = false)
    (hd : a.decideWrite x k v = (t, c, won)) (hafter : ∀ u : State, u.afterWrite x.page x.off v.toNat = u) :
    ∃ e : JEntry, a.performWrite x v = t.journalAdd e := by
  unfold State.performWrite
  simp only [hn, hk, hd, Bool.false_eq_true, if_false, hafter]
  exact ⟨_, ite_self _⟩

/-- A granted write answers what its page makes of it, performed or refused, journalled. -/
theorem writeRow_journalled (hg : Granted a o p off) (hk : p.kind = some k) (hboot : k ≠ .boot) (hpwr : k ≠ .pwr)
    (hd : a.decideWrite { origin := o, page := p, off := off, write := some v } k v = (t, c, false))
    (hclk : t.clk = a.clk) (htrain : t.train = a.train) : ∃ e, writeRow a o true p off v = .next (t.journalAdd e) := by
  obtain ⟨e, hperf⟩ := performWrite_journalled hk rfl hd (afterWrite_of_kind off v.toNat (by simp [hk, hboot]) (by simp [hk, hpwr]))
  exact ⟨e, writeRow_completes hg v 0 false (by simp) hperf (by simp [hclk]) (by simp [htrain])⟩

/-- A block register takes what its page makes of a value in range, in a state that allows the write (R142, R366). -/
theorem decideWrite_of_block {r : RegSpec} {ok : Bool} (hoff : 0x100 ≤ off) (hspec : p.specAt off = some r) (hrw : r.rw ≠ 0)
    (hside : o ≠ .sideband) (hsec : k ≠ .sec) (hrange : rangeOk k off v.toNat = true) (hidle : a.idleOk k off = true)
    (hblock : a.writeBlock o p k off r v = (t, ok)) :
    a.decideWrite { origin := o, page := p, off := off, write := some v } k v = (t, if ok then 0 else 2, false) := by
  have h8 : off ≠ 0x008 := by omega
  have h10 : off ≠ 0x010 := by omega
  have h14 : off ≠ 0x014 := by omega
  have h18 : off ≠ 0x018 := by omega
  unfold State.decideWrite
  simp [hside, hsec, hspec, h8, h10, h14, h18, hrw, hrange, hidle, hblock, hoff]

/-- What of a state is neither its registers, with their records and events, nor the quarters' tables. -/
def outside (s : State) : State :=
  { s with regs := [], cycle := [], journals := [], events := {}, pulses := [], compute := {} }

theorem eq_of_outside {s u : State} (h : outside u = outside s) :
    u = { s with regs := u.regs, cycle := u.cycle, journals := u.journals, events := u.events, pulses := u.pulses,
                 compute := u.compute } := by
  have hu := congrArg (fun x : State =>
    { x with regs := u.regs, cycle := u.cycle, journals := u.journals, events := u.events, pulses := u.pulses, compute := u.compute }) h
  exact hu

theorem outside_journalAdd (s : State) (e : JEntry) : outside (s.journalAdd e) = outside s := by
  rw [journalAdd_fields]
  rfl

theorem outside_raise (s : State) (p : Page) (bit : Nat) : outside (s.raise p bit) = outside s := by
  obtain ⟨pu, ⟨rs, cy, ev, h⟩, -⟩ := touches_raise s p bit
  rw [h]
  rfl

theorem outside_setNum (s : State) (p : Page) (off v : Nat) : outside (s.setNum p off v) = outside s := by
  simp [outside]

theorem clk_train_of_outside {s u : State} (h : outside u = outside s) : u.clk = s.clk ∧ u.train = s.train := by
  have hclk := congrArg State.clk h
  have htrain := congrArg State.train h
  exact ⟨hclk, htrain⟩

end Blocks

/-! ## TAIL and RING_CFG (R102, R103, R112) -/

section Rings
variable {a s : State} {o : Origin} {q n i t : Nat} {v : Word}

theorem kind_qPage_qring (hq : q < 4) (hi : i < 2) : (qPage .qring q i).kind = some .qring ∧ (qPage .qring q i).inst = i := by
  have hslot : quarterPage (0x22 + i) = some (.qring, i) := by interval_cases i <;> rfl
  simp [Page.kind, Page.inst, qPage, hq, PageKind.slotBase, hslot]

theorem ringSlotReg_place (n : Nat) {k : Nat} (hk : k < 16) :
    128 * (n / 128) + (ringSlotReg n k - 0x100) / 16 = n ∧ ringSlotReg n k % 16 = k := by
  unfold ringSlotReg
  omega

/-- TAIL and RING_CFG of an existing queue are registers that software writes (R112). -/
theorem specAt_ringSlot {k : Nat} (hq : q < 4) (hn : n < 256) (hex : queueExists n = true) (hk : k = 0 ∨ k = 4) :
    ∃ r : RegSpec, (qPage .qring q (n / 128)).specAt (ringSlotReg n k) = some r ∧ r.rw ≠ 0 := by
  obtain ⟨hkind, hinst⟩ := kind_qPage_qring (i := n / 128) hq (by omega)
  have hplace := (ringSlotReg_place n (k := k) (by omega)).1
  have hrange : 0x100 ≤ ringSlotReg n k ∧ ringSlotReg n k < 0x900 := by unfold ringSlotReg; omega
  have hspec : (qPage .qring q (n / 128)).specAt (ringSlotReg n k) = specsQRING.find? (fun r => r.covers (ringSlotReg n k)) := by
    have hlow : ¬ ringSlotReg n k < 0x100 := by omega
    have hhigh : ¬ 0x900 ≤ ringSlotReg n k := by omega
    simp only [Page.specAt, hkind, hinst, hplace, hex, hhigh, PageKind.regAt, hlow]
    simp [PageKind.specs]
  rw [hspec]
  have hmod : n % 128 < 128 := Nat.mod_lt _ (by decide)
  obtain rfl | rfl := hk
  · exact ⟨{ off := Reg.QRING_RING_CFG, rw := 0x3FFFFFF, stride := 16, count := 128 },
      List.find?_cons_of_pos (decide_eq_true (by simp only [ringSlotReg, Reg.QRING_RING_CFG]; omega)), by decide⟩
  · refine ⟨{ off := Reg.QRING_TAIL, rw := 0xFFFF, stride := 16, count := 128 }, ?_, by decide⟩
    rw [specsQRING, List.find?_cons_of_neg, List.find?_cons_of_pos]
    · exact decide_eq_true (by simp only [ringSlotReg, Reg.QRING_TAIL]; omega)
    · exact Bool.not_eq_true _ ▸ decide_eq_false (by simp only [ringSlotReg, Reg.QRING_RING_CFG]; omega)

/-- A granted write of TAIL or RING_CFG answers what the ring makes of it, journalled. -/
theorem writeRow_ringSlot {k : Nat} {r : State × Bool} (hq : q < 4) (hn : n < 256) (hex : queueExists n = true) (hk : k = 0 ∨ k = 4)
    (hg : Granted a o (qPage .qring q (n / 128)) (ringSlotReg n k))
    (hr : a.writeQring (qPage .qring q (n / 128)) (ringSlotReg n k) v.toNat = r)
    (hout : outside r.1 = outside a) :
    ∃ e, writeRow a o (decide (q < 4 ∧ n < 256)) (qPage .qring q (n / 128)) (ringSlotReg n k) v = .next (r.1.journalAdd e) := by
  obtain ⟨hkind, -⟩ := kind_qPage_qring (i := n / 128) hq (by omega)
  obtain ⟨spec, hspec, hrw⟩ := specAt_ringSlot hq hn hex hk
  obtain ⟨hclk, htrain⟩ := clk_train_of_outside hout
  have hside : o ≠ .sideband := fun ho => by simpa using kind_of_sideband hg hkind ho
  rw [decide_eq_true (p := q < 4 ∧ n < 256) ⟨hq, hn⟩]
  exact writeRow_journalled hg hkind (by decide) (by decide) (decideWrite_of_block (by unfold ringSlotReg; omega) hspec hrw hside
    (by decide) (by simp [rangeOk]) (by simp [State.idleOk]) hr) hclk htrain

/-- What a write of a ring register makes of the state: one queue is replaced, or it is refused and only that is recorded. -/
structure RingWritten (a t : State) (q n : Nat) (x : Queue) : Prop where
  outside : outside t = outside a
  same : t.queue q n = x
  other : ∀ q' n', 256 * q' + n' ≠ 256 * q + n → t.queue q' n' = a.queue q' n'

theorem queue_raise (s : State) (p : Page) (bit q n : Nat) : (s.raise p bit).queue q n = s.queue q n :=
  queue_of_units (congrArg Ground.units (ground_raise s p bit)) q n

theorem queue_queueError (s : State) (q n bit q' n' : Nat) : (s.queueError q n bit).queue q' n' = s.queue q' n' := by
  unfold State.queueError
  rw [queue_raise, State.queue, setNum_compute]
  rfl

theorem ringWritten_queueError (a : State) (q n bit : Nat) : RingWritten a (a.queueError q n bit) q n (a.queue q n) where
  outside := (outside_raise ..).trans (outside_setNum ..)
  same := queue_queueError ..
  other _ _ _ := queue_queueError ..

theorem ringWritten_setQueue (a : State) (q n : Nat) (x : Queue) : RingWritten a (a.setQueue q n x) q n x where
  outside := rfl
  same := queue_setQueue_same ..
  other _ _ h := queue_setQueue_other _ _ _ _ _ _ h

/-- TAIL moves where the ring holds the new occupancy, and it is not below the old (R103). -/
theorem ringWritten_writeTail (a : State) (q n v : Nat) :
    let x := a.queue q n
    let occ := (v % 65536 + 65536 - x.head) % 65536
    RingWritten a (a.writeTail q n v).1 q n
      (if x.hasRing ∧ x.occupancy ≤ occ ∧ occ ≤ 2 ^ x.log2 then { x with tail := v % 65536 } else x) := by
  intro x occ
  unfold State.writeTail
  by_cases hring : x.hasRing = true
  · by_cases hocc : occ < x.occupancy ∨ 2 ^ x.log2 < occ
    · rw [if_neg (by simp [x, hring]), if_pos hocc, if_neg (by omega)]
      exact ringWritten_queueError ..
    · rw [if_neg (by simp [x, hring]), if_neg hocc, if_pos ⟨hring, by omega, by omega⟩]
      exact ringWritten_setQueue ..
  · rw [if_pos (by simp [x, hring]), if_neg (fun h => hring h.1)]
    exact ringWritten_queueError ..

/-- RING_CFG changes an idle, empty queue, for a ring within the populated Fold (R103). -/
theorem ringWritten_writeRingCfg (a : State) (q n v : Nat) :
    let x := a.queue q n
    let base := bitsOf v 0 22
    let log := bitsOf v 22 4
    RingWritten a (a.writeRingCfg q n v).1 q n
      (if x.head = x.tail ∧ x.window = [] ∧ ¬ (4 ≤ log ∧ log ≤ 12 ∧ 0x280000 < base + 2 ^ log)
        then { x with base := base, log2 := log } else x) := by
  intro x base log
  unfold State.writeRingCfg
  by_cases h : x.head = x.tail ∧ x.window = [] ∧ ¬ (4 ≤ log ∧ log ≤ 12 ∧ 0x280000 < base + 2 ^ log)
  · obtain ⟨hhead, hwindow, hlog⟩ := id h
    rw [if_pos h, if_neg]
    · exact ringWritten_setQueue ..
    · rintro (hne | hne | hbad)
      · exact hne hhead
      · simp [x, hwindow] at hne
      · exact hlog hbad
  · rw [if_neg h, if_pos]
    · exact ringWritten_queueError ..
    · by_contra hno
      simp only [not_or, not_not] at hno
      exact h ⟨hno.1, by simpa using hno.2.1, hno.2.2⟩

/-- The write of a ring register, journalled, is the command's whole effect. -/
theorem RingWritten.journalled {t : State} {x : Queue} (h : RingWritten a t q n x) (e : JEntry) :
    let u := t.journalAdd e
    u.queue q n = x ∧ (∀ q' n', 256 * q' + n' ≠ 256 * q + n → u.queue q' n' = a.queue q' n') ∧
    u = { a with regs := u.regs, cycle := u.cycle, journals := u.journals, events := u.events, pulses := u.pulses,
                 compute := u.compute } :=
  ⟨by rw [journalAdd_queue, h.same], fun q' n' hne => by rw [journalAdd_queue, h.other q' n' hne],
    eq_of_outside ((outside_journalAdd t e).trans h.outside)⟩

theorem exec_ringTailWrite (hq : q < 4) (hn : n < 256) (hex : queueExists n = true)
    (hg : Granted (s.advance t) o (qPage .qring q (n / 128)) (ringSlotReg n 4)) :
    ∃ e, exec (.ringTailWrite t o q n v) s = .next (((s.advance t).writeTail q n v.toNat).1.journalAdd e) := by
  obtain ⟨hplace, hmod⟩ := ringSlotReg_place n (k := 4) (by decide)
  refine writeRow_ringSlot hq hn hex (.inr rfl) hg ?_ (ringWritten_writeTail _ q n v.toNat).outside
  rw [State.writeQring, if_pos hmod, (kind_qPage_qring (i := n / 128) hq (by omega)).2, hplace, qPage_win]

theorem exec_ringCfgWrite (hq : q < 4) (hn : n < 256) (hex : queueExists n = true)
    (hg : Granted (s.advance t) o (qPage .qring q (n / 128)) (ringSlotReg n 0)) :
    ∃ e, exec (.ringCfgWrite t o q n v) s = .next (((s.advance t).writeRingCfg q n v.toNat).1.journalAdd e) := by
  obtain ⟨hplace, hmod⟩ := ringSlotReg_place n (k := 0) (by decide)
  refine writeRow_ringSlot hq hn hex (.inl rfl) hg ?_ (ringWritten_writeRingCfg _ q n v.toNat).outside
  rw [State.writeQring, if_neg (by omega), (kind_qPage_qring (i := n / 128) hq (by omega)).2, hplace, qPage_win]

end Rings

/-- Settles O13: a write of either register is what `writeTail` or `writeRingCfg` makes of the queue, journalled. -/
theorem ringRegistersFollowTheirRules : Obligations.RingRegistersFollowTheirRules := by
  constructor
  · intro t o q n v s a p x occ hq hn hex hg
    obtain ⟨e, hexec⟩ := exec_ringTailWrite (v := v) hq hn hex hg
    exact ⟨_, hexec, (ringWritten_writeTail a q n v.toNat).journalled e⟩
  · intro t o q n v s a p x base log hq hn hex hg
    obtain ⟨e, hexec⟩ := exec_ringCfgWrite (v := v) hq hn hex hg
    exact ⟨_, hexec, (ringWritten_writeRingCfg a q n v.toNat).journalled e⟩

end Sys2Proof.Proofs
end

section
/-! PROOFS. A poisoned ring entry of "quarter 4", whose ERR_INFO is the event ring's count of coalesced alarms. -/

namespace Sys2Proof.Proofs
open Sys2Proof Sys2Proof.Machine Sys2Proof.Laws

/-! ## The counterexample to O22

No hypothesis bounds the quarter. Window 4 is the module's (R347), so an ARRAY page of "quarter 4" can be the page of the event
ring, where ERR_INFO of array 0 is ALARM_COALESCED. The refusal writes the code there and then raises DESC_ERR; an alarm of that
bit is pending and enabled, so raising it coalesces and counts (R381), over the code just written. -/

/-- The alarm of bit 0 of the event ring's page, pending. -/
def pendingAlarm : Alarm :=
  { page := mPage .evq, bit := 0, first := 0, last := 0, count := 1, forced := false, pageOvf := false, sts := 0 }

/-- Queue 0 of "quarter 4" holds one fetched entry, poisoned; slot 0 is on "triad" 16, the page of the event ring, whose bit 0
is enabled, clear, and pending. -/
def poisonedState : State :=
  { regs := [((qPage .tslot 4 0).reg Reg.TSLOT_SLOTn, 0x10), ((mPage .evq).reg Reg.HDR_EVT_EN, 1)]
    events := { alarms := [pendingAlarm] }
    compute := { queues := [(256 * 4, { fetches := [{ index := 0, line := some 0, poisoned := true }] })] } }

/-- ALARM_COALESCED in the state that an outcome answers. -/
def coalescedIn : Host.Outcome State Fault Refusal → Option Nat
  | .next u => some (u.num (mPage .evq) Reg.EVQ_ALARM_COALESCED)
  | _ => none

/-- It shows the code and one more. -/
theorem coalescedIn_poisonedState : coalescedIn (exec (.queueFetchArrive 0 4 0) poisonedState) = some 0x0D := by
  decide +kernel

/-- Refutes O22: in "quarter 4" ERR_INFO is ALARM_COALESCED, and raising DESC_ERR counts one more over the code 0x0C. -/
theorem not_ringEntriesAreFetchedInOrder : ¬ Obligations.RingEntriesAreFetchedInOrder := by
  rintro ⟨-, -, hpoisoned, -⟩
  obtain ⟨u, hu, -, -, hinfo⟩ := hpoisoned 0 4 0 { index := 0, line := some 0, poisoned := true } 0 poisonedState
    (by decide +kernel) rfl rfl (by decide +kernel) (by decide +kernel)
  have hpage : (poisonedState.advance 0).queuePage 4 0 = mPage .evq := by decide +kernel
  have htag : dTag 0 = 0 := by decide +kernel
  have hshown := coalescedIn_poisonedState
  rw [hu, coalescedIn] at hshown
  rw [hpage, htag] at hinfo
  have hcode : u.num (mPage .evq) Reg.EVQ_ALARM_COALESCED = 0x0C := hinfo
  rw [hcode] at hshown
  exact absurd hshown (by decide)

end Sys2Proof.Proofs
end

section
/-! PROOFS. A delivered frame with an uncorrectable codeword, at a port whose alarm of that event is pending: what taking it in
counts besides the port's own registers. -/

namespace Sys2Proof.Proofs
open Sys2Proof Sys2Proof.Machine Sys2Proof.Laws

/-! ## The counterexamples to O32 and O41

Both say that a delivered frame changes no register outside its port's page (`Took`). A codeword that the port could not correct
raises bit 5 of the port (R236, R266), whatever becomes of the frame; where that bit is enabled and clear while its alarm is still
pending, the alarm is coalesced (R381) and ALARM_COALESCED, in the event ring's page, counts it. -/

/-- The alarm of FEC_UNCORR at port Q0.0, pending. -/
def fecAlarm : Alarm :=
  { page := qPage .fport 0 0, bit := 5, first := 0, last := 0, count := 1, forced := false, pageOvf := false, sts := 0 }

/-- Port Q0.0 is up and enables its bit 5; one segment, number 7, waits for its answer. -/
def alarmedPort : State :=
  { regs := [((qPage .fport 0 0).reg Reg.FPORT_PORT_STS, 1), ((qPage .fport 0 0).reg Reg.HDR_EVT_EN, 2 ^ 5)]
    events := { alarms := [fecAlarm] }
    fabric := { segs := [{ id := 7, q := 0, n := 136, seq := 0, index := 0, kind := .read, chip := none }] } }

/-- The header of a frame for this module at that port, in order, with one codeword that the port could not correct. -/
def flawedHdr : RxHdr :=
  { q := 0, d := 0, fecUncorr := 1, vl := 0, cls := 0, lseq := 0, lack := 0, credit := none, src := 0, srcQ := 0, dst := 0, route := 0 }

/-- A READY for an operation that does not run. -/
def strayReady : CollHdr := { tag := 0, attempt := 0, epoch := 0, part := 0, direction := 0, phase := 0, step := 0, off := 0 }

/-- ALARM_COALESCED in the state that an outcome answers. -/
def alarmsCoalescedIn : Host.Outcome State Fault Refusal → Option Nat
  | .next u => some (u.num (mPage .evq) Reg.EVQ_ALARM_COALESCED)
  | _ => none

/-- Receiving the READY counts a coalesced alarm. -/
theorem alarmsCoalesced_of_ready : alarmsCoalescedIn (exec (.collReadyReceive 0 flawedHdr strayReady) alarmedPort) = some 1 := by
  decide +kernel

/-- Receiving the answer of the segment counts a coalesced alarm. -/
theorem alarmsCoalesced_of_readResp : alarmsCoalescedIn (exec (.frameReadResp 0 flawedHdr 7 false []) alarmedPort) = some 1 := by
  decide +kernel

/-- What changes ALARM_COALESCED has changed more than `Took` allows at a quarter's port. -/
theorem num_coalesced_of_took {a u : State} {h : RxHdr} (hq : h.q < 4) (ht : Took a u h) :
    u.num (mPage .evq) Reg.EVQ_ALARM_COALESCED = a.num (mPage .evq) Reg.EVQ_ALARM_COALESCED := by
  have hne : mPage .evq ≠ qPage .fport h.q h.d := fun e => absurd (congrArg Page.win e) (by simp [mPage, qPage]; omega)
  simp only [State.num, ht.2 _ _ hne]

/-- Refutes O32: taking in an early READY counts a coalesced alarm, outside its port. -/
theorem not_collectiveStreamsMoveAndWait : ¬ Obligations.CollectiveStreamsMoveAndWait := by
  rintro ⟨hready, -⟩
  obtain ⟨u, hu, htook⟩ := (hready 0 flawedHdr strayReady alarmedPort (by decide +kernel)).2 (by decide +kernel)
  have hshown := alarmsCoalesced_of_ready
  rw [hu, alarmsCoalescedIn, num_coalesced_of_took (by decide) htook] at hshown
  exact absurd hshown (by decide +kernel)

/-- Refutes O41: taking in the answer of a segment counts a coalesced alarm, outside its port. -/
theorem not_remoteFramesActAtTheirTarget : ¬ Obligations.RemoteFramesActAtTheirTarget := by
  rintro ⟨-, -, hresp, -⟩
  obtain ⟨u, hu, htook⟩ := hresp 0 7 flawedHdr false [] { id := 7, q := 0, n := 136, seq := 0, index := 0, kind := .read, chip := none }
    alarmedPort (by decide +kernel) rfl rfl rfl (by decide)
  have hshown := alarmsCoalesced_of_readResp
  rw [hu, alarmsCoalescedIn, num_coalesced_of_took (by decide) htook] at hshown
  exact absurd hshown (by decide +kernel)

end Sys2Proof.Proofs
end

section
/-! PROOFS. A COMMIT delivered at a "port" whose counters are the step's counts. -/

namespace Sys2Proof.Proofs
open Sys2Proof Sys2Proof.Machine Sys2Proof.Laws

/-! ## The counterexample to O36

No hypothesis bounds the port at which a frame is delivered. A window holds 4,096 pages (R347), so the page of "direction" 3,970
of quarter 3 is page 2 of window 4, which is STEP; there FEC_CORR, which counts the codewords that the port corrected (R236), is
the low word of COMMITTED. -/

/-- A step in RUN, whose STEP_STS also reads as PORT_STS of the port: up, and carrying every lane. -/
def runningStep : State := { regs := [((mPage .step).reg Reg.STEP_STEP_STS, 1)] }

/-- The header of a frame for this module at that port, in order, with one corrected codeword. -/
def correctedHdr : RxHdr :=
  { q := 3, d := 3970, fecCorr := 1, vl := 7, cls := 0, lseq := 0, lack := 0, credit := none, src := 0, srcQ := 0, dst := 0, route := 0 }

/-- The tree header of a COMMIT of the present term and attempt. -/
def presentHdr : TreeHdr := { term := 0, origin := 0, attempt := 0 }

/-- COMMITTED in the state that an outcome answers. -/
def committedIn : Host.Outcome State Fault Refusal → Option Nat
  | .next u => some u.committed
  | _ => none

/-- The corrected codeword has counted in COMMITTED. -/
theorem committedIn_runningStep : committedIn (exec (.commitDown 0 correctedHdr presentHdr 0 0 0) runningStep) = some 1 := by
  decide +kernel

/-- Refutes O36: a COMMIT that comes in RUN changes COMMITTED, the FEC counter of the port by which it came. -/
theorem not_boundaryPreparedAndCommitOrderTheStep : ¬ Obligations.BoundaryPreparedAndCommitOrderTheStep := by
  rintro ⟨-, -, -, hcommit⟩
  obtain ⟨u, hu, -, -, -, hcommitted⟩ :=
    (hcommit 0 correctedHdr presentHdr 0 0 0 runningStep (by decide +kernel) rfl).2 (by decide +kernel)
  have hnone : (runningStep.advance 0).committed = 0 := by decide +kernel
  have hshown := committedIn_runningStep
  rw [hu, committedIn, hcommitted, hnone] at hshown
  exact absurd hshown (by decide)

end Sys2Proof.Proofs
end

section
/-! PROOFS. The vector kernels over all their rows: what a descriptor may write, and that it ends at its path time. -/

namespace Sys2Proof.Proofs
open Sys2Proof Sys2Proof.Machine Sys2Proof.Laws

/-! ## The size of what a kernel gives (R88, R123) -/

/-- A row of at most n elements, with the statistics that the record of kernel k holds. -/
def RowFits (k n : Nat) (o : VecRow) : Prop := o.d.length ≤ n ∧ 4 * o.stats.length ≤ statBytes k

theorem rowFits_ite {k n : Nat} {c : Prop} [Decidable c] {o p : VecRow} (ho : c → RowFits k n o) (hp : ¬ c → RowFits k n p) :
    RowFits k n (if c then o else p) := by
  split
  · next h => exact ho h
  · next h => exact hp h

theorem four_le_statBytes (k : Nat) : 4 ≤ statBytes k := by
  unfold statBytes
  split <;> omega

/-- Every kernel gives at most as many elements as its first source has, and one value, or, for a layer normalisation, two. -/
theorem rowFits_vecRow (k : Nat) (v : VecIn) : RowFits k v.s0.length (vecRow k v) := by
  have htwo : statBytes 0x40 = 8 := rfl
  unfold vecRow
  repeat' refine rowFits_ite (fun _ => ?_) (fun _ => ?_)
  all_goals simp [RowFits, normBwd, softmaxBwd, four_le_statBytes, *]

/-- The sums of gradient terms have at most as many elements as a row. -/
theorem gradSums_rows_length_le (n : Nat) (rows : List (List Machine.Num)) : (gradSums n rows).length ≤ n := by
  refine List.foldlRecOn (motive := fun acc : List Machine.Num => acc.length ≤ n) _ _ (by simp) (fun acc h r _ => ?_)
  rw [List.length_zipWith]
  omega

/-! ## One row (R105, R123) -/

section Row
variable (c : State) (q : Nat) (d : Desc) (key : DrawKey) (page : Page) (r : Nat)

theorem units_vecDoRow : (ground (c.vecDoRow q d key page r).1).units = (ground c).units := by
  simp only [State.vecDoRow, ground_noteConvs]
  split <;> split <;> simp

/-- A row writes nothing but its destination, where its kernel has one, and its statistics record. -/
theorem memGet_vecDoRow_other {y : Nat}
    (hd : kernelDst (df d 0 4 8) = true → Apart y 1 (foldBase q + dw d 8 + r * dw d 9) (2 * (df d 1 0 16 + 1)))
    (hs : Apart y 1 (foldBase q + dw d 10 + r * statBytes (df d 0 4 8)) (statBytes (df d 0 4 8))) :
    memGet (c.vecDoRow q d key page r).1.mem y = memGet c.mem y := by
  have hput (t : State) {x : Nat} (cs : List (Option Nat)) {n : Nat} (hn : 2 * cs.length ≤ n) (h : Apart y 1 (foldBase q + x) n) :
      memGet (t.putRow16 (foldBase q + x) cs).mem y = memGet t.mem y := by
    rw [mem_putRow16 _ _ (aboveStacks_foldBase q x)]
    exact memGet_putWords_other _ _ _ _ (by omega)
  obtain ⟨hrow, hstats⟩ := rowFits_vecRow (df d 0 4 8) (c.vecIn q d r)
  rw [(rowSized_vecIn c q d r).s0] at hrow
  rw [Nat.add_assoc] at hd hs
  simp only [State.vecDoRow, mem_of_ground (ground_noteConvs ..), Nat.add_assoc (foldBase q)]
  have hrecord (t : State) : memGet (if (statCodes (vecRow (df d 0 4 8) (c.vecIn q d r)).stats).isEmpty then t
      else t.putRow16 (foldBase q + (dw d 10 + r * statBytes (df d 0 4 8)))
        (statCodes (vecRow (df d 0 4 8) (c.vecIn q d r)).stats)).mem y = memGet t.mem y := by
    split
    · rfl
    · exact hput t _ (by rw [statCodes_length]; omega) hs
  refine (hrecord _).trans ?_
  split
  · next hdst => exact hput c _ (by simpa using hrow) (hd hdst)
  · rfl

end Row

/-! ## All rows, and the gradients (R105, R125) -/

/-- The state after the first m rows of a descriptor, and what they gave. -/
def rowsDone (q : Nat) (d : Desc) (key : DrawKey) (page : Page) (c : State) (m : Nat) : State × List VecRow :=
  (List.range m).foldl (fun a r =>
    let o := a.1.vecDoRow q d key page r
    (o.1, a.2 ++ [o.2])) (c, [])

/-- The gradient terms of all rows are added into the buffers of the kernel. -/
def allGradsAdded (q : Nat) (d : Desc) (page : Page) (r : State × List VecRow) : State :=
  let k := df d 0 4 8
  let n := df d 1 0 16 + 1
  let s := if kernelAux0 k && k != 0x40 then r.1.addGrads q (dw d 13) d page (gradSums n (r.2.map (·.gScale))) else r.1
  if kernelAux1 k then s.addGrads q (dw d 14) d page (gradSums n (r.2.map (·.gBias))) else s

section Rows
variable (q : Nat) (d : Desc) (key : DrawKey) (page : Page) (c : State) (m : Nat)

theorem rowsDone_succ : rowsDone q d key page c (m + 1) =
    let a := rowsDone q d key page c m
    let o := a.1.vecDoRow q d key page m
    (o.1, a.2 ++ [o.2]) := by
  simp only [rowsDone, List.range_succ, List.foldl_append, List.foldl_cons, List.foldl_nil]

theorem units_rowsDone : (ground (rowsDone q d key page c m).1).units = (ground c).units := by
  induction m with
  | zero => rfl
  | succ m ih => rw [rowsDone_succ]; exact (units_vecDoRow ..).trans ih

theorem memGet_rowsDone_other {y : Nat}
    (hd : kernelDst (df d 0 4 8) = true → ∀ r, r < m → Apart y 1 (foldBase q + dw d 8 + r * dw d 9) (2 * (df d 1 0 16 + 1)))
    (hs : ∀ r, r < m → Apart y 1 (foldBase q + dw d 10 + r * statBytes (df d 0 4 8)) (statBytes (df d 0 4 8))) :
    memGet (rowsDone q d key page c m).1.mem y = memGet c.mem y := by
  induction m with
  | zero => rfl
  | succ m ih =>
    rw [rowsDone_succ]
    exact (memGet_vecDoRow_other _ q d key page m (fun h => hd h m (by omega)) (hs m (by omega))).trans
      (ih (fun h r hr => hd h r (by omega)) (fun r hr => hs r (by omega)))

theorem units_addGrads (s : State) (off : Nat) (sums : List Machine.Num) :
    (ground (s.addGrads q off d page sums)).units = (ground s).units := by
  simp only [State.addGrads, ground_noteConvs]
  exact units_putRow16 ..

theorem units_allGradsAdded (r : State × List VecRow) : (ground (allGradsAdded q d page r)).units = (ground r.1).units := by
  unfold allGradsAdded
  dsimp only
  split <;> split <;> simp only [units_addGrads]

theorem memGet_allGradsAdded_other (r : State × List VecRow) {y : Nat}
    (h0 : kernelAux0 (df d 0 4 8) = true → df d 0 4 8 ≠ 0x40 → Apart y 1 (foldBase q + dw d 13) (2 * (df d 1 0 16 + 1)))
    (h1 : kernelAux1 (df d 0 4 8) = true → Apart y 1 (foldBase q + dw d 14) (2 * (df d 1 0 16 + 1))) :
    memGet (allGradsAdded q d page r).mem y = memGet r.1.mem y := by
  have hadd (s : State) (off : Nat) (rows : List (List Machine.Num)) (h : Apart y 1 (foldBase q + off) (2 * (df d 1 0 16 + 1))) :
      memGet (s.addGrads q off d page (gradSums (df d 1 0 16 + 1) rows)).mem y = memGet s.mem y := by
    rw [mem_addGrads]
    have := gradSums_rows_length_le (df d 1 0 16 + 1) rows
    exact memGet_putWords_other _ _ _ _ (by rw [gradCodes_length]; omega)
  have hscale : memGet (if kernelAux0 (df d 0 4 8) && df d 0 4 8 != 0x40 then
      r.1.addGrads q (dw d 13) d page (gradSums (df d 1 0 16 + 1) (r.2.map (·.gScale))) else r.1).mem y = memGet r.1.mem y := by
    split
    · next h =>
      simp only [Bool.and_eq_true, bne_iff_ne] at h
      exact hadd _ _ _ (h0 h.1 h.2)
    · rfl
  unfold allGradsAdded
  dsimp only
  split
  · next h => exact (hadd _ _ _ (h1 h)).trans hscale
  · exact hscale

end Rows

/-! ## The commands -/

section Run
variable {s : State} {t q e i : Nat} {w : WinEntry} {kernels : List Nat} {flips : List (Nat × Nat)} {cmd : Instr}

theorem runVec_rows (he : e < 16) (hstart : s.startable q (96 + e) = some (i, w)) (hk : df w.desc 0 4 8 ∈ kernels) :
    ∃ key,
      let b := allGradsAdded q w.desc (qPage .ve q e)
        (rowsDone q w.desc key (qPage .ve q e) (vecRead (s.upset flips) q e i w) (df w.desc 2 0 24 + 1))
      s.runVec q e kernels flips = b.finishEntry q (96 + e) i
        (b.now + 2 * vecPath (df w.desc 0 4 8) ((df w.desc 2 0 24 + 1) * ((df w.desc 1 0 16 + 1 + 63) / 64))) := by
  apply Exists.intro
  unfold State.runVec
  simp only [he, if_true, hstart, List.contains_iff_mem.2 hk, Bool.not_true, Bool.false_eq_true, if_false]
  rfl

/-- A command that runs one of the descriptor's kernels ends it at its path time, and writes only what the kernel may. -/
theorem vectorCommand_completes (he : e < 16) (hexec : exec cmd s = .next ((s.advance t).runVec q e kernels flips))
    (hstart : (s.advance t).startable q (96 + e) = some (i, w)) :
    let a := (s.advance t).upset flips
    let d := w.desc
    let k := df d 0 4 8
    let n := df d 1 0 16 + 1
    let rows := df d 2 0 24 + 1
    let base := foldBase q
    (k ∈ kernels → Completes cmd s (fun u =>
      Ran a u q (96 + e) i w (a.now + 2 * vecPath k (rows * ((n + 63) / 64))) ∧
      ∀ y, (kernelDst k = true → ∀ r, r < rows → Apart y 1 (base + dw d 8 + r * dw d 9) (2 * n)) →
        (∀ r, r < rows → Apart y 1 (base + dw d 10 + r * statBytes k) (statBytes k)) →
        (kernelAux0 k = true → k ≠ 0x40 → Apart y 1 (base + dw d 13) (2 * n)) →
        (kernelAux1 k = true → Apart y 1 (base + dw d 14) (2 * n)) → memGet u.mem y = memGet a.mem y)) ∧
    (k ∉ kernels → exec cmd s = .next (s.advance t)) := by
  intro a d k n rows base
  refine ⟨fun hk => ?_, fun hk => ?_⟩
  · obtain ⟨key, hrun⟩ := runVec_rows (flips := flips) he hstart hk
    have hunits := (units_allGradsAdded q d (qPage .ve q e) (rowsDone q d key (qPage .ve q e) (vecRead a q e i w) rows)).trans
      ((units_rowsDone ..).trans (congrArg Ground.units (ground_vecRead a q e i w)))
    have hnow := (congrArg Units.now hunits).trans (congrArg (fun g => g.units.now) (ground_startEntry a q (96 + e) i w))
    refine ⟨_, hexec.trans (congrArg _ hrun), ?_, fun y hd hs h0 h1 => ?_⟩
    · have hran := ran_finishEntry (a := a) (by rw [queue_of_units (units_upset _ flips)]; exact (startable_eq hstart).2) hunits
        (a.now + 2 * vecPath k (rows * ((n + 63) / 64)))
      rw [show a.now = _ from hnow.symm] at hran ⊢
      exact hran
    · rw [mem_finishEntry, memGet_allGradsAdded_other _ _ _ _ h0 h1, memGet_rowsDone_other _ _ _ _ _ _ hd hs, mem_vecRead]
  · rw [hexec]
    unfold State.runVec
    have hnot : kernels.contains (df w.desc 0 4 8) = false := by simpa using hk
    simp only [he, if_true, hstart, hnot, Bool.not_false]

end Run

/-- Settles O24: every vector command runs the kernels that the list gives for it. -/
theorem vectorKernelsRunAndWriteOnlyTheirRows : Obligations.VectorKernelsRunAndWriteOnlyTheirRows := by
  intro t q e flips ks cmd i w s a d k n rows base hmem he hstart
  have hexec : exec cmd s = .next ((s.advance t).runVec q e ks flips) := by
    simp only [List.mem_cons, Prod.mk.injEq, List.not_mem_nil, or_false] at hmem
    obtain ⟨rfl, rfl⟩ | ⟨rfl, rfl⟩ | ⟨rfl, rfl⟩ | ⟨rfl, rfl⟩ | ⟨rfl, rfl⟩ | ⟨rfl, rfl⟩ | ⟨rfl, rfl⟩ | ⟨rfl, rfl⟩ | ⟨rfl, rfl⟩ |
      ⟨rfl, rfl⟩ | ⟨rfl, rfl⟩ | ⟨rfl, rfl⟩ | ⟨rfl, rfl⟩ | ⟨rfl, rfl⟩ | ⟨rfl, rfl⟩ | ⟨rfl, rfl⟩ | ⟨rfl, rfl⟩ | ⟨rfl, rfl⟩ |
      ⟨rfl, rfl⟩ | ⟨rfl, rfl⟩ | ⟨rfl, rfl⟩ | ⟨rfl, rfl⟩ | ⟨rfl, rfl⟩ | ⟨rfl, rfl⟩ | ⟨rfl, rfl⟩ | ⟨rfl, rfl⟩ | ⟨rfl, rfl⟩ := hmem
    all_goals rfl
  exact vectorCommand_completes he hexec hstart

end Sys2Proof.Proofs
end

section
/-! PROOFS. What memory's operations leave: all but memory and its notes, and the registers of the module's pages. -/

namespace Sys2Proof.Proofs
open Sys2Proof Sys2Proof.Machine Sys2Proof.Laws

/-! ## What memory's operations leave (R98, R215 to R226)

Reads and writes of memory check codewords, count what they find in the pages of the Fold, of the stacks and of BGND, raise events
there, and keep notes in the schedulers. All else of the state they leave, and the registers of the module's pages but EVQ and
FAULT. -/

/-- What of a state is neither memory, nor its check symbols and notes, nor the registers, with their records and events. -/
def beyond (s : State) : State :=
  { s with regs := [], cycle := [], mem := [], ecc := [], pulses := [], events := {}, stackUnits := [], frecs := [],
           compute := { s.compute with fold := { s.compute.fold with writeBacks := [] } },
           train := { s.train with ueLines := [] } }

/-- A page of a quarter. -/
structure QuarterPage (p : Page) : Prop where
  win : p.win < 4
  slot : p.slot < 4096

/-- The pages of a module that memory's operations leave. -/
structure Unnoted (k : PageKind) : Prop where
  evq : mPage k ≠ mPage .evq
  fault : mPage k ≠ mPage .fault

/-- A state has changed in memory and its notes only. -/
structure OnlyMemory (s t : State) : Prop where
  beyond : beyond t = beyond s
  seen : ∀ {k : PageKind} {off : Nat}, Unnoted k → off < 4096 → seen t (mPage k) off = seen s (mPage k) off

theorem beside_quarterPage {p : Page} {k : PageKind} {off : Nat} (hp : QuarterPage p) (hk : Unnoted k) (hoff : off < 4096) :
    Beside p (mPage k) off where
  page _ ho := page_reg_ne_of_page (mPage_slot_lt _) hp.slot hoff ho (fun h => by
    have hwin : 4 = p.win := congrArg Page.win h
    exact absurd hp.win (by omega))
  evq := offEvq_of_page (mPage_slot_lt _) hoff hk.evq

theorem beyond_setNum (s : State) (p : Page) (off v : Nat) : beyond (s.setNum p off v) = beyond s := by simp [beyond]

theorem beyond_addSat (s : State) (p : Page) (off n : Nat) : beyond (s.addSat p off n) = beyond s := by simp [beyond]

theorem beyond_raise (s : State) (p : Page) (bit : Nat) : beyond (s.raise p bit) = beyond s := by
  obtain ⟨pu, ⟨rs, cy, ev, h⟩, -⟩ := touches_raise s p bit
  rw [h]
  rfl

namespace OnlyMemory
variable {s t u : State} {p : Page} {off : Nat}

theorem refl (s : State) : OnlyMemory s s := ⟨rfl, fun _ _ => rfl⟩

theorem trans (h : OnlyMemory s t) (g : OnlyMemory t u) : OnlyMemory s u :=
  ⟨g.beyond.trans h.beyond, fun hk ho => (g.seen hk ho).trans (h.seen hk ho)⟩

/-- Steps over a list that each change memory only change memory only. -/
theorem foldl {α : Type} {f : State → α → State} {l : List α} (hf : ∀ u, ∀ x ∈ l, OnlyMemory u (f u x)) (h : OnlyMemory s t) :
    OnlyMemory s (l.foldl f t) :=
  List.foldlRecOn (motive := OnlyMemory s) l f h (fun u hu x hx => hu.trans (hf u x hx))

theorem of_regs (hb : Proofs.beyond t = Proofs.beyond s) (hr : t.regs = s.regs) (hc : t.cycle = s.cycle) : OnlyMemory s t where
  beyond := hb
  seen _ _ := by
    have hnow : t.now = s.now := by
      have h := congrArg State.now hb
      exact h
    simp only [Proofs.seen, State.reg, State.change, hr, hc, hnow]

section Steps
variable (h : OnlyMemory s t)
include h

theorem setNum (v : Nat) (hp : QuarterPage p) (ho : off < 4096) : OnlyMemory s (t.setNum p off v) :=
  h.trans ⟨beyond_setNum .., fun hk hoff => seen_setNum_other _ _ ((beside_quarterPage hp hk hoff).page _ ho)⟩

theorem addSat (n : Nat) (hp : QuarterPage p) (ho : off < 4096) : OnlyMemory s (t.addSat p off n) :=
  h.trans ⟨beyond_addSat .., fun hk hoff => seen_addSat_other _ _ ((beside_quarterPage hp hk hoff).page _ ho)⟩

theorem raise (bit : Nat) (hp : QuarterPage p) : OnlyMemory s (t.raise p bit) :=
  h.trans ⟨beyond_raise .., fun hk hoff => seen_raise_beside _ _ (beside_quarterPage hp hk hoff)⟩

theorem raiseIf (c : Bool) (bit : Nat) (hp : QuarterPage p) : OnlyMemory s (t.raiseIf c p bit) := by
  unfold State.raiseIf
  split
  · exact h.raise bit hp
  · exact h

theorem setBit_fault (i : Nat) (b : Bool) (ho : off < 4096) : OnlyMemory s (t.setBit (mPage .fault) off i b) :=
  h.trans ⟨beyond_setNum .., fun hk hoff => seen_setBit_other _ _ _
    (page_reg_ne_of_page (mPage_slot_lt _) (mPage_slot_lt _) hoff ho hk.fault)⟩

theorem setStack (q n : Nat) (x : Stack) : OnlyMemory s (t.setStack q n x) :=
  h.trans (of_regs (by simp [Proofs.beyond]) (by simp) (by simp))

theorem setEcc (c v : Nat) : OnlyMemory s (t.setEcc c v) := h.trans (of_regs rfl rfl rfl)

theorem setMem (m : List Host.Cell) : OnlyMemory s { t with mem := m } := h.trans (of_regs rfl rfl rfl)

theorem setWriteBacks (l : List Nat) : OnlyMemory s (t.setFold { t.compute.fold with writeBacks := l }) :=
  h.trans (of_regs rfl rfl rfl)

theorem setUeLines (l : List Nat) : OnlyMemory s { t with train := { t.train with ueLines := l } } :=
  h.trans (of_regs rfl rfl rfl)

theorem ite {c : Prop} [Decidable c] (hu : OnlyMemory s u) : OnlyMemory s (if c then t else u) := by
  split
  · exact h
  · exact hu

end Steps
end OnlyMemory

/-! ### The pages of memory -/

theorem quarter_of_stackPlace {a : Nat} {x : StackPlace} (h : stackPlace a = some x) : x.quarter < 4 := by
  unfold stackPlace at h
  split at h
  · next q o hr =>
    rw [← Option.some.inj h]
    show q < 4
    unfold regionOf fSize at hr
    (repeat' split at hr) <;> simp at hr
    omega
  · next q o hr =>
    rw [← Option.some.inj h]
    show q < 4
    unfold regionOf dSize at hr
    (repeat' split at hr) <;> simp at hr
    omega
  · simp at h

theorem quarterPage_nmem {a : Nat} {x : StackPlace} (h : stackPlace a = some x) : QuarterPage (qPage .nmem x.quarter x.slot) where
  win := quarter_of_stackPlace h
  slot := by
    have hslot := slot_lt_of_stackPlace h
    show 0x88 + x.slot < 4096
    omega

theorem quarterPage_fold {a q o : Nat} (h : regionOf a = .fold q o) : QuarterPage (qPage .fold q 0) :=
  ⟨quarter_of_fold h, (by decide : 0x21 < 4096)⟩

theorem quarterPage_bgnd {q : Nat} (h : q < 4) : QuarterPage (qPage .bgnd q 0) := ⟨h, (by decide : 0xAA < 4096)⟩

/-! ### Operations that check codewords -/

namespace OnlyMemory
variable {s t : State} (h : OnlyMemory s t)
include h

theorem softRepair (a : Nat) : OnlyMemory s (t.softRepair a) := by
  unfold State.softRepair
  split
  · exact h
  · next p hp =>
    have hpage := quarterPage_nmem hp
    dsimp only
    refine ite ?_ (ite ?_ ?_)
    · exact h.raise _ hpage
    · exact ((h.setStack _ _ _).raiseIf _ _ hpage).setBit_fault _ _ (by decide)
    · exact (h.setStack _ _ _).raiseIf _ _ hpage

theorem stackCe {p : StackPlace} {a : Nat} (hp : stackPlace a = some p) (line c way j e : Nat) (queue : Bool) :
    OnlyMemory s (t.stackCe p line c way j e queue) := by
  have hpage := quarterPage_nmem hp
  have hcount {x : Stack} {v w i : Nat} : OnlyMemory s (((((((t.setStack p.quarter p.slot x).addSat (qPage .nmem p.quarter p.slot)
      Reg.NMEM_ECC_CE 1).setNum (qPage .nmem p.quarter p.slot) Reg.NMEM_CE_ADDR_LO v).setNum (qPage .nmem p.quarter p.slot)
      Reg.NMEM_CE_ADDR_HI w).setNum (qPage .nmem p.quarter p.slot) Reg.NMEM_CE_INFO i)).raise (qPage .nmem p.quarter p.slot) 0) :=
    (((((h.setStack _ _ _).addSat _ hpage (by decide)).setNum _ hpage (by decide)).setNum _ hpage (by decide)).setNum _ hpage
      (by decide)).raise _ hpage
  unfold State.stackCe
  dsimp only
  exact ite (hcount.softRepair _) hcount

theorem stackUe {p : StackPlace} {a : Nat} (hp : stackPlace a = some p) (line c cw : Nat) (rewrite : Bool) :
    OnlyMemory s (t.stackUe p line c cw rewrite) := by
  have hpage := quarterPage_nmem hp
  unfold State.stackUe
  dsimp only
  have hcount {x : Stack} {v w i : Nat} : OnlyMemory s (((((((t.setStack p.quarter p.slot x).addSat (qPage .nmem p.quarter p.slot)
      Reg.NMEM_ECC_UE 1).setNum (qPage .nmem p.quarter p.slot) Reg.NMEM_UE_ADDR_LO v).setNum (qPage .nmem p.quarter p.slot)
      Reg.NMEM_UE_ADDR_HI w).setNum (qPage .nmem p.quarter p.slot) Reg.NMEM_UE_SYND i)).raise (qPage .nmem p.quarter p.slot) 1) :=
    (((((h.setStack _ _ _).addSat _ hpage (by decide)).setNum _ hpage (by decide)).setNum _ hpage (by decide)).setNum _ hpage
      (by decide)).raise _ hpage
  exact ite (softRepair (ite (hcount.setUeLines _) hcount) _) (ite (hcount.setUeLines _) hcount)

theorem noteCodewordBy (cw : Nat) (way : Option Nat) (queue : Bool) : OnlyMemory s (t.noteCodewordBy cw way queue) := by
  unfold State.noteCodewordBy
  split
  · exact h
  · dsimp only
    split
    · next q o hr =>
      have hpage := quarterPage_fold hr
      split
      · exact h
      · have hraise := ((h.addSat (off := Reg.FOLD_ECC_CE) 1 hpage (by decide)).setNum (off := Reg.FOLD_CE_ADDR) o hpage
          (by decide)).raise 0 hpage
        exact ite hraise (hraise.setWriteBacks _)
      · exact (h.addSat _ hpage (by decide)).raise _ hpage
      · exact ((h.addSat _ hpage (by decide)).setNum _ hpage (by decide)).raise _ hpage
    · split
      · exact h
      · next p hp =>
        split
        · exact h
        · exact h.stackCe hp ..
        · exact (h.addSat _ (quarterPage_nmem hp) (by decide)).raise _ (quarterPage_nmem hp)
        · exact h.stackUe hp ..

theorem noteLine (line : Nat) (way : Option Nat) : OnlyMemory s (t.noteLine line way) :=
  foldl (fun u _ _ => (refl u).noteCodewordBy ..) h

theorem absorb (c : Nat) : OnlyMemory s (t.absorb c) := by
  unfold State.absorb
  exact ite h ((h.setMem _).setEcc _ _)

theorem settleCodeword (way : Option Nat) (c cover : Nat) (merge : Bool) : OnlyMemory s (t.settleCodeword way c cover merge) := by
  unfold State.settleCodeword
  split
  · exact h
  · split
    · exact ite (h.setEcc _ _) h
    · exact h
    · exact h
    · dsimp only
      have hn := h.noteCodewordBy c way false
      exact ite (ite (hn.setEcc _ _) (ite (hn.setEcc _ _) (hn.absorb _))) (ite (h.setEcc _ _) h)

theorem settleLine (way : Option Nat) (line : Nat) (cover : Nat → Nat) : OnlyMemory s (t.settleLine way line cover) :=
  foldl (fun u _ _ => (refl u).settleCodeword ..) h

theorem dropWriteBacks (a n : Nat) : OnlyMemory s (t.dropWriteBacks a n) := by
  unfold State.dropWriteBacks
  split
  · exact h
  · dsimp only
    split
    · next q o hr => exact ite h ((h.setWriteBacks _).addSat _ (quarterPage_bgnd (quarter_of_fold hr)) (by decide))
    · refine foldl (fun u i _ => ?_) h
      split
      · exact refl u
      · next p hp =>
        have hrewrites {c : Prop} [Decidable c] {x : Stack} : OnlyMemory u (if c then u.setStack p.quarter i x else u) :=
          ite ((refl u).setStack _ _ _) (refl u)
        exact ite hrewrites ((hrewrites.setStack _ _ _).addSat _ (quarterPage_bgnd (quarter_of_stackPlace hp)) (by decide))

theorem writeLanes (way : Option Nat) (line : Nat) (ws : List (Nat × Byte)) : OnlyMemory s (t.writeLanes way line ws) := by
  unfold State.writeLanes
  exact (settleLine (foldl (fun u _ _ => ite (refl u) ((refl u).dropWriteBacks _ _)) h) _ _ _).setMem _

theorem performReq (r : MemReq) : OnlyMemory s (t.performReq r) := by
  unfold State.performReq
  exact ite (h.writeLanes ..) (h.noteLine ..)

theorem flushLine (line : Nat) : OnlyMemory s (t.flushLine line) := by
  unfold State.flushLine
  split
  · exact h
  · exact ite (foldl (fun u _ _ => (refl u).performReq _) (h.setStack _ _ _)) h

theorem flush (a n : Nat) : OnlyMemory s (t.flush a n) := by
  unfold State.flush
  exact ite h (foldl (fun u _ _ => (refl u).flushLine _) h)

theorem lineAccess (via : Option (Nat × Nat)) (write merge : Bool) (line : Nat) :
    OnlyMemory s (t.lineAccess via write merge line).1 := by
  unfold State.lineAccess
  split
  · exact h
  · next p hp =>
    have hpage := quarterPage_nmem hp
    dsimp only
    split
    · exact h
    · exact (((h.setStack _ _ _).addSat _ hpage (by decide)).addSat _ hpage (by decide)).addSat _ hpage (by decide)

theorem noteReadBy (via : Option (Nat × Nat)) (a n : Nat) : OnlyMemory s (t.noteReadBy via a n) :=
  foldl (fun u _ _ => ((refl u).lineAccess ..).noteLine _ _) (h.flush a n)

theorem writeBytesBy (ways : List (Nat × Option Nat)) (a : Nat) (bs : List Byte) : OnlyMemory s (t.writeBytesBy ways a bs) :=
  ((foldl (fun u _ _ => (refl u).settleLine ..) (h.flush a bs.length)).dropWriteBacks _ _).setMem _

theorem markPoison (a : Nat) (bs : List (Byte × Bool)) : OnlyMemory s (t.markPoison a bs) :=
  foldl (fun u _ _ => ite ((refl u).setEcc _ _) (refl u)) h

theorem countWrites (via : Option (Nat × Nat)) (a n : Nat) : OnlyMemory s (t.countWrites via a n).1 :=
  List.foldlRecOn (motive := fun r : State × List (Nat × Option Nat) => OnlyMemory s r.1) _ _ (h.flush a n)
    (fun _ hr _ _ => hr.lineAccess ..)

theorem writeMarkedBy (via : Option (Nat × Nat)) (a : Nat) (bs : List (Byte × Bool)) : OnlyMemory s (t.writeMarkedBy via a bs) :=
  ((h.countWrites ..).writeBytesBy ..).markPoison ..

/-- A write that no lease keeps back changes memory only (R158). -/
theorem putWrite (owner : Option (Nat × Nat × Nat)) (a : Nat) (bs : List (Byte × Bool)) : OnlyMemory s (t.putWrite owner a bs) := by
  unfold State.putWrite
  exact ite ((h.writeBytesBy ..).markPoison ..) (h.writeMarkedBy ..)

end OnlyMemory

end Sys2Proof.Proofs
end

section
/-! PROOFS. Completion counters, ATTEMPT and COMMITTED: what a granted write stores, and what follows it leaves. -/

namespace Sys2Proof.Proofs
open Sys2Proof Sys2Proof.Machine Sys2Proof.Laws

/-! ## Completion counters (R109, R113) -/

section Counters
variable {a s : State} {o : Origin} {q k : Nat} {v : Word}

theorem counter_setCounter_other (s : State) (q k v q' k' : Nat) (h : 4096 * q' + k' ≠ 4096 * q + k) :
    (s.setCounter q k v).counter q' k' = s.counter q' k' := by
  unfold State.setCounter
  split
  · rfl
  · exact mapGet_set_other _ _ _ _ _ h

theorem counter_setCounter_same (s : State) (q v : Nat) (hk : k ≠ 0) : (s.setCounter q k v).counter q k = v := by
  unfold State.setCounter
  rw [if_neg hk]
  exact mapGet_set_same _ _ _ _

theorem journalAdd_counter (s : State) (e : JEntry) (q k : Nat) : (s.journalAdd e).counter q k = s.counter q k := by
  rw [journalAdd_fields]
  rfl

theorem setCounter_fields (s : State) (q k v : Nat) : s.setCounter q k v = { s with compute := (s.setCounter q k v).compute } := by
  unfold State.setCounter
  split <;> rfl

theorem replaceCounter_fields (s : State) (q k v : Nat) :
    s.replaceCounter q k v = { s with compute := (s.replaceCounter q k v).compute } := setCounter_fields ..

/-- A counter that is replaced holds the value, with the increments of this ACLK after it. -/
theorem counter_replaceCounter_same (s : State) (q v : Nat) (hk : k ≠ 0) :
    (s.replaceCounter q k v).counter q k = min 0xFFFFFFFF (v + s.added q k) := counter_setCounter_same s q _ hk

theorem counter_replaceCounter_other (s : State) (q k v q' k' : Nat) (h : 4096 * q' + k' ≠ 4096 * q + k) :
    (s.replaceCounter q k v).counter q' k' = s.counter q' k' := counter_setCounter_other s q k _ q' k' h

theorem kind_qPage_signal (hq : q < 4) {i : Nat} (hi : i < 16) :
    (qPage .signal q i).kind = some .signal ∧ (qPage .signal q i).inst = i := by
  have hslot : quarterPage (0x30 + i) = some (.signal, i) := by interval_cases i <;> rfl
  simp [Page.kind, Page.inst, qPage, hq, PageKind.slotBase, hslot]

/-- Every counter is a register that software may write (R113). -/
theorem specAt_counter (hq : q < 4) (hk : k < 4096) :
    ∃ r : RegSpec, (qPage .signal q (k / 256)).specAt (0x100 + 4 * (k % 256)) = some r ∧ r.rw ≠ 0 := by
  obtain ⟨hkind, -⟩ := kind_qPage_signal (i := k / 256) hq (by omega)
  refine ⟨{ off := Reg.SIGNAL_CTR, rw := 0xFFFFFFFF, count := 256 }, ?_, by decide⟩
  have hlow : ¬ 0x100 + 4 * (k % 256) < 0x100 := by omega
  simp only [Page.specAt, hkind, PageKind.regAt, hlow, if_false, PageKind.specs, specsSignal]
  exact List.find?_cons_of_pos (decide_eq_true (by simp only [Reg.SIGNAL_CTR]; omega))

/-- A granted write of a counter is what the counter makes of it, journalled. -/
theorem exec_signalCounterWrite {t : Nat} (hq : q < 4) (hk : k < 4096)
    (hg : Granted (s.advance t) o (qPage .signal q (k / 256)) (0x100 + 4 * (k % 256))) :
    let a := s.advance t
    ∃ e, exec (.signalCounterWrite t o q k v) s = .next
      ((if k = 0 ∨ reservedCounter k ∨ (a.migOn ∧ k = 4091) then a else a.replaceCounter q k v.toNat).journalAdd e) := by
  intro a
  obtain ⟨hkind, hinst⟩ := kind_qPage_signal (i := k / 256) hq (by omega)
  obtain ⟨spec, hspec, hrw⟩ := specAt_counter hq hk
  have hside : o ≠ .sideband := fun ho => by simpa using kind_of_sideband hg hkind ho
  have hplace : 256 * (k / 256) + (0x100 + 4 * (k % 256) - 0x100) / 4 = k := by omega
  have hwrite : a.writeBlock o (qPage .signal q (k / 256)) .signal (0x100 + 4 * (k % 256)) spec v =
      if k = 0 ∨ reservedCounter k ∨ (a.migOn ∧ k = 4091) then (a, false) else (a.replaceCounter q k v.toNat, true) := by
    show a.writeSignal (qPage .signal q (k / 256)) (0x100 + 4 * (k % 256)) v.toNat = _
    simp only [State.writeSignal, hinst, hplace, qPage_win]
  have hrow (u : State) (ok : Bool) (hclk : u.clk = a.clk) (htrain : u.train = a.train)
      (hu : a.writeBlock o (qPage .signal q (k / 256)) .signal (0x100 + 4 * (k % 256)) spec v = (u, ok)) :
      ∃ e, exec (.signalCounterWrite t o q k v) s = .next (u.journalAdd e) := by
    show ∃ e, writeRow (s.advance t) o (decide (q < 4 ∧ k < 4096)) (qPage .signal q (k / 256)) (0x100 + 4 * (k % 256)) v = _
    rw [decide_eq_true (p := q < 4 ∧ k < 4096) ⟨hq, hk⟩]
    exact writeRow_journalled hg hkind (by decide) (by decide) (decideWrite_of_block (by omega) hspec hrw hside
      (by decide) (by simp [rangeOk]) (by simp [State.idleOk]) hu) hclk htrain
  split
  · next hno => exact hrow a false rfl rfl (by rw [hwrite, if_pos hno])
  · next hno =>
    exact hrow (a.replaceCounter q k v.toNat) true (by rw [replaceCounter_fields]) (by rw [replaceCounter_fields])
      (by rw [hwrite, if_neg hno])

end Counters

/-! ## What a mend that begins leaves of the module's registers (R244, R462) -/

section Mends
variable {k : PageKind} {off : Nat} (hk : Unnoted k) (hpod : mPage k ≠ mPage .pod) (hoff : off < 4096)
include hk hpod hoff

theorem beside_pod : Beside (mPage .pod) (mPage k) off where
  page _ ho := page_reg_ne_of_page (mPage_slot_lt _) (mPage_slot_lt _) hoff ho hpod
  evq := offEvq_of_page (mPage_slot_lt _) hoff hk.evq

theorem seen_routeAt (s : State) (f : Frame) (travel : Option Nat) (at_ : Nat) (owe : Option (Nat × Nat × Nat × Nat)) :
    seen (s.routeAt f travel at_ owe).1 (mPage k) off = seen s (mPage k) off := by
  unfold State.routeAt
  split
  · show seen (s.raiseIf s.isLead (mPage .pod) 4) (mPage k) off = _
    unfold State.raiseIf
    split
    · exact seen_raise_beside _ _ (beside_pod hk hpod hoff)
    · rfl
  · rfl

theorem seen_sendId (s : State) (vl id : Nat) (b : Body) : seen (s.sendId vl id b) (mPage k) off = seen s (mPage k) off :=
  seen_routeAt hk hpod hoff ..

theorem seen_treeUp (s : State) (h : TreeHdr) (m : TreeMsg) : seen (s.treeUp h m) (mPage k) off = seen s (mPage k) off := by
  unfold State.treeUp
  split
  · exact seen_sendId hk hpod hoff ..
  · split
    · rfl
    · split
      · exact seen_sendId hk hpod hoff ..
      · rfl

omit hk hpod hoff in
theorem seen_nameHolder (s : State) (holder : Nat) : seen (s.nameHolder holder) (mPage k) off = seen s (mPage k) off := by
  unfold State.nameHolder
  split <;> rfl

theorem seen_askHolder (s : State) (page : Nat) : seen (s.askHolder page) (mPage k) off = seen s (mPage k) off := by
  unfold State.askHolder State.report
  dsimp only
  split
  · split
    · exact seen_nameHolder ..
    · rfl
  · exact seen_treeUp hk hpod hoff ..

theorem seen_startMends (s : State) : seen s.startMends (mPage k) off = seen s (mPage k) off := by
  unfold State.startMends
  refine foldl_same (fun t => seen t (mPage k) off) (fun t x _ => ?_) _
  dsimp only
  split
  · rfl
  · split
    · rfl
    · exact seen_askHolder hk hpod hoff ..

end Mends

/-! ## ATTEMPT and COMMITTED (R142, R143) -/

section Counts
variable {a s : State} {o : Origin} {k : Nat} {v : Word}

theorem unnoted_step : Unnoted .step where
  evq := by decide
  fault := by decide

/-- A write of memory leaves the words of STEP, and no register access waits that did not before. -/
theorem memPutBytes_step (s : State) (x : Nat) (bs : List Byte) {off : Nat} (hoff : off < 4096) :
    (s.memPutBytes none x bs).reg (mPage .step) off = s.reg (mPage .step) off ∧ (s.memPutBytes none x bs).clk = s.clk := by
  unfold State.memPutBytes State.memWrite
  split
  · exact ⟨rfl, rfl⟩
  · have hput := (OnlyMemory.refl s).putWrite none x (bs.map (fun b => (b, false)))
    have hclk := congrArg State.clk hput.beyond
    exact ⟨congrArg Prod.fst (hput.seen unnoted_step hoff), hclk⟩

@[inherit_doc memPutBytes_step] theorem mirrorCounts_step (s : State) {off : Nat} (hoff : off < 4096) :
    s.mirrorCounts.reg (mPage .step) off = s.reg (mPage .step) off ∧ s.mirrorCounts.clk = s.clk :=
  memPutBytes_step s _ _ hoff

/-- The words of the two counts are written as a whole (R142). -/
theorem specAt_stepCount (hk : k < 4) : ∃ r : RegSpec,
    (mPage .step).specAt (Reg.STEP_ATTEMPT_LO + 4 * k) = some r ∧ r.rw = 0xFFFFFFFF := by
  interval_cases k
  · exact ⟨{ off := Reg.STEP_ATTEMPT_LO, rw := 0xFFFFFFFF }, by decide, rfl⟩
  · exact ⟨{ off := Reg.STEP_ATTEMPT_HI, rw := 0xFFFFFFFF }, by decide, rfl⟩
  · exact ⟨{ off := Reg.STEP_COMMITTED_LO, rw := 0xFFFFFFFF }, by decide, rfl⟩
  · exact ⟨{ off := Reg.STEP_COMMITTED_HI, rw := 0xFFFFFFFF }, by decide, rfl⟩

theorem reg_store_whole {p : Page} {off : Nat} {r : RegSpec} (hr : r.rw = 0xFFFFFFFF) : (a.store p off r v).reg p off = v := by
  have hmask : BitVec.ofNat 32 0xFFFFFFFF = BitVec.allOnes 32 := by decide
  rw [State.store, reg_setReg_same, hr, hmask, BitVec.not_allOnes, BitVec.and_zero, BitVec.and_allOnes, BitVec.zero_or]

theorem reg_settled (s : State) {off : Nat} (hoff : off < 4096) :
    ∃ u, settled s = .next u ∧ u.reg (mPage .step) off = s.reg (mPage .step) off := by
  refine ⟨_, rfl, ?_⟩
  split
  · rfl
  · exact congrArg Prod.fst (seen_startMends unnoted_step (by decide) hoff s)

/-- In IDLE a granted write of a word of a count stores it: the copy in memory, and a mend that it may begin, leave it. -/
theorem stepCount_stored {t : Nat} (hk : k < 4) (hg : Granted (s.advance t) o (mPage .step) (Reg.STEP_ATTEMPT_LO + 4 * k))
    (hidle : (s.advance t).stepState = 0) :
    Completes (.stepCountWrite t o k v) s (fun u => u.reg (mPage .step) (Reg.STEP_ATTEMPT_LO + 4 * k) = v) := by
  obtain ⟨spec, hspec, hrw⟩ := specAt_stepCount hk
  have hoff : Reg.STEP_ATTEMPT_LO + 4 * k < 4096 := by simp only [Reg.STEP_ATTEMPT_LO]; omega
  have hside : o ≠ .sideband := fun ho => by simpa using kind_of_sideband hg (k := .step) (by decide) ho
  have hwrite : (s.advance t).writeBlock o (mPage .step) .step (Reg.STEP_ATTEMPT_LO + 4 * k) spec v =
      (((s.advance t).store (mPage .step) (Reg.STEP_ATTEMPT_LO + 4 * k) spec v).mirrorCounts, true) :=
    if_pos ⟨by omega, by simp only [Reg.STEP_ATTEMPT_LO, Reg.STEP_COMMITTED_HI]; omega⟩
  have hkind : (mPage .step).kind = some .step := by decide
  have hdecide := decideWrite_of_block (by simp only [Reg.STEP_ATTEMPT_LO]; omega) hspec (by rw [hrw]; decide) hside (by decide)
    (by simp only [rangeOk, Reg.STEP_HREC_CFG, Reg.STEP_ATTEMPT_LO, Bool.or_eq_true, bne_iff_ne]; omega)
    (by simp [State.idleOk, hidle]) hwrite
  obtain ⟨e, hperf⟩ := performWrite_journalled hkind rfl hdecide
    (afterWrite_of_kind _ _ (by simp [hkind]) (by simp [hkind]))
  obtain ⟨hreg, hclk⟩ := mirrorCounts_step ((s.advance t).store (mPage .step) (Reg.STEP_ATTEMPT_LO + 4 * k) spec v) hoff
  obtain ⟨u, hu, hsame⟩ :=
    reg_settled (((s.advance t).store (mPage .step) (Reg.STEP_ATTEMPT_LO + 4 * k) spec v).mirrorCounts.journalAdd e) hoff
  refine ⟨u, ?_, hsame.trans ?_⟩
  · show writeRow (s.advance t) o (decide (k < 4)) (mPage .step) (Reg.STEP_ATTEMPT_LO + 4 * k) v = _
    rw [decide_eq_true hk, writeRow_of_granted hg v 0 false (by simp), hperf,
      proceed_of_no_stalled (by rw [journalAdd_clk, hclk]; exact hg.1.2.1), hu]
  · rw [reg_journalAdd_other _ _ _ _ (by unfold Page.reg; simp only [Reg.STEP_ATTEMPT_LO, Reg.HDR_JRNL_SEQ]; omega),
      hreg, reg_store_whole hrw]

/-- In a step such a write is refused. -/
theorem stepCount_kept {t : Nat} (hk : k < 4) (hg : Granted (s.advance t) o (mPage .step) (Reg.STEP_ATTEMPT_LO + 4 * k))
    (hidle : (s.advance t).stepState ≠ 0) :
    Completes (.stepCountWrite t o k v) s (fun u =>
      u.reg (mPage .step) (Reg.STEP_ATTEMPT_LO + 4 * k) = (s.advance t).reg (mPage .step) (Reg.STEP_ATTEMPT_LO + 4 * k)) := by
  obtain ⟨spec, hspec, hrw⟩ := specAt_stepCount hk
  have hside : o ≠ .sideband := fun ho => by simpa using kind_of_sideband hg (k := .step) (by decide) ho
  have hnot : (s.advance t).idleOk .step (Reg.STEP_ATTEMPT_LO + 4 * k) = false := by
    have hcount : k = 0 ∨ k = 1 ∨ k = 2 ∨ k = 3 := by omega
    obtain rfl | rfl | rfl | rfl := hcount <;> simp [State.idleOk, hidle]
  have hd : (s.advance t).decideWrite { origin := o, page := mPage .step, off := Reg.STEP_ATTEMPT_LO + 4 * k, write := some v } .step v =
      (s.advance t, 2, false) := by
    unfold State.decideWrite
    have h8 : Reg.STEP_ATTEMPT_LO + 4 * k ≠ 0x008 := by simp only [Reg.STEP_ATTEMPT_LO]; omega
    have h10 : Reg.STEP_ATTEMPT_LO + 4 * k ≠ 0x010 := by simp only [Reg.STEP_ATTEMPT_LO]; omega
    have h14 : Reg.STEP_ATTEMPT_LO + 4 * k ≠ 0x014 := by simp only [Reg.STEP_ATTEMPT_LO]; omega
    have h18 : Reg.STEP_ATTEMPT_LO + 4 * k ≠ 0x018 := by simp only [Reg.STEP_ATTEMPT_LO]; omega
    have hblock : ¬ Reg.STEP_ATTEMPT_LO + 4 * k < 0x100 := by simp only [Reg.STEP_ATTEMPT_LO]; omega
    simp [hside, hspec, hrw, h8, h10, h14, h18, hblock, hnot, State.raiseIf]
  obtain ⟨e, hexec⟩ := writeRow_journalled hg (k := .step) (by decide) (by decide) (by decide) hd rfl rfl
  refine ⟨_, ?_, reg_journalAdd_other _ e _ _ (by unfold Page.reg; simp only [Reg.STEP_ATTEMPT_LO, Reg.HDR_JRNL_SEQ]; omega)⟩
  show writeRow (s.advance t) o (decide (k < 4)) (mPage .step) (Reg.STEP_ATTEMPT_LO + 4 * k) v = _
  rw [decide_eq_true hk, hexec]

end Counts

/-- Settles O15: a counter's write is what the counter makes of it, and a count's write is performed in IDLE only. -/
theorem countersAndStepCountsAreWritten : Obligations.CountersAndStepCountsAreWritten := by
  constructor
  · intro t o q k v s a hq hk hg
    obtain ⟨e, hexec⟩ := exec_signalCounterWrite (v := v) hq hk hg
    refine ⟨_, hexec, ?_, fun q' k' hne => ?_, ?_⟩
    · rw [journalAdd_counter]
      split
      · rfl
      · next hno => exact counter_replaceCounter_same a q v.toNat (fun h => hno (.inl h))
    · rw [journalAdd_counter]
      split
      · rfl
      · exact counter_replaceCounter_other a q k v.toNat q' k' hne
    · rw [journalAdd_fields]
      split
      · rfl
      · rw [replaceCounter_fields]
  · intro t o k v s
    dsimp only
    intro hk hg
    by_cases hidle : (s.advance t).stepState = 0
    · rw [if_pos hidle]
      exact stepCount_stored hk hg hidle
    · rw [if_neg hidle]
      exact stepCount_kept hk hg hidle

end Sys2Proof.Proofs
end

section
/-! PROOFS. Control entries: what WAIT_GE, TAKE, ADD and CLEAR make of their counter, and how they are consumed. -/

namespace Sys2Proof.Proofs
open Sys2Proof Sys2Proof.Machine Sys2Proof.Laws

/-! ## Counters (R107 to R109) -/

/-- A state differs from another in counter k of quarter q, which holds v, and not in another counter, a queue, memory, the fabric or
a stack. -/
structure CounterIs (a t : State) (q k v : Nat) : Prop where
  same : t.counter q k = v
  other : ∀ q' k', 4096 * q' + k' ≠ 4096 * q + k → t.counter q' k' = a.counter q' k'
  queues : t.compute.queues = a.compute.queues
  mem : t.mem = a.mem
  fabric : t.fabric = a.fabric
  units : t.stackUnits = a.stackUnits

section Counters
variable (a : State) (q k n v : Nat)

theorem counterIs_refl : CounterIs a a q k (a.counter q k) := ⟨rfl, fun _ _ _ => rfl, rfl, rfl, rfl, rfl⟩

/-- Counter 0 is never stored. -/
theorem counterIs_setCounter : CounterIs a (a.setCounter q k v) q k (if k = 0 then a.counter q k else v) := by
  unfold State.setCounter
  split
  · exact counterIs_refl a q k
  · exact ⟨mapGet_set_same _ _ _ _, fun _ _ h => mapGet_set_other _ _ _ _ _ h, rfl, rfl, rfl, rfl⟩

variable {a q k v}

/-- Events and the phase marks of the step leave the counters. -/
theorem CounterIs.of_compute {t u : State} (h : CounterIs a t q k v) (hc : u.compute = t.compute) (hm : u.mem = t.mem)
    (hf : u.fabric = t.fabric) (hs : u.stackUnits = t.stackUnits) : CounterIs a u q k v where
  same := by rw [State.counter, hc]; exact h.same
  other q' k' hne := by rw [State.counter, hc]; exact h.other q' k' hne
  queues := by rw [hc, h.queues]
  mem := hm.trans h.mem
  fabric := hf.trans h.fabric
  units := hs.trans h.units

theorem CounterIs.raiseIf {t : State} (h : CounterIs a t q k v) (c : Bool) (p : Page) (bit : Nat) :
    CounterIs a (t.raiseIf c p bit) q k v := by
  unfold State.raiseIf
  split
  · obtain ⟨pu, ⟨rs, cy, ev, hraise⟩, -⟩ := touches_raise t p bit
    rw [hraise]
    exact h.of_compute rfl rfl rfl rfl
  · exact h

theorem CounterIs.markPhase {t : State} (h : CounterIs a t q k v) : CounterIs a t.markPhase q k v := by
  unfold State.markPhase State.phaseEnd State.phaseStart State.setNum64
  split
  · dsimp only
    split
    · exact h.of_compute (by simp) (by simp) (by simp) (by simp)
    · exact h.of_compute (by simp) (by simp) (by simp) (by simp)
  · exact h

variable (a q k)

theorem counterIs_incs (l : List (Nat × Nat × Nat)) :
    CounterIs a { a with compute := { a.compute with incs := l } } q k (a.counter q k) := ⟨rfl, fun _ _ _ => rfl, rfl, rfl, rfl, rfl⟩

/-- A counter is set in a state that has the counters of another. -/
theorem CounterIs.setCounter {t : State} {v : Nat} (h : CounterIs a t q k (a.counter q k)) :
    CounterIs a (t.setCounter q k v) q k (if k = 0 then a.counter q k else v) := by
  obtain ⟨hsame, hother, hqueues, hmem, hfabric, hunits⟩ := counterIs_setCounter t q k v
  rw [h.same] at hsame
  exact ⟨hsame, fun q' k' hne => (hother q' k' hne).trans (h.other q' k' hne), hqueues.trans h.queues, hmem.trans h.mem,
    hfabric.trans h.fabric, hunits.trans h.units⟩

/-- An increment saturates (R108). -/
theorem counterIs_incCounter :
    CounterIs a (a.incCounter q k n) q k (if k = 0 then a.counter q k else min 0xFFFFFFFF (a.counter q k + n)) := by
  rw [Nat.min_comm]
  have hset (l : List (Nat × Nat × Nat)) (c : Bool) := ((counterIs_incs a q k l).setCounter a q k
    (v := min (a.counter q k + n) 0xFFFFFFFF)).raiseIf c (qPage .signal q (k / 256)) 0
  unfold State.incCounter
  dsimp only
  split
  · exact (hset _ _).markPhase
  · exact hset _ _

end Counters

/-! ## Consuming the entry at HEAD (R107) -/

section Consume
variable {a t : State} {q n k v : Nat}

theorem claimNext_fields (s : State) (q n : Nat) :
    s.claimNext q n = { s with compute := { s.compute with mangles := (s.claimNext q n).compute.mangles } } := by
  unfold State.claimNext
  split
  · rfl
  · dsimp only
    split <;> rfl

/-- A control entry with nothing fetched behind it is consumed. -/
theorem consumeControl_lone (h : CounterIs a t q k v) (hf : (a.queue q n).fetches.length = 1) :
    let u := t.consumeControl q n
    u.queue q n = { a.queue q n with head := ((a.queue q n).head + 1) % 65536, fetches := [] } ∧ u.counter q k = v ∧
    (∀ q' k', 4096 * q' + k' ≠ 4096 * q + k → u.counter q' k' = a.counter q' k') ∧
    (∀ q' n', 256 * q' + n' ≠ 256 * q + n → u.queue q' n' = a.queue q' n') ∧
    u.mem = a.mem ∧ u.fabric = a.fabric ∧ u.stackUnits = a.stackUnits := by
  obtain ⟨hsame, hother, hqueues, hmem, hfabric, hstacks⟩ := h
  have hqueue (q' n' : Nat) : t.queue q' n' = a.queue q' n' := by rw [State.queue, hqueues]; rfl
  have hconsumed : (t.queue q n).consume = { a.queue q n with head := ((a.queue q n).head + 1) % 65536, fetches := [] } := by
    obtain ⟨f, hlone⟩ := List.length_eq_one_iff.1 hf
    simp [Queue.consume, hqueue, hlone]
  unfold State.consumeControl
  rw [hconsumed, drain_of_no_fetches (by rw [queue_setQueue_same]), claimNext_fields]
  exact ⟨queue_setQueue_same .., hsame, hother, fun q' n' hne => (queue_setQueue_other _ _ _ _ _ _ hne).trans (hqueue q' n'),
    hmem, hfabric, hstacks⟩

end Consume

/-- What a control entry of each kind makes of its counter (R107). -/
def controlled (a : State) (q c k : Nat) (d : Desc) : Nat :=
  if k = 0 ∨ c = 0 then a.counter q k
  else if c = 1 then (if a.abortedWait k then a.counter q k else a.counter q k - dw d 2)
  else if c = 2 then min 0xFFFFFFFF (a.counter q k + dw d 2) else min 0xFFFFFFFF (a.added q k)

/-- A command that finds its entry, its wait met, acts on the counter and consumes the entry; else it does nothing. -/
theorem exec_control {t q n c : Nat} {d : Desc} {s : State} {i : Instr}
    (hi : i = [Instr.qctlWaitGe t q n, .qctlTake t q n, .qctlAdd t q n, .qctlClear t q n].getD c (.qctlWaitGe t q n)) (hc : c < 4)
    (hnow : (s.advance t).controlNow q n c = some d) :
    let a := s.advance t
    let k := df d 1 0 12
    ∃ u, CounterIs a u q k (controlled a q c k d) ∧ exec i s =
      if a.waitUnmet q n || (decide (c < 2) && a.takesFirst q n k (c == 1)) then .next a else .next (u.consumeControl q n) := by
  intro a k
  have hcounter {u : State} {v : Nat} (h : CounterIs a u q k v) (hv : controlled a q c k d = v) :
      CounterIs a u q k (controlled a q c k d) := hv ▸ h
  subst hi
  interval_cases c
  · refine ⟨a, hcounter (counterIs_refl a q k) (by simp [controlled]), ?_⟩
    show execQctlWaitGe t q n s = _
    simp only [execQctlWaitGe, done, hnow]
    rfl
  · refine ⟨_, hcounter (counterIs_setCounter a q k (if a.abortedWait k then a.counter q k else a.counter q k - dw d 2))
      (by simp [controlled]), ?_⟩
    show execQctlTake t q n s = _
    simp only [execQctlTake, done, hnow]
    rfl
  · refine ⟨_, hcounter (counterIs_incCounter a q k (dw d 2)) (by simp [controlled]), ?_⟩
    show execQctlAdd t q n s = _
    simp only [execQctlAdd, done, hnow, Nat.reduceLT, decide_false, Bool.false_and, Bool.or_false]
    rfl
  · refine ⟨_, hcounter (counterIs_setCounter a q k (min 0xFFFFFFFF (0 + a.added q k))) (by simp [controlled]), ?_⟩
    show execQctlClear t q n s = _
    simp only [execQctlClear, done, hnow, Nat.reduceLT, decide_false, Bool.false_and, Bool.or_false]
    rfl

/-- Settles O23: each kind of entry by its counter, and its consumption once for all. -/
theorem controlEntriesActOnCounters : Obligations.ControlEntriesActOnCounters := by
  intro t q n c d i s
  dsimp only
  intro hi hc hnow
  obtain ⟨u, hu, hexec⟩ := exec_control hi hc hnow
  refine ⟨fun h => hexec.trans (if_pos ?_), fun hmet hfirst hf => ⟨_, hexec.trans (if_neg ?_), consumeControl_lone hu hf⟩⟩
  · obtain h | ⟨hc, h⟩ := h
    · rw [h, Bool.true_or]
    · rw [h, decide_eq_true hc, Bool.and_self, Bool.or_true]
  · by_cases h : c < 2
    · simp [hmet, hfirst h]
    · simp [hmet, h]

end Sys2Proof.Proofs
end

section
/-! PROOFS. The Fold's sub-banks: which request is granted, what its grant does, its delivery, and rinse's reads. -/

namespace Sys2Proof.Proofs
open Sys2Proof Sys2Proof.Machine Sys2Proof.Laws

/-! ## The request that a sub-bank grants (R95) -/

theorem before_asymm {x y : FoldReq} (h : x.before y = true) : y.before x = false := by
  simp only [FoldReq.before, decide_eq_true_eq, decide_eq_false_iff_not] at h ⊢
  omega

/-- The request that goes before every other one is granted. -/
theorem bestReq_of_first {l : List FoldReq} {r : FoldReq} (hr : r ∈ l) (hfirst : ∀ o ∈ l, o ≠ r → r.before o = true) :
    bestReq l = some r := by
  have hmem : ∀ (l : List FoldReq) (b : FoldReq), bestReq l = some b → b ∈ l := by
    intro l
    induction l with
    | nil => simp [bestReq]
    | cons x l ih =>
      intro b hb
      rw [bestReq] at hb
      split at hb
      · simp_all
      · next c hc => split at hb <;> simp_all
  have hne : ∀ l : List FoldReq, bestReq l = none → l = [] := by
    intro l h
    cases l with
    | nil => rfl
    | cons x l =>
      rw [bestReq] at h
      split at h
      · simp at h
      · split at h <;> simp at h
  induction l with
  | nil => simp at hr
  | cons x l ih =>
    rw [bestReq]
    by_cases hin : r ∈ l
    · rw [ih hin (fun o ho => hfirst o (by simp [ho]))]
      by_cases hx : x = r
      · subst hx
        exact ite_self _
      · simp only [hfirst x (by simp) hx, if_true]
    · obtain rfl : r = x := by simpa [hin] using hr
      cases hb : bestReq l with
      | none => rfl
      | some b =>
        have hbl := hmem l b hb
        have hlast := before_asymm (hfirst b (by simp [hbl]) (fun e => hin (e ▸ hbl)))
        simp [hlast]

/-! ## Lines of the Fold on memory without errors (R97, R98) -/

section Lines
variable {s : State} {a : Nat}

/-- A write drops nothing where no correction waits. -/
theorem dropWriteBacks_of_none (hw : s.compute.fold.writeBacks = []) (ha : AboveStacks (a / 64 * 64)) (n : Nat) :
    s.dropWriteBacks a n = s := by
  unfold State.dropWriteBacks
  split
  · rfl
  · dsimp only
    split
    · simp [hw]
    · exact List.foldlRecOn (motive := (· = s)) _ _ rfl (fun t ht i _ => by simp only [stackPlace_aboveStacks ha, ht])

theorem aboveStacks_codeword {q off : Nat} (c : Nat) : AboveStacks ((foldBase q + off + 16 * c) / 64 * 64) := by
  have h := aboveStacks_foldBase q (off + 16 * c)
  unfold AboveStacks foldBase at *
  omega

/-- A granted write stores its lanes. -/
theorem writeLanes_of_no_errors {q off : Nat} (he : s.ecc = []) (hw : s.compute.fold.writeBacks = []) (way : Option Nat)
    (ws : List (Nat × Byte)) : s.writeLanes way (foldBase q + off) ws =
      { s with mem := ws.foldl (fun m w => memSet m (foldBase q + off + w.1 % 64) w.2) s.mem } := by
  unfold State.writeLanes
  dsimp only
  rw [List.foldlRecOn (motive := (· = s)) _ _ rfl (fun t ht c _ => ?_), settleLine_of_no_ecc he]
  subst ht
  split
  · rfl
  · exact dropWriteBacks_of_none hw (aboveStacks_codeword c) _

/-- A read finds nothing to note. -/
theorem noteRead_of_no_ecc (he : s.ecc = []) (ha : AboveStacks a) (n : Nat) : s.noteRead a n = s := by
  unfold State.noteRead State.noteReadBy
  rw [flush_aboveStacks s n ha]
  refine List.foldlRecOn (motive := (· = s)) _ _ rfl (fun t ht l hl => ?_)
  subst ht
  have haccess : t.lineAccess none false false l = (t, none) := by
    simp [State.lineAccess, stackPlace_aboveStacks (aboveStacks_of_mem_linesOf ha hl)]
  rw [haccess]
  exact noteLine_of_no_ecc he l none

end Lines

/-! ## Counters of a page (R97, R388) -/

section Numbers
variable (s : State) (p : Page) (off n : Nat)

theorem num_setFold (s : State) (x : FoldSched) (p : Page) (off : Nat) : (s.setFold x).num p off = s.num p off := rfl

theorem num_addSat : (s.addSat p off n).num p off = min 0xFFFFFFFF (s.num p off + n) := by
  unfold State.addSat
  rw [num_setNum, Nat.mod_eq_of_lt (by omega)]

theorem num_addSat_other {off' : Nat} (h : off ≠ off') : (s.addSat p off' n).num p off = s.num p off := by
  obtain ⟨-, hreg⟩ := touches_addSat (K := (· = p.reg off')) s n rfl
  rw [State.num, hreg _ _ (page_reg_ne_of_off h), ← State.num]

theorem addSat_fields : s.addSat p off n = { s with regs := (s.addSat p off n).regs, cycle := (s.addSat p off n).cycle } := by
  obtain ⟨⟨rs, cy, ev, h⟩, -⟩ := touches_addSat (K := fun _ => True) s (p := p) (off := off) n trivial
  have hev : (s.addSat p off n).events = s.events := addSat_events ..
  rw [h] at hev ⊢
  simp only at hev
  rw [← hev]

end Numbers

/-! ## Grants (R95 to R98) -/

section Grant
variable {a : State} {q bank sub : Nat} {r : FoldReq}

/-- The requests of sub-bank `sub` of a bank. -/
def subBankReqs (q bank sub : Nat) (l : List FoldReq) : List FoldReq :=
  l.filter (fun r => r.quarter == q && subBank r.off == 4 * bank + sub)

theorem bestReq_subBankReqs {l : List FoldReq} (hr : r ∈ l) (hq : r.quarter = q) (hb : subBank r.off = 4 * bank + sub)
    (hfirst : ∀ o ∈ l, o.quarter = q ∧ subBank o.off = 4 * bank + sub → o ≠ r → r.before o = true) :
    bestReq (subBankReqs q bank sub l) = some r := by
  refine bestReq_of_first (List.mem_filter.2 ⟨hr, by simp [hq, hb]⟩) (fun o ho hne => ?_)
  obtain ⟨hol, hhere⟩ := List.mem_filter.1 ho
  exact hfirst o hol (by simpa using hhere) hne

/-- The requests that a sub-bank keeps when it grants one: those that were kept from a grant in their first ACLK are counted. -/
def keptReqs (a : State) (q bank sub : Nat) (r : FoldReq) : List FoldReq :=
  (a.compute.fold.reqs.erase r).map (fun o =>
    if (o.quarter == q && subBank o.off == 4 * bank + sub) && !o.counted && (o != r || decide (r.at_ < a.now)) then
      { o with counted := true } else o)

/-- The state in which a granted request is performed: it is gone, the sub-bank is taken, and `n` conflicts are counted. -/
def granted (a : State) (q bank sub : Nat) (r : FoldReq) (n : Nat) : State :=
  (a.setFold { a.compute.fold with reqs := keptReqs a q bank sub r, lastGrant := mapSet (fun _ => 0) a.compute.fold.lastGrant (256 * q + 4 * bank + sub) (a.now + 1) }).addSat
    (qPage .fold q 0) Reg.FOLD_CONFLICT n

theorem execFoldAccessGrant_eq {t : Nat} {arrivals : List FoldArrival} {flips : List (Nat × Nat)} {s : State}
    (ha : a = arrivals.foldl (fun s x => s.foldArrive q x) ((s.advance t).upset flips)) (hslot : a.now % 1024 ≠ 0)
    (hfree : mapGet (fun _ => 0) a.compute.fold.lastGrant (256 * q + 4 * bank + sub) ≤ a.now)
    (hbest : bestReq (subBankReqs q bank sub a.compute.fold.reqs) = some r) :
    ∃ n, exec (.foldAccessGrant t q bank sub arrivals flips) s = .next ((granted a q bank sub r n).foldPerform r) := by
  subst ha
  apply Exists.intro
  show execFoldAccessGrant t q bank sub arrivals flips s = _
  unfold execFoldAccessGrant
  dsimp only
  rw [if_neg (not_or.2 ⟨hslot, by omega⟩), show bestReq (List.filter _ _) = some r from hbest]
  rfl

theorem keptReqs_length (hr : r ∈ a.compute.fold.reqs) : (keptReqs a q bank sub r).length + 1 = a.compute.fold.reqs.length := by
  have hpos := List.length_pos_of_mem hr
  rw [keptReqs, List.length_map, List.length_erase_of_mem hr]
  omega

/-- A state with nothing changed but registers, what hardware did to them, and the Fold's scheduler. -/
def OnlyFold (a b : State) : Prop :=
  b = { a with regs := b.regs, cycle := b.cycle, compute := { a.compute with fold := b.compute.fold } }

theorem onlyFold_addSat (a : State) (x : FoldSched) (p : Page) (off n : Nat) : OnlyFold a ((a.setFold x).addSat p off n) := by
  unfold OnlyFold
  rw [addSat_fields]
  rfl

theorem granted_fields (a : State) (q bank sub : Nat) (r : FoldReq) (n : Nat) :
    let u := granted a q bank sub r n
    OnlyFold a u ∧ u.compute.fold = { a.compute.fold with reqs := keptReqs a q bank sub r, lastGrant := mapSet (fun _ => 0) a.compute.fold.lastGrant (256 * q + 4 * bank + sub) (a.now + 1) } := by
  refine ⟨?_, ?_⟩
  · exact onlyFold_addSat ..
  · simp only [granted, addSat_compute]
    rfl

/-- A read of a request granted now, with the line as memory holds it. -/
def readOf (a : State) (r : FoldReq) : FoldRead :=
  { quarter := r.quarter, off := r.off, granted := a.now, fetchOf := r.fetchOf, line := leNat (memBytes a.mem (foldBase r.quarter + r.off) 64) }

section Perform
variable {b : State} (hb : OnlyFold a b)
include hb

/-- A granted write stores its lanes, and changes nothing else. -/
theorem foldPerform_write (hclean : Clean a) (hbacks : b.compute.fold.writeBacks = []) (hwrite : r.isWrite = true) :
    let u := b.foldPerform r
    u.compute.fold = b.compute.fold ∧ u.mem = r.write.foldl (fun m w => memSet m (foldBase r.quarter + r.off + w.1 % 64) w.2) a.mem ∧
    u = { a with regs := u.regs, cycle := u.cycle, mem := u.mem, compute := { a.compute with fold := u.compute.fold } } := by
  have hecc : b.ecc = [] := by rw [hb]; exact hclean.1
  have hmem : b.mem = a.mem := by rw [hb]
  intro u
  have hu : u = { b with mem := r.write.foldl (fun m w => memSet m (foldBase r.quarter + r.off + w.1 % 64) w.2) a.mem } := by
    simp only [u, State.foldPerform, hwrite, if_true, writeLanes_of_no_errors hecc hbacks, hmem]
  rw [hu]
  refine ⟨rfl, rfl, ?_⟩
  rw [hb]

/-- A granted read takes the line as it stands, and changes nothing else. -/
theorem foldPerform_read (hclean : Clean a) (hwrite : r.isWrite = false) :
    let u := b.foldPerform r
    u.compute.fold = { b.compute.fold with reads := b.compute.fold.reads ++ [readOf a r] } ∧ u.mem = a.mem ∧
    u = { a with regs := u.regs, cycle := u.cycle, mem := u.mem, compute := { a.compute with fold := u.compute.fold } } := by
  have hecc : b.ecc = [] := by rw [hb]; exact hclean.1
  have hmem : b.mem = a.mem := by rw [hb]
  have hnow : b.now = a.now := by rw [hb]
  have habove := aboveStacks_foldBase r.quarter r.off
  intro u
  have hu : u = b.setFold { b.compute.fold with reads := b.compute.fold.reads ++ [readOf a r] } := by
    simp only [u, State.foldPerform, hwrite, Bool.false_eq_true, if_false, noteRead_of_no_ecc hecc habove,
      linePoisoned_of_no_ecc hecc, readBytes_of_no_ecc _ habove hecc, hmem, hnow, readOf]
  rw [hu]
  refine ⟨rfl, hmem, ?_⟩
  rw [hb]
  rfl

end Perform

/-- What a granted request leaves of the state, on memory without errors. -/
theorem foldPerform_granted {b : State} (hb : OnlyFold a b)
    (hfold : b.compute.fold = { a.compute.fold with
      reqs := keptReqs a q bank sub r, lastGrant := mapSet (fun _ => 0) a.compute.fold.lastGrant (256 * q + 4 * bank + sub) (a.now + 1) })
    (hclean : Clean a) (hr : r ∈ a.compute.fold.reqs) (hq : r.quarter = q) :
    let f := a.compute.fold
    let line := foldBase q + r.off
    let u := b.foldPerform r
    mapGet (fun _ => 0) u.compute.fold.lastGrant (256 * q + 4 * bank + sub) = a.now + 1 ∧
    u.compute.fold.reqs.length + 1 = f.reqs.length ∧
    (r.isWrite = true → u.mem = r.write.foldl (fun m w => memSet m (line + w.1 % 64) w.2) a.mem ∧
      u.compute.fold.reads = f.reads) ∧
    (r.isWrite = false → u.mem = a.mem ∧ u.compute.fold.reads = f.reads ++
      [{ quarter := q, off := r.off, granted := a.now, fetchOf := r.fetchOf, line := leNat (memBytes a.mem line 64) }]) ∧
    u = { a with regs := u.regs, cycle := u.cycle, mem := u.mem, compute := { a.compute with fold := u.compute.fold } } := by
  intro f line u
  subst hq
  have htaken : mapGet (fun _ => 0) b.compute.fold.lastGrant (256 * r.quarter + 4 * bank + sub) = a.now + 1 := by
    refine (congrArg (fun f : FoldSched => mapGet (fun _ => 0) f.lastGrant (256 * r.quarter + 4 * bank + sub)) hfold).trans ?_
    dsimp only
    exact mapGet_set_same (fun _ => (0 : Nat)) _ _ _
  have hgone : b.compute.fold.reqs.length + 1 = f.reqs.length := by
    rw [hfold]
    exact keptReqs_length hr
  have hreads : b.compute.fold.reads = f.reads := by rw [hfold]
  cases hwrite : r.isWrite with
  | true =>
    obtain ⟨hsched, hmem, hrest⟩ := foldPerform_write hb hclean (by rw [hfold]; exact hclean.2.1) hwrite
    exact ⟨by rw [hsched]; exact htaken, by rw [hsched]; exact hgone, fun _ => ⟨hmem, by rw [hsched]; exact hreads⟩,
      fun h => absurd h (by decide), hrest⟩
  | false =>
    obtain ⟨hsched, hmem, hrest⟩ := foldPerform_read hb hclean hwrite
    exact ⟨by rw [hsched]; exact htaken, by rw [hsched]; exact hgone, fun h => absurd h (by decide),
      fun _ => ⟨hmem, by rw [hsched, ← hreads]; rfl⟩, hrest⟩

end Grant

/-! ## Promotion and delivery (R95, R335) -/

theorem queue_setFold (s : State) (x : FoldSched) (q n : Nat) : (s.setFold x).queue q n = s.queue q n := rfl

/-- The state after a read was delivered, with the reads `l` left: a ring entry that waits for the line takes it (R98, R335). -/
def delivered (a : State) (q : Nat) (r : FoldRead) (l : List FoldRead) : State :=
  let b := a.setFold { a.compute.fold with reads := l }
  match r.fetchOf with
  | none => b
  | some (n, i) => b.setQueue q n { b.queue q n with
      fetches := replaceFirst (fun g => g.index == i && g.line.isNone)
        (fun g => { g with line := some (BitVec.ofNat 512 r.line), poisoned := r.poisoned }) (b.queue q n).fetches }

section Delivered
variable (a : State) (q : Nat) (r : FoldRead) (l : List FoldRead)

theorem delivered_reads_mem : (delivered a q r l).compute.fold.reads = l ∧ (delivered a q r l).mem = a.mem := by
  unfold delivered
  dsimp only
  split <;> exact ⟨rfl, rfl⟩

variable {r}

theorem delivered_of_no_fetch (h : r.fetchOf = none) :
    delivered a q r l = { a with compute := { a.compute with fold := (delivered a q r l).compute.fold } } := by
  simp only [delivered, h]
  rfl

theorem delivered_of_fetch {n i : Nat} {g : Fetch} (h : r.fetchOf = some (n, i)) (hf : (a.queue q n).fetches = [g]) (hg : g.index = i)
    (hline : g.line = none) :
    ((delivered a q r l).queue q n).fetches = [{ g with line := some (BitVec.ofNat 512 r.line), poisoned := r.poisoned }] := by
  simp only [delivered, h, queue_setQueue_same, queue_setFold, hf]
  simp [replaceFirst, hg, hline]

end Delivered

section Delivery
variable {a : State} {q off num : Nat}

theorem execFoldRequestPromote_eq {t : Nat} {r : FoldReq} {s : State} (hreqs : (s.advance t).compute.fold.reqs = [r])
    (hq : r.quarter = q) (hoff : r.off = off / 64 * 64) (hnum : r.num = num) (hp : r.promoted = false)
    (hold : r.at_ + 32 ≤ (s.advance t).now) :
    exec (.foldRequestPromote t q off num) s = .next (((s.advance t).setFold
      { (s.advance t).compute.fold with reqs := [{ r with promoted := true }] }).addSat (qPage .fold q 0) Reg.FOLD_PROMOTED 1) := by
  show execFoldRequestPromote t q off num s = _
  simp [execFoldRequestPromote, hreqs, hq, hoff, hnum, hp, hold, replaceFirst, done]

theorem execFoldReadComplete_eq {t : Nat} {r : FoldRead} {l : List FoldRead} {s : State}
    (hreads : (s.advance t).compute.fold.reads = r :: l) (hq : r.quarter = q) (hoff : r.off = off / 64 * 64)
    (hold : r.granted + 18 ≤ (s.advance t).now) :
    exec (.foldReadComplete t q off) s = .next (delivered (s.advance t) q r l) := by
  show execFoldReadComplete t q off s = _
  have hmine : (r.quarter == q && r.off == off / 64 * 64) = true := by simp [hq, hoff]
  have hlate : ¬ (s.advance t).now < r.granted + 18 := by omega
  unfold execFoldReadComplete delivered
  simp only [hreads, List.find?_cons_of_pos, List.findIdx_cons, hmine, hlate, if_false, cond_true, List.eraseIdx_zero, List.tail_cons]
  cases hfetch : r.fetchOf <;> rfl

end Delivery

/-! ## Rinse's ACLK (R96, R387) -/

section Scrub
variable {q bank sub : Nat}

theorem check_of_no_ecc {s : State} (h : s.ecc = []) (c : Nat) : s.check c = .clean := by
  simp [State.check, State.eccAt, h, mapGet]

/-- The state after a patrol read of quarter q that finds nothing: the sub-bank with key k is at its next line, and `passes` passes
are complete (R387, R388). -/
def patrolled (a : State) (q k passes : Nat) : State :=
  let bg := qPage .bgnd q 0
  let c := mapGet (fun _ => 0) a.compute.fold.patrol k
  ((((a.addSat bg Reg.BGND_RINSE_FOUND 0).addSat bg Reg.BGND_RINSE_UE 0).setFold
    { a.compute.fold with writeBacks := [], patrol := mapSet (fun _ => 0) a.compute.fold.patrol k (c + 1) }).setNum
    bg Reg.BGND_FOLD_POS ((c + 1) % 10240)).addWrap bg Reg.BGND_FOLD_PASSES passes

theorem fold_patrolled (a : State) (q k passes : Nat) : (patrolled a q k passes).compute.fold = { a.compute.fold with
    writeBacks := [], patrol := mapSet (fun _ => 0) a.compute.fold.patrol k (mapGet (fun _ => 0) a.compute.fold.patrol k + 1) } := by
  simp only [patrolled, addWrap_compute, setNum_compute]
  rfl

theorem patrol_patrolled (a : State) (q k passes : Nat) :
    mapGet (fun _ => 0) (patrolled a q k passes).compute.fold.patrol k = mapGet (fun _ => 0) a.compute.fold.patrol k + 1 := by
  rw [fold_patrolled]
  dsimp only
  exact mapGet_set_same (fun _ => (0 : Nat)) _ _ _

theorem reqs_patrolled (a : State) (q k passes : Nat) : (patrolled a q k passes).compute.fold.reqs = a.compute.fold.reqs := by
  rw [fold_patrolled]

theorem num_patrolled (a : State) (q k passes : Nat) : (patrolled a q k passes).num (qPage .bgnd q 0) Reg.BGND_FOLD_POS =
    (mapGet (fun _ => 0) a.compute.fold.patrol k + 1) % 10240 := by
  rw [patrolled, State.addWrap, num_setNum_other _ _ _ _ _ _ (page_reg_ne_of_off (by decide)), num_setNum, Nat.mod_eq_of_lt (by omega)]

theorem mem_ecc_patrolled (a : State) (q k passes : Nat) :
    (patrolled a q k passes).mem = a.mem ∧ (patrolled a q k passes).ecc = a.ecc := by
  simp [patrolled]

/-- On memory without errors rinse's ACLK is the next patrol read, which finds nothing. -/
theorem execFoldScrubCycle_eq {t : Nat} {s : State} (hslot : (s.advance t).now % 1024 = 0)
    (hon : (s.advance t).bit (qPage .bgnd q 0) Reg.BGND_RINSE_CTL 0 = true)
    (hdue : (s.advance t).now / 1024 % 2 ^ (s.advance t).field (qPage .bgnd q 0) Reg.BGND_RINSE_CTL 2 4 = 0)
    (hclean : Clean (s.advance t)) :
    ∃ passes, exec (.foldScrubCycle t q bank sub []) s = .next (patrolled (s.advance t) q (256 * q + (4 * bank + sub)) passes) := by
  apply Exists.intro
  show execFoldScrubCycle t q bank sub [] s = _
  unfold execFoldScrubCycle
  have hnone : (List.range 4).filter (fun _ => false) = ([] : List Nat) := by simp
  simp only [hslot, hon, hdue, ne_eq, not_true_eq_false, if_false, hclean.2.1, List.find?_nil, Bool.not_true, Bool.or_self, decide_false,
    Bool.false_eq_true, State.upset, List.foldl_nil, check_of_no_ecc hclean.1, hnone, List.length_nil,
    noteRead_of_no_ecc hclean.1 (aboveStacks_foldBase q _), State.raiseIf, addSat_compute]
  rfl

end Scrub

/-- Settles O21: each command by what it does on memory without errors. -/
theorem foldGrantsReadsAndScrubs : Obligations.FoldGrantsReadsAndScrubs := by
  refine ⟨?_, ?_, ?_, ?_⟩
  · intro t q bank sub arrivals flips r s
    dsimp only
    rintro - hslot hfree hr ⟨hq, hb⟩ - - hfirst hclean
    obtain ⟨n, hexec⟩ := execFoldAccessGrant_eq (t := t) (arrivals := arrivals) (flips := flips) (s := s) rfl hslot hfree (bestReq_subBankReqs hr hq hb hfirst)
    obtain ⟨honly, hfold⟩ := granted_fields (arrivals.foldl (fun s x => s.foldArrive q x) ((s.advance t).upset flips)) q bank sub r n
    exact ⟨_, hexec, foldPerform_granted honly hfold hclean hr hq⟩
  · intro t q off num r s
    dsimp only
    intro hreqs hq hoff hnum hp hold
    refine ⟨_, execFoldRequestPromote_eq hreqs hq hoff hnum hp hold, ?_, ?_, ?_⟩
    · simp only [addSat_compute]
      rfl
    · rw [num_addSat, num_setFold]
    · exact onlyFold_addSat ..
  · intro t q off r l s
    dsimp only
    intro hreads hq hoff hold
    obtain ⟨hleft, hmem⟩ := delivered_reads_mem (s.advance t) q r l
    exact ⟨_, execFoldReadComplete_eq hreads hq hoff hold, hleft, delivered_of_no_fetch _ q l,
      fun n i g hsome hfetches hindex hline => delivered_of_fetch _ q l hsome hfetches hindex hline, hmem⟩
  · intro t q bank sub s
    dsimp only
    intro hq hslot hon hdue hclean
    obtain ⟨passes, hexec⟩ := execFoldScrubCycle_eq (bank := bank) (sub := sub) hslot hon hdue hclean
    obtain ⟨hmem, hecc⟩ := mem_ecc_patrolled (s.advance t) q (256 * q + (4 * bank + sub)) passes
    rw [← Nat.add_assoc] at hexec hmem hecc
    exact ⟨_, hexec, patrol_patrolled .., num_patrolled .., hmem, hecc, reqs_patrolled ..⟩

end Sys2Proof.Proofs
end

section
/-! PROOFS. Memory without errors whose accesses have all been performed: what its reads deliver and what its writes store. -/

namespace Sys2Proof.Proofs
open Sys2Proof Sys2Proof.Machine Sys2Proof.Laws

/-! ## Idle memory (R158, R213 to R215)

A line may wait for its page mend; no error is stored, every access assigned at a stack is performed and no lease keeps one back.
The reads and writes of an engine leave it so. -/

/-- An access has been performed, and nothing kept it back. -/
def Passed (r : MemReq) : Prop := r.done_ = true ∧ r.kept = none

/-- No error is stored, and every access assigned at a stack has passed. -/
structure Idle (s : State) : Prop where
  ecc : s.ecc = []
  reqs : ∀ e ∈ s.stackUnits, ∀ r ∈ e.2.reqs, Passed r

theorem idle_of_clean {s : State} (h : Clean s) : Idle s where
  ecc := h.1
  reqs e he r hr := by
    have hnone : e.2.reqs = [] := (h.2.2 e he).2.1
    simp [hnone] at hr

/-- What leaves the errors and the stacks keeps memory idle. -/
theorem Idle.of_same {s t : State} (h : Idle s) (he : t.ecc = s.ecc) (hu : t.stackUnits = s.stackUnits) : Idle t :=
  ⟨he.trans h.ecc, by rw [hu]; exact h.reqs⟩

theorem assign_passed {x : Stack} (hx : ∀ r ∈ x.reqs, Passed r) (p : StackPlace) (now first : Nat) {r : MemReq}
    (hr : Passed r) : ∀ o ∈ (x.assign p now first r).2.1.reqs, Passed o := by
  intro o ho
  simp only [Stack.assign, List.mem_append, List.mem_singleton] at ho
  obtain ho | rfl := ho
  · exact hx o (List.mem_of_mem_filter ho)
  · exact hr

section Idle
variable {s : State} (h : Idle s)
include h

theorem Idle.stack (q n : Nat) : ∀ r ∈ (s.stack q n).reqs, Passed r :=
  mapGet_holds (P := fun x : Stack => ∀ r ∈ x.reqs, Passed r) (fun _ r hr => by simp at hr) h.reqs _

theorem Idle.setStack (q n : Nat) {x : Stack} (hx : ∀ r ∈ x.reqs, Passed r) : Idle (s.setStack q n x) :=
  ⟨h.ecc, by
    show ∀ e ∈ mapSet (fun _ => ({} : Stack)) s.stackUnits (8 * q + n) x, ∀ r ∈ e.2.reqs, Passed r
    exact mapSet_holds (P := fun x : Stack => ∀ r ∈ x.reqs, Passed r) h.reqs hx⟩

theorem Idle.setStack_of_reqs (q n : Nat) {x : Stack} (hx : x.reqs = (s.stack q n).reqs) : Idle (s.setStack q n x) :=
  h.setStack q n (by rw [hx]; exact h.stack q n)

theorem Idle.addSat (p : Page) (off n : Nat) : Idle (s.addSat p off n) := 
  h.of_same (by simp) (congrArg Rest.stackUnits (rest_addSat ..))

theorem Idle.raiseIf (c : Bool) (p : Page) (bit : Nat) : Idle (s.raiseIf c p bit) :=
  h.of_same (ecc_of_ground (ground_raiseIf ..)) (congrArg Rest.stackUnits (rest_raiseIf ..))

theorem Idle.ite {c : Prop} [Decidable c] {t : State} (ht : Idle t) : Idle (if c then t else s) := by
  split
  · exact ht
  · exact h

/-- No write of the schedulers is kept back. -/
theorem Idle.keptShares (a n : Nat) (since : Option Nat) : s.keptShares a n since = false := by
  refine List.any_eq_false.2 (fun e he => ?_)
  rw [Bool.not_eq_true]
  refine List.any_eq_false.2 (fun r hr => ?_)
  simp [(h.reqs e he r hr).2]

/-- Nothing waits, so nothing is performed. -/
theorem Idle.flush (a n : Nat) : s.flush a n = s := by
  unfold State.flush
  split
  · rfl
  · refine List.foldlRecOn (motive := (· = s)) _ _ rfl (fun t ht l _ => ?_)
    subst ht
    unfold State.flushLine
    split
    · rfl
    · next p _ =>
      dsimp only
      refine if_neg (fun hany => ?_)
      obtain ⟨r, hr, hmine⟩ := List.any_eq_true.1 hany
      simp [State.mayPerform, (h.stack _ _ r hr).1] at hmine

theorem Idle.lineAccess (via : Option (Nat × Nat)) (write merge : Bool) (line : Nat) : Idle (s.lineAccess via write merge line).1 := by
  unfold State.lineAccess
  split
  · exact h
  · dsimp only
    split
    · exact h
    · refine Idle.addSat (Idle.addSat (Idle.addSat (h.setStack _ _ ?_) _ _ _) _ _ _) _ _ _
      intro r hr
      obtain ⟨o, ho, rfl⟩ := List.mem_map.1 hr
      have hpassed : Passed o := by
        refine assign_passed ?_ _ _ _ ?_ o ho
        · exact h.stack _ _
        · exact ⟨rfl, rfl⟩
      refine ⟨?_, ?_⟩
      · exact (apply_ite MemReq.done_ _ _ _).trans ((ite_self _).trans hpassed.1)
      · exact (apply_ite MemReq.kept _ _ _).trans ((ite_self _).trans hpassed.2)

theorem Idle.noteReadBy (via : Option (Nat × Nat)) (a n : Nat) : Idle (s.noteReadBy via a n) := by
  unfold State.noteReadBy
  rw [h.flush]
  refine List.foldlRecOn (motive := Idle) _ _ h (fun t ht l _ => ?_)
  have hline := ht.lineAccess via false false l
  dsimp only
  rwa [noteLine_of_no_ecc hline.ecc]

theorem Idle.ground_noteReadBy (via : Option (Nat × Nat)) (a n : Nat) : ground (s.noteReadBy via a n) = ground s := by
  unfold State.noteReadBy
  rw [h.flush]
  exact foldl_same ground (by simp) s

theorem Idle.mem_noteReadBy (via : Option (Nat × Nat)) (a n : Nat) : (s.noteReadBy via a n).mem = s.mem :=
  mem_of_ground (h.ground_noteReadBy via a n)

/-- A read delivers the bytes that are there, none of them poisoned. -/
theorem Idle.readMarked (a n : Nat) : s.readMarked a n = (memBytes s.mem a n).map (fun b => (b, false)) := by
  have hclean : ∀ c, s.poisonedAt c = false := fun c => by simp [State.poisonedAt, State.check, State.eccAt, h.ecc, mapGet]
  unfold State.readMarked
  rw [h.flush]
  obtain rfl | hn := Nat.eq_zero_or_pos n
  · simp [memBytes]
  · have hlen : 16 * ((a + n - 1) / 16 + 1 - a / 16) = a % 16 + (n + (16 * ((a + n - 1) / 16 + 1) - (a + n))) := by omega
    have haddr : 16 * (a / 16) + a % 16 = a := by omega
    have hmap (l : List Nat) : l.flatMap (fun c => (memBytes s.mem (16 * c) 16).map (fun b => (b, false))) =
        (l.flatMap (fun c => memBytes s.mem (16 * c) 16)).map (fun b => (b, false)) := by rw [List.map_flatMap]
    simp only [codewordsOf, hn.ne', if_false, hclean, codeword_of_no_ecc h.ecc]
    rw [hmap, flatMap_codewords, hlen, ← List.map_drop, ← List.map_take, drop_memBytes, haddr, take_memBytes]

theorem Idle.readBytes (a n : Nat) : s.readBytes a n = memBytes s.mem a n := by
  simp [State.readBytes, h.readMarked, Function.comp_def]

theorem Idle.readPoisoned (a n : Nat) : s.readPoisoned a n = false := by
  unfold State.readPoisoned
  rw [h.flush]
  simp [State.poisonedAt, State.check, State.eccAt, h.ecc, mapGet]

theorem Idle.dropWriteBacks (a n : Nat) : Idle (s.dropWriteBacks a n) := by
  unfold State.dropWriteBacks
  dsimp only
  split
  · exact h
  · split
    · split
      · exact h
      · refine Idle.addSat (Idle.of_same h ?_ ?_) _ _ _
        · rfl
        · rfl
    · refine List.foldlRecOn (motive := Idle) _ _ h (fun t ht i _ => ?_)
      split
      · exact ht
      · generalize hu : (if List.any _ _ = true then t.setStack _ _ _ else t) = u
        have hidle : Idle u := by
          rw [← hu]
          exact ht.ite (ht.setStack_of_reqs _ _ rfl)
        split
        · exact hidle
        · refine Idle.addSat (hidle.setStack_of_reqs _ _ ?_) _ _ _
          rfl

theorem Idle.writeBytesBy (ways : List (Nat × Option Nat)) (a : Nat) (bs : List Byte) : Idle (s.writeBytesBy ways a bs) := by
  rw [writeBytesBy_of_no_ecc h.ecc _ _ (h.flush ..)]
  exact (h.dropWriteBacks a bs.length).of_same rfl rfl

theorem Idle.mem_writeBytesBy (ways : List (Nat × Option Nat)) (a : Nat) (bs : List Byte) :
    (s.writeBytesBy ways a bs).mem = memPut s.mem a bs := by
  rw [writeBytesBy_of_no_ecc h.ecc _ _ (h.flush ..)]

theorem Idle.countWrites (via : Option (Nat × Nat)) (a n : Nat) :
    Idle (s.countWrites via a n).1 ∧ (s.countWrites via a n).1.mem = s.mem := by
  unfold State.countWrites
  rw [h.flush]
  exact List.foldlRecOn (motive := fun r : State × List (Nat × Option Nat) => Idle r.1 ∧ r.1.mem = s.mem) _ _ ⟨h, rfl⟩
    (fun r hr l _ => ⟨hr.1.lineAccess _ _ _ _, (mem_of_ground (ground_lineAccess ..)).trans hr.2⟩)

/-- A write that no lease keeps back stores its bytes (R158, R215). -/
theorem Idle.putWrite (owner : Option (Nat × Nat × Nat)) (a : Nat) (bs : List Byte) :
    Idle (s.putWrite owner a (bs.map (fun b => (b, false)))) ∧
    (s.putWrite owner a (bs.map (fun b => (b, false)))).mem = memPut s.mem a bs := by
  have hfst : (bs.map (fun b => (b, false))).map Prod.fst = bs := by simp [Function.comp_def]
  have hwrite {t : State} (ht : Idle t) (hm : t.mem = s.mem) (ways : List (Nat × Option Nat)) :
      Idle (t.writeBytesBy ways a bs) ∧ (t.writeBytesBy ways a bs).mem = memPut s.mem a bs :=
    ⟨ht.writeBytesBy .., (ht.mem_writeBytesBy ..).trans (by rw [hm])⟩
  unfold State.putWrite
  split
  · rw [State.storeMarked, markPoison_unmarked, hfst]
    exact hwrite h rfl []
  · rw [State.writeMarkedBy, markPoison_unmarked, hfst]
    obtain ⟨hidle, hmem⟩ := h.countWrites _ a (bs.map (fun b => (b, false))).length
    exact hwrite hidle hmem _

end Idle

/-! ## Writes of an engine to idle memory -/

theorem length_memBytes (m : List Host.Cell) (a n : Nat) : (memBytes m a n).length = n := by simp [memBytes]

theorem unnoted_lease : Unnoted .lease where
  evq := by decide
  fault := by decide

section Lease
variable {s t : State} (hl : t.leases = s.leases) (hreg : ∀ off, off < 4096 → t.reg (mPage .lease) off = s.reg (mPage .lease) off)
include hl hreg

theorem leaseCovers_of_leases (a n : Nat) : t.leaseCovers a n = s.leaseCovers a n := by
  have hone : ∀ i ∈ List.range 240, t.leaseHeld (i + 1) = s.leaseHeld (i + 1) ∧ t.leaseRange (i + 1) = s.leaseRange (i + 1) := by
    intro i hi
    have hi' : i < 240 := List.mem_range.1 hi
    have hctl : leaseReg Reg.LEASE_Ln_CTL (i + 1) < 4096 := by unfold leaseReg Reg.LEASE_Ln_CTL; omega
    have hbase : leaseReg Reg.LEASE_Ln_BASE (i + 1) < 4096 := by unfold leaseReg Reg.LEASE_Ln_BASE; omega
    have hcount : leaseReg Reg.LEASE_Ln_COUNT (i + 1) < 4096 := by unfold leaseReg Reg.LEASE_Ln_COUNT; omega
    constructor
    · rw [State.leaseHeld, State.leaseHeld, State.holds, State.holds, State.lease, State.lease, State.bit, State.bit, State.num,
        State.num, hl, hreg _ hctl]
    · rw [State.leaseRange, State.leaseRange, State.field, State.field, State.field, State.field, State.num, State.num, State.num,
        State.num, hreg _ hbase, hreg _ hcount]
  unfold State.leaseCovers
  split
  · rfl
  · rw [Bool.eq_iff_iff, List.any_eq_true, List.any_eq_true]
    refine exists_congr (fun i => and_congr_right (fun hi => ?_))
    rw [(hone i hi).1, (hone i hi).2]

/-- Writes that did not wait do not wait where the leases and the waiting writes are those of before. -/
theorem writeWaits_of_leases (hi : Idle s) (ht : Idle t) (a n : Nat) : t.writeWaits a n = s.writeWaits a n := by
  simp only [State.writeWaits, leaseCovers_of_leases hl hreg, hl, hi.keptShares, ht.keptShares]

end Lease

theorem OnlyMemory.writeWaits {s t : State} (h : OnlyMemory s t) (hi : Idle s) (ht : Idle t) (a n : Nat) :
    t.writeWaits a n = s.writeWaits a n := by
  have hleases : t.leases = s.leases := by
    have hb := congrArg State.leases h.beyond
    exact hb
  exact writeWaits_of_leases hleases (fun off hoff => congrArg Prod.fst (h.seen unnoted_lease hoff)) hi ht a n

/-- A state in which memory alone has changed from an idle state, and is idle. -/
structure Writes (s t : State) : Prop where
  only : OnlyMemory s t
  idle : Idle t

namespace Writes
variable {s t u : State}

theorem refl (h : Idle s) : Writes s s := ⟨.refl s, h⟩

theorem trans (h : Writes s t) (g : Writes t u) : Writes s u := ⟨h.only.trans g.only, g.idle⟩

theorem noteReadBy (h : Writes s t) (via : Option (Nat × Nat)) (a n : Nat) : Writes s (t.noteReadBy via a n) :=
  ⟨h.only.noteReadBy .., h.idle.noteReadBy ..⟩

/-- A write of clean bytes that need not wait. -/
theorem memWrite (hs : Idle s) (h : Writes s t) (owner : Option (Nat × Nat × Nat)) {a : Nat} {bs : List Byte}
    (hw : s.writeWaits a bs.length = false) :
    Writes s (t.memWrite owner a (bs.map (fun b => (b, false)))) ∧
    (t.memWrite owner a (bs.map (fun b => (b, false)))).mem = memPut t.mem a bs := by
  have hlen : (bs.map (fun b => (b, false))).length = bs.length := by simp
  have hgo : t.writeWaits a (bs.map (fun b => (b, false))).length = false := by
    rw [hlen, h.only.writeWaits hs h.idle, hw]
  rw [State.memWrite, if_neg (ne_true_of_eq_false hgo)]
  obtain ⟨hidle, hmem⟩ := h.idle.putWrite owner a bs
  exact ⟨⟨h.only.putWrite .., hidle⟩, hmem⟩

theorem memPutBytes (hs : Idle s) (h : Writes s t) (owner : Option (Nat × Nat × Nat)) {a : Nat} {bs : List Byte}
    (hw : s.writeWaits a bs.length = false) :
    Writes s (t.memPutBytes owner a bs) ∧ (t.memPutBytes owner a bs).mem = memPut t.mem a bs :=
  memWrite hs h owner hw

end Writes

end Sys2Proof.Proofs
end

section
/-! PROOFS. What the start and the end of a descriptor, its memory accesses and its messages leave: what a module's frames go by. -/

namespace Sys2Proof.Proofs
open Sys2Proof Sys2Proof.Machine Sys2Proof.Laws

/-! ## What a module's frames go by (R235, R249 to R252) -/

/-- Two states that agree on the pod's data and on the registers of the POD page after its header. -/
structure Bearings (s t : State) : Prop where
  pod : t.fabric.pod = s.fabric.pod
  reg : ∀ off, 0x100 ≤ off → off < 4096 → t.reg (mPage .pod) off = s.reg (mPage .pod) off

namespace Bearings
variable {s t : State} (h : Bearings s t)
include h

theorem field {off : Nat} (h0 : 0x100 ≤ off) (h1 : off < 4096) (i n : Nat) :
    t.field (mPage .pod) off i n = s.field (mPage .pod) off i n := by
  rw [State.field, State.field, State.num, State.num, h.reg off h0 h1]

theorem bit {off : Nat} (h0 : 0x100 ≤ off) (h1 : off < 4096) (i : Nat) : t.bit (mPage .pod) off i = s.bit (mPage .pod) off i := by
  rw [State.bit, State.bit, State.num, State.num, h.reg off h0 h1]

theorem selfId : t.selfId = s.selfId := h.field (by decide) (by decide) ..

theorem isLead : t.isLead = s.isLead := by rw [State.isLead, State.isLead, h.field (by decide) (by decide)]

theorem leadId : t.leadId = s.leadId := by
  rw [State.leadId, State.leadId, h.field (by decide) (by decide), h.bit (by decide) (by decide)]

theorem cutOf : t.cutOf = s.cutOf := by
  funext c
  rw [State.cutOf, State.cutOf, h.pod]

theorem physSize : t.physSize = s.physSize := by
  funext k
  simp only [State.physSize, h.selfId, h.leadId, h.pod, h.field (off := Reg.POD_LSHAPE) (by decide) (by decide)]

theorem stepChip : t.stepChip = s.stepChip := by
  funext c d
  simp only [State.stepChip, h.physSize]

theorem crosses : t.crosses = s.crosses := by
  funext c d
  simp only [State.crosses, h.physSize]

theorem detourDim : t.detourDim = s.detourDim := by
  funext k
  simp only [State.detourDim, h.physSize]

theorem openAt : t.openAt = s.openAt := by
  funext c
  simp only [State.openAt, h.cutOf, h.selfId]

theorem wayCut (dst d n c : Nat) : t.wayCut dst d n c = s.wayCut dst d n c := by
  induction n generalizing c with
  | zero => rfl
  | succ n ih => rw [State.wayCut, State.wayCut, h.cutOf, h.stepChip, ih]

theorem nextHop (src dst route : Nat) (travel : Option Nat) : t.nextHop src dst route travel = s.nextHop src dst route travel := by
  simp only [State.nextHop, State.detourHop, h.selfId, h.physSize, h.cutOf, h.stepChip, h.crosses, h.detourDim, h.openAt, h.wayCut]

theorem aliasOf (id : Nat) : t.aliasOf id = s.aliasOf id := by
  have hone : ∀ n ∈ List.range 256, (t.bit (mPage .pod) (Reg.POD_ALIASn_FROM + 8 * n) 31 &&
      t.field (mPage .pod) (Reg.POD_ALIASn_FROM + 8 * n) 0 18 == id) = (s.bit (mPage .pod) (Reg.POD_ALIASn_FROM + 8 * n) 31 &&
      s.field (mPage .pod) (Reg.POD_ALIASn_FROM + 8 * n) 0 18 == id) := by
    intro n hn
    have hn' : n < 256 := List.mem_range.1 hn
    rw [h.bit (by unfold Reg.POD_ALIASn_FROM; omega) (by unfold Reg.POD_ALIASn_FROM; omega),
      h.field (by unfold Reg.POD_ALIASn_FROM; omega) (by unfold Reg.POD_ALIASn_FROM; omega)]
  have hfind : (List.range 256).find? (fun n => t.bit (mPage .pod) (Reg.POD_ALIASn_FROM + 8 * n) 31 &&
      t.field (mPage .pod) (Reg.POD_ALIASn_FROM + 8 * n) 0 18 == id) = (List.range 256).find? (fun n =>
      s.bit (mPage .pod) (Reg.POD_ALIASn_FROM + 8 * n) 31 && s.field (mPage .pod) (Reg.POD_ALIASn_FROM + 8 * n) 0 18 == id) :=
    List.find?_congr hone
  unfold State.aliasOf
  dsimp only
  rw [hfind]
  refine Option.map_congr (fun n hn => ?_)
  have hn' : n < 256 := List.mem_range.1 (List.mem_of_find?_eq_some hn)
  exact h.field (by unfold Reg.POD_ALIASn_TO; omega) (by unfold Reg.POD_ALIASn_TO; omega) ..

/-- A global address resolves as before. -/
theorem resolve (a : Nat) : t.resolve a = s.resolve a := by
  simp only [State.resolve, h.selfId, h.aliasOf, h.cutOf]

end Bearings

/-! ## What goes on beside memory, the windows and the ports (R105, R120, R143, R240) -/

/-- A register of the module that the start or the end of a descriptor, a step's phase, memory and messages leave. -/
structure Unturned (k : PageKind) (off : Nat) : Prop where
  evq : mPage k ≠ mPage .evq
  fault : mPage k ≠ mPage .fault
  mig : mPage k ≠ mPage .mig
  step : k = .step → off < Reg.STEP_PTp_START_LO
  pod : k = .pod → 0x100 ≤ off
  off : off < 4096

/-- What of a state is neither registers with their records and events, nor memory with its notes, nor the windows, the ports, the
collectives, nor the times of a migration round. -/
def afar (s : State) : State :=
  { beyond s with compute := { (beyond s).compute with queues := [] }, mig := { s.mig with openAt := none, deadline := 0 },
                  coll := {}, fabric := { s.fabric with ports := [] } }

/-- A state has gone on from another in memory and its notes, windows, ports and collectives only, and every frame that waited at a
port waits there. -/
structure Onward (s t : State) : Prop where
  afar : afar t = afar s
  reg : ∀ {k : PageKind} {off : Nat}, Unturned k off → t.reg (mPage k) off = s.reg (mPage k) off
  ports : ∀ q d, ∀ w ∈ (s.port q d).waiting, w ∈ (t.port q d).waiting

theorem kind_step (k : PageKind) : mPage k = mPage .step → k = .step := by
  cases k <;> decide

theorem kind_pod (k : PageKind) : mPage k = mPage .pod → k = .pod := by
  cases k <;> decide

/-- The events of a page but EVQ, and what hardware did to its registers, are apart from what goes on. -/
theorem unturned_not_eventKey {k : PageKind} {off : Nat} (hk : Unturned k off) {p : Page} (hp : p.slot < 4096)
    (h : mPage k ≠ p ∨ 0x100 ≤ off) : ¬ eventKey p ((mPage k).reg off) := by
  have hevq : ∀ o < 4096, (mPage k).reg off ≠ (mPage .evq).reg o := fun o ho =>
    page_reg_ne_of_page (mPage_slot_lt _) (mPage_slot_lt _) hk.off ho hk.evq
  have hhead : ∀ o, o < 0x100 → (mPage k).reg off ≠ p.reg o := by
    intro o ho
    by_cases hpage : mPage k = p
    · obtain h | h := h
      · exact absurd hpage h
      · rw [hpage]
        exact page_reg_ne_of_off (by omega)
    · exact page_reg_ne_of_page (mPage_slot_lt _) hp hk.off (by omega) hpage
  unfold eventKey
  rintro (h | h | h | h | h | h)
  · exact hhead _ (by decide) h
  · exact hhead _ (by decide) h
  · exact hevq _ (by decide) h
  · exact hevq _ (by decide) h
  · exact hevq _ (by decide) h
  · exact hevq _ (by decide) h

namespace Onward
variable {s t u : State}

theorem refl (s : State) : Onward s s := ⟨rfl, fun _ => rfl, fun _ _ _ hw => hw⟩

theorem trans (h : Onward s t) (g : Onward t u) : Onward s u :=
  ⟨g.afar.trans h.afar, fun hk => (g.reg hk).trans (h.reg hk), fun q d w hw => g.ports q d w (h.ports q d w hw)⟩

theorem foldl {α : Type} {f : State → α → State} {l : List α} (hf : ∀ u, ∀ x ∈ l, Onward u (f u x)) (h : Onward s t) :
    Onward s (l.foldl f t) :=
  List.foldlRecOn (motive := Onward s) l f h (fun u hu x hx => hu.trans (hf u x hx))

theorem ite {c : Prop} [Decidable c] (h : Onward s t) (g : Onward s u) : Onward s (if c then t else u) := by
  split
  · exact h
  · exact g

/-- What leaves the registers and the ports. -/
theorem of_regs (ha : Proofs.afar t = Proofs.afar s) (hr : t.regs = s.regs) (hp : t.fabric.ports = s.fabric.ports) : Onward s t where
  afar := ha
  reg _ := by simp only [State.reg, hr]
  ports q d w hw := by
    rw [State.port, hp]
    exact hw

theorem of_memory (h : OnlyMemory s t) : Onward s t where
  afar := by
    have hb := h.beyond
    have hm : t.mig = s.mig := by
      have hx := congrArg State.mig hb
      exact hx
    have hf : t.fabric = s.fabric := by
      have hx := congrArg State.fabric hb
      exact hx
    rw [Proofs.afar, Proofs.afar, hb, hm, hf]
  reg hk := congrArg Prod.fst (h.seen ⟨hk.evq, hk.fault⟩ hk.off)
  ports q d w hw := by
    have hf : t.fabric = s.fabric := by
      have hx := congrArg State.fabric h.beyond
      exact hx
    rw [State.port, hf]
    exact hw

theorem of_touches {K : Nat → Prop} (h : Touches K s t) (hk : ∀ {k : PageKind} {off : Nat}, Unturned k off → ¬ K ((mPage k).reg off)) :
    Onward s t where
  afar := by
    obtain ⟨_, _, _, rfl⟩ := h.fields
    rfl
  reg hu := h.reg _ _ (hk hu)
  ports q d w hw := by
    obtain ⟨_, _, _, rfl⟩ := h.fields
    exact hw

theorem pulses (pu : List (Nat × Nat)) : Onward s { s with pulses := pu } := of_regs rfl rfl rfl

/-- A register of a page, and its event bits, that is apart from the module's. -/
theorem setNum {p : Page} {o : Nat} (v : Nat) (h : ∀ {k : PageKind} {off : Nat}, Unturned k off → (mPage k).reg off ≠ p.reg o) :
    Onward s (s.setNum p o v) :=
  of_touches (K := (· = p.reg o)) (touches_setNum _ _ rfl) (fun hk => h hk)

theorem raise {p : Page} (bit : Nat) (hp : p.slot < 4096)
    (h : ∀ {k : PageKind} {off : Nat}, Unturned k off → mPage k ≠ p ∨ 0x100 ≤ off) : Onward s (s.raise p bit) := by
  obtain ⟨pu, ht⟩ := touches_raise s p bit
  exact (pulses pu).trans (of_touches ht (fun hk => unturned_not_eventKey hk hp (h hk)))

theorem setQueue (q n : Nat) (x : Queue) : Onward s (s.setQueue q n x) := of_regs rfl rfl rfl

theorem traceEvent (q n event code tag : Nat) : Onward s (s.traceEvent q n event code tag) := by
  have hevq {k : PageKind} {off : Nat} (hk : Unturned k off) : mPage k ≠ mPage .evq := hk.evq
  unfold State.traceEvent
  dsimp only
  split
  · split
    · exact of_regs rfl rfl rfl
    · refine Onward.trans (t := s.addSat (mPage .evq) Reg.EVQ_TRACE_DROPS 1) ?_ (raise _ (mPage_slot_lt _) (fun hk => .inl (hevq hk)))
      exact of_touches (K := (· = (mPage .evq).reg Reg.EVQ_TRACE_DROPS)) (touches_addSat _ 1 rfl)
        (fun hk => page_reg_ne_of_page (mPage_slot_lt _) (mPage_slot_lt _) hk.off (by decide) hk.evq)
  · exact refl s

theorem setNum_step {o : Nat} (v : Nat) (h : Reg.STEP_PTp_START_LO ≤ o) (ho : o < 4096) : Onward s (s.setNum (mPage .step) o v) := by
  refine setNum _ (fun {k off} hk => ?_)
  by_cases hpage : mPage k = mPage .step
  · have hkind : k = .step := by
      cases k <;> first | rfl | exact absurd hpage (by decide)
    have := hk.step hkind
    rw [hpage]
    exact page_reg_ne_of_off (by omega)
  · exact page_reg_ne_of_page (mPage_slot_lt _) (mPage_slot_lt _) hk.off ho hpage

theorem phaseStart (p : Nat) (hp : p < 8) : Onward s (s.phaseStart p) := by
  unfold State.phaseStart
  dsimp only
  refine ite ?_ (refl s)
  unfold State.setNum64
  exact (setNum_step _ (by omega) (by unfold Reg.STEP_PTp_START_LO; omega)).trans
    (setNum_step _ (by unfold Reg.STEP_PTp_START_HI Reg.STEP_PTp_START_LO; omega) (by unfold Reg.STEP_PTp_START_HI; omega))

theorem openRound (n : Nat) (d : Desc) : Onward s (s.openRound n d) := by
  unfold State.openRound
  dsimp only
  refine ite (Onward.trans (Onward.trans (t := { s with mig := { s.mig with openAt := some s.podCount, deadline := s.deadlineFrom s.podCount } })
    ?_ (setNum _ (fun hk => ?_))) (phaseStart 7 (by decide))) (refl s)
  · exact of_regs rfl rfl rfl
  · exact page_reg_ne_of_page (mPage_slot_lt _) (mPage_slot_lt _) hk.off (by decide) hk.mig

theorem startEntry (q n i : Nat) (w : WinEntry) : Onward s (s.startEntry q n i w) := by
  unfold State.startEntry
  exact (setQueue ..).trans ((openRound ..).trans (traceEvent ..))

theorem finishEntry (q n i at_ : Nat) : Onward s (s.finishEntry q n i at_) := by
  unfold State.finishEntry
  split
  · exact refl s
  · exact setQueue ..

theorem setPort {q d : Nat} {x : Port} (h : ∀ w ∈ (s.port q d).waiting, w ∈ x.waiting) : Onward s (s.setPort q d x) where
  afar := rfl
  reg _ := rfl
  ports q' d' w hw := by
    by_cases hk : 6 * q' + d' = 6 * q + d
    · rw [State.port, hk, ← State.port, port_setPort_same]
      rw [State.port, hk, ← State.port] at hw
      exact h w hw
    · have hother : (s.setPort q d x).port q' d' = s.port q' d' := mapGet_set_other _ _ _ _ _ hk
      rwa [hother]

theorem putFrame (q d : Nat) (f : Frame) (at_ : Nat) (owe : Option (Nat × Nat × Nat × Nat)) : Onward s (s.putFrame q d f at_ owe) :=
  setPort (fun _ hw => List.mem_append_left _ hw)

theorem routeAt (f : Frame) (travel : Option Nat) (at_ : Nat) (owe : Option (Nat × Nat × Nat × Nat)) :
    Onward s (s.routeAt f travel at_ owe).1 := by
  unfold State.routeAt
  split
  · unfold State.raiseIf
    refine ite (raise _ (mPage_slot_lt _) (fun {k off} hk => ?_)) (refl s)
    by_cases hpage : mPage k = mPage .pod
    · exact .inr (hk.pod (kind_pod k hpage))
    · exact .inl hpage
  · exact putFrame ..

theorem setCollOp (o : CollOp) : Onward s (s.setCollOp o) := of_regs rfl rfl rfl

theorem unturned_pod {off : Nat} (h0 : 0x100 ≤ off) (h1 : off < 4096) : Unturned .pod off :=
  ⟨by decide, by decide, by decide, fun h => by simp at h, fun _ => h0, h1⟩

theorem bearings (h : Onward s t) : Bearings s t where
  pod := by
    have hf := congrArg (fun x : State => x.fabric.pod) h.afar
    exact hf
  reg off h0 h1 := h.reg (unturned_pod h0 h1)

end Onward
end Sys2Proof.Proofs
end

section
/-! PROOFS. The geometry of a collective's lane: parts, halves and pieces of lines (R189 to R193). -/

namespace Sys2Proof.Proofs
open Sys2Proof Sys2Proof.Machine Sys2Proof.Laws

/-! ## Pieces (R190, R191) -/

/-- A piece of at least as many lines as each of the equal shares holds. -/
theorem le_piece {r : Nat × Nat} {m n : Nat} (i : Nat) (hm : 0 < m) (h : n * m ≤ r.2 - r.1) : n ≤ (piece r m i).2 - (piece r m i).1 := by
  have hshare : n ≤ (r.2 - r.1) / m := (Nat.le_div_iff_mul_le hm).2 h
  have hsum : i * (r.2 - r.1) / m + (r.2 - r.1) / m ≤ (i + 1) * (r.2 - r.1) / m := by
    rw [Nat.succ_mul]
    exact Nat.div_add_div_le_add_div ..
  show n ≤ r.1 + (i + 1) * (r.2 - r.1) / m - (r.1 + i * (r.2 - r.1) / m)
  omega

theorem piece_one (r : Nat × Nat) (h : r.1 ≤ r.2) : piece r 1 0 = r := by
  ext <;> simp [piece]
  omega

/-- Members of the rings that the first k phases of a part go through, multiplied. -/
def ringsBefore (s : State) (dims : List Nat) (r : Nat) : Nat → Nat
  | 0 => 1
  | k + 1 => ringsBefore s dims r k * s.ringSize (phaseDim dims r k)

/-- What a part holds before phase k is at least its share: the lines over the parts, halves and rings before. -/
theorem le_rangeAt {s : State} {dims : List Nat} {pos : Nat → Nat} {lines r h n : Nat} (hm : 0 < dims.length)
    (hsize : ∀ k, 0 < s.ringSize k) (k : Nat) (hlines : n * ringsBefore s dims r k * 2 * dims.length ≤ lines) :
    n ≤ (s.rangeAt dims pos lines r h k).2 - (s.rangeAt dims pos lines r h k).1 := by
  induction k generalizing n with
  | zero =>
    refine le_piece h (by decide) (le_piece r hm ?_)
    simpa [ringsBefore] using hlines
  | succ k ih =>
    refine le_piece _ (hsize _) (ih ?_)
    simpa [ringsBefore, Nat.mul_assoc, Nat.mul_comm, Nat.mul_left_comm] using hlines

theorem ringSize_pos (s : State) (d : Nat) : 0 < s.ringSize d := Nat.succ_pos _

/-! ## The dimensions of a plan (R191, R204) -/

theorem planDims_length_le (p : Plan) : (planDims p).length ≤ 3 := by
  have h := List.length_filter_le (fun k => bitAt p.dims k) (List.range 3)
  simpa [planDims] using h

theorem lt_three_of_mem_planDims {p : Plan} {e : Nat} (h : e ∈ planDims p) : e < 3 := List.mem_range.1 (List.mem_of_mem_filter h)

theorem phaseDim_mem {dims : List Nat} (hm : 0 < dims.length) (r k : Nat) : phaseDim dims r k ∈ dims := by
  have hlt : (r + k) % dims.length < dims.length := Nat.mod_lt _ hm
  rw [phaseDim, List.getD_eq_getElem _ _ hlt]
  exact List.getElem_mem hlt

/-- The phases of a part go through every ring of the plan once. -/
theorem ringsBefore_all {s : State} {dims : List Nat} {r : Nat} (hm : dims.length ≤ 3) (hr : r < dims.length) :
    ringsBefore s dims r dims.length = (dims.map s.ringSize).foldl (· * ·) 1 := by
  match dims, hm, hr with
  | [a], _, hr =>
    obtain rfl : r = 0 := by simpa using hr
    rfl
  | [a, b], _, hr =>
    have hr' : r < 2 := hr
    interval_cases r
    · simp [ringsBefore, phaseDim]
    · simp [ringsBefore, phaseDim, Nat.mul_comm]
  | [a, b, c], _, hr =>
    have hr' : r < 3 := hr
    interval_cases r <;> simp [ringsBefore, phaseDim] <;> ring

theorem ringsBefore_mono {s : State} {dims : List Nat} {r : Nat} {k n : Nat} (h : k ≤ n) :
    ringsBefore s dims r k ≤ ringsBefore s dims r n := by
  induction h with
  | refl => exact Nat.le_refl _
  | step _ ih => exact ih.trans (Nat.le_mul_of_pos_right _ (ringSize_pos ..))

/-- The piece of a phase holds a line where the lane has one for every owner. -/
theorem piece_pos {s : State} {dims : List Nat} {pos : Nat → Nat} {lines r h k : Nat} (i : Nat) (hd : dims.length ≤ 3) (hr : r < dims.length)
    (hk : k < dims.length) (hlines : 2 * dims.length * (dims.map s.ringSize).foldl (· * ·) 1 ≤ lines) :
    (piece (s.rangeAt dims pos lines r h k) (s.ringSize (phaseDim dims r k)) i).1 <
      (piece (s.rangeAt dims pos lines r h k) (s.ringSize (phaseDim dims r k)) i).2 := by
  have hall : ringsBefore s dims r (k + 1) ≤ (dims.map s.ringSize).foldl (· * ·) 1 :=
    (ringsBefore_mono hk).trans (ringsBefore_all hd hr).le
  have hbefore : s.ringSize (phaseDim dims r k) * ringsBefore s dims r k * 2 * dims.length ≤ lines :=
    calc _ = 2 * dims.length * ringsBefore s dims r (k + 1) := by rw [ringsBefore]; ring
      _ ≤ 2 * dims.length * (dims.map s.ringSize).foldl (· * ·) 1 := Nat.mul_le_mul_left _ hall
      _ ≤ lines := hlines
  have hrange := le_rangeAt (pos := pos) (h := h) (by omega) (ringSize_pos s) k hbefore
  have hpiece := le_piece (n := 1) i (ringSize_pos s (phaseDim dims r k)) (by simpa using hrange)
  omega

/-- Lines in a row are cut into segments, of which the first begins with them. -/
theorem segmentsOf_cons {a e : Nat} (h : a < e) : segmentsOf (e - a) a e = (a, min e (a + 64)) :: segmentsOf (e - a - 1) (a + 64) e := by
  obtain ⟨n, hn⟩ : ∃ n, e - a = n + 1 := ⟨e - a - 1, by omega⟩
  rw [hn, segmentsOf, if_neg (by omega), Nat.add_sub_cancel]

end Sys2Proof.Proofs
end

section
/-! PROOFS. Collectives start: the streams of an operation, their first pieces and the READY that announces them. -/

namespace Sys2Proof.Proofs
open Sys2Proof Sys2Proof.Machine Sys2Proof.Laws

/-! ## A state in which memory is as it was (R191, R204, R205) -/

/-- A state has gone on with idle memory, and without a write. -/
structure Steady (s t : State) : Prop where
  on : Onward s t
  idle : Idle t
  mem : t.mem = s.mem

namespace Steady
variable {s t u : State}

theorem refl (h : Idle s) : Steady s s := ⟨.refl s, h, rfl⟩

theorem trans (h : Steady s t) (g : Steady t u) : Steady s u := ⟨h.on.trans g.on, g.idle, g.mem.trans h.mem⟩

theorem noteReadBy (h : Idle s) (via : Option (Nat × Nat)) (a n : Nat) : Steady s (s.noteReadBy via a n) :=
  ⟨.of_memory ((OnlyMemory.refl s).noteReadBy ..), h.noteReadBy .., h.mem_noteReadBy ..⟩

theorem unturned_coll {off : Nat} (h : off < 4096) : Unturned .coll off :=
  ⟨by decide, by decide, by decide, fun h => by simp at h, fun h => by simp at h, h⟩

section Reads
variable (h : Steady s t)
include h

theorem field {off : Nat} (ho : off < 4096) (i n : Nat) : t.field (mPage .coll) off i n = s.field (mPage .coll) off i n := by
  rw [State.field, State.field, State.num, State.num, h.on.reg (unturned_coll ho)]

theorem ringSize : t.ringSize = s.ringSize := by
  funext d
  rw [State.ringSize, State.ringSize, h.field (by decide)]

theorem ringPos : t.ringPos = s.ringPos := by
  funext d
  rw [State.ringPos, State.ringPos, h.field (by decide)]

theorem plan (hs : Idle s) {q : Nat} (hq : q < 4) (p : Nat) : t.plan q p = s.plan q p := by
  have hlo := h.on.reg (unturned_coll (show Reg.COLL_PLANq_LO + 8 * q < 4096 by unfold Reg.COLL_PLANq_LO; omega))
  have hhi := h.on.reg (unturned_coll (show Reg.COLL_PLANq_HI + 8 * q < 4096 by unfold Reg.COLL_PLANq_HI; omega))
  simp only [State.plan, State.readNat, h.idle.readBytes, hs.readBytes, h.mem, State.num64, State.num, hlo, hhi]

theorem planOf (hs : Idle s) {o : CollOp} (hq : o.q < 4) : t.planOf o = s.planOf o := h.plan hs hq _

theorem neigh {i : Nat} (hi : i < 6) : t.neigh i = s.neigh i := by
  have hoff : Reg.COLL_NEIGHi + 4 * i < 4096 := by unfold Reg.COLL_NEIGHi; omega
  rw [State.neigh, State.neigh, if_neg (by omega), if_neg (by omega), h.field hoff]

theorem rangeAt (dims : List Nat) (pos : Nat → Nat) (lines r p k : Nat) : t.rangeAt dims pos lines r p k = s.rangeAt dims pos lines r p k := by
  induction k with
  | zero => rfl
  | succ k ih => rw [State.rangeAt, State.rangeAt, ih, h.ringSize]

theorem ownedAt (dims : List Nat) (pos : Nat → Nat) (lines : Nat) : t.ownedAt dims pos lines = s.ownedAt dims pos lines := by
  simp only [State.ownedAt, h.rangeAt]

theorem phaseRing (hs : Idle s) {o : CollOp} (hq : o.q < 4) (r k : Nat) : t.phaseRing o r k = s.phaseRing o r k := by
  simp only [State.phaseRing, h.planOf hs hq, h.ringSize, h.ringPos]

theorem phaseRange (hs : Idle s) {o : CollOp} (hq : o.q < 4) (r p k : Nat) : t.phaseRange o r p k = s.phaseRange o r p k := by
  simp only [State.phaseRange, h.planOf hs hq, h.ringPos, h.rangeAt]

theorem collRegions (hs : Idle s) {o : CollOp} (hq : o.q < 4) : t.collRegions o = s.collRegions o := by
  simp only [State.collRegions, State.collRanges, h.planOf hs hq, h.ringPos, h.ownedAt]

/-- A module's own frames are those of before. -/
theorem ownFrame (vl q dst : Nat) (b : Body) : t.ownFrame vl q dst b = s.ownFrame vl q dst b := by
  rw [State.ownFrame, State.ownFrame, h.on.bearings.selfId]

end Reads
end Steady

/-! ## Sending a frame (R240, R247, R251) -/

theorem exitFor_lt (s : State) {f : Frame} (hq : f.srcQ < 4) (d : Nat) : s.exitFor f d < 4 := by
  have hfind {p : Nat → Bool} {k n : Nat} (hn : n < 4) (h : ((List.range 4).find? p).getD n = k) : k < 4 := by
    cases hp : (List.range 4).find? p with
    | none => rw [hp] at h; exact h ▸ hn
    | some x => rw [hp] at h; exact h ▸ List.mem_range.1 (List.mem_of_find?_eq_some hp)
  have hexit : s.exitQuarter f.srcQ d < 4 := by
    unfold State.exitQuarter
    split
    · exact hq
    · exact hfind hq rfl
  exact hfind hexit rfl

theorem waiting_putFrame (s : State) (q d : Nat) (f : Frame) (at_ : Nat) (owe : Option (Nat × Nat × Nat × Nat)) :
    ∀ g ∈ f.fragments, ∃ w ∈ ((s.putFrame q d f at_ owe).port q d).waiting, w.frame = g := by
  intro g hg
  unfold State.putFrame
  dsimp only
  rw [port_setPort_same]
  exact ⟨_, List.mem_append_right _ (List.mem_map_of_mem hg), rfl⟩

/-- A frame of this module that has a next hop waits there after it is sent. -/
theorem goesBy_route {a t u : State} (h : Bearings a t) (f : Frame) (hq : f.srcQ < 4) (travel : Option Nat) (hu : Onward (t.route f travel).1 u) :
    GoesBy a u f travel := by
  intro hop hhop g hg
  have hroute : (t.route f travel).1 = t.putFrame (t.exitFor f hop.dir) hop.dir { f with cls := hop.cls, route := hop.route }
      (t.now + seamAclk f.srcQ (t.exitFor f hop.dir)) none := by
    rw [State.route, State.routeAt, h.nextHop, hhop]
    rfl
  obtain ⟨w, hw, hframe⟩ := waiting_putFrame t (t.exitFor f hop.dir) hop.dir { f with cls := hop.cls, route := hop.route }
    (t.now + seamAclk f.srcQ (t.exitFor f hop.dir)) none g hg
  rw [hroute] at hu
  exact ⟨_, exitFor_lt t hq hop.dir, w, hu.ports _ _ w hw, hframe⟩

/-! ## Running operations and their streams (R191 to R195) -/

section Replace
variable {α : Type} {p p' : α → Bool} {x y : α} {l : List α}

theorem find?_replaceFirst_same (h : l.find? p = some x) (hy : p y = true) : (replaceFirst p (fun _ => y) l).find? p = some y := by
  induction l with
  | nil => simp at h
  | cons z l ih =>
    cases hz : p z with
    | true => simp [replaceFirst, hz, hy]
    | false =>
      rw [List.find?_cons, hz] at h
      simpa [replaceFirst, hz] using ih h

theorem find?_replaceFirst_other (h : ∀ z, p z = true → p' z = false) (hy : p' y = false) :
    (replaceFirst p (fun _ => y) l).find? p' = l.find? p' := by
  induction l with
  | nil => rfl
  | cons z l ih =>
    cases hz : p z with
    | true => simp [replaceFirst, hz, hy, h z hz]
    | false => simp [replaceFirst, hz, List.find?_cons, ih]

theorem replaceFirst_append_last (h : ∀ z ∈ l, p z = false) (hx : p x = true) :
    replaceFirst p (fun _ => y) (l ++ [x]) = l ++ [y] := by
  induction l with
  | nil => simp [replaceFirst, hx]
  | cons z l ih =>
    have hz := h z (by simp)
    simp [replaceFirst, hz, ih (fun w hw => h w (by simp [hw]))]

end Replace

theorem stream_setStream_same {o : CollOp} {x y : Stream} {r p : Nat} (h : o.stream r p = some x) (hr : y.part = r) (hp : y.dir = p) :
    (o.setStream y).stream r p = some y := by
  subst hr hp
  exact find?_replaceFirst_same h (by simp)

theorem stream_setStream_other {o : CollOp} {y : Stream} {r p : Nat} (h : (r, p) ≠ (y.part, y.dir)) :
    (o.setStream y).stream r p = o.stream r p := by
  have hne {r' p' : Nat} (h : (r, p) ≠ (r', p')) {z : Stream} (hz : (z.part == r' && z.dir == p') = true) :
      (z.part == r && z.dir == p) = false := by
    refine Bool.eq_false_iff.2 (fun hz' => h ?_)
    simp only [Bool.and_eq_true, beq_iff_eq] at hz hz'
    obtain ⟨hpart, hdir⟩ := hz
    obtain ⟨hpart', hdir'⟩ := hz'
    rw [← hpart, ← hpart', ← hdir, ← hdir']
  exact find?_replaceFirst_other (fun z hz => hne h hz) (hne h (by simp))

/-- The operations of a state are those of before, none of them of quarter q, and one of quarter q. -/
structure Running (l : List CollOp) (q : Nat) (o : CollOp) (t : State) : Prop where
  others : ∀ v ∈ l, v.q ≠ q
  ops : t.coll.ops = l ++ [o]
  q : o.q = q

namespace Running
variable {l : List CollOp} {q : Nat} {o : CollOp} {t u : State} (h : Running l q o t)
include h

theorem collOp : t.collOp q (dw o.desc 2) = some o := by
  have hnone : l.find? (fun v => v.q == q && dw v.desc 2 == dw o.desc 2) = none := by
    rw [List.find?_eq_none]
    intro v hv
    rw [beq_false_of_ne (h.others v hv), Bool.false_and]
    exact Bool.false_ne_true
  have hself : (o.q == q && dw o.desc 2 == dw o.desc 2) = true := by rw [h.q, beq_self_eq_true, beq_self_eq_true, Bool.and_self]
  rw [State.collOp, h.ops, List.find?_append, hnone, List.find?_cons, hself]
  rfl

theorem setCollOp {o' : CollOp} (hq : o'.q = o.q) (hd : o'.desc = o.desc) : Running l q o' (t.setCollOp o') where
  others := h.others
  ops := by
    have hreplace := replaceFirst_append_last (l := l) (x := o) (y := o') (p := fun v => v.q == o'.q && dw v.desc 2 == dw o'.desc 2)
      
      (fun v hv => by rw [hq, h.q, beq_false_of_ne (h.others v hv), Bool.false_and])
      (by rw [hq, hd, beq_self_eq_true, beq_self_eq_true, Bool.and_self])
    show replaceFirst _ _ t.coll.ops = _
    rw [h.ops, hreplace]
  q := hq.trans h.q

theorem of_coll (hc : u.coll = t.coll) : Running l q o u := ⟨h.others, hc ▸ h.ops, h.q⟩

end Running

/-! ## A phase is entered (R191, R193, R195) -/

theorem steady_readLines {t : State} (ht : Idle t) (o : CollOp) (r k b e : Nat) :
    Steady t (t.readLines o r k b e).1 ∧ (t.readLines o r k b e).1.coll = t.coll := by
  unfold State.readLines
  refine List.foldlRecOn (motive := fun acc : State × List Byte => Steady t acc.1 ∧ acc.1.coll = t.coll) _ _ ⟨.refl ht, rfl⟩
    (fun acc hacc i _ => ?_)
  obtain ⟨hsteady, hcoll⟩ := hacc
  dsimp only
  rw [hsteady.idle.readPoisoned]
  refine ⟨hsteady.trans (.noteReadBy hsteady.idle ..), ?_⟩
  have hc := congrArg State.coll ((OnlyMemory.refl acc.1).noteReadBy (some (o.q, 0)) (acc.1.lineAt o r k (b + i)) 64).beyond
  exact Eq.trans hc hcoll

/-- The segments that are read from this module's own lines, and what their reads leave. -/
def readSegments (t : State) (o : CollOp) (r k : Nat) (l : List (Nat × Nat)) : State × List CSeg :=
  l.foldl (fun acc e =>
    let b := acc.1.readLines o r k e.1 e.2
    (b.1, acc.2 ++ [{ phase := k, step := 0, off := 64 * e.1, bytes := b.2 : CSeg }])) (t, [])

theorem readSegments_steady {t : State} (ht : Idle t) (o : CollOp) (r k : Nat) (l : List (Nat × Nat)) :
    Steady t (readSegments t o r k l).1 ∧ (readSegments t o r k l).1.coll = t.coll ∧ (readSegments t o r k l).2.length = l.length := by
  unfold readSegments
  induction l using List.reverseRecOn with
  | nil => exact ⟨.refl ht, rfl, rfl⟩
  | append_singleton l e ih =>
    rw [List.foldl_concat]
    obtain ⟨hsteady, hcoll, hlen⟩ := ih
    obtain ⟨hread, hc⟩ := steady_readLines hsteady.idle o r k e.1 e.2
    exact ⟨hsteady.trans hread, hc.trans hcoll, by simp [hlen]⟩

/-- The lines that a stream of this module's sends first in phase k. -/
def firstPiece (t : State) (o : CollOp) (r p k : Nat) : Nat × Nat :=
  piece (t.phaseRange o r p k) (t.phaseRing o r k).2.1 (sentPiece o.reduces p (t.phaseRing o r k).2.2 0 (t.phaseRing o r k).2.1)

/-- A stream that enters phase k with the segments `l` to send. -/
def inPhase (t : State) (x : Stream) (k : Nat) (l : List CSeg) : Stream :=
  { x with phase := k, got := 0, since := t.podCount, warned := false, asked := t.podCount, warnedReady := false, out := x.out ++ l }

theorem enterPhase_eq {t : State} {o : CollOp} {x : Stream} {k : Nat} {g : Nat × Nat} {r : State × List CSeg}
    (h : 1 < (t.phaseRing o x.part k).2.1) (hg : firstPiece t o x.part x.dir k = g)
    (hr : readSegments t o x.part k (segmentsOf (g.2 - g.1) g.1 g.2) = r) :
    t.enterPhase o x k = (r.1.setCollOp (o.setStream (inPhase t x k r.2))).collSend o (2 * (t.phaseRing o x.part k).1 + (1 - x.dir))
      (.ready (o.hdr x.part x.dir k 0 0)) := by
  subst hg hr
  unfold State.enterPhase
  dsimp only
  rw [if_neg (by omega)]
  rfl

/-! ## An operation starts (R105, R139, R150, R194) -/

theorem quarter_of_startable_cs {s : State} {q i : Nat} {w : WinEntry} (h : s.startable q 153 = some (i, w)) : q < 4 := by
  obtain ⟨hwork, -⟩ := startable_eq h
  have hpage : s.queuePage q 153 = qPage .cs q 0 := rfl
  rw [hpage] at hwork
  by_contra hq
  have hkind : (qPage .cs q 0).kind = none := by
    unfold Page.kind
    rw [if_neg (show ¬ (qPage .cs q 0).win < 4 from hq)]
    split <;> rfl
  simp [State.working, hkind] at hwork

/-- The parts and directions of a plan of m dimensions. -/
def lanesOf (m : Nat) : List (Nat × Nat) := (List.range m).flatMap (fun r => [(r, 0), (r, 1)])

/-- A stream enters its first phase, and goes on while there is nothing to send or receive. -/
def laneStep (q tag first : Nat) (s : State) (l : Nat × Nat) : State :=
  match s.collOp q tag with
  | none => s
  | some o => match o.stream l.1 l.2 with
    | none => s
    | some x => State.collGo 4 q tag l.1 l.2 (s.enterPhase o x first)

/-- The operation of a descriptor, before its streams. -/
def newOp (a : State) (q : Nat) (w : WinEntry) : CollOp :=
  { q := q, seq := w.seq, desc := w.desc, epoch := w.next, attempt := a.attempt, streams := [] }

/-- The state in which an operation's descriptor has started, and with it a phase of the step. -/
def begun (a : State) (q i op : Nat) (w : WinEntry) : State :=
  let s := a.startEntry q 153 i w
  if tagClass (dw w.desc 2) = 2 then s.phaseStart (if op = 1 then 3 else 5) else s

/-- Has a READY come before its operation? -/
def earlyFor (q : Nat) (o : CollOp) (e : Nat × CollHdr) : Bool :=
  e.1 == q && e.2.tag == dw o.desc 2 && e.2.attempt == o.attempt % 65536 && e.2.epoch == o.epoch

/-- A stream of an operation that starts, with the phases for which READY has come. -/
def newStream (s : State) (q first : Nat) (o : CollOp) (l : Nat × Nat) : Stream :=
  { part := l.1, dir := l.2, phase := first
    ready := ((s.coll.readies.filter (earlyFor q o)).filter (fun e => e.2.part == l.1 && e.2.direction == l.2)).map (fun e => e.2.phase) }

/-- An operation that starts, with its streams. -/
def opened (s : State) (q first : Nat) (o : CollOp) (lanes : List (Nat × Nat)) : CollOp :=
  { o with streams := lanes.map (newStream s q first o) }

/-- The state in which an operation runs, before its streams enter their first phases. -/
def enlisted (s : State) (q first : Nat) (o : CollOp) (lanes : List (Nat × Nat)) : State :=
  { s with coll := { s.coll with ops := s.coll.ops ++ [opened s q first o lanes],
                                 readies := s.coll.readies.filter (fun e => !earlyFor q o e) } }

section Start
variable {a : State} {q i op : Nat} {w : WinEntry}

theorem upset_nil (s : State) : s.upset [] = s := rfl

theorem unturned_step {off : Nat} (h : off < Reg.STEP_PTp_START_LO) : Unturned .step off :=
  ⟨by decide, by decide, by decide, fun _ => h, fun h => by simp at h, Nat.lt_trans h (by decide)⟩

theorem attempt_of_onward {s t : State} (h : Onward s t) : t.attempt = s.attempt := by
  rw [State.attempt, State.attempt, State.num64, State.num64, State.num, State.num, State.num, State.num,
    h.reg (unturned_step (by decide)), h.reg (unturned_step (by decide))]

theorem idle_startEntry (h : Idle a) (q n i : Nat) (w : WinEntry) : Idle (a.startEntry q n i w) :=
  h.of_same (ecc_startEntry ..) (congrArg Rest.stackUnits (rest_startEntry ..))

theorem steady_startEntry (h : Idle a) (q n i : Nat) (w : WinEntry) : Steady a (a.startEntry q n i w) :=
  ⟨.startEntry .., idle_startEntry h .., mem_startEntry ..⟩

theorem rest_phaseStart (s : State) (p : Nat) : rest (s.phaseStart p) = rest s := by simp [State.phaseStart]

theorem coll_raise (s : State) (p : Page) (bit : Nat) : (s.raise p bit).coll = s.coll := by
  obtain ⟨_, _, _, _, h⟩ := raise_fields s p bit
  rw [h]

theorem coll_traceEvent (s : State) (q n event code tag : Nat) : (s.traceEvent q n event code tag).coll = s.coll := by
  unfold State.traceEvent
  dsimp only
  split
  · split
    · rfl
    · rw [coll_raise, addSat_coll]
  · rfl

theorem coll_phaseStart (s : State) (p : Nat) : (s.phaseStart p).coll = s.coll := by
  unfold State.phaseStart
  dsimp only
  split
  · exact setNum64_coll ..
  · rfl

theorem coll_openRound (s : State) (n : Nat) (d : Desc) : (s.openRound n d).coll = s.coll := by
  unfold State.openRound
  dsimp only
  split
  · rw [coll_phaseStart, setBit_coll]
  · rfl

theorem steady_begun (h : Idle a) (q i op : Nat) (w : WinEntry) : Steady a (begun a q i op w) := by
  have hstart := steady_startEntry h q 153 i w
  have hphase {p : Nat} (hp : p < 8) : Steady a ((a.startEntry q 153 i w).phaseStart p) :=
    ⟨hstart.on.trans (.phaseStart p hp), hstart.idle.of_same (ecc_of_ground (ground_phaseStart ..))
      (congrArg Rest.stackUnits (rest_phaseStart ..)), (mem_of_ground (ground_phaseStart ..)).trans hstart.mem⟩
  unfold begun
  dsimp only
  split
  · exact hphase (by split <;> decide)
  · exact hstart

theorem coll_startEntry (s : State) (q n i : Nat) (w : WinEntry) : (s.startEntry q n i w).coll = s.coll := by
  rw [State.startEntry, coll_traceEvent, coll_openRound]
  rfl

theorem coll_begun : (begun a q i op w).coll = a.coll := by
  unfold begun
  dsimp only
  split
  · rw [coll_phaseStart, coll_startEntry]
  · rw [coll_startEntry]

/-- An operation that CS0 may start, in populated regions: its streams enter their first phases. -/
theorem runColl_eq (hstart : a.startable q 153 = some (i, w)) (hop : dOp w.desc = op) (hothers : ∀ v ∈ a.coll.ops, v.q ≠ q)
    (hstep : tagClass (dw w.desc 2) = 2 → a.stepState ∈ [3, 5, 6, 7]) (hregions : a.collRegions (newOp a q w) = true) (ha : Idle a)
    (first : Nat) (hfirst : first = if op = 1 then 0 else (planDims (a.plan q (dw w.desc 6))).length - 1) :
    a.runColl q op [] = ((lanesOf (planDims (a.plan q (dw w.desc 6))).length).foldl (laneStep q (dw w.desc 2) first)
      (enlisted (begun a q i op w) q first (newOp a q w) (lanesOf (planDims (a.plan q (dw w.desc 6))).length))).collSettle q (dw w.desc 2) := by
  have hq : q < 4 := quarter_of_startable_cs hstart
  have hnone : a.coll.ops.filter (fun o => o.q == q) = [] :=
    List.filter_eq_nil_iff.2 (fun v hv => by rw [beq_false_of_ne (hothers v hv)]; exact Bool.false_ne_true)
  have hgo : ¬ (dOp w.desc ≠ op ∨ 4 ≤ (a.coll.ops.filter (fun o => o.q == q)).length ∨
      (tagClass (dw w.desc 2) = 2 ∧ a.stepState ≠ 3 ∧ a.stepState ≠ 5 ∧ a.stepState ≠ 6 ∧ a.stepState ≠ 7)) := by
    rw [hnone]
    rintro (h | h | ⟨h, h3, h5, h6, h7⟩)
    · exact h hop
    · simp at h
    · have hmem := hstep h
      simp [h3, h5, h6, h7] at hmem
  have hb : Steady a (a.startEntry q 153 i w) := steady_startEntry ha ..
  have hattempt : (a.startEntry q 153 i w).attempt = a.attempt := attempt_of_onward hb.on
  have hregions' : (a.startEntry q 153 i w).collRegions (newOp a q w) = true := (hb.collRegions ha hq).trans hregions
  have hplan : (begun a q i op w).planOf (newOp a q w) = a.plan q (dw w.desc 6) := (steady_begun ha q i op w).planOf ha hq
  unfold State.runColl
  rw [hstart]
  dsimp only
  rw [if_neg hgo, upset_nil, hattempt, if_neg (by rw [← newOp, hregions']; decide)]
  have hdims : (planDims (a.plan q (dw w.desc 6))).length = (planDims ((begun a q i op w).planOf (newOp a q w))).length := by rw [hplan]
  subst hfirst
  rw [hdims]
  rfl

end Start

/-! ## What a message leaves (R240, R251) -/

theorem coll_routeAt (s : State) (f : Frame) (travel : Option Nat) (at_ : Nat) (owe : Option (Nat × Nat × Nat × Nat)) :
    (s.routeAt f travel at_ owe).1.coll = s.coll := by
  unfold State.routeAt
  split
  · unfold State.raiseIf
    split
    · exact coll_raise ..
    · rfl
  · rfl

theorem ground_routeAt (s : State) (f : Frame) (travel : Option Nat) (at_ : Nat) (owe : Option (Nat × Nat × Nat × Nat)) :
    ground (s.routeAt f travel at_ owe).1 = ground s ∧ rest (s.routeAt f travel at_ owe).1 = rest s := by
  unfold State.routeAt
  split
  · exact ⟨ground_raiseIf .., rest_raiseIf ..⟩
  · exact ⟨rfl, rfl⟩

theorem steady_routeAt {s : State} (h : Idle s) (f : Frame) (travel : Option Nat) (at_ : Nat) (owe : Option (Nat × Nat × Nat × Nat)) :
    Steady s (s.routeAt f travel at_ owe).1 := by
  obtain ⟨hground, hrest⟩ := ground_routeAt s f travel at_ owe
  exact ⟨.routeAt .., h.of_same (ecc_of_ground hground) (congrArg Rest.stackUnits hrest), mem_of_ground hground⟩

/-! ## The streams of larger rings (R191, R193, R195) -/

theorem firstPiece_of_steady {a t : State} (h : Steady a t) (ha : Idle a) {o : CollOp} (hq : o.q < 4) (r p k : Nat) :
    firstPiece t o r p k = firstPiece a o r p k := by
  simp only [firstPiece, h.phaseRange ha hq, h.phaseRing ha hq]

/-- A stream that has something to send stays in its phase. -/
theorem collGo_of_out {t : State} {q tag r p : Nat} {o : CollOp} {x : Stream} (n : Nat) (ho : t.collOp q tag = some o)
    (hx : o.stream r p = some x) (hout : x.out ≠ []) : State.collGo n q tag r p t = t := by
  cases n with
  | zero => rfl
  | succ n =>
    have hne : (!x.out.isEmpty) = true := by simpa using hout
    rw [State.collGo, ho]
    dsimp only
    rw [hx]
    dsimp only
    rw [hne, Bool.or_true, Bool.true_or, if_pos rfl]

/-- The frame that announces the landing slots of a stream (R195). -/
def readyFrame (a : State) (o : CollOp) (first : Nat) (l : Nat × Nat) : Frame :=
  a.ownFrame (a.planOf o).vl o.q (a.neigh (2 * (a.phaseRing o l.1 first).1 + (1 - l.2)) * 2 ^ 45 + foldBase o.q)
    (.ready (o.hdr l.1 l.2 first 0 0))

/-- A stream is in its first phase with pieces to send, and its READY goes out in the direction they come from. -/
structure Entered (a : State) (first : Nat) (o : CollOp) (u : State) (l : Nat × Nat) : Prop where
  stream : ∃ x, o.stream l.1 l.2 = some x ∧ x.phase = first ∧ x.done_ = false ∧ x.out ≠ []
  ready : ∀ v, Onward u v → GoesBy a v (readyFrame a o first l) (some (2 * (a.phaseRing o l.1 first).1 + (1 - l.2)))

/-- The streams of a list have not entered a phase. -/
def Fresh (o : CollOp) (lanes : List (Nat × Nat)) : Prop :=
  ∀ l ∈ lanes, ∃ x, o.stream l.1 l.2 = some x ∧ x.part = l.1 ∧ x.dir = l.2 ∧ x.done_ = false

/-- Every ring that a stream meets in its first phase has others, and a line for each. -/
def Shared (a : State) (first : Nat) (o : CollOp) (l : Nat × Nat) : Prop :=
  1 < (a.phaseRing o l.1 first).2.1 ∧ (firstPiece a o l.1 l.2 first).1 < (firstPiece a o l.1 l.2 first).2 ∧
  2 * (a.phaseRing o l.1 first).1 + (1 - l.2) < 6

section Lanes
variable {a t : State} {q first : Nat} {ops : List CollOp} {o : CollOp} (ha : Idle a) (ht : Steady a t) (hrun : Running ops q o t) (hq : q < 4)
include ha ht hrun hq

theorem laneStep_entered {l : Nat × Nat} (hfresh : Fresh o [l]) (hshared : Shared a first o l) :
    ∃ x', x'.part = l.1 ∧ x'.dir = l.2 ∧ Running ops q (o.setStream x') (laneStep q (dw o.desc 2) first t l) ∧
      Steady t (laneStep q (dw o.desc 2) first t l) ∧ Entered a first (o.setStream x') (laneStep q (dw o.desc 2) first t l) l := by
  obtain ⟨x, hx, hpart, hdir, hdone⟩ := hfresh l (List.mem_singleton_self l)
  obtain ⟨hring, hpiece, hway⟩ := hshared
  have hoq : o.q < 4 := hrun.q.symm ▸ hq
  have hring' : 1 < (t.phaseRing o x.part first).2.1 := by rwa [ht.phaseRing ha hoq, hpart]
  have hpiece' : (firstPiece t o x.part x.dir first).1 < (firstPiece t o x.part x.dir first).2 := by
    rwa [firstPiece_of_steady ht ha hoq, hpart, hdir]
  generalize hg : firstPiece t o x.part x.dir first = g at hpiece'
  obtain ⟨hread, hcoll, hlen⟩ := readSegments_steady ht.idle o x.part first (segmentsOf (g.2 - g.1) g.1 g.2)
  generalize hr : readSegments t o x.part first (segmentsOf (g.2 - g.1) g.1 g.2) = r at hread hcoll hlen
  have hout : (inPhase t x first r.2).out ≠ [] := by
    rw [segmentsOf_cons hpiece', List.length_cons] at hlen
    have hne : r.2 ≠ [] := by
      intro h
      simp [h] at hlen
    exact List.append_ne_nil_of_right_ne_nil _ hne
  have hstream : (o.setStream (inPhase t x first r.2)).stream l.1 l.2 = some (inPhase t x first r.2) :=
    stream_setStream_same hx hpart hdir
  have hvt : Steady t (r.1.setCollOp (o.setStream (inPhase t x first r.2))) :=
    hread.trans ⟨.setCollOp .., hread.idle.of_same rfl rfl, rfl⟩
  have hv : Steady a (r.1.setCollOp (o.setStream (inPhase t x first r.2))) := ht.trans hvt
  have hrun' : Running ops q (o.setStream (inPhase t x first r.2)) (r.1.setCollOp (o.setStream (inPhase t x first r.2))) :=
    (hrun.of_coll hcoll).setCollOp rfl rfl
  have hsend : t.enterPhase o x first = ((r.1.setCollOp (o.setStream (inPhase t x first r.2))).route (readyFrame a o first l)
      (some (2 * (a.phaseRing o l.1 first).1 + (1 - l.2)))).1 := by
    rw [enterPhase_eq hring' hg hr, State.collSend, hv.ownFrame, hv.planOf ha hoq, ht.phaseRing ha hoq, hpart, hdir, hv.neigh hway]
    rfl
  have hstep : laneStep q (dw o.desc 2) first t l = t.enterPhase o x first := by
    have hu : Running ops q (o.setStream (inPhase t x first r.2)) (t.enterPhase o x first) := by
      rw [hsend]
      exact hrun'.of_coll (coll_routeAt ..)
    rw [laneStep, hrun.collOp]
    dsimp only
    rw [hx]
    exact collGo_of_out 4 hu.collOp hstream hout
  refine ⟨inPhase t x first r.2, hpart, hdir, ?_, ?_, ⟨_, hstream, rfl, hdone, hout⟩, fun v hu => ?_⟩
  · rw [hstep, hsend]
    exact hrun'.of_coll (coll_routeAt ..)
  · rw [hstep, hsend]
    exact hvt.trans (steady_routeAt hv.idle ..)
  · rw [hstep, hsend] at hu
    exact goesBy_route hv.on.bearings _ hoq _ hu

end Lanes

/-- An operation but for its streams. -/
def CollOp.bare (o : CollOp) : CollOp := { o with streams := [] }

theorem readyFrame_of_bare {a : State} {o o' : CollOp} (h : CollOp.bare o' = CollOp.bare o) (first : Nat) (l : Nat × Nat) :
    readyFrame a o' first l = readyFrame a o first l := by
  show readyFrame a (CollOp.bare o') first l = readyFrame a (CollOp.bare o) first l
  rw [h]

theorem phaseRing_of_bare {a : State} {o o' : CollOp} (h : CollOp.bare o' = CollOp.bare o) (r k : Nat) :
    a.phaseRing o' r k = a.phaseRing o r k := by
  show a.phaseRing (CollOp.bare o') r k = a.phaseRing (CollOp.bare o) r k
  rw [h]

theorem shared_of_bare {a : State} {first : Nat} {o o' : CollOp} (h : CollOp.bare o' = CollOp.bare o) {l : Nat × Nat}
    (hs : Shared a first o l) : Shared a first o' l := by
  show Shared a first (CollOp.bare o') l
  rw [h]
  exact hs

/-- The streams of all parts and directions enter their first phases, each on its own. -/
theorem lanes_entered {a : State} {q first : Nat} {ops : List CollOp} (ha : Idle a) (hq : q < 4) (lanes : List (Nat × Nat)) :
    ∀ {t : State} {o : CollOp}, Steady a t → Running ops q o t → lanes.Nodup → Fresh o lanes → (∀ l ∈ lanes, Shared a first o l) →
    ∃ o', CollOp.bare o' = CollOp.bare o ∧ Running ops q o' (lanes.foldl (laneStep q (dw o.desc 2) first) t) ∧
      Steady t (lanes.foldl (laneStep q (dw o.desc 2) first) t) ∧
      (∀ l ∈ lanes, Entered a first o' (lanes.foldl (laneStep q (dw o.desc 2) first) t) l) ∧
      ∀ l ∉ lanes, o'.stream l.1 l.2 = o.stream l.1 l.2 := by
  induction lanes with
  | nil => exact fun ht hrun _ _ _ => ⟨_, rfl, hrun, .refl ht.idle, fun l hl => by simp at hl, fun _ _ => rfl⟩
  | cons l lanes ih =>
    intro t o ht hrun hnodup hfresh hshared
    obtain ⟨hnew, hnodup'⟩ := List.nodup_cons.1 hnodup
    obtain ⟨x', hpart, hdir, hrun', hstep, hentered⟩ :=
      laneStep_entered ha ht hrun hq (fun m hm => hfresh m (by simp [List.mem_singleton.1 hm])) (hshared l (by simp))
    have hother : ∀ m ≠ l, (o.setStream x').stream m.1 m.2 = o.stream m.1 m.2 := fun m hm =>
      stream_setStream_other (by rw [hpart, hdir]; exact hm)
    have hfresh' : Fresh (o.setStream x') lanes := by
      intro m hm
      rw [hother m (fun h => hnew (h ▸ hm))]
      exact hfresh m (by simp [hm])
    obtain ⟨o', hbare, hrun'', hrest, hin, hout⟩ := ih (ht.trans hstep) hrun' hnodup' hfresh'
      (fun m hm => shared_of_bare (o := o) rfl (hshared m (by simp [hm])))
    refine ⟨o', hbare, hrun'', hstep.trans hrest, fun m hm => ?_, fun m hm => ?_⟩
    · obtain rfl | hm := List.mem_cons.1 hm
      · obtain ⟨x, hx⟩ := hentered.stream
        refine ⟨⟨x, by rw [hout _ hnew]; exact hx.1, hx.2⟩, fun v hv => ?_⟩
        rw [readyFrame_of_bare hbare, phaseRing_of_bare hbare]
        exact hentered.ready v (hrest.on.trans hv)
      · exact hin m hm
    · obtain ⟨hml, hm⟩ := not_or.1 (fun h => hm (List.mem_cons.2 h))
      rw [hout m hm, hother m hml]

/-! ## The lanes of a plan -/

theorem mem_lanesOf {m : Nat} {l : Nat × Nat} : l ∈ lanesOf m ↔ l.1 < m ∧ l.2 < 2 := by
  simp only [lanesOf, List.mem_flatMap, List.mem_range, List.mem_cons, List.not_mem_nil, or_false]
  constructor
  · rintro ⟨r, hr, rfl | rfl⟩
    · exact ⟨hr, Nat.zero_lt_two⟩
    · exact ⟨hr, Nat.one_lt_two⟩
  · intro ⟨hr, hh⟩
    refine ⟨l.1, hr, ?_⟩
    obtain h | h : l.2 = 0 ∨ l.2 = 1 := by omega
    · exact .inl (Prod.ext rfl h)
    · exact .inr (Prod.ext rfl h)

theorem lanesOf_nodup (m : Nat) : (lanesOf m).Nodup := by
  refine List.nodup_flatMap.2 ⟨fun r _ => by simp, ?_⟩
  refine List.nodup_range.imp (fun {r r'} h => ?_)
  simp [Function.onFun, List.disjoint_left, h]

theorem stream_opened (s : State) (q first : Nat) (o : CollOp) {lanes : List (Nat × Nat)} {l : Nat × Nat} (hl : l ∈ lanes) :
    (opened s q first o lanes).stream l.1 l.2 = some (newStream s q first o l) := by
  have hfind : lanes.find? (fun m => m.1 == l.1 && m.2 == l.2) = some l := by
    cases h : lanes.find? (fun m => m.1 == l.1 && m.2 == l.2) with
    | none =>
      rw [List.find?_eq_none] at h
      exact absurd (by simp) (h l hl)
    | some m =>
      have hm := List.find?_some h
      simp only [Bool.and_eq_true, beq_iff_eq] at hm
      rw [Prod.ext hm.1 hm.2]
  show (lanes.map (newStream s q first o)).find? _ = _
  rw [List.find?_map]
  exact congrArg (Option.map _) hfind

theorem fresh_opened (s : State) (q first : Nat) (o : CollOp) (lanes : List (Nat × Nat)) : Fresh (opened s q first o lanes) lanes :=
  fun _ hl => ⟨_, stream_opened s q first o hl, rfl, rfl, rfl⟩

theorem steady_enlisted {s : State} (h : Idle s) (q first : Nat) (o : CollOp) (lanes : List (Nat × Nat)) :
    Steady s (enlisted s q first o lanes) := ⟨.of_regs rfl rfl rfl, h.of_same rfl rfl, rfl⟩

theorem running_enlisted {a : State} {q i op first : Nat} {w : WinEntry} {lanes : List (Nat × Nat)} (h : ∀ v ∈ a.coll.ops, v.q ≠ q) :
    Running a.coll.ops q (opened (begun a q i op w) q first (newOp a q w) lanes) (enlisted (begun a q i op w) q first (newOp a q w) lanes) := by
  refine ⟨h, ?_, rfl⟩
  show (begun a q i op w).coll.ops ++ _ = _
  rw [coll_begun]

/-- An operation with a piece to send is not complete. -/
theorem collSettle_of_out {t : State} {q tag r p : Nat} {o : CollOp} {x : Stream} (ho : t.collOp q tag = some o)
    (hx : o.stream r p = some x) (hout : x.out ≠ []) : t.collSettle q tag = t := by
  have hall : o.streams.all (fun x => x.done_ && x.out.isEmpty) = false := by
    refine List.all_eq_false.2 ⟨x, List.mem_of_find?_eq_some hx, ?_⟩
    simp [hout]
  rw [State.collSettle, ho]
  dsimp only
  rw [hall, Bool.false_and, if_neg Bool.false_ne_true]

/-- An operation in larger rings runs with a piece to send in every stream, and has sent READY to every neighbour that sends to it. -/
theorem runColl_announces {a : State} {q i op first : Nat} {w : WinEntry} (hstart : a.startable q 153 = some (i, w))
    (hop : dOp w.desc = op) (hothers : ∀ v ∈ a.coll.ops, v.q ≠ q) (hstep : tagClass (dw w.desc 2) = 2 → a.stepState ∈ [3, 5, 6, 7])
    (hregions : a.collRegions (newOp a q w) = true) (ha : Idle a)
    (hfirst : first = if op = 1 then 0 else (planDims (a.plan q (dw w.desc 6))).length - 1)
    (hm : 0 < (planDims (a.plan q (dw w.desc 6))).length)
    (hrings : ∀ e ∈ planDims (a.plan q (dw w.desc 6)), 1 < a.ringSize e ∧ a.ringPos e < a.ringSize e)
    (hlines : 2 * (planDims (a.plan q (dw w.desc 6))).length *
      ((planDims (a.plan q (dw w.desc 6))).map a.ringSize).foldl (· * ·) 1 ≤ dw w.desc 5 / 64) :
    ∃ o', CollOp.bare o' = newOp a q w ∧ (a.runColl q op []).mem = a.mem ∧ (a.runColl q op []).collOp q (dw w.desc 2) = some o' ∧
      ∀ l ∈ lanesOf (planDims (a.plan q (dw w.desc 6))).length, Entered a first o' (a.runColl q op []) l := by
  have hq : q < 4 := quarter_of_startable_cs hstart
  have hlt : first < (planDims (a.plan q (dw w.desc 6))).length := by
    rw [hfirst]
    split <;> omega
  rw [runColl_eq hstart hop hothers hstep hregions ha first hfirst]
  generalize hdims : planDims (a.plan q (dw w.desc 6)) = dims at *
  have hb := steady_begun ha q i op w
  have ht : Steady a (enlisted (begun a q i op w) q first (newOp a q w) (lanesOf dims.length)) := hb.trans (steady_enlisted hb.idle ..)
  have hrun : Running a.coll.ops q (opened (begun a q i op w) q first (newOp a q w) (lanesOf dims.length))
      (enlisted (begun a q i op w) q first (newOp a q w) (lanesOf dims.length)) := running_enlisted hothers
  have hshared : ∀ l ∈ lanesOf dims.length, Shared a first (opened (begun a q i op w) q first (newOp a q w) (lanesOf dims.length)) l := by
    intro l hl
    obtain ⟨hpart, hdir⟩ := mem_lanesOf.1 hl
    refine shared_of_bare (o := newOp a q w) rfl ?_
    have hmem : phaseDim dims l.1 first ∈ dims := phaseDim_mem hm ..
    have hring : a.phaseRing (newOp a q w) l.1 first =
        (phaseDim dims l.1 first, a.ringSize (phaseDim dims l.1 first), a.ringPos (phaseDim dims l.1 first)) := by
      rw [← hdims]
      rfl
    have hrange : a.phaseRange (newOp a q w) l.1 l.2 first = a.rangeAt dims a.ringPos (dw w.desc 5 / 64) l.1 l.2 first := by
      rw [← hdims]
      rfl
    have hthree : phaseDim dims l.1 first < 3 := lt_three_of_mem_planDims (p := a.plan q (dw w.desc 6)) (by rw [hdims]; exact hmem)
    refine ⟨?_, ?_, ?_⟩
    · rw [hring]
      exact (hrings _ hmem).1
    · rw [firstPiece, hrange, hring]
      exact piece_pos _ (hdims ▸ planDims_length_le _) hpart hlt hlines
    · rw [hring]
      dsimp only
      omega
  obtain ⟨o', hbare, hrun', hsteady, hin, -⟩ :=
    lanes_entered ha hq (lanesOf dims.length) ht hrun (lanesOf_nodup _) (fresh_opened _ _ _ _ _) hshared
  have hcoll := hrun'.collOp
  have htag : dw o'.desc 2 = dw w.desc 2 := by
    have hd := congrArg CollOp.desc hbare
    exact congrArg (dw · 2) hd
  rw [htag] at hcoll
  obtain ⟨⟨x, hx, -, -, hout⟩, -⟩ := hin (0, 0) (mem_lanesOf.2 ⟨hm, by decide⟩)
  have hsettle := collSettle_of_out hcoll hx hout
  refine ⟨o', hbare, ?_⟩
  have htag' : dw (opened (begun a q i op w) q first (newOp a q w) (lanesOf dims.length)).desc 2 = dw w.desc 2 := rfl
  rw [htag'] at hin hsteady hcoll hsettle
  rw [hsettle]
  exact ⟨(ht.trans hsteady).mem, hcoll, hin⟩

end Sys2Proof.Proofs
end

section
/-! PROOFS. Collectives without others: where every ring has one member, an operation ends as it starts. -/

namespace Sys2Proof.Proofs
open Sys2Proof Sys2Proof.Machine Sys2Proof.Laws

/-! ## Streams that have nobody to meet (R191) -/

/-- The parts and directions of an operation's streams. -/
def laneKeys (o : CollOp) : List (Nat × Nat) := o.streams.map (fun x => (x.part, x.dir))

theorem map_replaceFirst {α β : Type} {p : α → Bool} {f : α → β} {y : α} {l : List α} (h : ∀ z, p z = true → f z = f y) :
    (replaceFirst p (fun _ => y) l).map f = l.map f := by
  induction l with
  | nil => rfl
  | cons z l ih =>
    cases hz : p z with
    | true => simp [replaceFirst, hz, h z hz]
    | false => simp [replaceFirst, hz, ih]

theorem laneKeys_setStream (o : CollOp) (y : Stream) : laneKeys (o.setStream y) = laneKeys o := by
  refine map_replaceFirst (fun z hz => ?_)
  simp only [Bool.and_eq_true, beq_iff_eq] at hz
  exact Prod.ext hz.1 hz.2

/-- Every stream is found under its part and direction, where each has one. -/
theorem stream_of_mem {o : CollOp} (h : (laneKeys o).Nodup) {y : Stream} (hy : y ∈ o.streams) : o.stream y.part y.dir = some y := by
  unfold CollOp.stream
  unfold laneKeys at h
  generalize o.streams = streams at h hy
  induction streams with
  | nil => simp at hy
  | cons z l ih =>
    rw [List.map_cons, List.nodup_cons] at h
    rw [List.find?_cons]
    obtain rfl | hy := List.mem_cons.1 hy
    · simp
    · have hne : (z.part == y.part && z.dir == y.dir) = false := by
        refine Bool.eq_false_iff.2 (fun hz => h.1 ?_)
        simp only [Bool.and_eq_true, beq_iff_eq] at hz
        rw [hz.1, hz.2]
        exact List.mem_map_of_mem hy
      rw [hne]
      exact ih h.2 hy

/-- From one state of an operation to another, one of its streams has changed, and nothing else that the ground holds. -/
structure Streamed (ops : List CollOp) (q : Nat) (l : Nat × Nat) (o : CollOp) (t : State) (o' : CollOp) (u : State) : Prop where
  bare : CollOp.bare o' = CollOp.bare o
  keys : laneKeys o' = laneKeys o
  run : Running ops q o' u
  steady : Steady t u
  ground : ground u = ground t
  other : ∀ m ≠ l, o'.stream m.1 m.2 = o.stream m.1 m.2

theorem Streamed.trans {ops : List CollOp} {q : Nat} {l : Nat × Nat} {o o' o'' : CollOp} {t u v : State}
    (h : Streamed ops q l o t o' u) (g : Streamed ops q l o' u o'' v) : Streamed ops q l o t o'' v where
  bare := g.bare.trans h.bare
  keys := g.keys.trans h.keys
  run := g.run
  steady := h.steady.trans g.steady
  ground := g.ground.trans h.ground
  other m hm := (g.other m hm).trans (h.other m hm)

section Alone
variable {a t : State} {q : Nat} {ops : List CollOp} {o : CollOp} {l : Nat × Nat} {x : Stream}

theorem streamed_setCollOp (hi : Idle t) (hrun : Running ops q o t) {y : Stream} (hpart : y.part = l.1) (hdir : y.dir = l.2) :
    Streamed ops q l o t (o.setStream y) (t.setCollOp (o.setStream y)) where
  bare := rfl
  keys := laneKeys_setStream ..
  run := hrun.setCollOp rfl rfl
  steady := ⟨.setCollOp .., hi.of_same rfl rfl, rfl⟩
  ground := rfl
  other _ hm := stream_setStream_other (by rw [hpart, hdir]; exact hm)

/-- Phases that a stream has yet to end. -/
def phasesLeft (o : CollOp) (m k : Nat) : Nat := if o.reduces then m - k else k + 1

/-- A stream that waits for nothing, at the beginning of a phase. -/
structure Vacant (o : CollOp) (l : Nat × Nat) (m : Nat) (x : Stream) : Prop where
  stream : o.stream l.1 l.2 = some x
  part : x.part = l.1
  dir : x.dir = l.2
  done_ : x.done_ = false
  out : x.out = []
  got : x.got = 0
  phase : x.phase < m

/-- A stream has ended with nothing left to send. -/
def Ended (o : CollOp) (l : Nat × Nat) : Prop := ∃ x, o.stream l.1 l.2 = some x ∧ x.done_ = true ∧ x.out = []

theorem enterPhase_alone {t : State} {o : CollOp} {x : Stream} {k : Nat} (h : (t.phaseRing o x.part k).2.1 ≤ 1) :
    t.enterPhase o x k = t.setCollOp (o.setStream (inPhase t x k [])) := by
  unfold State.enterPhase
  dsimp only
  rw [if_pos h, inPhase, List.append_nil]

/-- A stream in rings of one member goes through its phases at once. -/
theorem collGo_alone (ha : Idle a) (hq : q < 4) {m : Nat} (n : Nat) : ∀ {t : State} {o : CollOp} {x : Stream}, Steady a t →
    Running ops q o t → Vacant o l m x → m = (planDims (a.planOf o)).length → (∀ k, (a.phaseRing o l.1 k).2.1 ≤ 1) →
    phasesLeft o m x.phase ≤ n →
    ∃ o', Streamed ops q l o t o' (State.collGo n q (dw o.desc 2) l.1 l.2 t) ∧ Ended o' l := by
  induction n with
  | zero =>
    intro t o x _ _ hx _ _ hn
    have := hx.phase
    unfold phasesLeft at hn
    split at hn <;> omega
  | succ n ih =>
    intro t o x ht hrun hx hm hrings hn
    have hoq : o.q < 4 := hrun.q.symm ▸ hq
    have hbytes : t.phaseBytes o l.1 l.2 x.phase = 0 := by
      rw [State.phaseBytes, if_pos (by rw [ht.phaseRing ha hoq]; exact hrings _)]
    have hdims : (planDims (t.planOf o)).length = m := by rw [ht.planOf ha hoq, hm]
    have hwait : ¬ ((x.done_ || !x.out.isEmpty || x.got != t.phaseBytes o l.1 l.2 x.phase) = true) := by
      rw [hx.done_, hx.out, hx.got, hbytes]
      decide
    rw [State.collGo, hrun.collOp]
    dsimp only
    rw [hx.stream]
    dsimp only
    rw [if_neg hwait, hdims]
    by_cases hlast : (if o.reduces = true then x.phase + 1 == m else x.phase == 0) = true
    · rw [if_pos hlast]
      exact ⟨_, streamed_setCollOp ht.idle hrun (y := { x with done_ := true }) hx.part hx.dir, { x with done_ := true },
        stream_setStream_same hx.stream hx.part hx.dir, rfl, hx.out⟩
    · rw [if_neg hlast]
      have hnext : (if o.reduces = true then x.phase + 1 else x.phase - 1) < m ∧
          phasesLeft o m (if o.reduces = true then x.phase + 1 else x.phase - 1) ≤ n := by
        have := hx.phase
        unfold phasesLeft at hn ⊢
        cases hr : o.reduces
        · simp only [hr, Bool.false_eq_true, if_false, beq_iff_eq] at hn hlast ⊢
          omega
        · simp only [hr, if_true, beq_iff_eq] at hn hlast ⊢
          omega
      generalize (if o.reduces = true then x.phase + 1 else x.phase - 1) = k at hnext
      have henter := enterPhase_alone (k := k) (by rw [ht.phaseRing ha hoq, hx.part]; exact hrings _)
      rw [henter]
      have hs := streamed_setCollOp ht.idle hrun (y := inPhase t x k []) hx.part hx.dir
      have hstream := stream_setStream_same (y := inPhase t x k []) hx.stream hx.part hx.dir
      obtain ⟨o', hrest, hended⟩ := ih (ht.trans hs.steady) hs.run
        ⟨hstream, hx.part, hx.dir, hx.done_, by rw [inPhase, hx.out]; rfl, rfl, hnext.1⟩ hm hrings hnext.2
      exact ⟨o', hs.trans hrest, hended⟩

/-- A stream has not begun. -/
def Blank (o : CollOp) (l : Nat × Nat) : Prop := ∃ x, o.stream l.1 l.2 = some x ∧ x.part = l.1 ∧ x.dir = l.2 ∧ x.done_ = false ∧ x.out = []

theorem laneStep_alone (ha : Idle a) (hq : q < 4) {first m : Nat} (ht : Steady a t) (hrun : Running ops q o t) (hx : Blank o l)
    (hm : m = (planDims (a.planOf o)).length) (hrings : ∀ k, (a.phaseRing o l.1 k).2.1 ≤ 1) (hfirst : first < m)
    (hleft : phasesLeft o m first ≤ 4) :
    ∃ o', Streamed ops q l o t o' (laneStep q (dw o.desc 2) first t l) ∧ Ended o' l := by
  obtain ⟨x, hstream, hpart, hdir, hdone, hout⟩ := hx
  have hoq : o.q < 4 := hrun.q.symm ▸ hq
  have hs := streamed_setCollOp ht.idle hrun (y := inPhase t x first []) hpart hdir
  rw [laneStep, hrun.collOp]
  dsimp only
  rw [hstream]
  dsimp only
  rw [enterPhase_alone (by rw [ht.phaseRing ha hoq, hpart]; exact hrings _)]
  obtain ⟨o', hrest, hended⟩ := collGo_alone ha hq 4 (ht.trans hs.steady) hs.run
    ⟨stream_setStream_same hstream hpart hdir, hpart, hdir, hdone, by rw [inPhase, hout]; rfl, rfl, hfirst⟩ hm hrings hleft
  exact ⟨o', hs.trans hrest, hended⟩

/-- The streams of all parts and directions end, each on its own. -/
theorem lanes_alone (ha : Idle a) (hq : q < 4) {first m : Nat} (hfirst : first < m) (lanes : List (Nat × Nat)) :
    ∀ {t : State} {o : CollOp}, Steady a t → Running ops q o t → lanes.Nodup → (∀ l ∈ lanes, Blank o l) →
    m = (planDims (a.planOf o)).length → (∀ r k, (a.phaseRing o r k).2.1 ≤ 1) → phasesLeft o m first ≤ 4 →
    ∃ o', CollOp.bare o' = CollOp.bare o ∧ laneKeys o' = laneKeys o ∧ Running ops q o' (lanes.foldl (laneStep q (dw o.desc 2) first) t) ∧
      Steady t (lanes.foldl (laneStep q (dw o.desc 2) first) t) ∧ ground (lanes.foldl (laneStep q (dw o.desc 2) first) t) = ground t ∧
      (∀ l ∈ lanes, Ended o' l) ∧ ∀ l ∉ lanes, o'.stream l.1 l.2 = o.stream l.1 l.2 := by
  induction lanes with
  | nil => exact fun ht hrun _ _ _ _ _ => ⟨_, rfl, rfl, hrun, .refl ht.idle, rfl, fun l hl => by simp at hl, fun _ _ => rfl⟩
  | cons l lanes ih =>
    intro t o ht hrun hnodup hblank hm hrings hleft
    obtain ⟨hnew, hnodup'⟩ := List.nodup_cons.1 hnodup
    obtain ⟨o₁, hs, hended⟩ := laneStep_alone ha hq ht hrun (hblank l (by simp)) hm (hrings _) hfirst hleft
    have hdesc : o₁.desc = o.desc := by
      have hd := congrArg CollOp.desc hs.bare
      exact hd
    have hplan : a.planOf o₁ = a.planOf o := by
      show a.planOf (CollOp.bare o₁) = a.planOf (CollOp.bare o)
      rw [hs.bare]
    have hleft' : phasesLeft o₁ m first ≤ 4 := by
      show phasesLeft (CollOp.bare o₁) m first ≤ 4
      rw [hs.bare]
      exact hleft
    have hblank' : ∀ m ∈ lanes, Blank o₁ m := by
      intro m hm
      rw [Blank, hs.other m (fun h => hnew (h ▸ hm))]
      exact hblank m (by simp [hm])
    obtain ⟨o', hbare, hkeys, hrun', hsteady, hground, hin, hout⟩ := ih (ht.trans hs.steady) hs.run hnodup' hblank'
      (by rw [hplan, hm]) (fun r k => by rw [phaseRing_of_bare hs.bare]; exact hrings r k) hleft'
    rw [hdesc] at hrun' hsteady hground
    refine ⟨o', hbare.trans hs.bare, hkeys.trans hs.keys, hrun', hs.steady.trans hsteady, hground.trans hs.ground, fun m hm => ?_,
      fun m hm => ?_⟩
    · obtain rfl | hm := List.mem_cons.1 hm
      · rw [Ended, hout _ hnew]
        exact hended
      · exact hin m hm
    · obtain ⟨hml, hm⟩ := not_or.1 (fun h => hm (List.mem_cons.2 h))
      rw [hout m hm, hs.other m hml]

end Alone

end Sys2Proof.Proofs
end

section
/-! PROOFS. What a REDUCE_SCATTER stores in SHARD, the end of an operation, and the statement about the start of collectives. -/

namespace Sys2Proof.Proofs
open Sys2Proof Sys2Proof.Machine Sys2Proof.Laws

/-! ## The ranges that a module owns alone (R190 to R192) -/

/-- Ranges that follow one another from one line to another. -/
def Tiles : Nat → Nat → List (Nat × Nat) → Prop
  | lo, hi, [] => lo = hi
  | lo, hi, g :: l => g.1 = lo ∧ lo ≤ g.2 ∧ Tiles g.2 hi l

theorem Tiles.append {lo mid hi : Nat} {l l' : List (Nat × Nat)} (h : Tiles lo mid l) (h' : Tiles mid hi l') : Tiles lo hi (l ++ l') := by
  induction l generalizing lo with
  | nil =>
    have hlo : lo = mid := h
    exact hlo ▸ h'
  | cons g l ih => exact ⟨h.1, h.2.1, ih h.2.2⟩

theorem Tiles.le {lo hi : Nat} {l : List (Nat × Nat)} (h : Tiles lo hi l) : lo ≤ hi := by
  induction l generalizing lo with
  | nil => exact Nat.le_of_eq h
  | cons g l ih => exact h.2.1.trans (ih h.2.2)

theorem piece_le (r : Nat × Nat) (m i : Nat) : (piece r m i).1 ≤ (piece r m i).2 :=
  Nat.add_le_add_left (Nat.div_le_div_right (Nat.mul_le_mul_right _ (Nat.le_succ i))) _

theorem rangeAt_alone {s : State} {dims : List Nat} {pos : Nat → Nat} {lines r p : Nat} (hsize : ∀ k, s.ringSize (phaseDim dims r k) = 1)
    (hpos : ∀ k, pos (phaseDim dims r k) = 0) (n : Nat) :
    s.rangeAt dims pos lines r p n = piece (piece (0, lines) dims.length r) 2 p := by
  induction n with
  | zero => rfl
  | succ n ih => rw [State.rangeAt, ih, hsize, hpos, piece_one _ (piece_le ..)]

theorem tiles_halves {lines m : Nat} (r : Nat) : Tiles (r * lines / m) ((r + 1) * lines / m)
    [piece (piece (0, lines) m r) 2 0, piece (piece (0, lines) m r) 2 1] := by
  have hle : r * lines / m ≤ (r + 1) * lines / m := Nat.div_le_div_right (Nat.mul_le_mul_right _ (Nat.le_succ r))
  simp only [Tiles, piece, Nat.sub_zero, Nat.zero_add, Nat.zero_mul, Nat.zero_div, Nat.add_zero, Nat.one_mul, true_and]
  generalize r * lines / m = lo at hle ⊢
  generalize (r + 1) * lines / m = hi at hle ⊢
  omega

/-- Where every ring has one member, the ranges that a module owns are the lane. -/
theorem tiles_ownedAt {s : State} {dims : List Nat} {pos : Nat → Nat} (lines : Nat) (hsize : ∀ d ∈ dims, s.ringSize d = 1)
    (hpos : ∀ d ∈ dims, pos d = 0) : Tiles 0 lines (s.ownedAt dims pos lines) := by
  unfold State.ownedAt
  split
  · exact ⟨rfl, Nat.zero_le _, rfl⟩
  · next hne =>
    have hm : 0 < dims.length := List.length_pos_iff.2 (by simpa using hne)
    have hprefix : ∀ n, Tiles 0 (n * lines / dims.length) ((List.range n).flatMap (fun r =>
        [0, 1].map (fun h => s.rangeAt dims pos lines r h dims.length))) := by
      intro n
      induction n with
      | zero => simp [Tiles]
      | succ n ih =>
        rw [List.range_succ, List.flatMap_append]
        refine ih.append ?_
        simp only [List.flatMap_cons, List.flatMap_nil, List.append_nil, List.map_cons, List.map_nil,
          rangeAt_alone (fun k => hsize _ (phaseDim_mem hm n k)) (fun k => hpos _ (phaseDim_mem hm n k))]
        exact tiles_halves n
    have hall := hprefix dims.length
    rwa [Nat.mul_div_cancel_left _ hm] at hall

/-! ## SHARD (R192) -/

/-- A range of the lane is copied behind what SHARD holds. -/
def shardStep (owner : Nat × Nat × Nat) (via : Option (Nat × Nat)) (data shard : Nat) (acc : State × Nat) (g : Nat × Nat) : State × Nat :=
  ((acc.1.noteReadBy via (data + 64 * g.1) (64 * (g.2 - g.1))).memWrite (some owner) (shard + acc.2)
    (acc.1.readMarked (data + 64 * g.1) (64 * (g.2 - g.1))), acc.2 + 64 * (g.2 - g.1))

/-- What SHARD holds after the lines up to one. -/
structure Copied (s t : State) (data shard n : Nat) : Prop where
  writes : Writes s t
  mem : t.mem = memPut s.mem shard (memBytes s.mem data n)

section Shard
variable {s : State} (hs : Idle s) {owner : Nat × Nat × Nat} {via : Option (Nat × Nat)} {data shard len : Nat}
  (hapart : Apart shard len data len) (hwaits : ∀ y n, shard ≤ y → y + n ≤ shard + len → s.writeWaits y n = false)
include hs hapart hwaits

theorem shardStep_copied {t : State} {g : Nat × Nat} (h : Copied s t data shard (64 * g.1)) (hg : g.1 ≤ g.2) (hlen : 64 * g.2 ≤ len) :
    Copied s (shardStep owner via data shard (t, 64 * g.1) g).1 data shard (64 * g.2) ∧
    (shardStep owner via data shard (t, 64 * g.1) g).2 = 64 * g.2 := by
  have hn : 64 * g.2 = 64 * g.1 + 64 * (g.2 - g.1) := by omega
  have hbytes : memBytes t.mem (data + 64 * g.1) (64 * (g.2 - g.1)) = memBytes s.mem (data + 64 * g.1) (64 * (g.2 - g.1)) := by
    rw [h.mem]
    exact memBytes_memPut_other _ _ _ _ _ (by rw [length_memBytes]; omega)
  have hread : t.readMarked (data + 64 * g.1) (64 * (g.2 - g.1)) =
      (memBytes s.mem (data + 64 * g.1) (64 * (g.2 - g.1))).map (fun b => (b, false)) := by rw [h.writes.idle.readMarked, hbytes]
  have hnoted := h.writes.noteReadBy via (data + 64 * g.1) (64 * (g.2 - g.1))
  obtain ⟨hwrites, hmem⟩ := Writes.memWrite hs hnoted (some owner) (a := shard + 64 * g.1)
    (bs := memBytes s.mem (data + 64 * g.1) (64 * (g.2 - g.1)))
    (by rw [length_memBytes]; exact hwaits _ _ (by omega) (by omega))
  refine ⟨⟨?_, ?_⟩, hn.symm⟩
  · rw [shardStep, hread]
    exact hwrites
  · rw [shardStep, hread]
    dsimp only
    rw [hmem, h.writes.idle.mem_noteReadBy, h.mem, hn, memBytes_add, memPut_append, length_memBytes]

theorem shard_copied {hi : Nat} (hlen : 64 * hi ≤ len) (l : List (Nat × Nat)) : ∀ {lo : Nat} {t : State}, Tiles lo hi l →
    Copied s t data shard (64 * lo) → Copied s (l.foldl (shardStep owner via data shard) (t, 64 * lo)).1 data shard (64 * hi) := by
  induction l with
  | nil =>
    intro lo t hl h
    have hlo : lo = hi := hl
    exact hlo ▸ h
  | cons g l ih =>
    intro lo t hl h
    obtain ⟨rfl, hg, hrest⟩ := hl
    obtain ⟨hcopied, hoff⟩ := shardStep_copied hs (owner := owner) (via := via) hapart hwaits h hg
      ((Nat.mul_le_mul_left 64 hrest.le).trans hlen)
    rw [List.foldl_cons, ← Prod.mk.eta (p := shardStep owner via data shard (t, 64 * g.1) g), hoff]
    exact ih hrest hcopied

end Shard

/-! ## An operation ends (R192, R193, R202) -/

/-- An operation whose streams have ended and are found is complete. -/
theorem collSettle_of_ended {t : State} {q tag : Nat} {o : CollOp} (ho : t.collOp q tag = some o) (hkeys : (laneKeys o).Nodup)
    (hlate : o.late = []) (hended : ∀ l ∈ laneKeys o, Ended o l) : t.collSettle q tag = t.collComplete o := by
  have hall : o.streams.all (fun x => x.done_ && x.out.isEmpty) = true := by
    refine List.all_eq_true.2 (fun x hx => ?_)
    obtain ⟨y, hy, hdone, hout⟩ := hended (x.part, x.dir) (List.mem_map_of_mem hx)
    obtain rfl : y = x := Option.some.inj (hy.symm.trans (stream_of_mem hkeys hx))
    rw [hdone, hout]
    rfl
  rw [State.collSettle, ho]
  dsimp only
  rw [hall, hlate]
  rfl

/-- An operation runs no more. -/
def unlisted (s : State) (o : CollOp) : State :=
  { s with coll := { s.coll with ops := s.coll.ops.filter (fun x => !(x.q == o.q && x.seq == o.seq)) } }

/-- An operation runs no more, and its entry is done. -/
def closed (s : State) (o : CollOp) : State :=
  (unlisted s o).finishEntry o.q 153 ((s.queue o.q 153).window.findIdx (fun w => w.status == .running && w.seq == o.seq))
    (max s.now o.until_)

theorem collComplete_eq {t : State} {o : CollOp} (hldig : (t.planOf o).ldig = false) :
    t.collComplete o = closed (if o.reduces then t.storeShard o else t) o := by
  unfold State.collComplete
  dsimp only
  rw [hldig, if_neg Bool.false_ne_true]
  rfl

theorem storeShard_eq {t : State} {o : CollOp} (hone : ∀ d ∈ planDims (t.planOf o), t.ringSize d = 1) :
    t.storeShard o = ((t.ownedAt (planDims (t.planOf o)) t.ringPos o.lines).foldl
      (shardStep (o.q, 153, o.seq) (some (o.q, 0)) (dq o.desc 3) (t.planOf o).shard) (t, 0)).1 := by
  have hall : (planDims (t.planOf o)).all (fun d => decide (t.ringSize d ≤ 1)) = true :=
    List.all_eq_true.2 (fun d hd => by rw [hone d hd]; rfl)
  unfold State.storeShard
  dsimp only
  rw [hall]
  rfl

end Sys2Proof.Proofs
end

section
/-! PROOFS. The start of collectives: the statement. -/

namespace Sys2Proof.Proofs
open Sys2Proof Sys2Proof.Machine Sys2Proof.Laws

/-! ## Where every ring has one member (R191 to R193) -/

theorem findIdx_set {l : List WinEntry} {i seq : Nat} {w : WinEntry} (hi : i < l.length) (hl : ∀ v ∈ l, v.status ≠ .running)
    (hw : w.status = .running) (hseq : w.seq = seq) :
    (l.set i w).findIdx (fun v => v.status == .running && v.seq == seq) = i := by
  refine (List.findIdx_eq (by simpa using hi)).2 ⟨?_, fun j hj => ?_⟩
  · rw [List.getElem_set_self, hw, hseq]
    simp
  · rw [List.getElem_set_ne (by omega), beq_false_of_ne (hl _ (List.getElem_mem _)), Bool.false_and]

theorem queue_startEntry (a : State) (q n i : Nat) (w : WinEntry) :
    (a.startEntry q n i w).queue q n = { a.queue q n with window := (a.queue q n).window.set i (started a q w) } :=
  (queue_of_units (congrArg Ground.units (ground_startEntry a q n i w)) q n).trans (queue_setEntry ..)

/-- The entry of an operation that ends is done, at the time of its last addition at the earliest. -/
theorem window_closed {a s : State} {q i : Nat} {w : WinEntry} {o : CollOp} (hi : i < (a.queue q 153).window.length)
    (hidle : ∀ v ∈ (a.queue q 153).window, v.status ≠ .running) (hq : o.q = q) (hseq : o.seq = w.seq) (huntil : o.until_ = 0)
    (hnow : s.now = a.now) (hqueue : s.queue q 153 = { a.queue q 153 with window := (a.queue q 153).window.set i (started a q w) }) :
    (((closed s o).queue q 153).window[i]?).map (fun v => (v.status, v.waitUntil)) = some (.done, a.now) := by
  have hfind : (s.queue q 153).window.findIdx (fun v => v.status == .running && v.seq == o.seq) = i := by
    rw [hqueue]
    exact findIdx_set hi hidle rfl hseq.symm
  have hlen : i < (s.queue q 153).window.length := by rw [hqueue]; simpa using hi
  have hqueue' : (unlisted s o).queue q 153 = s.queue q 153 := rfl
  have hget : ((unlisted s o).queue q 153).window[i]? = some (s.queue q 153).window[i] := by
    rw [hqueue']
    exact List.getElem?_eq_getElem hlen
  rw [closed, hq, hfind, huntil, Nat.max_zero, hnow, State.finishEntry]
  simp only [hget]
  rw [queue_setEntry, hqueue']
  simp [hlen]

theorem coll_finishEntry (s : State) (q n i at_ : Nat) : (s.finishEntry q n i at_).coll = s.coll := by
  unfold State.finishEntry
  split <;> rfl

theorem mem_closed (s : State) (o : CollOp) : (closed s o).mem = s.mem := mem_finishEntry ..

theorem ops_closed {s : State} {q : Nat} {ops : List CollOp} {o : CollOp} (h : Running ops q o s) : (closed s o).coll.ops = ops := by
  rw [closed, coll_finishEntry]
  show s.coll.ops.filter _ = ops
  rw [h.ops, List.filter_append, List.filter_eq_self.2 (fun v hv => ?_)]
  · simp
  · rw [h.q, beq_false_of_ne (h.others v hv), Bool.false_and]
    rfl

theorem laneKeys_opened (s : State) (q first : Nat) (o : CollOp) (lanes : List (Nat × Nat)) : laneKeys (opened s q first o lanes) = lanes := by
  simp [laneKeys, opened, newStream, Function.comp_def]

theorem writeWaits_of_steady {s t : State} (h : Steady s t) (hs : Idle s) (x n : Nat) : t.writeWaits x n = s.writeWaits x n := by
  refine writeWaits_of_leases ?_ (fun off hoff => h.on.reg ⟨by decide, by decide, by decide, fun h => by simp at h, fun h => by simp at h, hoff⟩)
    hs h.idle x n
  have hl := congrArg State.leases h.on.afar
  exact hl

section Ends
variable {a : State} {q i : Nat} {w : WinEntry} (hstart : a.startable q 153 = some (i, w))
include hstart

/-- The entry is done and no operation of the quarter runs. -/
theorem closed_spec {t s : State} {o : CollOp} (hground : ground t = ground (a.startEntry q 153 i w)) (hbare : CollOp.bare o = newOp a q w)
    (hrun : Running a.coll.ops q o t) (honly : OnlyMemory t s) (hidle : ∀ v ∈ (a.queue q 153).window, v.status ≠ .running) :
    (((closed s o).queue q 153).window[i]?).map (fun v => (v.status, v.waitUntil)) = some (.done, a.now) ∧
    (closed s o).coll.ops = a.coll.ops := by
  have hnow : s.now = a.now := by
    have hs := congrArg State.now honly.beyond
    exact Eq.trans hs ((now_of_units (congrArg Ground.units hground)).trans (now_startEntry ..))
  have hqueue : s.queue q 153 = { a.queue q 153 with window := (a.queue q 153).window.set i (started a q w) } := by
    have hs : s.queue q 153 = t.queue q 153 := by
      have hc := congrArg (fun x : State => x.queue q 153) honly.beyond
      exact hc
    rw [hs, queue_of_units (congrArg Ground.units hground), queue_startEntry]
  have hcoll : s.coll = t.coll := by
    have hc := congrArg State.coll honly.beyond
    exact hc
  have hseq : o.seq = w.seq := by
    have hs := congrArg CollOp.seq hbare
    exact hs
  have huntil : o.until_ = 0 := by
    have hs := congrArg CollOp.until_ hbare
    exact hs
  exact ⟨window_closed (List.getElem?_eq_some_iff.1 (startable_eq hstart).2).1 hidle hrun.q hseq huntil hnow hqueue,
    ops_closed (hrun.of_coll hcoll)⟩

/-- SHARD takes the whole lane, and nothing else is written. -/
theorem storeShard_alone (ha : Idle a) (hrings : ∀ e, e < 3 → a.ringSize e = 1 ∧ a.ringPos e = 0) {t : State} {o : CollOp} (ht : Steady a t) (hbare : CollOp.bare o = newOp a q w) (hrun : Running a.coll.ops q o t)
    (hlen : dw w.desc 5 % 64 = 0) (hapart : Apart (a.plan q (dw w.desc 6)).shard (dw w.desc 5) (dq w.desc 3) (dw w.desc 5))
    (hwaits : ∀ y n, (a.plan q (dw w.desc 6)).shard ≤ y → y + n ≤ (a.plan q (dw w.desc 6)).shard + dw w.desc 5 → a.writeWaits y n = false) :
    Copied t (t.storeShard o) (dq w.desc 3) (a.plan q (dw w.desc 6)).shard (dw w.desc 5) := by
  have hq : q < 4 := quarter_of_startable_cs hstart
  have hoq : o.q < 4 := hrun.q.symm ▸ hq
  have hdesc : o.desc = w.desc := by
    have hd := congrArg CollOp.desc hbare
    exact hd
  have hplan : t.planOf o = a.plan q (dw w.desc 6) := by rw [ht.planOf ha hoq, State.planOf, hrun.q, hdesc]
  have hlines : o.lines = dw w.desc 5 / 64 := by rw [CollOp.lines, hdesc]
  have hone : ∀ d ∈ planDims (a.plan q (dw w.desc 6)), a.ringSize d = 1 ∧ a.ringPos d = 0 := fun d hd => hrings d (lt_three_of_mem_planDims hd)
  have htiles : Tiles 0 (dw w.desc 5 / 64) (t.ownedAt (planDims (t.planOf o)) t.ringPos o.lines) := by
    rw [hplan, hlines, ht.ringPos, ht.ownedAt]
    exact tiles_ownedAt _ (fun d hd => (hone d hd).1) (fun d hd => (hone d hd).2)
  have h64 : 64 * (dw w.desc 5 / 64) = dw w.desc 5 := by omega
  rw [storeShard_eq (fun d hd => by rw [ht.ringSize]; exact (hone d (hplan ▸ hd)).1), hplan, hdesc]
  rw [hplan] at htiles
  have hcopied := shard_copied ht.idle (owner := (o.q, 153, o.seq)) (via := some (o.q, 0)) hapart
    (fun y n h1 h2 => by rw [writeWaits_of_steady ht ha]; exact hwaits y n h1 h2) (Nat.le_of_eq h64) _ htiles
    ⟨.refl ht.idle, rfl⟩
  rwa [h64] at hcopied

end Ends

section Alone
variable {a : State} {q i op : Nat} {w : WinEntry} (hstart : a.startable q 153 = some (i, w)) (hop : dOp w.desc = op)
  (hothers : ∀ v ∈ a.coll.ops, v.q ≠ q) (hstep : tagClass (dw w.desc 2) = 2 → a.stepState ∈ [3, 5, 6, 7])
  (hregions : a.collRegions (newOp a q w) = true) (ha : Idle a) (hrings : ∀ e, e < 3 → a.ringSize e = 1 ∧ a.ringPos e = 0)
  (hldig : (a.plan q (dw w.desc 6)).ldig = false)
include hstart hop hothers hstep hregions ha hrings hldig

/-- An operation without others ends as it starts: what it owns is in SHARD, and its descriptor is done. -/
theorem runColl_alone : ∃ t o, Steady a t ∧ ground t = ground (a.startEntry q 153 i w) ∧ CollOp.bare o = newOp a q w ∧
    Running a.coll.ops q o t ∧ a.runColl q op [] = closed (if o.reduces then t.storeShard o else t) o := by
  have hq : q < 4 := quarter_of_startable_cs hstart
  rw [runColl_eq hstart hop hothers hstep hregions ha _ rfl]
  generalize hdims : planDims (a.plan q (dw w.desc 6)) = dims
  generalize hfirst : (if op = 1 then 0 else dims.length - 1) = first
  have hb := steady_begun ha q i op w
  have ht : Steady a (enlisted (begun a q i op w) q first (newOp a q w) (lanesOf dims.length)) := hb.trans (steady_enlisted hb.idle ..)
  have hrun : Running a.coll.ops q (opened (begun a q i op w) q first (newOp a q w) (lanesOf dims.length))
      (enlisted (begun a q i op w) q first (newOp a q w) (lanesOf dims.length)) := running_enlisted hothers
  have hground : ground (enlisted (begun a q i op w) q first (newOp a q w) (lanesOf dims.length)) = ground (a.startEntry q 153 i w) := by
    show ground (begun a q i op w) = _
    unfold begun
    dsimp only
    split
    · exact ground_phaseStart ..
    · rfl
  have hm : dims.length = (planDims (a.planOf (opened (begun a q i op w) q first (newOp a q w) (lanesOf dims.length)))).length := by
    rw [← hdims]
    rfl
  have hkey : ∃ o, CollOp.bare o = newOp a q w ∧ laneKeys o = lanesOf dims.length ∧
      Running a.coll.ops q o ((lanesOf dims.length).foldl (laneStep q (dw w.desc 2) first)
        (enlisted (begun a q i op w) q first (newOp a q w) (lanesOf dims.length))) ∧
      Steady a ((lanesOf dims.length).foldl (laneStep q (dw w.desc 2) first)
        (enlisted (begun a q i op w) q first (newOp a q w) (lanesOf dims.length))) ∧
      ground ((lanesOf dims.length).foldl (laneStep q (dw w.desc 2) first)
        (enlisted (begun a q i op w) q first (newOp a q w) (lanesOf dims.length))) = ground (a.startEntry q 153 i w) ∧
      ∀ l ∈ lanesOf dims.length, Ended o l := by
    obtain hzero | hpos := Nat.eq_zero_or_pos dims.length
    · rw [hzero] at ht hrun hground ⊢
      exact ⟨_, rfl, laneKeys_opened .., hrun, ht, hground, fun l hl => by simp [lanesOf] at hl⟩
    · have hring : ∀ r k, (a.phaseRing (opened (begun a q i op w) q first (newOp a q w) (lanesOf dims.length)) r k).2.1 ≤ 1 := by
        intro r k
        show a.ringSize (phaseDim (planDims (a.plan q (dw w.desc 6))) r k) ≤ 1
        rw [hdims]
        have hdim := phaseDim_mem hpos r k
        exact (hrings _ (lt_three_of_mem_planDims (p := a.plan q (dw w.desc 6)) (by rw [hdims]; exact hdim))).1.le
      have hthree : dims.length ≤ 3 := hdims ▸ planDims_length_le _
      have hlt : first < dims.length ∧ phasesLeft (opened (begun a q i op w) q first (newOp a q w) (lanesOf dims.length)) dims.length first ≤ 4 := by
        have hreduces : (opened (begun a q i op w) q first (newOp a q w) (lanesOf dims.length)).reduces = (dOp w.desc == 1) := rfl
        rw [phasesLeft, hreduces, ← hfirst, hop]
        by_cases h1 : op = 1
        · simp only [h1, beq_self_eq_true, if_true]
          omega
        · simp only [h1, beq_iff_eq, if_false]
          omega
      obtain ⟨o, hbare, hkeys, hrun', hsteady, hground', hended, -⟩ := lanes_alone ha hq hlt.1 (lanesOf dims.length) ht hrun
        (lanesOf_nodup _) (fun l hl => ⟨_, stream_opened _ _ _ _ hl, rfl, rfl, rfl, rfl⟩) hm hring hlt.2
      exact ⟨o, hbare, hkeys.trans (laneKeys_opened ..), hrun', ht.trans hsteady, hground'.trans hground, hended⟩
  obtain ⟨o, hbare, hkeys, hrun', hsteady, hground', hended⟩ := hkey
  refine ⟨_, o, hsteady, hground', hbare, hrun', ?_⟩
  have hcoll := hrun'.collOp
  have hoq : o.q < 4 := hrun'.q.symm ▸ hq
  have hdesc : o.desc = w.desc := by
    have hd := congrArg CollOp.desc hbare
    exact hd
  have hlate : o.late = [] := by
    have hl := congrArg CollOp.late hbare
    exact hl
  rw [hdesc] at hcoll
  rw [collSettle_of_ended hcoll (hkeys ▸ lanesOf_nodup _) hlate (fun l hl => hended l (hkeys ▸ hl)), collComplete_eq]
  rw [hsteady.planOf ha hoq, State.planOf, hrun'.q, hdesc]
  exact hldig

/-- What an operation without others leaves: its entry is done, and only a REDUCE_SCATTER has copied its lane to SHARD. -/
theorem runColl_alone_spec (hidle : ∀ v ∈ (a.queue q 153).window, v.status ≠ .running) (hlen : dw w.desc 5 % 64 = 0)
    (hapart : Apart (a.plan q (dw w.desc 6)).shard (dw w.desc 5) (dq w.desc 3) (dw w.desc 5))
    (hwaits : ∀ y n, (a.plan q (dw w.desc 6)).shard ≤ y → y + n ≤ (a.plan q (dw w.desc 6)).shard + dw w.desc 5 → a.writeWaits y n = false) :
    (((a.runColl q op []).queue q 153).window[i]?).map (fun v => (v.status, v.waitUntil)) = some (.done, a.now) ∧
    (a.runColl q op []).coll.ops = a.coll.ops ∧ (op = 2 → (a.runColl q op []).mem = a.mem) ∧
    (op = 1 → memBytes (a.runColl q op []).mem (a.plan q (dw w.desc 6)).shard (dw w.desc 5) = memBytes a.mem (dq w.desc 3) (dw w.desc 5) ∧
      ∀ y, Apart y 1 (a.plan q (dw w.desc 6)).shard (dw w.desc 5) → memGet (a.runColl q op []).mem y = memGet a.mem y) := by
  obtain ⟨t, o, ht, hground, hbare, hrun, heq⟩ := runColl_alone hstart hop hothers hstep hregions ha hrings hldig
  have hreduces : o.reduces = (op == 1) := by
    have hd := congrArg CollOp.desc hbare
    have hd' : o.desc = w.desc := hd
    rw [CollOp.reduces, hd', hop]
  rw [heq, hreduces]
  by_cases h1 : op = 1
  · have hcopied := storeShard_alone hstart ha hrings ht hbare hrun hlen hapart hwaits
    obtain ⟨hdone, hops⟩ := closed_spec hstart hground hbare hrun hcopied.writes.only hidle
    have hmem : (closed (t.storeShard o) o).mem = memPut a.mem (a.plan q (dw w.desc 6)).shard (memBytes a.mem (dq w.desc 3) (dw w.desc 5)) := by
      rw [mem_closed, hcopied.mem, ht.mem]
    rw [h1, if_pos (by decide)]
    refine ⟨hdone, hops, fun h => absurd h (by decide), fun _ => ⟨?_, fun y hy => ?_⟩⟩
    · have hput := memBytes_memPut a.mem (a.plan q (dw w.desc 6)).shard (memBytes a.mem (dq w.desc 3) (dw w.desc 5))
      rw [length_memBytes] at hput
      rw [hmem, hput]
    · rw [hmem]
      exact memGet_put_other _ _ _ _ (by rw [length_memBytes]; omega)
  · obtain ⟨hdone, hops⟩ := closed_spec hstart hground hbare hrun (.refl t) hidle
    rw [if_neg (by simpa using h1)]
    exact ⟨hdone, hops, fun _ => (mem_closed ..).trans ht.mem, fun h => absurd h h1⟩

end Alone

/-! ## Where every ring has more (R191, R193, R195) -/

/-- What an operation in larger rings leaves: it runs, with a stream of every part and direction in its first phase. -/
theorem runColl_announces_spec {a : State} {q i op first : Nat} {w : WinEntry} (hstart : a.startable q 153 = some (i, w))
    (hop : dOp w.desc = op) (hothers : ∀ v ∈ a.coll.ops, v.q ≠ q) (hstep : tagClass (dw w.desc 2) = 2 → a.stepState ∈ [3, 5, 6, 7])
    (hregions : a.collRegions (newOp a q w) = true) (ha : Idle a)
    (hfirst : first = if op = 1 then 0 else (planDims (a.plan q (dw w.desc 6))).length - 1)
    (hm : 0 < (planDims (a.plan q (dw w.desc 6))).length)
    (hrings : ∀ e ∈ planDims (a.plan q (dw w.desc 6)), 1 < a.ringSize e ∧ a.ringPos e < a.ringSize e)
    (hlines : 2 * (planDims (a.plan q (dw w.desc 6))).length *
      ((planDims (a.plan q (dw w.desc 6))).map a.ringSize).foldl (· * ·) 1 ≤ dw w.desc 5 / 64) :
    (a.runColl q op []).mem = a.mem ∧ ∃ o', (a.runColl q op []).collOp q (dw w.desc 2) = some o' ∧ o'.seq = w.seq ∧ o'.epoch = w.next ∧
      ∀ r h, r < (planDims (a.plan q (dw w.desc 6))).length → h < 2 →
        (∃ x, o'.stream r h = some x ∧ x.phase = first ∧ x.done_ = false ∧ x.out ≠ []) ∧
        GoesBy a (a.runColl q op []) (a.ownFrame (a.plan q (dw w.desc 6)).vl q
          (a.neigh (2 * phaseDim (planDims (a.plan q (dw w.desc 6))) r first + (1 - h)) * 2 ^ 45 + foldBase q)
          (.ready ((newOp a q w).hdr r h first 0 0))) (some (2 * phaseDim (planDims (a.plan q (dw w.desc 6))) r first + (1 - h))) := by
  obtain ⟨o', hbare, hmem, hcoll, hin⟩ := runColl_announces hstart hop hothers hstep hregions ha hfirst hm hrings hlines
  have hseq : o'.seq = w.seq := by
    have hs := congrArg CollOp.seq hbare
    exact hs
  have hepoch : o'.epoch = w.next := by
    have he := congrArg CollOp.epoch hbare
    exact he
  refine ⟨hmem, o', hcoll, hseq, hepoch, fun r h hr hh => ?_⟩
  obtain ⟨hstream, hready⟩ := hin (r, h) (mem_lanesOf.2 ⟨hr, hh⟩)
  have hgoes := hready _ (.refl _)
  rw [readyFrame_of_bare (o := newOp a q w) hbare, phaseRing_of_bare (o := newOp a q w) hbare] at hgoes
  exact ⟨hstream, hgoes⟩

/-! ## The statement -/

/-- Settles O31: an operation alone in its rings goes through its phases within its start, and what it owns are ranges that follow
one another; in larger rings every stream enters its first phase with a piece that the count of lines makes non-empty. -/
theorem collectivesStartAndAnnounce : Obligations.CollectivesStartAndAnnounce := by
  unfold Obligations.CollectivesStartAndAnnounce
  refine ⟨?_, ?_⟩
  · intro t q i op w s
    dsimp only
    intro hstart hop _ hothers hidle hstep hregions hclean hldig hlen hrings hapart hwaits
    have hspec := runColl_alone_spec hstart hop hothers hstep hregions (idle_of_clean hclean) hrings hldig hidle hlen hapart hwaits
    exact ⟨fun h => ⟨_, congrArg (fun n => done ((s.advance t).runColl q n [])) h.symm, hspec⟩,
      fun h => ⟨_, congrArg (fun n => done ((s.advance t).runColl q n [])) h.symm, hspec⟩⟩
  · intro t q i op w s
    dsimp only
    intro hstart hop _ hothers hstep hregions hclean hm hrings hlines
    have hspec := runColl_announces_spec hstart hop hothers hstep hregions (idle_of_clean hclean) rfl hm hrings hlines
    exact ⟨fun h => ⟨_, congrArg (fun n => done ((s.advance t).runColl q n [])) h.symm, hspec⟩,
      fun h => ⟨_, congrArg (fun n => done ((s.advance t).runColl q n [])) h.symm, hspec⟩⟩

end Sys2Proof.Proofs
end

section
/-! PROOFS. What the page mends that begin at the end of a command leave. -/

namespace Sys2Proof.Proofs
open Sys2Proof Sys2Proof.Machine Sys2Proof.Laws

/-! ## The end of a command that may have read a D-tier line (R244, R462) -/

/-- What of a state is neither registers with their records and events, nor the mends that training keeps, nor the ports. -/
def unmended (s : State) : State :=
  { s with regs := [], cycle := [], pulses := [], events := {}, fabric := { s.fabric with ports := [] },
           train := { s.train with ueLines := [], mends := [], asked := [], takeUp := none } }

/-- From one state to another, mends have begun. -/
structure Mended (s t : State) : Prop where
  unmended : unmended t = unmended s
  reg : ∀ {p : Page} {off : Nat}, p.slot < 4096 → off < 4096 → p ≠ mPage .pod → p ≠ mPage .evq → t.reg p off = s.reg p off

namespace Mended
variable {s t u : State}

theorem refl (s : State) : Mended s s := ⟨rfl, fun _ _ _ _ => rfl⟩

theorem trans (h : Mended s t) (g : Mended t u) : Mended s u :=
  ⟨g.unmended.trans h.unmended, fun hp ho hpod hevq => (g.reg hp ho hpod hevq).trans (h.reg hp ho hpod hevq)⟩

theorem ite {c : Prop} [Decidable c] (h : Mended s t) (g : Mended s u) : Mended s (if c then t else u) := by
  split
  · exact h
  · exact g

theorem mem (h : Mended s t) : t.mem = s.mem := by
  have hm := congrArg State.mem h.unmended
  exact hm

theorem compute (h : Mended s t) : t.compute = s.compute := by
  have hc := congrArg State.compute h.unmended
  exact hc

theorem queue (h : Mended s t) (q n : Nat) : t.queue q n = s.queue q n := by
  rw [State.queue, State.queue, h.compute]

theorem coll (h : Mended s t) : t.coll = s.coll := by
  have hc := congrArg State.coll h.unmended
  exact hc

theorem segs (h : Mended s t) : t.fabric.segs = s.fabric.segs := by
  have hf := congrArg (fun x : State => x.fabric.segs) h.unmended
  exact hf

theorem images (h : Mended s t) : t.train.images = s.train.images := by
  have hi := congrArg (fun x : State => x.train.images) h.unmended
  exact hi

theorem raise_pod (bit : Nat) : Mended s (s.raise (mPage .pod) bit) where
  unmended := by
    obtain ⟨_, _, _, _, h⟩ := raise_fields s (mPage .pod) bit
    rw [h]
    rfl
  reg {p off} hp ho hpod hevq := by
    have hbeside : Beside (mPage .pod) p off :=
      ⟨fun o ho' => page_reg_ne_of_page hp (mPage_slot_lt _) ho ho' hpod, offEvq_of_page hp ho hevq⟩
    exact congrArg Prod.fst (seen_raise_beside _ _ hbeside)

theorem routeAt (f : Frame) (travel : Option Nat) (at_ : Nat) (owe : Option (Nat × Nat × Nat × Nat)) :
    Mended s (s.routeAt f travel at_ owe).1 := by
  unfold State.routeAt
  split
  · unfold State.raiseIf
    exact ite (raise_pod 4) (refl s)
  · exact ⟨rfl, fun _ _ _ _ => rfl⟩

theorem sendId (vl id : Nat) (b : Body) : Mended s (s.sendId vl id b) := routeAt ..

theorem treeUp (h : TreeHdr) (m : TreeMsg) : Mended s (s.treeUp h m) := by
  unfold State.treeUp
  refine ite (sendId ..) (ite (refl s) ?_)
  split
  · exact sendId ..
  · exact refl s

theorem nameHolder (holder : Nat) : Mended s (s.nameHolder holder) := by
  unfold State.nameHolder
  split
  · exact refl s
  · exact ⟨rfl, fun _ _ _ _ => rfl⟩

theorem askHolder (page : Nat) : Mended s (s.askHolder page) := by
  have hask : Mended s { s with train := { s.train with asked := s.train.asked ++ [page] } } := ⟨rfl, fun _ _ _ _ => rfl⟩
  unfold State.askHolder State.report
  dsimp only
  refine ite ?_ (hask.trans (treeUp ..))
  split
  · exact hask.trans (nameHolder ..)
  · exact hask

theorem startMends : Mended s s.startMends := by
  unfold State.startMends
  refine List.foldlRecOn (motive := Mended s) _ _ ⟨rfl, fun _ _ _ _ => rfl⟩ (fun t ht x _ => ?_)
  dsimp only
  split
  · exact ht
  · have hmend (l : List PageMend) : Mended s { t with train := { t.train with mends := l } } := ht.trans ⟨rfl, fun _ _ _ _ => rfl⟩
    exact ite ht ((hmend _).trans (askHolder _))

end Mended

/-- The end of a command answers a state in which mends may have begun. -/
theorem settled_mended (s : State) : ∃ u, settled s = .next u ∧ Mended s u := by
  refine ⟨_, rfl, .ite (.refl s) .startMends⟩

end Sys2Proof.Proofs
end

section
/-! PROOFS. Streamers: issuing the segments of a descriptor, ending one, and the end or failure of the descriptor. -/

namespace Sys2Proof.Proofs
open Sys2Proof Sys2Proof.Machine Sys2Proof.Laws

/-! ## What a streamer goes by (R136, R249) -/

namespace Bearings
variable {s t u : State}

theorem refl (s : State) : Bearings s s := ⟨rfl, fun _ _ _ => rfl⟩

theorem trans (h : Bearings s t) (g : Bearings t u) : Bearings s u :=
  ⟨g.pod.trans h.pod, fun off h0 h1 => (g.reg off h0 h1).trans (h.reg off h0 h1)⟩

theorem of_regs (hp : t.fabric.pod = s.fabric.pod) (hr : t.regs = s.regs) : Bearings s t :=
  ⟨hp, fun _ _ _ => by rw [State.reg, State.reg, hr]⟩

section Streams
variable (h : Bearings s t)
include h

theorem moves (d : Desc) : t.moves d = s.moves d := by
  have hoff : t.offSite = s.offSite := by
    funext x
    rw [State.offSite, State.offSite, h.resolve]
  rw [State.moves, State.moves, hoff]

theorem streamTime (q : Nat) (d : Desc) : t.streamTime q d = s.streamTime q d := by
  simp only [State.streamTime, h.resolve]

end Streams
end Bearings

/-! ## The running entry of a ring count -/

section Entry
variable {α : Type} {p : α → Bool} {f : α → α} {l : List α} {k : Nat} {w v : α}

theorem find?_of_findIdx (hk : l.findIdx p = k) (hw : l[k]? = some w) : p w = true ∧ l.find? p = some w := by
  subst hk
  obtain ⟨hlt, hget⟩ := List.getElem?_eq_some_iff.1 hw
  have hp : p w = true := hget ▸ List.findIdx_getElem (w := hlt)
  refine ⟨hp, ?_⟩
  rw [List.find?_eq_getElem?_findIdx, hw]

theorem replaceFirst_eq_set (hk : l.findIdx p = k) (hw : l[k]? = some w) : replaceFirst p f l = l.set k (f w) := by
  induction l generalizing k with
  | nil => simp at hw
  | cons z l ih =>
    rw [List.findIdx_cons] at hk
    cases hz : p z with
    | true =>
      simp only [hz, cond_true] at hk
      subst hk
      obtain rfl : z = w := by simpa using hw
      simp [replaceFirst, hz]
    | false =>
      simp only [hz, cond_false] at hk
      subst hk
      simp only [replaceFirst, hz, Bool.false_eq_true, if_false, List.set_cons_succ]
      rw [ih rfl (by simpa using hw)]

theorem findIdx_set_self (hk : l.findIdx p = k) (hlt : k < l.length) (hv : p v = true) : (l.set k v).findIdx p = k := by
  refine (List.findIdx_eq (by simpa using hlt)).2 ⟨?_, fun j hj => ?_⟩
  · rw [List.getElem_set_self, hv]
  · rw [List.getElem_set_ne (by omega)]
    exact List.not_of_lt_findIdx (by omega)

end Entry

/-! ## A streamer at work -/

/-- A state in which queue n of quarter q is `x` and memory is `m`, and frames and addresses go where they went. -/
structure Underway (a : State) (q n : Nat) (x : Queue) (m : List Host.Cell) (t : State) : Prop where
  bearings : Bearings a t
  queue : t.queue q n = x
  mem : t.mem = m

namespace Underway
variable {a t u : State} {q n : Nat} {x : Queue} {m : List Host.Cell}

theorem setQueue (h : Underway a q n x m t) (y : Queue) : Underway a q n y m (t.setQueue q n y) :=
  ⟨h.bearings.trans (.of_regs rfl rfl), queue_setQueue_same .., h.mem⟩

theorem hold (h : Underway a q n x m t) (d : Desc) (y : Nat) (b : Bool) : Underway a q n x m (t.hold d y b) := by
  unfold State.hold
  split
  · exact ⟨h.bearings.trans (.of_regs rfl rfl), h.queue, h.mem⟩
  · exact h

theorem of_mended (h : Underway a q n x m t) (hu : Mended t u) : u.queue q n = x ∧ u.mem = m :=
  ⟨(hu.queue q n).trans h.queue, hu.mem.trans h.mem⟩

end Underway

/-! ## Issuing segments (R110, R136) -/

/-- Does an entry run with a ring count? -/
def runsAs (seq : Nat) (w : WinEntry) : Bool := w.status == .running && w.seq == seq

/-- A streamer's entry after j segments, from its start. -/
def issued (a : State) (q : Nat) (w : WinEntry) (j : Nat) : WinEntry :=
  { w with status := .running, startedAt := a.now, salt := a.salt q, attempt := a.attempt, next := j, open_ := List.range j }

/-- A streamer's queue after j segments of its descriptor. -/
def issuedQueue (a : State) (q n i : Nat) (w : WinEntry) (j : Nat) : Queue :=
  { a.queue q n with window := (a.queue q n).window.set i (issued a q w j)
                     segWait := if j = 0 then (a.queue q n).segWait else false }

/-- Is every end of a descriptor's segments this module's? -/
def Local (a : State) (d : Desc) : Prop :=
  ∀ j, j < (a.moves d).count → (∃ y, a.resolve ((a.moves d).ends d j).2.1 = .here y) ∧
    (dOp d ≠ 2 → ∃ x, a.resolve ((a.moves d).ends d j).1 = .here x)

theorem foldl_open_add (l : List WinEntry) (n : Nat) : l.foldl (fun b v => b + v.open_.length) n = n + (l.map (fun v => v.open_.length)).sum := by
  induction l generalizing n with
  | nil => simp
  | cons v l ih => rw [List.foldl_cons, ih, List.map_cons, List.sum_cons, Nat.add_assoc]

theorem sum_set_of_zero {l : List Nat} {i : Nat} (h : l[i]? = some 0) (j : Nat) : (l.set i j).sum = l.sum + j := by
  induction l generalizing i with
  | nil => simp at h
  | cons x l ih =>
    cases i with
    | zero =>
      obtain rfl : x = 0 := by simpa using h
      simp [Nat.add_comm]
    | succ i =>
      rw [List.set_cons_succ, List.sum_cons, List.sum_cons, ih (by simpa using h), Nat.add_assoc]

/-- A segment between this module's addresses is issued without a message. -/
theorem issueSegment_local {a t : State} {q e j n : Nat} {x : Queue} {m : List Host.Cell} {v : WinEntry} (ht : Underway a q n x m t)
    (hlocal : Local a v.desc) (hj : j < (a.moves v.desc).count) : Underway a q n x m (t.issueSegment q e v j) := by
  obtain ⟨⟨y, hy⟩, hx⟩ := hlocal j hj
  unfold State.issueSegment
  dsimp only
  rw [ht.bearings.moves]
  split
  · rw [ht.bearings.resolve, hy]
    exact ht
  · next hop =>
    obtain ⟨z, hz⟩ := hx hop
    rw [ht.bearings.resolve, hz]
    dsimp only
    rw [(ht.hold v.desc z true).bearings.resolve, hy]
    exact ht.hold v.desc z true

section Issue
variable {a t : State} {q e i : Nat} {w : WinEntry} (he : e < 16) (hw : (a.queue q (136 + e)).window[i]? = some w)
  (hopen : w.open_ = []) (herr : w.err = 0)
  (hothers : ∀ v ∈ (a.queue q (136 + e)).window, v.status = .running → v.seq ≠ w.seq)

section Counts
include hw hopen

theorem outstanding_issuedQueue (j : Nat) : (issuedQueue a q (136 + e) i w j).outstanding = (a.queue q (136 + e)).outstanding + j := by
  have hzero : ((a.queue q (136 + e)).window.map (fun v => v.open_.length))[i]? = some 0 := by
    rw [List.getElem?_map, hw, Option.map_some, hopen]
    rfl
  have hsum := sum_set_of_zero hzero (issued a q w j).open_.length
  rw [Queue.outstanding, Queue.outstanding, foldl_open_add, foldl_open_add, issuedQueue]
  dsimp only
  rw [List.map_set, hsum, issued, List.length_range]
  omega

include he

theorem opsOf_issuedQueue {j : Nat} (hq : t.queue q (136 + e) = issuedQueue a q (136 + e) i w j) :
    t.opsOf q (136 + e) = a.opsOf q (136 + e) + j := by
  have hn : 136 + e ≠ 152 ∧ 136 + e ≠ 153 := by omega
  have hops : (issuedQueue a q (136 + e) i w j).ops = (a.queue q (136 + e)).ops + j := by
    have hout := outstanding_issuedQueue hw hopen j
    have hlen : (issuedQueue a q (136 + e) i w j).window.length = (a.queue q (136 + e)).window.length := by
      rw [issuedQueue]
      exact List.length_set
    have hfetch : (issuedQueue a q (136 + e) i w j).descFetches = (a.queue q (136 + e)).descFetches := rfl
    rw [Queue.outstanding, Queue.outstanding] at hout
    rw [Queue.ops, Queue.ops, hlen, hfetch, hout]
    omega
  rw [State.opsOf, State.opsOf, if_neg hn.1, if_neg hn.2, if_neg hn.1, if_neg hn.2, hq, hops]
  rfl

end Counts

include hw hothers in
theorem findIdx_issuedQueue (j : Nat) : (issuedQueue a q (136 + e) i w j).window.findIdx (fun v => v.status == .running && v.seq == w.seq) = i := by
  obtain ⟨hi, -⟩ := List.getElem?_eq_some_iff.1 hw
  rw [issuedQueue]
  dsimp only
  refine (List.findIdx_eq (by simpa using hi)).2 ⟨?_, fun k hk => ?_⟩
  · rw [List.getElem_set_self]
    simp [issued]
  · rw [List.getElem_set_ne (by omega)]
    refine Bool.eq_false_iff.2 (fun h => ?_)
    simp only [Bool.and_eq_true, beq_iff_eq] at h
    exact hothers _ (List.getElem_mem _) h.1 h.2

include he hw hopen herr hothers in
/-- A streamer with free tracker entries issues the segments of its descriptor one after another. -/
theorem issueFuel_issued {m : List Host.Cell} (hlocal : Local a w.desc) (hops : a.opsOf q (136 + e) + (a.moves w.desc).count ≤ 4) (f : Nat) :
    ∀ {j : Nat} {t : State}, j ≤ (a.moves w.desc).count → (a.moves w.desc).count - j ≤ f →
    Underway a q (136 + e) (issuedQueue a q (136 + e) i w j) m t →
    Underway a q (136 + e) (issuedQueue a q (136 + e) i w (a.moves w.desc).count) m (State.issueFuel f q e w.seq t) := by
  induction f with
  | zero =>
    intro j t hj hf ht
    obtain rfl : j = (a.moves w.desc).count := by omega
    exact ht
  | succ f ih =>
    intro j t hj hf ht
    obtain ⟨hi, -⟩ := List.getElem?_eq_some_iff.1 hw
    have hget : (issuedQueue a q (136 + e) i w j).window[i]? = some (issued a q w j) := List.getElem?_set_self hi
    rw [State.issueFuel]
    dsimp only
    rw [ht.queue, findIdx_issuedQueue hw hothers, hget]
    dsimp only
    have hcount : (t.moves (issued a q w j).desc).count = (a.moves w.desc).count := by rw [ht.bearings.moves]; rfl
    have hout : decide (512 ≤ (issuedQueue a q (136 + e) i w j).outstanding) = false := by
      refine decide_eq_false (fun h => ?_)
      have hle : (a.queue q (136 + e)).outstanding ≤ a.opsOf q (136 + e) := by
        rw [State.opsOf, Queue.ops, Queue.outstanding]
        omega
      rw [outstanding_issuedQueue hw hopen] at h
      omega
    have herr' : decide ((issued a q w j).err ≠ 0) = false := decide_eq_false (fun h => h herr)
    have hnext : (issued a q w j).next = j := rfl
    rw [hcount, hout, herr', Bool.false_or, Bool.false_or, hnext]
    by_cases hlast : (a.moves w.desc).count ≤ j
    · obtain rfl : j = (a.moves w.desc).count := by omega
      rw [if_pos (decide_eq_true hlast)]
      exact ht
    · have hcan : t.canTrack q (136 + e) = true := by
        have hmine := opsOf_issuedQueue he hw hopen ht.queue
        rw [State.canTrack, State.canTakeTracks, hmine, Bool.or_eq_true]
        exact .inl (decide_eq_true (by omega))
      rw [if_neg (by simpa using Nat.lt_of_not_le hlast), hcan, if_neg (by decide)]
      have hissued : Underway a q (136 + e) (issuedQueue a q (136 + e) i w (j + 1)) m
          ((t.setQueue q (136 + e) { issuedQueue a q (136 + e) i w j with segWait := false }).setEntry q (136 + e) i
            { issued a q w j with next := j + 1, open_ := (issued a q w j).open_ ++ [j] }) := by
        have hq := (ht.setQueue { issuedQueue a q (136 + e) i w j with segWait := false }).queue
        unfold State.setEntry
        dsimp only
        rw [hq]
        have hset := (ht.setQueue { issuedQueue a q (136 + e) i w j with segWait := false }).setQueue
          (issuedQueue a q (136 + e) i w (j + 1))
        convert hset using 2
        simp [issuedQueue, issued, List.range_succ]
      exact ih (by omega) (by omega) (issueSegment_local hissued hlocal (show j < (a.moves w.desc).count from Nat.lt_of_not_le hlast))

theorem count_pos {a : State} {d : Desc} (h : 0 < dw d 6) : 0 < (a.moves d).count := by
  refine Nat.mul_pos (Nat.succ_pos _) ?_
  unfold State.moves
  dsimp only
  refine Nat.div_pos ?_ ?_
  · split <;> omega
  · split <;> decide

include he hw hopen herr hothers in
/-- A streamer's descriptor that starts between this module's addresses issues all of its segments. -/
theorem runStream_local (hstart : a.startable q (136 + e) = some (i, w)) (hnext : w.next = 0) (hlen : 0 < dw w.desc 6)
    (hlocal : Local a w.desc) (hops : a.opsOf q (136 + e) + (a.moves w.desc).count ≤ 4) :
    Underway a q (136 + e) (issuedQueue a q (136 + e) i w (a.moves w.desc).count) a.mem (a.runStream q e (dOp w.desc)) := by
  have hzero : issued a q w 0 = started a q w := by
    rw [issued, started, List.range_zero]
    conv_lhs => rw [← hnext, ← hopen]
  have hbegin : Underway a q (136 + e) (issuedQueue a q (136 + e) i w 0) a.mem (a.startEntry q (136 + e) i w) := by
    refine ⟨(Onward.startEntry ..).bearings, ?_, mem_startEntry ..⟩
    rw [queue_startEntry, issuedQueue, hzero, if_pos rfl]
  have hissued := issueFuel_issued he hw hopen herr hothers hlocal hops 512 (Nat.zero_le _) (by omega) hbegin
  have hsettle : (State.issueFuel 512 q e w.seq (a.startEntry q (136 + e) i w)).settleStream q e w.seq =
      State.issueFuel 512 q e w.seq (a.startEntry q (136 + e) i w) := by
    obtain ⟨hi, -⟩ := List.getElem?_eq_some_iff.1 hw
    have hget : (issuedQueue a q (136 + e) i w (a.moves w.desc).count).window[i]? = some (issued a q w (a.moves w.desc).count) :=
      List.getElem?_set_self hi
    have hne : (issued a q w (a.moves w.desc).count).open_.isEmpty = false := by
      have hpos := count_pos (a := a) hlen
      rw [issued, List.isEmpty_eq_false_iff]
      exact List.ne_nil_of_length_pos (by simpa using hpos)
    rw [State.settleStream, hissued.queue, findIdx_issuedQueue hw hothers, hget]
    dsimp only
    rw [hne]
    rfl
  rw [State.runStream, if_pos he, hstart]
  dsimp only
  rw [if_neg (fun h => h rfl), hsettle]
  exact hissued

end Issue

/-! ## A segment ends (R115, R136) -/

/-- Two states that differ in their queues and leases only. -/
structure SameElse (s t : State) : Prop where
  regs : t.regs = s.regs
  train : t.train = s.train
  fabric : t.fabric = s.fabric

theorem hold_same (s : State) (d : Desc) (y : Nat) (b : Bool) : SameElse s (s.hold d y b) := by
  unfold State.hold
  split
  · exact ⟨rfl, rfl, rfl⟩
  · exact ⟨rfl, rfl, rfl⟩

/-- A streamer's entry whose last segment has ended with a code. -/
def ended (w : WinEntry) (code : Nat) : WinEntry := { w with open_ := [], err := code }

section Last
variable {a t : State} {q e seq i k : Nat} {w : WinEntry} {x : Queue} {m : List Host.Cell}
  (hk : x.window.findIdx (fun v => v.status == .running && v.seq == seq) = k) (hw : x.window[k]? = some w)
  (hopen : w.open_ = [i]) (herr : w.err = 0) (hcount : (a.moves w.desc).count ≤ w.next)
  (ht : Underway a q (136 + e) x m t)
include hk hw hopen herr hcount ht

/-- The last segment's end finishes the descriptor, or fails it with the segment's code. -/
theorem endSegment_last (code : Nat) : ∃ t', Underway a q (136 + e) { x with window := x.window.set k (ended w code) } m t' ∧
    SameElse t t' ∧ t.endSegment q e seq i code =
      if code ≠ 0 then t'.failRuntime q (136 + e) seq code else t'.finishEntry q (136 + e) k (w.startedAt + a.streamTime q w.desc) := by
  obtain ⟨hmine, hfind⟩ := find?_of_findIdx hk hw
  obtain ⟨hlt, -⟩ := List.getElem?_eq_some_iff.1 hw
  have hset : replaceFirst (fun v : WinEntry => v.status == .running && v.seq == seq) (fun v =>
      { v with open_ := v.open_.filter (· != i), err := if v.err = 0 then code else v.err }) x.window = x.window.set k (ended w code) := by
    rw [replaceFirst_eq_set hk hw, ended, hopen, if_pos herr]
    simp
  have hend : (fun v : WinEntry => v.status == .running && v.seq == seq) (ended w code) = true := hmine
  have hk' : (x.window.set k (ended w code)).findIdx (fun v => v.status == .running && v.seq == seq) = k := findIdx_set_self hk hlt hend
  have hget : (x.window.set k (ended w code))[k]? = some (ended w code) := List.getElem?_set_self hlt
  -- the read's hold on its lease ends, and the entry takes the code
  have key : ∀ t', Underway a q (136 + e) { x with window := x.window.set k (ended w code) } m t' →
      (State.issueFuel 512 q e seq t').settleStream q e seq =
        if code ≠ 0 then t'.failRuntime q (136 + e) seq code else t'.finishEntry q (136 + e) k (w.startedAt + a.streamTime q w.desc) := by
    intro t' h'
    have hissue : State.issueFuel 512 q e seq t' = t' := by
      rw [State.issueFuel]
      dsimp only
      rw [h'.queue, hk', hget]
      dsimp only
      rw [h'.bearings.moves, if_pos]
      have hdone : decide ((a.moves (ended w code).desc).count ≤ (ended w code).next) = true := decide_eq_true hcount
      rw [hdone, Bool.or_true]
    rw [hissue, State.settleStream, h'.queue, hk', hget]
    dsimp only
    rw [h'.bearings.moves, h'.bearings.streamTime]
    have hnone : (ended w code).open_.isEmpty = true := rfl
    have hdone : (a.moves (ended w code).desc).count ≤ (ended w code).next := hcount
    rw [hnone, Bool.not_true, if_neg Bool.false_ne_true, if_pos hdone]
    rfl
  unfold State.endSegment
  dsimp only
  rw [ht.queue, hfind]
  dsimp only
  rw [ht.bearings.moves, ht.bearings.resolve]
  have hstep {s : State} (hs : Underway a q (136 + e) x m s) (hsame : SameElse t s) :
      ∃ t', Underway a q (136 + e) { x with window := x.window.set k (ended w code) } m t' ∧ SameElse t t' ∧
      (State.issueFuel 512 q e seq (s.setQueue q (136 + e) { s.queue q (136 + e) with
        window := replaceFirst (fun v : WinEntry => v.status == .running && v.seq == seq) (fun v =>
          { v with open_ := v.open_.filter (· != i), err := if v.err = 0 then code else v.err }) (s.queue q (136 + e)).window })).settleStream
        q e seq = if code ≠ 0 then t'.failRuntime q (136 + e) seq code
          else t'.finishEntry q (136 + e) k (w.startedAt + a.streamTime q w.desc) := by
    rw [hs.queue, hset]
    exact ⟨_, hs.setQueue _, ⟨hsame.regs, hsame.train, hsame.fabric⟩, key _ (hs.setQueue _)⟩
  split
  · split
    · exact hstep (ht.hold ..) (hold_same ..)
    · exact hstep ht ⟨rfl, rfl, rfl⟩
  · exact hstep ht ⟨rfl, rfl, rfl⟩

end Last

/-! ## What a segment's bytes leave (R98, R116, R132, R137) -/

theorem dg_ne_mPage (k : PageKind) (q g : Nat) : mPage k ≠ qPage .dg q g := by
  intro h
  have hslot : (mPage k).slot = 0x62 + g := congrArg Page.slot h
  have hle : (mPage k).slot ≤ 0x14 := by cases k <;> decide
  omega

/-- A digest tap leaves memory, and the module's registers. -/
theorem steady_addDigest {s : State} (h : Idle s) {q g acc : Nat} (hg : g < 2) (hacc : acc < 64) (v : Nat) :
    Steady s (s.addDigest q g acc v) ∧ (s.addDigest q g acc v).compute = s.compute := by
  have hreg {t : State} (o v : Nat) (ho : o < 4096) : Onward t (t.setNum (qPage .dg q g) o v) :=
    .setNum v (fun hk => page_reg_ne_of_page (mPage_slot_lt _) (show 0x62 + g < 4096 by omega) hk.off ho (dg_ne_mPage _ _ _))
  have hlo : Reg.DG_ACC_LO + 8 * acc < 4096 := by unfold Reg.DG_ACC_LO; omega
  have hhi : Reg.DG_ACC_HI + 8 * acc < 4096 := by unfold Reg.DG_ACC_HI; omega
  have hnote (t : State) (v : Nat) : Onward t (t.note (qPage .dg q g) (Reg.DG_ACC_LO + 8 * acc) v 0) :=
    .of_touches (K := fun _ => False) (touches_note ..) (fun _ h => h)
  have hstep (t : State) (ht : Onward s t) (hi : Idle t) (hm : t.mem = s.mem) (hc : t.compute = s.compute) (v x : Nat) :
      Steady s ((t.note (qPage .dg q g) (Reg.DG_ACC_LO + 8 * acc) x 0).setNum64 (qPage .dg q g) (Reg.DG_ACC_LO + 8 * acc)
        (Reg.DG_ACC_HI + 8 * acc) v) ∧ ((t.note (qPage .dg q g) (Reg.DG_ACC_LO + 8 * acc) x 0).setNum64 (qPage .dg q g)
        (Reg.DG_ACC_LO + 8 * acc) (Reg.DG_ACC_HI + 8 * acc) v).compute = s.compute := by
    refine ⟨⟨(ht.trans (hnote t x)).trans ((hreg _ _ hlo).trans (hreg _ _ hhi)), hi.of_same (by simp [State.note]) (by simp [State.note]), ?_⟩, ?_⟩
    · simpa [State.note] using hm
    · simpa [State.note] using hc
  unfold State.addDigest
  dsimp only
  split
  · exact hstep s (.refl s) h rfl rfl _ _
  · refine hstep _ ?_ ?_ ?_ ?_ _ _
    · exact .of_regs rfl rfl rfl
    · exact h.of_same rfl rfl
    · rfl
    · rfl

theorem steady_tap {s : State} (h : Idle s) (q : Nat) (d : Desc) (m : Moves) (i : Nat) (bs : List Byte) :
    Steady s (s.tap q d m i bs) ∧ (s.tap q d m i bs).compute = s.compute := by
  unfold State.tap
  split
  · exact steady_addDigest h (Nat.mod_lt _ (by decide)) (Nat.mod_lt _ (by decide)) _
  · exact ⟨.refl h, rfl⟩

/-- A streamer's write that waits for nothing stores its bytes. -/
theorem streamWrite_stored {a t : State} {q n seq lent y : Nat} {x : Queue} {bs : List Byte} (ht : Underway a q n x a.mem t) (hi : Idle t)
    (hpop : populated y bs.length = true) (hres : touchesReserved y bs.length = false) (hwaits : t.writeWaits y bs.length = false) :
    Underway a q n x (memPut a.mem y bs) (t.streamWrite q n seq lent y (bs.map (fun b => (b, false)))).1 ∧
    (t.streamWrite q n seq lent y (bs.map (fun b => (b, false)))).2 = 0 := by
  have hlen : (bs.map (fun b => (b, false))).length = bs.length := List.length_map ..
  obtain ⟨hwrites, hmem⟩ := Writes.memWrite hi (.refl hi) (some (q, n, seq)) hwaits
  rw [State.streamWrite, hlen, if_neg (by simp [hpop]), if_neg (by simp [hres])]
  refine ⟨⟨?_, ?_, ?_⟩, rfl⟩
  · exact (ht.bearings.trans (Onward.of_memory hwrites.only).bearings).trans (.of_regs rfl rfl)
  · have hc := congrArg (fun s : State => s.queue q n) hwrites.only.beyond
    exact Eq.trans hc ht.queue
  · exact hmem.trans (by rw [ht.mem])

/-! ## STREAMER_SEGMENT_COMPLETE (R115, R116, R136, R137) -/

theorem find?_and_of_find? {α : Type} {p r : α → Bool} {l : List α} {w : α} (h : l.find? p = some w) (hr : r w = true) :
    l.find? (fun v => p v && r v) = some w := by
  induction l with
  | nil => simp at h
  | cons z l ih =>
    cases hz : p z with
    | true =>
      obtain rfl : z = w := by simpa [List.find?_cons, hz] using h
      simp [hz, hr]
    | false =>
      rw [List.find?_cons, hz] at h
      simpa [List.find?_cons, hz] using ih h

theorem Underway.finishEntry {a t : State} {q n k z : Nat} {x : Queue} {m : List Host.Cell} {v : WinEntry} (h : Underway a q n x m t)
    (hv : x.window[k]? = some v) :
    Underway a q n { x with window := x.window.set k { v with status := .done, waitUntil := z } } m (t.finishEntry q n k z) := by
  unfold State.finishEntry
  rw [h.queue, hv]
  dsimp only
  unfold State.setEntry
  dsimp only
  rw [h.queue]
  exact h.setQueue _

section Complete
variable {a s : State} {t q e seq i k : Nat} {w : WinEntry} {site : Option (Nat × List (Byte × Bool))} {lost : Bool}
  (ha : s.advance t = a)
  (hk : (a.queue q (136 + e)).window.findIdx (fun v => v.status == .running && v.seq == seq) = k)
  (hw : (a.queue q (136 + e)).window[k]? = some w) (hopen : w.open_ = [i]) (herr : w.err = 0) (hcount : (a.moves w.desc).count ≤ w.next)
include ha hk hw hopen herr hcount

/-- A state in which the descriptor is done. -/
def Finished (a : State) (q e k : Nat) (w : WinEntry) (m : List Host.Cell) (u : State) : Prop :=
  (u.queue q (136 + e)).window[k]? = some { w with status := .done, open_ := [], waitUntil := w.startedAt + a.streamTime q w.desc } ∧ u.mem = m

omit ha in
theorem endSegment_finishes {u : State} {m : List Host.Cell} (hu : Underway a q (136 + e) (a.queue q (136 + e)) m u) :
    Finished a q e k w m (u.endSegment q e seq i 0) ∧ (u.endSegment q e seq i 0).fabric = u.fabric := by
  obtain ⟨t', ht', hsame, hend⟩ := endSegment_last hk hw hopen herr hcount hu 0
  obtain ⟨hlt, -⟩ := List.getElem?_eq_some_iff.1 hw
  have hget : ((a.queue q (136 + e)).window.set k (ended w 0))[k]? = some (ended w 0) := List.getElem?_set_self hlt
  have hfin := ht'.finishEntry (z := w.startedAt + a.streamTime q w.desc) hget
  have hended : ended w 0 = { w with open_ := [] } := by rw [ended, ← herr]
  rw [hend, if_neg (fun h => h rfl)]
  refine ⟨⟨?_, hfin.mem⟩, ?_⟩
  · rw [hfin.queue, hended]
    dsimp only
    rw [List.getElem?_set_self (by simpa using hlt)]
  · rw [← hsame.fabric]
    unfold State.finishEntry
    split <;> rfl

/-- The bytes of a segment whose ends are this module's are stored, and the descriptor is done. -/
theorem exec_segmentLocal {y : Nat} (hseg : a.segOf q (136 + e) seq i = none)
    (hy : a.resolve ((a.moves w.desc).ends w.desc i).2.1 = .here y) (hpop : populated y ((a.moves w.desc).ends w.desc i).2.2 = true)
    (hres : touchesReserved y ((a.moves w.desc).ends w.desc i).2.2 = false)
    (hwaits : a.writeWaits y ((a.moves w.desc).ends w.desc i).2.2 = false) (hclean : Clean a) {bs : List Byte}
    (hlen : bs.length = ((a.moves w.desc).ends w.desc i).2.2)
    (hbs : (dOp w.desc = 2 ∧ bs = List.replicate ((a.moves w.desc).ends w.desc i).2.2 0) ∨
      (dOp w.desc ≠ 2 ∧ db w.desc 0 7 = false ∧ ∃ x, a.resolve ((a.moves w.desc).ends w.desc i).1 = .here x ∧
        populated x ((a.moves w.desc).ends w.desc i).2.2 = true ∧ bs = memBytes a.mem x ((a.moves w.desc).ends w.desc i).2.2)) :
    ∃ u, execStreamerSegmentComplete t q e seq i site lost [] s = settled u ∧ Finished a q e k w (memPut a.mem y bs) u := by
  have hidle := idle_of_clean hclean
  obtain ⟨-, hfind⟩ := find?_of_findIdx hk hw
  have hfind' : (a.queue q (136 + e)).window.find? (fun v => v.status == .running && v.seq == seq && v.open_.contains i) = some w :=
    find?_and_of_find? hfind (by rw [hopen]; simp)
  unfold execStreamerSegmentComplete
  dsimp only
  rw [ha, upset_nil, hfind']
  dsimp only
  rw [hseg, hy]
  dsimp only
  -- what holds of the state in which the segment's bytes are written
  have hstore {u : State} (hu : Steady a u) (hq : u.queue q (136 + e) = a.queue q (136 + e)) (lent : Nat) :
      Finished a q e k w (memPut a.mem y bs) ((u.streamWrite q (136 + e) seq lent y (bs.map (fun b => (b, false)))).1.endSegment q e seq i
        (u.streamWrite q (136 + e) seq lent y (bs.map (fun b => (b, false)))).2) := by
    obtain ⟨hstored, hcode⟩ := streamWrite_stored (seq := seq) (lent := lent) (bs := bs) ⟨hu.on.bearings, hq, hu.mem⟩ hu.idle (by rw [hlen]; exact hpop)
      (by rw [hlen]; exact hres) (by rw [hlen, writeWaits_of_steady hu hidle]; exact hwaits)
    rw [hcode]
    exact (endSegment_finishes hk hw hopen herr hcount hstored).1
  obtain ⟨hop, rfl⟩ | ⟨hop, htap, x, hx, hpop', rfl⟩ := hbs
  · have hzeros : List.replicate ((a.moves w.desc).ends w.desc i).2.2 ((0 : Byte), false) =
        (List.replicate ((a.moves w.desc).ends w.desc i).2.2 (0 : Byte)).map (fun b => (b, false)) := by rw [List.map_replicate]
    obtain ⟨htapped, hcompute⟩ := steady_tap hidle q w.desc (a.moves w.desc) i
      ((List.replicate ((a.moves w.desc).ends w.desc i).2.2 ((0 : Byte), false)).map Prod.fst)
    have hq : (a.tap q w.desc (a.moves w.desc) i ((List.replicate ((a.moves w.desc).ends w.desc i).2.2 ((0 : Byte), false)).map
        Prod.fst)).queue q (136 + e) = a.queue q (136 + e) := by rw [State.queue, State.queue, hcompute]
    have hdone := hstore htapped hq 0
    rw [← hzeros] at hdone
    rw [if_pos hop]
    exact ⟨_, rfl, hdone⟩
  · have hread : a.readSource q e w.desc (a.moves w.desc) i x ((a.moves w.desc).ends w.desc i).2.2 =
        (a.noteReadBy (some (q, 0)) x ((a.moves w.desc).ends w.desc i).2.2,
          (memBytes a.mem x ((a.moves w.desc).ends w.desc i).2.2).map (fun b => (b, false))) := by
      unfold State.readSource State.tap
      dsimp only
      rw [hidle.readMarked, htap, if_neg Bool.false_ne_true]
      simp [State.raiseIf]
    rw [if_neg hop, hx]
    dsimp only
    rw [if_pos hpop', hread]
    have hq : (a.noteReadBy (some (q, 0)) x ((a.moves w.desc).ends w.desc i).2.2).queue q (136 + e) = a.queue q (136 + e) := by
      have hc := congrArg (fun s : State => s.queue q (136 + e)) ((OnlyMemory.refl a).noteReadBy (some (q, 0)) x
        ((a.moves w.desc).ends w.desc i).2.2).beyond
      exact hc
    exact ⟨_, rfl, hstore (.noteReadBy hidle ..) hq _⟩

omit herr hcount in
/-- The answer of a remote write ends its segment. -/
theorem exec_segmentAnswered {g : Seg} {c : Nat} (hseg : a.segOf q (136 + e) seq i = some g) (hkind : g.kind = .write)
    (hans : (if lost then some (0x21, []) else g.answered a.now) = some (c, [])) :
    execStreamerSegmentComplete t q e seq i site lost [] s = settled ((a.dropSeg g.id).endSegment q e seq i c) := by
  obtain ⟨-, hfind⟩ := find?_of_findIdx hk hw
  have hfind' : (a.queue q (136 + e)).window.find? (fun v => v.status == .running && v.seq == seq && v.open_.contains i) = some w :=
    find?_and_of_find? hfind (by rw [hopen]; simp)
  have hanswer : (if lost then some (0x21, []) else (g.answered a.now).orElse (fun _ => if g.chip = none then site else none)) =
      some (c, []) := by
    split
    · next h => rwa [if_pos h] at hans
    · next h =>
      rw [if_neg h] at hans
      rw [hans]
      rfl
  unfold execStreamerSegmentComplete
  dsimp only
  rw [ha, upset_nil, hfind']
  dsimp only
  rw [hseg]
  dsimp only
  rw [hanswer]
  dsimp only
  split
  · rfl
  · next hc =>
    obtain rfl : c = 0 := not_not.1 hc
    rw [hkind]

end Complete

theorem engineOf_st {e : Nat} (he : e < 16) : engineOf (136 + e) = some (.st, e) := by
  interval_cases e <;> rfl

theorem queuePage_st (s : State) (q : Nat) {e : Nat} (he : e < 16) : s.queuePage q (136 + e) = qPage .st q e := by
  rw [State.queuePage, engineOf_st he]

theorem num_pulses (s : State) (pu : List (Nat × Nat)) (p : Page) (off : Nat) : ({ s with pulses := pu } : State).num p off = s.num p off := rfl

/-- A streamer that fails at runtime halts its queue and shows the code and the TAG of its descriptor. -/
theorem failRuntime_spec {b : State} {q e seq code : Nat} {w : WinEntry} (he : e < 16)
    (hfind : (b.queue q (136 + e)).window.find? (fun v => v.status == .running && v.seq == seq) = some w)
    (hgo : ¬ (b.train.aborted = true ∧ b.stepState = 4)) (hcode : code < 2 ^ 16) :
    (b.failRuntime q (136 + e) seq code).mem = b.mem ∧ (b.failRuntime q (136 + e) seq code).fabric = b.fabric ∧
    ((b.failRuntime q (136 + e) seq code).queue q (136 + e)).halt = some .runtime ∧
    (b.failRuntime q (136 + e) seq code).num (qPage .st q e) Reg.ENG_ERR_INFO = code + 65536 * dTag w.desc := by
  have hslot : (qPage .st q e).slot < 4096 := show 0x70 + e < 4096 by omega
  have hevq : qPage .st q e ≠ mPage .evq := by
    intro h
    have hs : 0x70 + e = 0x10 := congrArg Page.slot h
    omega
  have htag : dTag w.desc < 2 ^ 16 := Nat.mod_lt _ (by decide)
  have hgo' : (b.train.aborted && b.stepState == 4) = false := by
    refine Bool.eq_false_iff.2 (fun h => hgo ?_)
    simpa using h
  have hkey : ¬ eventKey (qPage .st q e) ((qPage .st q e).reg Reg.ENG_ERR_INFO) := by
    unfold eventKey
    rintro (h | h | h | h | h | h)
    · exact page_reg_ne_of_off (by decide) h
    · exact page_reg_ne_of_off (by decide) h
    all_goals exact page_reg_ne_of_page hslot (mPage_slot_lt _) (by decide) (by decide) hevq h
  unfold State.failRuntime
  dsimp only
  rw [hfind]
  dsimp only
  rw [hgo', if_neg Bool.false_ne_true, queuePage_st b q he]
  generalize hx : ({ b.queue q (136 + e) with halt := some Halt.runtime, window := _ } : Queue) = x
  obtain ⟨pu, ⟨rs, cy, ev, hraise⟩, hreg⟩ := touches_raise ((b.setQueue q (136 + e) x).setNum (qPage .st q e) Reg.ENG_ERR_INFO (code + 65536 * dTag w.desc)) (qPage .st q e) 4
  refine ⟨?_, ?_, ?_, ?_⟩
  · rw [hraise]
    dsimp only
    rw [setNum_mem, setQueue_mem]
  · rw [hraise]
    dsimp only
    rw [setNum_fabric, setQueue_fabric]
  · rw [hraise, State.queue]
    dsimp only
    rw [setNum_compute, ← State.queue, queue_setQueue_same, ← hx]
  · rw [State.num, hreg _ _ hkey, ← State.num, num_pulses, num_setNum]
    exact Nat.mod_eq_of_lt (by omega)

/-! ## The commands (R110, R115, R136, R137) -/

section Start
variable {a : State} {q e i : Nat} {w : WinEntry} (he : e < 16) (hstart : a.startable q (136 + e) = some (i, w)) (hlen : 0 < dw w.desc 6)
  (hnext : w.next = 0) (hopen : w.open_ = []) (herr : w.err = 0) (hops : a.opsOf q (136 + e) + (a.moves w.desc).count ≤ 4)
  (hothers : ∀ v ∈ (a.queue q (136 + e)).window, v.status = .running → v.seq ≠ w.seq) (hlocal : Local a w.desc)
include he hstart hlen hnext hopen herr hops hothers hlocal

theorem runStream_spec : (a.runStream q e (dOp w.desc)).queue q (136 + e) =
      { a.queue q (136 + e) with window := (a.queue q (136 + e)).window.set i (issued a q w (a.moves w.desc).count), segWait := false } ∧
    (a.runStream q e (dOp w.desc)).mem = a.mem := by
  have hissued := runStream_local he (startable_eq hstart).2 hopen herr hothers hstart hnext hlen hlocal hops
  refine ⟨?_, hissued.mem⟩
  rw [hissued.queue, issuedQueue, if_neg (count_pos hlen).ne']

end Start

/-- What a finished segment's bytes leave, mends apart. -/
theorem stored_spec {a b u : State} {q e k y n : Nat} {w : WinEntry} {bs : List Byte} (hlen : bs.length = n)
    (hb : Finished a q e k w (memPut a.mem y bs) b) (hu : Mended b u) :
    memBytes u.mem y n = bs ∧ (∀ z, Apart z 1 y n → memGet u.mem z = memGet a.mem z) ∧
    (u.queue q (136 + e)).window[k]? = some { w with status := .done, open_ := [], waitUntil := w.startedAt + a.streamTime q w.desc } := by
  obtain ⟨hwindow, hmem⟩ := hb
  subst hlen
  refine ⟨?_, fun z hz => ?_, ?_⟩
  · rw [hu.mem, hmem, memBytes_memPut]
  · rw [hu.mem, hmem]
    exact memGet_put_other _ _ _ _ (by omega)
  · rw [hu.queue]
    exact hwindow

/-- What the answer of a remote write leaves, mends apart: the segment is gone, and the descriptor is done or has failed. -/
theorem answered_spec {a u : State} {q e seq i k c : Nat} {w : WinEntry} {g : Seg} (he : e < 16)
    (hk : (a.queue q (136 + e)).window.findIdx (fun v => v.status == .running && v.seq == seq) = k)
    (hw : (a.queue q (136 + e)).window[k]? = some w) (hopen : w.open_ = [i]) (herr : w.err = 0) (hcount : (a.moves w.desc).count ≤ w.next)
    (hgo : ¬ (a.train.aborted = true ∧ a.stepState = 4)) (hcode : c < 2 ^ 16)
    (hu : Mended ((a.dropSeg g.id).endSegment q e seq i c) u) :
    u.mem = a.mem ∧ (∀ g' ∈ u.fabric.segs, g'.id ≠ g.id) ∧
    if c = 0 then
      (u.queue q (136 + e)).window[k]? = some { w with status := .done, open_ := [], waitUntil := w.startedAt + a.streamTime q w.desc }
    else (u.queue q (136 + e)).halt = some .runtime ∧ u.num (qPage .st q e) Reg.ENG_ERR_INFO = c + 65536 * dTag w.desc := by
  have hdrop : Underway a q (136 + e) (a.queue q (136 + e)) a.mem (a.dropSeg g.id) := ⟨.of_regs rfl rfl, rfl, rfl⟩
  have hgone : ∀ g' ∈ (a.dropSeg g.id).fabric.segs, g'.id ≠ g.id := by
    intro g' hg'
    have h := (List.mem_filter.1 hg').2
    simpa using h
  by_cases hc : c = 0
  · subst hc
    obtain ⟨⟨hwindow, hmem⟩, hfabric⟩ := endSegment_finishes hk hw hopen herr hcount hdrop
    rw [if_pos rfl, hu.mem, hu.segs, hfabric, hu.queue]
    exact ⟨hmem, hgone, hwindow⟩
  · obtain ⟨t', ht', hsame, hend⟩ := endSegment_last hk hw hopen herr hcount hdrop c
    obtain ⟨hlt, -⟩ := List.getElem?_eq_some_iff.1 hw
    obtain ⟨hmine, -⟩ := find?_of_findIdx hk hw
    have hfind : (t'.queue q (136 + e)).window.find? (fun v => v.status == .running && v.seq == seq) = some (ended w c) := by
      rw [ht'.queue]
      exact (find?_of_findIdx (findIdx_set_self hk hlt (v := ended w c) hmine) (List.getElem?_set_self hlt)).2
    have hgo' : ¬ (t'.train.aborted = true ∧ t'.stepState = 4) := by
      have hstep : t'.stepState = a.stepState := by
        rw [State.stepState, State.stepState, State.field, State.field, State.num, State.num, State.reg, hsame.regs]
        rfl
      rw [hstep, hsame.train]
      exact hgo
    obtain ⟨hmem, hfabric, hhalt, hinfo⟩ := failRuntime_spec he hfind hgo' hcode
    rw [hend, if_pos hc] at hu
    have hslot : (qPage .st q e).slot < 4096 := show 0x70 + e < 4096 by omega
    have hne : ∀ k, qPage .st q e ≠ mPage k := by
      intro k h
      have hs : 0x70 + e = (mPage k).slot := congrArg Page.slot h
      have hle : (mPage k).slot ≤ 0x14 := by cases k <;> decide
      omega
    rw [if_neg hc, hu.mem, hu.segs, hfabric, hsame.fabric, hu.queue, State.num, hu.reg hslot (by decide) (hne _) (hne _), ← State.num]
    exact ⟨hmem.trans ht'.mem, hgone, hhalt, hinfo⟩

/-- Settles O29: a local descriptor's segments are issued one by one while tracker entries are free; a segment's bytes are stored by
one write, and its end is the descriptor's. -/
theorem streamersMoveRowsInSegments : Obligations.StreamersMoveRowsInSegments := by
  unfold Obligations.StreamersMoveRowsInSegments
  refine ⟨?_, ?_⟩
  · intro t q e i w s
    dsimp only
    intro he hstart hlen hnext hopen herr hops hothers hdst
    refine ⟨fun hop hsrc => ?_, fun hop => ?_⟩
    · obtain ⟨hqueue, hmem⟩ := runStream_spec he hstart hlen hnext hopen herr hops hothers (fun j hj => ⟨hdst j hj, fun _ => hsrc j hj⟩)
      obtain ⟨u, hu, hmended⟩ := settled_mended ((s.advance t).runStream q e (dOp w.desc))
      rw [hop] at hu
      exact ⟨u, hu, (hmended.queue ..).trans hqueue, hmended.mem.trans hmem⟩
    · obtain ⟨hqueue, hmem⟩ := runStream_spec he hstart hlen hnext hopen herr hops hothers (fun j hj => ⟨hdst j hj, fun h => absurd hop h⟩)
      exact ⟨_, congrArg (fun n => done ((s.advance t).runStream q e n)) hop.symm, hqueue, hmem⟩
  · intro t q e seq i k site lost w s
    dsimp only
    intro he hk hw hopen herr hcount
    refine ⟨?_, ?_⟩
    · intro y hseg hy hpop hres hwaits hclean hkind
      obtain hfill | ⟨hcopy, htap, x, hx, hpopx⟩ := hkind
      · have hlen := List.length_replicate (n := (((s.advance t).moves w.desc).ends w.desc i).2.2) (a := (0 : Byte))
        obtain ⟨b, hb, hfin⟩ := exec_segmentLocal (t := t) (s := s) (site := site) (lost := lost) rfl hk hw hopen herr hcount hseg hy hpop hres
          hwaits hclean hlen (.inl ⟨hfill, rfl⟩)
        obtain ⟨u, hu, hmended⟩ := settled_mended b
        obtain ⟨hstored, hother, hdone⟩ := stored_spec hlen hfin hmended
        refine ⟨u, hb.trans hu, fun _ => hstored, fun x h => ?_, hother, hdone⟩
        rw [hfill] at h
        exact absurd h (by decide)
      · have hne : dOp w.desc ≠ 2 := by rw [hcopy]; decide
        have hlen := length_memBytes (s.advance t).mem x (((s.advance t).moves w.desc).ends w.desc i).2.2
        obtain ⟨b, hb, hfin⟩ := exec_segmentLocal (t := t) (s := s) (site := site) (lost := lost) rfl hk hw hopen herr hcount hseg hy hpop hres
          hwaits hclean hlen (.inr ⟨hne, htap, x, hx, hpopx, rfl⟩)
        obtain ⟨u, hu, hmended⟩ := settled_mended b
        obtain ⟨hstored, hother, hdone⟩ := stored_spec hlen hfin hmended
        refine ⟨u, hb.trans hu, fun h => absurd h hne, fun x' _ hx' => ?_, hother, hdone⟩
        rw [hx] at hx'
        rw [hstored, Target.here.inj hx']
    · intro g c hseg hkind hans hgo hcode
      have hexec := exec_segmentAnswered (t := t) (s := s) (site := site) (lost := lost) rfl hk hw hopen hseg hkind hans
      obtain ⟨u, hu, hmended⟩ := settled_mended (((s.advance t).dropSeg g.id).endSegment q e seq i c)
      exact ⟨u, hexec.trans hu, answered_spec he hk hw hopen herr hcount hgo hcode hmended⟩

end Sys2Proof.Proofs
end

section
/-! PROOFS. The exporter: reading the ring's counters, sending records and PROD, and the end of its descriptors. -/

namespace Sys2Proof.Proofs
open Sys2Proof Sys2Proof.Machine Sys2Proof.Laws

/-! ## Ranges of populated memory (R99, R208, R249) -/

/-- Where a range of memory may lie: in the F tier, in the D tier, or in the Fold of a quarter. -/
inductive Within (a b : Nat) : Prop
  | fTier (h : b < 4 * fSize)
  | dTier (ha : 0x10000000000 ≤ a) (hb : b < 0x20000000000)
  | fold (q : Nat) (hq : q < 4) (ha : foldBase q ≤ a) (hb : b < foldBase q + foldSize)

theorem regionOf_fold_iff {a q : Nat} : (∃ o, regionOf a = .fold q o) ↔ q < 4 ∧ foldBase q ≤ a ∧ a < foldBase q + foldSize := by
  unfold regionOf foldBase foldSize fSize
  constructor
  · rintro ⟨o, h⟩
    (repeat' split at h) <;> simp at h
    omega
  · rintro ⟨hq, ha, hb⟩
    refine ⟨a - (0x20000000000 + 0x10000000 * q), ?_⟩
    have hoff : (a - 0x20000000000) / 0x10000000 = q ∧ (a - 0x20000000000) % 0x10000000 = a - (0x20000000000 + 0x10000000 * q) := by omega
    rw [if_neg (by omega), if_neg (by omega), if_neg (by omega), if_pos (by omega), if_pos (by omega), hoff.1, hoff.2]

theorem regionOf_fTier_iff {a : Nat} : (∃ q o, regionOf a = .fTier q o) ↔ a < 4 * fSize := by
  unfold regionOf
  constructor
  · rintro ⟨q, o, h⟩
    (repeat' split at h) <;> simp at h
    assumption
  · intro h
    rw [if_pos h]
    exact ⟨_, _, rfl⟩

theorem regionOf_dTier_iff {a : Nat} : (∃ q o, regionOf a = .dTier q o) ↔ 0x10000000000 ≤ a ∧ a < 0x20000000000 := by
  unfold regionOf fSize
  constructor
  · rintro ⟨q, o, h⟩
    (repeat' split at h) <;> simp at h
    omega
  · rintro ⟨h0, h1⟩
    rw [if_neg (by omega), if_neg (by omega), if_pos h1]
    exact ⟨_, _, rfl⟩

/-- A range is populated where it is empty or lies in one region. -/
theorem populated_iff {a n : Nat} : populated a n = true ↔ n = 0 ∨ Within a (a + n - 1) := by
  obtain rfl | hn := Nat.eq_zero_or_pos n
  · exact iff_of_true rfl (.inl rfl)
  · have hn' : (n == 0) = false := beq_false_of_ne (by omega)
    unfold populated
    rw [hn', Bool.false_or]
    constructor
    · intro h
      refine .inr ?_
      split at h
      · next q o q' o' ha hb => exact .fTier (regionOf_fTier_iff.1 ⟨_, _, hb⟩)
      · next q o q' o' ha hb => exact .dTier (regionOf_dTier_iff.1 ⟨_, _, ha⟩).1 (regionOf_dTier_iff.1 ⟨_, _, hb⟩).2
      · next q o q' o' ha hb =>
        obtain rfl : q = q' := by simpa using h
        obtain ⟨hq, hlo, -⟩ := regionOf_fold_iff.1 ⟨_, ha⟩
        exact .fold q hq hlo (regionOf_fold_iff.1 ⟨_, hb⟩).2.2
      · simp at h
    · rintro (h | h)
      · omega
      · cases h with
        | fTier hb =>
          obtain ⟨q, o, ha⟩ := regionOf_fTier_iff.2 (show a < 4 * fSize by omega)
          obtain ⟨q', o', hb⟩ := regionOf_fTier_iff.2 hb
          rw [ha, hb]
        | dTier ha hb =>
          obtain ⟨q, o, ha'⟩ := regionOf_dTier_iff.2 ⟨ha, show a < 0x20000000000 by omega⟩
          obtain ⟨q', o', hb'⟩ := regionOf_dTier_iff.2 ⟨show 0x10000000000 ≤ a + n - 1 by omega, hb⟩
          rw [ha', hb']
        | fold q hq ha hb =>
          obtain ⟨o, ha'⟩ := regionOf_fold_iff.2 ⟨hq, ha, show a < foldBase q + foldSize by omega⟩
          obtain ⟨o', hb'⟩ := regionOf_fold_iff.2 ⟨hq, show foldBase q ≤ a + n - 1 by omega, hb⟩
          rw [ha', hb']
          simp

theorem Within.sub {a b c d : Nat} (h : Within a b) (hac : a ≤ c) (hdb : d ≤ b) : Within c d := by
  cases h with
  | fTier hb => exact .fTier (by omega)
  | dTier ha hb => exact .dTier (by omega) (by omega)
  | fold q hq ha hb => exact .fold q hq (by omega) (by omega)

theorem Within.lt {a b : Nat} (h : Within a b) : b < 0x20040000000 := by
  cases h with
  | fTier hb => unfold fSize at hb; omega
  | dTier ha hb => omega
  | fold q hq ha hb => unfold foldBase foldSize at hb; omega

/-- A part of a populated range is populated. -/
theorem populated_sub {l n z k : Nat} (h : populated l n = true) (hl : l ≤ z) (hz : z + k ≤ l + n) : populated z k = true := by
  obtain rfl | hk := Nat.eq_zero_or_pos k
  · rfl
  · obtain rfl | h := populated_iff.1 h
    · omega
    · exact populated_iff.2 (.inr (h.sub hl (by omega)))

theorem touchesReserved_sub {l n z k : Nat} (h : touchesReserved l n = false) (hl : l ≤ z) (hz : z + k ≤ l + n) :
    touchesReserved z k = false := by
  simp only [touchesReserved, decide_eq_false_iff_not] at h ⊢
  omega

theorem populated_lt {l n : Nat} (h : populated l n = true) (hn : 0 < n) : l + n ≤ 2 ^ 45 := by
  obtain rfl | h := populated_iff.1 h
  · omega
  · have := h.lt
    omega

/-- Beside an address of this module, in its range, lie the next addresses. -/
theorem resolve_add {a : State} {x l k : Nat} (h : a.resolve x = .here l) (hk : l + k < 2 ^ 45) : a.resolve (x + k) = .here (l + k) := by
  have hl : l = x % 2 ^ 45 := by
    unfold State.resolve at h
    dsimp only at h
    (repeat' split at h) <;> simp at h
    exact h.symm
  have hdiv : (x + k) / 2 ^ 45 = x / 2 ^ 45 := by omega
  have hmod : (x + k) % 2 ^ 45 = l + k := by omega
  have hbig : 2 ^ 63 ≤ x + k ↔ 2 ^ 63 ≤ x := by omega
  unfold State.resolve at h ⊢
  dsimp only at h ⊢
  rw [hdiv, hmod]
  simp only [hbig]
  (repeat' split at h) <;> simp_all

/-! ## An exporter at work (R138, R184) -/

/-- A state that has gone on with idle memory, in which EX0 of quarter q has a window and is sending what is given, and memory holds
what is given. -/
structure Ships (a : State) (q : Nat) (win : List WinEntry) (x : Option Shipping) (m : List Host.Cell) (u : State) : Prop where
  on : Onward a u
  idle : Idle u
  window : (u.queue q 152).window = win
  shipping : u.shipping q = x
  mem : u.mem = m

theorem shipping_setShipping (s : State) (q : Nat) (x : Option Shipping) : (s.setShipping q x).shipping q = x := by
  have hnone : (s.coll.ships.filter (fun e => e.1 != q)).find? (fun e => e.1 == q) = none := by
    rw [List.find?_eq_none]
    intro e he
    have hne := (List.mem_filter.1 he).2
    simpa using hne
  cases x with
  | none =>
    show ((s.coll.ships.filter (fun e => e.1 != q)).find? (fun e => e.1 == q)).map Prod.snd = none
    rw [hnone]
    rfl
  | some y =>
    show ((s.coll.ships.filter (fun e => e.1 != q) ++ [(q, y)]).find? (fun e => e.1 == q)).map Prod.snd = some y
    rw [List.find?_append, hnone]
    simp

theorem onward_setShipping (s : State) (q : Nat) (x : Option Shipping) : Onward s (s.setShipping q x) := .of_regs rfl rfl rfl

namespace Ships
variable {a u v : State} {q : Nat} {win : List WinEntry} {x : Option Shipping} {m : List Host.Cell}

theorem setShipping (h : Ships a q win x m u) (y : Option Shipping) : Ships a q win y m (u.setShipping q y) :=
  ⟨h.on.trans (onward_setShipping ..), h.idle.of_same rfl rfl, h.window, shipping_setShipping .., h.mem⟩

theorem setSegWait (h : Ships a q win x m u) (b : Bool) : Ships a q win x m (u.setSegWait q b) := by
  refine ⟨h.on.trans (.setQueue ..), h.idle.of_same rfl rfl, ?_, h.shipping, h.mem⟩
  unfold State.setSegWait
  rw [queue_setQueue_same]
  exact h.window

theorem of_memory (h : Ships a q win x m u) (hv : Writes u v) {m' : List Host.Cell} (hm : v.mem = m') : Ships a q win x m' v := by
  have hqueue : v.queue q 152 = u.queue q 152 := by
    have hc := congrArg (fun s : State => s.queue q 152) hv.only.beyond
    exact hc
  have hship : v.shipping q = u.shipping q := by
    have hc := congrArg (fun s : State => s.shipping q) hv.only.beyond
    exact hc
  exact ⟨h.on.trans (.of_memory hv.only), hv.idle, by rw [hqueue, h.window], by rw [hship, h.shipping], hm⟩

theorem noteReadBy (h : Ships a q win x m u) (via : Option (Nat × Nat)) (z n : Nat) : Ships a q win x m (u.noteReadBy via z n) :=
  h.of_memory ((Writes.refl h.idle).noteReadBy ..) ((h.idle.mem_noteReadBy ..).trans h.mem)

theorem resolve (h : Ships a q win x m u) (z : Nat) : u.resolve z = a.resolve z := h.on.bearings.resolve z

theorem now (h : Ships a q win x m u) : u.now = a.now := by
  have hn := congrArg State.now h.on.afar
  exact hn

theorem writeWaits (h : Ships a q win x m u) (ha : Idle a) (z n : Nat) : u.writeWaits z n = a.writeWaits z n := by
  refine writeWaits_of_leases ?_ (fun off hoff => h.on.reg ⟨by decide, by decide, by decide, fun h => by simp at h, fun h => by simp at h, hoff⟩)
    ha h.idle z n
  have hl := congrArg State.leases h.on.afar
  exact hl

end Ships

/-! ## Bytes written to the ring (R157, R184) -/

theorem readUnder_of_length {s : State} {k : Nat} (h : s.leases.writes.length ≤ k) (n : Nat) : s.readUnder k n = s := by
  unfold State.readUnder
  dsimp only
  rw [List.drop_eq_nil_of_le h, List.take_of_length_le h, List.map_nil, List.append_nil]

/-- The ring of an exporter in this module's memory, into which its writes need not wait. -/
structure OwnRing (a : State) (w : WinEntry) (l : Nat) : Prop where
  resolve : a.resolve (dq w.desc 4) = .here l
  populated : populated l (dw w.desc 6) = true
  free : touchesReserved l (dw w.desc 6) = false
  open_ : ∀ y n, l ≤ y → y + n ≤ l + dw w.desc 6 → a.writeWaits y n = false
  area : 64 < dw w.desc 6

section Ring
variable {a u : State} {q l : Nat} {w : WinEntry} {win : List WinEntry} {x : Option Shipping} {m : List Host.Cell}
  (ha : Idle a) (hring : OwnRing a w l) (hu : Ships a q win x m u)
include ha hring hu

theorem shipWrite_stored (leased : Bool) {o : Nat} {bs : List Byte} (ho : o + bs.length ≤ dw w.desc 6) :
    Ships a q win x (memPut m (l + o) bs) (u.shipWrite q w leased (dq w.desc 4 + o) (bs.map (fun b => (b, false)))).1 ∧
    (u.shipWrite q w leased (dq w.desc 4 + o) (bs.map (fun b => (b, false)))).2 = 0 := by
  have hlen : (bs.map (fun b => (b, false))).length = bs.length := List.length_map ..
  obtain rfl | hne := eq_or_ne bs []
  · exact ⟨hu, rfl⟩
  · have hempty : (bs.map (fun b => (b, false))).isEmpty = false := by simpa using hne
    have hlt := populated_lt hring.populated (Nat.lt_of_lt_of_le (by decide) (Nat.le_of_lt hring.area))
    have hpos : 0 < bs.length := List.length_pos_iff.2 hne
    have hwaits : u.writeWaits (l + o) bs.length = false := by
      rw [hu.writeWaits ha]
      exact hring.open_ _ _ (by omega) (by omega)
    obtain ⟨hwrites, hmem⟩ := Writes.memWrite hu.idle (.refl hu.idle) (some (q, 152, w.seq)) hwaits
    have hleases : (u.memWrite (some (q, 152, w.seq)) (l + o) (bs.map (fun b => (b, false)))).leases = u.leases := by
      have hl := congrArg State.leases hwrites.only.beyond
      exact hl
    unfold State.shipWrite
    dsimp only
    rw [hempty, if_neg Bool.false_ne_true, hu.resolve, resolve_add hring.resolve (by omega)]
    dsimp only
    unfold State.streamWrite
    rw [hlen, if_neg (by rw [populated_sub hring.populated (by omega) (by omega)]; decide),
      if_neg (by rw [touchesReserved_sub hring.free (by omega) (by omega)]; decide),
      readUnder_of_length (by rw [hleases])]
    exact ⟨hu.of_memory hwrites (hmem.trans (by rw [hu.mem])), rfl⟩

/-- A record that fits in the ring without a wrap is stored behind PROD. -/
theorem placeRecord_stored (leased : Bool) {prod : Nat} {bs : List Byte} (hfit : prod % (dw w.desc 6 - 64) + bs.length ≤ dw w.desc 6 - 64) :
    Ships a q win x (memPut m (l + 64 + prod % (dw w.desc 6 - 64)) bs)
      (u.placeRecord q w leased prod (bs.map (fun b => (b, false)))).1 ∧
    (u.placeRecord q w leased prod (bs.map (fun b => (b, false)))).2 = 0 := by
  have harea := hring.area
  obtain ⟨hstored, hcode⟩ := shipWrite_stored ha hring hu leased (o := 64 + prod % (dw w.desc 6 - 64)) (bs := bs) (by omega)
  have htake : (bs.map (fun b => (b, false))).take (dw w.desc 6 - 64 - prod % (dw w.desc 6 - 64)) = bs.map (fun b => (b, false)) :=
    List.take_of_length_le (by rw [List.length_map]; omega)
  have hdrop : (bs.map (fun b => (b, false))).drop (dw w.desc 6 - 64 - prod % (dw w.desc 6 - 64)) = [] :=
    List.drop_eq_nil_of_le (by rw [List.length_map]; omega)
  rw [← Nat.add_assoc, ← Nat.add_assoc] at hstored
  rw [← Nat.add_assoc] at hcode
  unfold State.placeRecord
  dsimp only
  rw [htake, hdrop, hcode, if_neg (fun h => h rfl)]
  exact ⟨hstored, rfl⟩

omit ha in
theorem segRoom_here (k : Nat) : u.segRoom q k (dq w.desc 4) = true := by
  unfold State.segRoom
  rw [hu.resolve, hring.resolve]

/-- When no record is left, PROD is written if a record was sent. -/
theorem sendRecords_end {y : Shipping} (hx : x = some y) (hnone : u.nextRecord w y = none) (k : Nat) (sent : Bool) :
    Ships a q win x (if sent then memPut m l (leBytes 8 y.prod) else m) (State.sendRecords (k + 1) q w sent u) := by
  subst hx
  have harea := hring.area
  obtain ⟨hstored, hcode⟩ := shipWrite_stored ha hring hu false (o := 0) (bs := leBytes 8 y.prod) (by rw [leBytes_length]; omega)
  rw [Nat.add_zero, Nat.add_zero] at hstored
  rw [Nat.add_zero] at hcode
  rw [State.sendRecords]
  dsimp only
  rw [hu.shipping]
  dsimp only
  rw [hnone]
  dsimp only
  cases sent with
  | false => exact hu
  | true =>
    rw [if_pos rfl, if_pos hcode]
    exact hstored

/-- A record that fits is stored behind PROD, and the next one may follow. -/
theorem sendRecords_next {y z : Shipping} {bs : List Byte} (hx : x = some y)
    (hnext : u.nextRecord w y = some (bs.map (fun b => (b, false)), z)) (hroom : ringUsed y + bs.length ≤ dw w.desc 6 - 64)
    (hfit : y.prod % (dw w.desc 6 - 64) + bs.length ≤ dw w.desc 6 - 64) (k : Nat) (sent : Bool) :
    ∃ u', State.sendRecords (k + 1) q w sent u = State.sendRecords k q w true u' ∧
      Ships a q win (some { z with prod := (y.prod + bs.length) % 2 ^ 64, again := false })
        (memPut m (l + 64 + y.prod % (dw w.desc 6 - 64)) bs) u' := by
  subst hx
  have hlen : (bs.map (fun b => (b, false))).length = bs.length := List.length_map ..
  have hclean : (dOp w.desc == 2 && (bs.map (fun b => (b, false))).any Prod.snd) = false := by simp
  have hread : Ships a q win (some y) m (if dOp w.desc = 2 then (u.setSegWait q false).noteFull q w y.next else u.setSegWait q false) := by
    split
    · exact (hu.setSegWait false).noteReadBy ..
    · exact hu.setSegWait false
  obtain ⟨hstored, hcode⟩ := placeRecord_stored ha hring hread (dOp w.desc == 2) hfit
  refine ⟨_, ?_, hstored.setShipping _⟩
  conv_lhs => rw [State.sendRecords]
  dsimp only
  rw [hu.shipping]
  dsimp only
  rw [hnext]
  dsimp only
  rw [hlen, if_neg (by omega), segRoom_here hring hu, if_neg (by decide), hclean, State.raiseIf, if_neg Bool.false_ne_true,
    if_neg (fun h => h hcode)]

end Ring

/-! ## The records of a step (R183, R184) -/

/-- Bytes none of which is poisoned. -/
def unmarked (bs : List Byte) : List (Byte × Bool) := bs.map (fun b => (b, false))

theorem ringUsed_add (y z : Shipping) (n : Nat) (hc : z.cons = y.cons) (hp : z.prod = (y.prod + n) % 2 ^ 64) (hlt : y.prod + n < 2 ^ 64) :
    ringUsed z ≤ ringUsed y + n := by
  rw [ringUsed, ringUsed, hc, hp, Nat.mod_eq_of_lt hlt]
  omega

theorem ring_offset {area prod r n : Nat} (harea : 0 < area) (hfit : prod % area + (r + n) ≤ area) : (prod + r) % area + n ≤ area := by
  obtain rfl | hn := Nat.eq_zero_or_pos n
  · exact Nat.le_of_lt (Nat.mod_lt _ harea)
  · rw [← Nat.mod_add_mod, Nat.mod_eq_of_lt (by omega)]
    omega

/-- Bytes that follow others in the ring follow them in memory, or there are none. -/
theorem memPut_ring (m : List Host.Cell) {area b prod : Nat} {r rest : List Byte} (hfit : prod % area + (r.length + rest.length) ≤ area) :
    memPut (memPut m (b + prod % area) r) (b + (prod + r.length) % area) rest = memPut m (b + prod % area) (r ++ rest) := by
  rw [memPut_append]
  obtain rfl | hne := eq_or_ne rest []
  · rfl
  · have hpos : 0 < rest.length := List.length_pos_iff.2 hne
    have hmod : (prod + r.length) % area = prod % area + r.length := by
      rw [← Nat.mod_add_mod, Nat.mod_eq_of_lt (by omega)]
    rw [hmod, Nat.add_assoc]

theorem nextRecord_step {s : State} {w : WinEntry} {y : Shipping} {r : List Byte} {rs : List (List Byte)} (hop : dOp w.desc = 1)
    (hy : y.records = (r :: rs).map unmarked) :
    s.nextRecord w y = some (r.map (fun b => (b, false)), { y with records := rs.map unmarked }) := by
  rw [State.nextRecord, if_pos hop, hy]
  rfl

theorem nextRecord_step_none {s : State} {w : WinEntry} {y : Shipping} (hop : dOp w.desc = 1) (hy : y.records = []) :
    s.nextRecord w y = none := by
  rw [State.nextRecord, if_pos hop, hy]

section Step
variable {a : State} {q l : Nat} {w : WinEntry} {win : List WinEntry} (ha : Idle a) (hring : OwnRing a w l) (hop : dOp w.desc = 1)
include ha hring hop

/-- The records after the first: they and PROD are written one after another. -/
theorem sendRecords_rest (rs : List (List Byte)) : ∀ {k : Nat} {y : Shipping} {m : List Host.Cell} {u : State}, rs.length < k →
    Ships a q win (some y) m u → y.records = rs.map unmarked → y.again = false →
    ringUsed y + rs.flatten.length ≤ dw w.desc 6 - 64 → y.prod % (dw w.desc 6 - 64) + rs.flatten.length ≤ dw w.desc 6 - 64 →
    y.prod + rs.flatten.length < 2 ^ 64 →
    Ships a q win (some { y with records := [], prod := y.prod + rs.flatten.length })
      (memPut (memPut m (l + 64 + y.prod % (dw w.desc 6 - 64)) rs.flatten) l (leBytes 8 (y.prod + rs.flatten.length)))
      (State.sendRecords k q w true u) := by
  induction rs with
  | nil =>
    intro k y m u hk hu hy hagain _ _ _
    obtain ⟨k, rfl⟩ : ∃ n, k = n + 1 := ⟨k - 1, by simp at hk; omega⟩
    have hend := sendRecords_end ha hring hu rfl (nextRecord_step_none hop hy) k true
    have hself : ({ y with records := [], prod := y.prod + ([] : List (List Byte)).flatten.length } : Shipping) = y := by
      cases y
      simpa using hy.symm
    rw [hself]
    exact hend
  | cons r rs ih =>
    intro k y m u hk hu hy hagain hroom hfit hprod
    obtain ⟨k, rfl⟩ : ∃ n, k = n + 1 := ⟨k - 1, by simp at hk; omega⟩
    have hlen : (r :: rs).flatten.length = r.length + rs.flatten.length := by rw [List.flatten_cons, List.length_append]
    rw [hlen] at hroom hfit hprod ⊢
    have hmod : (y.prod + r.length) % 2 ^ 64 = y.prod + r.length := Nat.mod_eq_of_lt (by omega)
    obtain ⟨u', hsend, hu'⟩ := sendRecords_next ha hring hu rfl (nextRecord_step hop hy) (by omega) (by omega) k true
    rw [hmod] at hu'
    obtain ⟨z, hz⟩ : ∃ z : Shipping, z = { y with records := rs.map unmarked, prod := y.prod + r.length, again := false } := ⟨_, rfl⟩
    have hzrec : z.records = rs.map unmarked := by rw [hz]
    have hzagain : z.again = false := by rw [hz]
    have hzprod : z.prod = y.prod + r.length := by rw [hz]
    have hused : ringUsed z ≤ ringUsed y + r.length := ringUsed_add y z r.length (by rw [hz]) (by rw [hzprod, hmod]) (by omega)
    have hoffset := ring_offset (prod := y.prod) (r := r.length) (n := rs.flatten.length) (area := dw w.desc 6 - 64)
      (by have := hring.area; omega) (by omega)
    rw [← hz] at hu'
    have hrest := ih (k := k) (by simp at hk; omega) hu' hzrec hzagain (by omega) (by rw [hzprod]; exact hoffset) (by omega)
    have hself : ({ z with records := [], prod := z.prod + rs.flatten.length } : Shipping) =
        { y with records := [], prod := y.prod + (r.length + rs.flatten.length) } := by
      rw [hz, Nat.add_assoc, ← hagain]
    rw [hself, hzprod, memPut_ring _ (by omega), Nat.add_assoc y.prod] at hrest
    rw [hsend, List.flatten_cons]
    exact hrest

/-- All records of a step: they and PROD are written one after another. -/
theorem sendRecords_all {r : List Byte} {rs : List (List Byte)} {k : Nat} {y : Shipping} {m : List Host.Cell} {u : State} (hk : rs.length < k)
    (hu : Ships a q win (some y) m u) (hy : y.records = (r :: rs).map unmarked)
    (hroom : ringUsed y + (r :: rs).flatten.length ≤ dw w.desc 6 - 64)
    (hfit : y.prod % (dw w.desc 6 - 64) + (r :: rs).flatten.length ≤ dw w.desc 6 - 64) (hprod : y.prod + (r :: rs).flatten.length < 2 ^ 64) :
    Ships a q win (some { y with records := [], prod := y.prod + (r :: rs).flatten.length, again := false })
      (memPut (memPut m (l + 64 + y.prod % (dw w.desc 6 - 64)) (r :: rs).flatten) l (leBytes 8 (y.prod + (r :: rs).flatten.length)))
      (State.sendRecords (k + 1) q w false u) := by
  have hlen : (r :: rs).flatten.length = r.length + rs.flatten.length := by rw [List.flatten_cons, List.length_append]
  rw [hlen] at hroom hfit hprod ⊢
  have hmod : (y.prod + r.length) % 2 ^ 64 = y.prod + r.length := Nat.mod_eq_of_lt (by omega)
  obtain ⟨u', hsend, hu'⟩ := sendRecords_next ha hring hu rfl (nextRecord_step hop hy) (by omega) (by omega) k false
  rw [hmod] at hu'
  obtain ⟨z, hz⟩ : ∃ z : Shipping, z = { y with records := rs.map unmarked, prod := y.prod + r.length, again := false } := ⟨_, rfl⟩
  have hzprod : z.prod = y.prod + r.length := by rw [hz]
  have hused : ringUsed z ≤ ringUsed y + r.length := ringUsed_add y z r.length (by rw [hz]) (by rw [hzprod, hmod]) (by omega)
  have hoffset := ring_offset (prod := y.prod) (r := r.length) (n := rs.flatten.length) (area := dw w.desc 6 - 64)
    (by have := hring.area; omega) (by omega)
  rw [← hz] at hu'
  have hrest := sendRecords_rest ha hring hop rs hk hu' (by rw [hz]) (by rw [hz]) (by omega) (by rw [hzprod]; exact hoffset) (by omega)
  have hself : ({ z with records := [], prod := z.prod + rs.flatten.length } : Shipping) =
      { y with records := [], prod := y.prod + (r.length + rs.flatten.length), again := false } := by
    rw [hz, Nat.add_assoc]
  rw [hself, hzprod, memPut_ring _ (by omega), Nat.add_assoc y.prod] at hrest
  rw [hsend, List.flatten_cons]
  exact hrest

end Step

/-! ## Going on (R110, R184) -/

theorem exSegs_eq_nil {a u : State} {q : Nat} {win : List WinEntry} {x : Option Shipping} {m : List Host.Cell} (hu : Ships a q win x m u)
    (h : ∀ g ∈ a.fabric.segs, ¬ (g.q = q ∧ g.n = 152)) : u.exSegs q = [] := by
  have hsegs : u.fabric.segs = a.fabric.segs := by
    have hf := congrArg (fun s : State => s.fabric.segs) hu.on.afar
    exact hf
  refine List.filter_eq_nil_iff.2 (fun g hg hmine => h g (hsegs ▸ hg) ?_)
  simpa using hmine

theorem reapSegs_of_none {s : State} {q : Nat} (h : s.exSegs q = []) (site : List (Nat × Nat × List (Byte × Bool))) : s.reapSegs q site = s := by
  rw [State.reapSegs, h]
  rfl

theorem takeAnswers_of_none {s : State} {q : Nat} (h : s.exSegs q = []) (w : WinEntry) (site : List (Nat × Nat × List (Byte × Bool))) :
    s.takeAnswers q w site = s := by
  rw [State.takeAnswers, h]
  rfl

/-- What runs in a window. -/
def runningIn (win : List WinEntry) : Option (Nat × WinEntry) :=
  (win[win.findIdx (fun w => w.status == .running)]?).map (fun w => (win.findIdx (fun w => w.status == .running), w))

theorem exRunning_eq (s : State) (q : Nat) : s.exRunning q = runningIn (s.queue q 152).window := rfl

/-- A descriptor that has read its ring goes on with what fits. -/
theorem shipOn_eq {u v : State} {q i : Nat} {w : WinEntry} {y z : Shipping} (hrun : u.exRunning q = some (i, w)) (hsegs : u.exSegs q = [])
    (hy : u.shipping q = some y) (hbegan : y.began = true) (hv : u.shipFitting q w = v) (hz : v.shipping q = some z)
    (hblocked : (v.shipBlocked q w && !z.reading && !z.again) = false) : u.shipOn q [] = v := by
  rw [State.shipOn, hrun]
  dsimp only
  have hskip : (if (y.began || y.reading) = true then u else u.readControl q w y) = u := if_pos (by rw [hbegan, Bool.true_or])
  rw [takeAnswers_of_none hsegs, hy]
  simp only [hskip, hy]
  rw [hbegan, if_neg (by decide), hv, hz]
  dsimp only
  rw [hblocked, if_neg Bool.false_ne_true]

theorem shipBlocked_of_none {v : State} {q : Nat} {w : WinEntry} {z : Shipping} (hz : v.shipping q = some z) (hnone : v.nextRecord w z = none) :
    v.shipBlocked q w = false := by
  rw [State.shipBlocked, hz]
  dsimp only
  rw [hnone, Bool.and_false]

/-! ## The ring's counters are read (R184) -/

/-- What EX0 holds after it has read the ring's control block at l. -/
def controlRead (a : State) (m : List Host.Cell) (l : Nat) (x : Shipping) : Shipping :=
  { x with prod := (if x.began then x.prod else leNat (memBytes m l 8)), cons := leNat (memBytes m (l + 8) 8), began := true, readAt := some a.now }

theorem readControl_here {a u : State} {q l : Nat} {w : WinEntry} {win : List WinEntry} {x : Option Shipping} {m : List Host.Cell}
    (hu : Ships a q win x m u) (hl : a.resolve (dq w.desc 4) = .here l) (hpop : populated l 64 = true) (y : Shipping) :
    Ships a q win (some (controlRead a m l y)) m (u.readControl q w y) := by
  unfold State.readControl
  dsimp only
  rw [hu.resolve, hl]
  dsimp only
  rw [hpop, if_neg (by decide), State.readNat, State.readNat, hu.idle.readBytes, hu.idle.readBytes, hu.mem, hu.now]
  exact (hu.noteReadBy ..).setShipping _

/-! ## A descriptor of EX0 starts (R138, R157, R183) -/

/-- What EX0 is to send of a descriptor that starts: under the lease of its word 1 where that is granted, else as MIXED. -/
def freshShipping (a : State) (op : Nat) (w : WinEntry) : Shipping :=
  let l := a.lease (df w.desc 1 0 16)
  let granted := op == 2 && df w.desc 1 0 16 != 0 && l.granted
  { claimStep := if granted then l.claimStep else a.committed % 65536, mixed := if granted then l.mixed else true }

section Start
variable {a : State} {q i l op : Nat} {w : WinEntry} (ha : Idle a) (hrun : a.exRunning q = none) (hstart : a.startable q 152 = some (i, w))
  (hop : dOp w.desc = op) (hl : a.resolve (dq w.desc 4) = .here l) (hpop : populated l 64 = true)
include ha hrun hstart hop hl hpop

theorem shipStart_reads : Ships a q ((a.queue q 152).window.set i (started a q w)) (some (controlRead a a.mem l (freshShipping a op w))) a.mem
    (a.shipStart q op) := by
  have hbegun : Ships a q ((a.queue q 152).window.set i (started a q w)) (a.shipping q) a.mem (a.startEntry q 152 i w) := by
    refine ⟨.startEntry .., idle_startEntry ha .., ?_, ?_, mem_startEntry ..⟩
    · rw [queue_startEntry]
    · rw [State.shipping, coll_startEntry]
      rfl
  have hcommitted : (a.startEntry q 152 i w).committed = a.committed := by
    rw [State.committed, State.committed, State.num64, State.num64, State.num, State.num, State.num, State.num,
      hbegun.on.reg (unturned_step (by decide)), hbegun.on.reg (unturned_step (by decide))]
  have hlease : (a.startEntry q 152 i w).lease (df w.desc 1 0 16) = a.lease (df w.desc 1 0 16) := by
    have hleases := congrArg (fun s : State => s.lease (df w.desc 1 0 16)) hbegun.on.afar
    exact hleases
  unfold State.shipStart
  rw [hrun, hstart]
  dsimp only
  rw [if_neg (fun h => h hop), hcommitted, hlease]
  exact readControl_here (hbegun.setSegWait false) hl hpop _

end Start

/-- Answers of failed descriptors' segments end those segments, and what they hold of leases. -/
theorem reapSegs_fields (s : State) (q : Nat) (site : List (Nat × Nat × List (Byte × Bool))) :
    ∃ segs held, s.reapSegs q site = { s with fabric := { s.fabric with segs := segs }, leases := { s.leases with held := held } } := by
  unfold State.reapSegs
  refine List.foldlRecOn (motive := fun t : State => ∃ segs held, t =
    { s with fabric := { s.fabric with segs := segs }, leases := { s.leases with held := held } }) _ _ ⟨_, _, rfl⟩ (fun t ht g _ => ?_)
  obtain ⟨segs, held, rfl⟩ := ht
  unfold State.endSeg
  dsimp only
  split
  · exact ⟨_, _, rfl⟩
  · exact ⟨_, _, rfl⟩

/-- SHIP_STEP: the descriptor runs, and EX0 holds PROD and CONS as they are in memory. -/
theorem shipStep_spec {a : State} {q i l : Nat} {w : WinEntry} (hrun : a.exRunning q = none) (hstart : a.startable q 152 = some (i, w))
    (hop : dOp w.desc = 1) (hl : a.resolve (dq w.desc 4) = .here l) (hpop : populated l 64 = true) (hclean : Clean a) :
    ((a.reapSegs q []).shipStart q 1).shipping q = some
      { prod := leNat (memBytes a.mem l 8), cons := leNat (memBytes a.mem (l + 8) 8), began := true, readAt := some a.now,
        claimStep := a.committed % 65536 } ∧
    ((((a.reapSegs q []).shipStart q 1).queue q 152).window[i]?).map (·.status) = some .running ∧
    ((a.reapSegs q []).shipStart q 1).mem = a.mem := by
  obtain ⟨segs, held, hb⟩ := reapSegs_fields a q []
  generalize a.reapSegs q [] = b at hb
  have hidle : Idle b := (idle_of_clean hclean).of_same (by rw [hb]) (by rw [hb])
  have hbstart : b.startable q 152 = some (i, w) := by rw [hb]; exact hstart
  have hbl : b.resolve (dq w.desc 4) = .here l := by rw [hb]; exact hl
  have hships := shipStart_reads hidle (by rw [hb]; exact hrun) hbstart hop hbl hpop
  obtain ⟨hi, -⟩ := List.getElem?_eq_some_iff.1 (startable_eq hbstart).2
  refine ⟨?_, ?_, ?_⟩
  · rw [hships.shipping, hb]
    rfl
  · rw [hships.window, List.getElem?_set_self hi]
    rfl
  · rw [hships.mem, hb]

end Sys2Proof.Proofs
end

section
/-! PROOFS. The exporter goes on: the records of a closed attempt, pages, the end of a descriptor, and CONS read again. -/

namespace Sys2Proof.Proofs
open Sys2Proof Sys2Proof.Machine Sys2Proof.Laws

/-! ## The records of a closed attempt (R183, R185) -/

section Ships
variable {a u : State} {q : Nat} {win : List WinEntry} {x : Option Shipping} {m : List Host.Cell}

theorem mPage_ne_exporter (k : PageKind) (q : Nat) : mPage k ≠ qPage .ex q 0 := by
  intro h
  have hslot : k.moduleSlot = PageKind.ex.slotBase + 0 := congrArg Page.slot h
  exact absurd hslot (by cases k <;> decide)

theorem Ships.raiseIf (h : Ships a q win x m u) (c : Bool) (bit : Nat) : Ships a q win x m (u.raiseIf c (qPage .ex q 0) bit) := by
  cases c with
  | false => exact h
  | true =>
    have hidle := h.idle.raiseIf true (qPage .ex q 0) bit
    rw [State.raiseIf, if_pos rfl] at hidle ⊢
    have hqueue : ((u.raise (qPage .ex q 0) bit).queue q 152).window = win := by
      obtain ⟨_, _, _, _, hf⟩ := raise_fields u (qPage .ex q 0) bit
      rw [hf]
      exact h.window
    refine ⟨h.on.trans (.raise _ (by simp [qPage, PageKind.slotBase]) (fun _ => .inl (mPage_ne_exporter _ _))), hidle, hqueue, ?_, ?_⟩
    · rw [State.shipping, coll_raise]
      exact h.shipping
    · rw [raise_mem]
      exact h.mem

theorem Ships.noteShip (h : Ships a q win x m u) (c : Closed) : Ships a q win x m (u.noteShip q c) := by
  unfold State.noteShip
  dsimp only
  split
  · exact h
  · refine List.foldlRecOn (motive := Ships a q win x m) _ _ (h.noteReadBy ..) (fun t ht i _ => ?_)
    split
    · exact ht
    · exact List.foldlRecOn (motive := Ships a q win x m) _ _ ht (fun v hv r _ => hv.noteReadBy ..)

section Reads
variable (h : Ships a q win x a.mem u) (ha : Idle a)
include h ha

theorem Ships.readNat (z n : Nat) : u.readNat z n = a.readNat z n := by
  rw [State.readNat, State.readNat, h.idle.readBytes, ha.readBytes, h.mem]

theorem Ships.readPoisoned (z n : Nat) : u.readPoisoned z n = a.readPoisoned z n := by
  rw [h.idle.readPoisoned, ha.readPoisoned]

theorem Ships.changeAt (q' par i : Nat) : u.changeAt q' par i = a.changeAt q' par i := by
  unfold State.changeAt
  simp only [h.readNat ha, h.readPoisoned ha]

theorem Ships.pageDiff (c : Change) : u.pageDiff c = a.pageDiff c := by
  funext p
  unfold State.pageDiff
  simp only [h.readNat ha, h.readPoisoned ha]

/-- The records of an attempt are read as they were. -/
theorem Ships.stepRecords (q' : Nat) (c : Closed) : u.stepRecords q' c = a.stepRecords q' c := by
  have hdiffs : u.pageDiffs q' c = a.pageDiffs q' c := by
    unfold State.pageDiffs
    simp only [h.changeAt ha, h.pageDiff ha]
  unfold State.stepRecords
  simp only [hdiffs, h.on.bearings.selfId]

end Reads

end Ships

theorem stepRecords_cons (s : State) (q : Nat) (c : Closed) : ∃ r rs, s.stepRecords q c = r :: rs :=
  List.exists_cons_of_ne_nil (by simp [State.stepRecords])

/-- Two writes: of records in the record area, and of PROD. -/
theorem memBytes_records {m : List Host.Cell} {l at_ n : Nat} {bs : List Byte} (hat : l + 64 ≤ at_) :
    memBytes (memPut (memPut m at_ bs) l (leBytes 8 n)) at_ bs.length = bs ∧
    leNat (memBytes (memPut (memPut m at_ bs) l (leBytes 8 n)) l 8) = n % 2 ^ 64 ∧
    ∀ y, Apart y 1 at_ bs.length → Apart y 1 l 8 → memGet (memPut (memPut m at_ bs) l (leBytes 8 n)) y = memGet m y := by
  have hlen : (leBytes 8 n).length = 8 := leBytes_length ..
  refine ⟨?_, ?_, fun y hrec hprod => ?_⟩
  · rw [memBytes_memPut_other _ _ _ _ _ (by rw [hlen]; unfold Apart; omega), memBytes_memPut]
  · have hsame := memBytes_memPut (memPut m at_ bs) l (leBytes 8 n)
    rw [hlen] at hsame
    rw [hsame, leNat_leBytes]
  · unfold Apart at hrec hprod
    rw [memGet_put_other _ _ _ _ (by omega), memGet_put_other _ _ _ _ (by omega)]

section Send
variable {a : State} {q i l : Nat} {w : WinEntry} {x : Shipping} {c : Closed}

theorem ships_refl (ha : Idle a) : Ships a q (a.queue q 152).window (a.shipping q) a.mem a := ⟨.refl a, ha, rfl, rfl, rfl⟩

theorem exRunning_of_ships {u : State} {y : Option Shipping} {m : List Host.Cell} (hu : Ships a q (a.queue q 152).window y m u)
    (hrun : a.exRunning q = some (i, w)) : u.exRunning q = some (i, w) := by
  rw [exRunning_eq, hu.window, ← exRunning_eq, hrun]

/-- Once the attempt has closed, its records are in the ring, and PROD is past them. -/
theorem shipOn_records (ha : Idle a) (hring : OwnRing a w l) (hrun : a.exRunning q = some (i, w)) (hop : dOp w.desc = 1)
    (hbegan : x.began = true) (hsegs : ∀ g ∈ a.fabric.segs, ¬ (g.q = q ∧ g.n = 152))
    (hroom : ringUsed x + (a.stepRecords q c).flatten.length ≤ dw w.desc 6 - 64)
    (hfit : x.prod % (dw w.desc 6 - 64) + (a.stepRecords q c).flatten.length ≤ dw w.desc 6 - 64)
    (hprod : x.prod + (a.stepRecords q c).flatten.length < 2 ^ 64) {u : State} (hu : Ships a q (a.queue q 152).window (some x) a.mem u) :
    Ships a q (a.queue q 152).window
      (some { x with records := [], next := 1, prod := x.prod + (a.stepRecords q c).flatten.length, again := false })
      (memPut (memPut a.mem (l + 64 + x.prod % (dw w.desc 6 - 64)) (a.stepRecords q c).flatten) l
        (leBytes 8 (x.prod + (a.stepRecords q c).flatten.length)))
      ((u.setShipping q (some { x with records := (a.stepRecords q c).map unmarked, next := 1 })).shipOn q []) := by
  obtain ⟨r, rs, hrecords⟩ := stepRecords_cons a q c
  rw [hrecords] at hroom hfit hprod ⊢
  have hset := hu.setShipping (some { x with records := (r :: rs).map unmarked, next := 1 })
  have hsent := sendRecords_all ha hring hop (k := rs.length + 2) (by omega) hset rfl hroom hfit hprod
  have hblocked := shipBlocked_of_none (w := w) hsent.shipping (nextRecord_step_none hop rfl)
  rw [shipOn_eq (exRunning_of_ships hset hrun) (exSegs_eq_nil hset hsegs) hset.shipping hbegan ?_ hsent.shipping
    (by rw [hblocked]; rfl)]
  · exact hsent
  · rw [State.shipFitting, hset.shipping]
    dsimp only
    rw [if_pos hop, List.length_map, List.length_cons]

/-- SHIP_STEP_SEND: the records lie at PROD, PROD is past them, and no other byte has changed. -/
theorem shipStepSend_spec {s : State} {t : Nat} (hs : s.advance t = a) (hclean : Clean a) (hring : OwnRing a w l)
    (hrun : a.exRunning q = some (i, w)) (hop : dOp w.desc = 1)
    (hx : a.shipping q = some x) (hc : a.shipClosed q = some c) (hbegan : x.began = true) (hnext : x.next = 0)
    (hsegs : ∀ g ∈ a.fabric.segs, ¬ (g.q = q ∧ g.n = 152))
    (hroom : ringUsed x + (a.stepRecords q c).flatten.length ≤ dw w.desc 6 - 64)
    (hfit : x.prod % (dw w.desc 6 - 64) + (a.stepRecords q c).flatten.length ≤ dw w.desc 6 - 64)
    (hprod : x.prod + (a.stepRecords q c).flatten.length < 2 ^ 64) :
    Completes (.shipStepSend t q [] []) s (fun u =>
      memBytes u.mem (l + 64 + x.prod % (dw w.desc 6 - 64)) (a.stepRecords q c).flatten.length = (a.stepRecords q c).flatten ∧
      leNat (memBytes u.mem l 8) = x.prod + (a.stepRecords q c).flatten.length ∧
      (∀ y, Apart y 1 (l + 64 + x.prod % (dw w.desc 6 - 64)) (a.stepRecords q c).flatten.length → Apart y 1 l 8 →
        memGet u.mem y = memGet a.mem y) ∧
      u.shipping q = some { x with records := [], next := 1, prod := x.prod + (a.stepRecords q c).flatten.length, again := false }) := by
  have ha := idle_of_clean hclean
  have hnone : a.exSegs q = [] := exSegs_eq_nil (ships_refl (q := q) ha) hsegs
  obtain ⟨u, hu⟩ : ∃ u, u = (a.noteShip q c).raiseIf (a.pageDiffs q c).2 (qPage .ex q 0) 3 := ⟨_, rfl⟩
  have hnoted : Ships a q (a.queue q 152).window (some x) a.mem u := by
    have hbegin := ships_refl (q := q) ha
    rw [hx] at hbegin
    rw [hu]
    exact (hbegin.noteShip c).raiseIf ..
  have hexec : execShipStepSend t q [] [] s =
      settled ((u.setShipping q (some { x with records := (a.stepRecords q c).map unmarked, next := 1 })).shipOn q []) := by
    unfold execShipStepSend
    dsimp only
    rw [hs, upset_nil, reapSegs_of_none hnone, hrun]
    dsimp only
    rw [if_neg (fun h => h hop), takeAnswers_of_none hnone, hx, hc]
    dsimp only
    rw [if_pos (by rw [hbegan, hnext]; rfl), ← hnoted.stepRecords ha, hu]
    rfl
  have hsent := shipOn_records ha hring hrun hop hbegan hsegs hroom hfit hprod hnoted
  obtain ⟨v, hv, hmended⟩ := settled_mended
    ((u.setShipping q (some { x with records := (a.stepRecords q c).map unmarked, next := 1 })).shipOn q [])
  have hbytes := memBytes_records (m := a.mem) (l := l) (at_ := l + 64 + x.prod % (dw w.desc 6 - 64))
    (n := x.prod + (a.stepRecords q c).flatten.length) (bs := (a.stepRecords q c).flatten) (by omega)
  rw [← hsent.mem, ← hmended.mem] at hbytes
  obtain ⟨hrecords, hcount, hother⟩ := hbytes
  refine ⟨v, hexec.trans hv, hrecords, hcount.trans (Nat.mod_eq_of_lt hprod), hother, ?_⟩
  rw [State.shipping, hmended.coll]
  exact hsent.shipping

end Send

/-! ## The end of a SHIP_STEP (R182, R183) -/

section Done
variable {a : State} {q i : Nat} {w : WinEntry} {x : Shipping} {c : Closed}

/-- The next attempt is due. -/
def due (a : State) (q : Nat) : State :=
  a.setNum64 (mPage .exp) (Reg.EXP_Qq_NEXT_LO + 8 * q) (Reg.EXP_Qq_NEXT_HI + 8 * q) ((a.nextShip q + 1) % 2 ^ 64)

/-- What is left once STEP_END is visible: the next attempt is due, and the image is free. -/
def shipped (a : State) (q : Nat) (c : Closed) : State :=
  let s := due a q
  let images := if c.skip then s.train.images else s.train.images.filter (· != 2 * q + c.parity)
  let s := { s with train := { s.train with images := images } }
  { s with train := { s.train with closed := s.train.closed.filter (fun c => (List.range 4).any (fun q => decide (s.nextShip q ≤ c.attempt))) } }

theorem nextShip_shipped (a : State) (q : Nat) (c : Closed) : (shipped a q c).nextShip q = (a.nextShip q + 1) % 2 ^ 64 := by
  have h := num64_setNum64 a (mPage .exp) (lo := Reg.EXP_Qq_NEXT_LO + 8 * q) (hi := Reg.EXP_Qq_NEXT_HI + 8 * q) ((a.nextShip q + 1) % 2 ^ 64)
    (by unfold Reg.EXP_Qq_NEXT_LO Reg.EXP_Qq_NEXT_HI; omega)
  rw [Nat.mod_mod] at h
  exact h

theorem not_mem_images_shipped (a : State) (q : Nat) (c : Closed) (hskip : c.skip = false) :
    2 * q + c.parity ∉ (shipped a q c).train.images := by
  show _ ∉ (if c.skip then _ else List.filter _ _)
  rw [hskip, if_neg Bool.false_ne_true, List.mem_filter]
  simp

theorem mem_shipped (a : State) (q : Nat) (c : Closed) : (shipped a q c).mem = a.mem := by
  show (due a q).mem = a.mem
  rw [due, setNum64_mem]

theorem now_shipped (a : State) (q : Nat) (c : Closed) : (shipped a q c).now = a.now := by
  show (due a q).now = a.now
  rw [due, setNum64_now]

theorem queue_shipped (a : State) (q q' n : Nat) (c : Closed) : (shipped a q c).queue q' n = a.queue q' n := by
  show (due a q).queue q' n = a.queue q' n
  rw [State.queue, State.queue, due, setNum64_compute]

theorem getElem?_of_runningIn {win : List WinEntry} (h : runningIn win = some (i, w)) : win[i]? = some w := by
  obtain ⟨v, hv, heq⟩ := Option.map_eq_some_iff.1 h
  obtain ⟨rfl, rfl⟩ := Prod.mk.inj heq
  exact hv

/-- The end of a descriptor leaves all but its queue's window. -/
theorem finishEntry_of_getElem? {s : State} {n : Nat} (h : (s.queue q n).window[i]? = some w) (at_ : Nat) :
    s.finishEntry q n i at_ = s.setEntry q n i { w with status := .done, waitUntil := at_ } := by
  rw [State.finishEntry, h]

/-- SHIP_STEP_DONE: the next attempt is due, and the descriptor is done. -/
theorem shipStepDone_spec {s : State} {t : Nat} (hs : s.advance t = a) (hrun : a.exRunning q = some (i, w)) (hop : dOp w.desc = 1)
    (hx : a.shipping q = some x) (hc : a.shipClosed q = some c) (hnext : x.next = 1) (hrecords : x.records = [])
    (hopen : a.writesOpen q 152 w.seq = false) (hsegs : ∀ g ∈ a.fabric.segs, ¬ (g.q = q ∧ g.n = 152)) (hq : q < 4) :
    Completes (.shipStepDone t q []) s (fun u =>
      u.nextShip q = (a.nextShip q + 1) % 2 ^ 64 ∧ u.shipping q = none ∧
      (u.queue q 152).window[i]? = some { w with status := .done, waitUntil := a.now } ∧
      (c.skip = false → 2 * q + c.parity ∉ u.train.images) ∧ u.mem = a.mem) := by
  have hnone : a.exSegs q = [] := List.filter_eq_nil_iff.2 (fun g hg hmine => hsegs g hg (by simpa using hmine))
  have hvisible : a.shipVisible q w = true := by
    rw [State.shipVisible, hopen, hnone]
    rfl
  obtain ⟨v, hv⟩ : ∃ v, v = ((shipped a q c).setShipping q none).finishEntry q 152 i a.now := ⟨_, rfl⟩
  have hexec : execShipStepDone t q [] s = settled v := by
    unfold execShipStepDone
    dsimp only
    rw [hs, reapSegs_of_none hnone, hrun]
    dsimp only
    rw [if_neg (fun h => h hop), takeAnswers_of_none hnone, hx, hc]
    dsimp only
    rw [if_neg (by rw [hnext, hrecords, hvisible]; decide), hv, ← now_shipped a q c]
    rfl
  have hwindow : (a.queue q 152).window[i]? = some w := getElem?_of_runningIn ((exRunning_eq a q).symm.trans hrun)
  rw [finishEntry_of_getElem? (by rw [← hwindow, ← queue_shipped a q q 152 c]; rfl)] at hv
  obtain ⟨u, hu, hmended⟩ := settled_mended v
  have hreg {off : Nat} (hoff : off < 4096) : u.reg (mPage .exp) off = (shipped a q c).reg (mPage .exp) off := by
    rw [hmended.reg (by decide) hoff (by decide) (by decide), hv]
    rfl
  refine ⟨u, hexec.trans hu, ?_, ?_, ?_, fun hskip => ?_, ?_⟩
  · rw [← nextShip_shipped a q c, State.nextShip, State.nextShip, State.num64, State.num64,
      num_of_reg (hreg (by unfold Reg.EXP_Qq_NEXT_LO; omega)), num_of_reg (hreg (by unfold Reg.EXP_Qq_NEXT_HI; omega))]
  · rw [State.shipping, hmended.coll, hv]
    exact shipping_setShipping (shipped a q c) q none
  · have hleft : ((shipped a q c).setShipping q none).queue q 152 = a.queue q 152 := queue_shipped a q q 152 c
    rw [hmended.queue, hv, queue_setEntry, hleft]
    exact List.getElem?_set_self (List.getElem?_eq_some_iff.1 hwindow).1
  · rw [hmended.images, hv]
    exact not_mem_images_shipped a q c hskip
  · rw [hmended.mem, hv]
    exact mem_shipped a q c

end Done

/-! ## CONS is read again (R184) -/

section Reread
variable {a u : State} {q i l : Nat} {w : WinEntry} {win : List WinEntry} {x y : Shipping}

theorem Ships.nextRecord {o : Option Shipping} (h : Ships a q win o a.mem u) (ha : Idle a) (w : WinEntry) (y : Shipping) :
    u.nextRecord w y = a.nextRecord w y := by
  have hmarked (z n : Nat) : u.readMarked z n = a.readMarked z n := by rw [h.idle.readMarked, ha.readMarked, h.mem]
  simp only [State.nextRecord, State.fullRecord, hmarked]

/-- Where the next record does not fit, nothing is sent. -/
theorem sendRecords_blocked (hy : u.shipping q = some y)
    (h : ∀ b z, u.nextRecord w y = some (b, z) → dw w.desc 6 - 64 < ringUsed y + b.length) (k : Nat) :
    State.sendRecords k q w false u = u := by
  cases k with
  | zero => rfl
  | succ k =>
    rw [State.sendRecords]
    dsimp only
    rw [hy]
    dsimp only
    split
    · rfl
    · next b z hnext =>
      rw [if_pos (h b z hnext)]
      rfl

/-- EXPORT_CONS_REREAD: CONS is as it is in memory, and nothing else has changed. -/
theorem exportConsReread_spec {s : State} {t r : Nat} (hs : s.advance t = a) (hclean : Clean a) (hrun : a.exRunning q = some (i, w))
    (hx : a.shipping q = some x) (hblocked : a.shipBlocked q w = true) (hreading : x.reading = false) (hread : x.readAt = some r)
    (hlate : r + 180000 ≤ a.now) (hsegs : ∀ g ∈ a.fabric.segs, ¬ (g.q = q ∧ g.n = 152)) (hl : a.resolve (dq w.desc 4) = .here l)
    (hpop : populated l 64 = true)
    (hy : y = { x with cons := leNat (memBytes a.mem (l + 8) 8), readAt := some a.now, again := true })
    (hroom : ∀ b z, a.nextRecord w y = some (b, z) → dw w.desc 6 - 64 < ringUsed y + b.length) :
    Completes (.exportConsReread t q []) s (fun u => u.shipping q = some y ∧ u.mem = a.mem) := by
  have ha := idle_of_clean hclean
  have hbegan : x.began = true := by
    rw [State.shipBlocked, hx] at hblocked
    exact (Bool.and_eq_true_iff.1 hblocked).1
  have hnone : a.exSegs q = [] := exSegs_eq_nil (ships_refl (q := q) ha) hsegs
  have hexec : execExportConsReread t q [] s = settled ((a.readControl q w { x with again := true }).shipOn q []) := by
    unfold execExportConsReread
    dsimp only
    rw [hs, reapSegs_of_none hnone, hrun]
    dsimp only
    rw [takeAnswers_of_none hnone, hx]
    dsimp only
    rw [if_pos]
    rw [hblocked, hreading, hread]
    simpa using hlate
  have hcontrol := readControl_here (ships_refl (q := q) ha) hl hpop { x with again := true }
  have hself : controlRead a a.mem l { x with again := true } = y := by
    rw [hy, controlRead]
    dsimp only
    rw [hbegan, if_pos rfl]
  rw [hself] at hcontrol
  have hon : (a.readControl q w { x with again := true }).shipOn q [] = a.readControl q w { x with again := true } := by
    refine shipOn_eq (exRunning_of_ships hcontrol hrun) (exSegs_eq_nil hcontrol hsegs) hcontrol.shipping (by rw [hy]; exact hbegan) ?_
      hcontrol.shipping (by rw [hy]; simp)
    rw [State.shipFitting, hcontrol.shipping]
    exact sendRecords_blocked hcontrol.shipping (by rw [hcontrol.nextRecord ha]; exact hroom) _
  rw [hon] at hexec
  obtain ⟨v, hv, hmended⟩ := settled_mended (a.readControl q w { x with again := true })
  refine ⟨v, hexec.trans hv, ?_, hmended.mem.trans hcontrol.mem⟩
  rw [State.shipping, hmended.coll]
  exact hcontrol.shipping

end Reread

/-! ## A page is exported (R138, R157, R185) -/

section Full
variable {a : State} {q i l : Nat} {w : WinEntry}

theorem runningIn_set {win : List WinEntry} {v : WinEntry} (h : runningIn win = none) (hi : i < win.length) (hv : v.status = .running) :
    runningIn (win.set i v) = some (i, v) := by
  have hidx : (win.set i v).findIdx (fun w => w.status == .running) = i := by
    have hlen : win.length ≤ win.findIdx (fun w => w.status == .running) := by
      rw [runningIn, Option.map_eq_none_iff, List.getElem?_eq_none_iff] at h
      exact h
    refine (List.findIdx_eq (by rwa [List.length_set])).2 ⟨by rw [List.getElem_set_self, hv]; rfl, fun j hj => ?_⟩
    rw [List.getElem_set_ne (by omega)]
    have hlow : j < win.findIdx (fun w => w.status == .running) := by omega
    exact List.not_of_lt_findIdx hlow
  rw [runningIn, hidx, List.getElem?_set_self hi]
  rfl

/-- The bytes of a record of n bytes of memory from lo, with the words of its head. -/
def pageRecord (m : List Host.Cell) (lo n flags step : Nat) : List Byte :=
  recHead 4 flags step (32 + (n + 7) / 8 * 8) ++ leBytes 8 lo ++ leBytes 4 n ++ List.replicate 12 0 ++ memBytes m lo n ++
    List.replicate ((n + 7) / 8 * 8 - n) 0

theorem length_pageRecord (m : List Host.Cell) (lo n flags step : Nat) :
    (pageRecord m lo n flags step).length = 32 + (n + 7) / 8 * 8 := by
  simp only [pageRecord, recHead, List.length_append, leBytes_length, List.length_replicate, length_memBytes]
  omega

/-- A range within a page is one record. -/
theorem fullCount_eq (hpos : 0 < dw w.desc 9) (hpage : dq w.desc 7 % 65536 + dw w.desc 9 ≤ 65536) : fullCount w = 1 := by
  unfold fullCount
  rw [if_neg (by omega)]
  omega

theorem fullRecord_eq {u : State} (hu : Idle u) (hpage : dq w.desc 7 % 65536 + dw w.desc 9 ≤ 65536) (y : Shipping) :
    u.fullRecord w y 0 = unmarked (pageRecord u.mem (dq w.desc 7) (dw w.desc 9) (if y.mixed then 8 else 0) y.claimStep) := by
  have hstart : max (dq w.desc 7) (65536 * (dq w.desc 7 / 65536 + 0)) = dq w.desc 7 := by omega
  have hcount : min (dq w.desc 7 + dw w.desc 9) (65536 * (dq w.desc 7 / 65536 + 0 + 1)) - dq w.desc 7 = dw w.desc 9 := by omega
  unfold State.fullRecord pageRecord unmarked
  dsimp only
  rw [hstart, hcount, hu.readMarked]
  simp only [List.map_append, List.map_replicate, List.append_assoc]

section Page
variable {v : WinEntry} {y : Shipping} {win : List WinEntry} {u : State} (hop : dOp v.desc = 2)
  (hpos : 0 < dw v.desc 9) (hpage : dq v.desc 7 % 65536 + dw v.desc 9 ≤ 65536)
include hop hpos hpage

theorem nextRecord_page (hnext : y.next = 0) (hu : Ships a q win (some y) a.mem u) : u.nextRecord v y =
    some (unmarked (pageRecord a.mem (dq v.desc 7) (dw v.desc 9) (if y.mixed then 8 else 0) y.claimStep), { y with next := 1 }) := by
  rw [State.nextRecord, if_neg (by rw [hop]; decide), fullCount_eq hpos hpage, hnext, if_pos (by decide), fullRecord_eq hu.idle hpage, hu.mem]

theorem nextRecord_page_none (s : State) {z : Shipping} (hz : z.next = 1) : s.nextRecord v z = none := by
  rw [State.nextRecord, if_neg (by rw [hop]; decide), fullCount_eq hpos hpage, hz, if_neg (by decide)]

/-- The record of a page lies at PROD, and PROD is past it. -/
theorem shipOn_page (ha : Idle a) (hring : OwnRing a v l) (hrun : runningIn win = some (i, v)) (hbegan : y.began = true) (hnext : y.next = 0)
    (hsegs : ∀ g ∈ a.fabric.segs, ¬ (g.q = q ∧ g.n = 152)) {bs : List Byte}
    (hbs : bs = pageRecord a.mem (dq v.desc 7) (dw v.desc 9) (if y.mixed then 8 else 0) y.claimStep)
    (hroom : ringUsed y + bs.length ≤ dw v.desc 6 - 64) (hfit : y.prod % (dw v.desc 6 - 64) + bs.length ≤ dw v.desc 6 - 64)
    (hu : Ships a q win (some y) a.mem u) :
    Ships a q win (some { y with next := 1, prod := (y.prod + bs.length) % 2 ^ 64, again := false })
      (memPut (memPut a.mem (l + 64 + y.prod % (dw v.desc 6 - 64)) bs) l (leBytes 8 ((y.prod + bs.length) % 2 ^ 64))) (u.shipOn q []) := by
  have hrecord := nextRecord_page hop hpos hpage hnext hu
  rw [← hbs] at hrecord
  obtain ⟨u', hsend, hu'⟩ := sendRecords_next ha hring hu rfl hrecord hroom hfit 2 false
  have hsent := sendRecords_end ha hring hu' rfl (nextRecord_page_none hop hpos hpage u' rfl) 1 true
  rw [if_pos rfl, ← hsend] at hsent
  have hblocked := shipBlocked_of_none (w := v) hsent.shipping (nextRecord_page_none hop hpos hpage _ rfl)
  have hrun' : u.exRunning q = some (i, v) := by rw [exRunning_eq, hu.window, hrun]
  rw [shipOn_eq hrun' (exSegs_eq_nil hu hsegs) hu.shipping hbegan ?_ hsent.shipping (by rw [hblocked]; rfl)]
  · exact hsent
  · rw [State.shipFitting, hu.shipping]
    dsimp only
    rw [if_neg (by rw [hop]; decide), fullCount_eq hpos hpage]

end Page

/-- SHIP_FULL of a range within a page: its record lies at PROD, PROD is past it, and the descriptor is done. -/
theorem shipFull_spec {s : State} {t : Nat} (hs : s.advance t = a) (hclean : Clean a) (hring : OwnRing a w l)
    (hrun : a.exRunning q = none) (hstart : a.startable q 152 = some (i, w)) (hop : dOp w.desc = 2)
    (hopen : a.writesOpen q 152 w.seq = false) (hsegs : ∀ g ∈ a.fabric.segs, ¬ (g.q = q ∧ g.n = 152))
    (hpos : 0 < dw w.desc 9) (hpage : dq w.desc 7 % 65536 + dw w.desc 9 ≤ 65536) {x : Shipping}
    (hx : x = controlRead a a.mem l (freshShipping a 2 w)) {bs : List Byte}
    (hbs : bs = pageRecord a.mem (dq w.desc 7) (dw w.desc 9) (if x.mixed then 8 else 0) x.claimStep)
    (hroom : ringUsed x + bs.length ≤ dw w.desc 6 - 64) (hfit : x.prod % (dw w.desc 6 - 64) + bs.length ≤ dw w.desc 6 - 64) :
    Completes (.shipFull t q [] []) s (fun u => memBytes u.mem (l + 64 + x.prod % (dw w.desc 6 - 64)) bs.length = bs ∧
      leNat (memBytes u.mem l 8) = (x.prod + bs.length) % 2 ^ 64 ∧ u.shipping q = none ∧
      ((u.queue q 152).window[i]?).map (fun v => (v.status, v.waitUntil)) = some (.done, a.now)) := by
  have ha := idle_of_clean hclean
  have hnone : a.exSegs q = [] := exSegs_eq_nil (ships_refl (q := q) ha) hsegs
  obtain ⟨hi, -⟩ := List.getElem?_eq_some_iff.1 (startable_eq hstart).2
  have hpop : populated l 64 = true := populated_sub hring.populated (Nat.le_refl _) (by have := hring.area; omega)
  have hreads := shipStart_reads ha hrun hstart hop hring.resolve hpop
  rw [← hx] at hreads
  have hrunning := runningIn_set (v := started a q w) ((exRunning_eq a q).symm.trans hrun) hi rfl
  have hring' : OwnRing a (started a q w) l := ⟨hring.resolve, hring.populated, hring.free, hring.open_, hring.area⟩
  have hsent := shipOn_page (v := started a q w) hop hpos hpage ha hring' hrunning (by rw [hx]; rfl) (by rw [hx]; rfl) hsegs hbs hroom hfit hreads
  generalize hv : (a.shipStart q 2).shipOn q [] = v at hsent
  have hvisible : v.shipVisible q (started a q w) = true := by
    have hleases : v.leases = a.leases := by
      have hl := congrArg State.leases hsent.on.afar
      exact hl
    rw [State.shipVisible, exSegs_eq_nil hsent hsegs, State.writesOpen, hleases]
    exact congrArg (fun b => !b && true) hopen
  have hdone : v.exRunning q = some (i, started a q w) := by rw [exRunning_eq, hsent.window, hrunning]
  have hentry : ((v.setShipping q none).queue q 152).window[i]? = some (started a q w) := by
    rw [(hsent.setShipping none).window, List.getElem?_set_self hi]
  have hexec : execShipFull t q [] [] s =
      settled ((v.setShipping q none).setEntry q 152 i { started a q w with status := .done, waitUntil := a.now }) := by
    unfold execShipFull
    dsimp only
    rw [hs, upset_nil, reapSegs_of_none hnone, hv, hdone]
    dsimp only
    rw [hsent.shipping]
    dsimp only
    rw [if_neg, finishEntry_of_getElem? hentry, hsent.now]
    have hcount : fullCount (started a q w) = 1 := fullCount_eq (w := started a q w) hpos hpage
    have hbegan : x.began = true := by rw [hx]; rfl
    have hop' : dOp (started a q w).desc = 2 := hop
    rw [hvisible, hcount, hbegan, hop']
    decide
  obtain ⟨u, hu, hmended⟩ := settled_mended
    ((v.setShipping q none).setEntry q 152 i { started a q w with status := .done, waitUntil := a.now })
  have hbytes := memBytes_records (m := a.mem) (l := l) (at_ := l + 64 + x.prod % (dw w.desc 6 - 64))
    (n := (x.prod + bs.length) % 2 ^ 64) (bs := bs) (by omega)
  have hmem : u.mem = memPut (memPut a.mem (l + 64 + x.prod % (dw w.desc 6 - 64)) bs) l (leBytes 8 ((x.prod + bs.length) % 2 ^ 64)) :=
    hmended.mem.trans hsent.mem
  rw [← hmem, Nat.mod_mod] at hbytes
  obtain ⟨hrecord, hcount, -⟩ := hbytes
  refine ⟨u, hexec.trans hu, hrecord, hcount, ?_, ?_⟩
  · rw [State.shipping, hmended.coll]
    exact shipping_setShipping v q none
  · rw [hmended.queue, queue_setEntry, (hsent.setShipping none).window]
    dsimp only
    rw [List.getElem?_set_self (by rwa [List.length_set])]
    rfl

end Full

/-- What a SHIP_FULL sends is marked with its lease's step where that is granted. -/
theorem freshShipping_full (a : State) (w : WinEntry) :
    (freshShipping a 2 w).claimStep = (if df w.desc 1 0 16 ≠ 0 ∧ (a.lease (df w.desc 1 0 16)).granted = true
      then (a.lease (df w.desc 1 0 16)).claimStep else a.committed % 65536) ∧
    (freshShipping a 2 w).mixed = (if df w.desc 1 0 16 ≠ 0 ∧ (a.lease (df w.desc 1 0 16)).granted = true
      then (a.lease (df w.desc 1 0 16)).mixed else true) := by
  have hgranted : ((2 : Nat) == 2 && df w.desc 1 0 16 != 0 && (a.lease (df w.desc 1 0 16)).granted) = true ↔
      df w.desc 1 0 16 ≠ 0 ∧ (a.lease (df w.desc 1 0 16)).granted = true := by simp
  unfold freshShipping
  dsimp only
  constructor
  · simp only [hgranted]
  · simp only [hgranted]

/-- Settles O30: the records of a step and a page are written at PROD one after another, then PROD. -/
theorem exporterShipsRecordsInOrder : Obligations.ExporterShipsRecordsInOrder := by
  unfold Obligations.ExporterShipsRecordsInOrder
  refine ⟨?_, ?_, ?_, ?_, ?_⟩
  · intro t q i l w s
    dsimp only
    intro hrun hstart hop hl hpop hclean
    obtain ⟨u, hu, hmended⟩ := settled_mended (((s.advance t).reapSegs q []).shipStart q 1)
    obtain ⟨hship, hwindow, hmem⟩ := shipStep_spec hrun hstart hop hl hpop hclean
    refine ⟨u, hu, ?_, ?_, hmended.mem.trans hmem⟩
    · rw [State.shipping, hmended.coll]
      exact hship
    · rw [hmended.queue]
      exact hwindow
  · intro t q i l w x c s
    dsimp only
    intro hrun hop hx hc hbegan hnext hsegs hclean hl hpop hfree hopen harea hroom hfit hprod
    exact shipStepSend_spec rfl hclean ⟨hl, hpop, hfree, hopen, harea⟩ hrun hop hx hc hbegan hnext hsegs hroom hfit hprod
  · intro t q i w x c s
    dsimp only
    intro hrun hop hx hc hnext hrecords hopen hsegs hq
    exact shipStepDone_spec rfl hrun hop hx hc hnext hrecords hopen hsegs hq
  · intro t q i l w s
    dsimp only
    intro hrun hstart hop hl hclean hpop hfree hwaits hopen hsegs hpos hpage harea hroom hfit
    obtain ⟨bs, hbs⟩ : ∃ bs, bs = pageRecord (s.advance t).mem (dq w.desc 7) (dw w.desc 9)
      (if (freshShipping (s.advance t) 2 w).mixed then 8 else 0) (freshShipping (s.advance t) 2 w).claimStep := ⟨_, rfl⟩
    have hlen : bs.length = 32 + (dw w.desc 9 + 7) / 8 * 8 := by rw [hbs, length_pageRecord]
    have hfull := shipFull_spec rfl hclean ⟨hl, hpop, hfree, hwaits, harea⟩ hrun hstart hop hopen hsegs hpos hpage rfl hbs
      (by rw [hlen, ← Nat.add_assoc]; exact hroom) (by rw [hlen, ← Nat.add_assoc]; exact hfit)
    obtain ⟨u, hu, hrecord, hcount, hship, hwindow⟩ := hfull
    obtain ⟨hstep, hmixed⟩ := freshShipping_full (s.advance t) w
    refine ⟨u, hu, ?_, ?_, hship, hwindow⟩
    · rw [hlen] at hrecord
      rw [← hstep, ← hmixed]
      exact hrecord.trans hbs
    · rw [Nat.add_assoc, ← hlen]
      exact hcount
  · intro t q i l r w x s
    dsimp only
    intro hrun hx hblocked hreading hread hlate hsegs hclean hl hpop hroom
    exact exportConsReread_spec rfl hclean hrun hx hblocked hreading hread hlate hsegs hl hpop rfl hroom

end Sys2Proof.Proofs
end

section
/-! PROOFS. Update programs: rows of 16-bit words and of a state layout, read from and written to idle memory. -/

namespace Sys2Proof.Proofs
open Sys2Proof Sys2Proof.Machine Sys2Proof.Laws

/-! ## Rows as functions of their position -/

theorem zipIdx_map_range {α : Type} (f : Nat → α) (n : Nat) :
    ((List.range n).map f).zipIdx = (List.range n).map (fun i => (f i, i)) := by
  refine List.ext_getElem (by simp) (fun i h _ => ?_)
  simp

/-- Element j of pieces of k elements each. -/
theorem getElem?_flatMap_pieces {α : Type} {f : Nat → List α} {k : Nat} (hk : 0 < k) (hf : ∀ b, (f b).length = k) (count j : Nat) :
    ((List.range count).flatMap f)[j]? = if j < k * count then (f (j / k))[j % k]? else none := by
  induction count with
  | zero => simp
  | succ count ih =>
    have hlen : ((List.range count).flatMap f).length = k * count := by simp [List.length_flatMap, hf, Nat.mul_comm]
    rw [List.range_succ, List.flatMap_append, List.flatMap_singleton, List.getElem?_append, hlen, ih, Nat.mul_succ]
    by_cases hj : j < k * count
    · rw [if_pos hj, if_pos hj, if_pos (by omega)]
    · rw [if_neg hj]
      by_cases hlt : j < k * count + k
      · have hdiv : j / k = count := Nat.div_eq_of_lt_le (by rw [Nat.mul_comm]; omega) (by rw [Nat.mul_comm, Nat.mul_succ]; omega)
        have hmod : j % k = j - k * count := by
          have := Nat.mod_add_div j k
          rw [hdiv] at this
          omega
        rw [if_pos hlt, hdiv, hmod]
      · rw [if_neg hlt, List.getElem?_eq_none (by rw [hf]; omega)]

/-- The first elements of pieces of k elements each, as a function of their position. -/
theorem take_flatMap_pieces {α : Type} (d : α) {f : Nat → List α} {k n count : Nat} (hk : 0 < k) (hf : ∀ b, (f b).length = k)
    (hn : n ≤ k * count) : ((List.range count).flatMap f).take n = (List.range n).map (fun j => (f (j / k)).getD (j % k) d) := by
  have hlen : ((List.range count).flatMap f).length = k * count := by simp [List.length_flatMap, hf, Nat.mul_comm]
  refine List.ext_getElem? (fun j => ?_)
  by_cases hj : j < n
  · have hlt : j % k < (f (j / k)).length := by
      rw [hf]
      exact Nat.mod_lt _ hk
    rw [List.getElem?_take_of_lt hj, getElem?_flatMap_pieces hk hf, if_pos (by omega), List.getElem?_map, List.getElem?_range hj,
      List.getElem?_eq_getElem hlt]
    simp [List.getD, List.getElem?_eq_getElem hlt]
  · rw [List.getElem?_eq_none (by rw [List.length_take]; omega), List.getElem?_eq_none (by simp; omega)]

/-! ## What idle memory reads (R20, R22, R170) -/

theorem Idle.row16 {s : State} (h : Idle s) (x n : Nat) : s.row16 x n = (List.range n).map (fun j => some (word16 s.mem (x + 2 * j))) := by
  have hclean (c : Nat) : s.poisonedAt c = false := by simp [State.poisonedAt, State.check, State.eccAt, h.ecc, mapGet]
  refine List.map_congr_left (fun j _ => ?_)
  simp [State.linePoisoned, hclean, State.readNat, h.readBytes, word16]

/-- Element (n, j) of a state layout in memory. -/
def momentIn (m : List Host.Cell) (x rows cols n j : Nat) : Machine.Num :=
  (decodeBlock .sq8e4 (leNat (memBytes m (x + rows * layoutElemStride cols + n * layoutScaleStride cols + j / 16) 1))
    (unpadded (cols - 16 * (j / 16)) (unpackElems 8 16 (leNat (memBytes m (x + n * layoutElemStride cols + 16 * (j / 16)) 16))))).getD
      (j % 16) .zero

theorem momentAt_eq (a : State) (x rows cols n j : Nat) : a.momentAt x rows cols n j = momentIn a.mem x rows cols n j := rfl

theorem Idle.stateRow {s : State} (h : Idle s) (x rows cols r : Nat) :
    (s.stateRow false x rows cols r).1 = (List.range cols).map (momentIn s.mem x rows cols r) := by
  unfold State.stateRow
  simp only [h.readPoisoned, Bool.or_false, Bool.false_eq_true, if_false, State.readNat, h.readBytes, List.flatMap_map]
  rw [take_flatMap_pieces .zero (k := 16) (by decide) (fun b => ?_) (by omega)]
  · rfl
  · simp [decodeBlock_length, unpadded, unpackElems]

/-! ## The rows of a state layout (R170) -/

/-- The bytes of row r of a state layout: its elements and its scales. -/
def InRow (x rows cols r y : Nat) : Prop :=
  (x + r * layoutElemStride cols ≤ y ∧ y < x + r * layoutElemStride cols + layoutElemStride cols) ∨
  (x + rows * layoutElemStride cols + r * layoutScaleStride cols ≤ y ∧
    y < x + rows * layoutElemStride cols + r * layoutScaleStride cols + layoutScaleStride cols)

theorem mul_add_le_mul {r n k : Nat} (h : r < n) : r * k + k ≤ n * k := by
  rw [← Nat.succ_mul]
  exact Nat.mul_le_mul_right k h

theorem InRow.bounds {x rows cols r y : Nat} (h : InRow x rows cols r y) (hr : r < rows) : x ≤ y ∧ y < x + layoutSize rows cols := by
  have helem := mul_add_le_mul (k := layoutElemStride cols) hr
  have hscale := mul_add_le_mul (k := layoutScaleStride cols) hr
  unfold InRow at h
  rw [layoutSize, Nat.mul_add]
  omega

/-- The rows of a layout do not meet. -/
theorem InRow.unique {x rows cols r n y : Nat} (h : InRow x rows cols r y) (g : InRow x rows cols n y) (hr : r < rows) (hn : n < rows) :
    r = n := by
  have hre := mul_add_le_mul (k := layoutElemStride cols) hr
  have hne := mul_add_le_mul (k := layoutElemStride cols) hn
  unfold InRow at h g
  obtain hlt | heq | hlt := Nat.lt_trichotomy r n
  · have he := mul_add_le_mul (k := layoutElemStride cols) hlt
    have hs := mul_add_le_mul (k := layoutScaleStride cols) hlt
    omega
  · exact heq
  · have he := mul_add_le_mul (k := layoutElemStride cols) hlt
    have hs := mul_add_le_mul (k := layoutScaleStride cols) hlt
    omega

theorem memBytes_congr {m m' : List Host.Cell} {x n : Nat} (h : ∀ y, x ≤ y → y < x + n → memGet m' y = memGet m y) :
    memBytes m' x n = memBytes m x n := by
  refine List.map_congr_left (fun i hi => h _ (Nat.le_add_right ..) ?_)
  have := List.mem_range.1 hi
  omega

/-- Elements are given by their row's bytes. -/
theorem momentIn_congr {m m' : List Host.Cell} {x rows cols r j : Nat} (hj : j < cols)
    (h : ∀ y, InRow x rows cols r y → memGet m' y = memGet m y) : momentIn m' x rows cols r j = momentIn m x rows cols r j := by
  have hscale : memBytes m' (x + rows * layoutElemStride cols + r * layoutScaleStride cols + j / 16) 1 =
      memBytes m (x + rows * layoutElemStride cols + r * layoutScaleStride cols + j / 16) 1 := by
    refine memBytes_congr (fun y hlo hhi => h y (.inr ⟨by omega, ?_⟩))
    have hsize : j / 16 < layoutScaleStride cols := by unfold layoutScaleStride; omega
    omega
  have helem : memBytes m' (x + r * layoutElemStride cols + 16 * (j / 16)) 16 = memBytes m (x + r * layoutElemStride cols + 16 * (j / 16)) 16 := by
    refine memBytes_congr (fun y hlo hhi => h y (.inl ⟨by omega, ?_⟩))
    have hsize : 16 * (j / 16) + 16 ≤ layoutElemStride cols := by unfold layoutElemStride; omega
    omega
  rw [momentIn, momentIn, hscale, helem]

end Sys2Proof.Proofs
end

section
/-! PROOFS. Update programs: what the stores of weights and moments write. -/

namespace Sys2Proof.Proofs
open Sys2Proof Sys2Proof.Machine Sys2Proof.Laws

/-! ## A program at work (R158, R172) -/

/-- A state that has gone on from another with idle memory, whose leases and registers are those of before and whose memory is given. -/
structure Works (a : State) (m : List Host.Cell) (u : State) : Prop where
  reg : ∀ {k : PageKind} {off : Nat}, Unturned k off → k ≠ .pod → u.reg (mPage k) off = a.reg (mPage k) off
  leases : u.leases = a.leases
  idle : Idle u
  mem : u.mem = m

namespace Works
variable {a u v : State} {m : List Host.Cell}

theorem of_steady (h : Steady a u) : Works a a.mem u where
  reg hk _ := h.on.reg hk
  leases := by
    have hl := congrArg State.leases h.on.afar
    exact hl
  idle := h.idle
  mem := h.mem

theorem of_writes (h : Works a m u) (hv : Writes u v) {m' : List Host.Cell} (hm : v.mem = m') : Works a m' v where
  reg hk hpod := (congrArg Prod.fst (hv.only.seen ⟨hk.evq, hk.fault⟩ hk.off)).trans (h.reg hk hpod)
  leases := by
    have hl := congrArg State.leases hv.only.beyond
    exact Eq.trans hl h.leases
  idle := hv.idle
  mem := hm

theorem noteReadBy (h : Works a m u) (via : Option (Nat × Nat)) (x n : Nat) : Works a m (u.noteReadBy via x n) :=
  h.of_writes ((Writes.refl h.idle).noteReadBy ..) ((h.idle.mem_noteReadBy ..).trans h.mem)

theorem startMends (h : Works a m u) : Works a m u.startMends where
  reg {k off} hk hpod := by
    refine ((Mended.startMends (s := u)).reg (mPage_slot_lt _) hk.off (fun he => hpod (kind_pod k he)) hk.evq).trans (h.reg hk hpod)
  leases := by
    have hl := congrArg State.leases (Mended.startMends (s := u)).unmended
    exact Eq.trans hl h.leases
  idle := by
    have he := congrArg State.ecc (Mended.startMends (s := u)).unmended
    have hs := congrArg State.stackUnits (Mended.startMends (s := u)).unmended
    exact h.idle.of_same he hs
  mem := (Mended.startMends (s := u)).mem.trans h.mem

theorem unturned_opt {off : Nat} (h : off < 4096) : Unturned .opt off :=
  ⟨by decide, by decide, by decide, fun h => by simp at h, fun h => by simp at h, h⟩

theorem unturned_exp {off : Nat} (h : off < 4096) : Unturned .exp off :=
  ⟨by decide, by decide, by decide, fun h => by simp at h, fun h => by simp at h, h⟩

theorem unturned_lease {off : Nat} (h : off < 4096) : Unturned .lease off :=
  ⟨by decide, by decide, by decide, fun h => by simp at h, fun h => by simp at h, h⟩

/-- Poisoned codewords and NaN are held back as before. -/
theorem hold (h : Works a m u) : u.bit (mPage .opt) Reg.OPT_OPT_CTL 0 = a.bit (mPage .opt) Reg.OPT_OPT_CTL 0 := by
  rw [State.bit, State.bit, num_of_reg (h.reg (unturned_opt (by decide)) (by decide))]

theorem exportActive (h : Works a m u) : u.exportActive = a.exportActive := by
  rw [State.exportActive, State.exportActive, State.bit, State.bit, num_of_reg (h.reg (unturned_exp (by decide)) (by decide))]

/-- A write that need not wait stores its bytes. -/
theorem memPutBytes (h : Works a m u) (ha : Idle a) (hw : ∀ y n, a.writeWaits y n = false) (owner : Option (Nat × Nat × Nat)) (x : Nat)
    (bs : List Byte) : Works a (memPut m x bs) (u.memPutBytes owner x bs) := by
  have hgo : u.writeWaits x bs.length = false := by
    rw [writeWaits_of_leases h.leases (fun off hoff => h.reg (unturned_lease hoff) (by decide)) ha h.idle, hw]
  obtain ⟨hwrites, hmem⟩ := Writes.memPutBytes h.idle (.refl h.idle) owner hgo
  exact h.of_writes hwrites (by rw [hmem, h.mem])

end Works

/-! ## Stores of a row (R170, R173, R177) -/

section Stores
variable {a u : State} {m : List Host.Cell} (ha : Idle a) (hw : ∀ y n, a.writeWaits y n = false) (hu : Works a m u)
include ha hw hu

/-- What is stored of a row of moments lies in the row. -/
theorem putStateRow_works (owner : Nat × Nat × Nat) (x rows cols r : Nat) {vs : List Machine.Num} (hvs : vs.length ≤ cols) (rnd : Nat → Rnd)
    (y : Tally) : ∃ m', Works a m' (u.putStateRow owner x rows cols r vs rnd y).1 ∧
      ∀ z, ¬ InRow x rows cols r z → memGet m' z = memGet m z := by
  have hchunks : (chunks 16 vs).length ≤ (cols + 15) / 16 := by
    have := chunks_length_le (n := 16) (by decide) vs
    omega
  unfold State.putStateRow
  dsimp only
  refine ⟨_, (hu.memPutBytes ha hw _ _ _).memPutBytes ha hw _ _ _, fun z hz => ?_⟩
  unfold InRow layoutElemStride layoutScaleStride at hz
  rw [memGet_put_other, memGet_put_other]
  · simp only [List.length_flatMap, leBytes_length, List.map_const', List.sum_replicate, List.length_map, List.length_zipIdx, smul_eq_mul]
    unfold layoutElemStride
    omega
  · simp only [padTo, List.length_append, List.length_replicate, List.length_flatMap, leBytes_length, List.map_const', List.sum_replicate,
      List.length_map, List.length_zipIdx, smul_eq_mul]
    unfold layoutElemStride layoutScaleStride
    omega

/-- The bytes of a row of weights (R173). -/
def weightBytes (g : Program) (n : Nat) (w : Nat → Machine.Num) : List Byte :=
  (List.range g.p.cols).flatMap (fun j => leBytes 2 (convert16 (fmt16 (db g.d 0 8)) (.sr (draw g.key (4 * (n * g.p.cols + j)))) (w j)).code)

/-- Where no NaN is held and nothing is exported, a row of weights is stored whole. -/
theorem putWeights_works (hhold : a.bit (mPage .opt) Reg.OPT_OPT_CTL 0 = false) (hexport : a.exportActive = false)
    (owner : Nat × Nat × Nat) (g : Program) (n : Nat) (old : List (Option Nat)) (w : Nat → Machine.Num) (y : Tally) :
    Works a (memPut m (dq g.d 4 + n * g.p.wstride) (weightBytes g n w))
      (u.putWeights owner g n old ((List.range g.p.cols).map w) y).1 := by
  have hnone : u.bit (mPage .opt) Reg.OPT_OPT_CTL 0 = false := by rw [hu.hold, hhold]
  have hheld : (((List.range g.p.cols).map w).map (fun w => false && w.isNan)).any id = false := by simp
  have hbytes : ((((List.range g.p.cols).map w).zipIdx.map (fun p =>
      convert16 (fmt16 (db g.d 0 8)) (.sr (draw g.key (4 * (n * g.p.cols + p.2)))) p.1)).flatMap (fun c => leBytes 2 c.code)) =
      weightBytes g n w := by
    rw [zipIdx_map_range, List.map_map, List.flatMap_map]
    rfl
  have hput := hu.memPutBytes ha hw (some owner) (dq g.d 4 + n * g.p.wstride) (weightBytes g n w)
  unfold State.putWeights
  dsimp only
  simp only [hnone]
  rw [hheld, if_neg Bool.false_ne_true, hbytes, State.putDiff, State.writesDiff, hput.exportActive, hexport, Bool.false_and,
    if_neg Bool.false_ne_true]
  exact hput

end Stores

end Sys2Proof.Proofs
end

section
/-! PROOFS. Update programs of one row: ADAMW, SGDM and CUSTOM. -/

namespace Sys2Proof.Proofs
open Sys2Proof Sys2Proof.Machine Sys2Proof.Laws

theorem length_weightBytes (g : Program) (n : Nat) (w : Nat → Machine.Num) : (weightBytes g n w).length = 2 * g.p.cols := by
  simp [weightBytes, List.length_flatMap, leBytes_length, Nat.mul_comm]

/-- A weight that is stored is its rounded code. -/
theorem word16_weightBytes (m : List Host.Cell) (x : Nat) (g : Program) (n : Nat) (w : Nat → Machine.Num) {j : Nat} (hj : j < g.p.cols) :
    word16 (memPut m x (weightBytes g n w)) (x + 2 * j) =
      (convert16 (fmt16 (db g.d 0 8)) (.sr (draw g.key (4 * (n * g.p.cols + j)))) (w j)).code % 65536 := by
  rw [word16, weightBytes, memBytes_memPut_pieces (fun i => leBytes_length _ _) _ _ hj, leNat_leBytes]
  rfl

/-! ## One row (R174, R176, R178) -/

/-- The code of weight (n, j). -/
def codeAt (m : List Host.Cell) (g : Program) (n j : Nat) : Nat :=
  if g.prog = 15 ∧ dq g.d 4 = 0 then 0 else word16 m (dq g.d 4 + n * g.p.wstride + 2 * j)

/-- Gradient (n, j). -/
def gradAt (m : List Host.Cell) (g : Program) (n j : Nat) : Machine.Num :=
  if g.prog = 15 ∧ dq g.d 6 = 0 then .zero else decodeElem (fmt16 (db g.d 0 9)) (word16 m (dq g.d 6 + n * g.p.gstride + 2 * j))

/-- First moment (n, j). -/
def firstAt (m : List Host.Cell) (g : Program) (n : Nat) : Nat → Machine.Num := fun j =>
  if g.prog = 15 ∧ dq g.d 8 = 0 then .zero else momentIn m (dq g.d 8) g.p.rows g.p.cols n j

/-- Second moment (n, j). -/
def secondAt (m : List Host.Cell) (g : Program) (n : Nat) : Nat → Machine.Num := fun j =>
  if g.prog = 3 ∨ (g.prog = 15 ∧ dq g.d 10 = 0) then .zero else momentIn m (dq g.d 10) g.p.rows g.p.cols n j

/-- What a program makes of an element. -/
def elemOf (g : Program) (x w m v : Machine.Num) : Elem :=
  if g.prog = 15 then customElem g x w m v
  else if g.prog = 3 then { w := some (sgdm g.k x w m).1, m := some (sgdm g.k x w m).2, v := none }
  else { w := some (adamw g.k x w m v).1, m := some (adamw g.k x w m v).2.1, v := some (adamw g.k x w m v).2.2 }

/-- What a program makes of element (n, j). -/
def elemAt (m : List Host.Cell) (g : Program) (n : Nat) : Nat → Elem := fun j =>
  elemOf g (gradAt m g n j) (decodeElem (fmt16 (db g.d 0 8)) (codeAt m g n j)) (firstAt m g n j) (secondAt m g n j)

section Reads
variable {u : State} (hu : Idle u)
include hu

theorem gradRow_eq (g : Program) (n : Nat) : (u.gradRow g n).1 = (List.range g.p.cols).map (gradAt u.mem g n) := by
  unfold State.gradRow gradAt
  dsimp only
  split
  · simp
  · simp only [hu.row16, List.map_map, Function.comp_def]

theorem weightRow_eq (g : Program) (n : Nat) : u.weightRow g n = (List.range g.p.cols).map (fun j => some (codeAt u.mem g n j)) := by
  unfold State.weightRow codeAt
  split
  · simp
  · exact hu.row16 ..

theorem momentRow_eq (x rows cols n : Nat) {c : Prop} [Decidable c] :
    (if c then (List.replicate cols Machine.Num.zero, 0) else u.stateRow false x rows cols n).1 =
      (List.range cols).map (fun j => if c then .zero else momentIn u.mem x rows cols n j) := by
  split
  · simp
  · exact hu.stateRow ..

end Reads

theorem unlessHeld_length_le (held : List Bool) (new old : List Machine.Num) : (unlessHeld held new old).length ≤ new.length := by
  simp only [unlessHeld, List.length_map, List.length_zip, List.length_append, List.length_replicate]
  omega

/-- A row's weights, then its moments, are stored, each where the row's elements have some. -/
def storeElems (u : State) (owner : Nat × Nat × Nat) (g : Program) (n : Nat) (old : List (Option Nat)) (out : List Elem)
    (ms vs : List Machine.Num) (y : Tally) : State × Tally :=
  let r := if out.any (fun e => e.w.isSome) then u.putWeights owner g n old (out.map (fun e => e.w.getD .zero)) y
    else (u.putDiff owner g n (old.map (fun _ => 0)), y, out.map (fun _ => false))
  let a := if out.any (fun e => e.m.isSome) then
      r.1.putStateRow owner (dq g.d 8) g.p.rows g.p.cols n (unlessHeld r.2.2 (out.map (fun e => e.m.getD .zero)) ms)
        (fun i => momentRnd g (4 * (n * g.p.cols + i) + 1)) r.2.1
    else (r.1, r.2.1)
  if out.any (fun e => e.v.isSome) then
    a.1.putStateRow owner (dq g.d 10) g.p.rows g.p.cols n (unlessHeld r.2.2 (out.map (fun e => e.v.getD .zero)) vs)
      (fun i => momentRnd g (4 * (n * g.p.cols + i) + 2)) a.2
  else a

/-- The first and second moments of a row. -/
def firstRow (u : State) (g : Program) (n : Nat) : List Machine.Num × Nat :=
  if g.prog = 15 ∧ dq g.d 8 = 0 then (List.replicate g.p.cols .zero, 0) else u.stateRow g.fresh (dq g.d 8) g.p.rows g.p.cols n
@[inherit_doc firstRow] def secondRow (u : State) (g : Program) (n : Nat) : List Machine.Num × Nat :=
  if g.prog = 3 ∨ (g.prog = 15 ∧ dq g.d 10 = 0) then (List.replicate g.p.cols .zero, 0)
  else u.stateRow g.fresh (dq g.d 10) g.p.rows g.p.cols n

/-- What a program makes of the elements of a row. -/
def rowElems (u : State) (g : Program) (n : Nat) : List Elem :=
  (((u.gradRow g n).1.zip ((List.range g.p.cols).map (fun j => decodeElem (fmt16 (db g.d 0 8)) (codeAt u.mem g n j)))).zip
    ((firstRow u g n).1.zip (secondRow u g n).1)).map (fun e => elemOf g e.1.1 e.1.2 e.2.1 e.2.2)

theorem updateRow_eq {u : State} (hu : Idle u) (g : Program) (owner : Nat × Nat × Nat) (n : Nat) (y : Tally) :
    (u.updateRow owner g n y).1 =
      (storeElems u owner g n (u.weightRow g n) (rowElems u g n) (firstRow u g n).1 (secondRow u g n).1 y).1 := by
  unfold State.updateRow storeElems rowElems firstRow secondRow elemOf
  dsimp only
  simp only [weightRow_eq hu, List.map_map, Function.comp_def]

theorem rowElems_eq {u : State} (hu : Idle u) {g : Program} (hfresh : g.fresh = false) (n : Nat) :
    rowElems u g n = (List.range g.p.cols).map (elemAt u.mem g n) := by
  unfold rowElems firstRow secondRow
  rw [gradRow_eq hu, hfresh, momentRow_eq hu, momentRow_eq hu, List.zip_map', List.zip_map', List.zip_map', List.map_map]
  rfl

section Row
variable {a u : State} {m : List Host.Cell} {g : Program} (ha : Idle a) (hw : ∀ y n, a.writeWaits y n = false)
include ha hw

/-- What is stored of a row but its weights lies in the layouts of its moments. -/
theorem storeMoments_works (owner : Nat × Nat × Nat) {n : Nat} (hn : n < g.p.rows) {r : State × Tally × List Bool} (hr : Works a m r.1)
    {e : Nat → Elem} (ms vs : List Machine.Num) {p : State × Tally}
    (hp : p = if ((List.range g.p.cols).map e).any (fun e => e.m.isSome) then
      r.1.putStateRow owner (dq g.d 8) g.p.rows g.p.cols n (unlessHeld r.2.2 (((List.range g.p.cols).map e).map (fun e => e.m.getD .zero)) ms)
        (fun i => momentRnd g (4 * (n * g.p.cols + i) + 1)) r.2.1 else (r.1, r.2.1)) {b : State × Tally}
    (hb : b = if ((List.range g.p.cols).map e).any (fun e => e.v.isSome) then
      p.1.putStateRow owner (dq g.d 10) g.p.rows g.p.cols n (unlessHeld r.2.2 (((List.range g.p.cols).map e).map (fun e => e.v.getD .zero)) vs)
        (fun i => momentRnd g (4 * (n * g.p.cols + i) + 2)) p.2 else p) :
    ∃ m', Works a m' b.1 ∧ ∀ x k, Apart x k (dq g.d 8) (layoutSize g.p.rows g.p.cols) →
      ((∃ j, (e j).v ≠ none) → Apart x k (dq g.d 10) (layoutSize g.p.rows g.p.cols)) → memBytes m' x k = memBytes m x k := by
  have hlen {f : Elem → Machine.Num} (held : List Bool) (old : List Machine.Num) :
      (unlessHeld held (((List.range g.p.cols).map e).map f) old).length ≤ g.p.cols :=
    (unlessHeld_length_le ..).trans (by simp)
  obtain ⟨m₁, hmoments, hkept⟩ : ∃ m₁, Works a m₁ p.1 ∧ ∀ z, ¬ InRow (dq g.d 8) g.p.rows g.p.cols n z → memGet m₁ z = memGet m z := by
    rw [hp]
    split
    · exact putStateRow_works ha hw hr owner _ _ _ _ (hlen _ _) _ _
    · exact ⟨_, hr, fun _ _ => rfl⟩
  have hfirst {x k : Nat} (h : Apart x k (dq g.d 8) (layoutSize g.p.rows g.p.cols)) : memBytes m₁ x k = memBytes m x k :=
    memBytes_congr (fun z hlo hhi => hkept z (fun hz => by have := hz.bounds hn; omega))
  rw [hb]
  split
  · next hv =>
    obtain ⟨_, he, hsome⟩ := List.any_eq_true.1 hv
    obtain ⟨j, -, rfl⟩ := List.mem_map.1 he
    obtain ⟨m₂, hdone, hkept₂⟩ := putStateRow_works ha hw hmoments owner (dq g.d 10) g.p.rows g.p.cols n (hlen r.2.2 vs)
      (fun i => momentRnd g (4 * (n * g.p.cols + i) + 2)) p.2
    refine ⟨m₂, hdone, fun x k h₁ h₂ => ?_⟩
    have hapart := h₂ ⟨j, fun h => by rw [h] at hsome; exact absurd hsome (by decide)⟩
    rw [← hfirst h₁]
    exact memBytes_congr (fun z hlo hhi => hkept₂ z (fun hz => by have := hz.bounds hn; omega))
  · exact ⟨m₁, hmoments, fun x k h₁ _ => hfirst h₁⟩

/-- Where an element of a row has a weight to store, each weight of the row is stored. -/
theorem storeElems_works (hhold : a.bit (mPage .opt) Reg.OPT_OPT_CTL 0 = false) (hexport : a.exportActive = false) (hu : Works a m u)
    (owner : Nat × Nat × Nat) {n : Nat} (old : List (Option Nat)) {e : Nat → Elem} (ms vs : List Machine.Num)
    (y : Tally) (hn : n < g.p.rows)
    (hfirst : Apart (dq g.d 4 + n * g.p.wstride) (2 * g.p.cols) (dq g.d 8) (layoutSize g.p.rows g.p.cols))
    (hsecond : (∃ j, (e j).v ≠ none) → Apart (dq g.d 4 + n * g.p.wstride) (2 * g.p.cols) (dq g.d 10) (layoutSize g.p.rows g.p.cols)) :
    ∃ m', Works a m' (storeElems u owner g n old ((List.range g.p.cols).map e) ms vs y).1 ∧ ∀ j x, j < g.p.cols → (e j).w = some x →
      word16 m' (dq g.d 4 + n * g.p.wstride + 2 * j) =
        (convert16 (fmt16 (db g.d 0 8)) (.sr (draw g.key (4 * (n * g.p.cols + j)))) x).code % 65536 := by
  obtain ⟨r, hr⟩ : ∃ r, r = if ((List.range g.p.cols).map e).any (fun e => e.w.isSome) then
      u.putWeights owner g n old (((List.range g.p.cols).map e).map (fun e => e.w.getD .zero)) y
    else (u.putDiff owner g n (old.map (fun _ => 0)), y, ((List.range g.p.cols).map e).map (fun _ => false)) := ⟨_, rfl⟩
  obtain ⟨m₀, hweights, hwords⟩ : ∃ m₀, Works a m₀ r.1 ∧ ∀ j x, j < g.p.cols → (e j).w = some x →
      word16 m₀ (dq g.d 4 + n * g.p.wstride + 2 * j) =
        (convert16 (fmt16 (db g.d 0 8)) (.sr (draw g.key (4 * (n * g.p.cols + j)))) x).code % 65536 := by
    rw [hr]
    split
    · rw [List.map_map]
      refine ⟨_, putWeights_works ha hw hu hhold hexport owner g n old (fun j => (e j).w.getD .zero) y, fun j x hj hx => ?_⟩
      have hword := word16_weightBytes m (dq g.d 4 + n * g.p.wstride) g n (fun j => (e j).w.getD .zero) hj
      rwa [hx, Option.getD_some] at hword
    · next hnone =>
      rw [State.putDiff, State.writesDiff, hu.exportActive, hexport, Bool.false_and, if_neg Bool.false_ne_true]
      refine ⟨m, hu, fun j x hj hx => absurd (List.any_eq_true.2 ⟨_, List.mem_map_of_mem (List.mem_range.2 hj), ?_⟩) hnone⟩
      rw [hx]
      rfl
  obtain ⟨m', hdone, hkept⟩ := storeMoments_works ha hw owner hn hweights (e := e) ms vs rfl rfl
  refine ⟨m', ?_, fun j x hj hx => ?_⟩
  · rw [hr] at hdone
    exact hdone
  · rw [← hwords j x hj hx]
    exact congrArg leNat (hkept _ _ (by omega) (fun h => by have := hsecond h; omega))

end Row

/-! ## A program of one row -/

/-- What a program does to its weights and moments. -/
def programRun (u : State) (owner : Nat × Nat × Nat) (g : Program) : State × Tally × Nat × Bool :=
  if g.prog = 2 then u.updateFact owner g
  else (List.range g.p.rows).foldl (fun (a : State × Tally × Nat × Bool) k =>
    let b := a.1.updateRow owner g k a.2.1
    (b.1, b.2.1, a.2.2.1 + b.2.2.1, a.2.2.2 || b.2.2.2)) (u, {}, 0, false)

theorem elemOf_v_of_sgdm {g : Program} (h : g.prog = 3) (x w m v : Machine.Num) : (elemOf g x w m v).v = none := by
  rw [elemOf, if_neg (by rw [h]; decide), if_pos h]

/-- The weights of a program of one row. -/
theorem programRun_row {a u : State} {g : Program} (ha : Idle a) (hw : ∀ y n, a.writeWaits y n = false)
    (hhold : a.bit (mPage .opt) Reg.OPT_OPT_CTL 0 = false) (hexport : a.exportActive = false) (hfresh : g.fresh = false)
    (hprog : g.prog ≠ 2) (hrows : g.p.rows = 1) (hfirst : Apart (dq g.d 4) (2 * g.p.cols) (dq g.d 8) (layoutSize 1 g.p.cols))
    (hsecond : g.prog ≠ 3 → Apart (dq g.d 4) (2 * g.p.cols) (dq g.d 10) (layoutSize 1 g.p.cols)) (hu : Works a a.mem u)
    (owner : Nat × Nat × Nat) :
    ∃ m', Works a m' (programRun u owner g).1 ∧ ∀ j x, j < g.p.cols → (elemAt a.mem g 0 j).w = some x →
      word16 m' (dq g.d 4 + 2 * j) = (convert16 (fmt16 (db g.d 0 8)) (.sr (draw g.key (4 * j))) x).code % 65536 := by
  have hrun : (programRun u owner g).1 = (u.updateRow owner g 0 {}).1 := by
    rw [programRun, if_neg hprog, hrows]
    rfl
  have hrow : dq g.d 4 + 0 * g.p.wstride = dq g.d 4 := by omega
  obtain ⟨m', hdone, hwords⟩ := storeElems_works (g := g) (n := 0) ha hw hhold hexport hu owner (u.weightRow g 0) (e := elemAt a.mem g 0)
    (firstRow u g 0).1 (secondRow u g 0).1 {} (by omega) (by rw [hrow, hrows]; exact hfirst) (fun ⟨j, hj⟩ => by
      rw [hrow, hrows]
      exact hsecond (fun h => hj (elemOf_v_of_sgdm h ..)))
  refine ⟨m', ?_, fun j x hj hx => ?_⟩
  · rw [hrun, updateRow_eq hu.idle, rowElems_eq hu.idle hfresh, hu.mem]
    exact hdone
  · have hword := hwords j x hj hx
    rwa [hrow, Nat.zero_mul, Nat.zero_add] at hword

end Sys2Proof.Proofs
end

section
/-! PROOFS. Update programs: what starts one, and what its end leaves of memory. -/

namespace Sys2Proof.Proofs
open Sys2Proof Sys2Proof.Machine Sys2Proof.Laws

/-! ## The end of a program (R154, R173, R182) -/

/-- A state with idle memory, which is given, in which nothing is exported. -/
structure Kept (m : List Host.Cell) (u : State) : Prop where
  mem : u.mem = m
  exportActive : u.exportActive = false
  idle : Idle u

namespace Kept
variable {u : State} {m : List Host.Cell}

theorem exportActive_of_seen {v : State} (h : seen v (mPage .exp) Reg.EXP_EXP_STS = seen u (mPage .exp) Reg.EXP_EXP_STS) :
    v.exportActive = u.exportActive := by
  have hreg : v.reg (mPage .exp) Reg.EXP_EXP_STS = u.reg (mPage .exp) Reg.EXP_EXP_STS := congrArg Prod.fst h
  rw [State.exportActive, State.exportActive, State.bit, State.bit, num_of_reg hreg]

theorem addSat (h : Kept m u) {p : Page} {off : Nat} (n : Nat) (hp : p.slot < 4096) (ho : off < 4096) (hne : mPage .exp ≠ p) :
    Kept m (u.addSat p off n) where
  mem := (mem_of_ground (ground_addSat ..)).trans h.mem
  exportActive := (exportActive_of_seen
    (seen_addSat_other _ _ (page_reg_ne_of_page (mPage_slot_lt _) hp (by decide) ho hne))).trans h.exportActive
  idle := h.idle.addSat ..

theorem raiseIf (h : Kept m u) (c : Bool) {p : Page} (bit : Nat) (hp : p.slot < 4096) (hne : mPage .exp ≠ p) : Kept m (u.raiseIf c p bit) := by
  refine ⟨(raiseIf_mem ..).trans h.mem, (exportActive_of_seen ?_).trans h.exportActive, h.idle.raiseIf ..⟩
  unfold State.raiseIf
  split
  · exact seen_raise_beside _ _ ⟨fun _ ho => page_reg_ne_of_page (mPage_slot_lt _) hp (by decide) ho hne,
      offEvq_of_page (mPage_slot_lt _) (by decide) (by decide)⟩
  · rfl

theorem fault (h : Kept m u) (kind quarter unit subject detail bit : Nat) : Kept m (u.fault kind quarter unit subject detail bit) := by
  have hrecord : Kept m (u.faultRecord kind quarter unit subject detail) := by
    have hreg : (mPage .exp).reg Reg.EXP_EXP_STS ≠ (mPage .fault).reg Reg.FAULT_FREC_SEQ :=
      page_reg_ne_of_page (mPage_slot_lt _) (mPage_slot_lt _) (by decide) (by decide) (by decide)
    have hseen := seen_setNum_other (s := u) (u.num (mPage .fault) Reg.FAULT_FREC_SEQ + 1) hreg
    have hadded : Kept m (u.addWrap (mPage .fault) Reg.FAULT_FREC_SEQ 1) :=
      ⟨(addWrap_mem ..).trans h.mem, (exportActive_of_seen hseen).trans h.exportActive,
        h.idle.of_same (addWrap_ecc ..) (addWrap_stackUnits ..)⟩
    unfold State.faultRecord
    dsimp only
    generalize u.addWrap (mPage .fault) Reg.FAULT_FREC_SEQ 1 = v at hadded
    exact ⟨hadded.mem, hadded.exportActive, hadded.idle.of_same rfl rfl⟩
  exact hrecord.raiseIf true bit (mPage_slot_lt _) (by decide)

theorem train (h : Kept m u) (x : Train) : Kept m { u with train := x } := ⟨h.mem, h.exportActive, h.idle.of_same rfl rfl⟩

end Kept

/-- The counts and events of a program, and what the step notes of it. -/
def programNoted (q u : Nat) (w : WinEntry) (r : State × Tally × Nat × Bool) : State :=
  let n := 160 + u
  let page := qPage .ue q u
  let y := r.2.1
  let o := mPage .opt
  let s := ((r.1.addSat o Reg.OPT_HELD y.held).raiseIf (y.held != 0) o 0).addSat o Reg.OPT_SATURATED y.sat
  let s := (s.raiseIf y.satEvent page 1).raiseIf y.nanEvent page 2
  let s := if r.2.2.1 = 0 then s
    else (s.addSat (mPage .fault) Reg.FAULT_MOM_RESETS r.2.2.1).fault 0x09 q n s.selfId r.2.2.1 8
  let layer := df w.desc 1 0 12
  { s with train := { s.train with present := s.train.present ||| 2 ^ layer
                                   nz := if r.2.2.2 then s.train.nz ||| 2 ^ layer else s.train.nz } }

theorem exporter_ne_updater (q u : Nat) : mPage .exp ≠ qPage .ue q u := by
  intro h
  have hslot : 6 = 0x90 + u := congrArg Page.slot h
  omega

theorem programNoted_kept {m : List Host.Cell} (q u : Nat) (w : WinEntry) {r : State × Tally × Nat × Bool} (h : Kept m r.1) (hu : u < 4) :
    Kept m (programNoted q u w r) := by
  have hslot : (qPage .ue q u).slot < 4096 := by simp [qPage, PageKind.slotBase]; omega
  have hcounted : Kept m (((r.1.addSat (mPage .opt) Reg.OPT_HELD r.2.1.held).raiseIf (r.2.1.held != 0) (mPage .opt) 0).addSat
      (mPage .opt) Reg.OPT_SATURATED r.2.1.sat) :=
    ((h.addSat _ (mPage_slot_lt _) (by decide) (by decide)).raiseIf _ _ (mPage_slot_lt _) (by decide)).addSat _ (mPage_slot_lt _) (by decide)
      (by decide)
  have hraised := (hcounted.raiseIf r.2.1.satEvent 1 hslot (exporter_ne_updater q u)).raiseIf r.2.1.nanEvent 2 hslot (exporter_ne_updater q u)
  unfold programNoted
  refine Kept.train ?_ _
  split
  · exact hraised
  · exact (hraised.addSat _ (mPage_slot_lt _) (by decide) (by decide)).fault ..

/-- The end of a program: its counts, events and change, and its path time. -/
def programEnd (q u i : Nat) (w : WinEntry) (g : Program) (r : State × Tally × Nat × Bool) : State :=
  let s := programNoted q u w r
  let s := (s.updateWrites g).foldl (fun s r => (s.countWrites (some (portOf q (160 + u))) r.1 r.2).1) (s.listChange q g)
  s.finishEntry q (160 + u) i (s.now + 3 * updateTime g)

theorem programEnd_mem {m : List Host.Cell} (q u i : Nat) (w : WinEntry) (g : Program) {r : State × Tally × Nat × Bool} (h : Kept m r.1)
    (hu : u < 4) : (programEnd q u i w g r).mem = m := by
  have hnoted := programNoted_kept q u w h hu
  unfold programEnd
  generalize programNoted q u w r = s at hnoted
  have hlist : s.listChange q g = s := by
    unfold State.listChange
    dsimp only
    rw [hnoted.exportActive, Bool.not_false, Bool.true_or, if_pos rfl]
  dsimp only
  rw [mem_finishEntry, hlist]
  exact (List.foldlRecOn (motive := fun t : State => Idle t ∧ t.mem = m) _ _ ⟨hnoted.idle, hnoted.mem⟩
    (fun t ht r _ => ⟨(ht.1.countWrites ..).1, (ht.1.countWrites ..).2.trans ht.2⟩)).2

/-- What a program reads is counted, and page mends begin. -/
def programReads (s : State) (q u : Nat) (g : Program) : State :=
  ((updateReads g).foldl (fun s r => s.noteReadBy (some (portOf q (160 + u))) r.1 r.2) s).startMends

theorem performUpdate_eq {s : State} {q u i : Nat} {w : WinEntry} (himage : s.imageBlocked q w.desc = false)
    (hwhole : s.weightsPoisoned (s.programOf q w) = false) :
    s.performUpdate q u i w = programEnd q u i w (s.programOf q w) (programRun ((programReads s q u (s.programOf q w)).raiseIf
      ((updateReads (s.programOf q w)).any (fun r => s.readPoisoned r.1 r.2)) (qPage .ue q u) 3) (q, 160 + u, w.seq) (s.programOf q w)) := by
  unfold State.performUpdate
  change (if s.imageBlocked q w.desc = true then _ else _) = _
  rw [if_neg (by rw [himage]; decide)]
  change (if s.weightsPoisoned (s.programOf q w) = true then _ else _) = _
  rw [if_neg (by rw [hwhole]; decide)]
  rfl

/-- A program that reads no poison and waits for no image stores what it runs, and nothing else. -/
theorem performUpdate_mem {a u : State} {q k i : Nat} {w : WinEntry} (hu : Works a a.mem u) (hexport : a.exportActive = false) (hk : k < 4)
    (hrun : ∀ v, Works a a.mem v → ∃ m', Works a m' (programRun v (q, 160 + k, w.seq) (u.programOf q w)).1) :
    ∃ v, Works a a.mem v ∧ (u.performUpdate q k i w).mem = (programRun v (q, 160 + k, w.seq) (u.programOf q w)).1.mem := by
  have himage : u.imageBlocked q w.desc = false := by
    rw [State.imageBlocked, hu.exportActive, hexport, Bool.false_and, Bool.false_and]
  have hwhole : u.weightsPoisoned (u.programOf q w) = false := by
    rw [State.weightsPoisoned, List.any_eq_false]
    intro n _
    simp [hu.idle.readPoisoned]
  have hclean : (updateReads (u.programOf q w)).any (fun r => u.readPoisoned r.1 r.2) = false := by
    rw [List.any_eq_false]
    intro r _
    rw [hu.idle.readPoisoned]
    decide
  have hread : Works a a.mem (programReads u q k (u.programOf q w)) :=
    (List.foldlRecOn (motive := Works a a.mem) _ _ hu (fun t ht r _ => ht.noteReadBy ..)).startMends
  obtain ⟨m', hdone⟩ := hrun _ hread
  refine ⟨_, hread, ?_⟩
  rw [performUpdate_eq himage hwhole, hclean, State.raiseIf, if_neg Bool.false_ne_true]
  exact (programEnd_mem q k i w _ ⟨hdone.mem, hdone.exportActive.trans hexport, hdone.idle⟩ hk).trans hdone.mem.symm

/-! ## The start of a program (R120, R150, R171, R172) -/

theorem quarter_of_startable_ue {s : State} {q k i : Nat} {w : WinEntry} (hk : k < 4) (h : s.startable q (160 + k) = some (i, w)) : q < 4 := by
  obtain ⟨hwork, -⟩ := startable_eq h
  have hpage : s.queuePage q (160 + k) = qPage .ue q k := by
    obtain rfl | rfl | rfl | rfl : k = 0 ∨ k = 1 ∨ k = 2 ∨ k = 3 := by omega
    · rfl
    · rfl
    · rfl
    · rfl
  rw [hpage] at hwork
  by_contra hq
  have hkind : (qPage .ue q k).kind = none := by
    unfold Page.kind
    rw [if_neg (show ¬ (qPage .ue q k).win < 4 from hq)]
    obtain rfl | rfl | rfl | rfl : k = 0 ∨ k = 1 ∨ k = 2 ∨ k = 3 := by omega
    all_goals
      split <;> rfl
  simp [State.working, hkind] at hwork

/-- The state in which a program performs: its entry has started, and the step's update phase. -/
def programStarted (a : State) (q k i : Nat) (w : WinEntry) : State :=
  ((a.noteReadBy (some (portOf q (160 + k))) (a.lrAddr (paramOf w.got)) 4).startEntry q (160 + k) i w).phaseStart 4

section Start
variable {a : State} {q k i : Nat} {w : WinEntry} (ha : Idle a)
include ha

theorem steady_programStarted : Steady a (programStarted a q k i w) := by
  have hread : Steady a (a.noteReadBy (some (portOf q (160 + k))) (a.lrAddr (paramOf w.got)) 4) := .noteReadBy ha ..
  have hstart := hread.trans (steady_startEntry hread.idle q (160 + k) i w)
  refine hstart.trans ⟨.phaseStart 4 (by decide), hstart.idle.of_same ?_ ?_, mem_of_ground (ground_phaseStart ..)⟩
  · exact ecc_of_ground (ground_phaseStart ..)
  · exact congrArg Rest.stackUnits (rest_phaseStart ..)

omit ha in
theorem salt_noteReadBy (hq : q < 4) (via : Option (Nat × Nat)) (x n : Nat) : (a.noteReadBy via x n).salt q = a.salt q := by
  have hseen := ((OnlyMemory.refl a).noteReadBy via x n).seen (k := .rng) (off := Reg.RNG_SALT_Qq + 4 * q) ⟨by decide, by decide⟩
    (by unfold Reg.RNG_SALT_Qq; omega)
  have hchange : (a.noteReadBy via x n).change (mPage .rng) (Reg.RNG_SALT_Qq + 4 * q) = a.change (mPage .rng) (Reg.RNG_SALT_Qq + 4 * q) :=
    congrArg Prod.snd hseen
  rw [State.salt, State.salt, State.field, State.field, num_of_reg (congrArg Prod.fst hseen), hchange]

/-- The entry of a program that performs holds its learning rate behind what its fetch read. -/
theorem entry_programStarted (hq : q < 4) (hi : i < (a.queue q (160 + k)).window.length) :
    ∃ v, ((programStarted a q k i w).queue q (160 + k)).window[i]? = some v ∧
      { v with next := 0, got := padTo 256 0 v.got ++ (programStarted a q k i w).readBytes (a.lrAddr (paramOf w.got)) 4 } =
        a.startsUpdate q w := by
  obtain ⟨b, hb⟩ : ∃ b, b = a.noteReadBy (some (portOf q (160 + k))) (a.lrAddr (paramOf w.got)) 4 := ⟨_, rfl⟩
  have hread : Steady a b := by rw [hb]; exact .noteReadBy ha ..
  have hqueue : b.queue q (160 + k) = a.queue q (160 + k) := by
    rw [hb]
    exact queue_of_units (congrArg Ground.units (ha.ground_noteReadBy ..)) ..
  have hnow : b.now = a.now := by
    have hn := congrArg State.now hread.on.afar
    exact hn
  have hsalt : b.salt q = a.salt q := by rw [hb]; exact salt_noteReadBy hq ..
  refine ⟨started b q w, ?_, ?_⟩
  · rw [programStarted, ← hb, queue_of_units (congrArg Ground.units (ground_phaseStart ..)), queue_startEntry, hqueue]
    exact List.getElem?_set_self hi
  · rw [(steady_programStarted ha).idle.readBytes, (steady_programStarted ha).mem, started, hnow, hsalt, attempt_of_onward hread.on]
    rfl

omit ha in
theorem programOf_of_steady {u : State} (h : Steady a u) (q : Nat) (w : WinEntry) : u.programOf q w = a.programOf q w := by
  have hstep {off : Nat} (ho : off < Reg.STEP_PTp_START_LO) : u.reg (mPage .step) off = a.reg (mPage .step) off := h.on.reg (unturned_step ho)
  have hrng {off : Nat} (ho : off < 4096) : u.reg (mPage .rng) off = a.reg (mPage .rng) off :=
    h.on.reg ⟨by decide, by decide, by decide, fun h => by simp at h, fun h => by simp at h, ho⟩
  have htake : u.train.takeUp = a.train.takeUp := by
    have ht := congrArg (fun s : State => s.train.takeUp) h.on.afar
    exact ht
  have hcommitted : u.committed = a.committed := by
    rw [State.committed, State.committed, State.num64, State.num64, num_of_reg (hstep (by decide)), num_of_reg (hstep (by decide))]
  unfold State.programOf State.scalars State.keyOfEntry State.num64
  rw [htake, hcommitted, attempt_of_onward h.on, hstep (by decide), num_of_reg (hrng (by decide)), num_of_reg (hrng (by decide))]

end Start

/-- A program that may start stores what it runs, and nothing else. -/
theorem runUpdate_mem {a : State} {q k i prog : Nat} {w : WinEntry} (ha : Idle a) (hk : k < 4) (hstep : a.stepState ∈ [3, 5, 6, 7])
    (hidle : ∀ v ∈ (a.queue q (160 + k)).window, v.status ≠ .running) (hstart : a.startable q (160 + k) = some (i, w))
    (hprog : df w.desc 0 4 4 = prog) (hexport : a.exportActive = false) (hleases : a.leases.writes = [])
    (hpath : (a.queue q (160 + k)).pathEnd ≤ a.now)
    (hrun : ∀ v owner, Works a a.mem v → ∃ m', Works a m' (programRun v owner (a.programOf q (a.startsUpdate q w))).1) :
    ∃ v owner, Works a a.mem v ∧ (a.runUpdate q k prog).mem = (programRun v owner (a.programOf q (a.startsUpdate q w))).1.mem := by
  have hq := quarter_of_startable_ue hk hstart
  obtain ⟨hi, -⟩ := List.getElem?_eq_some_iff.1 (startable_eq hstart).2
  obtain ⟨v, hv, hentry⟩ := entry_programStarted (w := w) ha hq hi
  have hstarted := steady_programStarted (q := q) (k := k) (i := i) (w := w) ha
  have hmend : (a.queue q (160 + k)).window[(a.queue q (160 + k)).window.findIdx (fun w => w.status == .running && w.next == 2)]? = none := by
    rw [List.getElem?_eq_none_iff, List.findIdx_eq_length_of_false]
    intro v hv
    rw [beq_false_of_ne (hidle v hv), Bool.false_and]
  have hquiet : (a.queue q (160 + k)).window.any (fun w => w.status == .running) = false := by
    rw [List.any_eq_false]
    intro v hv
    simpa using hidle v hv
  have hopen : k < 4 ∧ (a.stepState = 3 ∨ a.stepState = 5 ∨ a.stepState = 6 ∨ a.stepState = 7) ∧
      (!(a.queue q (160 + k)).window.any (fun w => w.status == .running)) = true ∧ (a.queue q (160 + k)).pathEnd ≤ a.now ∧
      (!a.leases.writes.any (fun w => w.owner.any (fun o => o.1 == q && o.2.1 == 160 + k))) = true := by
    refine ⟨hk, by simpa using hstep, by rw [hquiet]; rfl, hpath, by rw [hleases]; rfl⟩
  have hmem : a.runUpdate q k prog = (programStarted a q k i w).performUpdate q k i (a.startsUpdate q w) := by
    unfold State.runUpdate
    dsimp only
    rw [hmend]
    dsimp only
    rw [if_pos hopen, hstart]
    dsimp only
    rw [if_neg (fun h => h hprog), ha.readPoisoned, if_neg Bool.false_ne_true]
    rw [programStarted] at hv
    rw [hv, ← hentry]
    rfl
  have hprogram := programOf_of_steady hstarted q (a.startsUpdate q w)
  obtain ⟨v', hv', hdone⟩ := performUpdate_mem (i := i) (w := a.startsUpdate q w) (q := q) (k := k) (.of_steady hstarted) hexport hk
    (by rw [hprogram]; exact fun v hv => hrun v _ hv)
  rw [hprogram] at hdone
  exact ⟨v', _, hv', by rw [hmem, hdone]⟩

end Sys2Proof.Proofs
end

section
/-! PROOFS. Update programs: factored ADAMW over all its rows. -/

namespace Sys2Proof.Proofs
open Sys2Proof Sys2Proof.Machine Sys2Proof.Laws

/-! ## The two passes of factored ADAMW (R175) -/

/-- The gradient's rows, their squares, the new row and column means, and the mean of the former. -/
def factGrads (s : State) (g : Program) : List (List Machine.Num × Bool) := (List.range g.p.rows).map (fun n => s.gradRow g n)
@[inherit_doc factGrads] def factSquares (s : State) (g : Program) : List (List Machine.Num) :=
  (factGrads s g).map (fun r => r.1.map (fun e => let h := fMul e g.k.c; fMul h h))
@[inherit_doc factGrads] def factRows (s : State) (g : Program) : List Machine.Num :=
  ((s.stateRow g.fresh (dq g.d 10) 1 g.p.rows 0).1.zip ((factSquares s g).map (fun r => r.foldl fAdd .zero))).map
    (fun e => fAdd (fMul g.k.beta2 e.1) (fMul g.k.omb2 (fDiv e.2 (.fin false g.p.cols 0))))
@[inherit_doc factGrads] def factCols (s : State) (g : Program) : List Machine.Num :=
  ((s.stateRow g.fresh (dq g.d 10 + layoutSize 1 g.p.rows) 1 g.p.cols 0).1.zip
    ((factSquares s g).foldl (fun a r => (a.zip r).map (fun e => fAdd e.1 e.2)) (List.replicate g.p.cols .zero))).map
    (fun e => fAdd (fMul g.k.beta2 e.1) (fMul g.k.omb2 (fDiv e.2 (.fin false g.p.rows 0))))
@[inherit_doc factGrads] def factMean (s : State) (g : Program) : Machine.Num :=
  fDiv ((factRows s g).foldl fAdd .zero) (.fin false g.p.rows 0)

/-- The weight and first moment of an element, from its gradient and old weight, and its old moment and column mean. -/
def factElem (g : Program) (mean row : Machine.Num) (e : (Machine.Num × Machine.Num) × (Machine.Num × Machine.Num)) :
    Machine.Num × Machine.Num :=
  let gh := fMul e.1.1 g.k.c
  let m1 := fAdd (fMul g.k.beta1 e.2.1) (fMul g.k.omb1 gh)
  let vh := if mean.isZero then .zero else fMul (fDiv (fMul row e.2.2) mean) g.k.b2
  (adamWeight g.k e.1.2 m1 vh, m1)

theorem factSquares_eq {s : State} (hs : Idle s) (g : Program) : factSquares s g = (List.range g.p.rows).map (fun n =>
    (List.range g.p.cols).map (fun j => fMul (fMul (gradAt s.mem g n j) g.k.c) (fMul (gradAt s.mem g n j) g.k.c))) := by
  unfold factSquares factGrads
  simp only [List.map_map, Function.comp_def, gradRow_eq hs]

/-- The sums of columns. -/
theorem foldl_columns (cols : Nat) (h : Nat → Nat → Machine.Num) (ns : List Nat) (z : Nat → Machine.Num) :
    (ns.map (fun n => (List.range cols).map (h n))).foldl (fun a r => (a.zip r).map (fun e => fAdd e.1 e.2)) ((List.range cols).map z) =
      (List.range cols).map (fun j => (ns.map (fun n => h n j)).foldl fAdd (z j)) := by
  induction ns generalizing z with
  | nil => rfl
  | cons n ns ih =>
    rw [List.map_cons, List.foldl_cons, List.zip_map', List.map_map]
    exact ih (fun j => fAdd (z j) (h n j))

section Means
variable {s : State} (hs : Idle s) {g : Program} (hfresh : g.fresh = false)
include hs hfresh

/-- The new mean of a row, and of a column. -/
theorem factRows_eq : factRows s g = (List.range g.p.rows).map (fun n =>
    fAdd (fMul g.k.beta2 (momentIn s.mem (dq g.d 10) 1 g.p.rows 0 n)) (fMul g.k.omb2 (fDiv (((List.range g.p.cols).map (fun j =>
      fMul (fMul (gradAt s.mem g n j) g.k.c) (fMul (gradAt s.mem g n j) g.k.c))).foldl fAdd .zero) (.fin false g.p.cols 0)))) := by
  unfold factRows
  rw [factSquares_eq hs, hfresh, hs.stateRow, List.map_map, List.zip_map', List.map_map]
  rfl

theorem factCols_eq : factCols s g = (List.range g.p.cols).map (fun j =>
    fAdd (fMul g.k.beta2 (momentIn s.mem (dq g.d 10 + layoutSize 1 g.p.rows) 1 g.p.cols 0 j)) (fMul g.k.omb2 (fDiv (((List.range g.p.rows).map
      (fun n => fMul (fMul (gradAt s.mem g n j) g.k.c) (fMul (gradAt s.mem g n j) g.k.c))).foldl fAdd .zero) (.fin false g.p.rows 0)))) := by
  have hzero : List.replicate g.p.cols Machine.Num.zero = (List.range g.p.cols).map (fun _ => Machine.Num.zero) := by simp
  unfold factCols
  rw [factSquares_eq hs, hfresh, hs.stateRow, hzero, foldl_columns, List.zip_map', List.map_map]
  rfl

end Means

theorem factRows_length {s : State} (hs : Idle s) {g : Program} (hfresh : g.fresh = false) : (factRows s g).length = g.p.rows := by
  rw [factRows_eq hs hfresh, List.length_map, List.length_range]

theorem factCols_length {s : State} (hs : Idle s) {g : Program} (hfresh : g.fresh = false) : (factCols s g).length = g.p.cols := by
  rw [factCols_eq hs hfresh, List.length_map, List.length_range]

theorem eq_map_getD {α : Type} (d : α) {l : List α} {n : Nat} (h : l.length = n) : l = (List.range n).map (fun j => l.getD j d) := by
  refine List.ext_getElem (by simpa using h) (fun j hj _ => ?_)
  simp [hj]

/-- What goes from row to row of the second pass: the state, the counts, and the elements held. -/
abbrev FactPass : Type := State × Tally × Nat × List (List Bool)

/-- A row of the second pass stores its weights and then its first moments. -/
def FactRow (s : State) (owner : Nat × Nat × Nat) (g : Program) (acc : FactPass) (n : Nat) (u : State) : Prop :=
  ∃ out : List (Machine.Num × Machine.Num), ∃ ms rnd,
    out.map Prod.fst = (List.range g.p.cols).map (fun j => (factElem g (factMean s g) ((factRows s g).getD n .nan)
      ((gradAt s.mem g n j, decodeElem (fmt16 (db g.d 0 8)) (codeAt acc.1.mem g n j)),
        (momentIn acc.1.mem (dq g.d 8) g.p.rows g.p.cols n j, (factCols s g).getD j .nan))).1) ∧
    let r := acc.1.putWeights owner g n (acc.1.weightRow g n) (out.map Prod.fst) acc.2.1
    u = (r.1.putStateRow owner (dq g.d 8) g.p.rows g.p.cols n (unlessHeld r.2.2 (out.map Prod.snd) ms) rnd r.2.1).1

theorem updateFact_shape {s : State} (hs : Idle s) {g : Program} (hfresh : g.fresh = false) (owner : Nat × Nat × Nat) :
    ∃ (f : FactPass → Nat → FactPass) (vs₁ vs₂ : List Machine.Num) (rnd₁ rnd₂ : Nat → Rnd) (y₁ y₂ : Tally),
      (s.updateFact owner g).1 = ((((List.range g.p.rows).foldl f (s, {}, 0, [])).1.putStateRow owner (dq g.d 10) 1 g.p.rows 0 vs₁ rnd₁
        y₁).1.putStateRow owner (dq g.d 10 + layoutSize 1 g.p.rows) 1 g.p.cols 0 vs₂ rnd₂ y₂).1 ∧
      vs₁.length ≤ g.p.rows ∧ vs₂.length ≤ g.p.cols ∧
      ∀ acc n, Idle acc.1 → n < g.p.rows → FactRow s owner g acc n (f acc n).1 := by
  unfold State.updateFact
  dsimp only
  refine ⟨_, _, _, _, _, _, _, rfl, ?_, ?_, fun acc n hacc hn => ?_⟩
  · exact (unlessHeld_length_le ..).trans (factRows_length hs hfresh).le
  · exact (unlessHeld_length_le ..).trans (factCols_length hs hfresh).le
  · unfold FactRow
    dsimp only
    refine ⟨_, _, _, ?_, rfl⟩
    change List.map Prod.fst (List.map (factElem g (factMean s g) ((factRows s g).getD n .nan))
      ((((factGrads s g).getD n ([], false)).1.zip _).zip (List.zip _ (factCols s g)))) = _
    have hgrad : (factGrads s g).getD n ([], false) = s.gradRow g n := by simp [factGrads, hn]
    rw [hgrad, gradRow_eq hs, weightRow_eq hacc, hfresh, hacc.stateRow]
    conv_lhs => rw [eq_map_getD .nan (factCols_length hs hfresh)]
    simp only [List.map_map, List.zip_map', Function.comp_def]

/-! ## Its stores (R170, R173, R175) -/

/-- The new weight (n, j), as memory was before the program. -/
def factWeight (s : State) (g : Program) (n j : Nat) : Machine.Num :=
  (factElem g (factMean s g) ((factRows s g).getD n .nan)
    ((gradAt s.mem g n j, decodeElem (fmt16 (db g.d 0 8)) (codeAt s.mem g n j)),
      (momentIn s.mem (dq g.d 8) g.p.rows g.p.cols n j, (factCols s g).getD j .nan))).1

/-- A byte of row r of the weights. -/
def InWeights (g : Program) (r y : Nat) : Prop := dq g.d 4 + r * g.p.wstride ≤ y ∧ y < dq g.d 4 + r * g.p.wstride + 2 * g.p.cols

/-- Rows before n of the second pass are stored, and every other byte is as it was. -/
structure FactStored (a s : State) (g : Program) (n : Nat) (u : State) (m : List Host.Cell) : Prop where
  works : Works a m u
  words : ∀ r j, r < n → j < g.p.cols → word16 m (dq g.d 4 + r * g.p.wstride + 2 * j) =
    (convert16 (fmt16 (db g.d 0 8)) (.sr (draw g.key (4 * (r * g.p.cols + j)))) (factWeight s g r j)).code % 65536
  others : ∀ y, (∀ r < n, ¬ InWeights g r y ∧ ¬ InRow (dq g.d 8) g.p.rows g.p.cols r y) → memGet m y = memGet s.mem y

theorem foldl_range_holds {σ : Type} {P : Nat → σ → Prop} {f : σ → Nat → σ} {s : σ} {N : Nat} (h : P 0 s)
    (hf : ∀ n acc, n < N → P n acc → P (n + 1) (f acc n)) : P N ((List.range N).foldl f s) := by
  induction N with
  | zero => exact h
  | succ N ih =>
    rw [List.range_succ, List.foldl_append]
    exact hf N _ (Nat.lt_succ_self N) (ih (fun n acc hn => hf n acc (Nat.lt_succ_of_lt hn)))

section Fact
variable {a s : State} {g : Program} (ha : Idle a) (hw : ∀ y n, a.writeWaits y n = false)
  (hhold : a.bit (mPage .opt) Reg.OPT_OPT_CTL 0 = false) (hexport : a.exportActive = false) (hprog : g.prog = 2)
  (hstride : 2 * g.p.cols ≤ g.p.wstride)
  (hfirst : Apart (dq g.d 4) ((g.p.rows - 1) * g.p.wstride + 2 * g.p.cols) (dq g.d 8) (layoutSize g.p.rows g.p.cols))

omit ha hw hhold hexport hprog hstride hfirst in
theorem InWeights.bounds {r y : Nat} (h : InWeights g r y) (hr : r < g.p.rows) :
    dq g.d 4 ≤ y ∧ y < dq g.d 4 + ((g.p.rows - 1) * g.p.wstride + 2 * g.p.cols) := by
  have hle : r * g.p.wstride ≤ (g.p.rows - 1) * g.p.wstride := Nat.mul_le_mul_right _ (by omega)
  unfold InWeights at h
  omega

include hstride in
/-- The rows of the weights do not meet. -/
theorem InWeights.unique {r n y : Nat} (h : InWeights g r y) (k : InWeights g n y) : r = n := by
  unfold InWeights at h k
  obtain hlt | heq | hlt := Nat.lt_trichotomy r n
  · have := mul_add_le_mul (k := g.p.wstride) hlt
    omega
  · exact heq
  · have := mul_add_le_mul (k := g.p.wstride) hlt
    omega

include hfirst in
theorem not_inRow_of_inWeights {r n y : Nat} (h : InWeights g r y) (hr : r < g.p.rows) (hn : n < g.p.rows) :
    ¬ InRow (dq g.d 8) g.p.rows g.p.cols n y := by
  intro hy
  have hb := hy.bounds hn
  have hc := h.bounds hr
  omega

include hprog hstride hfirst in
/-- What the second pass makes of row n is given by memory before the program. -/
theorem factStored_elem {u : State} {m : List Host.Cell} {n j : Nat} (h : FactStored a s g n u m) (hn : n < g.p.rows) (hj : j < g.p.cols) :
    (factElem g (factMean s g) ((factRows s g).getD n .nan)
      ((gradAt s.mem g n j, decodeElem (fmt16 (db g.d 0 8)) (codeAt m g n j)),
        (momentIn m (dq g.d 8) g.p.rows g.p.cols n j, (factCols s g).getD j .nan))).1 = factWeight s g n j := by
  have hcode : codeAt m g n j = codeAt s.mem g n j := by
    unfold codeAt
    rw [if_neg (by rw [hprog]; omega), if_neg (by rw [hprog]; omega)]
    refine congrArg leNat (memBytes_congr (fun y hlo hhi => h.others y (fun r hr => ?_)))
    have hy : InWeights g n y := ⟨by omega, by omega⟩
    exact ⟨fun hr' => by have := InWeights.unique hstride hr' hy; omega, not_inRow_of_inWeights hfirst hy hn (by omega)⟩
  have hmoment : momentIn m (dq g.d 8) g.p.rows g.p.cols n j = momentIn s.mem (dq g.d 8) g.p.rows g.p.cols n j :=
    momentIn_congr hj (fun y hy => h.others y (fun r hr => ⟨fun hr' => not_inRow_of_inWeights hfirst hr' (by omega) hn hy,
      fun hr' => by have := hr'.unique hy (by omega) hn; omega⟩))
  rw [factWeight, hcode, hmoment]

include ha hw hhold hexport hprog hstride hfirst in
theorem factStored_step {owner : Nat × Nat × Nat} {acc : FactPass} {u : State} {m : List Host.Cell} {n : Nat}
    (h : FactStored a s g n acc.1 m) (hn : n < g.p.rows) (hrow : FactRow s owner g acc n u) : ∃ m', FactStored a s g (n + 1) u m' := by
  obtain ⟨out, ms, rnd, hout, hu⟩ := hrow
  rw [h.works.mem] at hout
  have hweights : out.map Prod.fst = (List.range g.p.cols).map (factWeight s g n) := by
    rw [hout]
    exact List.map_congr_left (fun j hj => factStored_elem hprog hstride hfirst h hn (List.mem_range.1 hj))
  have hlen : out.length = g.p.cols := by
    have hl := congrArg List.length hweights
    simpa using hl
  dsimp only at hu
  rw [hweights] at hu
  have hput := putWeights_works ha hw h.works hhold hexport owner g n (acc.1.weightRow g n) (factWeight s g n) acc.2.1
  generalize acc.1.putWeights owner g n (acc.1.weightRow g n) ((List.range g.p.cols).map (factWeight s g n)) acc.2.1 = r at hput hu
  obtain ⟨m', hdone, hkept⟩ := putStateRow_works ha hw hput owner (dq g.d 8) g.p.rows g.p.cols n
    ((unlessHeld_length_le r.2.2 (out.map Prod.snd) ms).trans (by rw [List.length_map, hlen])) rnd r.2.1
  have hother {y : Nat} (hy : ¬ InWeights g n y) : memGet (memPut m (dq g.d 4 + n * g.p.wstride) (weightBytes g n (factWeight s g n))) y =
      memGet m y := by
    refine memGet_put_other _ _ _ _ ?_
    rw [length_weightBytes]
    unfold InWeights at hy
    omega
  have hword {k j : Nat} (hk : k < g.p.rows) (hj : j < g.p.cols) : word16 m' (dq g.d 4 + k * g.p.wstride + 2 * j) =
      word16 (memPut m (dq g.d 4 + n * g.p.wstride) (weightBytes g n (factWeight s g n))) (dq g.d 4 + k * g.p.wstride + 2 * j) :=
    congrArg leNat (memBytes_congr (fun y hlo hhi => hkept y (not_inRow_of_inWeights hfirst (r := k) ⟨by omega, by omega⟩ hk hn)))
  refine ⟨m', by rw [hu]; exact hdone, fun k j hk hj => ?_, fun y hy => ?_⟩
  · obtain hlt | rfl := Nat.lt_succ_iff_lt_or_eq.1 hk
    · rw [hword (by omega) hj, ← h.words k j hlt hj]
      refine congrArg leNat (memBytes_congr (fun y hlo hhi => hother (fun hy => ?_)))
      have := InWeights.unique hstride hy (n := k) ⟨by omega, by omega⟩
      omega
    · rw [hword hn hj, word16_weightBytes _ _ _ _ _ hj]
  · obtain ⟨hn', hn''⟩ := hy n (Nat.lt_succ_self n)
    rw [hkept y hn'', hother hn']
    exact h.others y (fun r hr => hy r (Nat.lt_succ_of_lt hr))

include ha hw hhold hexport hprog hstride hfirst in
/-- Every weight of factored ADAMW is its rounded formula. -/
theorem updateFact_works (hs : Works a s.mem s) (hfresh : g.fresh = false)
    (hsecond : Apart (dq g.d 4) ((g.p.rows - 1) * g.p.wstride + 2 * g.p.cols) (dq g.d 10) (layoutSize 1 g.p.rows + layoutSize 1 g.p.cols))
    (owner : Nat × Nat × Nat) :
    ∃ m', Works a m' (s.updateFact owner g).1 ∧ ∀ n j, n < g.p.rows → j < g.p.cols → word16 m' (dq g.d 4 + n * g.p.wstride + 2 * j) =
      (convert16 (fmt16 (db g.d 0 8)) (.sr (draw g.key (4 * (n * g.p.cols + j)))) (factWeight s g n j)).code % 65536 := by
  obtain ⟨f, vs₁, vs₂, rnd₁, rnd₂, y₁, y₂, heq, hlen₁, hlen₂, hf⟩ := updateFact_shape hs.idle hfresh owner
  obtain ⟨m, hpass⟩ := foldl_range_holds (P := fun n (acc : FactPass) => ∃ m, FactStored a s g n acc.1 m) (f := f) (s := (s, {}, 0, []))
    (N := g.p.rows) ⟨s.mem, hs, fun r j hr => absurd hr (Nat.not_lt_zero r), fun _ _ => rfl⟩
    (fun n acc hn ⟨m, hm⟩ => factStored_step ha hw hhold hexport hprog hstride hfirst hm hn (hf acc n hm.works.idle hn))
  generalize (List.range g.p.rows).foldl f (s, {}, 0, []) = pass at heq hpass
  obtain ⟨m₁, hrows, hkept₁⟩ := putStateRow_works ha hw hpass.works owner (dq g.d 10) 1 g.p.rows 0 hlen₁ rnd₁ y₁
  obtain ⟨m₂, hcols, hkept₂⟩ := putStateRow_works ha hw hrows owner (dq g.d 10 + layoutSize 1 g.p.rows) 1 g.p.cols 0 hlen₂ rnd₂ y₂
  refine ⟨m₂, by rw [heq]; exact hcols, fun n j hn hj => ?_⟩
  rw [← hpass.words n j hn hj]
  refine congrArg leNat (memBytes_congr (fun y hlo hhi => ?_))
  have hy := InWeights.bounds (g := g) (r := n) (y := y) ⟨by omega, by omega⟩ hn
  rw [hkept₂ y (fun h => by have := h.bounds Nat.one_pos; omega), hkept₁ y (fun h => by have := h.bounds Nat.one_pos; omega)]

end Fact

end Sys2Proof.Proofs
end

section
/-! PROOFS. Update programs: the weights that the optimizers store. -/

namespace Sys2Proof.Proofs
open Sys2Proof Sys2Proof.Machine Sys2Proof.Laws

/-! ## An update engine that may run a program (R150, R158, R171, R177, R181, R230) -/

/-- Update engine k of quarter q may start entry i, on memory without errors, with no lease, NaN held back and nothing exported. -/
structure MayUpdate (a : State) (q k i : Nat) (w : WinEntry) : Prop where
  unit : k < 4
  step : a.stepState ∈ [3, 5, 6, 7]
  quiet : ∀ v ∈ (a.queue q (160 + k)).window, v.status ≠ .running
  start : a.startable q (160 + k) = some (i, w)
  clean : Clean a
  settled : a.train.takeUp = none
  exported : a.exportActive = false
  open_ : ∀ y m, a.writeWaits y m = false
  leases : a.leases.writes = []
  path : (a.queue q (160 + k)).pathEnd ≤ a.now
  hold : a.bit (mPage .opt) Reg.OPT_OPT_CTL 0 = false

/-- The new weights of factored ADAMW are given by memory. -/
theorem factWeight_of_mem {s t : State} (hs : Idle s) (ht : Idle t) (hm : t.mem = s.mem) {g : Program} (hfresh : g.fresh = false) (n j : Nat) :
    factWeight t g n j = factWeight s g n j := by
  have hrows : factRows t g = factRows s g := by rw [factRows_eq ht hfresh, factRows_eq hs hfresh, hm]
  have hcols : factCols t g = factCols s g := by rw [factCols_eq ht hfresh, factCols_eq hs hfresh, hm]
  rw [factWeight, factWeight, factMean, factMean, hrows, hcols, hm]

section Run
variable {a : State} {q k i : Nat} {w : WinEntry} {g : Program} (h : MayUpdate a q k i w) (hg : g = a.programOf q (a.startsUpdate q w))
include h hg

theorem fresh_of_mayUpdate : g.fresh = false := by
  rw [hg, State.programOf, h.settled]
  rfl

/-- A program of one row stores, for each element that has one, its weight. -/
theorem runUpdate_row (hprog : g.prog ≠ 2) (hrows : g.p.rows = 1) (hfirst : Apart (dq g.d 4) (2 * g.p.cols) (dq g.d 8) (layoutSize 1 g.p.cols))
    (hsecond : g.prog ≠ 3 → Apart (dq g.d 4) (2 * g.p.cols) (dq g.d 10) (layoutSize 1 g.p.cols)) {j : Nat} {x : Machine.Num}
    (hj : j < g.p.cols) (hx : (elemAt a.mem g 0 j).w = some x) :
    word16 (a.runUpdate q k g.prog).mem (dq g.d 4 + 2 * j) =
      (convert16 (fmt16 (db g.d 0 8)) (.sr (draw g.key (4 * j))) x).code % 65536 := by
  have ha := idle_of_clean h.clean
  have hrun {v : State} (hv : Works a a.mem v) (owner : Nat × Nat × Nat) :=
    programRun_row ha h.open_ h.hold h.exported (fresh_of_mayUpdate h hg) hprog hrows hfirst hsecond hv owner
  obtain ⟨v, owner, hv, hmem⟩ := runUpdate_mem (prog := g.prog) ha h.unit h.step h.quiet h.start (by rw [hg]; rfl) h.exported h.leases h.path
    (fun v owner hv => by
      obtain ⟨m', hdone, -⟩ := hrun hv owner
      rw [← hg]
      exact ⟨m', hdone⟩)
  obtain ⟨m', hdone, hwords⟩ := hrun hv owner
  rw [hmem, ← hg, hdone.mem]
  exact hwords j x hj hx

/-- Factored ADAMW stores every weight. -/
theorem runUpdate_fact (hprog : g.prog = 2) (hstride : 2 * g.p.cols ≤ g.p.wstride)
    (hfirst : Apart (dq g.d 4) ((g.p.rows - 1) * g.p.wstride + 2 * g.p.cols) (dq g.d 8) (layoutSize g.p.rows g.p.cols))
    (hsecond : Apart (dq g.d 4) ((g.p.rows - 1) * g.p.wstride + 2 * g.p.cols) (dq g.d 10) (layoutSize 1 g.p.rows + layoutSize 1 g.p.cols))
    {n j : Nat} (hn : n < g.p.rows) (hj : j < g.p.cols) :
    word16 (a.runUpdate q k g.prog).mem (dq g.d 4 + n * g.p.wstride + 2 * j) =
      (convert16 (fmt16 (db g.d 0 8)) (.sr (draw g.key (4 * (n * g.p.cols + j)))) (factWeight a g n j)).code % 65536 := by
  have ha := idle_of_clean h.clean
  have hfresh := fresh_of_mayUpdate h hg
  have hrun {v : State} (hv : Works a a.mem v) (owner : Nat × Nat × Nat) : ∃ m', Works a m' (programRun v owner g).1 ∧
      ∀ n j, n < g.p.rows → j < g.p.cols → word16 m' (dq g.d 4 + n * g.p.wstride + 2 * j) =
        (convert16 (fmt16 (db g.d 0 8)) (.sr (draw g.key (4 * (n * g.p.cols + j)))) (factWeight a g n j)).code % 65536 := by
    obtain ⟨m', hdone, hwords⟩ := updateFact_works (s := v) ha h.open_ h.hold h.exported hprog hstride hfirst (by rw [hv.mem]; exact hv)
      hfresh hsecond owner
    refine ⟨m', by rw [programRun, if_pos hprog]; exact hdone, fun n j hn hj => ?_⟩
    rw [hwords n j hn hj, factWeight_of_mem ha hv.idle hv.mem hfresh]
  obtain ⟨v, owner, hv, hmem⟩ := runUpdate_mem (prog := g.prog) ha h.unit h.step h.quiet h.start (by rw [hg]; rfl) h.exported h.leases h.path
    (fun v owner hv => by
      obtain ⟨m', hdone, -⟩ := hrun hv owner
      rw [← hg]
      exact ⟨m', hdone⟩)
  obtain ⟨m', hdone, hwords⟩ := hrun hv owner
  rw [hmem, ← hg, hdone.mem]
  exact hwords n j hn hj

end Run

/-! ## The elements of a row (R174, R176, R178) -/

section Elem
variable {g : Program} (m : List Host.Cell) (j : Nat)

/-- The elements of the first row. -/
theorem gradAt_first : gradAt m g 0 j =
    if g.prog = 15 ∧ dq g.d 6 = 0 then .zero else decodeElem (fmt16 (db g.d 0 9)) (word16 m (dq g.d 6 + 2 * j)) := by
  rw [gradAt, Nat.zero_mul, Nat.add_zero]

theorem codeAt_first : codeAt m g 0 j = if g.prog = 15 ∧ dq g.d 4 = 0 then 0 else word16 m (dq g.d 4 + 2 * j) := by
  rw [codeAt, Nat.zero_mul, Nat.add_zero]

theorem elemAt_adamw (h : g.prog = 1) (hrows : g.p.rows = 1) : (elemAt m g 0 j).w = some (adamw g.k
    (decodeElem (fmt16 (db g.d 0 9)) (word16 m (dq g.d 6 + 2 * j))) (decodeElem (fmt16 (db g.d 0 8)) (word16 m (dq g.d 4 + 2 * j)))
    (momentIn m (dq g.d 8) 1 g.p.cols 0 j) (momentIn m (dq g.d 10) 1 g.p.cols 0 j)).1 := by
  rw [elemAt, elemOf, gradAt_first, codeAt_first, firstAt, secondAt, hrows]
  simp [h]

theorem elemAt_sgdm (h : g.prog = 3) (hrows : g.p.rows = 1) : (elemAt m g 0 j).w = some (sgdm g.k
    (decodeElem (fmt16 (db g.d 0 9)) (word16 m (dq g.d 6 + 2 * j))) (decodeElem (fmt16 (db g.d 0 8)) (word16 m (dq g.d 4 + 2 * j)))
    (momentIn m (dq g.d 8) 1 g.p.cols 0 j)).1 := by
  rw [elemAt, elemOf, gradAt_first, codeAt_first, firstAt, hrows]
  simp [h]

/-- CUSTOM code whose weights are there works on what its streams hold, and one whose weights are absent stores none. -/
theorem elemAt_custom (h : g.prog = 15) (hrows : g.p.rows = 1) (hw : dq g.d 4 ≠ 0) : elemAt m g 0 j = customElem g
    (if dq g.d 6 ≠ 0 then decodeElem (fmt16 (db g.d 0 9)) (word16 m (dq g.d 6 + 2 * j)) else .zero)
    (decodeElem (fmt16 (db g.d 0 8)) (word16 m (dq g.d 4 + 2 * j)))
    (if dq g.d 8 ≠ 0 then momentIn m (dq g.d 8) 1 g.p.cols 0 j else .zero)
    (if dq g.d 10 ≠ 0 then momentIn m (dq g.d 10) 1 g.p.cols 0 j else .zero) := by
  rw [elemAt, elemOf, if_pos h, gradAt_first, codeAt_first, firstAt, secondAt, hrows]
  simp [h, hw]

theorem customElem_none (x w v z : Machine.Num) (h : dq g.d 4 = 0) : (customElem g x w v z).w = none := by
  simp [customElem, h]

end Elem

/-- Settles O40: each row is read before it is stored, and no store reaches what a later one reads. -/
theorem optimizersFollowTheirFormulas : Obligations.OptimizersFollowTheirFormulas := by
  unfold Obligations.OptimizersFollowTheirFormulas
  refine ⟨?_, ?_⟩
  · intro t q k i prog w s
    dsimp only
    intro hk hstep hquiet hstart _ hprog hrows hclean _ htake hexport hopen hleases hpath hhold hfirst hsecond
    have hmay : MayUpdate (s.advance t) q k i w := ⟨hk, hstep, hquiet, hstart, hclean, htake, hexport, hopen, hleases, hpath, hhold⟩
    generalize hs : s.advance t = a at *
    obtain ⟨g, hg⟩ : ∃ g, g = a.programOf q (a.startsUpdate q w) := ⟨_, rfl⟩
    have hd : g.d = w.desc := by rw [hg]; rfl
    have hp : g.prog = prog := by rw [hg, ← hprog]; rfl
    rw [← hg] at hrows hfirst hsecond ⊢
    rw [← hd] at hfirst hsecond ⊢
    have hrow {j : Nat} {x : Machine.Num} (h2 : prog ≠ 2) := runUpdate_row (j := j) (x := x) hmay hg (by rw [hp]; exact h2) hrows hfirst
      (by rw [hp]; exact hsecond)
    rw [hp] at hrow
    refine ⟨fun h => ⟨a.runUpdate q k 1, by rw [← hs]; rfl, fun j hj => ?_⟩, fun h => ⟨a.runUpdate q k 3, by rw [← hs]; rfl, fun j hj => ?_⟩,
      fun h => ⟨a.runUpdate q k 15, by rw [← hs]; rfl, fun j x hj hx => ?_⟩⟩
    · subst h
      have hhas (i : Nat) : decide ((1 : Nat) ≠ 15 ∨ dq g.d i ≠ 0) = true := by simp
      have hword := hrow (by decide) hj (elemAt_adamw a.mem j hp hrows)
      simp only [hhas, if_true, show ¬ (1 : Nat) = 3 by decide, if_false]
      exact hword
    · subst h
      have hhas (i : Nat) : decide ((3 : Nat) ≠ 15 ∨ dq g.d i ≠ 0) = true := by simp
      have hword := hrow (by decide) hj (elemAt_sgdm a.mem j hp hrows)
      simp only [hhas, if_true]
      exact hword
    · subst h
      have hhas (i : Nat) : decide ((15 : Nat) ≠ 15 ∨ dq g.d i ≠ 0) = decide (dq g.d i ≠ 0) := by simp
      simp only [hhas, decide_eq_true_eq] at hx
      have hthere : dq g.d 4 ≠ 0 := by
        intro habsent
        rw [customElem_none _ _ _ _ habsent] at hx
        exact absurd hx (by simp)
      rw [if_pos hthere] at hx
      exact hrow (by decide) hj ((congrArg Elem.w (elemAt_custom a.mem j hp hrows hthere)).trans hx)
  · intro t q k i w s
    dsimp only
    intro hk hstep hquiet hstart _ hprog hclean _ htake hexport hopen hleases hpath hhold hstride hfirst hsecond
    have hmay : MayUpdate (s.advance t) q k i w := ⟨hk, hstep, hquiet, hstart, hclean, htake, hexport, hopen, hleases, hpath, hhold⟩
    generalize hs : s.advance t = a at *
    obtain ⟨g, hg⟩ : ∃ g, g = a.programOf q (a.startsUpdate q w) := ⟨_, rfl⟩
    have hd : g.d = w.desc := by rw [hg]; rfl
    have hp : g.prog = 2 := by rw [hg, ← hprog]; rfl
    rw [← hg] at hstride hfirst hsecond ⊢
    rw [← hd] at hfirst hsecond ⊢
    refine ⟨a.runUpdate q k 2, by rw [← hs]; rfl, fun n j hn hj => ?_⟩
    have hword := runUpdate_fact hmay hg hp hstride hfirst hsecond hn hj
    have hgrad (n j : Nat) : gradAt a.mem g n j = decodeElem (fmt16 (db g.d 0 9)) (word16 a.mem (dq g.d 6 + n * g.p.gstride + 2 * j)) := by
      rw [gradAt, if_neg (by rw [hp]; omega)]
    have hcode : codeAt a.mem g n j = word16 a.mem (dq g.d 4 + n * g.p.wstride + 2 * j) := by rw [codeAt, if_neg (by rw [hp]; omega)]
    have hfresh := fresh_of_mayUpdate hmay hg
    rw [hp, factWeight, factMean, factRows_eq (idle_of_clean hclean) hfresh, factCols_eq (idle_of_clean hclean) hfresh,
      List.getD_eq_getElem _ _ (by simpa using hn), List.getD_eq_getElem _ _ (by simpa using hj), List.getElem_map, List.getElem_map,
      List.getElem_range, List.getElem_range, hcode] at hword
    simp only [hgrad] at hword
    exact hword

end Sys2Proof.Proofs
end
